-- ==== Sys2Proof/Word.lean ====
section
/-! DEFINITION. The word types of the A96 model and the sparse tables its state is made of. -/

namespace Sys2Proof

/-- A byte. -/
abbrev Byte := BitVec 8
/-- A set-up register or fp32 word (R171). -/
abbrev Word := BitVec 32
/-- A 64-bit value, such as a host address, a partition address or a tally. -/
abbrev DWord := BitVec 64

/-- A sparse table: the entries of a family of like objects that differ from what an unlisted one
holds, by rising key.  The default is an argument of the operations (`Machine.Ops`). -/
abbrev Tab (α : Type) := List (Nat × α)

end Sys2Proof
end

