-- ==== Sys2Proof/Syntax.lean ====
section
/-! DEFINITION. The commands of the A96: one constructor per row of spec/opcode_table.json, with the row's operands.
An operand is what arrives from outside with the command (an address, a value, a port, a sensor's reading,
which object the event names); what the machine itself knows is read from the state. -/

namespace Sys2Proof

/-- How a host read or request can fail (R265, R349): Unsupported Request or Completer Abort, completion
timeout, poisoned data. -/
inductive HostFail where
  | urca | timeout | poison
  deriving DecidableEq, Repr

/-- What a completion for an outstanding host read brings. -/
inductive HostRes where
  | data (bytes : List Byte)
  | fail (cause : HostFail)
  deriving DecidableEq, Repr

/-- A configuration request of the PCI Express subset that the machine keeps (R204, R788). -/
inductive CfgWrite where
  | mps (v : BitVec 3)
  | mrrs (v : BitVec 3)
  | bme (on : Bool)
  | sriov (numVfs : BitVec 4) (vfEn : Bool)
  deriving DecidableEq, Repr

/-- A failed item of a bring-up stage, or of the stages a tray or module runs for itself: the layout of BOOT_ITEM_i
(R549). -/
structure BootItem where
  stage : Nat
  tray : Nat
  slot : Nat
  die : Nat
  isle : Nat
  pos : Nat
  cause : Nat
  deriving DecidableEq, Repr

/-- The levels at which a cap is set (Table 16-3). -/
inductive CapLevel where
  | module (w : Fin 96)
  | partition (p : BitVec 6)
  | rack
  deriving DecidableEq, Repr

/-- The CDU's readings, which every channel has from the steward bay's warden (R614, R667). -/
structure CduRead where
  supply : BitVec 12
  ret : BitVec 12
  facSupply : BitVec 12
  facRet : BitVec 12
  flow : BitVec 10
  deriving DecidableEq, Repr

/-- What a control acknowledgement of a scanner brings (R465, R467): success with data, the device's error status, or a
packet that fails its CRC. -/
inductive CtlAck where
  | ok (bytes : List Byte)
  | error (status : BitVec 8)
  | badCrc
  deriving DecidableEq, Repr

/-- A management order's way in (R663, R666): a Redfish session, or the console under a local account. -/
inductive Mgmt where
  | redfish (session : Nat)
  | console (account : Nat)
  deriving DecidableEq, Repr

/-- Who gives an order that has a register, too: a host port through the set-up window, or management. -/
inductive Source where
  | window (port : BitVec 4)
  | mgmt (m : Mgmt)
  deriving DecidableEq, Repr

/-- A light that LocationIndicatorActive asks for (R675). -/
inductive LocTarget where
  | rack
  | tray (t : Fin 18)
  | module (w : Fin 96)
  deriving DecidableEq, Repr

/-- The standard operations of the account, session, event, certificate and network-protocol services (R661, R662). -/
inductive StdOp where
  | accountCreate (account password role : Nat)
  | accountDelete (account : Nat)
  | sessionDelete (session : Nat)
  | sessionTimeout (seconds : Nat)
  | subscribe (sub destination : Nat)
  | unsubscribe (sub : Nat)
  | certificate (cert : Nat)
  | ntpServers (servers : List Nat)
  deriving DecidableEq, Repr

/-- A module that a tray brings with it: its MOD_FUSE word, serial number and manufacturing record (Tables 15-6, 22-9,
22-10). -/
structure ModFuse where
  fuse : BitVec 32
  serial : BitVec 64
  record : List (BitVec 32)
  deriving DecidableEq, Repr

/-- The five engine classes of a ring (Table 7-1). -/
inductive EngClass where
  | mx | vx | mv | fx | ix
  deriving DecidableEq, Repr


/-- The commands (events, accesses and orders) of the machine, in the order of the table. -/
inductive Instr where
  -- the set-up window (ch. 5)
  | setupRegisterWrite (port : BitVec 4) (off : BitVec 26) (be : BitVec 4) (val : Word)
  | pairLoWrite (port : BitVec 4) (off : BitVec 26) (be : BitVec 4) (val : Word)
  | pairHiCommit (port : BitVec 4) (off : BitVec 26) (be : BitVec 4) (val : Word)
  | rcRegisterRead (port : BitVec 4) (off : BitVec 26) (be : BitVec 4)
  | strapOverrideWrite (port : BitVec 4) (val : Word)
  | pcieConfigWrite (port fn : BitVec 4) (cfg : CfgWrite)
  | nudge (port fn : BitVec 4) (off : BitVec 12) (be : BitVec 4)
  -- tenants, partitions, host functions (ch. 6)
  | tenantEnable (port : BitVec 4) (n : BitVec 4)
  | tenantDisable (port : BitVec 4) (n : BitVec 4)
  | tenantWindDownDone (n : BitVec 4)
  | partitionEnable (port : BitVec 4) (p : BitVec 6)
  | partitionEnableDone (p : BitVec 6)
  | partitionDisable (port : BitVec 4) (p : BitVec 6)
  | partitionCut (port : BitVec 4) (p : BitVec 6)
  | partitionWindDownDone (p : BitVec 6)
  | functionLevelReset (port fn : BitVec 4)
  | hotReset (port : BitVec 4)
  | linkDown (port : BitVec 4)
  | hostLinkUp (port : BitVec 4) (speed : BitVec 3) (width : BitVec 5) (flit : Bool)
  | vfDisable (port : BitVec 4) (numVfs : BitVec 4) (vfEn : Bool)
  | busMasterEnableChange (port fn : BitVec 4) (on : Bool)
  | flrResetDone (n : BitVec 4)
  | flrDrainTimeout (n : BitVec 4)
  | flrScrubDone (n : BitVec 4)
  -- rings (ch. 7)
  | ringEnable (port : BitVec 4) (r : BitVec 12)
  | ringDisable (port : BitVec 4) (r : BitVec 12)
  | ringWindDownDone (r : BitVec 12)
  | scanDue (p : BitVec 6)
  | scanReadComplete (p : BitVec 6) (data : List Byte)
  | scanFailed (p : BitVec 6) (cause : HostFail)
  | hostReadTimeout (id : Nat)
  | ringFetchIssue (r : BitVec 12)
  | ringFetchComplete (r : BitVec 12) (data : List Byte)
  | ringFetchFailed (r : BitVec 12) (cause : HostFail)
  | dispatcherRound (p : BitVec 6) (eng : EngClass)
  -- the 13 ring opcodes (chs. 8, 9, 11, 12): the head command of ring r
  | nop (r : BitVec 12)
  | waitTally (r : BitVec 12)
  | settle (r : BitVec 12)
  | mxGemm (r : BitVec 12)
  | mxAttn (r : BitVec 12)
  | vxElt (r : BitVec 12)
  | vxReduce (r : BitVec 12)
  | vxCombine (r : BitVec 12)
  | mvCopy (r : BitVec 12)
  | fxSend (r : BitVec 12)
  | fxReduce (r : BitVec 12)
  | fxAwait (r : BitVec 12)
  | ixFrame (r : BitVec 12)
  -- completion and waiting (chs. 7, 8)
  | commandComplete (r : BitVec 12) (seq : DWord)
  | tallyWrite (r : BitVec 12)
  | heldWriteFlush (n : BitVec 4)
  | waitTallySatisfied (r : BitVec 12) (seq : DWord)
  | waitTallyTimeout (r : BitVec 12) (seq : DWord)
  | settleComplete (r : BitVec 12) (seq : DWord)
  | fxAwaitSatisfied (r : BitVec 12) (seq : DWord)
  | fxAwaitTimeout (r : BitVec 12) (seq : DWord)
  | ixFrameTimeout (r : BitVec 12) (seq : DWord)
  -- tiles (chs. 3, 4, 8)
  | tableLoadComplete (r : BitVec 12) (seq : DWord) (isle : Nat) (core : BitVec 4)
  | mxTileHandover (r : BitVec 12) (seq : DWord) (tile : Nat)
  | epilogueEnd (r : BitVec 12) (seq : DWord) (tile : Nat)
  | spilledFollowerStart (r : BitVec 12) (seq : DWord)
  | vxTileEnd (r : BitVec 12) (seq : DWord) (tile : Nat)
  -- fences (chs. 3, 19)
  | coreFence (w : Fin 96) (die isle : BitVec 2) (core : BitVec 4) (cause : BitVec 4)
  | coreStallTimeout (w : Fin 96) (die isle : BitVec 2) (core : BitVec 4)
  | faultCoreFenceOrder (port : BitVec 4) (val : Word)
  | spareColumnCopyDone (w : Fin 96) (die isle : BitVec 2)
  -- move channels (ch. 9)
  | mvChGo (port : BitVec 4) (w : Fin 96) (n : BitVec 2)
  | mvChAbort (port : BitVec 4) (w : Fin 96) (n : BitVec 2)
  | mvTransferComplete (w : Fin 96) (die isle : BitVec 2) (core : BitVec 4) (n : BitVec 2)
  | mvWindDownDone (w : Fin 96) (die isle : BitVec 2) (core : BitVec 4) (n : BitVec 2)
  | mvDiagEnable (port : BitVec 4) (w : Fin 96)
  | mvDiagActive (w : Fin 96)
  | mvDiagDisable (port : BitVec 4) (w : Fin 96)
  | mvDiagExitScrubDone (w : Fin 96)
  -- the fabric (ch. 11)
  | packetArrival (tag : Nat) (good : Bool)
  | landReceived (tag : Nat)
  | nackReceived (tag : Nat)
  | ackTimeout (tag : Nat)
  | duplicateRecordExpiry (tag : Nat)
  | linkTrainingLost (l : Fin 800)
  | failedLinkMapUpdate
  | fabLinkFence (port : BitVec 4) (l : BitVec 10)
  | fabLinkUnfence (port : BitVec 4) (l : BitVec 10)
  | linkRetrainDone (l : Fin 800) (ok : Bool)
  | fxReduceFold (r : BitVec 12) (seq : DWord) (m : Nat)
  -- shape and the Sound (ch. 10)
  | fabShapeReq (src : Source) (shape : BitVec 2)
  | shapePreparationDone
  | shapePreparationFailed (circuits : List (BitVec 8))
  | shapeHoldRelease (seams : List (Fin 800)) (circuits : List (BitVec 8))
  | soundFault
  | soundCircuitsSet
  | soundCircuitFailed (circuit : BitVec 8)
  | soundServiceEnter (src : Source)
  | soundServiceLeave (src : Source)
  | soundSelfTestDone (ok : Bool)
  | soundExtWrite (port : BitVec 4) (e : Fin 24) (val : Word)
  -- long sequences (ch. 12)
  | attnTileStepDispatch (r : BitVec 12) (seq : DWord) (slab tile : Nat)
  | attnTileStepEnd (r : BitVec 12) (seq : DWord) (slab tile : Nat)
  | attnChunkForward (r : BitVec 12) (seq : DWord) (slab step chunk : Nat)
  | attnBufferRelease (r : BitVec 12) (seq : DWord) (slab step : Nat)
  | attnStall (r : BitVec 12) (seq : DWord) (slab step : Nat) (sender : Bool)
  | cxpCtlWrite (port : BitVec 4) (k : Fin 8) (val : Word)
  | discoveryAttempt (k : Fin 8) (found : BitVec 4)
  | discoveryComplete (k : Fin 8) (rates : List (BitVec 7)) (count : BitVec 3) (refused : Bool)
  | cxpReconfig (port : BitVec 4) (k : Fin 8)
  | cxpDetach (port : BitVec 4) (k : Fin 8)
  | pocxpFault (k : Fin 8) (mask : BitVec 4)
  | imageHeaderArrival (k : Fin 8) (stream : BitVec 8) (w h : BitVec 24) (bayer : Bool) (cfa : BitVec 2) (bits : BitVec 5)
  | streamPacketArrival (k : Fin 8) (stream : BitVec 8) (good long : Bool) (bytes : List Byte)
  | controlAckArrival (k : Fin 8) (a : CtlAck)
  | controlPacketTimeout (k : Fin 8)
  | eventPacketArrival (k : Fin 8) (id : BitVec 16) (payload : List Byte)
  | scannerDetach (k : Fin 8)
  | extensionLockLost (k : Fin 8) (mask : BitVec 4)
  | frameIdleTimeout (k : Fin 8)
  | gcRead (port : BitVec 4) (k : Fin 8)
  | gcWrite (port : BitVec 4) (k : Fin 8)
  | pinConfigWrite (port : BitVec 4) (k : Fin 8) (m : BitVec 4) (val : Word)
  | pinHoldEnd (k : Fin 8) (m : BitVec 4) (ph : BitVec 2)
  | pinInputEdge (k : Fin 8) (m : BitVec 4) (level : Bool) (ph : BitVec 2)
  | triggerArm (port : BitVec 4) (k : Fin 8) (val : Word)
  | trigFire (port : BitVec 4) (k : Fin 8) (ph : BitVec 2)
  | timedTrigger (k : Fin 8)
  | scheduledOutputEdge (k : Fin 8) (ph : BitVec 2)
  | outputOverload (k : Fin 8) (m : BitVec 5)
  | outputFaultRetry (k : Fin 8) (m : BitVec 5) (ok : Bool)
  | trigOverrunReport (k : Fin 8)
  | unitTaken (pl : Fin 8)
  | earlyEndMarkerReport (k : Fin 8)
  | unitLastWrite (pl : Fin 8)
  | pipeEnable (port : BitVec 4) (k : Fin 8)
  | pipeDisable (port : BitVec 4) (k : Fin 8)
  | pipeWindDownDone (k : Fin 8)
  | pipeBankWrite (port : BitVec 4) (k : Fin 8) (val : Word)
  | bankLoad (port : BitVec 4) (k : Fin 8) (bank : Bool)
  | bankLoadComplete (k : Fin 8) (data : List Byte) (failed : Bool)
  | frameDroppedReport (k : Fin 8)
  | powerOn (straps : List Word)
  | stageEnd (items : List BootItem)
  | stageBoundExpiry (items : List BootItem)
  | calibrationLoopEnd (w : Fin 96) (d : BitVec 2) (ceil : Bool) (n : BitVec 17)
  | coldWaitTimeout (w : Fin 96) (d : BitVec 2)
  | transportSwitch (on : Bool)
  | bootAck (src : Source)
  | restart (src : Source) (val : Word)
  | displayCycle
  | locateButton
  | lampTest
  | lampTestEnd
  | reArm
  | shelfReport (shelf : BitVec 2) (good : BitVec 3) (present : Bool) (out : BitVec 16)
  | powerOrderHost (port : BitVec 4) (w : Fin 96) (val : Word)
  | powerOrderRm (session : Nat) (w : Fin 96) (v : BitVec 2)
  | moduleCapHostWrite (port : BitVec 4) (w : Fin 96) (val : Word)
  | partitionCapHostWrite (port : BitVec 4) (p : BitVec 6) (val : Word)
  | rackCapHostWrite (port : BitVec 4) (val : Word)
  | redfishPowerLimit (session : Nat) (l : CapLevel) (v : Nat)
  | railSequenceUpDone (w : Fin 96)
  | railSequenceDownDone (w : Fin 96)
  | railRampMiss (w : Fin 96)
  | railFault (w : Fin 96) (rail : BitVec 3) (mv : BitVec 16)
  | coreSupplyStep (w : Fin 96)
  | capControllerWindow (w : Fin 96) (power : BitVec 12)
  | powerSpanEnd (span : BitVec 2) (trays : List (BitVec 14 × BitVec 14)) (pumps : BitVec 16) (high : BitVec 18)
  | sagSample (mv : BitVec 16)
  | holdTimerExpiry
  | trayUndervoltage (t : Fin 17)
  | deferredWriteCommit
  | coolingControlPeriod (r : CduRead) (own : List (BitVec 7 × BitVec 7))
  | actuatorOrderReceipt (a : Fin 25) (heard bits : BitVec 3)
  | pumpStop (p : BitVec 1)
  | pumpRetry (p : BitVec 1)
  | pumpRejoin (p : BitVec 1)
  | trayCoolantSample (t : Fin 18) (inlet outlet : BitVec 12) (flow : BitVec 10) (wet : Bool)
  | reservoirLevelChange (lv : BitVec 7)
  | cduLeakSensed (wet : Bool)
  | junctionSensorSample (w : Fin 96) (d : BitVec 2) (readings : List (Option (BitVec 12)))
  | forecasterUpdate (w : Fin 96)
  | comparatorTrip (t : Fin 17) (slot : BitVec 3) (die : BitVec 2)
  | lossOfFlow
  | leakCutoff (t : Fin 17)
  | wardenWatchdogExpiry (t : Fin 18)
  | cduVoterWatchdog
  | heartbeatPeriod (heard : BitVec 6)
  | heartbeatReceipt (claimant : BitVec 2) (epoch : Word)
  | switchback (m : Mgmt) (c : BitVec 2)
  | redfishGet (session row i : Nat)
  | redfishSessionCreate (account password : Nat)
  | datetimeSet (session : Nat) (utc : DWord)
  | ntpStep (utc : DWord)
  | locationIndicatorSet (session : Nat) (g : LocTarget) (on : Bool)
  | consoleStatus (account : Nat)
  | consoleLog (account : Nat) (n : Option Nat)
  | consoleLastwords (account : Nat)
  | wardenStart (t : Fin 18)
  | wardenAdoptionDone (t : Fin 18)
  | logRecordAppend (c : Fin 3)
  | logCopyFailed (c : Fin 3)
  | logCopyRebuilt (c : Fin 3)
  | patrolScrubPass (w : Fin 96) (die isle : BitVec 2) (unit : BitVec 27) (found : BitVec 2)
  | rowRepairDone (w : Fin 96) (die isle : BitVec 2) (slot : BitVec 4) (row : BitVec 16)
  | commandProcessorStall (w : Fin 96) (die : BitVec 2)
  | moduleRetest (port : BitVec 4) (val : Word)
  | retestComplete (w : Fin 96) (items : List BootItem)
  | trayPrepare (port : BitVec 4) (t : Fin 18)
  | trayReady (t : Fin 18)
  | trayCancel (port : BitVec 4) (t : Fin 18)
  | trayRemoval (t : Fin 17)
  | trayInsertion (t : Fin 18) (straps : Word) (slots : List (Option ModFuse))
  | trayJoinComplete (t : Fin 18) (items : List BootItem)
  | keyLoad (port n : BitVec 4)
  | keyBlobJudged (blob : List Byte) (failed : Bool)
  | keyForget (port n : BitVec 4)
  | rotateWk (port : BitVec 4)
  | wrappingKeyRotated
  | keySlotWriteTimeout (w : Fin 96)
  | keySlotRetryExhausted (w : Fin 96)
  | doeDiscovery (port : BitVec 4)
  | getDigests (port : BitVec 4)
  | getCertificate (port : BitVec 4) (slot : BitVec 4) (off len : BitVec 16)
  | challenge (port : BitVec 4) (slot : BitVec 4) (summary : BitVec 8) (nonce : BitVec 256)
  | getMeasurements (port : BitVec 4) (index : BitVec 8) (sign : Bool) (nonce : BitVec 256)
  | spdmUnsupportedRequest (port : BitVec 4)
  | lidSwitchClose (t : Fin 18) (closes : Bool)
  | batteryLow (charge : BitVec 7)
  | whiteoutRearmComplete
  | tiltTrip
  | movingClear (src : Source) (reattitude : Bool)
  | ownerLockSet (m : Mgmt) (on : Bool)
  | updateStart (port : BitVec 4)
  | redfishUpdatePush (session : Nat)
  | simpleUpdate (session : Nat)
  | parcelHeaderJudged (header : List Byte) (failed : Bool)
  | bodyStaged (good : BitVec 3) (failed : Bool)
  | installComplete (skipped : List Nat)
  | instanceSwitch
  | instanceHealthy
  | trialBoundExpiry
  | trialRestart
  | updateResume
  | updateCancel (src : Source)
  | updateConfirm (m : Mgmt)
  | updateFallback (m : Mgmt)
  | fallbackComplete
  | oscillatorFailure
  | keySlotWriteRetry (w : Fin 96) (ok : Bool)
  | hostReadCompletion (id : Nat) (res : HostRes)
  | illegalSetupRead (port fn : BitVec 4) (nudge : Bool) (off : BitVec 26) (be : BitVec 4)
  | redfishSessionTimeout (n : Nat)
  | redfishStandardOperation (session : Nat) (op : StdOp)
  | battLowCondition (charge : BitVec 7)
  deriving DecidableEq, Repr

end Sys2Proof
end

