-- ==== Sys2Proof/Decode.lean ====
section
/-! DEFINITION. Reading a command from a word. The rows of spec/opcode_table.json are commands that arrive from outside the
block; none of them gives bits, so no word spells a command (log 4). The decoding of the machine's own 64-byte ring commands
is in `Machine.Commands`, that of its register offsets in `Machine.Regs`. -/

namespace Sys2Proof

/-- The command that a word spells by the table's bits: none of the rows gives bits. -/
def decodeTableWord (_nbits _w : Nat) : Option Instr := none

end Sys2Proof
end

