-- ==== Sys2Proof/Config.lean ====
section
/-! DEFINITION. What an implementation fixes and the spec leaves open: uninterpreted constants, with no value that a
proof could see (logs 5, 8, 25, 105 and 113). -/

namespace Sys2Proof.Config

/-- The forecaster's node values after an update (R616): `x := a·x + b·p + g·t_inlet`, corrected by the sensors. The matrices
are each die's own, in its module's record, and the activity counters are not part of the spec. Arguments: die (w × 4 + d),
number of the update, the node values, the core setpoint in mV, the inlet temperature and the eight sensors' readings, in
0.25 °C. -/
opaque forecastNext : Nat → Nat → List Int → Nat → Int → List (Option Int) → List Int

/-- The predicted hot spot h of a die 8 ms ahead, in 0.25 °C, for rotation offsets of its four isles (R616). Arguments: die,
number of the update, the node values after it, the setpoint, the inlet temperature, the offsets. -/
opaque forecastHot : Nat → Nat → List Int → Nat → Int → List Nat → Int

/-- A value that the spec leaves open in a developed unit: a sample whose two neighbours both lie outside the frame (R514),
the dust plane with DUST_EN 0 (R517), the offsets of a unit without REG_EN (R524). Arguments: the state's counter of free
values, what it is, and the position. -/
opaque freeSample : Nat → Nat → Nat → Nat → BitVec 32

/-- The mean (0) and rstd (1) that a NORM with C = 0 applies at position k of the reduction: R135 gives the channel as k mod C,
which 0 leaves open (log 113). -/
opaque normNone : Nat → Nat → BitVec 32

/-- How many of a stopped transfer's runs had issued their writes (R340, R351, R356; log 105). Argument: the state's counter of
free values. -/
opaque runsIssued : Nat → Nat

/-- The signature of a parcel's header verifies with a firmware key 0–3 (R749, R750 check 11): ECDSA P-384 over the SHA-384
digest of bytes 0–159. -/
opaque parcelSigned : List Byte → Nat → Bool

/-- The 512-bit value that a key blob's ECDH and AES unwrapping give with the private half of a wrapping-key generation
(R725), or none where the integrity check fails (R726 result 4). -/
opaque unwrapKey : Nat → List Byte → Option (List Byte)

/-- The 512-bit value of a key that the key service makes itself, of 64 bytes (R219 step 7, R341, R720): its random
generator's output, by the key's name. -/
opaque madeKey : Nat → List Byte

/-- The public wrapping key of a generation, as KEY_WPUB holds it: 24 words (R724, R739). -/
opaque wrapPublic : Nat → Nat → BitVec 32

/-- SPDM's contents that a device's identity fixes (R730–R732): the digest of certificate slot 0, its chain, and the images'
measurements by block, as bytes. -/
opaque spdmDigest : Nat → List Nat
opaque spdmChain : List Nat
opaque spdmBlock : Nat → List Nat → List Nat

/-- A signature of the device's attestation key over a transcript (R730, R732). -/
opaque spdmSign : List Nat → List Nat

end Sys2Proof.Config
end

