-- ==== Sys2Proof/Machine/Bits.lean ====
section
/-! DEFINITION. Bit fields, little-endian bytes (R14), saturating counts, and the operations of the sparse tables. -/

namespace Sys2Proof.Machine

/-- Bits [lo + n − 1 : lo] of a number. -/
def bitsAt (v lo n : Nat) : Nat := (v / 2 ^ lo) % 2 ^ n

/-- Bits [lo + n − 1 : lo] of a word. -/
def Fld (v : Word) (lo n : Nat) : Nat := bitsAt v.toNat lo n

/-- Bit i of a word. -/
def bit (v : Word) (i : Nat) : Bool := v.toNat.testBit i

/-- A word from its number. -/
def w32 (n : Nat) : Word := BitVec.ofNat 32 n

/-- A 64-bit value from its number. -/
def w64 (n : Nat) : DWord := BitVec.ofNat 64 n

/-- The number of a bit. -/
def b2n (b : Bool) : Nat := if b then 1 else 0

/-- A saturating count (the counters the register tables call saturating). -/
def satInc {n : Nat} (v : BitVec n) : BitVec n := if v = BitVec.allOnes n then v else v + 1

/-- A saturating addition. -/
def satAdd {n : Nat} (v : BitVec n) (k : Nat) : BitVec n :=
  if v.toNat + k < 2 ^ n then BitVec.ofNat n (v.toNat + k) else BitVec.allOnes n

/-- The bytes of a number, little-endian (R14). -/
def toLE : Nat → Nat → List Byte
  | 0, _ => []
  | k + 1, v => BitVec.ofNat 8 v :: toLE k (v / 256)

/-- The number little-endian bytes spell (R14). -/
def leNat : List Byte → Nat
  | [] => 0
  | b :: t => b.toNat + 256 * leNat t

/-- The little-endian field of `n` bytes at byte `off` of a structure (R17). -/
def fieldAt (bs : List Byte) (off n : Nat) : Nat := leNat ((bs.drop off).take n)

/-- A two's complement number of `n` bits. -/
def signed (n v : Nat) : Int := (BitVec.ofNat n v).toInt

/-- Rounded up division. -/
def cdiv (a b : Nat) : Nat := (a + b - 1) / b

/-- The low 32 bits of a 64-bit value, as a pair's LO (R174). -/
def lo32 (v : DWord) : Word := w32 (v.toNat % 2 ^ 32)

/-- Bits [63:32] of a 64-bit value, as a pair's HI (R174). -/
def hi32 (v : DWord) : Word := w32 (v.toNat / 2 ^ 32)

/-- A pair's value from its halves (R174). -/
def join64 (hi lo : Word) : DWord := w64 (hi.toNat * 2 ^ 32 + lo.toNat)

/-- What a table holds at a key: its entry, or what an unlisted key holds. -/
def tget {α : Type} (d : α) (k : Nat) : Tab α → α
  | [] => d
  | (j, v) :: t => if k = j then v else tget d k t

/-- Write a key of a table; an entry equal to what an unlisted key holds is not listed. -/
def tset {α : Type} [DecidableEq α] (d : α) (k : Nat) (v : α) : Tab α → Tab α
  | [] => if v = d then [] else [(k, v)]
  | (j, u) :: t =>
    if k = j then (if v = d then tset d k v t else (k, v) :: t)
    else if k < j ∧ v ≠ d then (k, v) :: (j, u) :: t
    else (j, u) :: tset d k v t

/-- Change every entry of a table; an entry that comes to equal what an unlisted key holds is not listed. -/
def tmap {α : Type} [DecidableEq α] (d : α) (f : Nat → α → α) (t : Tab α) : Tab α :=
  (t.map (fun p => (p.1, f p.1 p.2))).filter (fun p => decide (p.2 ≠ d))

/-- The canonical form of a table: keys strictly rising, no entry equal to an unlisted one. -/
def Tab.wf {α : Type} [DecidableEq α] (d : α) : Tab α → Bool
  | [] => true
  | (k, v) :: t => decide (v ≠ d) && t.all (fun p => decide (k < p.1)) && Tab.wf d t

/-- Consecutive bytes of a sparse memory whose unlisted bytes read `0`. -/
def bytesAt (m : Tab Byte) (k : Nat) : Nat → List Byte
  | 0 => []
  | n + 1 => tget 0 k m :: bytesAt m (k + 1) n

/-- Write consecutive bytes. -/
def putBytes (m : Tab Byte) (k : Nat) : List Byte → Tab Byte
  | [] => m
  | b :: t => putBytes (tset 0 k b m) (k + 1) t

/-- Zero the bytes of a sparse memory whose key meets a test (R99, Table 6-6 step 8). -/
def zeroWhere (p : Nat → Bool) (m : Tab Byte) : Tab Byte := m.filter (fun c => !p c.1)

/-! ### CRC-32 (R390) -/

/-- One bit of the reflected IEEE 802.3 polynomial. -/
def crcBit (c : Nat) : Nat := if c % 2 = 1 then (c / 2) ^^^ 0xEDB88320 else c / 2

/-- CRC-32 (IEEE 802.3) over bytes. -/
def crc32 (l : List Byte) : Word :=
  w32 ((l.foldl (fun c b => crcBit (crcBit (crcBit (crcBit (crcBit (crcBit (crcBit (crcBit (c ^^^ b.toNat)))))))))
    0xFFFFFFFF) ^^^ 0xFFFFFFFF)

end Sys2Proof.Machine
end

