-- ==== Sys2Proof/Machine/Float.lean ====
section
/-! DEFINITION. The arithmetic of chapter 3: formats (R106), rounding (R108), narrowing (R109), NaN (R110),
signed zeros (R111), flags (R112), matrix accumulation (R113), vector operations (R115) and reductions (R116). -/

namespace Sys2Proof.Machine

/-- The four sticky flags of a tile (R112). -/
structure Flg where
  sat   : Bool := false
  inv   : Bool := false
  nanIn : Bool := false
  ovf   : Bool := false
  deriving DecidableEq, Repr

/-- Flags are ORed (R112). -/
def Flg.or (a b : Flg) : Flg :=
  { sat := a.sat || b.sat, inv := a.inv || b.inv, nanIn := a.nanIn || b.nanIn, ovf := a.ovf || b.ovf }

/-- Bits [3:0] of the completion flags (Table 8-6). -/
def Flg.bits (f : Flg) : Nat :=
  f.sat.toNat + 2 * f.inv.toNat + 4 * f.nanIn.toNat + 8 * f.ovf.toNat

/-- A number a floating-point operand stands for: NaN, an infinity, or the exact value ±m·2^e. -/
inductive FV where
  | nan
  | inf (neg : Bool)
  | fin (neg : Bool) (m : Nat) (e : Int)
  deriving DecidableEq, Repr

/-- A floating-point format of Table 3-2. -/
structure Fmt where
  ebits : Nat
  mbits : Nat
  bias  : Nat
  /-- false for E4M3, which has no infinity and one NaN mantissa -/
  ieee  : Bool
  deriving DecidableEq, Repr

def Fmt.f32 : Fmt := ⟨8, 23, 127, true⟩
def Fmt.bf16 : Fmt := ⟨8, 7, 127, true⟩
def Fmt.f16 : Fmt := ⟨5, 10, 15, true⟩
def Fmt.e5m2 : Fmt := ⟨5, 2, 15, true⟩
def Fmt.e4m3 : Fmt := ⟨4, 3, 7, false⟩

/-- The exponent of the least quantum of a format: its smallest subnormal is 2 to this power. -/
def Fmt.qmin (f : Fmt) : Int := 1 - (f.bias : Int) - f.mbits

/-- The width of a format. -/
def Fmt.width (f : Fmt) : Nat := 1 + f.ebits + f.mbits

/-- The canonical NaN of a format (Table 3-2). -/
def Fmt.nanBits (f : Fmt) : Nat :=
  if f.ieee then (2 ^ f.ebits - 1) * 2 ^ f.mbits + 2 ^ (f.mbits - 1)
  else 2 ^ (f.ebits + f.mbits) - 1

/-- The bits of the largest finite magnitude (Table 3-2). -/
def Fmt.maxBits (f : Fmt) : Nat :=
  if f.ieee then (2 ^ f.ebits - 1) * 2 ^ f.mbits - 1 else 2 ^ (f.ebits + f.mbits) - 2

/-- The bits of +infinity. -/
def Fmt.infBits (f : Fmt) : Nat := (2 ^ f.ebits - 1) * 2 ^ f.mbits

/-- The sign bit of a format. -/
def Fmt.signBit (f : Fmt) (neg : Bool) : Nat := if neg then 2 ^ (f.ebits + f.mbits) else 0

/-- What an encoding stands for (R106); subnormals are honoured (R107). -/
def Fmt.decode (f : Fmt) (b : Nat) : FV :=
  let neg := b.testBit (f.ebits + f.mbits)
  let ex := (b / 2 ^ f.mbits) % 2 ^ f.ebits
  let mt := b % 2 ^ f.mbits
  if f.ieee && ex == 2 ^ f.ebits - 1 then (if mt = 0 then .inf neg else .nan)
  else if !f.ieee && ex == 2 ^ f.ebits - 1 && mt == 2 ^ f.mbits - 1 then .nan
  else if ex = 0 then .fin neg mt f.qmin
  else .fin neg (2 ^ f.mbits + mt) (f.qmin + ex - 1)

/-- The magnitude `m·2^e` rounded to the format's precision, ties to even (R108), as the magnitude's
encoding with the exponent unbounded above. -/
def Fmt.roundMag (f : Fmt) (m : Nat) (e : Int) : Nat :=
  if m = 0 then 0
  else
    let len : Int := (Nat.log2 m : Int) + 1
    let q := max (len + e - (f.mbits + 1)) f.qmin
    let k : Nat :=
      if q ≤ e then m * 2 ^ (e - q).toNat
      else
        let d := 2 ^ (q - e).toNat
        let t := m / d
        let r := m % d
        if 2 * r > d ∨ (2 * r = d ∧ t % 2 = 1) then t + 1 else t
    if k < 2 ^ f.mbits then k else (q - f.qmin).toNat * 2 ^ f.mbits + k

/-- An fp32 result: overflow gives an infinity and OVF (R112). -/
def roundF32 : FV → Word × Flg
  | .nan => (BitVec.ofNat 32 Fmt.f32.nanBits, {})
  | .inf n => (BitVec.ofNat 32 (Fmt.f32.signBit n + Fmt.f32.infBits), {})
  | .fin n m e =>
    let k := Fmt.f32.roundMag m e
    if k > Fmt.f32.maxBits then
      (BitVec.ofNat 32 (Fmt.f32.signBit n + Fmt.f32.infBits), { ovf := true })
    else (BitVec.ofNat 32 (Fmt.f32.signBit n + k), {})

/-- The canonical fp32 NaN (R110). -/
def nan32 : Word := 0x7FC00000#32

/-- The value of an fp32 word. -/
def val32 (w : Word) : FV := Fmt.f32.decode w.toNat

/-- An integer as an exact value. -/
def FV.ofInt (i : Int) : FV := .fin (decide (i < 0)) i.natAbs 0

/-- The signed integer of a finite value at a quantum no larger than its own. -/
def atQ (q : Int) : FV → Int
  | .fin n m e => (if n then -1 else 1) * ((m : Int) * 2 ^ (e - q).toNat)
  | _ => 0

/-- The exponent of a finite value. -/
def FV.exp : FV → Int
  | .fin _ _ e => e
  | _ => 0

def FV.isNan : FV → Bool
  | .nan => true
  | _ => false

def FV.isInf : FV → Bool
  | .inf _ => true
  | _ => false

def FV.neg : FV → Bool
  | .inf n => n
  | .fin n _ _ => n
  | .nan => false

def FV.isZero : FV → Bool
  | .fin _ m _ => m == 0
  | _ => false

/-- The exact sum of several values (R111, R113); an operand NaN raises NAN_IN, infinities of both
signs give NaN and raise INV (R110, R112). -/
def sumV (l : List FV) : FV × Flg :=
  if l.any FV.isNan then (.nan, { nanIn := true })
  else if l.any (fun v => v == .inf true) && l.any (fun v => v == .inf false) then (.nan, { inv := true })
  else if l.any (fun v => v == .inf true) then (.inf true, {})
  else if l.any (fun v => v == .inf false) then (.inf false, {})
  else
    let q := l.foldl (fun a v => if v.isZero then a else min a v.exp) 0
    let t : Int := (l.map (atQ q)).foldl (· + ·) 0
    if t = 0 then (.fin (l.all (fun v => v.isZero && v.neg) && !l.isEmpty) 0 0, {})
    else (.fin (decide (t < 0)) t.natAbs q, {})

/-- The exact product of two values (R110). -/
def mulV (a b : FV) : FV × Flg :=
  match a, b with
  | .nan, _ => (.nan, { nanIn := true })
  | _, .nan => (.nan, { nanIn := true })
  | .fin n1 m1 e1, .fin n2 m2 e2 => (.fin (n1 != n2) (m1 * m2) (e1 + e2), {})
  | _, _ => if a.isZero || b.isZero then (.nan, { inv := true }) else (.inf (a.neg != b.neg), {})

/-- Round an exact result to fp32, keeping the flags raised in forming it. -/
def fin32 (r : FV × Flg) : Word × Flg :=
  let (w, f) := roundF32 r.1
  (w, r.2.or f)

/-- add (Table 3-4). -/
def fAdd (a b : Word) : Word × Flg := fin32 (sumV [val32 a, val32 b])

/-- The value with its sign turned. -/
def FV.opp : FV → FV
  | .nan => .nan
  | .inf n => .inf (!n)
  | .fin n m e => .fin (!n) m e

/-- sub (Table 3-4). -/
def fSub (a b : Word) : Word × Flg := fin32 (sumV [val32 a, (val32 b).opp])

/-- mul (Table 3-4). -/
def fMul (a b : Word) : Word × Flg := fin32 (mulV (val32 a) (val32 b))

/-- fma, one rounding (Table 3-4). -/
def fFma (a b c : Word) : Word × Flg :=
  let p := mulV (val32 a) (val32 b)
  if p.1.isNan then
    -- INV is for a NaN made of operands none of which is NaN (R112)
    (nan32, if (val32 c).isNan then { nanIn := true } else p.2)
  else fin32 (sumV [p.1, val32 c])

/-- A unary operation of the sign only: NaN gives the canonical NaN and NAN_IN (R110). -/
def fSign (g : FV → FV) (a : Word) : Word × Flg :=
  let v := val32 a
  if v.isNan then (nan32, { nanIn := true }) else fin32 (g v, {})

/-- The magnitude of a value. -/
def FV.mag : FV → FV
  | .nan => .nan
  | .inf _ => .inf false
  | .fin _ m e => .fin false m e

def fAbs (a : Word) : Word × Flg := fSign FV.mag a
def fNeg (a : Word) : Word × Flg := fSign FV.opp a

/-- Order of two values neither of which is NaN: a < b. -/
def ltV (a b : FV) : Bool :=
  match a, b with
  | .inf n, .inf m => n && !m
  | .inf n, _ => n
  | _, .inf m => !m
  | _, _ =>
    let q := min a.exp b.exp
    decide (atQ q a < atQ q b)

def eqV (a b : FV) : Bool := !ltV a b && !ltV b a

/-- min: NaN if either is; min(−0, +0) = −0 (Table 3-4). -/
def fMin (a b : Word) : Word × Flg :=
  let x := val32 a
  let y := val32 b
  if x.isNan || y.isNan then (nan32, { nanIn := true })
  else if ltV x y then (a, {}) else if ltV y x then (b, {})
  else (if x.neg then a else b, {})

/-- max: NaN if either is; max(−0, +0) = +0 (Table 3-4). -/
def fMax (a b : Word) : Word × Flg :=
  let x := val32 a
  let y := val32 b
  if x.isNan || y.isNan then (nan32, { nanIn := true })
  else if ltV x y then (b, {}) else if ltV y x then (a, {})
  else (if x.neg then b else a, {})

/-- A comparison; false on NaN (Table 3-4), which it still uses (R112). -/
def fCmp (c : FV → FV → Bool) (a b : Word) : Bool × Flg :=
  let x := val32 a
  let y := val32 b
  if x.isNan || y.isNan then (false, { nanIn := true }) else (c x y, {})

/-- The integer square root of `n`, by digits: `fuel` bits of root. -/
def isqrtAux (n : Nat) : Nat → Nat → Nat
  | 0, r => r
  | k + 1, r =>
    let r' := r + 2 ^ k
    isqrtAux n k (if r' * r' ≤ n then r' else r)

/-- The integer square root. -/
def isqrt (n : Nat) : Nat := isqrtAux n (Nat.log2 n / 2 + 1) 0

/-- A magnitude known to lie at `t·2^e`, or strictly between that and the next: one more bit marks which. -/
def sticky (n : Bool) (t : Nat) (exact : Bool) (e : Int) : FV :=
  .fin n (2 * t + (if exact then 0 else 1)) (e - 1)

/-- rcp, rounded once; rcp(±0) = ±∞ (Table 3-4). -/
def fRcp (a : Word) : Word × Flg :=
  match val32 a with
  | .nan => (nan32, { nanIn := true })
  | .inf n => fin32 (.fin n 0 0, {})
  | .fin n m e =>
    if m = 0 then fin32 (.inf n, {})
    else
      let t := 2 ^ 64 / m
      fin32 (sticky n t (decide (t * m = 2 ^ 64)) (-(e + 64)), {})

/-- The square root of a positive `m·2^e`. -/
def sqrtV (m : Nat) (e : Int) : FV :=
  let s : Int := if e % 2 = 0 then 64 else 65
  let n := m * 2 ^ s.toNat
  let t := isqrt n
  sticky false t (decide (t * t = n)) ((e - s) / 2)

/-- sqrt; sqrt(−0) = −0, below zero gives NaN (R110). -/
def fSqrt (a : Word) : Word × Flg :=
  match val32 a with
  | .nan => (nan32, { nanIn := true })
  | .inf n => if n then (nan32, { inv := true }) else fin32 (.inf false, {})
  | .fin n m e =>
    if m = 0 then fin32 (.fin n 0 0, {})
    else if n then (nan32, { inv := true })
    else fin32 (sqrtV m e, {})

/-- rsqrt, rounded once; rsqrt(±0) = ±∞ (Table 3-4). -/
def fRsqrt (a : Word) : Word × Flg :=
  match val32 a with
  | .nan => (nan32, { nanIn := true })
  | .inf n => if n then (nan32, { inv := true }) else fin32 (.fin false 0 0, {})
  | .fin n m e =>
    if m = 0 then fin32 (.inf n, {})
    else if n then (nan32, { inv := true })
    else
      let m' := if e % 2 = 0 then m else 2 * m
      let e' := if e % 2 = 0 then e else e - 1
      let d := 2 ^ 128 / m'
      let t := isqrt d
      fin32 (sticky false t (decide (t * t * m' = 2 ^ 128)) (-64 - e' / 2), {})

/-- Working precision, in fraction bits, of exp2. -/
def expP : Nat := 160

/-- 2^f for the fraction given by the `fuel` bits of `f` below the point, most significant first;
`c` is 2^(2^−i) at the working precision. -/
def exp2Frac : Nat → Nat → Nat → Nat → Nat
  | 0, _, _, acc => acc
  | k + 1, f, c, acc =>
    let acc' := if f.testBit k then acc * c / 2 ^ expP else acc
    exp2Frac k f (isqrt (c * 2 ^ expP)) acc'

/-- exp2, the exact value rounded once (R115).  A non-integer power of two is irrational, so it is
never a tie; the working precision decides the rounding (assumption 8). -/
def fExp2 (a : Word) : Word × Flg :=
  match val32 a with
  | .nan => (nan32, { nanIn := true })
  | .inf n => if n then fin32 (.fin false 0 0, {}) else fin32 (.inf false, {})
  | .fin n m e =>
    if m = 0 then fin32 (.fin false 1 0, {})
    else if (Nat.log2 m : Int) + e < -26 then fin32 (.fin false 1 0, {})
    else if (Nat.log2 m : Int) + e > 9 then
      (if n then fin32 (.fin false 1 (-400), {}) else fin32 (.fin false 1 400, {}))
    else
      -- x scaled by 2^64, exactly: its last bit has weight at least 2^−49
      let x : Int := (if n then -1 else 1) * ((m : Int) * 2 ^ (e + 64).toNat)
      let ip := x / 2 ^ 64
      let fr := (x % 2 ^ 64).toNat
      if fr = 0 then fin32 (.fin false 1 ip, {})
      else
        let t := exp2Frac 64 fr (isqrt (2 * 2 ^ (2 * expP))) (2 ^ expP)
        fin32 (sticky false t false (ip - expP), {})

/-- Working precision of log2, in fraction bits of the mantissa. -/
def logP : Nat := 400

/-- `fuel` bits of the binary logarithm of the mantissa `x` at the working precision, 1 ≤ x < 2. -/
def log2Frac : Nat → Nat → Nat → Nat
  | 0, _, acc => acc
  | k + 1, x, acc =>
    let y := x * x / 2 ^ logP
    if y ≥ 2 ^ (logP + 1) then log2Frac k (y / 2) (2 * acc + 1) else log2Frac k y (2 * acc)

/-- log2, the exact value rounded once; log2(±0) = −∞ (Table 3-4). -/
def fLog2 (a : Word) : Word × Flg :=
  match val32 a with
  | .nan => (nan32, { nanIn := true })
  | .inf n => if n then (nan32, { inv := true }) else fin32 (.inf false, {})
  | .fin n m e =>
    if m = 0 then fin32 (.inf true, {})
    else if n then (nan32, { inv := true })
    else
      let l := Nat.log2 m
      let ip : Int := (l : Int) + e
      if m = 2 ^ l then fin32 (FV.ofInt ip, {})
      else
        let fr := log2Frac 120 (m * 2 ^ (logP - l)) 0
        let t : Int := ip * 2 ^ 120 + fr
        -- the exact value lies strictly between t and t + 1 units of 2^−120
        if t ≥ 0 then fin32 (sticky false t.toNat false (-120), {})
        else fin32 (sticky true ((-t) - 1).toNat false (-120), {})

/-- The element formats of Table 4-1 and the format codes of the commands. -/
inductive NFmt where
  | f32 | bf16 | f16 | e4m3 | e5m2 | i8 | u8 | i32
  deriving DecidableEq, Repr

/-- Bytes of one element. -/
def NFmt.size : NFmt → Nat
  | .f32 => 4 | .i32 => 4 | .bf16 => 2 | .f16 => 2 | .e4m3 => 1 | .e5m2 => 1 | .i8 => 1 | .u8 => 1

/-- The floating-point layout of a format, where it is one. -/
def NFmt.fl : NFmt → Option Fmt
  | .f32 => some .f32 | .bf16 => some .bf16 | .f16 => some .f16
  | .e4m3 => some .e4m3 | .e5m2 => some .e5m2 | _ => none

/-- The exact value of an element's bits. -/
def NFmt.val (f : NFmt) (b : Nat) : FV :=
  match f.fl with
  | some g => g.decode b
  | none =>
    match f with
    | .i8 => FV.ofInt (BitVec.ofNat 8 b).toInt
    | .i32 => FV.ofInt (BitVec.ofNat 32 b).toInt
    | _ => FV.ofInt (b % 256)

/-- Widening to fp32: exact but for int32, rounded once (R109); a NaN becomes the canonical NaN and
raises NAN_IN (R110, R112). -/
def widen (f : NFmt) (b : Nat) : Word × Flg :=
  let v := f.val b
  if v.isNan then (nan32, { nanIn := true }) else fin32 (v, {})

/-- The nearest integer to a finite value, ties to even. -/
def roundInt : FV → Int
  | .fin n m e =>
    let k : Nat :=
      if 0 ≤ e then m * 2 ^ e.toNat
      else
        let d := 2 ^ (-e).toNat
        let t := m / d
        let r := m % d
        if 2 * r > d ∨ (2 * r = d ∧ t % 2 = 1) then t + 1 else t
    if n then -(k : Int) else k
  | _ => 0

/-- Conversion to an integer range (Table 3-3, Table 3-4): saturates with SAT, NaN gives 0 with NAN_IN. -/
def toIntRange (lo hi : Int) (v : FV) : Int × Flg :=
  match v with
  | .nan => (0, { nanIn := true })
  | .inf n => (if n then lo else hi, { sat := true })
  | .fin _ _ _ =>
    let k := roundInt v
    if k < lo then (lo, { sat := true }) else if k > hi then (hi, { sat := true }) else (k, {})

/-- Narrowing of an exact value to a format (R109, Table 3-3). fp32 itself does not saturate. -/
def narrowV (f : NFmt) (v : FV) : Nat × Flg :=
  match f with
  | .f32 =>
    if v.isNan then (nan32.toNat, { nanIn := true }) else let r := roundF32 v; (r.1.toNat, r.2)
  | .i8 => let r := toIntRange (-128) 127 v; ((BitVec.ofInt 8 r.1).toNat, r.2)
  | .u8 => let r := toIntRange 0 255 v; ((BitVec.ofInt 8 r.1).toNat, r.2)
  | .i32 => let r := toIntRange (-2147483648) 2147483647 v; ((BitVec.ofInt 32 r.1).toNat, r.2)
  | _ =>
    match f.fl with
    | none => (0, {})
    | some g =>
      match v with
      | .nan => (g.nanBits, { nanIn := true })
      | .inf n =>
        if g.ieee then (g.signBit n + g.infBits, {}) else (g.signBit n + g.maxBits, { sat := true })
      | .fin n m e =>
        let k := g.roundMag m e
        if k > g.maxBits then (g.signBit n + g.maxBits, { sat := true }) else (g.signBit n + k, {})

/-- Narrowing of an fp32 word to a format. -/
def narrow (f : NFmt) (w : Word) : Nat × Flg := narrowV f (val32 w)

/-- One k-group step of the matrix engine for floating-point formats (R113): products and their sum
exact, one rounding with the accumulator. -/
def mxGroup (acc : Word) (ps : List (FV × FV)) : Word × Flg :=
  let prods := ps.map (fun p => mulV p.1 p.2)
  let fl := prods.foldl (fun (f : Flg) p => f.or p.2) {}
  let av := val32 acc
  if av.isNan || prods.any (fun p => p.1.isNan) then
    -- INV is for a NaN made of operands none of which is NaN (R112)
    let used := av.isNan || fl.nanIn
    (nan32, { fl with nanIn := used, inv := fl.inv && !used })
  else
    let r := fin32 (sumV (av :: prods.map (·.1)))
    (r.1, fl.or r.2)

/-- One k-group step for int8: exact sum, saturating at the int32 limits with OVF (R113). -/
def mxGroupInt (acc : Word) (ps : List (Int × Int)) : Word × Flg :=
  let t := ps.foldl (fun a p => a + p.1 * p.2) acc.toInt
  if t < -2147483648 then (BitVec.ofInt 32 (-2147483648), { ovf := true })
  else if t > 2147483647 then (BitVec.ofInt 32 2147483647, { ovf := true })
  else (BitVec.ofInt 32 t, {})

/-- A list cut into pieces of `w` (the last may be short). -/
def chunksAux {α : Type} (w : Nat) : Nat → List α → List (List α)
  | 0, _ => []
  | k + 1, l => if l.isEmpty then [] else l.take w :: chunksAux w k (l.drop w)

def chunks {α : Type} (w : Nat) (l : List α) : List (List α) := chunksAux w l.length l

/-- Pad a short last group with +0 (R113). -/
def padGroup (w : Nat) (g : List (FV × FV)) : List (FV × FV) :=
  g ++ List.replicate (w - g.length) (.fin false 0 0, .fin false 0 0)

/-- One output element of the matrix engine (R113): `w` is the k-group width of R90. -/
def mxDot (w : Nat) (c0 : Word) (ps : List (FV × FV)) : Word × Flg :=
  (chunks w ps).foldl (fun a g => let r := mxGroup a.1 (padGroup w g); (r.1, a.2.or r.2)) (c0, {})

/-- One output element for int8 operands (R113). -/
def mxDotInt (w : Nat) (c0 : Word) (ps : List (Int × Int)) : Word × Flg :=
  (chunks w ps).foldl (fun a g => let r := mxGroupInt a.1 g; (r.1, a.2.or r.2)) (c0, {})

/-- The two-operand reductions of R116. -/
inductive RedOp where
  | sum | sumsq | max | min
  deriving DecidableEq, Repr

def RedOp.f : RedOp → Word → Word → Word × Flg
  | .sum => fAdd | .sumsq => fAdd | .max => fMax | .min => fMin

/-- The elements of lane `l`: e[l], e[l + 64], … -/
def laneElems (e : List Word) (l : Nat) : List Word :=
  (e.zipIdx.filter (fun p => p.2 % 64 == l)).map (·.1)

/-- One lane of R116: none where max or min receives no element. -/
def lane (op : RedOp) (e : List Word) : Option Word × Flg :=
  match op with
  | .sum | .sumsq =>
    let r := e.foldl (fun a x => let y := fAdd a.1 x; (y.1, a.2.or y.2)) ((0#32 : Word), ({} : Flg))
    (some r.1, r.2)
  | _ =>
    match e with
    | [] => (none, {})
    | x :: t =>
      let r := t.foldl (fun a x => let y := op.f a.1 x; (y.1, a.2.or y.2)) (x, ({} : Flg))
      (some r.1, r.2)

/-- One level of the tree: lane l takes lane l + h; a lane that received no element takes no part. -/
def treeLevel (op : RedOp) (h : Nat) (p : List (Option Word)) : List (Option Word) × Flg :=
  ((p.take h).zip (p.drop h)).foldr
    (fun ab acc =>
      match ab.1, ab.2 with
      | some a, some b => let r := op.f a b; (some r.1 :: acc.1, acc.2.or r.2)
      | some a, none => (some a :: acc.1, acc.2)
      | none, b => (b :: acc.1, acc.2))
    ([], {})

/-- A VX reduction over the elements, in the order of R116. -/
def reduce (op : RedOp) (e : List Word) : Word × Flg :=
  let sq := if op = .sumsq then e.map (fun x => fMul x x) else e.map (fun x => (x, ({} : Flg)))
  let fl0 := sq.foldl (fun a x => a.or x.2) ({} : Flg)
  let e' := sq.map (·.1)
  let lanes := (List.range 64).map (fun l => lane op (laneElems e' l))
  let fl1 := lanes.foldl (fun a x => a.or x.2) fl0
  let r := [32, 16, 8, 4, 2, 1].foldl
    (fun (a : List (Option Word) × Flg) h => let t := treeLevel op h a.1; (t.1, a.2.or t.2))
    (lanes.map (·.1), fl1)
  match r.1 with
  | some w :: _ => (w, r.2)
  | _ => (nan32, r.2)

end Sys2Proof.Machine
end

