-- ==== Sys2Proof/Machine/Operands.lean ====
section
/-! DEFINITION. The structures of memory as software writes them: the 64-byte commands (chapter 8), the
256-byte recipe and its micro-ops (chapter 4), partition addresses (R214) and the ranges a command names. -/

namespace Sys2Proof.Machine

/-- The engine classes of a ring (Table 7-1). -/
inductive Eng where
  | mx | vx | mv | fx | ix
  deriving DecidableEq, Repr

/-- ENGINE of RING_r_BIND. -/
def Eng.code : Eng → Nat
  | .mx => 0 | .vx => 1 | .mv => 2 | .fx => 3 | .ix => 4

/-- The opcodes of Table 8-2. -/
inductive Op where
  | nop | waitTally | settle | mxGemm | mxAttn | vxElt | vxReduce | vxCombine | mvCopy
  | fxSend | fxReduce | fxAwait | ixFrame
  deriving DecidableEq, Repr

/-- OPCODE, byte 0 of a command (Table 8-2); none: not in the table. -/
def Op.ofCode : Nat → Option Op
  | 0x00 => some .nop | 0x01 => some .waitTally | 0x02 => some .settle
  | 0x10 => some .mxGemm | 0x11 => some .mxAttn
  | 0x20 => some .vxElt | 0x21 => some .vxReduce | 0x22 => some .vxCombine
  | 0x30 => some .mvCopy
  | 0x40 => some .fxSend | 0x41 => some .fxReduce | 0x42 => some .fxAwait
  | 0x50 => some .ixFrame
  | _ => none

/-- The opcode's code. -/
def Op.code : Op → Nat
  | .nop => 0x00 | .waitTally => 0x01 | .settle => 0x02 | .mxGemm => 0x10 | .mxAttn => 0x11
  | .vxElt => 0x20 | .vxReduce => 0x21 | .vxCombine => 0x22 | .mvCopy => 0x30
  | .fxSend => 0x40 | .fxReduce => 0x41 | .fxAwait => 0x42 | .ixFrame => 0x50

/-- The ring classes Table 8-2 permits: none means every class. -/
def Op.eng : Op → Option Eng
  | .nop => none | .waitTally => none | .settle => none
  | .mxGemm => some .mx | .mxAttn => some .mx
  | .vxElt => some .vx | .vxReduce => some .vx | .vxCombine => some .vx
  | .mvCopy => some .mv
  | .fxSend => some .fx | .fxReduce => some .fx | .fxAwait => some .fx
  | .ixFrame => some .ix

/-- The opcode of a command's bytes. -/
def opOf (b : List Byte) : Option Op := Op.ofCode (fieldAt b 0 1)

/-- REC, byte 1 bit 0 (Table 8-1). -/
def recBit (b : List Byte) : Bool := (fieldAt b 1 1).testBit 0

/-- ORDER, byte 1 bit 1 (Table 8-1). -/
def orderBit (b : List Byte) : Bool := (fieldAt b 1 1).testBit 1

/-- The format codes of Table 4-2. -/
def fmtOf : Nat → Option NFmt
  | 0 => some .f32 | 1 => some .bf16 | 2 => some .f16 | 3 => some .e4m3
  | 4 => some .e5m2 | 5 => some .i8 | 6 => some .u8 | 7 => some .i32
  | _ => none

/-- The k-group width of R90. -/
def NFmt.w : NFmt → Nat
  | .bf16 => 2 | .f16 => 2 | _ => 4

/-! ### Addresses -/

/-- The canonical isle index g of a partition address (R291). -/
def isleOf (a : Nat) : Nat := bitsAt a 33 11

/-- The isle offset of a partition address (Table 6-4). -/
def offOf (a : Nat) : Nat := a % 2 ^ 33

/-- MOD of a partition address (Table 6-4). -/
def modOf (a : Nat) : Nat := bitsAt a 37 7

/-- R214: every byte of a range has bits [63:44] 0 and MOD below the module count. -/
def rangeOk (nmods a len : Nat) : Bool :=
  len = 0 || decide (a + len ≤ nmods * 2 ^ 37)

/-! ### MX_GEMM, Table 8-9 -/

structure Gemm where
  recipe : Nat
  a : Nat
  b : Nat
  c0 : Nat
  ms : Nat
  k : Nat
  n : Nat
  g : Nat
  sa : Nat
  sb : Nat
  seqBase : Nat
  deriving DecidableEq, Repr

def gemmOf (b : List Byte) : Gemm :=
  { recipe := fieldAt b 8 8, a := fieldAt b 16 8, b := fieldAt b 24 8, c0 := fieldAt b 32 8,
    ms := bitsAt (fieldAt b 40 4) 0 25, k := bitsAt (fieldAt b 44 4) 0 21, n := bitsAt (fieldAt b 48 2) 0 13,
    g := bitsAt (fieldAt b 50 2) 0 11, sa := fieldAt b 52 4, sb := fieldAt b 56 4, seqBase := fieldAt b 60 3 }

/-! ### MX_ATTN, Table 8-11 -/

structure Attn where
  q : Nat
  k : Nat
  v : Nat
  o : Nat
  st : Nat
  block : Nat
  d : Nat
  axis : Nat
  causal : Bool
  fmt : Nat
  pos0 : Nat
  seqBase : Nat
  deriving DecidableEq, Repr

def attnOf (b : List Byte) : Attn :=
  { q := fieldAt b 8 8, k := fieldAt b 16 8, v := fieldAt b 24 8, o := fieldAt b 32 8, st := fieldAt b 40 8,
    block := fieldAt b 48 4, d := fieldAt b 52 1, axis := bitsAt (fieldAt b 54 1) 0 2,
    causal := (fieldAt b 54 1).testBit 2, fmt := bitsAt (fieldAt b 55 1) 0 4,
    pos0 := bitsAt (fieldAt b 56 3) 0 22, seqBase := fieldAt b 60 3 }

/-- The next 4 KiB boundary at or after an address (R434). -/
def up4k (a : Nat) : Nat := cdiv a 4096 * 4096

/-- Bytes of one resident block. -/
def Attn.blk (c : Attn) : Nat := c.block * c.d * ((fmtOf c.fmt).elim 0 NFmt.size)

/-- The derived work area (Table 12-1). -/
def Attn.altO (c : Attn) : Nat := up4k (c.st + c.block * 16)
def Attn.altS (c : Attn) : Nat := up4k (c.altO + c.block * c.d * 4)
def Attn.buf0k (c : Attn) : Nat := up4k (c.altS + c.block * 16)
def Attn.buf0v (c : Attn) : Nat := up4k (c.buf0k + c.blk)
def Attn.buf1k (c : Attn) : Nat := up4k (c.buf0v + c.blk)
def Attn.buf1v (c : Attn) : Nat := up4k (c.buf1k + c.blk)

/-- BUFb_K. -/
def Attn.bufK (c : Attn) (b : Nat) : Nat := if b = 0 then c.buf0k else c.buf1k
/-- BUFb_V. -/
def Attn.bufV (c : Attn) (b : Nat) : Nat := if b = 0 then c.buf0v else c.buf1v

/-- Every region of Table 12-1 as (start, size). -/
def Attn.regions (c : Attn) : List (Nat × Nat) :=
  [(c.q, c.blk), (c.k, c.blk), (c.v, c.blk), (c.o, c.block * c.d * 4), (c.st, c.block * 16),
   (c.altO, c.block * c.d * 4), (c.altS, c.block * 16),
   (c.buf0k, c.blk), (c.buf0v, c.blk), (c.buf1k, c.blk), (c.buf1v, c.blk)]

/-! ### VX, Tables 8-12, 8-13, and VX_COMBINE (R303) -/

structure Vx where
  op : Nat
  aFmt : Nat
  bFmt : Nat
  oFmt : Nat
  bScalar : Bool
  n : Nat
  a : Nat
  b : Nat
  out : Nat
  ms : Nat
  g : Nat
  sa : Nat
  sb : Nat
  so : Nat
  deriving DecidableEq, Repr

def vxOf (b : List Byte) : Vx :=
  { op := fieldAt b 8 1, aFmt := bitsAt (fieldAt b 9 1) 0 4, bFmt := bitsAt (fieldAt b 9 1) 4 4,
    oFmt := bitsAt (fieldAt b 10 1) 0 4, bScalar := (fieldAt b 10 1).testBit 4,
    n := bitsAt (fieldAt b 12 4) 0 13, a := fieldAt b 16 8, b := fieldAt b 24 8, out := fieldAt b 32 8,
    ms := bitsAt (fieldAt b 40 4) 0 25, g := bitsAt (fieldAt b 44 2) 0 11,
    sa := fieldAt b 48 4, sb := fieldAt b 52 4, so := fieldAt b 56 4 }

structure Comb where
  partial_ : Nat
  final : Nat
  n : Nat
  tms : Nat
  deriving DecidableEq, Repr

def combOf (b : List Byte) : Comb :=
  { partial_ := fieldAt b 8 8, final := fieldAt b 16 8, n := fieldAt b 24 4, tms := fieldAt b 28 4 }

/-! ### MV_COPY, Table 8-14 -/

/-- A core named as bytes 60–61 of MV_COPY name it. -/
structure CoreRef where
  m : Nat
  die : Nat
  isle : Nat
  core : Nat
  deriving DecidableEq, Repr

def coreRefOf (v : Nat) : CoreRef :=
  { m := bitsAt v 0 7, die := bitsAt v 7 2, isle := bitsAt v 9 2, core := bitsAt v 11 4 }

structure Mv where
  src : Nat
  dst : Nat
  count : Nat
  c0 : Nat
  c1 : Nat
  c2 : Nat
  ss0 : Nat
  ds0 : Nat
  ss1 : Nat
  ds1 : Nat
  ss2 : Nat
  ds2 : Nat
  core : CoreRef
  sspace : Nat
  dspace : Nat
  chan : Nat
  deriving DecidableEq, Repr

def mvOf (b : List Byte) : Mv :=
  { src := fieldAt b 8 8, dst := fieldAt b 16 8, count := fieldAt b 24 4,
    c0 := fieldAt b 28 2, c1 := fieldAt b 30 2, c2 := fieldAt b 32 2,
    ss0 := fieldAt b 36 4, ds0 := fieldAt b 40 4, ss1 := fieldAt b 44 4, ds1 := fieldAt b 48 4,
    ss2 := fieldAt b 52 4, ds2 := fieldAt b 56 4, core := coreRefOf (fieldAt b 60 2),
    sspace := bitsAt (fieldAt b 62 1) 0 2, dspace := bitsAt (fieldAt b 62 1) 2 2,
    chan := bitsAt (fieldAt b 62 1) 4 2 }

/-! ### FX, Table 8-15; IX (R307); WAIT_TALLY, SETTLE (Table 8-7, R288) -/

structure FxSend where
  src : Nat
  dst : Nat
  len : Nat
  dx : Int
  dy : Int
  dz : Int
  counter : Nat
  seq : Nat
  core : CoreRef
  deriving DecidableEq, Repr

def fxSendOf (b : List Byte) : FxSend :=
  { src := fieldAt b 8 8, dst := fieldAt b 16 8, len := fieldAt b 24 4,
    dx := signed 8 (fieldAt b 28 1), dy := signed 8 (fieldAt b 29 1), dz := signed 8 (fieldAt b 30 1),
    counter := fieldAt b 32 2, seq := fieldAt b 34 3, core := coreRefOf (fieldAt b 38 2) }

structure FxRed where
  op : Nat
  axes : Nat
  fmt : Nat
  count : Nat
  buf : Nat
  out : Nat
  counter : Nat
  seqBase : Nat
  deriving DecidableEq, Repr

def fxRedOf (b : List Byte) : FxRed :=
  { op := fieldAt b 8 1, axes := bitsAt (fieldAt b 9 1) 0 3, fmt := fieldAt b 10 1, count := fieldAt b 12 4,
    buf := fieldAt b 16 8, out := fieldAt b 24 8, counter := fieldAt b 32 2, seqBase := fieldAt b 34 3 }

structure FxAw where
  counter : Nat
  value : Nat
  timeout : Nat
  core : CoreRef
  deriving DecidableEq, Repr

def fxAwOf (b : List Byte) : FxAw :=
  { counter := fieldAt b 8 2, value := fieldAt b 12 4, timeout := fieldAt b 16 4, core := coreRefOf (fieldAt b 38 2) }

structure IxFr where
  dst : Nat
  stride : Nat
  maxBytes : Nat
  timeout : Nat
  deriving DecidableEq, Repr

def ixFrOf (b : List Byte) : IxFr :=
  { dst := fieldAt b 8 8, stride := fieldAt b 16 4, maxBytes := fieldAt b 20 4, timeout := fieldAt b 24 4 }

structure WaitT where
  ring : Nat
  timeout : Nat
  value : Nat
  deriving DecidableEq, Repr

def waitOf (b : List Byte) : WaitT :=
  { ring := bitsAt (fieldAt b 8 2) 0 12, timeout := fieldAt b 12 4, value := fieldAt b 16 8 }

/-- SCOPE of SETTLE (R288). -/
def settleScope (b : List Byte) : Bool := (fieldAt b 8 1).testBit 0

/-! ### Recipes (chapter 4) -/

/-- The micro-op opcodes of Table 4-4. -/
inductive UOp where
  | nop | deq | scale | trans | lut1 | norm | bias | act | res | clamp | cmat | lut3 | req | film
  | stats | osm | write | send
  deriving DecidableEq, Repr

def UOp.ofCode : Nat → Option UOp
  | 0x00 => some .nop | 0x01 => some .deq | 0x02 => some .scale | 0x03 => some .trans | 0x04 => some .lut1
  | 0x05 => some .norm | 0x10 => some .bias | 0x11 => some .act | 0x12 => some .res | 0x13 => some .clamp
  | 0x14 => some .cmat | 0x15 => some .lut3 | 0x16 => some .req | 0x17 => some .film | 0x18 => some .stats
  | 0x19 => some .osm | 0x1A => some .write | 0x1B => some .send
  | _ => none

/-- May stand in the prologue list (Table 4-4). -/
def UOp.inPro : UOp → Bool
  | .nop => true | .deq => true | .scale => true | .trans => true | .lut1 => true | .norm => true | _ => false

/-- May stand in the epilogue list (Table 4-4). -/
def UOp.inEpi : UOp → Bool
  | .deq => false | .trans => false | .norm => false | _ => true

/-- A micro-op word (Table 4-3). -/
structure Mu where
  op : UOp
  tgt : Bool
  pa : Nat
  pb : Nat
  imm : Nat
  deriving DecidableEq, Repr

def muOf (w : Nat) : Option Mu :=
  (UOp.ofCode (bitsAt w 0 6)).map
    (fun o => { op := o, tgt := w.testBit 6, pa := bitsAt w 8 4, pb := bitsAt w 12 4, imm := bitsAt w 16 16 })

/-- IMM values the table defines (R132, Table 4-4, Table 4-5); the IMM of an opcode that uses none is not judged. The spec does
not say whether a bit of IMM outside the sub-field a row names is reserved, and unread (R16), or part of the value: the whole
16-bit IMM is judged (DESIGN CHOICE, log 112). -/
def Mu.immOk (u : Mu) : Bool :=
  match u.op with
  | .deq => decide (u.imm < 3)
  | .act => decide (u.imm < 6)
  | .res => decide (u.imm ≤ 6)
  | .req => decide (1 ≤ u.imm ∧ u.imm ≤ 6)
  | .film => decide (u.imm < 2)
  | .write => decide (u.imm < 2)
  | .norm => true
  | .send => true
  | _ => true

/-- A recipe (Table 4-1). -/
structure Recipe where
  proN : Nat
  epiN : Nat
  aStore : Nat
  bStore : Nat
  aMxf : Nat
  bMxf : Nat
  chain : Nat
  heldIn : Bool
  spillAddr : Nat
  spillStride : Nat
  pro : List (Option Mu)
  epi : List (Option Mu)
  slots : List Nat
  deriving DecidableEq, Repr

def recipeOf (b : List Byte) : Recipe :=
  let pn := bitsAt (fieldAt b 0 1) 0 4
  let en := bitsAt (fieldAt b 0 1) 4 4
  { proN := pn, epiN := en,
    aStore := bitsAt (fieldAt b 1 1) 0 4, bStore := bitsAt (fieldAt b 1 1) 4 4,
    aMxf := bitsAt (fieldAt b 2 1) 0 4, bMxf := bitsAt (fieldAt b 2 1) 4 4,
    chain := bitsAt (fieldAt b 3 1) 0 2, heldIn := (fieldAt b 3 1).testBit 2,
    spillAddr := fieldAt b 8 8, spillStride := fieldAt b 16 4,
    pro := (List.range (min pn 8)).map (fun i => muOf (fieldAt b (32 + 4 * i) 4)),
    epi := (List.range (min en 12)).map (fun i => muOf (fieldAt b (64 + 4 * i) 4)),
    slots := (List.range 16).map (fun i => fieldAt b (128 + 8 * i) 8) }

/-- SLOT[i]. -/
def Recipe.slot (r : Recipe) (i : Nat) : Nat := r.slots.getD i 0

/-- The two 32-bit halves of a slot (R130). -/
def Recipe.lo (r : Recipe) (i : Nat) : Nat := r.slot i % 2 ^ 32
def Recipe.hi (r : Recipe) (i : Nat) : Nat := r.slot i / 2 ^ 32

/-- The defined micro-ops of the lists. -/
def Recipe.pros (r : Recipe) : List Mu := r.pro.filterMap id
def Recipe.epis (r : Recipe) : List Mu := r.epi.filterMap id

/-- How often an operation stands in a list. -/
def countOp (o : UOp) (l : List Mu) : Nat := (l.filter (fun u => u.op == o)).length

/-- FILM mode 0, which packs triples (R142). -/
def isFilm0 (u : Mu) : Bool := u.op == .film && u.imm == 0

/-- The recipe works on colour triples: CMAT, LUT3 or FILM mode 0 (R133, R294). -/
def Recipe.triples (r : Recipe) : Bool :=
  r.epis.any (fun u => u.op == .cmat || u.op == .lut3 || isFilm0 u)

/-- TN of R294. -/
def Recipe.tn (r : Recipe) : Nat := if r.triples then 126 else 128

/-- After REQ or FILM only WRITE, SEND or NOP may follow (R133). -/
def narrowTail : List Mu → Bool
  | [] => true
  | u :: t =>
    if u.op == .req || u.op == .film then
      t.all (fun v => v.op == .write || v.op == .send || v.op == .nop || v.op == .req || v.op == .film) && narrowTail t
    else narrowTail t

/-- Bytes loaded into the vector area for one prologue or epilogue micro-op (R146). `m`, `n`, `k` are the
command's rows, columns and reduction length. -/
def Recipe.vecBytes (r : Recipe) (m n k : Nat) (u : Mu) : Nat :=
  match u.op with
  | .bias => n * 4
  | .cmat => 48
  | .norm => r.lo u.pb * 8
  | .deq => if u.imm = 1 then 2 * 4 * (if u.tgt then n else m) else if u.imm = 2 then 2 * 4 * k else 0
  | _ => 0

/-- The pairings of R91. -/
def pairOk (a b : Nat) : Bool :=
  (a == 1 && b == 1) || (a == 2 && b == 2) || (a == 5 && b == 5) ||
  ((a == 3 || a == 4) && (b == 3 || b == 4))

/-- The stored formats of Table 4-2. -/
def storeOk (c : Nat) : Bool := decide (c ≤ 6)

/-- The format a WRITE at position `i` of the epilogue writes: fp32, or what REQ or FILM before it made (R145). -/
inductive Strm where
  | f32
  | nrw (f : NFmt)
  | film0
  | film1
  deriving DecidableEq, Repr

/-- Bytes of one element of a stream. -/
def Strm.size : Strm → Nat
  | .f32 => 4 | .nrw f => f.size | .film0 => 4 | .film1 => 2

/-- The stream's form after one micro-op. -/
def Strm.step (t : Strm) (u : Mu) : Strm :=
  match u.op with
  | .req => (fmtOf u.imm).elim t Strm.nrw
  | .film => if u.imm = 0 then .film0 else .film1
  | _ => t

/-- The stream's form at the first scratch WRITE of the list (R152). -/
def scratchForm : Strm → List Mu → Option (Strm × Mu)
  | _, [] => none
  | t, u :: l => if u.op == .write && u.imm == 1 then some (t, u) else scratchForm (t.step u) l

/-- The format code a stream form has as a stored operand (R152): FILM forms are no format of Table 4-2. -/
def Strm.code : Strm → Option Nat
  | .f32 => some 0
  | .nrw .bf16 => some 1 | .nrw .f16 => some 2 | .nrw .e4m3 => some 3 | .nrw .e5m2 => some 4
  | .nrw .i8 => some 5 | .nrw .u8 => some 6
  | _ => none

/-- R133 without the chaining rules of 4.7: the recipe's own legality for a command of `m` rows per slab, `n`
columns and reduction length `k`. -/
def Recipe.ok (r : Recipe) (m n k : Nat) : Bool :=
  decide (r.proN ≤ 8) && decide (r.epiN ≤ 12) &&
  storeOk r.aStore && storeOk r.bStore && pairOk r.aMxf r.bMxf &&
  r.pro.all (fun o => o.elim false (fun u => u.op.inPro && u.immOk)) &&
  r.epi.all (fun o => o.elim false (fun u => u.op.inEpi && u.immOk && !u.tgt)) &&
  decide (countOp .trans (r.pros.filter (fun u => !u.tgt)) ≤ 1) &&
  decide (countOp .trans (r.pros.filter (fun u => u.tgt)) ≤ 1) &&
  decide (countOp .write r.epis ≤ 2) && decide (countOp .send r.epis ≤ 1) &&
  decide (countOp .req r.epis + countOp .film r.epis ≤ 1) && narrowTail r.epis &&
  decide (countOp .lut3 r.epis ≤ 1) && decide (countOp .lut1 r.pros + countOp .lut1 r.epis ≤ 4) &&
  decide (((r.pros ++ r.epis).map (r.vecBytes m n k)).sum ≤ 160 * 1024) &&
  (!r.triples || decide (n % 3 = 0)) &&
  (!(r.epis.any (fun u => u.op == .osm)) || decide (n ≤ 128)) &&
  decide (r.chain < 3) &&
  (r.chain != 2 || ((scratchForm .f32 r.epis).isSome && r.spillAddr != 0))

/-- The recipe loads a table or vector (R147). -/
def Recipe.loads (r : Recipe) : Bool :=
  (r.pros ++ r.epis).any (fun u =>
    u.op == .lut1 || u.op == .lut3 || u.op == .bias || u.op == .cmat || u.op == .norm ||
    (u.op == .deq && u.imm != 0))

/-- TRANS declared for operand A (false) or B (true) (R135). -/
def Recipe.trans (r : Recipe) (b : Bool) : Bool := r.pros.any (fun u => u.op == .trans && u.tgt == b)

end Sys2Proof.Machine
end

