-- ==== Sys2Proof/Machine/Fused.lean ====
section
/-! DEFINITION. What a tile computes: prologue (R134–R137), matrix accumulation (R113), epilogue (R138–R145), the
attention tile-step (R442), element-wise and reduction tiles (R301, R116) and the statistics combine (R143).
Everything here is a function of the operands' bytes; placing and writing stand in other files. -/

namespace Sys2Proof.Machine

/-- A reader of memory: `n` bytes at an address as a little-endian number. -/
abbrev Rd := Nat → Nat → Nat

/-- Split a value with its flags from flags gathered before. -/
def Flg.with {α : Type} (f : Flg) (r : α × Flg) : α × Flg := (r.1, f.or r.2)

/-- Apply a step that raises flags to every element of a list. -/
def mapF {α β : Type} (g : α → β × Flg) (l : List α) : List β × Flg :=
  l.foldr (fun a acc => let r := g a; (r.1 :: acc.1, r.2.or acc.2)) ([], {})

/-- Apply a step with the element's index. -/
def mapIdxF {α β : Type} (g : Nat → α → β × Flg) (l : List α) : List β × Flg :=
  mapF (fun p : α × Nat => g p.2 p.1) l.zipIdx

def one32 : Word := 0x3F800000#32
def zero32 : Word := 0x00000000#32
/-- L2E: the fp32 value nearest log₂ e (R139). -/
def L2E : Word := 0x3FB8AA3B#32
/-- T2E: the fp32 value nearest 2·log₂ e (R139). -/
def T2E : Word := 0x4038AA3B#32
/-- G1: the fp32 value nearest √(2/π) (R139). -/
def G1 : Word := 0x3F4C422A#32
/-- G3: the fp32 value nearest 0.044715 (R139). -/
def G3 : Word := 0x3D372713#32
def negInf : Word := 0xFF800000#32

/-- An exact integer as an fp32 word. -/
def f32Int (i : Int) : Word := (roundF32 (FV.ofInt i)).1

/-- Two steps in sequence. -/
def andThen (r : Word × Flg) (g : Word → Word × Flg) : Word × Flg := r.2.with (g r.1)

/-- fp32 division, rounded once, for the clamp bound of R136. -/
def fDiv (a b : Word) : Word × Flg :=
  match val32 a, val32 b with
  | .nan, _ => (nan32, { nanIn := true })
  | _, .nan => (nan32, { nanIn := true })
  | .inf _, .inf _ => (nan32, { inv := true })
  | .inf n, .fin m _ _ => fin32 (.inf (n != m), {})
  | .fin n _ _, .inf m => fin32 (.fin (n != m) 0 0, {})
  | .fin n1 m1 e1, .fin n2 m2 e2 =>
    if m2 = 0 then (if m1 = 0 then (nan32, { inv := true }) else fin32 (.inf (n1 != n2), {}))
    else if m1 = 0 then fin32 (.fin (n1 != n2) 0 0, {})
    else
      let t := m1 * 2 ^ 64 / m2
      fin32 (sticky (n1 != n2) t (decide (t * m2 = m1 * 2 ^ 64)) (e1 - e2 - 64), {})

/-- min(max(x, lo), hi). -/
def fClamp (x lo hi : Word) : Word × Flg := andThen (fMax x lo) (fun y => fMin y hi)

/-- The index part of a table lookup: floor clamped to 0 … top (R136, R141). -/
def floorIdx (t : Word) (top : Nat) : Nat :=
  match val32 t with
  | .nan => 0
  | .inf n => if n then 0 else top
  | .fin n m e =>
    if n then 0
    else min top (if 0 ≤ e then m * 2 ^ e.toNat else m / 2 ^ (-e).toNat)

/-- The 1D table step of R136: `e i` is entry i, `lo` and `r` the scalars of PB. -/
def lut1 (e : Nat → Word) (lo r x : Word) : Word × Flg :=
  let hi := andThen (fDiv 0x457FF000#32 r) (fun q => fAdd lo q)
  let u := hi.2.with (fClamp x lo hi.1)
  let t := andThen u (fun u => andThen (fSub u lo) (fun d => fMul d r))
  if (val32 t.1).isNan then (nan32, t.2)
  else
    let i := floorIdx t.1 4094
    let f := t.2.with (fSub t.1 (f32Int i))
    let d := f.2.with (fSub (e (i + 1)) (e i))
    d.2.with (fFma f.1 d.1 (e i))

/-- sigmoid of Table 4-5 row 2. -/
def sigmoid (x : Word) : Word × Flg :=
  andThen (andThen (fMul x 0xBFB8AA3B#32) fExp2) (fun e => andThen (fAdd e one32) fRcp)

/-- tanh of Table 4-5 row 3. -/
def tanhF (x : Word) : Word × Flg :=
  andThen (andThen (andThen (fMul x T2E) fExp2) (fun e => andThen (fAdd e one32) fRcp))
    (fun q => fFma 0xC0000000#32 q one32)

/-- The activations of Table 4-5. -/
def act (fn : Nat) (alpha x : Word) : Word × Flg :=
  match fn with
  | 0 => fMax x zero32
  | 1 =>
    let c := fCmp (fun a b => ltV b a) x zero32
    let m := fMul x alpha
    -- the select uses the operand it selects (R112)
    if c.1 then (x, c.2.or m.2) else (m.1, (c.2.or m.2).or { nanIn := (val32 m.1).isNan })
  | 2 => sigmoid x
  | 3 => tanhF x
  | 4 => andThen (sigmoid x) (fun q => fMul x q)
  | _ =>
    let x3 := andThen (fMul x x) (fun y => fMul y x)
    let u := andThen x3 (fun y => fFma G3 y x)
    let t := andThen (andThen u (fun u => fMul G1 u)) (fun v => andThen (tanhF v) (fun t => fAdd t one32))
    let h := t.2.with (fMul 0x3F000000#32 x)
    h.2.with (fMul h.1 t.1)

/-! ### Table loads (R137, R146) -/

/-- The NORM values of one channel from its final block entry (R137): (mean, rstd). -/
def normEntry (sum sumsq : Word) (count : Nat) (eps : Word) : (Word × Word) × Flg :=
  let c := fin32 (FV.ofInt count, {})
  let q := andThen c fRcp
  let mean := q.2.with (fMul sum q.1)
  let sq := mean.2.with (fMul sumsq q.1)
  let nm := sq.2.with (fNeg mean.1)
  let v := nm.2.with (fFma nm.1 mean.1 sq.1)
  let var := v.2.with (fMax v.1 zero32)
  let rstd := andThen (var.2.with (fAdd var.1 eps)) fRsqrt
  ((mean.1, rstd.1), rstd.2)

/-- The runs of partition memory that a command's micro-ops load (R146). -/
def loadRanges (r : Recipe) (m n k : Nat) : List (Nat × Nat) :=
  ((r.pros ++ r.epis).map (fun u =>
    match u.op with
    | .lut1 => [(r.slot u.pa, 16384)]
    | .lut3 => [(r.slot u.pa, 287496)]
    | .bias => [(r.slot u.pa, n * 4)]
    | .cmat => [(r.slot u.pa, 48)]
    | .norm => [(r.slot u.pa, r.lo u.pb * 16)]
    | .deq =>
      let len := if u.imm = 1 then (if u.tgt then n else m) else k
      if u.imm = 0 then [] else [(r.slot u.pa, len * 4), (r.slot u.pb, len * 4)]
    | _ => [])).flatten

/-- What one micro-op loads into a core's table region, with the flags NORM raises (R146). `m`, `n`, `k` as in
`Recipe.vecBytes`; `rd` reads the partition's memory. The spec gives the items of the vector area and their sizes, not the order
inside an item: a NORM's means stand before its rstds, a DEQ's s vector before its z vector (DESIGN CHOICE, log 114). -/
def loadBlob (rd : Nat → Nat → List Byte) (r : Recipe) (m n k : Nat) (u : Mu) : List Byte × Flg :=
  match u.op with
  | .lut1 => (rd (r.slot u.pa) 16384, {})
  | .lut3 => (rd (r.slot u.pa) 287496, {})
  | .bias => (rd (r.slot u.pa) (n * 4), {})
  | .cmat => (rd (r.slot u.pa) 48, {})
  | .deq =>
    let len := if u.imm = 1 then (if u.tgt then n else m) else k
    if u.imm = 0 then ([], {}) else (rd (r.slot u.pa) (len * 4) ++ rd (r.slot u.pb) (len * 4), {})
  | .norm =>
    let c := r.lo u.pb
    let eps := w32 (u.imm * 65536)
    let es := mapF (fun i =>
      let e := rd (r.slot u.pa + i * 16) 16
      normEntry (w32 (fieldAt e 0 4)) (w32 (fieldAt e 4 4)) (fieldAt e 8 4) eps) (List.range c)
    ((es.1.map (fun p => toLE 4 p.1.toNat)).flatten ++ (es.1.map (fun p => toLE 4 p.2.toNat)).flatten, es.2)
  | _ => ([], {})

/-- Word `i` of a blob. -/
def blobW (b : List Byte) (i : Nat) : Word := w32 (fieldAt b (4 * i) 4)

/-! ### The prologue (R134, R135) -/

/-- One prologue micro-op on an element: `idx` is the row (A) or column (B) index, `k` the index along K, `kLen` the
reduction length, `len` the row or column count. A NORM with C = 0 has no channel k mod C: its mean and rstd are free values
(log 113). -/
def proStep (r : Recipe) (blob : List Byte) (u : Mu) (idx len k kLen : Nat) (x : Word) : Word × Flg :=
  match u.op with
  | .deq =>
    let s := if u.imm = 0 then w32 (r.lo u.pa) else if u.imm = 1 then blobW blob idx else blobW blob k
    let z := if u.imm = 0 then w32 (r.hi u.pa)
      else if u.imm = 1 then blobW blob (len + idx) else blobW blob (kLen + k)
    andThen (fSub x z) (fun d => fMul d s)
  | .scale => fMul x (w32 (r.lo u.pa))
  | .lut1 => lut1 (blobW blob) (w32 (r.lo u.pb)) (w32 (r.hi u.pb)) x
  | .norm =>
    let c := r.lo u.pb
    let ch := k % c
    let v := fun (i : Nat) => if c = 0 then Config.normNone i k else blobW blob (i * c + ch)
    andThen (fSub x (v 0)) (fun d => fMul d (v 1))
  | _ => (x, {})

/-- An operand's element as MX takes it: the bits in the MX format (R134). -/
def proElem (r : Recipe) (blobs : List (List Byte)) (b : Bool) (store mxf : NFmt) (idx len k kLen : Nat)
    (raw : Nat) : Nat × Flg :=
  let us := r.pros.zipIdx.filter (fun p => p.1.tgt == b)
  if us.isEmpty && store == mxf then (raw, {})
  else
    let y := us.foldl (fun (a : Word × Flg) p => a.2.with (proStep r (blobs.getD p.2 []) p.1 idx len k kLen a.1))
      (widen store raw)
    y.2.with (narrow mxf y.1)

/-! ### MX_GEMM tiles -/

/-- Rows of a tile's row range and columns of its column range (R294): (first, count). -/
structure TileGeo where
  slab : Nat
  tr : Nat
  tn : Nat
  i0 : Nat
  m : Nat
  j0 : Nat
  n : Nat
  /-- the row-tile index tm for STATS -/
  tm : Nat
  /-- the tile's number within the slab, j of R117 -/
  j : Nat
  deriving DecidableEq, Repr

/-- R294: the geometry of logical tile T of a command of MS rows a slab and N columns. -/
def tileGeo (ms n tn t : Nat) : TileGeo :=
  let rt := cdiv ms 128
  let nt := cdiv n tn
  let s := t / (rt * nt)
  let j := t % (rt * nt)
  let r := j / nt
  let c := j % nt
  { slab := s, tr := r, tn := c, i0 := r * 128, m := min 128 (ms - r * 128), j0 := c * tn, n := min tn (n - c * tn),
    tm := s * rt + r, j := j }

/-- Tiles of a command (R294). -/
def tileCount (g ms n tn : Nat) : Nat := g * cdiv ms 128 * cdiv n tn

/-- Addresses of operand A, B and C0 before the prologue (Table 10-8-10), slab shift included. -/
def Gemm.aAddr (c : Gemm) (r : Recipe) (s : NFmt) (slab i k : Nat) : Nat :=
  c.a + slab * 2 ^ 33 + (if r.trans false then k * c.sa + i * s.size else i * c.sa + k * s.size)
def Gemm.bAddr (c : Gemm) (r : Recipe) (s : NFmt) (slab k j : Nat) : Nat :=
  c.b + slab * 2 ^ 33 + (if r.trans true then k * c.sb + j * s.size else j * c.sb + k * s.size)
def Gemm.c0Addr (c : Gemm) (slab i j : Nat) : Nat := c.c0 + slab * 2 ^ 33 + i * c.n * 4 + j * 4

/-- The accumulator of one tile (R113), row by row: `a i k` gives the stored bits of A (memory, or the held result). -/
def gemmTile (rd : Rd) (aBits : Nat → Nat → Nat) (c : Gemm) (r : Recipe) (blobs : List (List Byte)) (g : TileGeo) :
    List (List Word) × Flg :=
  match fmtOf r.aStore, fmtOf r.bStore, fmtOf r.aMxf, fmtOf r.bMxf with
  | some as_, some bs, some am, some bm =>
    let ks := List.range c.k
    let aRows := mapF (fun i => mapF (fun k =>
      proElem r blobs false as_ am (g.i0 + i) c.ms k c.k (aBits (g.i0 + i) k)) ks) (List.range g.m)
    let bCols := mapF (fun j => mapF (fun k =>
      proElem r blobs true bs bm (g.j0 + j) c.n k c.k (rd (c.bAddr r bs g.slab k (g.j0 + j)) bs.size)) ks)
      (List.range g.n)
    let acc := mapIdxF (fun i row => mapIdxF (fun j col =>
      let c0 : Word := if c.c0 = 0 then zero32 else w32 (rd (c.c0Addr g.slab (g.i0 + i) (g.j0 + j)) 4)
      if am == .i8 then
        let z := toIntRange (-2147483648) 2147483647 (val32 c0)
        z.2.with (mxDotInt am.w (BitVec.ofInt 32 z.1)
          ((row.zip col).map (fun p => ((BitVec.ofNat 8 p.1).toInt, (BitVec.ofNat 8 p.2).toInt))))
      else mxDot am.w c0 ((row.zip col).map (fun p => (am.val p.1, bm.val p.2)))) bCols.1) aRows.1
    (acc.1, (aRows.2.or bCols.2).or acc.2)
  | _, _, _, _ => ([], {})

/-! ### The epilogue (R138–R145) -/

/-- What an epilogue has made so far: the stream and its form, and what it has issued. Column writes and OSM states are
slab-base addresses with the shift applied; statistics entries are unshifted; a send is module-relative. -/
structure Epi where
  form : Strm := .f32
  rows : List (List Nat)
  cols : List (Nat × List Byte) := []
  scr : List (Nat × List Byte) := []
  stats : List (Nat × List Byte) := []
  send : Option (Mu × List (Nat × List Byte)) := none
  flg : Flg := {}
  deriving DecidableEq, Repr

/-- Change every fp32 element of the stream, with its row and column in command coordinates. -/
def Epi.elem (e : Epi) (g : TileGeo) (f : Nat → Nat → Word → Word × Flg) : Epi :=
  let r := mapIdxF (fun i row => mapIdxF (fun j x =>
    let y := f (g.i0 + i) (g.j0 + j) (w32 x)
    (y.1.toNat, y.2)) row) e.rows
  { e with rows := r.1, flg := e.flg.or r.2 }

/-- Change the colour triples of every row (R140). -/
def triplesOf : Nat → List Nat → List (Nat × Nat × Nat)
  | 0, _ => []
  | k + 1, r :: g :: b :: t => (r, g, b) :: triplesOf k t
  | _, _ => []

/-- CMAT on one triple (R140). -/
def cmat (m : Nat → Word) (t : Nat × Nat × Nat) : List Nat × Flg :=
  mapF (fun k =>
    let a := fFma (m (3 * k)) (w32 t.1) (m (9 + k))
    let b := a.2.with (fFma (m (3 * k + 1)) (w32 t.2.1) a.1)
    let c := b.2.with (fFma (m (3 * k + 2)) (w32 t.2.2) b.1)
    (c.1.toNat, c.2)) [0, 1, 2]

/-- Offset of a LUT3 node (R141). -/
def lut3Off (ir ig ib : Nat) : Nat := ((ib * 33 + ig) * 33 + ir) * 8

/-- LUT3 on one triple: tetrahedral interpolation (R141). -/
def lut3 (blob : List Byte) (t : Nat × Nat × Nat) : List Nat × Flg :=
  let xs := [w32 t.1, w32 t.2.1, w32 t.2.2]
  if xs.any (fun x => (val32 x).isNan) then (List.replicate 3 nan32.toNat, { nanIn := true })
  else
    let ts := mapF (fun x => andThen (fClamp x zero32 one32) (fun u => fMul u 0x42000000#32)) xs
    let is := ts.1.map (fun t => floorIdx t 31)
    let fs := mapF (fun p : Word × Nat => fSub p.1 (f32Int p.2)) (ts.1.zip is)
    let f := fun a => fs.1.getD a zero32
    let i := fun a => is.getD a 0
    -- axes by f descending, ties in the order r, g, b
    let gt := fun a b => ltV (val32 (f b)) (val32 (f a))
    let ord : List Nat :=
      let ab := if gt 1 0 then [1, 0] else [0, 1]
      -- insert axis 2 after every axis whose f is not less
      let pre := ab.filter (fun a => !gt 2 a)
      pre ++ [2] ++ ab.filter (fun a => gt 2 a)
    let a1 := ord.getD 0 0
    let a2 := ord.getD 1 0
    let a3 := ord.getD 2 0
    let at_ := fun (d : Nat → Nat) (k : Nat) =>
      (widen .f16 (fieldAt blob (lut3Off (i 0 + d 0) (i 1 + d 1) (i 2 + d 2) + 2 * k) 2)).1
    let v0 := at_ (fun _ => 0)
    let v1 := at_ (fun a => if a = a1 then 1 else 0)
    let v2 := at_ (fun a => if a = a1 ∨ a = a2 then 1 else 0)
    let v3 := at_ (fun _ => 1)
    let r := mapF (fun k =>
      let d1 := fSub (v1 k) (v0 k)
      let y1 := d1.2.with (fFma (f a1) d1.1 (v0 k))
      let d2 := y1.2.with (fSub (v2 k) (v1 k))
      let y2 := d2.2.with (fFma (f a2) d2.1 y1.1)
      let d3 := y2.2.with (fSub (v3 k) (v2 k))
      let y3 := d3.2.with (fFma (f a3) d3.1 y2.1)
      (y3.1.toNat, y3.2)) [0, 1, 2]
    (r.1, (ts.2.or fs.2).or r.2)

/-- FILM's code value (R142). -/
def filmCode (full : Word) (y : Word) : Nat × Flg :=
  let v := val32 y
  if v.isNan then (0, { nanIn := true })
  else
    let sat := ltV v (.fin false 0 0) || ltV (.fin false 1 0) v
    let c := fClamp y zero32 one32
    let m := c.2.with (fMul c.1 full)
    ((roundInt (val32 m.1)).toNat, m.2.or { sat := sat })

/-- Apply a step to the triples of every row. -/
def Epi.triple (e : Epi) (f : Nat × Nat × Nat → List Nat × Flg) : Epi :=
  let r := mapF (fun row => let x := mapF f (triplesOf row.length row); (x.1.flatten, x.2)) e.rows
  { e with rows := r.1, flg := e.flg.or r.2 }

/-- OSM on one row: new elements and the new row state (m, l, a) (R144). -/
def osmRow (m l : Word) (row : List Word) : (List Word × Word × Word × Word) × Flg :=
  let mx := reduce .max row
  let mn := mx.2.with (fMax m mx.1)
  if mn.1 = negInf then
    let sm := mn.2.with (reduce .sum (row.map (fun _ => zero32)))
    let ll := sm.2.with (fMul l one32)
    let l2 := ll.2.with (fAdd ll.1 sm.1)
    ((row.map (fun _ => zero32), mn.1, l2.1, one32), l2.2)
  else
    let es := mapF (fun x => andThen (fSub x mn.1) fExp2) row
    let a := (mn.2.or es.2).with (andThen (fSub m mn.1) fExp2)
    let sm := a.2.with (reduce .sum es.1)
    let ll := sm.2.with (fMul l a.1)
    let l2 := ll.2.with (fAdd ll.1 sm.1)
    ((es.1, mn.1, l2.1, a.1), l2.2)

/-- The bytes of a row state (R144). -/
def rowState (m l a : Word) : List Byte := toLE 4 m.toNat ++ toLE 4 l.toNat ++ toLE 4 a.toNat ++ toLE 4 0

/-- The stream's elements with their addresses: `at_ i j` for row i and column (or triple) j in command coordinates
minus the tile's origin. -/
def Epi.place (e : Epi) (at_ : Nat → Nat → Nat) : List (Nat × List Byte) :=
  (e.rows.zipIdx.map (fun ri => ri.1.zipIdx.map (fun xj => (at_ ri.2 xj.2, toLE e.form.size xj.1)))).flatten

/-- One epilogue micro-op (R138–R145). `h` counts the command's tiles the core ran before this one. -/
def epiStep (rd : Rd) (r : Recipe) (n : Nat) (g : TileGeo) (h : Nat) (e : Epi) (ub : Mu × List Byte) : Epi :=
  let u := ub.1
  let blob := ub.2
  let sh := g.slab * 2 ^ 33
  -- column origin of the tile in elements of the stream: triples for FILM mode 0
  let j0 := if e.form = .film0 then g.j0 / 3 else g.j0
  match u.op with
  | .bias => e.elem g (fun _ j x => fAdd x (blobW blob j))
  | .scale => e.elem g (fun _ _ x => fMul x (w32 (r.lo u.pa)))
  | .lut1 => e.elem g (fun _ _ x => lut1 (blobW blob) (w32 (r.lo u.pb)) (w32 (r.hi u.pb)) x)
  | .act => e.elem g (fun _ _ x => act u.imm (w32 (r.lo u.pa)) x)
  | .res =>
    match fmtOf u.imm with
    | some f =>
      e.elem g (fun i j x =>
        let v := widen f (rd (r.slot u.pa + sh + i * r.lo u.pb + j * f.size) f.size)
        v.2.with (fAdd x v.1))
    | none => e
  | .clamp => e.elem g (fun _ _ x => fClamp x (w32 (r.lo u.pa)) (w32 (r.hi u.pa)))
  | .cmat => e.triple (cmat (blobW blob))
  | .lut3 => e.triple (lut3 blob)
  | .req =>
    match fmtOf u.imm with
    | some f =>
      let q := mapF (fun row => mapF (fun x =>
        let y := andThen (fMul (w32 x) (w32 (r.lo u.pa))) (fun y => fAdd y (w32 (r.hi u.pa)))
        y.2.with (narrow f y.1)) row) e.rows
      { e with rows := q.1, form := .nrw f, flg := e.flg.or q.2 }
    | none => e
  | .film =>
    if u.imm = 0 then
      let q := mapF (fun row => mapF (fun t : Nat × Nat × Nat =>
        let a := filmCode 0x447FC000#32 (w32 t.1)
        let b := a.2.with (filmCode 0x447FC000#32 (w32 t.2.1))
        let c := b.2.with (filmCode 0x447FC000#32 (w32 t.2.2))
        (a.1 * 2 ^ 22 + b.1 * 2 ^ 12 + c.1 * 4, c.2)) (triplesOf row.length row)) e.rows
      { e with rows := q.1, form := .film0, flg := e.flg.or q.2 }
    else
      let q := mapF (fun row => mapF (fun x => filmCode 0x477FFF00#32 (w32 x)) row) e.rows
      { e with rows := q.1, form := .film1, flg := e.flg.or q.2 }
  | .stats =>
    let q := mapF (fun j =>
      let col := e.rows.map (fun row => w32 (row.getD j 0))
      let s1 := reduce .sum col
      let s2 := s1.2.with (reduce .sumsq col)
      ((r.slot u.pa + (g.tm * n + g.j0 + j) * 16,
        toLE 4 s1.1.toNat ++ toLE 4 s2.1.toNat ++ toLE 4 g.m ++ toLE 4 0), s2.2)) (List.range g.n)
    { e with stats := e.stats ++ q.1, flg := e.flg.or q.2 }
  | .osm =>
    let q := mapIdxF (fun i row =>
      let a := r.slot u.pa + sh + (g.i0 + i) * 16
      let o := osmRow (w32 (rd a 4)) (w32 (rd (a + 4) 4)) (row.map w32)
      ((o.1.1.map BitVec.toNat, (a, rowState o.1.2.1 o.1.2.2.1 o.1.2.2.2)), o.2)) e.rows
    { e with rows := q.1.map (·.1), cols := e.cols ++ q.1.map (·.2), flg := e.flg.or q.2 }
  | .write =>
    if u.imm = 0 then
      { e with cols := e.cols ++ e.place (fun i j =>
          r.slot u.pa + sh + (g.i0 + i) * r.lo u.pb + (j0 + j) * e.form.size) }
    else
      { e with scr := e.scr ++ e.place (fun i j =>
          r.lo u.pa + h * r.hi u.pa + i * r.lo u.pb + j * e.form.size) }
  | .send =>
    { e with send := some (u, e.place (fun i j =>
        r.slot u.pb + (g.i0 + i) * (u.imm * 16) + (j0 + j) * e.form.size)) }
  | _ => e

/-- The whole epilogue of a tile (R138): `acc` is the accumulator; int8 accumulators are int32 and are converted. -/
def epilogue (rd : Rd) (r : Recipe) (blobs : List (List Byte)) (n : Nat) (g : TileGeo) (h : Nat) (isInt : Bool)
    (acc : List (List Word)) : Epi :=
  let y := if isInt then mapF (fun row => mapF (fun (x : Word) => let v := widen .i32 x.toNat; (v.1.toNat, v.2)) row) acc
    else (acc.map (fun row => row.map BitVec.toNat), {})
  let np := r.pros.length
  (r.epis.zipIdx).foldl (fun e p => epiStep rd r n g h e (p.1, blobs.getD (np + p.2) []))
    { rows := y.1, flg := y.2 }

/-! ### VX tiles (R301, R302) -/

/-- The operand of a VX command widened to fp32 (R301). -/
def Vx.aVal (c : Vx) (rd : Rd) (slab i j : Nat) : Word × Flg :=
  match fmtOf c.aFmt with
  | some f => widen f (rd (c.a + slab * 2 ^ 33 + i * c.sa + j * f.size) f.size)
  | none => (zero32, {})
def Vx.bVal (c : Vx) (rd : Rd) (slab i j : Nat) : Word × Flg :=
  if c.bScalar then (w32 (c.b % 2 ^ 32), {})
  else match fmtOf c.bFmt with
  | some f => widen f (rd (c.b + slab * 2 ^ 33 + i * c.sb + j * f.size) f.size)
  | none => (zero32, {})
def Vx.oVal (c : Vx) (rd : Rd) (slab i j : Nat) : Word × Flg :=
  match fmtOf c.oFmt with
  | some f => widen f (rd (c.out + slab * 2 ^ 33 + i * c.so + j * f.size) f.size)
  | none => (zero32, {})

/-- Operations of two operands, a and b (Table 8-13). -/
def vxBin (op : Nat) : Option (Word → Word → Word × Flg) :=
  match op with
  | 0x01 => some fAdd | 0x02 => some fSub | 0x03 => some fMul
  | 0x05 => some fMin | 0x06 => some fMax
  | 0x07 => some (fun a b => let c := fCmp ltV a b; (if c.1 then one32 else zero32, c.2))
  | 0x08 => some (fun a b => let c := fCmp eqV a b; (if c.1 then one32 else zero32, c.2))
  | _ => none

/-- Operations of one operand (Table 8-13). -/
def vxUn (op : Nat) : Option (Word → Word × Flg) :=
  match op with
  | 0x0A => some fAbs | 0x0B => some fNeg | 0x0C => some fRcp | 0x0D => some fSqrt | 0x0E => some fRsqrt
  | 0x0F => some fExp2 | 0x10 => some fLog2 | 0x11 => some (fun a => (a, {}))
  | _ => none

/-- One VX_ELT result before narrowing (Table 8-13). -/
def vxElt (c : Vx) (rd : Rd) (slab i j : Nat) : Word × Flg :=
  match vxBin c.op, vxUn c.op with
  | some f, _ =>
    let a := c.aVal rd slab i j
    let b := a.2.with (c.bVal rd slab i j)
    b.2.with (f a.1 b.1)
  | none, some f => andThen (c.aVal rd slab i j) f
  | none, none =>
    if c.op = 0x04 then
      let a := c.aVal rd slab i j
      let b := a.2.with (c.bVal rd slab i j)
      let o := b.2.with (c.oVal rd slab i j)
      o.2.with (fFma a.1 b.1 o.1)
    else if c.op = 0x09 then
      let o := c.oVal rd slab i j
      let v := val32 o.1
      -- a select by mask uses only the operand it selects (R112)
      if v.isZero || v.isNan then c.bVal rd slab i j else c.aVal rd slab i j
    else c.bVal rd slab i j

/-- The writes of a VX_ELT row tile: rows of 64 (R302). -/
def vxEltTile (c : Vx) (rd : Rd) (slab tr : Nat) : List (Nat × List Byte) × Flg :=
  match fmtOf c.oFmt with
  | none => ([], {})
  | some f =>
    let rows := min 64 (c.ms - tr * 64)
    let q := mapF (fun i => mapF (fun j =>
      let y := vxElt c rd slab (tr * 64 + i) j
      let z := y.2.with (narrow f y.1)
      ((c.out + slab * 2 ^ 33 + (tr * 64 + i) * c.so + j * f.size, toLE f.size z.1), z.2)) (List.range c.n))
      (List.range rows)
    (q.1.flatten, q.2)

/-- The reduction an OP of VX_REDUCE names (Table 8-13). -/
def redOf : Nat → Option RedOp
  | 1 => some .sum | 2 => some .sumsq | 3 => some .max | 4 => some .min | _ => none

/-- The writes of a VX_REDUCE row tile: one fp32 per row (R116, R301). -/
def vxRedTile (c : Vx) (rd : Rd) (slab tr : Nat) : List (Nat × List Byte) × Flg :=
  match redOf c.op with
  | none => ([], {})
  | some op =>
    mapF (fun i =>
      let row := mapF (fun j => c.aVal rd slab (tr * 64 + i) j) (List.range c.n)
      let y := row.2.with (reduce op row.1)
      ((c.out + slab * 2 ^ 33 + (tr * 64 + i) * c.so, toLE 4 y.1.toNat), y.2)) (List.range (min 64 (c.ms - tr * 64)))

/-- The final block of VX_COMBINE (R143): sums in increasing tm from the entry tm = 0, counts modulo 2^32. -/
def combine (c : Comb) (rd : Rd) : List (Nat × List Byte) × Flg :=
  mapF (fun j =>
    let at_ := fun tm => c.partial_ + (tm * c.n + j) * 16
    let s0 : Word × Word × Nat × Flg := (w32 (rd (at_ 0) 4), w32 (rd (at_ 0 + 4) 4), rd (at_ 0 + 8) 4, {})
    let s := (List.range (c.tms - 1)).foldl (fun (a : Word × Word × Nat × Flg) t =>
      let x := a.2.2.2.with (fAdd a.1 (w32 (rd (at_ (t + 1)) 4)))
      let y := x.2.with (fAdd a.2.1 (w32 (rd (at_ (t + 1) + 4) 4)))
      (x.1, y.1, (a.2.2.1 + rd (at_ (t + 1) + 8) 4) % 2 ^ 32, y.2)) s0
    ((c.final + j * 16, toLE 4 s.1.toNat ++ toLE 4 s.2.1.toNat ++ toLE 4 s.2.2.1 ++ toLE 4 0), s.2.2.2))
    (List.range c.n)

/-! ### The fold of FX_REDUCE (R419) -/

/-- One element of the fold: slot values in rank order, widened, folded with one rounding each, narrowed. -/
def foldElem (op : Nat) (f : NFmt) (slots : List Nat) : Nat × Flg :=
  let g := if op = 1 then fAdd else if op = 3 then fMax else fMin
  match slots with
  | [] => (0, {})
  | x :: t =>
    let a := t.foldl (fun (a : Word × Flg) y => let v := a.2.with (widen f y); v.2.with (g a.1 v.1)) (widen f x)
    a.2.with (narrow f a.1)

/-! ### Attention tile-steps (R442) -/

/-- A query tile's rows: (m, l, a, o) per row. -/
structure ARow where
  m : Word
  l : Word
  a : Word
  o : List Word
  deriving DecidableEq, Repr

/-- One chunk of 128 keys folded into one query row (R442). `key k` and `val k` are the chunk's rows in the MX format;
`mask k` says key k is masked. -/
def attnRow (f : NFmt) (d : Nat) (sc : Word) (q : List Nat) (key val : Nat → List Nat) (mask : Nat → Bool) (r : ARow) :
    ARow × Flg :=
  let s := mapF (fun k =>
    let z := mxDot f.w zero32 ((q.zip (key k)).map (fun p => (f.val p.1, f.val p.2)))
    let y := z.2.with (fMul z.1 sc)
    if mask k then (negInf, y.2) else y) (List.range 128)
  let w := s.2.with (osmRow r.m r.l s.1)
  let p := w.2.with (mapF (narrow f) w.1.1)
  let a := w.1.2.2.2
  let o := p.2.with (mapF (fun j =>
    let c0 := fMul a (r.o.getD j zero32)
    c0.2.with (mxDot f.w c0.1 (p.1.zipIdx.map (fun x => (f.val x.1, f.val ((val x.2).getD j 0)))))) (List.range d))
  ({ m := w.1.2.1, l := w.1.2.2.1, a := a, o := o.1 }, o.2)

end Sys2Proof.Machine
end

