-- ==== Sys2Proof/Machine/Cipher.lean ====
section
/-! DEFINITION. XTS-AES-256 of IEEE 1619 (R216): the cipher of the column gates, on bytes as numbers below 256. -/

namespace Sys2Proof.Machine

/-- 256-bit pieces as one number, the first lowest. -/
def join256 : List Nat → Nat
  | [] => 0
  | a :: t => a + 2 ^ 256 * join256 t

/-- The S-box of AES (FIPS 197), byte i at bits [8i + 7 : 8i]. -/
def sboxTab : Nat :=
  join256 [
    0xc072a49cafa2d4adf04759fa7dc982ca76abd7fe2b670130c56f6bf27b777c63,
    0x75b227ebe28012079a059618c323c7041531d871f1e5a534ccf73f362693fdb7,
    0xcf584c4a39becb6a5bb1fc20ed00d153842fe329b3d63b52a05a6e1b1a2c8309,
    0xd2f3ff1021dab6bcf5389d928f40a351a89f3c507f02f94585334d43fbaaefd0,
    0xdb0b5ede14b8ee4688902a22dc4f816073195d643d7ea7c41744975fec130ccd,
    0x08ae7a65eaf4566ca94ed58d6d37c8e779e4959162acd3c25c2406490a3a32e0,
    0x9e1dc186b95735610ef6034866b53e708a8bbd4b1f74dde8c6b4a61c2e2578ba,
    0x16bb54b00f2d99416842e6bf0d89a18cdf2855cee9871e9b948ed9691198f8e1]

/-- Its inverse. -/
def sboxInvTab : Nat :=
  join256 [
    0xcbe9dec444438e3487ff2f9b8239e37cfbd7f3819ea340bf38a53630d56a0952,
    0x25d18b6d49a25b76b224d92866a12e084ec3fa420b954cee3d23c2a632947b54,
    0x849d8da75746155edab9edfd5048706c92b6655dcc5ca4d41698688664f6f872,
    0x6b8a130103bdafc1020f3fca8f1e2cd00645b3b80558e4f70ad3bc8c00abd890,
    0x6edf751ce837f9e28535ade72274ac9673e6b4f0cecff297eadc674f4111913a,
    0xf45acd78fec0db9a2079d2c64b3e56fc1bbe18aa0e62b76f89c5291d711af147,
    0xef9cc9939f7ae52d0d4ab519a97f51605fec8027591012b131c7078833a8dd1f,
    0x7d0c2155631469e126d677ba7e042b17619953833cbbebc8b0f52aae4d3be0a0]

/-- A byte of a table of 256. -/
def tabByte (t i : Nat) : Nat := (t >>> (8 * i)) % 256

/-- Multiplication by x in the field of AES. -/
def xtime (b : Nat) : Nat := if b < 128 then 2 * b else (2 * b) ^^^ 0x11B

/-- Multiplication in the field of AES by a constant below 16. -/
def gmul (c b : Nat) : Nat :=
  let b2 := xtime b
  let b4 := xtime b2
  let b8 := xtime b4
  (if c % 2 = 1 then b else 0) ^^^ (if c / 2 % 2 = 1 then b2 else 0) ^^^ (if c / 4 % 2 = 1 then b4 else 0) ^^^
  (if c / 8 % 2 = 1 then b8 else 0)

/-- Exclusive or of byte lists. -/
def xorBytes (a b : List Nat) : List Nat := List.zipWith (· ^^^ ·) a b

/-- Words 8 to 59 of the key schedule of AES-256, each four bytes, after the words so far. -/
def keyWords : Nat → Nat → List (List Nat) → List (List Nat)
  | 0, _, ws => ws
  | k + 1, i, ws =>
    let prev := ws.getD (i - 1) []
    let sub := fun (l : List Nat) => l.map (tabByte sboxTab)
    let temp :=
      if i % 8 = 0 then xorBytes (sub (prev.drop 1 ++ prev.take 1)) [2 ^ (i / 8 - 1), 0, 0, 0]
      else if i % 8 = 4 then sub prev else prev
    keyWords k (i + 1) (ws ++ [xorBytes (ws.getD (i - 8) []) temp])

/-- The 15 round keys of a 32-byte key. -/
def roundKeys (key : List Nat) : List (List Nat) :=
  let k32 := (List.range 32).map (fun i => key.getD i 0)
  let first := (List.range 8).map (fun i => (k32.drop (4 * i)).take 4)
  let ws := keyWords 52 8 first
  (List.range 15).map (fun r => ((ws.drop (4 * r)).take 4).flatten)

/-- ShiftRows and its inverse on a block, byte r + 4c of row r and column c. -/
def shiftRows (b : List Nat) : List Nat := (List.range 16).map (fun i => b.getD ((i + 4 * (i % 4)) % 16) 0)
def shiftRowsInv (b : List Nat) : List Nat := (List.range 16).map (fun i => b.getD ((i + 12 * (i % 4)) % 16) 0)

/-- MixColumns by the first row of its matrix: (2, 3, 1, 1), or (14, 11, 13, 9) for the inverse. -/
def mixColumns (m : List Nat) (b : List Nat) : List Nat :=
  (List.range 16).map (fun i =>
    ([0, 1, 2, 3].map (fun k => gmul (m.getD ((k + 4 - i % 4) % 4) 0) (b.getD (i / 4 * 4 + k) 0))).foldl (· ^^^ ·) 0)

/-- AES-256 of a 16-byte block. -/
def aesEnc (key block : List Nat) : List Nat :=
  match roundKeys key with
  | [] => block
  | k0 :: ks =>
    let mid := (ks.take 13).foldl
      (fun b k => xorBytes (mixColumns [2, 3, 1, 1] (shiftRows (b.map (tabByte sboxTab)))) k) (xorBytes block k0)
    xorBytes (shiftRows (mid.map (tabByte sboxTab))) (ks.getD 13 [])

/-- Its inverse. -/
def aesDec (key block : List Nat) : List Nat :=
  match (roundKeys key).reverse with
  | [] => block
  | k0 :: ks =>
    let mid := (ks.take 13).foldl
      (fun b k => mixColumns [14, 11, 13, 9] (xorBytes ((shiftRowsInv b).map (tabByte sboxInvTab)) k)) (xorBytes block k0)
    xorBytes ((shiftRowsInv mid).map (tabByte sboxInvTab)) (ks.getD 13 [])

/-- Multiplication of a tweak by the primitive element of GF(2^128), on its little-endian number (IEEE 1619). -/
def mulAlpha (t : Nat) : Nat := if t < 2 ^ 127 then 2 * t else (2 * t - 2 ^ 128) ^^^ 0x87

/-- The 16 bytes of a number, little-endian, and back. -/
def bytes16 (n : Nat) : List Nat := (List.range 16).map (fun i => (n >>> (8 * i)) % 256)
def nat16 (l : List Nat) : Nat := l.foldr (fun b a => b + 256 * a) 0

/-- XTS over the blocks of a data unit, from the encrypted tweak on. -/
def xtsBlocks (f : List Nat → List Nat) : Nat → Nat → List Nat → List Nat
  | 0, _, _ => []
  | k + 1, t, bs => xorBytes (f (xorBytes (bs.take 16) (bytes16 t))) (bytes16 t) ++ xtsBlocks f k (mulAlpha t) (bs.drop 16)

/-- XTS-AES-256 of a 64-byte data unit (R216): the first half of the 512-bit key is the data key, the second the tweak key;
`tweak` is the tweak's 128-bit little-endian value. -/
def xtsEnc (key : List Nat) (tweak : Nat) (unit : List Nat) : List Nat :=
  xtsBlocks (aesEnc (key.take 32)) 4 (nat16 (aesEnc (key.drop 32) (bytes16 tweak))) unit

/-- Its inverse. -/
def xtsDec (key : List Nat) (tweak : Nat) (unit : List Nat) : List Nat :=
  xtsBlocks (aesDec (key.take 32)) 4 (nat16 (aesEnc (key.drop 32) (bytes16 tweak))) unit

end Sys2Proof.Machine
end

