-- ==== Sys2Proof/Machine/State.lean ====
section
/-! DEFINITION. The state of the machine: everything the spec gives it, as plain data. Each field names its width,
the rule that gives it and its reset value; "log n" is notes/assumptions/n.md. A field's default is its value in
`State.reset`, which is the machine at the end of bring-up stage 11 (R15, R782), healthy and as delivered. -/

namespace Sys2Proof.Machine

/-! ### Shared shapes of state -/

/-- Table 5-3: the life cycle of tenants, partitions, rings, move channels, pipelines and module power. -/
inductive Life where
  | off | on | winding
  deriving DecidableEq, Repr

/-- STATE and PENDING of a life-cycle object (R184). -/
structure Obj where
  /-- STATE, 2 bits; R184 (05_setup_window.md); reset OFF (Table 22-4) -/
  st : Life := .off
  /-- PENDING, 1 bit; R185 (05_setup_window.md); reset 0 -/
  pending : Bool := false
  deriving DecidableEq, Repr

/-- The names of the shapes, Table 10-4 codes 0–3. -/
inductive Shape where
  | s446 | s483 | s843 | s166
  deriving DecidableEq, Repr

/-- An event of Table 7-5 before it takes its SEQ. -/
structure Event where
  code : BitVec 16
  tenant : BitVec 4
  machine : Bool
  part : Option (BitVec 6)
  ring : Option (BitVec 12)
  detail : BitVec 16
  tb : DWord
  arg0 : DWord
  arg1 : Word
  /-- the module a late-fault record comes from (R348, R699); the model's own field, no part of the written event -/
  home : Option Nat := none
  deriving DecidableEq, Repr

/-- What an outstanding host read is for (R205, R349). -/
inductive RdPurpose where
  | scan (p : Nat)
  | fetch (r : Nat) (count : Nat)
  | move (key : Nat) (piece : Nat)
  | bank (tray pipe : Nat)
  | blob
  | parcel
  deriving DecidableEq, Repr

/-- One outstanding host read. -/
structure HRead where
  /-- the tenant it is made for; none for the machine's own reads through the control host's PF0 -/
  tenant : Option Nat
  port : Nat
  fn : Nat
  addr : DWord
  len : Nat
  purpose : RdPurpose
  /-- the request has left the host port (R248, R263) -/
  sent : Bool
  /-- tick at which it left, for the completion timeout (R265) -/
  tick : DWord
  deriving DecidableEq, Repr

/-- What the machine issues to the outside, in order of issue. -/
inductive Out where
  /-- a posted write to host memory through a function (R205) -/
  | hostWrite (port fn : Nat) (addr : DWord) (bytes : List Byte)
  /-- a read request to host memory -/
  | hostRead (port fn : Nat) (addr : DWord) (len : Nat)
  /-- the completion of a set-up read through a port (R172) -/
  | readCpl (port : Nat) (value : Word)
  /-- a control or trigger packet on a scanner uplink (ch. 13) -/
  | uplink (tray port : Nat) (bytes : List Byte)
  /-- an answer of the management interfaces (chs. 18, 20): through a Redfish session (its number; an HTTP status), the
  console (2^32 + account; 0 done, 1 refused, 2 NO MAJORITY, 3 NOT AWAITING) or SPDM (2^33 + host port; a response code) -/
  | answer (chan : Nat) (code : Nat) (body : List Nat)
  deriving DecidableEq, Repr

/-! ### The window, the host ports (chs. 5, 6, 22) -/

/-- The MACH block's own state. -/
structure Win where
  /-- MACH_IGNORED, 32 bits, saturating; R182 (05_setup_window.md); reset live, 0 at power-on -/
  ignored : Word := 0
  /-- MACH_IGNORED_LAST, 13 bits; R182, Table 5-7 (05_setup_window.md); reset live: DESIGN CHOICE 0 (log 3) -/
  ignLast : Word := 0
  /-- MACH_IGNORED_ADDR, 32 bits; R182, Table 5-7 (05_setup_window.md); reset live: DESIGN CHOICE 0 (log 3) -/
  ignAddr : Word := 0
  /-- MACH_STRAP_OVR, 32 bits; R190 (05_setup_window.md); reset stored, 0 as delivered -/
  strapOvr : Word := 0
  /-- staging latches of the writable pairs by offset of name_LO, loaded values only, 32 bits each; R175
  (05_setup_window.md); reset: the committed LO (nothing listed) -/
  latches : Tab (Option Word) := []
  /-- MACH_LOCATE_TRAYS, 18 bits; R675 (18_stewards.md), Table 22-2; reset 0 -/
  locateTrays : Word := 0
  /-- MACH_LOCATE_MOD_0–2, 32 bits each; R675 (18_stewards.md), Table 22-2; reset 0 -/
  locateMods : Tab Word := []
  /-- the timebase MACH_TB, 64 bits; R67 (02_transits.md), Table 5-7; reset live: DESIGN CHOICE 0 (log 2) -/
  tb : DWord := 0
  /-- the timebase source in force, 0 oscillator A, 1 B, 2 the internal oscillator; R69 (02_transits.md);
  reset 0 -/
  osc : BitVec 2 := 0
  /-- oscillators A, B that have failed, 2 bits; R69 (02_transits.md); reset 0 -/
  oscFailed : BitVec 2 := 0
  /-- posted writes through PF0 of the control host's port that wait for the function, oldest first: diagnostic
  transfers; R263, R331 (07_queues.md, 09_move.md); reset empty -/
  ctlHeldW : List (DWord × List Byte) := []
  deriving DecidableEq, Repr

/-- A host port (Table 22-3). -/
structure Port where
  /-- LINK.UP, 1 bit; R788 (22_register_map.md); reset live: DESIGN CHOICE down (log 1) -/
  up : Bool := false
  /-- LINK.SPEED, 3 bits; R788; reset live: 0 while down -/
  speed : BitVec 3 := 0
  /-- LINK.WIDTH, 5 bits; R788; reset live: 0 while down -/
  width : BitVec 5 := 0
  /-- LINK.FLIT, 1 bit; R788; reset live: 0 while down -/
  flit : Bool := false
  /-- SRIOV.NUMVFS, 4 bits; R788 (22_register_map.md), R210; reset live: 0, as R789 reads it after a reset -/
  numVfs : BitVec 4 := 0
  /-- SRIOV.VF_EN, 1 bit; R788, R210; reset live: 0 -/
  vfEn : Bool := false
  /-- PF0's uncorrectable errors reported by Advanced Error Reporting for the port's functions, bits as the standard
  numbers them: 12 poisoned data received, 14 completion timeout; Table 6-3 (06_tenants.md); reset 0 (log 100) -/
  aer : Word := 0
  /-- TRAINS, 32 bits, wrapping; R788; reset 0 -/
  trains : Word := 0
  /-- REPLAYS, 32 bits, saturating; R788; reset 0 -/
  replays : Word := 0
  /-- CPL_TIMEOUTS, 32 bits, saturating; R788; reset 0 -/
  cplTimeouts : Word := 0
  /-- NUDGES, 32 bits, wrapping; R788; reset 0 -/
  nudges : Word := 0
  /-- RESETS, 32 bits, wrapping; R788; reset 0 -/
  resets : Word := 0
  deriving DecidableEq, Repr

/-- The configuration of one host function that the machine uses (R788); key port × 16 + function. -/
structure Fn where
  /-- MPS, 3 bits: 0 128 B … 2 512 B; R788, R789 (22_register_map.md); reset 0 -/
  mps : BitVec 3 := 0
  /-- MRRS, 3 bits: 0 128 B … 5 4,096 B; R788, R789; reset 0 -/
  mrrs : BitVec 3 := 0
  /-- BME, 1 bit; R205 (06_tenants.md), R788; reset live: 0, as the standard's reset leaves it -/
  bme : Bool := false
  deriving DecidableEq, Repr

/-! ### Tenants, partitions, keys (chs. 6, 7, 20) -/

/-- The steps of a reset sequence (Table 6-6). -/
inductive FlrPhase where
  /-- none running -/
  | idle
  /-- steps 1–5: draining -/
  | drain
  /-- steps 7–9: the fresh key, scrub and zeroing -/
  | scrub
  /-- steps 7–9 of one reset with steps 1–5 of the next (R227) -/
  | drainScrub
  deriving DecidableEq, Repr

/-- A tenant (Tables 6-1, 7-3, 7-7). -/
structure Ten where
  /-- TEN_n_STATUS STATE and PENDING, 3 bits; R202 (06_tenants.md); reset 0 -/
  obj : Obj := {}
  /-- TEN_n_BIND, 8 bits; R202 (06_tenants.md); reset 0 -/
  bind : BitVec 8 := 0
  /-- the binding sampled at enable (port, function), 8 bits; R208 (06_tenants.md); reset: none sampled -/
  bound : BitVec 8 := 0
  /-- STATUS.FLR_FORCED, 1 bit; R220 (06_tenants.md); reset 0 -/
  flrForced : Bool := false
  /-- the reset sequence in progress (STATUS.FLR_ACTIVE in drain and drainScrub); R219, R227 (06_tenants.md);
  reset idle -/
  flr : FlrPhase := .idle
  /-- tick at which the running sequence took effect; R219, R220 (06_tenants.md); reset 0 -/
  flrTick : DWord := 0
  /-- TEN_n_FLR_COUNT, 32 bits, wrapping; R202, R219 (06_tenants.md); reset 0 -/
  flrCount : Word := 0
  /-- TEN_n_FLR_TB, 64 bits; R202, R219 (06_tenants.md); reset 0 -/
  flrTb : DWord := 0
  /-- the configuration of PF0 or of a VF is to be reset at reset done (R817, 06_tenants.md); reset false -/
  flrCfg : Bool := false
  /-- TEN_n_DB, 64 bits; R245 (07_queues.md); reset 0 -/
  db : DWord := 0
  /-- TEN_n_DB as sampled at enable; R245 (07_queues.md); reset 0 -/
  dbS : DWord := 0
  /-- TEN_n_SCAN, 17 bits; R245 (07_queues.md); reset 2,500 -/
  scan : BitVec 17 := 2500
  /-- SCAN before its last write, in force at the tick of that write, and that tick + 1; R246 (07_queues.md); reset none -/
  scanWas : BitVec 17 := 2500
  scanTick : Nat := 0
  /-- TEN_n_DB_STATUS.FAULT, 1 bit; R265 (07_queues.md); reset 0 -/
  dbFault : Bool := false
  /-- failed scans from and including the one that raised DB_UNREADABLE, 32 bits; Table 7-6 (07_queues.md);
  reset 0 -/
  dbRun : Word := 0
  /-- TEN_n_DB_FAILS, 32 bits, saturating; R245 (07_queues.md); reset 0 -/
  dbFails : Word := 0
  /-- TEN_n_SCANS, 32 bits, wrapping; R245 (07_queues.md); reset 0 -/
  scans : Word := 0
  /-- TEN_n_NUDGES, 32 bits, wrapping; R245 (07_queues.md); reset 0 -/
  nudges : Word := 0
  /-- TEN_n_EVT, 64 bits; R245 (07_queues.md); reset 0 -/
  evt : DWord := 0
  /-- TEN_n_EVT as sampled at enable; R245 (07_queues.md); reset 0 -/
  evtS : DWord := 0
  /-- TEN_n_EVT_SIZE.LOG2, 5 bits; R245 (07_queues.md); reset 6 -/
  evtSize : BitVec 5 := 6
  /-- EVT_SIZE as sampled at enable; R245 (07_queues.md); reset 6 -/
  evtSizeS : BitVec 5 := 6
  /-- events written since the tenant's enable, which place the next one, 64 bits; R259 (07_queues.md); reset 0 -/
  evtK : DWord := 0
  /-- EVT_n_NEXT_SEQ, 32 bits; R264 (07_queues.md); reset live: 1, the SEQ of a first event (R259) -/
  nextSeq : Word := 1
  /-- EVT_n_WRITTEN, 32 bits, wrapping; R264 (07_queues.md); reset 0 -/
  evtWritten : Word := 0
  /-- EVT_n_LOST, 32 bits, saturating; R264 (07_queues.md); reset 0 -/
  evtLost : Word := 0
  /-- events held, at most 64, oldest first; R263 (07_queues.md); reset empty -/
  held : List Event := []
  /-- events dropped since the last EVT_LOST, 32 bits; R263 (07_queues.md); reset 0 -/
  heldLost : Word := 0
  /-- posted writes of its commands waiting for its function, oldest first: (the covered command's ring and sequence
  number, or none for a record; address; bytes); R205, R263 (07_queues.md); reset empty -/
  heldW : List (Option (Nat × DWord) × DWord × List Byte) := []
  /-- KEY_TENn_STATUS.LOADED, 1 bit; R217 (06_tenants.md); reset live: DESIGN CHOICE 0, none loaded (log 1) -/
  keyLoaded : Bool := false
  /-- KEY_TENn_STATUS.EPHEMERAL, 1 bit; R217 (06_tenants.md); reset live: 0 -/
  keyEph : Bool := false
  /-- KEY_TENn_STATUS.GEN, 8 bits, wrapping; R217 (06_tenants.md); reset live: 0 since power-on -/
  keyGen : BitVec 8 := 0
  /-- the name of the 512-bit key that the key service holds for the tenant (State.keyBank gives its value), 0 none;
  R216 (06_tenants.md); reset 0 -/
  keyId : Nat := 0
  deriving DecidableEq, Repr

/-- A partition's box in coordinates of the shape it was sampled in (R211). -/
structure Box where
  x0 : Nat
  y0 : Nat
  z0 : Nat
  ex : Nat
  ey : Nat
  ez : Nat
  deriving DecidableEq, Repr

/-- A doorbell scan of a partition (R246–R248). -/
structure Scan where
  /-- a scan is outstanding; R246 (07_queues.md); reset false -/
  out : Bool := false
  /-- the rings that were ON when it started and have stayed so: those it delivers a value to; R247, R270, R277
  (07_queues.md); reset none -/
  rings : List Nat := []
  /-- tick + 1 at which a due scan last started; R272 (07_queues.md); reset none -/
  due : Nat := 0
  /-- one further scan is queued; R248 (07_queues.md); reset false -/
  queued : Bool := false
  deriving DecidableEq, Repr

/-- How a partition is winding down. -/
inductive Wind where
  | none
  /-- the enable steps of R212 are running (STATE WINDING, PENDING set) -/
  | enabling
  /-- disabled without CUT -/
  | finish
  /-- cut: by a disable, a lost module, a shape change or whiteout -/
  | cut
  /-- cut by a reset sequence, which ends it at step 9 -/
  | reset
  deriving DecidableEq, Repr

/-- A partition (Table 6-2). -/
structure Part where
  /-- PART_p_STATUS STATE and PENDING, 3 bits; R203 (06_tenants.md); reset 0 -/
  obj : Obj := {}
  /-- what its wind-down is doing; R212, R219, R223 (06_tenants.md); reset none -/
  wind : Wind := .none
  /-- STATUS.SCRUB, 1 bit; R203 (06_tenants.md); reset 0 -/
  scrub : Bool := false
  /-- STATUS.LOST, 1 bit; R203, R229 (06_tenants.md); reset 0 -/
  lost : Bool := false
  /-- PART_p_BOX, 28 bits; R203 (06_tenants.md); reset preset or 0: preset 0 defines none -/
  boxReg : Word := 0
  /-- the box and owner sampled at the enable in force; R186, R212 (06_tenants.md); reset none -/
  box : Option Box := Option.none
  /-- the owner sampled at the enable in force, 4 bits; R212 (06_tenants.md); reset 0 -/
  owner : Nat := 0
  /-- the modules of the sampled box by module index m (MOD windows); R214 (06_tenants.md); reset empty -/
  mods : List Nat := []
  /-- PART_p_GATE_DROP, 32 bits, saturating; R215 (06_tenants.md); reset 0 -/
  gateDrop : Word := 0
  /-- doorbell scanning; R246–R248 (07_queues.md); reset none outstanding -/
  scan : Scan := {}
  deriving DecidableEq, Repr

/-! ### Rings and commands in progress (chs. 7, 8, 12) -/

/-- A fetched 64-byte command and its producer index (R240, R251). -/
structure Entry where
  idx : Word
  bytes : List Byte
  deriving DecidableEq, Repr

/-- Progress of one slab of an MX_ATTN (R438–R442). -/
structure AttnSlab where
  /-- per query tile, the next step it is to run; R441 (12_sequences.md) -/
  next : Tab Nat := []
  /-- tile-steps dispatched and not ended: tile ↦ logical core placed on; R441 (12_sequences.md) -/
  running : Tab Nat := []
  /-- chunks of a step's block recorded as present, coded step × 8192 + chunk; R440 (12_sequences.md) -/
  present : List Nat := []
  /-- chunks sent at a step, coded likewise; R439 (12_sequences.md) -/
  sent : List Nat := []
  /-- steps t whose buffer release to the predecessor has been sent; R439 (12_sequences.md) -/
  released : List Nat := []
  /-- buffers released by the successor: steps t at which this slab may send; R439 (12_sequences.md) -/
  granted : List Nat := []
  /-- stalls raised, coded step × 2 + role; R448 (12_sequences.md) -/
  stalls : List Nat := []
  /-- its module's count of ticks at 0.70 V or above as a chunk was last recorded here; R448, R450 (12_sequences.md) -/
  lastChunk : DWord := 0
  /-- its module's count of ticks at 0.70 V or above as a release was last received here; R448, R450 (12_sequences.md) -/
  lastGrant : DWord := 0
  deriving DecidableEq, Repr

/-- A dispatched command (R281): in progress until `done`, kept until the tally counts it. -/
structure Cmd where
  /-- sequence number, 64 bits; R240 (07_queues.md) -/
  seq : DWord
  /-- producer index, 32 bits; R240 (07_queues.md) -/
  idx : Word
  /-- the command's 64 bytes as fetched; R242 (07_queues.md) -/
  bytes : List Byte
  /-- tick its timeout counts from; R286, R308, R416 -/
  tick : DWord
  /-- for each module of its partition, that module's count of ticks at 0.70 V or above as the command was dispatched; R448,
  R450 (12_sequences.md) -/
  ups : List DWord := []
  /-- completion flags, 32 bits; R284 (08_commands.md) -/
  flags : Word := 0
  /-- INFO of the completion record, 32 bits; R283 (08_commands.md) -/
  info : Word := 0
  /-- it has completed and waits to be counted in ring order; R255 (07_queues.md) -/
  done : Bool := false
  /-- the in-place decision made at dispatch; R309 (08_commands.md) -/
  inPlace : Bool := false
  /-- the recipe as read at dispatch, 256 bytes; R128 (04_fused.md) -/
  recipe : List Byte := []
  /-- the modules by index m and the box at dispatch; R377 (10_topology.md) -/
  mods : List Nat := []
  box : Option Box := Option.none
  shape : Shape := .s446
  /-- placement at dispatch: canonical isle ↦ (ρ, cores in service then); R117, R295 -/
  place : List (Nat × Nat × List Nat) := []
  /-- spilled follower whose first tile may not start yet; R151 (04_fused.md) -/
  waitSpill : Bool := false
  /-- cores (canonical isle × 16 + core) whose table load has ended, with what each micro-op loaded; R146
  (04_fused.md) -/
  loaded : List (Nat × List (List Byte)) := []
  /-- logical tiles handed over, waiting in an accumulator for their epilogue: (tile, accumulator, flag bits); R150
  (04_fused.md) -/
  handed : List (Nat × Nat × Nat) := []
  /-- logical tiles (or members of a reduction) that have ended; R282 (08_commands.md) -/
  ended : List Nat := []
  /-- tiles placed again after a fence: tile ↦ logical core; R311 (08_commands.md) -/
  moved : Tab Nat := []
  /-- tiles of an in-place command that a fence left not run; R312 (08_commands.md) -/
  dropped : List Nat := []
  /-- what a SETTLE covers: (ring, last sequence number); R288 (08_commands.md) -/
  cover : List (Nat × DWord) := []
  /-- rotating attention's progress by slab; R438–R442 (12_sequences.md) -/
  attn : Tab AttnSlab := []
  /-- held chain: the commands of its chain before it, by sequence number; R152 (04_fused.md) -/
  chain : List DWord := []
  /-- the held command before it, as (its 64 bytes, its recipe); R152 (04_fused.md) -/
  heldSrc : Option (List Byte × List Byte) := Option.none
  /-- skipped as illegal: it writes no record; R181, R283 -/
  skipped : Bool := false
  /-- the held operand was forced to memory and is read from SPILL_ADDR; R154 (04_fused.md) -/
  spilled : Bool := false
  /-- the forecaster has asked for a forced spill at this command's end; R154, R624 (17_heat.md) -/
  spillDue : Bool := false
  /-- poisoned units reported for this command (R697, 19_faults.md) -/
  poisoned : List Nat := []
  /-- it completed before and is run again for its held chain; R153 (04_fused.md) -/
  rerun : Bool := false
  /-- an MV_COPY whose core was fenced waits for this channel; R305, R311 (08_commands.md) -/
  rechan : Option Nat := Option.none
  /-- an IX_FRAME whose frame has begun; R239, R308 -/
  begun : Bool := false
  /-- the last fence that refused it a replay, as DETAIL of CORE_FENCED; R694 (19_faults.md) -/
  fenceAt : Nat := 0
  deriving DecidableEq, Repr

/-- The context a ring samples at enable (Table 7-1). -/
structure RCtx where
  tenant : Nat := 0
  part : Nat := 0
  engine : Nat := 0
  slot : Nat := 0
  weight : Nat := 16
  log2 : Nat := 4
  base : DWord := 0
  taddr : DWord := 0
  tbase : DWord := 0
  start : Word := 0
  deriving DecidableEq, Repr

/-- A ring (Table 7-1). -/
structure Ring where
  /-- RING_r_STATUS STATE and PENDING, 3 bits; R236 (07_queues.md); reset 0 -/
  obj : Obj := {}
  /-- STATUS.FETCH_FAULT, 1 bit; R236, R266 (07_queues.md); reset 0 -/
  fetchFault : Bool := false
  /-- STATUS.LAST_CAUSE, 4 bits; R236 (07_queues.md); reset 0 -/
  lastCause : BitVec 4 := 0
  /-- STATUS.IGNORED, 24 bits, saturating; R236 (07_queues.md); reset 0 -/
  ignored : BitVec 24 := 0
  /-- RING_r_BIND, 32 bits; R236 (07_queues.md); reset 0 -/
  bind : Word := 0
  /-- RING_r_SIZE.LOG2, 5 bits; R236 (07_queues.md); reset 4 -/
  size : BitVec 5 := 4
  /-- RING_r_BASE, 64 bits; R236 (07_queues.md); reset 0 -/
  base : DWord := 0
  /-- RING_r_TADDR, 64 bits; R236 (07_queues.md); reset 0 -/
  taddr : DWord := 0
  /-- RING_r_TBASE, 64 bits; R236 (07_queues.md); reset 0 -/
  tbase : DWord := 0
  /-- RING_r_START, 32 bits; R236 (07_queues.md); reset 0 -/
  start : Word := 0
  /-- the sampled context; R238 (07_queues.md); reset: nothing sampled -/
  ctx : RCtx := {}
  /-- RING_r_CONS, 32 bits; R240 (07_queues.md); reset live: 0 -/
  cons : Word := 0
  /-- RING_r_PROD, 32 bits; R240 (07_queues.md); reset live: 0 -/
  prod : Word := 0
  /-- RING_r_LATE, 32 bits, saturating; R261 (07_queues.md); reset live: 0 -/
  late : Word := 0
  /-- RING_r_TALLY, 64 bits; R255 (07_queues.md); reset live: 0 -/
  tally : DWord := 0
  /-- the last tally value written or merged is older than RING_r_TALLY: a tally write is due; R256
  (07_queues.md); reset false -/
  tallyDue : Bool := false
  /-- a tally write is held because its function cannot take it; R263 (07_queues.md); reset false -/
  tallyHeld : Bool := false
  /-- commands fetched and not yet dispatched, at most 64, oldest first; R251 (07_queues.md); reset empty -/
  fetched : List Entry := []
  /-- a failed fetch waits for the next scan of its partition; R266 (07_queues.md); reset false -/
  fetchWait : Bool := false
  /-- entries asked for by fetch reads still outstanding; R251 (07_queues.md); reset 0 -/
  asked : Nat := 0
  /-- commands dispatched and not yet counted, in ring order; R255 (07_queues.md); reset empty -/
  cmds : List Cmd := []
  /-- sequence number of the last command dispatched or skipped, 64 bits; R240 (07_queues.md); reset 0 -/
  disp : DWord := 0
  /-- tick at which the present head became head for dispatch, if it has; R280, R286; reset none -/
  headTick : Option DWord := Option.none
  /-- the judgement made of the head at that moment, once: it is legal; R280 (08_commands.md); reset true -/
  headOk : Bool := true
  /-- the head's recipe as read then, 256 bytes; R128 (04_fused.md), R280; reset none -/
  headRc : List Byte := []
  /-- sequence numbers of the commands since the enable whose writes raised late faults, one per fault;
  R290 (08_commands.md); reset empty -/
  faults : List DWord := []
  /-- the last MX command dispatched, while no other command has followed it; for chaining; R151, R152 (04_fused.md);
  reset none -/
  prev : Option Cmd := Option.none
  /-- the members of its held chain before it, as dispatched; R153 (04_fused.md); reset empty -/
  prevChain : List Cmd := []
  /-- an illegal command in a chain has ended it: the next command runs without a held operand; R152 (04_fused.md); reset
  false -/
  chainCut : Bool := false
  /-- a held chain whose last command's forced spill has not all landed: its members, as dispatched; R158 (04_fused.md);
  reset empty -/
  spillChain : List Cmd := []
  deriving DecidableEq, Repr

/-! ### Modules, isles, cores, columns, channels (chs. 3, 9, 19) -/

/-- The registers of a move channel (Table 9-2). -/
structure ChRegs where
  src : DWord := 0
  dst : DWord := 0
  count : Word := 0
  cnt01 : Word := 0
  cnt2 : Word := 0
  space : Word := 0
  ss0 : Word := 0
  ds0 : Word := 0
  ss1 : Word := 0
  ds1 : Word := 0
  ss2 : Word := 0
  ds2 : Word := 0
  deriving DecidableEq, Repr

/-- A move channel (R326); key core position × 4 + channel. -/
structure Chan where
  /-- MV_CHn_STATUS STATE and PENDING, 3 bits; R329 (09_move.md); reset 0 -/
  obj : Obj := {}
  /-- MV_CHn_SRC … DS2; R329 (09_move.md); reset 0 -/
  regs : ChRegs := {}
  /-- staging latches of SRC_LO and DST_LO, where loaded, 32 bits each; R350 (09_move.md); reset: committed LO -/
  latSrc : Option Word := Option.none
  latDst : Option Word := Option.none
  /-- the registers sampled at GO; R330 (09_move.md); reset 0 -/
  run : ChRegs := {}
  /-- STATUS.FENCE_END, 1 bit; R329, R351 (09_move.md); reset 0 -/
  fenceEnd : Bool := false
  /-- STATUS.LATE, 8 bits, saturating; R329, R343 (09_move.md); reset 0 -/
  late : BitVec 8 := 0
  /-- STATUS.SRCF, 8 bits, saturating; R329, R343 (09_move.md); reset 0 -/
  srcf : BitVec 8 := 0
  /-- the MV_COPY it runs: (ring, sequence number); none in diagnostic mode; R327 (09_move.md); reset none -/
  owner : Option (Nat × DWord) := Option.none
  /-- read requests that left the die and have been answered, number ↦ bytes (none: failed); R333, R349 (09_move.md); reset
  empty -/
  got : List (Nat × Option (List Byte)) := []
  /-- read requests that leave the die issued so far; R338 (09_move.md); reset 0 -/
  asked : Nat := 0
  /-- the name of the first packet after its start; the model's own field, by which a late answer to an abandoned read is known
  (R340); reset 0 -/
  gen : Nat := 0
  deriving DecidableEq, Repr

/-- A counter of a module (R413); key module × 288 + counter ID, attention counters from 256. -/
structure Ctr where
  /-- COUNT, 0 to 65,536; R413 (11_routing.md); reset 0 -/
  count : Nat := 0
  /-- sequence numbers counted in the current arming, 24 bits each; R413; reset empty -/
  cur : List Nat := []
  /-- sequence numbers counted in the previous arming; R413; reset empty -/
  prev : List Nat := []
  deriving DecidableEq, Repr

/-- An isle; key (module × 4 + die) × 4 + isle. -/
structure Isle where
  /-- logical cores in service, rising; R117 (03_core.md), R553; reset: all 16, DESIGN CHOICE healthy (log 1) -/
  cores : List Nat := List.range 16
  /-- built position of each logical core where it differs from the identity; R553 (15_bringup.md); reset identity -/
  pos : Tab Nat := []
  /-- built position serving each column slot where it differs; R105 (03_core.md); reset identity -/
  colPos : Tab Nat := []
  /-- the isle's hidden spare has been used; R105 (03_core.md); reset false -/
  spareUsed : Bool := false
  /-- a column copy to the spare is running for this logical slot; R105, R698; reset none -/
  copying : Option Nat := Option.none
  /-- rotation offset ρ, 4 bits; R117 (03_core.md), R619; reset live: 0 -/
  rho : Nat := 0
  /-- tiles or tile-steps were dispatched to it since its last rotation point; R619 (17_heat.md); reset false -/
  dealt : Bool := false
  /-- it was pinned at the last update, for the release of R620 (17_heat.md); reset false -/
  wasPinned : Bool := false
  /-- spare rows used in the isle's columns: MOD_CENSUS REPAIRED, 8 bits; R696 (19_faults.md); reset live: 0 -/
  repaired : Nat := 0
  /-- what REPAIRED counted at the end of its stage 6, for the module's amber light; R674 (18_stewards.md); reset live: 0 -/
  repaired6 : Nat := 0
  deriving DecidableEq, Repr

/-- A core at a built position; key isle × 17 + position. -/
structure Core where
  /-- scratch, 4 MiB, bytes not zero; R96 (03_core.md); reset zero (R99, R552) -/
  scratch : List Host.Cell := []
  /-- the two accumulators, 128 × 128 fp32 words each, words not zero, key accumulator × 16384 + row × 128 +
  column; R92 (03_core.md); reset zero (R99) -/
  acc : Tab Word := []
  /-- tiles each command has ended on this core, for the h of R145: (ring, seq) ↦ count; R145 (04_fused.md);
  reset none -/
  ran : List (Nat × DWord × Nat) := []
  /-- uncorrectable scratch words, by word index; R98, R126 (03_core.md); reset none -/
  badWords : List Nat := []
  /-- SCRATCH_CE, 16 bits, saturating; R797 (22_register_map.md); reset live: 0 -/
  scratchCe : BitVec 16 := 0
  /-- COL_CE, 16 bits, saturating; R797 (22_register_map.md); reset live: 0 -/
  colCe : BitVec 16 := 0
  deriving DecidableEq, Repr

/-- A module's binding and diagnostic state; key MOD window w. -/
structure Mod where
  /-- MOD_STATE.STATE, 2 bits: 0 absent, 1 in service, 2 out of service; Table 15-6 (15_bringup.md); reset live: in
  service (log 1) -/
  state : BitVec 2 := 1
  /-- MOD_STATE.STAGE, 4 bits; Table 15-6 (15_bringup.md); reset live: 0 -/
  stage : BitVec 4 := 0
  /-- MOD_STATE.CAUSE, 4 bits; Table 19-3 (19_faults.md); reset live: 0 -/
  cause : BitVec 4 := 0
  /-- MOD_KEYSLOTS.TENANT, 16 bits; R796 (22_register_map.md); reset live: 0 -/
  keyTen : BitVec 16 := 0
  /-- MOD_KEYSLOTS.DIAG, 1 bit; R796; reset live: 0 -/
  keyDiag : Bool := false
  /-- the names of the keys in its tenant slots, by tenant; R216, R722 (20_security.md); reset: slots empty -/
  slotKeys : Tab Nat := []
  /-- faults detected at its cores and not yet fenced: (built core position in the module, cause of Table 19-2); R690, R713
  (19_faults.md); reset none -/
  fenceDue : List (Nat × Nat) := []
  /-- the name of the diagnostic key in its slot; R341 (09_move.md); reset 0, none -/
  diagKey : Nat := 0
  /-- the name of the key under which its columns were last written to zero, 0 where zeros stand in the arrays themselves;
  R216, R223 (06_tenants.md), R342 (09_move.md); reset 0 (log 96) -/
  colKey : Nat := 0
  /-- MOD_KEYSLOTS.TRANSPORT, 1 bit; R796; reset live: 1, agreed at stage 9 (R722) -/
  keyTransport : Bool := true
  /-- a slot write to this module is unacknowledged since its first failure at this tick; R722 (20_security.md);
  reset none -/
  keyRetry : Option DWord := Option.none
  /-- binding of its gates and command processors: (tenant, partition); R212 (06_tenants.md); reset none -/
  bind : Option (Nat × Nat) := Option.none
  /-- its gates are closed to writes; R219 step 4, R223 (06_tenants.md); reset false -/
  gateClosed : Bool := false
  /-- MV_DIAG.EN, 1 bit; R329 (09_move.md); reset 0 -/
  diagEn : Bool := false
  /-- MV_DIAG.ACTIVE, 1 bit; R341 (09_move.md); reset 0 -/
  diagActive : Bool := false
  /-- MV_SEL, 8 bits; R329 (09_move.md); reset 0 -/
  mvSel : BitVec 8 := 0
  /-- MOD_ERR_SEL, 4 bits; R797 (22_register_map.md); reset 0 -/
  errSel : BitVec 4 := 0
  /-- a retest is running; R700 (19_faults.md); reset false -/
  retest : Bool := false
  deriving DecidableEq, Repr

/-! ### The fabric (chs. 10, 11) -/

/-- Table 11-2. -/
inductive PKind where
  | write | readReq | readResp | land | nack | late | ctrl
  /-- the reserved kinds 0x7 to 0xF, which a router drops (R391) -/
  | reserved
  deriving DecidableEq, Repr

/-- A place in the fabric: a module (MOD window w) or an attached tray. -/
inductive Node where
  | mod (w : Nat)
  | tray (t : Nat)
  deriving DecidableEq, Repr

/-- Coordinates of a packet's end in the shape its SHAPE field names; z = 7 is an attached tray (R390). -/
structure Coord where
  x : Nat
  y : Nat
  z : Nat
  deriving DecidableEq, Repr

/-- A fabric packet (Table 11-1): the header's fields, its payload, and the router that has received it. -/
structure Packet where
  /-- the model's own name for this packet in flight -/
  pid : Nat
  dst : Coord
  ddie : Nat := 0
  disle : Nat := 0
  dcore : Nat := 0
  /-- DTGT, 2 bits -/
  dtgt : Nat := 0
  shape : Shape
  src : Coord
  sdie : Nat := 0
  sisle : Nat := 0
  /-- logical core of the origin, SRC [17:14] (R390) -/
  score : Nat := 0
  calm : Bool
  /-- VC, 3 bits (R394) -/
  vc : Nat := 0
  kind : PKind
  tenant : Nat := 0
  diag : Bool := false
  detour : Bool := false
  poison : Bool := false
  reinj : Bool := false
  part : Nat := 0
  /-- SEQ, 24 bits -/
  seq : Nat := 0
  counter : Nat := 0
  pidx : Nat := 0
  pcnt : Nat := 0
  addr : DWord := 0
  oring : Nat := 0
  /-- the originating command's sequence number; the header carries its bits [31:0] (OSEQ) -/
  oseq : DWord := 0
  dphase : Nat := 0
  daxis : Nat := 0
  doff : Int := 0
  faxis : Nat := 0
  tag : Nat := 0
  payload : List Byte := []
  /-- the router or tray that has received the packet -/
  loc : Node
  /-- the axis it is travelling on and its direction there (R396): axis, positive -/
  dir : Option (Nat × Bool) := Option.none
  /-- an attention chunk it belongs to, coded step × 8192 + chunk; the model's own field (the header carries SEQ) -/
  note : Nat := 0
  /-- splice of the attached tray it is in (Table 10-6); the model's own field -/
  spl : Nat := 0
  /-- hops left in the present phase of a sidestep; the model's own field (DOFF in the header keeps the offset) -/
  dleft : Nat := 0
  /-- the link it last crossed, by its sending port; the model's own field -/
  via : Option Nat := Option.none
  /-- calm retries of the hop it is on (R403) -/
  tries : Nat := 0
  /-- LEN of a READ_REQ, and of the read its answer belongs to: the bytes asked for, 12 bits (R390) -/
  rlen : Nat := 0
  /-- ECRC, 32 bits, formed by the origin (R390, R392) -/
  ecrc : Word := 0
  deriving DecidableEq, Repr

/-- A packet an origin keeps until it is acknowledged (R402). -/
structure Kept where
  pkt : Packet
  /-- tick of the injection in force, for the acknowledgement timeout (R404) -/
  tick : DWord
  /-- it has been re-injected once (R404) -/
  again : Bool := false
  deriving DecidableEq, Repr

/-- One entry of a destination's duplicate record (R406). -/
structure DupRec where
  node : Node
  src : Coord
  sdie : Nat
  sisle : Nat
  tag : Nat
  tick : DWord
  deriving DecidableEq, Repr

/-- A contribution some of whose packets have landed (R414). -/
structure Contrib where
  w : Nat
  src : Coord
  sdie : Nat
  sisle : Nat
  counter : Nat
  seq : Nat
  pcnt : Nat
  got : List Nat
  deriving DecidableEq, Repr

/-- FAB_LINK_l (Table 11-6); key link index l. -/
structure Link where
  /-- failed by R407: in the failed-link map once `inMap`; R407 (11_routing.md); reset false -/
  failed : Bool := false
  /-- fenced by order; R408 (11_routing.md); reset false -/
  fenced : Bool := false
  /-- the failed-link map held in every router shows it; R407 (11_routing.md); reset false -/
  inMap : Bool := false
  /-- retraining after UNFENCE; R408 (11_routing.md); reset false -/
  training : Bool := false
  /-- why it failed, 3 bits: the reason of LINK_FAILED; Table 19-4 (19_faults.md); reset 0 -/
  reason : Nat := 0
  /-- GIVEUPS, 8 bits, saturating; R408; reset live: 0 -/
  giveups : BitVec 8 := 0
  /-- RETRIES, 16 bits, saturating; R408; reset live: 0 -/
  retries : BitVec 16 := 0
  /-- ticks of the recent calm retries, for the 64 in 100,000 ticks of R407 (11_routing.md); reset empty -/
  recent : List DWord := []
  deriving DecidableEq, Repr

/-- The FAB block, the packets and the counters. -/
structure Fab where
  /-- packets received by a router and not yet routed onward or delivered; R395 (11_routing.md); reset none -/
  pkts : List Packet := []
  /-- unacknowledged packets at their origins; R402 (11_routing.md); reset none -/
  kept : List Kept := []
  /-- the next packet name; the model's own field; reset 0 -/
  nextPid : Nat := 0
  /-- TAGID to come, 32 bits, wrapping, one series for the machine; Table 11-1 (11_routing.md); reset 0 -/
  nextTag : Nat := 0
  /-- duplicate records; R406 (11_routing.md); reset none -/
  dups : List DupRec := []
  /-- contributions in part landed; R414 (11_routing.md); reset none -/
  contribs : List Contrib := []
  /-- counters; R413 (11_routing.md); reset cleared -/
  ctrs : Tab Ctr := []
  /-- links; R408 (11_routing.md); reset live: all up, DESIGN CHOICE healthy (log 1) -/
  links : Tab Link := []
  /-- FAB_RETRIES, 32 bits, saturating; R408; reset 0 -/
  retries : Word := 0
  /-- FAB_REINJ, 32 bits, saturating; R408; reset 0 -/
  reinj : Word := 0
  /-- FAB_GIVEUPS, 32 bits, saturating; R408; reset 0 -/
  giveups : Word := 0
  /-- FAB_DUPS, 32 bits, saturating; R408; reset 0 -/
  dupCount : Word := 0
  /-- FAB_STRAY, 32 bits, saturating; R408; reset 0 -/
  stray : Word := 0
  /-- FAB_MAP_GEN, 32 bits, wrapping; R408; reset live: 0 -/
  mapGen : Word := 0
  deriving DecidableEq, Repr

/-- Phases of a shape change (R373). -/
inductive ShPhase where
  | idle | prep | hold
  deriving DecidableEq, Repr

/-- The shape in force, the change in progress and the Sound (Table 10-8). -/
structure ShapeSt where
  /-- FAB_SHAPE.SHAPE, 2 bits; R378 (10_topology.md); reset live: 4 × 4 × 6 by FABMODE 0 (R365) -/
  shape : Shape := .s446
  /-- FAB_SHAPE.BUSY and the phase; R373 (10_topology.md); reset idle -/
  phase : ShPhase := .idle
  /-- FAB_SHAPE.TARGET, 2 bits; R378; reset live: 0 -/
  target : Shape := .s446
  /-- the cause code of the change in progress; Table 10-8 (10_topology.md); reset 0 -/
  cause : Nat := 0
  /-- a Sound fault arose in a 3D to 3D hold, so it ends in 16 × 6; R376, R380 (10_topology.md); reset none -/
  divert : Option Nat := Option.none
  /-- FAB_SHAPE_LAST: FROM, TO, CAUSE, KEPT, LOST; R378; reset 0 -/
  lastFrom : BitVec 2 := 0
  lastTo : BitVec 2 := 0
  lastCause : BitVec 4 := 0
  lastKept : BitVec 7 := 0
  lastLost : BitVec 7 := 0
  /-- FAB_SHAPE_COUNT, 32 bits, wrapping; R378; reset 0 -/
  count : Word := 0
  /-- FAB_SHAPE_TB, 64 bits; R378; reset 0 -/
  relTb : DWord := 0
  /-- FAB_SEAM_FAIL, 32 bits, saturating; R383 (10_topology.md); reset 0 -/
  seamFail : Word := 0
  /-- SOUND_STATUS.STATE, 2 bits; R378; reset live: 1 in service (log 1) -/
  sound : BitVec 2 := 1
  /-- SOUND_STATUS.SET, 2 bits; R378; reset live: 0 -/
  set : BitVec 2 := 0
  /-- SOUND_STATUS.TRAINED, 1 bit; R378; reset live: 1 -/
  trained : Bool := true
  /-- z rings with a failed circuit: RINGS_FAILED counts them; a ring is its physical column 4y + x, plus 16 for the ring of
  odd planes in 4 × 8 × 3 and 8 × 4 × 3; R363, R367, R378; reset none -/
  ringsFailed : List Nat := []
  /-- Sound ports at the ends of the failed circuits; R367 (10_topology.md); reset none -/
  dark : List Nat := []
  /-- SOUND_SERVICE.ENTER waits for the change to 16 × 6; R379 (10_topology.md); reset false -/
  enterDue : Bool := false
  /-- the Sound's self-test is running; R379 (10_topology.md); reset false -/
  selfTest : Bool := false
  /-- the Sound is setting circuits; R367 (10_topology.md); reset false -/
  setting : Bool := false
  /-- physical columns 4y + x whose wrap circuits are being changed for a splice; R368, R372 (10_topology.md); reset none -/
  setCols : List Nat := []
  /-- SOUND_EXT_e, X, Y and EN, 5 bits each; R368 (10_topology.md); reset stored, 0 as delivered -/
  ext : Tab (BitVec 5) := []
  /-- external splices now in their ring (ACTIVE); R368 (10_topology.md); reset none -/
  extActive : List Nat := []
  deriving DecidableEq, Repr

/-! ### Trays (chs. 15, 16, 19) -/

/-- The service states of a tray (R701). -/
inductive TraySvc where
  | inService | preparing | ready | absent | joining | failed
  deriving DecidableEq, Repr

/-- A tray position; key 0–17. -/
structure Tray where
  /-- FAULT_TRAY_n_STATE.STATE, 3 bits; R701 (19_faults.md); reset live: IN_SERVICE (log 1) -/
  svc : TraySvc := .inService
  /-- PWR_TRAY_n_STATUS.CONTACTOR, 1 bit; R571 (16_power.md); reset live: closed (log 1) -/
  contactor : Bool := true
  /-- the CTLHOST straps, 4 bits; reported where the tray's type is portal; R188, Table 5-4 (05_setup_window.md); reset strap:
  DESIGN CHOICE 0 (log 1) -/
  ctlHost : Nat := 0
  /-- the FABMODE strap, 1 bit; reported by a steward bay; Table 5-4 (05_setup_window.md); reset strap: DESIGN CHOICE 0 (log 1) -/
  fabMode : Bool := false
  /-- the PRESET straps, 3 bits; reported by a steward bay; Table 5-4 (05_setup_window.md); reset strap: DESIGN CHOICE 0 (log 1) -/
  preset : BitVec 3 := 0
  /-- the PIPEMODE strap, 1 bit; reported by an intake tray; Table 5-4 (05_setup_window.md); reset strap: DESIGN CHOICE 0 (log 1) -/
  pipeMode : Bool := false
  /-- TRANSPORT of the steward bay, 1 bit; Table 5-4 (05_setup_window.md), R200; reset strap: DESIGN CHOICE 0 (log 1) -/
  transport : Bool := false
  /-- the tray's warden has read its strap block (MACH_STRAP_n.PRESENT); R188 (05_setup_window.md); reset live: true
  (log 1) -/
  strapsRead : Bool := true
  /-- the TYPE of its straps where that is not the type its position calls for (R52), 3 bits; R188
  (05_setup_window.md); reset live: none (log 1) -/
  badType : Option (BitVec 3) := none
  /-- PWR_TRAY_n_PEAK, 14 bits; R586, Table 16-5 (16_power.md); reset 0 -/
  peak : Nat := 0
  /-- PWR_TRAY_n_AVG1, 14 bits; R586 (16_power.md); reset live: DESIGN CHOICE 0 (log 1) -/
  avg1 : Nat := 0
  /-- PWR_TRAY_n_AVG60, 14 bits; R586 (16_power.md); reset live: DESIGN CHOICE 0 (log 1) -/
  avg60 : Nat := 0
  /-- PWR_TRAY_n_AVG900, 14 bits; R586 (16_power.md); reset live: DESIGN CHOICE 0 (log 1) -/
  avg900 : Nat := 0
  deriving DecidableEq, Repr

/-- The tray's type does not match its position (R52). -/
def Tray.mismatch (y : Tray) : Bool := y.badType.isSome

/-- The counters of the FAULT block (Table 19-5). -/
structure Flt where
  /-- FAULT_FENCES.FENCED, 16 bits; R794, Table 19-5 (19_faults.md); reset 0 -/
  fenced : BitVec 16 := 0
  /-- FAULT_FENCES.SPARES, 16 bits; Table 19-5; reset 0 -/
  spares : BitVec 16 := 0
  /-- FAULT_LAST_FENCE, 24 bits; Table 19-5; reset 0 -/
  lastFence : Word := 0
  /-- FAULT_COL_CE, 32 bits, saturating; R695, Table 19-5; reset 0 -/
  colCe : Word := 0
  /-- FAULT_COL_UE, 32 bits, saturating; R695, Table 19-5; reset 0 -/
  colUe : Word := 0
  /-- FAULT_ROW_REPAIRS, 32 bits, saturating; R696, Table 19-5; reset 0 -/
  rowRepairs : Word := 0
  /-- FAULT_POISON_READS, 32 bits, saturating; R697, Table 19-5; reset 0 -/
  poisonReads : Word := 0
  /-- FAULT_LATE_DROPPED, 32 bits, saturating; R348, Table 19-5; reset 0 -/
  lateDropped : Word := 0
  deriving DecidableEq, Repr

/-! ### Bring-up (ch. 15) -/

/-- A stage report (R548). -/
structure BootRep where
  /-- RESULT, 2 bits; R547, R549 (15_bringup.md); reset live: PASS (log 1) -/
  result : BitVec 2 := 1
  /-- CAUSE, 4 bits; R549; reset live: 0 -/
  cause : BitVec 4 := 0
  /-- ITEMS, 8 bits, saturating; R549; reset live: 0 -/
  items : BitVec 8 := 0
  /-- TRAY, 5 bits; R549; reset live: 0 -/
  tray : Nat := 0
  /-- SLOT, 3 bits; R549; reset live: 0 -/
  slot : Nat := 0
  /-- DIE, 2 bits; R549; reset live: 0 -/
  die : Nat := 0
  /-- BOOT_REPORT_n_ARG, 32 bits; R549, Table 15-4 (15_bringup.md); reset live: 0 -/
  arg : Word := 0
  /-- BOOT_REPORT_n_TB, 64 bits; R549; reset live: DESIGN CHOICE 0 (log 2) -/
  tb : DWord := 0
  deriving DecidableEq, Repr

/-- The BOOT block and the stage sequence. -/
structure Boot where
  /-- the busbar is up and bring-up has begun; R545 (15_bringup.md); reset true -/
  powered : Bool := true
  /-- BOOT_STAGE.STAGE, 4 bits; R549 (15_bringup.md); reset live: 11 -/
  stage : Nat := 11
  /-- BOOT_STAGE.STATE, 2 bits: 0 running, 1 complete, 2 stopped; R549; reset live: 1 -/
  st : BitVec 2 := 1
  /-- BOOT_STAGE.DEGRADED, 1 bit; R549; reset live: 0 -/
  degraded : Bool := false
  /-- BOOT_STAGE.HELD, 1 bit; R549, R555; reset live: 0 -/
  held : Bool := false
  /-- BOOT_ITEM_i, at most 64, in order of detection; R548; reset live: none -/
  items : List BootItem := []
  /-- BOOT_ITEM_COUNT, 16 bits, saturating; R549; reset live: 0 -/
  count : BitVec 16 := 0
  /-- BOOT_REPORT_n; R549; reset live: every stage PASS (log 1) -/
  reports : Tab BootRep := []
  /-- tick at which the stage in progress began; R546, R554; reset 0 -/
  began : DWord := 0
  /-- the machine's count of ticks at 0.70 V or above as it began, for its bound; R546; reset 0 -/
  beganUp : DWord := 0
  /-- that count + 1 since which stage 4 waits for a cold die, none while it waits for none; R546, R554; reset none -/
  waitFrom : Nat := 0
  /-- what stage 4 waited before, in the same count, and the fail-overs during the stage; R546, R554, R564; reset 0 -/
  waitSum : Nat := 0
  /-- stages whose degraded code the display shows: d0–dB; R550; reset none -/
  codes : List Nat := []
  /-- a stop's code is shown: F0–FB; R550; reset none -/
  failCode : Option Nat := Option.none
  /-- built cores that failed their test since the last stage 5 or module test: (isle key, position); R553; reset
  none -/
  badCores : List (Nat × Nat) := []
  /-- built columns that failed likewise: (isle key, position); R553; reset none -/
  badCols : List (Nat × Nat) := []
  /-- transit calibration, MOD_CAL_d, 32 bits, key w × 4 + die: AT070 and ATCEIL; R551, Table 15-6 (15_bringup.md);
  reset live: DESIGN CHOICE 0 (log 1) -/
  cal : Tab Word := []
  /-- failed items of the stage in progress found before its end (calibration, cold dies); R551, R554; reset none -/
  found : List BootItem := []
  /-- trays removed while the stage in progress ran; R565 (15_bringup.md); reset none -/
  gone : List Nat := []
  /-- the bring-up in progress is a restart's: no register access of a host takes effect; R660 (18_stewards.md), R802
  (22_register_map.md); reset false -/
  again : Bool := false
  deriving DecidableEq, Repr

/-- The fuses: identity and modules (R556). -/
structure Fuses where
  /-- MACH_IDENT.VARIANT, 2 bits; R556 (15_bringup.md); reset fuse: DESIGN CHOICE 0, an A96-X (log 1) -/
  variant : BitVec 2 := 0
  /-- the steward bay's three copies agree in no two; R557 (15_bringup.md); reset fuse: false (log 1) -/
  split : Bool := false
  /-- MACH_SERIAL, 64 bits; R787 (22_register_map.md); reset fuse: DESIGN CHOICE 0 (log 1) -/
  serial : DWord := 0
  /-- MOD_FUSE of module w, CAP [10:0], CEIL [27:16], SPLIT [31]; Table 15-6 (15_bringup.md); reset fuse: DESIGN
  CHOICE 1,200 W and 920 mV, an A96-X's (log 1) -/
  mods : Tab Word := []
  /-- MOD_SERIAL of module w, 64 bits; R795 (22_register_map.md); reset fuse: DESIGN CHOICE 0 (log 1) -/
  serials : Tab DWord := []
  /-- MOD_RECORD_k of module w, 32 bits, key w × 64 + k; Table 22-10 (22_register_map.md); reset fuse: VERSION 1 in
  word 0, DESIGN CHOICE 0 elsewhere (log 1) -/
  records : Tab (Option Word) := []
  deriving DecidableEq, Repr

/-! ### Power (ch. 16) -/

/-- The power of module w (Table 16-5). -/
structure PwrMod where
  /-- PWR_MOD_w_STATUS STATE and PENDING, 3 bits; R575 (16_power.md); reset live: ON (log 1) -/
  obj : Obj := { st := .on }
  /-- a sequence up is in progress (STATE reads ON from its end); R572 (16_power.md); reset false -/
  rising : Bool := false
  /-- rails are up and stages 4–6 are running for the module alone; R575, R700 (16_power.md, 19_faults.md); reset
  false -/
  testing : Bool := false
  /-- tick + 1 at which those stages began, for the wait of a cold die; R554 (15_bringup.md); reset none -/
  testFrom : Nat := 0
  /-- PWR_MOD_w_ORDER.HOST, 2 bits; R582 (16_power.md); reset 0 -/
  host : BitVec 2 := 0
  /-- STATUS.RM, 2 bits; R582; reset live: 0 -/
  rm : BitVec 2 := 0
  /-- STATUS.AUTO, 1 bit; R581; reset live: 0 -/
  auto : Bool := false
  /-- STATUS.SAFETY, 1 bit; R583; reset live: 0 -/
  safety : Bool := false
  /-- PWR_MOD_w_CAP_HOST, 11 bits; R579; reset stored, 0 as delivered -/
  capHost : BitVec 11 := 0
  /-- PWR_MOD_w_CAP_RM, 11 bits; R579; reset stored, 0 as delivered -/
  capRm : BitVec 11 := 0
  /-- the latched effective cap and its code while the tray's warden is not running; R593, R594 (16_power.md); reset
  none -/
  capLatch : Option (Nat × Nat) := Option.none
  /-- VCORE.SET, 10 bits, mV; R576; reset live: DESIGN CHOICE 920, the ceiling of an A96-X (log 1) -/
  vset : Nat := 920
  /-- tick of the last setpoint step + 1; R576; reset none -/
  vtick : Nat := 0
  /-- tick + 1 since which the powered module's core supply is below 0.70 V; R62 (02_transits.md); reset none -/
  lowFrom : Nat := 0
  /-- ticks it spent below 0.70 V before that; R62; reset 0 -/
  lowSum : Nat := 0
  /-- VCORE.CTRL, 10 bits, mV; R577; reset live: DESIGN CHOICE 920 (log 1) -/
  ctrl : Nat := 920
  /-- VCORE.GUARD, 1 bit; R594; reset live: 0 -/
  guard : Bool := false
  /-- windows in a row below 0.95 × cap, at most 10; R577; reset 0 -/
  low : Nat := 0
  /-- PWR_MOD_w_PEAK, 12 bits, RC; R586; reset 0 -/
  peak : Nat := 0
  /-- PWR_MOD_w_AVG1, AVG60, AVG900, 12 bits each; R586; reset live: DESIGN CHOICE 0 (log 1) -/
  avg1 : Nat := 0
  avg60 : Nat := 0
  avg900 : Nat := 0
  /-- sums and counts of window values in the spans in progress; R586; reset 0 -/
  sum1 : Nat := 0
  n1 : Nat := 0
  sum60 : Nat := 0
  n60 : Nat := 0
  sum900 : Nat := 0
  n900 : Nat := 0
  deriving DecidableEq, Repr

/-- A power shelf (PWR_SHELF_s). -/
structure Shelf where
  /-- GOOD, 3 bits; R595 (16_power.md); reset live: 6 (log 1) -/
  good : BitVec 3 := 6
  /-- PRESENT, 1 bit; R595; reset live: 1 (log 1) -/
  present : Bool := true
  /-- ENABLED, 1 bit; R569, R595; reset live: 1 (log 1) -/
  enabled : Bool := true
  /-- OUT, 16 bits, units of 10 W; R595; reset live: DESIGN CHOICE 0 (log 1) -/
  out : BitVec 16 := 0
  deriving DecidableEq, Repr

/-- The PWR block's machine-wide state. -/
structure Pwr where
  /-- PWR_BUS.MV, 16 bits; R588 (16_power.md); reset live: DESIGN CHOICE 54,000 (log 1) -/
  mv : BitVec 16 := 54000
  /-- PWR_BUS.SAG, 2 bits; R588; reset live: 0 (log 1) -/
  sag : Nat := 0
  /-- tick + 1 since which some powered module's core supply is below 0.70 V; R232 (06_tenants.md), R546
  (15_bringup.md); reset none -/
  lowFrom : Nat := 0
  /-- ticks some powered module's core supply spent below 0.70 V before that; R232, R546; reset 0 -/
  lowSum : Nat := 0
  /-- tick + 1 since which the busbar has been below 41.0 V; R588; reset none -/
  below : Nat := 0
  /-- PWR_SAG_COUNT.DEFER, 16 bits, wrapping; R595; reset 0 -/
  deferCnt : BitVec 16 := 0
  /-- PWR_SAG_COUNT.CRAWL, 16 bits, wrapping; R595; reset 0 -/
  crawlCnt : BitVec 16 := 0
  /-- configuration items whose commit waits, by register offset, with the latest value; R589; reset none -/
  items : Tab (Option Word) := []
  /-- image program and erase operations that wait; R589 (16_power.md), R759 (21_update.md); reset 0 -/
  image : Nat := 0
  /-- PWR_DEFERRED.DROPPED, 16 bits, saturating; R589, R595; reset 0 -/
  dropped : BitVec 16 := 0
  /-- log records dropped since deferral began, for the gap marker; R589; reset 0 -/
  gap : Nat := 0
  /-- shelves 0–3; R595 -/
  shelves : Tab Shelf := []
  /-- PWR_RACK_CAP_HOST, 18 bits; R579; reset stored, 0 as delivered -/
  rackHost : BitVec 18 := 0
  /-- PWR_RACK_CAP_RM, 18 bits; R579; reset stored, 0 as delivered -/
  rackRm : BitVec 18 := 0
  /-- PWR_RACK_CAP_AUTO, 18 bits; R570; reset live: 0 -/
  auto : Nat := 0
  /-- PWR_RACK_PEAK, 18 bits, RC; R587; reset 0 -/
  peak : Nat := 0
  /-- PWR_RACK_AVG1, AVG60, AVG900, 18 bits each; R587; reset live: DESIGN CHOICE 0 (log 1) -/
  avg1 : Nat := 0
  avg60 : Nat := 0
  avg900 : Nat := 0
  /-- PWR_PART_p_CAP_HOST, 18 bits; R579; reset stored, 0 as delivered -/
  partHost : Tab (BitVec 18) := []
  /-- PWR_PART_p_CAP_RM, 18 bits; R579; reset stored, 0 as delivered -/
  partRm : Tab (BitVec 18) := []
  /-- modules, key MOD window -/
  mods : Tab PwrMod := []
  /-- charge of the hold-up battery, percent; R592 (16_power.md), R736 (20_security.md); reset live: 100 (log 1) -/
  battery : Nat := 100
  deriving DecidableEq, Repr

/-! ### Cooling and the forecaster (ch. 17) -/

/-- One die's thermal unit; key w × 4 + die. -/
structure DieTherm where
  /-- DIE_d.PRED, 12 bits signed, 0.25 °C; R616, R633 (17_heat.md); reset live: DESIGN CHOICE 100, 25 °C (log 1) -/
  pred : Int := 100
  /-- DIE_d.MEAS, 12 bits signed, 0.25 °C; R615; reset live: DESIGN CHOICE 100 (log 1) -/
  meas : Int := 100
  /-- its level, 2 bits; R618; reset live: 0 (log 1) -/
  level : Nat := 0
  /-- dispatch pause, 1 bit; R623; reset live: 0 -/
  pause : Bool := false
  /-- a valid sensor reads below −10 °C: no new tile is dispatched to the die; R60 (02_transits.md); reset false -/
  cold : Bool := false
  /-- tiles running when the pause, or the cold, began: (ring, sequence number, tile); R60, R623; reset none -/
  ran : List (Nat × DWord × Nat) := []
  /-- the 8 sensors' last readings, 0.25 °C, none invalid; sensors 0–3 are the isle centres; R615, R617; reset live:
  DESIGN CHOICE 25 °C (log 1) -/
  sensors : List (Option Int) := List.replicate 8 (some 100)
  /-- sensors for which SENSOR_FAULT has been raised; R617; reset none -/
  told : List Nat := []
  /-- the forecaster's 72 node values x; R616; reset live: DESIGN CHOICE 0 (log 1) -/
  x : List Int := List.replicate 72 0
  /-- tick + 1 of the last return event, for the limit of one a second; R634; reset none -/
  retTick : Nat := 0
  /-- it has returned from Gale or Storm to Breezy, and not yet to Fair; R634, Example 17-1; reset false -/
  ret : Bool := false
  /-- the comparator has tripped and is not re-armed; R625, R628; reset false -/
  tripped : Bool := false
  deriving DecidableEq, Repr

/-- A module's forecaster words (Table 17-2); key MOD window. -/
structure ModTherm where
  /-- FLIM, 10 bits, mV; R622 (17_heat.md); reset live: DESIGN CHOICE 920, the ceiling of an A96-X (log 1) -/
  flim : Nat := 920
  /-- updates in a row at Fair, at most 8; R622; reset 0 -/
  fair : Nat := 0
  /-- number of its last update, t ÷ 25,000, + 1; R616; reset none -/
  last : Nat := 0
  /-- COUNT.ROTATIONS, 16 bits, wrapping; R633; reset 0 -/
  rotations : BitVec 16 := 0
  /-- COUNT.STEPDOWNS, 16 bits, wrapping; R622; reset 0 -/
  stepdowns : BitVec 16 := 0
  /-- SPILLS.SPILLS, 16 bits, wrapping; R624; reset 0 -/
  spills : BitVec 16 := 0
  /-- SPILLS.PAUSES, 16 bits, wrapping; R623; reset 0 -/
  pauses : BitVec 16 := 0
  deriving DecidableEq, Repr

/-- A tray's coolant state; key 0–17. -/
structure TrayTherm where
  /-- TEMP.INLET, 12 bits signed, 0.25 °C; R614, R633 (17_heat.md); reset live: DESIGN CHOICE 100 (log 1) -/
  inlet : Int := 100
  /-- TEMP.OUTLET, 12 bits signed, 0.25 °C; R614; reset live: DESIGN CHOICE 100 (log 1) -/
  outlet : Int := 100
  /-- FLOW, 10 bits, 0.1 L/min; R614; reset live: DESIGN CHOICE 0 (log 1) -/
  flow : Nat := 0
  /-- VALVE.OPEN, 7 bits, %; R613; reset live: DESIGN CHOICE 100 (log 1) -/
  valve : Nat := 100
  /-- VALVE.FORCED, 1 bit; R631; reset live: 0 -/
  forced : Bool := false
  /-- leak cut-off in force, not re-armed (VALVE.LEAK_CLOSED, THERM_LEAK_TRAYS); R627; reset live: 0 -/
  leakCut : Bool := false
  /-- the drip-pan sensor reads wet (STATUS.LEAK); R627, R628; reset live: 0 -/
  leak : Bool := false
  /-- tick + 1 since which the sensor has read dry; R628; reset none -/
  dry : Nat := 0
  /-- STATUS.INLET_HIGH, 1 bit; R611; reset live: 0 -/
  inletHigh : Bool := false
  /-- the tray's own hard over-temperature, by its logic or by loss of flow; R625, R626; reset live: 0 -/
  ot : Bool := false
  /-- STATUS.WDG, 1 bit: the warden's watchdog has expired; R631; reset live: 0 -/
  wdg : Bool := false
  deriving DecidableEq, Repr

/-- The THERM block's machine-wide state. -/
structure Therm where
  /-- THERM_CTL.ROT_PERIOD, 8 bits; R619, R633 (17_heat.md); reset stored, 16 as delivered -/
  rotPeriod : BitVec 8 := 16
  /-- THERM_CTL.ROT_EN, 1 bit; R619; reset stored, 1 as delivered -/
  rotEn : Bool := true
  /-- THERM_CDU_SET, 8 bits, °C; R610; reset stored, 30 as delivered -/
  cduSet : BitVec 8 := 30
  /-- THERM_PUMP.SPD0, SPD1, 7 bits each, %; R609; reset live: DESIGN CHOICE 30 (log 1) -/
  spd0 : Nat := 30
  spd1 : Nat := 30
  /-- THERM_PUMP.FAULT0, FAULT1; R609; reset live: 0 -/
  fault0 : Bool := false
  fault1 : Bool := false
  /-- tick + 1 of a failed pump's last stop or retry; R609; reset none -/
  pumpTick0 : Nat := 0
  pumpTick1 : Nat := 0
  /-- THERM_PUMP.FORCED, 1 bit; R632; reset live: 0 -/
  forced : Bool := false
  /-- THERM_CDU_VALVE, 7 bits, %; R610; reset live: DESIGN CHOICE 50 (log 1) -/
  cduValve : Nat := 50
  /-- THERM_CDU_TEMP.SUPPLY, RETURN, 12 bits signed each; R614; reset live: DESIGN CHOICE 100 (log 1) -/
  cduSupply : Int := 100
  cduReturn : Int := 100
  /-- THERM_FACILITY.SUPPLY, RETURN, 12 bits signed each; R614; reset live: DESIGN CHOICE 60 (log 1) -/
  facSupply : Int := 60
  facReturn : Int := 60
  /-- THERM_CDU_FLOW.FLOW, 10 bits, L/min; R614; reset live: DESIGN CHOICE 216 (log 1) -/
  cduFlow : Nat := 216
  /-- tick + 1 since which the flow has been below 43 L/min; R626; reset none -/
  lowFlow : Nat := 0
  /-- tick + 1 since which the flow has been at least 150 L/min; R628; reset 1 -/
  goodFlow : Nat := 1
  /-- loss of flow in force, not re-armed; R626, R628; reset false -/
  flowLost : Bool := false
  /-- reservoir level, percent (RES_LOW, RES_LOWLOW follow from it); R612; reset live: 100 (log 1) -/
  reservoir : Nat := 100
  /-- reservoir low-low cut-off in force, not re-armed; R612, R628; reset false -/
  resCut : Bool := false
  /-- CDU_LEAK, 1 bit; R612; reset live: 0 -/
  cduLeak : Bool := false
  dies : Tab DieTherm := []
  mods : Tab ModTherm := []
  trays : Tab TrayTherm := []
  deriving DecidableEq, Repr


/-! ### Columns (ch. 19) -/

/-- A built column; key isle × 17 + built position. -/
structure Colm where
  /-- spare rows and bit-line groups in use; R553 (15_bringup.md), R696 (19_faults.md); reset live: none (log 1) -/
  used : Nat := 0
  /-- corrected errors by row since power-on; R696; reset none -/
  ce : Tab Nat := []
  /-- rows being copied to a spare row; R696; reset none -/
  copying : List Nat := []
  deriving DecidableEq, Repr

/-! ### Intake trays: scanner ports, transport I/O, develop pipelines (chs. 13, 14) -/

/-- A pixel format (Table 14-3 stage 1): Bayer with its cell, or mono; bit depth. -/
structure PixFmt where
  bayer : Bool
  cfa : BitVec 2
  bits : Nat
  deriving DecidableEq, Repr

/-- A raw frame (R464, R503). -/
structure RawFrame where
  num : Word
  slot : Nat
  tb : DWord
  w : Nat
  h : Nat
  fmt : PixFmt
  data : List Byte
  deriving DecidableEq, Repr

/-- A place in a port's queue (R503, R508). -/
inductive QItem where
  /-- a complete develop unit with the bank it is to be developed with, and the bank's generation -/
  | unit (frames : List RawFrame) (bank : Bool) (gen : Word)
  /-- the marker of a frame that ended early -/
  | marker (num : Word)
  /-- a frame that landed while the port's pipeline was OFF, or whose unit was forming when it went OFF: units are
  formed of it at the next enable -/
  | frame (f : RawFrame)
  deriving DecidableEq, Repr

/-- A scheduled output edge (R481): when it falls due, in steps of 2.5 ns; output 0–5 as OUT_k, 6 the falling trigger
packet, 7 a capstan pulse of mode 1; for the pulses that follow it in mode 0 of CAP_STEP: how many, how far apart and how
wide. -/
structure OutEdge where
  due : Nat
  out : Nat
  rise : Bool
  left : Nat := 0
  gap : Nat := 0
  wide : Nat := 0
  deriving DecidableEq, Repr

/-- A transport I/O pin; key scanner port × 16 + m. -/
structure Pin where
  /-- PIN_m.FUNC as it reads, 4 bits; R485 (13_intake_ports.md); reset 0 -/
  func : BitVec 4 := 0
  /-- the function the pin carries, 4 bits; R474, R475 (13_intake_ports.md); reset 0 -/
  act : BitVec 4 := 0
  /-- INV as it reads, 1 bit; R485; reset 0 -/
  inv : Bool := false
  /-- the inversion in force; R475; reset 0 -/
  actInv : Bool := false
  /-- the function moves away: FUNC becomes OFF at the end of the hold; R474; reset false -/
  leaving : Bool := false
  /-- TERM, 1 bit; R485; reset 0 -/
  term : Bool := false
  /-- FILT, 8 bits; R485; reset 0 -/
  filt : BitVec 8 := 0
  /-- HOLD: step (2.5 ns) + 1 at which the hold began, 0 with none; R475; reset 0 -/
  hold : Nat := 0
  /-- level at the connector while the pin is undriven; R485 (LEVEL); reset live: DESIGN CHOICE 0 (log 1) -/
  ext : Bool := false
  /-- level the keeper drives during a hold, if the pin was driven; R475; reset none -/
  keep : Option Bool := Option.none
  /-- FAULT, 1 bit: switched off; R471; reset 0 -/
  fault : Bool := false
  /-- tick at which the driver was switched off or last retried; R471; reset 0 -/
  faultTick : DWord := 0
  deriving DecidableEq, Repr

/-- A scanner port; key (tray − 14) × 4 + port. -/
structure SPort where
  /-- CXP_CTL EN, POCXP_EN, MAXRATE, MAXCONN, STREAM, 24 bits; R469 (13_intake_ports.md); reset 0 -/
  ctl : Word := 0
  /-- STATUS.STATE, 2 bits; R469; reset 0 -/
  st : BitVec 2 := 0
  /-- STATUS.RATE, 3 bits; R461, R469; reset 0 -/
  rate : BitVec 3 := 0
  /-- STATUS.CONNS, 2 bits; R461, R469; reset 0 -/
  conns : BitVec 2 := 0
  /-- STATUS.CONN_UP, 4 bits; R469; reset 0 -/
  connUp : BitVec 4 := 0
  /-- STATUS.POCXP_ON, 4 bits; R462, R469; reset 0 -/
  pocOn : BitVec 4 := 0
  /-- STATUS.POCXP_FAULT, 4 bits; R463; reset 0 -/
  pocFault : BitVec 4 := 0
  /-- STATUS.CONN_LOST, 1 bit; R487; reset 0 -/
  connLost : Bool := false
  /-- stream ID in use, 8 bits; R461; reset 0 -/
  stream : BitVec 8 := 0
  /-- tick + 1 of the last discovery attempt; R462; reset none -/
  discTick : Nat := 0
  /-- tick + 1 of the last DETACH, for its wait of 1 s; R469; reset none -/
  detTick : Nat := 0
  /-- FRAMES, 32 bits, wrapping; R464; reset 0 -/
  frames : Word := 0
  /-- ABORTS, 32 bits, saturating; R488; reset 0 -/
  aborts : Word := 0
  /-- ABORT_CAUSE, 4 bits; R488; reset 0 -/
  abortCause : BitVec 4 := 0
  /-- ABORT_FRAME, 32 bits; R488; reset 0 -/
  abortFrame : Word := 0
  /-- CRC_ERR, 32 bits, saturating; R465; reset 0 -/
  crcErr : Word := 0
  /-- OTHER_STREAM, 32 bits, saturating; R469; reset 0 -/
  other : Word := 0
  /-- GC_ADDR, 32 bits; R467; reset 0 -/
  gcAddr : Word := 0
  /-- GC_LEN, 9 bits; R467; reset 4 -/
  gcLen : BitVec 9 := 4
  /-- GC_STATUS.BUSY, and whether the access writes; R467; reset 0 -/
  gcBusy : Bool := false
  gcWr : Bool := false
  /-- sends of the control packet in progress, at most 3; R465; reset 0 -/
  gcTries : Nat := 0
  /-- tick of its last send; R465; reset 0 -/
  gcTick : DWord := 0
  /-- GC_STATUS.RESULT, 4 bits; R467; reset 0 -/
  gcResult : BitVec 4 := 0
  /-- GC_STATUS.DEVSTAT, 8 bits; R467; reset 0 -/
  gcDev : BitVec 8 := 0
  /-- GC_DATA_k, 64 words; R467; reset 0 -/
  gcData : Tab Word := []
  /-- STREAMING: the frame in progress; R464; reset none -/
  cur : Option RawFrame := Option.none
  /-- tick of its last stream packet; R488 cause 6; reset 0 -/
  curTick : DWord := 0
  /-- ENC_CTL MODE, DIR, IDXCLR, 4 bits; R477; reset 0 -/
  encCtl : BitVec 4 := 0
  /-- ENC_CTL.ERRORS, 16 bits, saturating; R477; reset 0 -/
  encErr : BitVec 16 := 0
  /-- ENC_POS, 32 bits signed; R477; reset 0 -/
  encPos : Word := 0
  /-- ENC_IDX, 32 bits; R477; reset 0 -/
  encIdx : Word := 0
  /-- the last A or B edge: its step + 1, whether it was A's, ENC_POS before it; R477; reset none -/
  encStep : Nat := 0
  encWasA : Bool := false
  encWas : Word := 0
  /-- levels the input functions last took: ENC_A, ENC_B, ENC_I, PERF, TRIG_IN, 5 bits; R473, R475; reset 0 -/
  inLvl : BitVec 5 := 0
  /-- PERF_COUNT, 32 bits, wrapping; R478; reset 0 -/
  perf : Word := 0
  /-- TRIG_CTL SRC, EDGE, CXP, SEQLEN, 10 bits; R479; reset 0 -/
  trigCtl : Word := 0
  /-- TRIG_PERIOD, 32 bits; R479; reset 1 -/
  period : Word := 1
  /-- TRIG_PHASE, 32 bits; R479; reset 0 -/
  phase : Word := 0
  /-- PERIOD and PHASE as the arming judged and took them, 32 bits each; R479; reset 1 and 0 -/
  armPeriod : Word := 1
  armPhase : Word := 0
  /-- TRIG_COUNT, 32 bits, wrapping; R480; reset 0 -/
  trigCount : Word := 0
  /-- TRIG_OVERRUN, 32 bits, saturating; R484; reset 0 -/
  overrun : Word := 0
  /-- triggers dropped since the last TRIG_OVERRUN event, and its tick + 1; R484; reset 0 -/
  overRun : Word := 0
  overTick : Nat := 0
  /-- TRIG_TS, 64 bits; R480; reset 0 -/
  trigTs : DWord := 0
  /-- trigger index; R479; reset 0 -/
  trigIdx : Nat := 0
  /-- source 1: the target; R479; reset 0 -/
  target : Word := 0
  /-- accepted edges of the source since arming (sources 2 and 3); R479; reset 0 -/
  srcEdges : Nat := 0
  /-- frames begun since arming; R464; reset 0 -/
  armFrames : Nat := 0
  /-- STROBE_SLOT, 16 bits; R481; reset 0 -/
  slots : BitVec 16 := 0
  /-- HOLD_MASKED, 32 bits, saturating; R476; reset 0 -/
  masked : Word := 0
  /-- GPO, 16 bits; R485; reset 0 -/
  gpo : BitVec 16 := 0
  /-- OUT_k_DELAY, 24 bits each, k = 0–5; R485; reset 0 -/
  delay : Tab Word := []
  /-- OUT_k_WIDTH, 24 bits each; R485; reset 1 -/
  width : Tab Word := []
  /-- CAP_CTL MODE, DIR, RUN, COUNT, 32 bits; R485; reset 0 -/
  cap : Word := 0
  /-- CAP_INTERVAL, 24 bits; R485; reset 2 -/
  capInt : Word := 2
  /-- present level of each output function, 6 bits; R473; reset 0 -/
  outLvl : BitVec 6 := 0
  /-- scheduled output edges; R481; reset none -/
  sched : List OutEdge := []
  /-- the +5 V output is switched off; R471; reset false -/
  fault5v : Bool := false
  /-- tick at which the +5 V output was switched off or last retried; R471; reset 0 -/
  fault5Tick : DWord := 0
  /-- sends of the control packet that discovery waits on, at most 3, and the tick of the last; R462, R465; reset 0 -/
  discTries : Nat := 0
  discSent : DWord := 0
  deriving DecidableEq, Repr

/-- A unit in development (R509, R532). -/
structure Dev where
  ctx : Nat
  frames : List RawFrame
  bank : Bool
  gen : Word
  /-- formatter, ring and sequence number of each IX_FRAME it was given -/
  outs : List (Nat × Nat × DWord)
  pool : Bool
  deriving DecidableEq, Repr

/-- A develop context and its pipeline; key (tray − 14) × 4 + number. -/
structure Pipe where
  /-- PIPE_p_STATUS STATE and PENDING, 3 bits; R533 (14_develop.md); reset 0 -/
  obj : Obj := {}
  /-- STATUS.BANK: the active bank; R527; reset 0 -/
  bank : Bool := false
  /-- PIPE_p_BANK.REQ, 1 bit; R527; reset 0 -/
  req : Bool := false
  /-- bank generation, 32 bits; R524, R527; reset 0 -/
  gen : Word := 0
  /-- STATUS.SYNC, 1 bit; R508; reset 0 -/
  sync : Bool := false
  /-- LOAD_SRC, 64 bits; R525; reset 0 -/
  loadSrc : DWord := 0
  /-- LOAD_DST, 32 bits; R525; reset 0 -/
  loadDst : Word := 0
  /-- LOAD_LEN, 29 bits; R525; reset 0 -/
  loadLen : Word := 0
  /-- LOAD_STATUS.BUSY, and the bank being loaded; R525; reset 0 -/
  loadBusy : Bool := false
  loadBank : Bool := false
  /-- the source, destination and length sampled at GO; R525; reset 0 -/
  runSrc : DWord := 0
  runDst : Nat := 0
  runLen : Nat := 0
  /-- bytes loaded so far; R525; reset 0 -/
  loadDone : Nat := 0
  /-- LOAD_STATUS.RESULT, 3 bits; R525; reset 0 -/
  loadResult : BitVec 3 := 0
  /-- the two banks of 4 GiB, bytes not zero, key bank × 2^32 + offset; R502; reset zero -/
  mem : List Host.Cell := []
  /-- UNITS, 32 bits, wrapping; R533; reset 0 -/
  units : Word := 0
  /-- DISCARDS, 32 bits, saturating; R508; reset 0 -/
  discards : Word := 0
  /-- DISCARD_CAUSE, 4 bits; Table 14-7; reset 0 -/
  dcause : BitVec 4 := 0
  /-- LOCATE_FAIL, 32 bits, saturating; R518; reset 0 -/
  locFail : Word := 0
  /-- FMT_k_BIND, 13 bits each, k = 0–5; R528; reset 0 -/
  bind : Tab Word := []
  /-- the bindings sampled at enable, formatter and ring; R528; reset none -/
  bound : List (Nat × Nat) := []
  /-- formatters stopped because their ring left ON; R529; reset none -/
  stopped : List Nat := []
  /-- FMT_k_FRAMES, 32 bits each, wrapping; R533; reset 0 -/
  fmtFrames : Tab Word := []
  /-- units, markers and frames in no unit that wait for port n, oldest first; R503, R508; reset empty -/
  queue : List QItem := []
  /-- frames of the unit now forming, oldest first; R508; reset empty -/
  loose : List RawFrame := []
  /-- bank the unit now forming uses; R527, R536; reset 0 -/
  formBank : Bool := false
  /-- DROPS_n, 32 bits, saturating; R505; reset 0 -/
  drops : Word := 0
  /-- frames dropped since the last FRAME_DROPPED, and its tick + 1; R505; reset 0 -/
  dropRun : Word := 0
  dropTick : Nat := 0
  /-- the unit pipeline p is developing; R509; reset none -/
  dev : Option Dev := Option.none
  deriving DecidableEq, Repr

/-- An intake tray; key tray − 14. -/
structure Intake where
  /-- INTAKE_t_MODE.MODE, 1 bit; R504, R533 (14_develop.md); reset strap: 0 (log 1) -/
  mode : Bool := false
  /-- last_port_taken_from_pool; R507; reset 3 -/
  lastPool : Nat := 3
  /-- INTAKE_t_C8.UP, 1 bit; R533, R535; reset live: 1 (log 1) -/
  c8 : Bool := true
  deriving DecidableEq, Repr

/-! ### Stewards, wardens, the log, the panel (chs. 1, 18) -/

/-- A log record (Table 18-3). -/
structure LogRec where
  tb : DWord
  lsn : Word
  chan : Nat
  cls : Nat
  code : Nat
  place : Nat
  arg0 : DWord
  arg1 : Word
  data : List Nat
  deriving DecidableEq, Repr

/-- A steward channel; key 0 A, 1 B, 2 C. -/
structure Stew where
  /-- its state, R654 codes, 2 bits; R654 (18_stewards.md); reset live: healthy (log 1) -/
  st : BitVec 2 := 1
  /-- consecutive periods missed on the Ethernet and on the strait; R652, R653; reset 0 -/
  missE : Nat := 0
  missS : Nat := 0
  /-- consecutive periods received on each path; R653, R655; reset 0 -/
  okE : Nat := 0
  okS : Nat := 0
  /-- path alarms; R653; reset none -/
  alarmE : Bool := false
  alarmS : Bool := false
  /-- its log copy works: MACH_LOG.COPIES; R671; reset live: 1 (log 1) -/
  copyOk : Bool := true
  /-- TB of its copy's last good record at its failure; R671; reset 0 -/
  lastGood : DWord := 0
  /-- it failed while its records were deferred, to be marked failed at their commit; R684; reset false -/
  failDue : Bool := false
  /-- its copy of the log, oldest first; R670; reset live: empty as delivered (log 1) -/
  copy : List LogRec := []
  /-- records sent to it over the strait and not yet appended; R670; reset empty -/
  inbox : List LogRec := []
  /-- records whose commit sag defers, at most 4,096; R589 (16_power.md); reset empty -/
  deferred : List LogRec := []
  /-- records dropped in this deferral, for the gap marker; R589; reset 0 -/
  gap : Nat := 0
  /-- LSN of its last record, 32 bits; R670; reset live: DESIGN CHOICE 0 (log 1) -/
  lsn : Word := 0
  /-- actuators for which it raised VOTE_DISSENT and has not agreed since, with tick + 1 since which it differs where it
  has not yet raised it; R650; reset none -/
  told : List Nat := []
  differs : Tab Nat := []
  /-- its present order for pump speed and CDU valve; R650; reset live: DESIGN CHOICE 30 and 50 (log 1) -/
  order : Nat × Nat := (30, 50)
  deriving DecidableEq, Repr

/-- A Redfish session (R661). -/
structure Session where
  id : Nat
  account : Nat
  role : Nat
  tick : DWord
  deriving DecidableEq, Repr

/-- The stewards. -/
structure Stw where
  chans : Tab Stew := []
  /-- MACH_STEWARD.SPOKESMAN, 2 bits, 3 none; R648, R677 (18_stewards.md); reset live: 0, channel A -/
  spokes : Nat := 0
  /-- MACH_STEWARD.COOLAUTH, 2 bits; R648, R677; reset live: 1, channel B -/
  cool : Nat := 1
  /-- MACH_STEWARD_EPOCH, 32 bits; R658; reset live: 1 -/
  epoch : Word := 1
  /-- number of the last heartbeat period judged, + 1; R652; reset none -/
  period : Nat := 0
  /-- MACH_VOTE_DISSENT, 32 bits, saturating; R650; reset 0 -/
  dissent : Word := 0
  /-- MACH_LOG_GAPS, 32 bits, wrapping; R677; reset 0 -/
  gaps : Word := 0
  /-- the RAM ring while the log is unavailable, at most 4,096 records; R672; reset empty -/
  ram : List LogRec := []
  /-- records overwritten in the RAM ring; R672; reset 0 -/
  ramLost : Nat := 0
  /-- MACH_LOG.UNAVAILABLE, 1 bit; R672; reset live: 0 -/
  unavail : Bool := false
  /-- MACH_WARDENS, 18 bits; R677; reset live: all running (log 1) -/
  wardens : BitVec 18 := 0x3FFFF
  /-- wardens starting and adopting their trays; R669; reset none -/
  adopting : List Nat := []
  /-- the last-words registers, by tray; R673; reset live: none written (log 1) -/
  words : Tab (Option LogRec) := []
  /-- TB of the last record each warden reported, + 1, by tray; R673; reset none -/
  wordsTold : Tab Nat := []
  /-- the latest CLOCK record: timebase and UTC; R664; reset live: none -/
  clock : Option (DWord × DWord) := Option.none
  /-- sessions; R661; reset live: none (log 1) -/
  sessions : List Session := []
  /-- the number of the next session; the model's own field; reset 1 -/
  nextSess : Nat := 1
  /-- SessionTimeout, s; R661; reset live: 1,800 as delivered -/
  sessTimeout : Nat := 1800
  /-- accounts: number, password (as a number) and role (2 Administrator, 1 Operator, 0 ReadOnly); R661; reset live:
  DESIGN CHOICE account 0, an Administrator, password 0 (log 1) -/
  accounts : List (Nat × Nat × Nat) := [(0, 0, 2)]
  /-- event subscriptions, at most 8: number and destination; R661; reset live: none -/
  subs : List (Nat × Nat) := []
  /-- TLS certificates installed, NTP servers, by number; R662; reset live: none -/
  certs : List Nat := []
  ntp : List Nat := []
  /-- locate requests of the rack manager: rack light, trays (18 bits), modules (by MOD window); R675; reset none -/
  rmRack : Bool := false
  rmTrays : BitVec 18 := 0
  rmMods : List Nat := []
  /-- locate request of the front panel's button; R675; reset none -/
  panelLocate : Bool := false
  /-- LAMP TEST in progress since tick + 1; R54 (01_anatomy.md); reset none -/
  lamp : Nat := 0
  /-- LOCATE was pressed together with LAMP TEST; R54; reset false -/
  lampLocate : Bool := false
  /-- tick + 1 of a press of LOCATE that a LAMP TEST of the same tick takes back; R54; reset none -/
  locTick : Nat := 0
  /-- the code that the display's turn stands at, two characters; R50, R51 (01_anatomy.md); reset OK -/
  shown : Nat := 0x4F4B
  /-- tick + 1 of that turn's beginning; R51 (01_anatomy.md); reset none -/
  shownTick : Nat := 0
  /-- active codes in order of arrival, as the display has noticed them; R51 (01_anatomy.md); reset OK alone -/
  active : List Nat := [0x4F4B]
  /-- pump speed and CDU valve position as the cooling authority last published them; R650; reset live: DESIGN CHOICE 30
  and 50 (log 1) -/
  coolOrder : Nat × Nat := (30, 50)
  /-- tick + 1 since which no two channels' orders for a voted actuator agree; R649 (18_stewards.md); reset none -/
  noAgree : Tab Nat := []
  deriving DecidableEq, Repr

/-! ### Keys, attestation, whiteout (ch. 20) -/

/-- The key service. -/
structure KeyS where
  /-- KEY_STATE.READY, 1 bit; R739 (20_security.md); reset live: 1 (log 1) -/
  ready : Bool := true
  /-- KEY_STATE.WHITEOUT, 1 bit; R735, R739; reset live: 0 (log 1) -/
  white : Bool := false
  /-- KEY_STATE.STORE_OK, 1 bit; R723, R739; reset live: 1 (log 1) -/
  storeOk : Bool := true
  /-- KEY_WKGEN, 32 bits; R724, R739; reset live: DESIGN CHOICE 1 (log 1) -/
  wkgen : Word := 1
  /-- the last generation made, from which the next follows after whiteout; R738; reset 1 -/
  wkLast : Word := 1
  /-- KEY_WHITEOUT.LIDS, 18 bits; R735, R739; reset live: 0 -/
  lids : BitVec 18 := 0
  /-- KEY_WHITEOUT.BATTERY, 1 bit; R736, R739; reset live: 0 -/
  battLost : Bool := false
  /-- KEY_WHITEOUT.AT_POWER_ON, 1 bit; R739; reset live: 0 -/
  atPower : Bool := false
  /-- KEY_WHITEOUT_COUNT, 16 bits, saturating; R739; reset live: DESIGN CHOICE 0 (log 1) -/
  count : BitVec 16 := 0
  /-- lid switches now closed, 18 bits; R734; reset live: none (log 1) -/
  closed : BitVec 18 := 0
  /-- tick + 1 since which every sensed switch has read open, during whiteout; R738; reset none -/
  openTick : Nat := 0
  /-- re-arm in progress; R738; reset false -/
  rearming : Bool := false
  /-- KEY_LOAD_SRC, 64 bits; R739; reset 0 -/
  loadSrc : DWord := 0
  /-- KEY_LOAD_STATUS.BUSY, 1 bit; R739; reset 0 -/
  busy : Bool := false
  /-- KEY_LOAD_STATUS.RESULT, 4 bits; R726, R739; reset 0 -/
  result : BitVec 4 := 0
  /-- KEY_LOAD_STATUS.TENANT, 4 bits; R739; reset 0 -/
  loadTen : BitVec 4 := 0
  /-- ROTATE_WK in progress; R729; reset false -/
  rotating : Bool := false
  /-- the battery fault of R736 has been raised and the charge has not recovered; R736; reset false -/
  battTold : Bool := false
  /-- key store entries, by key, that are sealed under a store key erased since; R721, R735 (20_security.md); reset none -/
  stale : List Nat := []
  /-- the store key is lost to a battery exhausted without power, until whiteout is re-armed; R736; reset false -/
  storeLost : Bool := false
  deriving DecidableEq, Repr

/-! ### Field update (ch. 21) -/

/-- An instance of a component; key component × 128 + index (Table 21-1). -/
structure Inst where
  /-- VERSION in its active slot, 32 bits; R747 (21_update.md); reset live: DESIGN CHOICE 0x0100_0000 (log 1) -/
  run : Word := 0x01000000
  /-- FWSET of that image; R764; reset live: 1 (R27) -/
  fwset : BitVec 16 := 1
  /-- LAYOUT of that image; R762; reset live: DESIGN CHOICE 1 (log 1) -/
  layout : BitVec 16 := 1
  /-- key that signed it, 2 bits; R766; reset live: DESIGN CHOICE 0 (log 1) -/
  keyId : BitVec 2 := 0
  /-- the inactive slot: VERSION, FWSET, LAYOUT, KEYID; none empty; R747; reset live: DESIGN CHOICE empty (log 1) -/
  other : Option (Word × BitVec 16 × BitVec 16 × BitVec 2) := Option.none
  /-- marked TRIAL; R756; reset 0 -/
  trial : Bool := false
  /-- it has switched in the update in progress; R757; reset false -/
  switched : Bool := false
  /-- left out of the update: its read-back failed twice; Table 21-5; reset false -/
  skipped : Bool := false
  /-- its inactive slot has been written and read back; Table 21-5; reset false -/
  written : Bool := false
  /-- revocation fuses blown in the part, 4 bits; R766; reset fuse: none (log 1) -/
  fuses : BitVec 4 := 0
  deriving DecidableEq, Repr

/-- The UPD block and the update in progress. -/
structure Upd where
  /-- UPD_STATUS.PHASE, 3 bits; R769 (21_update.md); reset live: 0 -/
  phase : Nat := 0
  /-- UPD_STATUS.COMPONENT, 3 bits; R769; reset live: 0 -/
  comp : Nat := 0
  /-- UPD_STATUS.CAUSE, 5 bits; R769; reset live: 0 -/
  cause : BitVec 5 := 0
  /-- UPD_SRC, 64 bits; R769; reset 0 -/
  src : DWord := 0
  /-- the source of the update in progress: 0 control host, 1 Redfish push, 2 Redfish pull; R754; reset 0 -/
  path : Nat := 0
  /-- the source address sampled at START; R754; reset 0 -/
  from_ : DWord := 0
  /-- the header's bytes, once read; R749; reset none -/
  header : List Byte := []
  /-- UPD_BYTES, 28 bits: body bytes staged; R769; reset live: 0 -/
  bytes : Nat := 0
  /-- the Redfish session that started the update in progress; R754; reset 0 -/
  sess : Nat := 0
  /-- instances that have returned in the fall-back in progress (ARG1 of UPDATE_FALLBACK); R761; reset 0 -/
  returned : Nat := 0
  /-- instances of the component, by key; R747 -/
  insts : Tab Inst := []
  /-- UPD_COMP_c_CONF, by component; R769; reset live: DESIGN CHOICE 0x0100_0000 (log 1) -/
  conf : Tab Word := []
  /-- key that signed each confirmed parcel, by component, 2 bits; R766; reset live: DESIGN CHOICE 0 (log 1) -/
  confKey : Tab Nat := []
  /-- FWSET and LAYOUT of the confirmed parcels, by component; R748; reset live: DESIGN CHOICE 1 and 1 (log 1) -/
  confSet : Tab (Nat × Nat) := []
  /-- the instance restarting or loading, and the tick it began; R756; reset none -/
  inst : Option (Nat × DWord) := Option.none
  /-- a trial failure has begun the fall-back, with the instance; R761; reset none -/
  failed : Option Nat := Option.none
  /-- a trial failure waits for the end of a pause; R776; reset none -/
  failDue : Option Nat := Option.none
  /-- the tilt latch, 1 bit; R767; reset live: 0 (log 1) -/
  tilt : Bool := false
  /-- tick + 1 since which the sensor has been within its limits; R768; reset live: 1 (log 1) -/
  still : Nat := 1
  /-- the attitude has been set again since installation (count); R768; reset live: 0 (log 1) -/
  attitude : Nat := 0
  /-- the transport key switch, 1 bit; R767, R200; reset live: 0 (log 1) -/
  switch : Bool := false
  /-- UPD_COND.OWNER_LOCK, 1 bit; R753; reset stored, 0 as delivered (log 1) -/
  lock : Bool := false
  /-- revocation fuses blown in the steward bay, 4 bits; R750 check 10; reset fuse: none (log 1) -/
  fuses : BitVec 4 := 0
  deriving DecidableEq, Repr

/-! ### The machine -/

/-- The whole state. Tables list the objects that differ from the default record of their type. -/
structure State where
  /-- the MACH block; ch. 5, R787 -/
  win : Win := {}
  /-- host ports 0–15; R788 (22_register_map.md) -/
  ports : Tab Port := []
  /-- functions, key port × 16 + function; R788 -/
  fns : Tab Fn := []
  /-- tenants 0–15; R201 (06_tenants.md) -/
  tens : Tab Ten := []
  /-- partitions 0–63; R201 (06_tenants.md) -/
  parts : Tab Part := []
  /-- rings 0x000–0xFFF; R235 (07_queues.md) -/
  rings : Tab Ring := []
  /-- machine-level events held, at most 256, oldest first (MACH_MEV_HELD); R263 (07_queues.md); reset empty -/
  mevHeld : List Event := []
  /-- MACH_MEV_LOST, 32 bits, saturating; R264 (07_queues.md); reset 0 -/
  mevLost : Word := 0
  /-- machine-level events dropped since the last EVT_LOST, 32 bits; R263 (07_queues.md); reset 0 -/
  mevRun : Word := 0
  /-- modules, key MOD window; ch. 22 -/
  mods : Tab Mod := []
  /-- isles, key (module × 4 + die) × 4 + isle; ch. 3 -/
  isles : Tab Isle := []
  /-- cores, key isle × 17 + built position; ch. 3 -/
  cores : Tab Core := []
  /-- move channels, key core × 4 + channel; R326 (09_move.md) -/
  chans : Tab Chan := []
  /-- column memory, each data unit as the plaintext under the key that it was last written under (`unitKeys`); key
  module × 2^37 + die, isle and offset as Table 6-4 places them; R101 (03_core.md), R216 (06_tenants.md); an unlisted
  byte is 0 under that key (R552, R553: columns are zeroed at stage 6) -/
  cols : List Host.Cell := []
  /-- the name of the key under which an aligned 64-byte unit (key ÷ 64) was last written, where that is not its
  module's colKey; R216 (06_tenants.md); reset none -/
  unitKeys : Tab (Option Nat) := []
  /-- aligned 64-byte column units that read as uncorrectable or poisoned (key ÷ 64); R347, R695; reset none -/
  badUnits : List Nat := []
  /-- the fabric; ch. 11 -/
  fab : Fab := {}
  /-- the shape and the Sound; ch. 10 -/
  sh : ShapeSt := {}
  /-- host reads outstanding, by the model's own number; R265 -/
  reads : Tab (Option HRead) := []
  /-- the next such number; the model's own field; reset 0 -/
  nextRead : Nat := 0
  /-- trays 0–17; R701 (19_faults.md), chs. 15–18 -/
  trays : Tab Tray := []
  /-- the counters of the FAULT block; Table 19-5 (19_faults.md) -/
  flt : Flt := {}
  /-- columns, key isle × 17 + built position; ch. 19 -/
  colms : Tab Colm := []
  /-- keys made or loaded so far, which name them; the model's own counter; reset 0 -/
  keySerial : Nat := 0
  /-- the 512-bit values of the owner keys loaded, by name, which the columns' ciphertext is made with (R216, R725); a
  key that the key service made itself has the value `Config.madeKey`; reset none -/
  keyBank : Tab (Option (List Byte)) := []
  /-- the key service; ch. 20 -/
  keys : KeyS := {}
  /-- bring-up; ch. 15 -/
  boot : Boot := {}
  /-- fuses; ch. 15 -/
  fuses : Fuses := {}
  /-- power; ch. 16 -/
  pwr : Pwr := {}
  /-- cooling and the forecaster; ch. 17 -/
  therm : Therm := {}
  /-- scanner ports, key (tray − 14) × 4 + port; ch. 13 -/
  sports : Tab SPort := []
  /-- transport I/O pins, key scanner port × 16 + m; ch. 13 -/
  pins : Tab Pin := []
  /-- develop contexts and pipelines, key (tray − 14) × 4 + number; ch. 14 -/
  pipes : Tab Pipe := []
  /-- intake trays, key tray − 14; ch. 14 -/
  intakes : Tab Intake := []
  /-- the stewards; ch. 18 -/
  stw : Stw := {}
  /-- field update; ch. 21 -/
  upd : Upd := {}
  /-- the stewards' configuration store: each stored item as committed, by the offset of its register; R198
  (05_setup_window.md), R584 (16_power.md); reset as delivered: an item not listed holds its delivered value -/
  store : Tab (Option Word) := []
  /-- what the machine has issued to the outside, in order; the model's own record; reset empty -/
  out : List Out := []
  /-- the model's own counter, which numbers free values (log 5); reset 0, DESIGN CHOICE -/
  freeCtr : Nat := 0
  /-- commands waiting, first in first out; the model's own queue; reset empty -/
  pending : List Instr := []
  deriving DecidableEq, Repr

/-- Why the machine stops with a fault. No command of this model does: the type is closed and empty of use but for
this one constructor, which no meaning raises. Safe. -/
inductive Fault where
  /-- raised by nothing: every effect of the table's commands is a next state. Safe. -/
  | none
  deriving DecidableEq, Repr

/-- Why a command is refused. -/
inductive Refusal where
  /-- the command has no meaning yet; raised only by an arm of `exec`. Safe: nothing is claimed of it. -/
  | notModelled (mnemonic : String)
  deriving DecidableEq, Repr

/-- The machine at the end of stage 11, healthy and as delivered (R15, R782; logs 1–3). -/
def State.reset : State := {}

end Sys2Proof.Machine
end

