-- ==== Sys2Proof/Machine/Ops.lean ====
section
/-! DEFINITION. The named operations over the state: its tables, the ignored-access record, what goes out to the
hosts, events, late faults and the life cycle. -/

namespace Sys2Proof.Machine

/-! ### The tables -/

def State.port (s : State) (n : Nat) : Port := tget {} n s.ports
def State.setPort (s : State) (n : Nat) (v : Port) : State := { s with ports := tset {} n v s.ports }
def State.fnc (s : State) (port fn : Nat) : Fn := tget {} (port * 16 + fn) s.fns
def State.setFn (s : State) (port fn : Nat) (v : Fn) : State := { s with fns := tset {} (port * 16 + fn) v s.fns }
def State.ten (s : State) (n : Nat) : Ten := tget {} n s.tens
def State.setTen (s : State) (n : Nat) (v : Ten) : State := { s with tens := tset {} n v s.tens }
def State.part (s : State) (p : Nat) : Part := tget {} p s.parts
def State.setPart (s : State) (p : Nat) (v : Part) : State := { s with parts := tset {} p v s.parts }
def State.ring (s : State) (r : Nat) : Ring := tget {} r s.rings
def State.setRing (s : State) (r : Nat) (v : Ring) : State := { s with rings := tset {} r v s.rings }
def State.mod (s : State) (w : Nat) : Mod := tget {} w s.mods
def State.setMod (s : State) (w : Nat) (v : Mod) : State := { s with mods := tset {} w v s.mods }
def State.isle (s : State) (g : Nat) : Isle := tget {} g s.isles
def State.setIsle (s : State) (g : Nat) (v : Isle) : State := { s with isles := tset {} g v s.isles }
def State.core (s : State) (k : Nat) : Core := tget {} k s.cores
def State.setCore (s : State) (k : Nat) (v : Core) : State := { s with cores := tset {} k v s.cores }
def State.chan (s : State) (k : Nat) : Chan := tget {} k s.chans
def State.setChan (s : State) (k : Nat) (v : Chan) : State := { s with chans := tset {} k v s.chans }
def State.tray (s : State) (t : Nat) : Tray := tget {} t s.trays
def State.setTray (s : State) (t : Nat) (v : Tray) : State := { s with trays := tset {} t v s.trays }
def State.link (s : State) (l : Nat) : Link := tget {} l s.fab.links
def State.setLink (s : State) (l : Nat) (v : Link) : State :=
  { s with fab := { s.fab with links := tset {} l v s.fab.links } }
def State.ctr (s : State) (k : Nat) : Ctr := tget {} k s.fab.ctrs
def State.setCtr (s : State) (k : Nat) (v : Ctr) : State :=
  { s with fab := { s.fab with ctrs := tset {} k v s.fab.ctrs } }

def State.colm (s : State) (k : Nat) : Colm := tget {} k s.colms
def State.setColm (s : State) (k : Nat) (v : Colm) : State := { s with colms := tset {} k v s.colms }
def State.pwrMod (s : State) (w : Nat) : PwrMod := tget {} w s.pwr.mods
def State.setPwrMod (s : State) (w : Nat) (v : PwrMod) : State :=
  { s with pwr := { s.pwr with mods := tset {} w v s.pwr.mods } }
def State.shelf (s : State) (n : Nat) : Shelf := tget {} n s.pwr.shelves
def State.setShelf (s : State) (n : Nat) (v : Shelf) : State :=
  { s with pwr := { s.pwr with shelves := tset {} n v s.pwr.shelves } }
def State.die (s : State) (k : Nat) : DieTherm := tget {} k s.therm.dies
def State.setDie (s : State) (k : Nat) (v : DieTherm) : State :=
  { s with therm := { s.therm with dies := tset {} k v s.therm.dies } }
def State.mtherm (s : State) (w : Nat) : ModTherm := tget {} w s.therm.mods
def State.setMtherm (s : State) (w : Nat) (v : ModTherm) : State :=
  { s with therm := { s.therm with mods := tset {} w v s.therm.mods } }
def State.ttherm (s : State) (t : Nat) : TrayTherm := tget {} t s.therm.trays
def State.setTtherm (s : State) (t : Nat) (v : TrayTherm) : State :=
  { s with therm := { s.therm with trays := tset {} t v s.therm.trays } }
def State.sport (s : State) (k : Nat) : SPort := tget {} k s.sports
def State.setSport (s : State) (k : Nat) (v : SPort) : State := { s with sports := tset {} k v s.sports }
def State.pin (s : State) (k : Nat) : Pin := tget {} k s.pins
def State.setPin (s : State) (k : Nat) (v : Pin) : State := { s with pins := tset {} k v s.pins }
def State.pipe (s : State) (k : Nat) : Pipe := tget {} k s.pipes
def State.setPipe (s : State) (k : Nat) (v : Pipe) : State := { s with pipes := tset {} k v s.pipes }
def State.intake (s : State) (k : Nat) : Intake := tget {} k s.intakes
def State.setIntake (s : State) (k : Nat) (v : Intake) : State := { s with intakes := tset {} k v s.intakes }
def State.stew (s : State) (c : Nat) : Stew := tget {} c s.stw.chans
def State.setStew (s : State) (c : Nat) (v : Stew) : State :=
  { s with stw := { s.stw with chans := tset {} c v s.stw.chans } }
def State.inst (s : State) (k : Nat) : Inst := tget {} k s.upd.insts
def State.setInst (s : State) (k : Nat) (v : Inst) : State :=
  { s with upd := { s.upd with insts := tset {} k v s.upd.insts } }

/-! ### Below 0.70 V (R62, R818) -/

/-- A module's core supply is below 0.70 V: nothing passes through its cores, crossbars, command processors, gates or
routers (R62, R818). -/
def State.paused (s : State) (w : Nat) : Bool := decide ((s.pwrMod w).vset < 700)

/-- Some powered module's core supply is below 0.70 V. -/
def State.anyPaused (s : State) : Bool := s.pwr.mods.any (fun x => x.2.obj.st == .on && decide (x.2.vset < 700))

/-- Ticks that count toward a bound which time below 0.70 V extends: the timebase less the time so spent, of a module (R404,
R448) or of the machine (R232, R546). -/
def upTicks (tb : DWord) (lowFrom lowSum : Nat) : Nat :=
  (if lowFrom = 0 then tb.toNat else min tb.toNat (lowFrom - 1)) - lowSum
def State.upTime (s : State) (w : Nat) : Nat := upTicks s.win.tb (s.pwrMod w).lowFrom (s.pwrMod w).lowSum
def State.upTimeAll (s : State) : Nat := upTicks s.win.tb s.pwr.lowFrom s.pwr.lowSum

/-- Follow the time below 0.70 V after a module's setpoint or rails have changed. -/
def markLow (w : Nat) (s : State) : State :=
  let p := s.pwrMod w
  let now := s.win.tb.toNat
  let on := p.obj.st == .on && s.paused w
  if !on && p.lowFrom == 0 then s
  else
  let s1 := s.setPwrMod w { p with
    lowFrom := if on then (if p.lowFrom = 0 then now + 1 else p.lowFrom) else 0
    lowSum := if !on && p.lowFrom != 0 then p.lowSum + (now - (p.lowFrom - 1)) else p.lowSum }
  let all := s1.anyPaused
  let q := s1.pwr
  { s1 with pwr := { q with
    lowFrom := if all then (if q.lowFrom = 0 then now + 1 else q.lowFrom) else 0
    lowSum := if !all && q.lowFrom != 0 then q.lowSum + (now - (q.lowFrom - 1)) else q.lowSum } }

/-- Isle key of module, die, isle. -/
def isleKey (w die isle : Nat) : Nat := (w * 4 + die) * 4 + isle

/-- Built position of a logical core (R553). -/
def Isle.posOf (i : Isle) (c : Nat) : Nat := tget c c i.pos

/-- Core key of a logical core of an isle. -/
def State.coreKey (s : State) (g c : Nat) : Nat := g * 17 + (s.isle g).posOf c

/-- Apply a change at every key of a list. -/
def forEach {α : Type} (l : List α) (f : α → State → State) (s : State) : State := l.foldl (fun a x => f x a) s

/-- The 16, 64 and 4,096 indices of tenants, partitions and rings. -/
def allTens : List Nat := List.range 16
def allParts : List Nat := List.range 64

/-- The rings that hold anything but their reset values, in increasing number. A ring not listed is OFF and has
never been written. -/
def State.ringIds (s : State) : List Nat := s.rings.map (·.1)

/-- The partitions that are not at their reset values. -/
def State.partIds (s : State) : List Nat := s.parts.map (·.1)

/-- The tenants not at their reset values. -/
def State.tenIds (s : State) : List Nat := s.tens.map (·.1)

/-! ### The log (R670–R672) and stored items (R589, R198) -/

/-- A steward channel is up: healthy or in path alarm (R654). -/
def Stew.up (c : Stew) : Bool := c.st == 1 || c.st == 2

/-- MACH_STEWARD.MAJORITY (R659). -/
def State.majority (s : State) : Bool := decide (2 ≤ (([0, 1, 2].filter (fun c => (s.stew c).up)).length))

/-- Add a record to a copy, which holds at most 4,194,304 (R670). -/
def addCopy (r : LogRec) (l : List LogRec) : List LogRec := (l ++ [r]).drop ((l.length + 1) - 4194304)

/-- A channel takes a record: into its copy, or among its deferred records while sag defers non-volatile writes (R589). -/
def takeRec (c : Nat) (r : LogRec) (s : State) : State :=
  let x := s.stew c
  if !x.copyOk then s
  else if s.pwr.sag = 0 && x.deferred.isEmpty then s.setStew c { x with copy := addCopy r x.copy }
  else if x.deferred.length < 4096 then s.setStew c { x with deferred := x.deferred ++ [r] }
  else { s.setStew c { x with gap := x.gap + 1 } with pwr := { s.pwr with dropped := satInc s.pwr.dropped } }

/-- A record enters the RAM ring, kept while the log is unavailable (R672). -/
def addRam (r : LogRec) (s : State) : State :=
  let l := s.stw.ram ++ [r]
  { s with stw := { s.stw with ram := l.drop (l.length - 4096), ramLost := s.stw.ramLost + (l.length - 4096) } }

/-- The channel that originates a record: the spokesman, or the first that is up (R670). -/
def State.logChan (s : State) : Option Nat :=
  if s.stw.spokes < 3 && (s.stew s.stw.spokes).up then some s.stw.spokes else [0, 1, 2].find? (fun c => (s.stew c).up)

/-- Originate a log record (R670): the channel numbers it, takes it and sends it to the others. -/
def logAdd (cls code place : Nat) (arg0 : DWord) (arg1 : Word) (data : List Nat) (s : State) : State :=
  match s.logChan with
  | none => s
  | some c =>
    let x := s.stew c
    let r : LogRec := { tb := s.win.tb, lsn := x.lsn + 1, chan := c, cls := cls, code := code, place := place,
                        arg0 := arg0, arg1 := arg1, data := data }
    let s1 := s.setStew c { x with lsn := x.lsn + 1 }
    if s.stw.unavail then addRam r s1
    else
      ([0, 1, 2].filter (fun d => d != c)).foldl
        (fun a d => a.setStew d { a.stew d with inbox := (a.stew d).inbox ++ [r] }) (takeRec c r s1)

/-- The LOG_UNAVAILABLE record of a last-words register (R672, R673). -/
def lastWord (s : State) (lost : Nat) : LogRec :=
  { tb := s.win.tb, lsn := 0, chan := s.logChan.getD 0, cls := 0, code := 0x0606, place := 0, arg0 := 0, arg1 := w32 lost, data := [] }

/-- Every warden's last-words register is written, with a record that none has reported (R673). -/
def writeWords (lost : Nat) (s : State) : State :=
  { s with stw := { s.stw with
      words := (List.range 18).foldl (fun a t => tset none t (some (lastWord s lost)) a) s.stw.words, wordsTold := [] } }

/-- A stored configuration item takes its new value in the store, or waits for the end of sag (R198, R589). -/
def storeItem (off : Nat) (v : Word) (s : State) : State :=
  if s.pwr.sag = 0 then { s with store := tset none off (some v) s.store
                                 pwr := { s.pwr with items := tset none off none s.pwr.items } }
  else { s with pwr := { s.pwr with items := tset none off (some v) s.pwr.items } }

/-! ### Ignored accesses (R182) -/

/-- Count an illegal access and describe it (R182, Tables 5-2, 5-7). `bar` is false for BAR0. -/
def ignoreAcc (cause port fn : Nat) (wr : Bool) (off : Nat) (bar : Bool) (s : State) : State :=
  { s with win := { s.win with
      ignored := satInc s.win.ignored
      ignLast := w32 (cause + port * 16 + fn * 256 + (b2n wr) * 4096)
      ignAddr := w32 (off + (b2n bar) * 2 ^ 31) } }

/-- An illegal write of a set-up register (R180, R182): PF0, BAR0. -/
def illegal (cause port off : Nat) (s : State) : State := ignoreAcc cause port 0 true off false s

/-- How a write of a set-up register is judged: the cause of Table 5-2 under which it is ignored, or the state it
gives (R180). -/
abbrev Verdict := Except Nat State

/-- Record a set-up write in the steward log, class 1, with the host port it came through, its offset, its value and the
effective value, which is the value itself but for the registers of `regOpEff` (R177, Table 18-3). -/
def setupNote (port off val : Nat) (s : State) : State := logAdd 1 0 0 0 0 [port, off, val, val] s

/-- Accesses of the hosts take effect: with power, and not while a restart runs, when the portal trays' logic is down and no
completion is returned (R660, R802). -/
def State.takesWrites (s : State) : Bool := s.boot.powered && !s.boot.again

/-- A write of a set-up register takes effect as judged: an illegal one is counted (R182), a legal one is recorded (R177). -/
def regOp (port off val : Nat) (v : Verdict) (s : State) : State :=
  if s.takesWrites then
    match v with
    | .ok s' => setupNote port off val s'
    | .error c => illegal c port off s
  else s

/-- The same for a register whose write leaves an effective value of its own, which the record carries: caps, orders and
strap overrides (R585, R190, Table 18-3). -/
def regOpEff (port off val : Nat) (eff : State → Nat) (v : Verdict) (s : State) : State :=
  if s.takesWrites then
    match v with
    | .ok s' => logAdd 1 0 0 0 0 [port, off, val, eff s'] s'
    | .error c => illegal c port off s
  else s

/-! ### Life cycle (R184, R185) -/

/-- ON, WINDING or PENDING. -/
def Obj.busy (o : Obj) : Bool := o.st != .off || o.pending

/-- Parent judgement (R187): the parent is ON, or WINDING and PENDING. -/
def Obj.parentOk (o : Obj) : Bool := o.st == .on || (o.st == .winding && o.pending)

/-- STATE and PENDING as bits [2:0] (Table 5-3). -/
def Obj.bits (o : Obj) : Nat :=
  (match o.st with | .off => 0 | .on => 1 | .winding => 2) + 4 * b2n o.pending

/-- A tray's strap fields are known: its warden has read them, and they are of its position's type (R188, R190). -/
def State.strapped (s : State) (t : Nat) : Bool := (s.tray t).strapsRead && !(s.tray t).mismatch

/-- The effective FABMODE: true is 16 × 6 (R190). -/
def State.effFab (s : State) : Bool :=
  if bit s.win.strapOvr 0 then bit s.win.strapOvr 1 else s.strapped 17 && (s.tray 17).fabMode

/-- The effective PRESET (R190). -/
def State.effPreset (s : State) : Nat :=
  if bit s.win.strapOvr 4 then Fld s.win.strapOvr 5 3 else if s.strapped 17 then (s.tray 17).preset.toNat else 0

/-- The effective CTLHOST, the control host's port: 0 where tray 12 cannot give it (R190). -/
def State.ctlPort (s : State) : Nat :=
  if bit s.win.strapOvr 8 then Fld s.win.strapOvr 12 4 else if s.strapped 12 then (s.tray 12).ctlHost else 0

/-! ### Host functions -/

/-- The tray that carries a host port (Table 22-1). -/
def portTray (port : Nat) : Nat := 12 + port / 8

/-- A tray's pages answer (R786). -/
def State.trayAnswers (s : State) (t : Nat) : Bool :=
  let y := s.tray t
  (y.svc == .inService || y.svc == .preparing || y.svc == .joining) && y.contactor

/-- The portal bridge of a port is ready (R208, R788). -/
def State.bridgeReady (s : State) (port : Nat) : Bool := s.trayAnswers (portTray port)

/-- The function exists (R208). -/
def State.fnExists (s : State) (port fn : Nat) : Bool :=
  if fn = 0 then s.bridgeReady port
  else (s.port port).vfEn && decide (fn ≤ (s.port port).numVfs.toNat)

/-- The function can take requests: its port's link is up and its Bus Master Enable is 1 (R205, R263). -/
def State.fnCan (s : State) (port fn : Nat) : Bool :=
  (s.port port).up && s.bridgeReady port && (s.fnc port fn).bme && s.fnExists port fn

/-- Port and function of a tenant's sampled binding. -/
def Ten.bPort (t : Ten) : Nat := bitsAt t.bound.toNat 0 4
def Ten.bFn (t : Ten) : Nat := bitsAt t.bound.toNat 4 4

/-- A tenant bound to a function: ON, WINDING or PENDING (R208). -/
def State.boundTen (s : State) (port fn : Nat) : Option Nat :=
  s.tenIds.find? (fun n => (s.ten n).obj.busy && (s.ten n).bPort == port && (s.ten n).bFn == fn)

/-- A tenant's function can take its requests (R205). -/
def State.tenCan (s : State) (n : Nat) : Bool := s.fnCan (s.ten n).bPort (s.ten n).bFn

/-- Record something issued to the outside. -/
def emit (o : Out) (s : State) : State := { s with out := s.out ++ [o] }

/-! ### Management (R661, R663, R666) -/

/-- A session is used: its idle time starts again (R661). -/
def touchSession (session : Nat) (s : State) : State :=
  { s with stw := { s.stw with
      sessions := s.stw.sessions.map (fun x => if x.id = session then { x with tick := s.win.tb } else x) } }

/-- An answer of the Redfish service through a session (R661): 503 while the stewards have no majority. -/
def rfAnswer (session code : Nat) (body : List Nat) (s : State) : State :=
  emit (.answer session code body) (touchSession session s)

/-- An answer to management: an HTTP status, or the console's reply (R659, R663, R666). -/
def answerM (m : Mgmt) (http con : Nat) (body : List Nat) (s : State) : State :=
  match m with
  | .redfish n => rfAnswer n http body s
  | .console a => emit (.answer (2 ^ 32 + a) con body) s

/-- The source of a management order, for its log record (Table 18-3). -/
def mgmtNum : Mgmt → Nat
  | .redfish n => n
  | .console a => a

/-- The role of whoever gives a management order: 2 Administrator (R661). -/
def State.mgmtRole (s : State) : Mgmt → Option Nat
  | .redfish n => (s.stw.sessions.find? (fun x => x.id == n)).map Session.role
  | .console a => (s.stw.accounts.find? (fun x => x.1 == a)).map (fun x => x.2.2)

/-- An order by its register, by a Redfish action or on the console, judged by the register's rule (R659, R663). -/
def bySource (src : Source) (off val : Nat) (v : Verdict) (s : State) : State :=
  match src with
  | .window p => regOp p.toNat off val v s
  | .mgmt m =>
    if !s.majority then answerM m 503 2 [] s
    else match v with
      | .ok s' => answerM m 200 0 [] (logAdd 1 0 17 0 0 [mgmtNum m, off, val, val] s')
      | .error _ => answerM m 400 1 [] s

/-- A posted write through a tenant's function (R205). -/
def tenWrite (n : Nat) (addr : DWord) (bytes : List Byte) (s : State) : State :=
  emit (.hostWrite (s.ten n).bPort (s.ten n).bFn addr bytes) s

/-- Cut `len` bytes at `a` into requests of at most `big` bytes that cross no multiple of `gran` (R333). -/
def cuts (big gran : Nat) : Nat → Nat → Nat → List (Nat × Nat)
  | 0, _, _ => []
  | k + 1, a, len =>
    if len = 0 then []
    else
      let n := min len (min big (gran - a % gran))
      (a, n) :: cuts big gran k (a + n) (len - n)

/-- The requests of a run (R333). -/
def cutRun (big gran a len : Nat) : List (Nat × Nat) := cuts big gran (len + 1) a len

/-- Max Read Request Size and Max Payload Size in bytes (R788). -/
def Fn.mrrsB (f : Fn) : Nat := 128 * 2 ^ f.mrrs.toNat
def Fn.mpsB (f : Fn) : Nat := 128 * 2 ^ f.mps.toNat

/-- The requests of one host read: at most Max Read Request Size and the 256 bytes of one turn at the portal bridge,
crossing no 4 KiB boundary (R206, R247, R251, R333). -/
def State.readReqs (s : State) (port fn : Nat) (addr : DWord) (len : Nat) : List Out :=
  (cutRun (min 256 (s.fnc port fn).mrrsB) 4096 addr.toNat len).map (fun p => .hostRead port fn (w64 p.1) p.2)

/-- Put requests out in order. -/
def emitAll (l : List Out) (s : State) : State := { s with out := s.out ++ l }

/-- Put the requests of one host read out through a function. -/
def emitRead (port fn : Nat) (addr : DWord) (len : Nat) (s : State) : State := emitAll (s.readReqs port fn addr len) s

/-- Issue a host read for a tenant, or keep it waiting until its function can take it (R205). -/
def tenRead (n : Nat) (addr : DWord) (len : Nat) (pu : RdPurpose) (s : State) : State :=
  let t := s.ten n
  let can := s.tenCan n
  let rd : HRead :=
    { tenant := some n, port := t.bPort, fn := t.bFn, addr := addr, len := len, purpose := pu, sent := can, tick := s.win.tb }
  let s1 := { s with reads := tset none s.nextRead (some rd) s.reads, nextRead := s.nextRead + 1 }
  if can then emitRead t.bPort t.bFn addr len s1 else s1

/-- Host reads of a tenant still outstanding. -/
def State.readsOf (s : State) (n : Nat) : List (Nat × HRead) :=
  s.reads.filterMap (fun p => p.2.bind (fun r => if r.tenant = some n then some (p.1, r) else none))

/-- Drop outstanding reads that meet a test. -/
def dropReads (q : HRead → Bool) (s : State) : State :=
  { s with reads := s.reads.filter (fun p => match p.2 with | some r => !q r | none => false) }

/-- An ON or WINDING tenant is bound to a function: the machine issues requests for no other (R205). -/
def State.fnBound (s : State) (port fn : Nat) : Bool :=
  s.tenIds.any (fun n => (s.ten n).obj.st != .off && (s.ten n).bPort == port && (s.ten n).bFn == fn)

/-- The machine's own requests can go out through PF0 of the control host's port (R205, R331, R525). -/
def State.ctlCan (s : State) : Bool := s.fnCan s.ctlPort 0 && s.fnBound s.ctlPort 0

/-- A read waits at a function that can take it. -/
def State.readWaits (s : State) (port fn : Nat) (h : Option HRead) : Bool :=
  h.elim false (fun r => r.port == port && r.fn == fn && !r.sent) && s.fnCan port fn && s.fnBound port fn

/-- Requests of several functions in turn, one each (R206). -/
def inTurn : Nat → List (List Out) → List Out
  | 0, _ => []
  | k + 1, ls =>
    let l := ls.filter (fun x => !x.isEmpty)
    if l.isEmpty then [] else l.filterMap List.head? ++ inTurn k (l.map (List.drop 1))

/-- Send the waiting reads of some functions of a port, in increasing function number, that can now take them: the bridge
serves the functions in turn, one request each (R205, R206). -/
def sendFns (port : Nat) (fns : List Nat) (s : State) : State :=
  let reqs := fns.map (fun fn => ((s.reads.filter (fun p => s.readWaits port fn p.2)).map (fun p =>
    p.2.elim [] (fun r => s.readReqs port fn r.addr r.len))).flatten)
  let sent := s.reads.map (fun p =>
    if fns.any (fun fn => s.readWaits port fn p.2) then (p.1, p.2.map (fun r => { r with sent := true, tick := s.win.tb })) else p)
  emitAll (inTurn ((reqs.map List.length).sum + 1) reqs) { s with reads := sent }

/-- Send the waiting reads of a function that can now take them (R205). -/
def sendWaiting (port fn : Nat) (s : State) : State := sendFns port [fn] s

/-! ### Events (R259–R263) -/

/-- The bytes of an event with its SEQ (Table 7-5). -/
def Event.bytes (e : Event) (seq : Word) : List Byte :=
  toLE 2 e.code.toNat ++
  toLE 1 (e.tenant.toNat + 16 * b2n e.machine) ++
  toLE 1 ((e.part.elim 0 (fun p => p.toNat + 64)) + (if e.ring.isSome then 128 else 0)) ++
  toLE 2 (e.ring.elim 0 (·.toNat)) ++ toLE 2 e.detail.toNat ++ toLE 8 e.tb.toNat ++ toLE 8 e.arg0.toNat ++
  toLE 4 e.arg1.toNat ++ toLE 4 seq.toNat

/-- Write an event to a tenant's event ring: two posted writes in order, bytes 0–27 then the SEQ (R259, R260). -/
def writeEvent (n : Nat) (e : Event) (s : State) : State :=
  let t := s.ten n
  let a := w64 (t.evtS.toNat + (t.evtK.toNat % 2 ^ t.evtSizeS.toNat) * 32)
  let b := e.bytes t.nextSeq
  let s1 := tenWrite n (a + 28) (b.drop 28) (tenWrite n a (b.take 28) s)
  s1.setTen n { t with
    evtK := t.evtK + 1
    nextSeq := if t.nextSeq = BitVec.allOnes 32 then 1 else t.nextSeq + 1
    evtWritten := t.evtWritten + 1 }

/-- Hold an event for a tenant, or drop and count it when the 64 places are taken (R263). -/
def holdEvent (n : Nat) (e : Event) (s : State) : State :=
  let t := s.ten n
  if t.held.length < 64 then s.setTen n { t with held := t.held ++ [e] }
  else s.setTen n { t with evtLost := satInc t.evtLost, heldLost := satInc t.heldLost }

/-- Deliver an event to a tenant (R259, R263): written, held behind those held and the EVT_LOST they are owed, or counted
lost for a tenant that is OFF. -/
def deliver (n : Nat) (e : Event) (s : State) : State :=
  let t := s.ten n
  if t.obj.st = .off then s.setTen n { t with evtLost := satInc t.evtLost }
  else if s.tenCan n && t.held.isEmpty && t.heldLost == 0 then writeEvent n e s
  else holdEvent n e s

/-- An instance of a component is restarting or loading on a switched image (R756); components as Table 21-1 codes them. -/
def State.reloading (s : State) (comp i : Nat) : Bool := s.upd.inst.any (fun x => x.1 == comp * 128 + i)

/-- A stored item's value in the configuration store, or its delivered one (R198, R782). -/
def State.stored (s : State) (off : Nat) (d : Word) : Word := (tget none off s.store).getD d

end Sys2Proof.Machine
end

