-- ==== Sys2Proof/Machine/Topo.lean ====
section
/-! DEFINITION. The places of the fabric: module positions, the four shapes and their maps (Tables 10-2 to 10-4), boxes
and module indices (R211, R214, R364), attached trays (Table 10-6), link indices (R408) and where each link leads. -/

namespace Sys2Proof.Machine

/-- Physical position (x, y, P) of MOD window w (section 10.2). -/
def physX (w : Nat) : Nat := w % 4
def physY (w : Nat) : Nat := 2 * (w / 8 % 2) + w % 8 / 4
def physP (w : Nat) : Nat := w / 16

/-- MOD window of physical (x, y, P). -/
def winOf (x y p : Nat) : Nat := (2 * p + y / 2) * 8 + 4 * (y % 2) + x

/-- Table 10-4 codes. -/
def Shape.code : Shape → Nat
  | .s446 => 0 | .s483 => 1 | .s843 => 2 | .s166 => 3

def shapeOf : Nat → Shape
  | 0 => .s446 | 1 => .s483 | 2 => .s843 | _ => .s166

def Shape.is3D : Shape → Bool
  | .s166 => false | _ => true

/-- Axis lengths (R362): axes 0 x or first, 1 y, 2 z or second. -/
def axisLen (sh : Shape) (a : Nat) : Nat :=
  match sh, a with
  | .s446, 0 => 4 | .s446, 1 => 4 | .s446, _ => 6
  | .s483, 0 => 4 | .s483, 1 => 8 | .s483, _ => 3
  | .s843, 0 => 8 | .s843, 1 => 4 | .s843, _ => 3
  | .s166, 0 => 16 | .s166, 1 => 1 | .s166, _ => 6

/-- Coordinates of a module in a shape (Table 10-4). -/
def coordOf (sh : Shape) (w : Nat) : Coord :=
  let x := physX w
  let y := physY w
  let p := physP w
  match sh with
  | .s446 => ⟨x, y, p⟩
  | .s483 => ⟨x, y + 4 * (p % 2), p / 2⟩
  | .s843 => ⟨x + 4 * (p % 2), y, p / 2⟩
  | .s166 => ⟨4 * y + x, 0, p⟩

/-- The module at coordinates of a shape (Table 10-4), where they name one. -/
def winAt (sh : Shape) (c : Coord) : Option Nat :=
  if c.x < axisLen sh 0 ∧ c.y < axisLen sh 1 ∧ c.z < axisLen sh 2 then
    match sh with
    | .s446 => some (winOf c.x c.y c.z)
    | .s483 => some (winOf c.x (c.y % 4) (2 * c.z + c.y / 4))
    | .s843 => some (winOf (c.x % 4) c.y (2 * c.z + c.x / 4))
    | .s166 => some (winOf (c.x % 4) (c.x / 4) c.z)
  else none

/-- One coordinate. -/
def Coord.at (c : Coord) (a : Nat) : Nat := if a = 0 then c.x else if a = 1 then c.y else c.z

/-- A box read from PART_p_BOX (Table 6-2). -/
def boxOf (v : Word) : Box :=
  { x0 := Fld v 0 4, y0 := Fld v 4 4, z0 := Fld v 8 3, ex := Fld v 11 5, ey := Fld v 16 4, ez := Fld v 20 3 }

/-- OWNER of PART_p_BOX. -/
def boxOwner (v : Word) : Nat := Fld v 24 4

/-- PART_p_BOX from a box and an owner. -/
def boxWord (b : Box) (owner : Nat) : Word :=
  w32 (b.x0 + b.y0 * 2 ^ 4 + b.z0 * 2 ^ 8 + b.ex * 2 ^ 11 + b.ey * 2 ^ 16 + b.ez * 2 ^ 20 + owner * 2 ^ 24)

/-- A legal box in a shape (R211). -/
def Box.legal (sh : Shape) (b : Box) : Bool :=
  decide (1 ≤ b.ex ∧ 1 ≤ b.ey ∧ 1 ≤ b.ez) &&
  decide (b.x0 + b.ex ≤ axisLen sh 0 ∧ b.y0 + b.ey ≤ axisLen sh 1 ∧ b.z0 + b.ez ≤ axisLen sh 2) &&
  (sh != .s166 || (b.y0 == 0 && b.ey == 1))

/-- Modules in the box. -/
def Box.size (b : Box) : Nat := b.ex * b.ey * b.ez

/-- Coordinates of module index m (R214). -/
def Box.coord (b : Box) (m : Nat) : Coord :=
  ⟨b.x0 + m % b.ex, b.y0 + m / b.ex % b.ey, b.z0 + m / (b.ex * b.ey)⟩

/-- The modules of a box by module index (R214). -/
def Box.mods (sh : Shape) (b : Box) : List Nat := (List.range b.size).filterMap (fun m => winAt sh (b.coord m))

/-- Extent and origin on an axis. -/
def Box.ext (b : Box) (a : Nat) : Nat := if a = 0 then b.ex else if a = 1 then b.ey else b.ez
def Box.org (b : Box) (a : Nat) : Nat := if a = 0 then b.x0 else if a = 1 then b.y0 else b.z0

/-- The box spans an axis fully (R213). -/
def Box.spans (sh : Shape) (b : Box) (a : Nat) : Bool := b.ext a == axisLen sh a

/-- The box a set of modules forms under the map, each keeping its module index (R364). -/
def formsBox (sh : Shape) (mods : List Nat) : Option Box :=
  let cs := mods.map (coordOf sh)
  match cs with
  | [] => none
  | c :: t =>
    let mn := fun a => t.foldl (fun v d => min v (d.at a)) (c.at a)
    let mx := fun a => t.foldl (fun v d => max v (d.at a)) (c.at a)
    let b : Box := { x0 := mn 0, y0 := mn 1, z0 := mn 2, ex := mx 0 - mn 0 + 1, ey := mx 1 - mn 1 + 1, ez := mx 2 - mn 2 + 1 }
    if b.legal sh && b.mods sh == mods then some b else none

/-! ### Attached trays -/

/-- Splice columns of an attached tray (Table 10-6), first then second, as physical (x, y). -/
def splices (t : Nat) : List (Nat × Nat) :=
  match t with
  | 12 => [(0, 0), (2, 2)]
  | 13 => [(1, 1), (3, 3)]
  | 14 => [(0, 2), (2, 0)]
  | 15 => [(1, 3), (3, 1)]
  | _ => []

/-- The tray spliced at a physical column, with the splice's number. -/
def trayAtCol (x y : Nat) : Option (Nat × Nat) :=
  [12, 13, 14, 15].findSome? (fun t => ((splices t).findIdx? (fun c => c == (x, y))).map (fun i => (t, i)))

/-- The coordinates an attached tray answers at for splice column (x, y) (R370). -/
def trayCoord (sh : Shape) (x y : Nat) : Coord := if sh.is3D then ⟨x, y, 7⟩ else ⟨4 * y + x, 0, 7⟩

/-- The physical column an attached-tray address names (R370). -/
def trayCol (sh : Shape) (c : Coord) : Nat × Nat := if sh.is3D then (c.x, c.y) else (c.x % 4, c.x / 4)

/-- The attached tray is part of the fabric: in its slot, powered (R372), and not spliced out by PREPARE (R703). -/
def State.trayLive (s : State) (t : Nat) : Bool :=
  let y := s.tray t
  y.svc == .inService && y.contactor

/-- Move coordinates from one shape to another (R392). -/
def translate (from_ to_ : Shape) (c : Coord) : Coord :=
  if c.z = 7 then let xy := trayCol from_ c; trayCoord to_ xy.1 xy.2
  else match winAt from_ c with
  | some w => coordOf to_ w
  | none => c

/-- The node coordinates name (R390). -/
def nodeAt (sh : Shape) (c : Coord) : Option Node :=
  if c.z = 7 then let xy := trayCol sh c; (trayAtCol xy.1 xy.2).map (fun p => .tray p.1)
  else (winAt sh c).map .mod

/-! ### Links (R408, Tables 10-2, 10-3) -/

/-- Selector positions in force (Table 10-4): HOME 0, PAIR 1, SNAKE 2. -/
def rowSel : Shape → Nat
  | .s843 => 1 | .s166 => 2 | _ => 0
def wrapSel : Shape → Nat
  | .s483 => 1 | _ => 0

/-- The cable a port uses in the shape in force, as the key of the link table: seam ports have one per position
(R361, R407). -/
def linkKey (sh : Shape) (l : Nat) : Nat :=
  if l < 768 then
    let w := l / 8
    let q := l % 8
    if (q = 1 ∧ physX w = 3) ∨ (q = 0 ∧ physX w = 0) then l + 800 * rowSel sh
    else if (q = 3 ∧ physY w = 3) ∨ (q = 2 ∧ physY w = 0) then l + 800 * wrapSel sh
    else l
  else l

/-- The ports in use in a shape (R408: a healthy unused port reads STATE 0). -/
def linkUsed (sh : Shape) (l : Nat) : Bool :=
  if l < 768 then
    let q := l % 8
    if q < 2 then true else if q < 4 then sh != .s166 else if q < 6 then sh.is3D else sh == .s166
  else (if l % 8 < 4 then sh.is3D else sh == .s166)

/-- What a module port leads to in a shape: the far node and its port's link index. -/
def farEnd (s : State) (w q : Nat) : Option (Node × Nat) :=
  let sh := s.sh.shape
  let x := physX w
  let y := physY w
  let p := physP w
  let to_ := fun x' y' p' q' => some (Node.mod (winOf x' y' p'), winOf x' y' p' * 8 + q')
  -- a wrap hop through an attached tray: its end numbers k (R369)
  let spl := fun (base : Nat) (high : Bool) (direct : Option (Node × Nat)) =>
    match trayAtCol x y with
    | some (t, i) =>
      if s.trayLive t then some (Node.tray t, 768 + (t - 12) * 8 + base + 2 * i + (if high then 0 else 1))
      else direct
    | none => direct
  match q with
  | 0 => if x = 0 then
      match rowSel sh with
      | 0 => to_ 3 y p 1
      | 1 => to_ 3 y (p ^^^ 1) 1
      | _ => to_ 3 ((y + 3) % 4) p 1
    else to_ (x - 1) y p 1
  | 1 => if x = 3 then
      match rowSel sh with
      | 0 => to_ 0 y p 0
      | 1 => to_ 0 y (p ^^^ 1) 0
      | _ => to_ 0 ((y + 1) % 4) p 0
    else to_ (x + 1) y p 0
  | 2 => if y = 0 then to_ x 3 (if wrapSel sh = 1 then p ^^^ 1 else p) 3 else to_ x (y - 1) p 3
  | 3 => if y = 3 then to_ x 0 (if wrapSel sh = 1 then p ^^^ 1 else p) 2 else to_ x (y + 1) p 2
  | 4 =>
    match sh with
    | .s446 => if p = 0 then spl 0 false (to_ x y 5 5) else to_ x y (p - 1) 5
    | .s166 => none
    | _ => if p = 0 then spl 0 false (to_ x y 4 5) else to_ x y ((p + 4) % 6) 5
  | 5 =>
    match sh with
    | .s446 => if p = 5 then spl 0 true (to_ x y 0 4) else to_ x y (p + 1) 4
    | .s166 => none
    | _ => if p = 4 then spl 0 true (to_ x y 0 4) else to_ x y ((p + 2) % 6) 4
  | 6 => if p = 0 then spl 4 false (if (trayAtCol x y).isSome then none else to_ x y 5 7) else to_ x y (p - 1) 7
  | _ => if p = 5 then spl 4 true (if (trayAtCol x y).isSome then none else to_ x y 0 6) else to_ x y (p + 1) 6

/-- The module port that leads along an axis (R362): axis 2 is Z in a 3D shape and F in 16 × 6. -/
def axisPort (sh : Shape) (a : Nat) (pos : Bool) : Nat :=
  let b := if a = 0 then 0 else if a = 1 then 2 else if sh.is3D then 4 else 6
  if pos then b + 1 else b

/-- The far side of an attached tray: leaving it along the wrap link in a direction (R369, R399). -/
def trayExit (s : State) (t i : Nat) (pos : Bool) : Option (Node × Nat × Nat) :=
  let sh := s.sh.shape
  match (splices t)[i]? with
  | none => none
  | some (x, y) =>
    let k := (if sh.is3D then 0 else 4) + 2 * i + (if pos then 1 else 0)
    let hi := match sh with | .s446 => 5 | .s166 => 5 | _ => 4
    let w := winOf x y (if pos then 0 else hi)
    let q := if sh.is3D then (if pos then 4 else 5) else (if pos then 6 else 7)
    some (Node.mod w, 768 + (t - 12) * 8 + k, w * 8 + q)

/-! ### Circuits of the Sound (R363, R366–R369) -/

/-- The plane at the high end of the wrap circuit with a splice in a 3D shape (R369). -/
def hiPlane (sh : Shape) : Nat := if sh == .s446 then 5 else 4

/-- The Sound port of a link's optical end (Table 10-5), or none. -/
def soundPort (l : Nat) : Option Nat :=
  if l < 768 then (if l % 8 = 5 then some (l / 8) else if l % 8 = 4 then some (96 + l / 8) else none)
  else if l % 8 < 4 then some (192 + (l - 768) / 8 * 4 + l % 8) else none

/-- The physical column 4y + x of the spliced wrap circuit that a link is, or is half of (R369). -/
def wrapCol (sh : Shape) (l : Nat) : Option Nat :=
  if l < 768 then
    let w := l / 8
    if sh.is3D && ((l % 8 == 5 && physP w == hiPlane sh) || (l % 8 == 4 && physP w == 0)) then some (4 * physY w + physX w) else none
  else if l % 8 < 4 then ((splices (12 + (l - 768) / 8))[l % 4 / 2]?).map (fun c => 4 * c.2 + c.1) else none

/-- The z ring of a Sound port's circuit in a 3D shape (R363, R366): its physical column, plus 16 for a ring of odd planes. -/
def State.ringOfPort (s : State) (sh : Shape) (p : Nat) : Nat :=
  if p < 192 then
    let w := p % 96
    4 * physY w + physX w + (if sh == .s446 then 0 else 16 * (physP w % 2))
  else if p < 208 then (((splices (12 + (p - 192) / 4))[p % 4 / 2]?).elim 0 (fun c => 4 * c.2 + c.1))
  else let v := (tget 0 ((p - 208) / 2) s.sh.ext).toNat; v / 4 % 4 * 4 + v % 4

/-- A link's circuit is being set (R367, R368, R372) or carries no light (R367). -/
def State.circuitDown (s : State) (l : Nat) : Bool :=
  match soundPort l with
  | none => false
  | some p =>
    let col := wrapCol s.sh.shape l
    (s.sh.setting && (s.sh.phase == .hold || col.elim false (fun c => s.sh.setCols.contains c))) ||
    s.sh.dark.contains p ||
    col.elim false (fun c => s.sh.extActive.any (fun e =>
      s.ringOfPort s.sh.shape (208 + 2 * e) == c && (s.sh.dark.contains (208 + 2 * e) || s.sh.dark.contains (209 + 2 * e))))

/-- A link is up for the router that has it (R407: its end routers stop using a failed link at once; R367). -/
def State.linkUp (s : State) (l : Nat) : Bool :=
  let k := s.link (linkKey s.sh.shape l)
  !(k.failed || k.fenced) && !(s.circuitDown l)

/-- The failed-link map shows a link whole (R407, R409). -/
def State.linkMapUp (s : State) (l : Nat) : Bool :=
  let k := s.link (linkKey s.sh.shape l)
  !((k.failed && k.inMap) || k.fenced) && !(s.circuitDown l)

/-- A module is present and in service. -/
def State.modServing (s : State) (w : Nat) : Bool := (s.mod w).state == 1

/-- The node takes part in the fabric. -/
def State.nodeLive (s : State) : Node → Bool
  | .mod w => s.modServing w
  | .tray t => s.trayLive t

end Sys2Proof.Machine
end

