-- ==== Sys2Proof/Machine/Mem.lean ====
section
/-! DEFINITION. Column memory behind the memory gates (R101, R215), poisoned units (R347, R697), late faults (R345,
R346) and posted writes to host memory. -/

namespace Sys2Proof.Machine

/-- On whose behalf an access is made: a command of a ring, or a diagnostic transfer (R341). -/
structure Who where
  tenant : Nat
  part : Nat
  ring : Nat
  seq : DWord
  /-- the diagnostic identity (R341); `ring` is then the channel's key -/
  diag : Bool := false
  /-- logical core the access leaves from -/
  core : Nat := 0
  deriving DecidableEq, Repr

/-- Column key of a partition address at module `w`: module, die, isle, offset. -/
def colKey (w pa : Nat) : Nat := w * 2 ^ 37 + pa % 2 ^ 37

/-- The module a partition address names (R214). -/
def modWin (mods : List Nat) (pa : Nat) : Nat := mods.getD (modOf pa) 0

/-- Column key of a partition address in a partition. -/
def paKey (mods : List Nat) (pa : Nat) : Nat := colKey (modWin mods pa) pa

/-- The gate of a module admits an access (R215). -/
def State.admits (s : State) (who : Who) (w : Nat) : Bool :=
  let m := s.mod w
  if who.diag then m.diagActive && m.keyDiag
  else m.bind == some (who.tenant, who.part) && m.keyTen.getLsbD who.tenant

/-- Count an access a gate refuses (R215). -/
def countRefused (w : Nat) (s : State) : State :=
  match (s.mod w).bind with
  | some (_, p) => s.setPart p { s.part p with gateDrop := satInc (s.part p).gateDrop }
  | none => { s with fab := { s.fab with stray := satInc s.fab.stray } }

/-- The 64-byte units a run of bytes touches. -/
def unitsOf (key len : Nat) : List Nat :=
  if len = 0 then [] else (List.range ((key + len - 1) / 64 - key / 64 + 1)).map (· + key / 64)

/-! ### Encryption at the column gates (R104, R216) -/

/-- The 512-bit value of a key, by its name (R216). -/
def State.keyVal (s : State) (id : Nat) : List Nat :=
  ((tget none id s.keyBank).getD (Config.madeKey id)).map BitVec.toNat

/-- The name of the key a data unit is written under: its own, or that of its module's last zeroing. -/
def State.unitKey (s : State) (u : Nat) : Nat := (tget none u s.unitKeys).getD (s.mod (u / 2 ^ 31)).colKey

/-- The tweak of a data unit (R216): unit index in its column, logical column slot, isle, die and MOD window. The unit's
number is its key ÷ 64: offset bits [32:6], isle, die, module (R101). -/
def unitTweak (u : Nat) : Nat :=
  let off := u % 2 ^ 27
  (off % 4 + off / 64 * 4) + off / 4 % 16 * 2 ^ 23 + u / 2 ^ 27 % 4 * 2 ^ 27 + u / 2 ^ 29 % 4 * 2 ^ 29 + u / 2 ^ 31 % 128 * 2 ^ 31

/-- The 64 bytes a gate's cipher makes of a unit last written under one key and read under another: what is stored is the
encryption under the first, and the read decrypts it under the second; with no key the array is taken as it is. -/
def State.recipher (s : State) (was now u : Nat) (plain : List Byte) : List Byte :=
  if was = now then plain
  else
    let p := plain.map BitVec.toNat
    let c := if was = 0 then p else xtsEnc (s.keyVal was) (unitTweak u) p
    (if now = 0 then c else xtsDec (s.keyVal now) (unitTweak u) c).map (BitVec.ofNat 8)

/-- A byte of column memory as it reads under a key. -/
def State.colByte (s : State) (k key : Nat) : Byte :=
  let u := key / 64
  let was := s.unitKey u
  if was = k then tget 0 key s.cols
  else (s.recipher was k u (bytesAt s.cols (u * 64) 64)).getD (key % 64) 0

/-- Bytes of column memory as they read under a key. -/
def State.colBytes (s : State) (k key : Nat) : Nat → List Byte
  | 0 => []
  | n + 1 => s.colByte k key :: State.colBytes s k (key + 1) n

/-- The key in a module's slot for an access: the diagnostic key, or the tenant's (R215, R341). -/
def State.slotKey (s : State) (w : Nat) (diag : Bool) (tenant : Nat) : Nat :=
  if diag then (s.mod w).diagKey else tget 0 tenant (s.mod w).slotKeys

/-- The key a module's own engines read and write under: that of the tenant it is bound to (R212). -/
def State.boundKey (s : State) (w : Nat) : Nat :=
  match (s.mod w).bind with
  | some (n, _) => s.slotKey w false n
  | none => 0

/-- A unit is made to stand under a key, its contents as they read under it: what a read, modify and write of part of it
leaves in the rest (R216). -/
def rekeyUnit (k u : Nat) (s : State) : State :=
  let was := s.unitKey u
  if was = k then s
  else { s with
    cols := putBytes s.cols (u * 64) (s.recipher was k u (bytesAt s.cols (u * 64) 64))
    unitKeys := tset none u (if k = (s.mod (u / 2 ^ 31)).colKey then none else some k) s.unitKeys }

/-- Write column bytes under a key (R216). -/
def putColumn (k key : Nat) (bytes : List Byte) (s : State) : State :=
  let s1 := (unitsOf key bytes.length).foldl (fun a u => rekeyUnit k u a) s
  { s1 with cols := putBytes s1.cols key bytes }

/-- A byte of column memory as an engine reads it: 0xFF in a poisoned unit (R697). -/
def State.engByte (s : State) (key : Nat) : Byte :=
  if (key / 64) ∈ s.badUnits then 0xFF else s.colByte (s.boundKey (key / 2 ^ 37)) key

/-- Bytes of partition memory as an engine reads them; a range may run on into the next canonical isle (R214). -/
def State.engBytes (s : State) (mods : List Nat) (pa : Nat) : Nat → List Byte
  | 0 => []
  | n + 1 => s.engByte (paKey mods pa) :: State.engBytes s mods (pa + 1) n

/-- The reader of a command's partition memory. -/
def State.rd (s : State) (mods : List Nat) : Nat → Nat → Nat := fun a n => leNat (s.engBytes mods a n)

/-! ### The command processors' own loads (R146, R303, R328) -/

/-- The gate of a column admits its module's own tenant (R215): the module is bound, and the tenant's key is in its slot. -/
def State.gateOpen (s : State) (w : Nat) : Bool :=
  match (s.mod w).bind with
  | some (n, _) => (s.mod w).keyTen.getLsbD n
  | none => false

/-- Bytes of partition memory as a command processor's load receives them: a gate that refuses returns zeros (R215). -/
def State.gateBytes (s : State) (mods : List Nat) (pa : Nat) : Nat → List Byte
  | 0 => []
  | n + 1 => (if s.gateOpen (modWin mods pa) then s.engByte (paKey mods pa) else 0) :: State.gateBytes s mods (pa + 1) n

/-- The reader of a command processor's load. -/
def State.gateRd (s : State) (mods : List Nat) : Nat → Nat → Nat := fun a n => leNat (s.gateBytes mods a n)

/-- The requests of a load that gates refuse are counted, each of at most 256 bytes (R215, R328, R333). -/
def countReads (mods : List Nat) (runs : List (Nat × Nat)) (s : State) : State :=
  runs.foldl (fun a r => (cutRun 256 256 r.1 r.2).foldl (fun b q =>
    let w := modWin mods q.1
    if b.gateOpen w then b else countRefused w b) a) s

/-- How a write ends at its gate. -/
inductive Landing where
  | landed
  /-- discarded by design, without fault (R348) -/
  | dropped
  /-- a late fault with its cause (Table 7-6) -/
  | fault (cause : Nat)
  deriving DecidableEq, Repr

/-- A unit the write covers only in part is poisoned (R347). -/
def State.partialBad (s : State) (key len : Nat) : Bool :=
  (unitsOf key len).any (fun u => decide (u ∈ s.badUnits) && !(decide (key ≤ u * 64) && decide (u * 64 + 64 ≤ key + len)))

/-- A write request at a module's gate: the module out of service gives cause 3, a closed gate discards, a refusal is
counted and gives cause 4, a part-write of an uncorrectable unit gives cause 2; otherwise the bytes are written and a unit
wholly covered reads normally again (R215, R345, R347, R348). -/
def gateWrite (who : Who) (w key : Nat) (bytes : List Byte) (s : State) : Landing × State :=
  if !(s.modServing w) then (.fault 3, s)
  else if (s.mod w).gateClosed && !who.diag then (.dropped, s)
  else if !(s.admits who w) then (.fault 4, countRefused w s)
  else if s.partialBad key bytes.length then (.fault 2, s)
  else
    let s1 := putColumn (s.slotKey w who.diag who.tenant) key bytes s
    (.landed, { s1 with badUnits := s1.badUnits.filter (fun u => !(List.contains (unitsOf key bytes.length) u)) })

/-- An event about a command (Table 7-6 and ch. 19): tenant, partition and ring set. -/
def cmdEvent (s : State) (who : Who) (code detail : Nat) (arg0 : DWord) (arg1 : Word) : Event :=
  { code := BitVec.ofNat 16 code, tenant := BitVec.ofNat 4 who.tenant, machine := false,
    part := some (BitVec.ofNat 6 who.part), ring := some (BitVec.ofNat 12 who.ring), detail := BitVec.ofNat 16 detail,
    tb := s.win.tb, arg0 := arg0, arg1 := arg1 }

/-- Raise a late fault (R346): the record to the tenant's event ring, RING_r_LATE, and the fault noted for SETTLE
(R290); in diagnostic mode it counts in the channel's LATE (R343). `home` is the module it comes from, where that is in
service (R348). -/
def lateFault (who : Who) (home : Option Nat) (cause len addr : Nat) (s : State) : State :=
  let here := home.filter (fun w => s.modServing w)
  if who.diag then let c := s.chan who.ring; s.setChan who.ring { c with late := satInc c.late }
  else
    let r := s.ring who.ring
    deliver who.tenant
      { cmdEvent s who 0x0201 (len + cause * 2 ^ 13) (w64 addr) (w32 (who.seq.toNat % 2 ^ 32)) with home := here }
      (s.setRing who.ring { r with late := satInc r.late, faults := r.faults ++ [who.seq] })

/-- Raise a source fault of a move transfer (R349); in diagnostic mode it counts in the channel's SRCF (R343). -/
def srcFault (who : Who) (cause len addr : Nat) (s : State) : State :=
  if who.diag then let c := s.chan who.ring; s.setChan who.ring { c with srcf := satInc c.srcf }
  else deliver who.tenant
    (cmdEvent s who 0x0202 (len + cause * 2 ^ 13) (w64 addr) (w32 (who.seq.toNat % 2 ^ 32))) s

/-- A posted write landing at a gate of the issuing die, or arriving there: a failure is reported (R345). -/
def landWrite (who : Who) (w key addr : Nat) (bytes : List Byte) (s : State) : Landing × State :=
  let r := gateWrite who w key bytes s
  match r.1 with
  | .fault c => (r.1, lateFault who (some w) c bytes.length addr r.2)
  | _ => r

/-- A posted write of a command to host memory: held while the function cannot take it (R263). `own` names the command
for SETTLE; a completion record has none (R288). -/
def hostPost (n : Nat) (own : Option (Nat × DWord)) (addr : DWord) (bytes : List Byte) (s : State) : State :=
  let t := s.ten n
  if s.tenCan n && t.heldW.isEmpty then tenWrite n addr bytes s
  else s.setTen n { t with heldW := t.heldW ++ [(own, addr, bytes)] }

/-- Join neighbouring writes into requests of at most 256 bytes that cross no 256-byte granule (R333; the same size is
taken for the other engines, log 12). -/
def joinWrites : List (Nat × List Byte) → List (Nat × List Byte)
  | [] => []
  | (a, b) :: t =>
    match joinWrites t with
    | (a', b') :: t' =>
      if a + b.length = a' ∧ a / 256 = (a' + b'.length - 1) / 256 then (a, b ++ b') :: t' else (a, b) :: (a', b') :: t'
    | [] => [(a, b)]

/-- Cut a run of bytes into requests of at most 256 bytes that cross no 256-byte granule (R333; log 12). -/
def chop (a : Nat) (bytes : List Byte) : List (Nat × List Byte) :=
  (cutRun 256 256 a bytes.length).map (fun p => (p.1, (bytes.drop (p.1 - a)).take p.2))

/-- Scratch bytes of a core; addresses are taken modulo 4 MiB (R96). -/
def State.scrBytes (s : State) (k a : Nat) : Nat → List Byte
  | 0 => []
  | n + 1 => tget 0 (a % 2 ^ 22) (s.core k).scratch :: State.scrBytes s k (a + 1) n

/-- Write scratch bytes; a whole-word write clears an uncorrectable word, a part write leaves it (R96, R126). -/
def putScratch : List Host.Cell → Nat → List Byte → List Host.Cell
  | m, _, [] => m
  | m, a, b :: t => putScratch (tset 0 (a % 2 ^ 22) b m) (a + 1) t

/-- The aligned 8-byte words a run of scratch bytes covers wholly; offsets wrap at 4 MiB (R96). -/
def wholeWord (a len i : Nat) : Bool := decide ((i * 8 + 2 ^ 22 - a % 2 ^ 22) % 2 ^ 22 + 8 ≤ len)

def State.writeScratch (s : State) (k a : Nat) (bytes : List Byte) : State :=
  let c := s.core k
  let bad := c.badWords.filter (fun i => !wholeWord a bytes.length i)
  -- a part write of an uncorrectable word leaves the word unchanged (R126)
  let parts := bytes.zipIdx.filter (fun p => !(bad.contains ((a + p.2) % 2 ^ 22 / 8)))
  s.setCore k { c with
    scratch := if bad.isEmpty then putScratch c.scratch a bytes
      else parts.foldl (fun m p => tset 0 ((a + p.2) % 2 ^ 22) p.1 m) c.scratch
    badWords := bad }

/-- Zero scratch and both accumulators of every core of a module (R99); uncorrectable words are replaced (R126). -/
def zeroScratch (w : Nat) (s : State) : State :=
  let z := fun (p : Nat × Core) =>
    if p.1 / (17 * 16) = w then (p.1, { p.2 with scratch := [], acc := [], ran := [], badWords := [] }) else p
  { s with cores := (s.cores.map z).filter (fun p => p.2 != {}) }

/-- Write zero to every column of a module under a key (Table 6-6 step 8, R223, R342); 0 writes the arrays directly. -/
def zeroColumns (k w : Nat) (s : State) : State :=
  let s1 := s.setMod w { s.mod w with colKey := k }
  { s1 with cols := zeroWhere (fun a => a / 2 ^ 37 == w) s1.cols
            unitKeys := s1.unitKeys.filter (fun u => u.1 / 2 ^ 31 != w)
            badUnits := s1.badUnits.filter (fun u => u / 2 ^ 31 != w) }

end Sys2Proof.Machine
end

