-- ==== Sys2Proof/Machine/Route.lean ====
section
/-! DEFINITION. Routing (R394–R399) and detours (R409–R411): where a packet goes next from the router that holds it. -/

namespace Sys2Proof.Machine

/-- One hop: the node it leads to, the sending port's link index and the receiving port's. -/
structure Hop where
  node : Node
  near : Nat
  far : Nat
  deriving DecidableEq, Repr

/-- The hop through module port `q`, or out of an attached tray along the wrap in direction `pos`. -/
def hopBy (s : State) (n : Node) (spl q : Nat) (pos : Bool) : Option Hop :=
  match n with
  | .mod w => (farEnd s w q).map (fun p => ⟨p.1, w * 8 + q, p.2⟩)
  | .tray t => (trayExit s t spl pos).map (fun p => ⟨p.1, p.2.1, p.2.2⟩)

/-- The splice of the tray a hop arrives at. -/
def Hop.spl (h : Hop) : Nat := h.far % 4 / 2

/-- The coordinate of a node on an axis: an attached tray has none. -/
def nodeCoord (sh : Shape) : Node → Option Coord
  | .mod w => some (coordOf sh w)
  | .tray _ => none

/-- A hop is whole in the failed-link map (R409): link and far position. -/
def State.hopWhole (s : State) (h : Hop) : Bool := s.linkMapUp h.near && s.linkMapUp h.far && s.nodeLive h.node

/-- The end of a packet's travel along an axis: its destination's coordinate, or the attached tray itself. -/
def reached (s : State) (p : Packet) (a : Nat) (n : Node) : Bool :=
  if a = 2 ∧ p.dst.z = 7 then nodeAt s.sh.shape p.dst == some n
  else (nodeCoord s.sh.shape n).elim false (fun c => c.at a == p.dst.at a)

/-- Walk along an axis to a packet's end on it over whole hops (R409); none when a hop is not whole. -/
def walkTo (s : State) (a : Nat) (pos : Bool) (p : Packet) : Nat → Node → Nat → Option Node
  | 0, _, _ => none
  | k + 1, n, spl =>
    if reached s p a n then some n
    else match hopBy s n spl (axisPort s.sh.shape a pos) pos with
    | none => none
    | some h => if s.hopWhole h then walkTo s a pos p k h.node h.spl else none

/-- Walk a number of module positions along an axis over whole hops. -/
def walkN (s : State) (a : Nat) (pos : Bool) : Nat → Nat → Node → Nat → Option Node
  | 0, _, _, _ => none
  | k + 1, cnt, n, spl =>
    if cnt = 0 ∧ (nodeCoord s.sh.shape n).isSome then some n
    else match hopBy s n spl (axisPort s.sh.shape a pos) pos with
    | none => none
    | some h =>
      if s.hopWhole h then
        walkN s a pos k (if (nodeCoord s.sh.shape h.node).isSome then cnt - 1 else cnt) h.node h.spl
      else none

/-- Whether traffic of a packet may wrap on an axis (R396). -/
def mayWrap (s : State) (p : Packet) (a : Nat) : Bool :=
  if p.src.z = 7 ∨ p.dst.z = 7 ∨ p.diag then true
  else ((s.part p.part).box).elim true (fun b => b.spans s.sh.shape a)

/-- The direction a packet takes on an axis from a module (R396). `dst` is the coordinate to reach. -/
def chooseDir (s : State) (p : Packet) (n : Node) (a cur dst : Nat) : Bool :=
  let len := axisLen s.sh.shape a
  if mayWrap s p a then
    let f := (dst + len - cur) % len
    let pref := decide (f ≤ len - f)
    let whole := fun d => (walkTo s a d p 24 n p.spl).isSome
    if !whole pref && whole (!pref) then !pref else pref
  else decide (cur < dst)

/-- Toward an attached tray along the wrap: the direction of fewer hops, positive on a tie (R399). -/
def trayDir (s : State) (z : Nat) : Bool := decide (axisLen s.sh.shape 2 - z ≤ z + 1)

/-- From an attached tray: the half toward the destination's plane, plane 0 on a tie; true leaves toward plane 0. -/
def trayHalf (s : State) (z : Nat) : Bool := decide (z + 1 ≤ axisLen s.sh.shape 2 - z)

/-- Where a packet's dimension-ordered route takes it next (R395, R399): axis and direction, or none when it is at its
destination's node. -/
def plain (s : State) (p : Packet) : Option (Nat × Bool) :=
  let sh := s.sh.shape
  match p.loc with
  | .tray t =>
    if nodeAt sh p.dst = some (.tray t) then none
    else match p.dir with
    | some d => some d
    | none => some (2, trayHalf s p.dst.z)
  | .mod w =>
    let c := coordOf sh w
    -- traffic from a tray travels the second axis first (R399)
    let order := if p.src.z = 7 then [2, 0, 1] else [0, 1, 2]
    let dstz := p.dst.z
    let tgt := fun a => if a = 0 then p.dst.x else if a = 1 then p.dst.y else dstz
    let toTray := dstz == 7
    match order.find? (fun a => if a = 2 ∧ toTray then true else c.at a != tgt a) with
    | none => none
    | some a =>
      match p.dir with
      | some (a', d) =>
        if a' = a then some (a, d)
        else some (a, if a = 2 ∧ toTray then trayDir s c.z else chooseDir s p p.loc a (c.at a) (tgt a))
      | none => some (a, if a = 2 ∧ toTray then trayDir s c.z else chooseDir s p p.loc a (c.at a) (tgt a))

/-- What a router does with a packet. -/
inductive RouteAct where
  /-- deliver here -/
  | deliver
  /-- send through port `q` (or out of the tray toward `pos`), as the changed packet -/
  | send (h : Hop) (p : Packet)
  /-- no way on: given up with a cause (1 or 3) -/
  | lost (cause : Nat)
  deriving DecidableEq, Repr

/-- The even VC of the pair a packet travels on (R394, R399): requests 0/1, responses 4/5, each with the detour pair above it,
which traffic from a tray takes from its first hop. -/
def Packet.pair (p : Packet) (detour : Bool) : Nat :=
  (match p.kind with | .readResp | .land | .nack | .late => 4 | _ => 0) + (if detour || p.src.z == 7 then 2 else 0)

/-- The VC after a hop along axis `a` (R394): even when the axis changes, odd once a wrap link or half of one is
crossed, in the pair of the packet's group. -/
def vcAfter (s : State) (p : Packet) (a : Nat) (h : Hop) (detour : Bool) : Nat :=
  let odd := if (p.dir.map (·.1)) = some a then p.vc % 2 else 0
  let wrapped :=
    match nodeCoord s.sh.shape p.loc, nodeCoord s.sh.shape h.node with
    | some c, some d =>
      (c.at a == 0 && d.at a + 1 == axisLen s.sh.shape a) || (d.at a == 0 && c.at a + 1 == axisLen s.sh.shape a)
    | _, _ => true
  p.pair detour + (if wrapped then 1 else odd)

/-- The packet after a hop along axis `a` in direction `d`. -/
def stepPkt (s : State) (p : Packet) (a : Nat) (d : Bool) (h : Hop) (detour : Bool) : Packet :=
  { p with loc := h.node, spl := h.spl, via := some h.near, tries := 0, vc := vcAfter s p a h detour, dir := some (a, d),
           detour := p.detour || detour }

/-- The sidestep offsets in their order: +1, −1, +2, −2 … up to half the length (R409). -/
def offsets (len : Nat) : List (Nat × Bool) :=
  ((List.range (len / 2)).map (fun i => [(i + 1, true), (i + 1, false)])).flatten

/-- A sidestep that the map shows whole: axis b, offset, direction along the failed axis (R409). -/
def findSidestep (s : State) (p : Packet) (a : Nat) (d : Bool) : Option (Nat × Nat × Bool) :=
  let sh := s.sh.shape
  let axes := if sh.is3D then (if a = 0 then [1, 2] else if a = 1 then [0, 2] else [0, 1]) else (if a = 0 then [2] else [0])
  (axes.map (fun b => (offsets (axisLen sh b)).map (fun o => (b, o.1, o.2)))).flatten.find? (fun o =>
    match walkN s o.1 o.2.2 40 o.2.1 p.loc p.spl with
    | none => false
    | some n1 =>
      match walkTo s a d p 40 n1 0 with
      | none => false
      | some n2 => (walkN s o.1 (!o.2.2) 40 o.2.1 n2 0).isSome)

/-- Port of the physical Y substitute at a module: the board link within the tray (R409). -/
def ySubPort (w : Nat) : Nat := if physY w % 2 = 0 then 3 else 2

/-- The substitute of R409 for a hop along `a` in direction `d` from module `w`: its first hop, and whether it is the
three-hop physical Y form. -/
def substitute (s : State) (w a : Nat) (d : Bool) : Option (Hop × Bool) :=
  match s.sh.shape with
  | .s446 =>
    if a = 2 then
      match hopBy s (.mod w) 0 (if d then 7 else 6) d with
      | some h => if s.hopWhole h && s.linkUp h.near then some (h, false) else none
      | none => none
    else none
  | .s166 =>
    let x := physX w
    if a = 0 ∧ ((d = true ∧ x < 3) ∨ (d = false ∧ 0 < x)) then
      match hopBy s (.mod w) 0 (ySubPort w) true with
      | some h1 =>
        match h1.node with
        | .mod w1 =>
          match hopBy s (.mod w1) 0 (if d then 1 else 0) d with
          | some h2 =>
            match h2.node with
            | .mod w2 =>
              match hopBy s (.mod w2) 0 (ySubPort w2) true with
              | some h3 => if s.hopWhole h1 && s.hopWhole h2 && s.hopWhole h3 then some (h1, true) else none
              | none => none
            | _ => none
          | none => none
        | _ => none
      | none => none
    else none
  | _ => none

/-- Replace a hop that cannot be used (R409, R411). -/
def detour (s : State) (p : Packet) (a : Nat) (d : Bool) : RouteAct :=
  let sub := match p.loc with | .mod w => substitute s w a d | .tray _ => none
  match sub with
  | some (h, threeHop) =>
    let q := stepPkt s p a d h true
    .send h (if threeHop then { q with dphase := 1, daxis := 3, doff := 1, dleft := 0, faxis := a, dir := some (a, d) } else q)
  | none =>
    let rev := !d
    let revHop := hopBy s p.loc p.spl (axisPort s.sh.shape a rev) rev
    let revOk := mayWrap s p a && (walkTo s a rev p 24 p.loc p.spl).isSome
    match revOk, revHop with
    | true, some h => .send h (stepPkt s p a rev h true)
    | _, _ =>
      match findSidestep s p a d with
      | none => .lost 1
      | some (b, n, e) =>
        match hopBy s p.loc p.spl (axisPort s.sh.shape b e) e with
        | none => .lost 1
        | some h =>
          .send h { stepPkt s p b e h true with
            dphase := if n = 1 then 2 else 1, daxis := b, doff := (if e then n else -(n : Int)), dleft := n - 1, faxis := a,
            dir := some (a, d) }

/-- Use a hop, or detour round it: the failed or fenced link, or the module that is absent or out of service. A packet
whose destination module has left service fails with cause 3 (R411). -/
def useHop (s : State) (p : Packet) (a : Nat) (d : Bool) : RouteAct :=
  match hopBy s p.loc p.spl (axisPort s.sh.shape a d) d with
  | none => detour s p a d
  | some h =>
    if s.linkUp h.near && s.linkMapUp h.far && s.nodeLive h.node then .send h (stepPkt s p a d h p.detour)
    else if !(s.nodeLive h.node) && nodeAt s.sh.shape p.dst == some h.node then .lost 3
    else detour s p a d

/-- Take a hop of a detour along axis `a` in direction `d`, as the changed packet, or where that hop is itself marked failed
decide anew (R411, R423). -/
def detourHop (s : State) (p : Packet) (a : Nat) (d : Bool) (h : Option Hop) (f : Hop → Packet) : RouteAct :=
  let anew := detour s { p with dphase := 0, dleft := 0, daxis := 0, doff := 0 } a d
  match h with
  | none => anew
  | some h =>
    if s.linkUp h.near && s.linkMapUp h.far && s.nodeLive h.node then .send h (f h)
    else if !(s.nodeLive h.node) && nodeAt s.sh.shape p.dst == some h.node then .lost 3
    else anew

/-- Continue a sidestep or a Y substitute from its DPHASE fields (R409, R423). -/
def continueDetour (s : State) (p : Packet) : RouteAct :=
  let sh := s.sh.shape
  let d := (p.dir.map (·.2)).getD true
  if p.daxis = 3 then
    match p.loc with
    | .tray _ => .lost 1
    | .mod w =>
      if p.dphase = 1 then
        detourHop s p p.faxis d (hopBy s p.loc 0 (if d then 1 else 0) d) (fun h =>
          { stepPkt s p p.faxis d h true with dphase := 3 })
      else
        detourHop s p p.faxis d (hopBy s p.loc 0 (ySubPort w) true) (fun h =>
          { stepPkt s p p.faxis d h true with dphase := 0, daxis := 0, doff := 0 })
  else
    let e := decide (0 < p.doff)
    let go := fun (q : Packet) (a : Nat) (dd : Bool) =>
      detourHop s p a dd (hopBy s p.loc p.spl (axisPort sh a dd) dd) (fun h =>
        { stepPkt s p a dd h true with
          dphase := q.dphase, dleft := q.dleft, daxis := q.daxis, doff := q.doff, dir := q.dir })
    match nodeCoord sh p.loc with
    -- inside a tray: straight on
    | none => go p (if p.dphase = 2 then p.faxis else p.daxis) (if p.dphase = 2 then d else if p.dphase = 1 then e else !e)
    | some _ =>
      if p.dphase = 1 then
        go { p with dphase := if p.dleft ≤ 1 then 2 else 1, dleft := p.dleft - 1 } p.daxis e
      else if p.dphase = 2 ∧ !reached s p p.faxis p.loc then go p p.faxis d
      else
        let left := if p.dphase = 2 then p.doff.natAbs else p.dleft
        if left ≤ 1 then go { p with dphase := 0, dleft := 0, daxis := 0, doff := 0, dir := none } p.daxis (!e)
        else go { p with dphase := 3, dleft := left - 1 } p.daxis (!e)

/-- A packet as a router of the shape in force rewrites its header (R392). -/
def State.inShape (s : State) (p : Packet) : Packet :=
  let sh := s.sh.shape
  if p.shape = sh then p
  else { p with dst := translate p.shape sh p.dst, src := translate p.shape sh p.src, shape := sh,
                dir := none, dphase := 0, dleft := 0, daxis := 0, doff := 0 }

/-- What the router that holds a packet does with it, in the shape in force (R392, R395). -/
def route (s : State) (p0 : Packet) : RouteAct :=
  let p := s.inShape p0
  if p.dphase ≠ 0 then continueDetour s p
  else match plain s p with
  | none => .deliver
  | some (a, d) => useHop s p a d

/-- Distance along a ring axis. -/
def ringDist (n a b : Nat) : Nat := let d := (b + n - a) % n; min d (n - d)

/-- The splice a tray's traffic with a module takes (R399): the nearer column, the first on a tie. -/
def traySplice (sh : Shape) (t w : Nat) : Nat × Coord :=
  let cs := (splices t).map (fun c => trayCoord sh c.1 c.2)
  let m := coordOf sh w
  let dist := fun (c : Coord) => ringDist (axisLen sh 0) m.x c.x + (if sh.is3D then ringDist (axisLen sh 1) m.y c.y else 0)
  let a := cs.getD 0 ⟨0, 0, 7⟩
  let b := cs.getD 1 ⟨0, 0, 7⟩
  if dist b < dist a then (1, b) else (0, a)

end Sys2Proof.Machine
end

