-- ==== Sys2Proof/Machine/Packets.lean ====
section
/-! DEFINITION. Packets (ch. 11): injection and class (R393), acknowledgement and retry (R402–R406), failed links
(R407), delivery, and the counters (R413–R415). -/

namespace Sys2Proof.Machine

/-- Where an access leaves from or goes to inside a node. -/
structure Place where
  w : Nat
  die : Nat
  isle : Nat
  deriving DecidableEq, Repr

/-- The place of a canonical isle of a partition (R291). -/
def placeOf (mods : List Nat) (g : Nat) : Place := ⟨mods.getD (g / 16) 0, g / 4 % 4, g % 4⟩

/-- The class of a packet (R393): calm when its traffic is, or when its route has an optical hop or passes an attached
tray in a 3D shape, which is when it travels z there. -/
def classOf (sh : Shape) (forced : Bool) (src dst : Coord) : Bool := forced || (sh.is3D && src.z != dst.z)

/-- Is the kind one an origin keeps until acknowledged (R402)? -/
def PKind.keptKind : PKind → Bool
  | .write => true | .readReq => true | _ => false

/-! ### The header and its end-to-end CRC (R390, R392) -/

/-- KIND codes (Table 11-2). -/
def PKind.code : PKind → Nat
  | .write => 0 | .readReq => 1 | .readResp => 2 | .land => 3 | .nack => 4 | .late => 5 | .ctrl => 6 | .reserved => 15

/-- Bytes 0–3 [17:0] and their like in SRC: coordinates, die, isle and logical core (Table 11-1). -/
def endWord (c : Coord) (die isle core : Nat) : Nat :=
  c.x % 16 + c.y % 8 * 2 ^ 4 + c.z % 8 * 2 ^ 7 + die % 4 * 2 ^ 10 + isle % 4 * 2 ^ 12 + core % 16 * 2 ^ 14

/-- LEN: the payload's bytes, or those a READ_REQ asks for. -/
def Packet.len (p : Packet) : Nat := if p.kind == .readReq then p.rlen else p.payload.length

/-- Bytes 0–7 of the header with the coordinates as a shape writes them (Table 11-1). -/
def Packet.ends (p : Packet) (sh : Shape) : List Byte :=
  toLE 4 (endWord (translate p.shape sh p.dst) p.ddie p.disle p.dcore + p.dtgt % 4 * 2 ^ 18 + sh.code * 2 ^ 20) ++
  toLE 4 (endWord (translate p.shape sh p.src) p.sdie p.sisle p.score)

/-- Bytes 8 to 63 of the header (Table 11-1). -/
def Packet.rest (p : Packet) (vc : Nat) (detour poison : Bool) (det : Nat) (ecrc : Word) : List Byte :=
  toLE 1 (b2n p.calm + vc % 8 * 2 + p.kind.code * 16) ++
  toLE 1 ((if p.diag then 0 else p.tenant % 16) + b2n p.diag * 16 + b2n detour * 32 + b2n poison * 64 + b2n p.reinj * 128) ++
  toLE 1 (if p.diag then 0 else p.part % 64) ++ toLE 3 p.seq ++ toLE 2 p.counter ++ toLE 2 p.pidx ++ toLE 2 p.pcnt ++
  toLE 2 (p.len % 4096) ++ toLE 2 0 ++ toLE 8 p.addr.toNat ++ toLE 2 (p.oring % 4096) ++ toLE 4 p.oseq.toNat ++
  toLE 2 det ++ toLE 4 0 ++ toLE 4 p.tag ++ toLE 8 0 ++ toLE 4 ecrc.toNat ++ toLE 4 0

/-- The 64-byte header flit (Table 11-1). -/
def Packet.header (p : Packet) : List Byte :=
  p.ends p.shape ++ p.rest p.vc p.detour p.poison
    (p.dphase % 4 + p.daxis % 4 * 4 + (p.doff % 32).toNat * 16 + p.faxis % 4 * 512) p.ecrc

/-- ECRC as an origin forms it and a router checks it: over the canonical form of the header, and the payload (R392). -/
def Packet.crc (p : Packet) : Word := crc32 (p.ends .s446 ++ p.rest 0 false false 0 0 ++ p.payload)

/-- A packet whose ECRC check succeeds. -/
def Packet.whole (p : Packet) : Bool := p.ecrc == p.crc

/-- The time by which an origin's acknowledgement timeout counts: ticks below 0.70 V of its own are left out (R404). -/
def State.originTime (s : State) (p : Packet) : DWord :=
  match winAt p.shape p.src with
  | some w => w64 (s.upTime w)
  | none => s.win.tb

/-- Inject a packet: it takes its name, its TAGID and its place, and is kept where its kind is acknowledged (R402). -/
def inject (p : Packet) (s : State) : State :=
  let own := p.kind.keptKind || p.kind == .ctrl
  let q0 := { p with pid := s.fab.nextPid, vc := p.pair false, tag := if own then s.fab.nextTag else p.tag }
  let q := { q0 with ecrc := q0.crc }
  { s with fab := { s.fab with
      pkts := s.fab.pkts ++ [q]
      nextPid := s.fab.nextPid + 1
      nextTag := if own then (s.fab.nextTag + 1) % 2 ^ 32 else s.fab.nextTag
      kept := if p.kind.keptKind then s.fab.kept ++ [{ pkt := q, tick := s.originTime q }] else s.fab.kept } }

/-- A packet that an attached tray sends to a module, by the splice of R399. -/
def fromTray (t w : Nat) (p : Packet) (s : State) : Packet :=
  let sp := traySplice s.sh.shape t w
  { p with src := sp.2, spl := sp.1, loc := .tray t }

/-- A write packet from one place to another for a command. -/
def writePkt (s : State) (who : Who) (src dst : Place) (forced : Bool) (dtgt core addr : Nat) (payload : List Byte) : Packet :=
  let sh := s.sh.shape
  let a := coordOf sh src.w
  let b := coordOf sh dst.w
  { pid := 0, dst := b, ddie := dst.die, disle := dst.isle, dcore := core, dtgt := dtgt, shape := sh, src := a,
    sdie := src.die, sisle := src.isle, score := who.core, calm := classOf sh forced a b, kind := .write, tenant := who.tenant,
    diag := who.diag, part := who.part, addr := w64 addr, oring := who.ring, oseq := who.seq, payload := payload,
    loc := .mod src.w }

/-- Cut a run of bytes into packets of at most 2,048 bytes that cross no 4 KiB boundary of the destination (R414). -/
def packetize : Nat → Nat → List Byte → List (Nat × List Byte)
  | 0, _, _ => []
  | k + 1, a, bs =>
    if bs.isEmpty then []
    else
      let n := min 2048 (4096 - a % 4096)
      (a, bs.take n) :: packetize k (a + n) (bs.drop n)

def packetsOf (a : Nat) (bs : List Byte) : List (Nat × List Byte) := packetize (bs.length + 1) a bs

/-- Inject the packets of one contribution (R414): runs of bytes at their addresses, numbered PIDX = 0 to PCNT − 1, each to
the die and isle its address names: a run goes on into the module's next isle (R306, R332). -/
def contribute (who : Who) (src dst : Place) (counter seq note : Nat) (runs : List (Nat × List Byte)) (s : State) : State :=
  let pk := (runs.map (fun r => packetsOf r.1 r.2)).flatten
  pk.zipIdx.foldl (fun a x =>
    inject { writePkt a who src ⟨dst.w, bitsAt x.1.1 35 2, bitsAt x.1.1 33 2⟩ false 0 0 x.1.1 x.1.2 with
      counter := counter, seq := seq, pidx := x.2, pcnt := pk.length, note := note } a) s

/-- A posted write of a command at a partition address: to its own die at once, elsewhere as fabric traffic (R102,
R332). `forced` marks calm-class traffic. -/
def postWrite (who : Who) (mods : List Nat) (src : Place) (forced : Bool) (pa : Nat) (bytes : List Byte) (s : State) : State :=
  let w := modWin mods pa
  let die := bitsAt pa 35 2
  if w = src.w ∧ die = src.die then (landWrite who w (colKey w pa) pa bytes s).2
  else inject (writePkt s who src ⟨w, die, bitsAt pa 33 2⟩ forced 0 0 pa bytes) s

/-- Writes of a command at partition addresses, joined into requests. -/
def postAll (who : Who) (mods : List Nat) (src : Place) (forced : Bool) (ws : List (Nat × List Byte)) (s : State) : State :=
  (joinWrites ws).foldl (fun a w => postWrite who mods src forced w.1 w.2 a) s

/-! ### Acknowledgement -/

/-- Release the packets of a TAGID kept by their origin (R402). -/
def release (tag : Nat) (s : State) : State :=
  { s with fab := { s.fab with kept := s.fab.kept.filter (fun k => k.pkt.tag != tag) } }

/-- Remove a packet in flight. -/
def takePkt (pid : Nat) (s : State) : State :=
  { s with fab := { s.fab with pkts := s.fab.pkts.filter (fun p => p.pid != pid) } }

/-- The packet in flight with a name. -/
def State.pkt? (s : State) (pid : Nat) : Option Packet := s.fab.pkts.find? (fun p => p.pid == pid)

/-- On whose behalf a packet travels. -/
def Packet.who (p : Packet) : Who :=
  { tenant := p.tenant, part := p.part, ring := p.oring, seq := p.oseq, diag := p.diag, core := p.score }

/-- A packet's answer on its way back to the origin, from coordinates `at_`: calm where the answer is of calm traffic
(R393). -/
def replyFrom (k : PKind) (calm : Bool) (at_ : Coord) (p : Packet) (s : State) : Packet :=
  { p with
    kind := k, dst := p.src, ddie := p.sdie, disle := p.sisle, dcore := p.score, dtgt := 2, src := at_, sdie := p.ddie,
    sisle := p.disle, score := p.dcore, calm := classOf s.sh.shape calm p.src at_, vc := 0, poison := false, reinj := false,
    detour := false, dphase := 0, dleft := 0, daxis := 0, doff := 0, dir := none, via := none, tries := 0,
    payload := [], pcnt := 0 }

/-- Answer a packet with LAND or NACK from where it arrived (R402–R404). -/
def answerPkt (k : PKind) (p : Packet) (s : State) : State := inject (replyFrom k false p.dst p s) s

/-- The coordinates a packet is at. -/
def Packet.here (s : State) (p : Packet) : Coord :=
  match p.loc with
  | .mod w => coordOf s.sh.shape w
  | .tray t => let c := (splices t).getD p.spl (0, 0); trayCoord s.sh.shape c.1 c.2

/-- A packet is at the node that injected it. -/
def State.atOrigin (s : State) (p : Packet) : Bool := nodeAt s.sh.shape (translate p.shape s.sh.shape p.src) == some p.loc

/-- Change a dispatched command of a ring. -/
def modCmd (r : Nat) (seq : DWord) (f : Cmd → Cmd) (s : State) : State :=
  let x := s.ring r
  s.setRing r { x with cmds := x.cmds.map (fun c => if c.seq = seq then f c else c) }

/-- The dispatched command of a ring with a sequence number. -/
def State.cmd? (s : State) (r : Nat) (seq : DWord) : Option Cmd := (s.ring r).cmds.find? (fun c => c.seq == seq)

/-- The slab of an MX_ATTN at a place: its canonical isle, g0 being 0 (R432). -/
def slabAt (mods : List Nat) (p : Place) : Nat := (mods.idxOf p.w) * 16 + p.die * 4 + p.isle

def Cmd.slab (c : Cmd) (i : Nat) : AttnSlab := tget {} i c.attn
def Cmd.setSlab (c : Cmd) (i : Nat) (v : AttnSlab) : Cmd := { c with attn := tset {} i v c.attn }

/-- Ring length E of a dispatched MX_ATTN (R432): fixed at dispatch (R451). -/
def Cmd.attE (c : Cmd) : Nat := (c.box.map (fun b => b.ext (attnOf c.bytes).axis)).getD 1

/-- Ring position of slab i (R432). -/
def Cmd.attPos (c : Cmd) (i : Nat) : Nat :=
  match c.box with
  | some b => (b.coord (i / 16)).at (attnOf c.bytes).axis - b.org (attnOf c.bytes).axis
  | none => 0

/-- The slab `d` ring positions on, at the same place on the other axes (R432). -/
def Cmd.attNext (c : Cmd) (i d : Nat) : Nat :=
  match c.box with
  | some b =>
    let a := (attnOf c.bytes).axis
    let m := i / 16
    let e := (c.attPos i + d) % c.attE
    let k : Coord := b.coord m
    let x := if a = 0 then e else k.x - b.x0
    let y := if a = 1 then e else k.y - b.y0
    let z := if a = 2 then e else k.z - b.z0
    ((z * b.ey + y) * b.ex + x) * 16 + i % 16
  | none => i

/-- The sender of an attention chunk has learned that its write failed (R447): its command processor sends the receiver a CTRL
notice, COUNTER 1 in this model. A chunk's packets carry its code, which is 8,192 or more. -/
def noticeChunk (who : Who) (w : Option Nat) (die isle note : Nat) (s : State) : State :=
  match s.cmd? who.ring who.seq, w with
  | some c, some w =>
    if opOf c.bytes == some .mxAttn && decide (8192 ≤ note) then
      let i := slabAt c.mods ⟨w, die, isle⟩
      inject { writePkt s who (placeOf c.mods i) (placeOf c.mods (c.attNext i 1)) true 2 0 0 [] with
        kind := .ctrl, counter := 1, note := note } s
    else s
  | _, _ => s

/-- A write of a command has failed with a cause: its origin raises the late fault where the packet is, or the router
returns a LATE record to it in calm class (R345, R346, Table 11-5). The record's cause and LEN stand in COUNTER and PIDX. -/
def failWrite (cause : Nat) (p : Packet) (s : State) : State :=
  let home := match p.loc with | .mod w => some w | .tray _ => none
  if s.atOrigin p then
    noticeChunk p.who (winAt p.shape p.src) p.sdie p.sisle p.note
      (lateFault p.who home cause p.payload.length p.addr.toNat (release p.tag s))
  else inject { replyFrom .late true (p.here s) p s with counter := cause, pidx := p.payload.length } s

/-- A LATE record reaches the origin of the write (R346): the late fault is raised, and the write is acknowledged (R402). -/
def deliverLate (p : Packet) (s : State) : State :=
  let w := winAt p.shape p.dst
  noticeChunk p.who w p.ddie p.disle p.note (lateFault p.who w p.counter p.pidx p.addr.toNat (release p.tag s))

/-- The channel a read answer belongs to: the one that runs the transfer the request was made for. -/
def State.chanFor (s : State) (p : Packet) : Option Nat :=
  let ok := fun (c : Chan) => c.obj.st == .on && c.gen % 2 ^ 24 == p.seq && !(c.got.any (fun g => g.1 == p.note))
  if p.diag then (if ok (s.chan p.oring) then some p.oring else none)
  else (s.chans.find? (fun c => c.2.owner == some (p.oring, p.oseq) && ok c.2)).map (·.1)

/-- A read request of a channel is answered (R338): its bytes, or none where it failed. -/
def gotPiece (p : Packet) (data : Option (List Byte)) (s : State) : State :=
  match s.chanFor p with
  | some k => s.setChan k { s.chan k with got := (s.chan k).got ++ [(p.note, data)] }
  | none => s

/-- A read request of a channel has failed (R349): its source fault, where its transfer still runs. -/
def failRead (cause : Nat) (p : Packet) (s : State) : State :=
  let s1 := release p.tag s
  if (s1.chanFor p).isSome then gotPiece p none (srcFault p.who cause p.rlen p.addr.toNat s1) else s1

/-- The control tenant (R262): ON and bound to PF0 of the control host's port. -/
def State.ctlTenant (s : State) : Option Nat :=
  s.tenIds.find? (fun n => (s.ten n).obj.st == .on && (s.ten n).bPort == s.ctlPort && (s.ten n).bFn == 0)

/-- Queue a machine-level event (R263). -/
def holdMachine (e : Event) (s : State) : State :=
  if s.mevHeld.length < 256 then { s with mevHeld := s.mevHeld ++ [e] }
  else { s with mevLost := satInc s.mevLost, mevRun := satInc s.mevRun }

/-- The control host changes while machine-level events are held for the old control tenant: they wait in the machine queue
for the new one (R275). -/
def rehostEvents (old : Option Nat) (s : State) : State :=
  match old with
  | none => s
  | some n =>
    if s.ctlTenant = old then s
    else
      let t := s.ten n
      (t.held.filter (fun e => e.machine)).foldl (fun a e => holdMachine e a)
        (s.setTen n { t with held := t.held.filter (fun e => !e.machine) })

/-- PLACE of a machine-level event's log record (Table 18-3): the module, die and isle its DETAIL names, or the tray. -/
def eventPlace (code detail : Nat) : Nat :=
  let m := (bitsAt detail 0 7) / 8 + (bitsAt detail 0 3) * 32
  if code = 0x0701 ∨ code = 0x070B then m + bitsAt detail 7 2 * 256 + bitsAt detail 9 2 * 1024
  else if code = 0x0402 ∨ code = 0x0703 ∨ code = 0x0704 then m
  else if code = 0x0607 ∨ code = 0x0608 ∨ code = 0x060A ∨ code = 0x070E then bitsAt detail 0 5
  else 0

/-- Deliver a machine-level event (R262, R263), and log it (R670, class 0). -/
def machineEvent (code tenant detail : Nat) (part : Option (BitVec 6)) (arg0 : DWord) (arg1 : Word) (s : State) : State :=
  let e : Event := {
    code := BitVec.ofNat 16 code, tenant := BitVec.ofNat 4 tenant, machine := true, part := part,
    ring := none, detail := BitVec.ofNat 16 detail, tb := s.win.tb, arg0 := arg0, arg1 := arg1 }
  let s0 := logAdd 0 code (eventPlace code detail) arg0 arg1 [detail] s
  match s0.ctlTenant with
  | some n => if s0.mevHeld.isEmpty then deliver n e s0 else holdMachine e s0
  | none => holdMachine e s0

/-- The port at the far end of a port's link in the shape in force (Tables 10-2, 10-3, R369). -/
def portFar (s : State) (l : Nat) : Option Nat :=
  if l < 768 then (farEnd s (l / 8) (l % 8)).map (·.2)
  else
    match trayExit s (12 + (l - 768) / 8) (l % 4 / 2) (l % 2 == 1) with
    | some x => if x.2.1 = l then some x.2.2 else none
    | none => none

/-- Change the records of both ports of a link: the cable in use (R407). -/
def onLink (l : Nat) (f : Link → Link) (s : State) : State :=
  let sh := s.sh.shape
  let s1 := s.setLink (linkKey sh l) (f (s.link (linkKey sh l)))
  match portFar s l with
  | some m => s1.setLink (linkKey sh m) (f (s1.link (linkKey sh m)))
  | none => s1

/-- Declare a port's link failed (R407): both its end ports stop using it; the map changes at FAILED_LINK_MAP_UPDATE. -/
def failLink (l reason : Nat) (s : State) : State :=
  onLink l (fun k => if k.failed then k else { k with failed := true, training := false, reason := reason }) s

/-- Count a give-up at the link where it happened (R405, R407). -/
def countGiveup (p : Packet) (s : State) : State :=
  let s1 := { s with fab := { s.fab with giveups := satInc s.fab.giveups } }
  match p.via with
  | some l =>
    let k := linkKey s1.sh.shape l
    failLink l 2 (s1.setLink k { s1.link k with giveups := satInc (s1.link k).giveups })
  | none => s1

/-- Record a chunk as present at a slab, once (R440, R454). -/
def chunkPresent (up : DWord) (slab code : Nat) (c : Cmd) : Cmd :=
  let a := c.slab slab
  if a.present.contains code then c
  else c.setSlab slab { a with present := a.present ++ [code], lastChunk := up }

/-- The outcome of a packet that does not arrive (Table 11-5): a command's WRITE raises its late fault. -/
def failPacket (cause : Nat) (p : Packet) (s : State) : State :=
  match p.kind with
  | .write => failWrite cause p s
  | .readReq | .readResp => failRead (if cause = 3 then 6 else 5) p s
  | _ => s

/-- A packet given up (R405). -/
def giveUp (p : Packet) (s : State) : State := failPacket 1 p (countGiveup p s)

/-- Re-inject a kept packet once as calm class, or give it up (R404). -/
def reinject (tag : Nat) (s : State) : State :=
  match s.fab.kept.find? (fun k => k.pkt.tag == tag) with
  | none => s
  | some k =>
    if k.again then giveUp { k.pkt with via := none } s
    else
      let q0 := { k.pkt with calm := true, reinj := true, pid := s.fab.nextPid }
      let q := { q0 with ecrc := q0.crc }
      { s with fab := { s.fab with
          reinj := satInc s.fab.reinj
          nextPid := s.fab.nextPid + 1
          pkts := s.fab.pkts ++ [q]
          kept := s.fab.kept.map (fun x => if x.pkt.tag == tag then { x with again := true, tick := s.originTime q } else x) } }

/-! ### Counters (R413–R415) -/

/-- Key of a counter at a module. -/
def ctrKey (w id : Nat) : Nat := w * 288 + id

/-- A complete contribution reaches its counter (R415): a number already counted in the current or previous arming is a
duplicate, a full counter makes it stray. -/
def countContribution (w id seq : Nat) (s : State) : State :=
  let c := s.ctr (ctrKey w id)
  if seq ∈ c.cur ∨ seq ∈ c.prev then { s with fab := { s.fab with dupCount := satInc s.fab.dupCount } }
  else if c.count = 65536 then { s with fab := { s.fab with stray := satInc s.fab.stray } }
  else s.setCtr (ctrKey w id) { c with count := c.count + 1, cur := seq :: c.cur }

/-- Start a new arming (R416). -/
def rearm (w id : Nat) (s : State) : State :=
  let c := s.ctr (ctrKey w id)
  s.setCtr (ctrKey w id) { count := 0, cur := [], prev := c.cur }

/-- The coordinates of a packet's origin as 4 × 4 × 6 writes them: the same origin whatever the shape in force (R392, R430). -/
def Packet.origin (p : Packet) : Coord := translate p.shape .s446 p.src

/-- A packet of a contribution has landed at module `w` (R414): counted once all its packets have. -/
def landPiece (w : Nat) (p : Packet) (s : State) : State :=
  if p.pcnt = 0 then s
  else
    let same := fun (c : Contrib) => c.w == w && c.src == p.origin && c.sdie == p.sdie && c.sisle == p.sisle &&
      c.counter == p.counter && c.seq == p.seq
    let old := s.fab.contribs.find? same
    let got := match old with | some c => if c.got.contains p.pidx then c.got else p.pidx :: c.got | none => [p.pidx]
    let rest := s.fab.contribs.filter (fun c => !same c)
    if got.length = p.pcnt then
      let s1 := countContribution w p.counter p.seq { s with fab := { s.fab with contribs := rest } }
      if 256 ≤ p.counter then
        match s1.cmd? p.oring p.oseq with
        | some c => modCmd p.oring p.oseq (chunkPresent (w64 (s1.upTime w)) (slabAt c.mods ⟨w, p.ddie, p.disle⟩) p.note) s1
        | none => s1
      else s1
    else { s with fab := { s.fab with contribs := rest ++
        [{ w := w, src := p.origin, sdie := p.sdie, sisle := p.sisle, counter := p.counter, seq := p.seq, pcnt := p.pcnt,
           got := got }] } }

/-! ### Delivery -/

/-- The duplicate record holds this packet (R406). -/
def State.isDup (s : State) (n : Node) (p : Packet) : Bool :=
  s.fab.dups.any (fun d => d.node == n && d.src == p.origin && d.sdie == p.sdie && d.sisle == p.sisle && d.tag == p.tag)

/-- Note a landed packet in the destination's duplicate record (R406). -/
def noteDup (n : Node) (p : Packet) (s : State) : State :=
  { s with fab := { s.fab with dups := s.fab.dups ++
      [{ node := n, src := p.origin, sdie := p.sdie, sisle := p.sisle, tag := p.tag, tick := s.win.tb }] } }

/-- A WRITE at its destination module (R345, R402–R406, R414). -/
def deliverWrite (w : Nat) (p : Packet) (s : State) : State :=
  let n := Node.mod w
  if p.poison then answerPkt .nack p s
  else if s.isDup n p then
    answerPkt .land p { s with fab := { s.fab with dupCount := satInc s.fab.dupCount } }
  else if p.dtgt = 1 then
    -- an FX receive buffer of a core: a fenced core gives cause 3
    let g := isleKey w p.ddie p.disle
    if !(s.modServing w) ∨ p.dcore ∉ (s.isle g).cores then failPacket 3 p s
    else if (s.mod w).bind != some (p.tenant, p.part) then
      -- delivery happens only at a receive buffer bound to the packet's tenant and partition (R218)
      failPacket 4 p (countRefused w s)
    else answerPkt .land p (landPiece w p (noteDup n p (s.writeScratch (s.coreKey g p.dcore) p.addr.toNat p.payload)))
  else
    let a := p.addr.toNat
    let key := w * 2 ^ 37 + p.ddie * 2 ^ 35 + p.disle * 2 ^ 33 + a % 2 ^ 33
    let r := gateWrite p.who w key p.payload s
    match r.1 with
    | .landed => answerPkt .land p (landPiece w p (noteDup n p r.2))
    | .dropped => release p.tag r.2
    | .fault c => failWrite c p r.2

/-- A CTRL packet: the release of an attention buffer to the predecessor (R439), or the notice of a chunk whose write failed
(R447). -/
def deliverCtrl (w : Nat) (p : Packet) (s : State) : State :=
  match s.cmd? p.oring p.oseq with
  | some c =>
    let i := slabAt c.mods ⟨w, p.ddie, p.disle⟩
    let a := c.slab i
    if p.counter = 1 then modCmd p.oring p.oseq (chunkPresent (w64 (s.upTime w)) i p.note) s
    else modCmd p.oring p.oseq (fun c => c.setSlab i { a with granted := a.granted ++ [p.note], lastGrant := w64 (s.upTime w) }) s
  | none => s

/-- A host-bound WRITE at its portal tray (R331, R370, R402): it leaves by the host port, or is held there. -/
def deliverHost (t : Nat) (p : Packet) (s : State) : State :=
  let n := Node.tray t
  if s.isDup n p then answerPkt .land p { s with fab := { s.fab with dupCount := satInc s.fab.dupCount } }
  else
    let s1 := noteDup n p s
    let s2 :=
      if !p.diag then hostPost p.tenant (some (p.oring, p.oseq)) p.addr p.payload s1
      else if s1.ctlCan && s1.win.ctlHeldW.isEmpty then emit (.hostWrite s1.ctlPort 0 p.addr p.payload) s1
      else { s1 with win := { s1.win with ctlHeldW := s1.win.ctlHeldW ++ [(p.addr, p.payload)] } }
    answerPkt .land p s2

/-- A READ_REQ at its module (R215, R349): the data returns in calm class; a gate's refusal returns zeros, and an
uncorrectable unit fails the read. -/
def deliverRead (w : Nat) (p : Packet) (s : State) : State :=
  let key := w * 2 ^ 37 + p.ddie * 2 ^ 35 + p.disle * 2 ^ 33 + p.addr.toNat % 2 ^ 33
  let resp := fun (b : List Byte) (a : State) => inject { replyFrom .readResp true p.dst p a with payload := b, rlen := p.rlen } a
  if p.poison then answerPkt .nack p s
  else if !(s.modServing w) then failRead 6 p s
  else if !(s.admits p.who w) then resp (List.replicate p.rlen 0) (countRefused w s)
  else if (unitsOf key p.rlen).any (fun u => s.badUnits.contains u) then
    failRead 4 p { s with flt := { s.flt with poisonReads := satInc s.flt.poisonReads } }
  else resp (s.colBytes (s.slotKey w p.diag p.tenant) key p.rlen) s

/-- Deliver a packet at the node it has reached. -/
def deliverPkt (p : Packet) (s : State) : State :=
  match p.loc, p.kind with
  | .mod w, .write => deliverWrite w p s
  | .tray t, .write => deliverHost t p s
  | .mod w, .readReq => deliverRead w p s
  | _, .readResp => gotPiece p (some p.payload) (release p.tag s)
  | _, .late => deliverLate p s
  | _, .land => release p.tag s
  | _, .nack => reinject p.tag s
  | .mod w, .ctrl => deliverCtrl w p s
  | _, _ => s

/-- The calm-class retry of a hop (R403, R407): counted; an eighth failure gives the packet up. -/
def calmRetry (p : Packet) (s : State) : State :=
  if 7 ≤ p.tries then giveUp p s
  else
    let s1 := { s with fab := { s.fab with
      retries := satInc s.fab.retries, pkts := s.fab.pkts ++ [{ p with tries := p.tries + 1 }] } }
    match p.via with
    | none => s1
    | some l =>
      let k := linkKey s1.sh.shape l
      let x := s1.link k
      let rec_ := (x.recent.filter (fun t => s1.win.tb.toNat - t.toNat ≤ 100000)) ++ [s1.win.tb]
      let s2 := s1.setLink k { x with retries := satInc x.retries, recent := rec_ }
      if 64 < rec_.length then failLink l 3 s2 else s2

/-- Route or deliver a packet a router has received (R395), with its header in the shape in force (R392); one of a reserved KIND
or too long is dropped (R391). -/
def forward (p0 : Packet) (s : State) : State :=
  let p := s.inShape p0
  if p.kind == .reserved || decide (2048 < p.len) then { s with fab := { s.fab with stray := satInc s.fab.stray } }
  else match route s p with
  | .deliver => deliverPkt p s
  | .send _ q => { s with fab := { s.fab with pkts := s.fab.pkts ++ [q] } }
  | .lost 3 => failPacket 3 p s
  | .lost _ => giveUp p s

end Sys2Proof.Machine
end

