-- ==== Sys2Proof/Machine/Commands.lean ====
section
/-! DEFINITION. Commands: judging at the head of a ring (R280, R293), the in-place decision (R309), completion, the
record and the tally (R255, R282–R285), and what every opcode shares at dispatch. -/

namespace Sys2Proof.Machine

/-! ### Partition geometry for commands -/

/-- The module index a peer offset leads to from module index `m` (R155): it wraps on each axis the box spans fully, and
none when it leaves the box on another (R156). -/
def peerMod (sh : Shape) (b : Box) (m : Nat) (dx dy dz : Int) : Option Nat :=
  let c := b.coord m
  let one := fun (a : Nat) (d : Int) =>
    let v : Int := (c.at a : Int) - b.org a + d
    if b.spans sh a then some (v % (b.ext a : Int)).toNat
    else if 0 ≤ v ∧ v < b.ext a then some v.toNat else none
  match one 0 dx, one 1 dy, one 2 dz with
  | some x, some y, some z => some ((z * b.ey + y) * b.ex + x)
  | _, _, _ => none

/-- A slab-base range (R293): the base lies in isle g0 with nothing above, and its last byte in the isle. -/
def slabOk (g0 a ext : Nat) : Bool := decide (a / 2 ^ 33 = g0) && decide (offOf a + ext ≤ 2 ^ 33)

/-- Bytes from the base to the end of an operand of rows × width elements of `sz` with row stride `st`. -/
def extent (rows st width sz : Nat) : Nat := (rows - 1) * st + width * sz

/-! ### MX_GEMM (R133, R214, R293, R297) -/

/-- Extent of operand A. -/
def Gemm.aExt (c : Gemm) (r : Recipe) : Nat :=
  let s := (fmtOf r.aStore).elim 0 NFmt.size
  if r.trans false then extent c.k c.sa c.ms s else extent c.ms c.sa c.k s
/-- Extent of operand B. -/
def Gemm.bExt (c : Gemm) (r : Recipe) : Nat :=
  let s := (fmtOf r.bStore).elim 0 NFmt.size
  if r.trans true then extent c.k c.sb c.n s else extent c.n c.sb c.k s

/-- The epilogue's micro-ops with the stream's form before each. -/
def withForms : Strm → List Mu → List (Strm × Mu)
  | _, [] => []
  | t, u :: l => (t, u) :: withForms (t.step u) l

/-- Slab-base ranges of the recipe, as (base, extent, reads, writes) (R292, R293). -/
def recipeSlabs (c : Gemm) (r : Recipe) : List (Nat × Nat × Bool × Bool) :=
  (withForms .f32 r.epis).filterMap (fun p =>
    match p.2.op with
    | .res => some (r.slot p.2.pa, extent c.ms (r.lo p.2.pb) c.n ((fmtOf p.2.imm).elim 0 NFmt.size), true, false)
    | .osm => some (r.slot p.2.pa, c.ms * 16, false, true)
    | .write =>
      if p.2.imm = 0 then
        some (r.slot p.2.pa, extent c.ms (r.lo p.2.pb) (if p.1 = .film0 then c.n / 3 else c.n) p.1.size, false, true)
      else none
    | _ => none)

/-- Unshifted ranges of the recipe (R214). -/
def recipeRanges (c : Gemm) (r : Recipe) : List (Nat × Nat) :=
  loadRanges r c.ms c.n c.k ++
  (r.epis.filter (fun u => u.op == .stats)).map (fun u => (r.slot u.pa, c.g * cdiv c.ms 128 * c.n * 16))

/-- The peer word of SEND (R155): offsets and counter. -/
def peerWord (v : Nat) : Int × Int × Int × Nat :=
  (signed 8 (bitsAt v 0 8), signed 8 (bitsAt v 8 8), signed 8 (bitsAt v 16 8), bitsAt v 32 16)

/-- Every SEND of the recipe stays in the box for every module, and names a counter below 256 (R156, R413). -/
def sendsOk (sh : Shape) (b : Box) (nm : Nat) (r : Recipe) : Bool :=
  r.epis.all (fun u =>
    if u.op == .send then
      let w := peerWord (r.slot u.pa)
      decide (w.2.2.2 < 256) && (List.range nm).all (fun m => (peerMod sh b m w.1 w.2.1 w.2.2.1).isSome)
    else true)

/-- The chaining rules (R151, R152) against the MX command before it on the ring. -/
def chainOk (c : Gemm) (r : Recipe) (prev : Option Cmd) : Bool :=
  match prev with
  | some p =>
    let pr := recipeOf p.recipe
    let pc := gemmOf p.bytes
    if opOf p.bytes == some .mxGemm && !p.skipped && pr.chain == 2 then
      r.heldIn && decide (p.chain.length < 3) &&
      -- tile j on the same isle: the same slabs, and as many column tiles (log 106)
      decide (pc.ms = c.ms ∧ pc.g = c.g ∧ isleOf pc.b = isleOf c.b ∧ cdiv pc.n pr.tn = cdiv c.n r.tn) &&
      (match scratchForm .f32 pr.epis with
       | some (f, _) => f.code == some r.aStore
       | none => false)
    else !r.heldIn
  | none => !r.heldIn

/-- The extent of a forced spill of a recipe's held result (R154): rows of SPILL_STRIDE in the held format. -/
def Gemm.spillExt (c : Gemm) (r : Recipe) : Nat :=
  match scratchForm .f32 r.epis with
  | some (f, _) => extent c.ms r.spillStride (if f = .film0 then c.n / 3 else c.n) f.size
  | none => 0

/-- MX_GEMM legality (R280). -/
def gemmLegal (nm : Nat) (sh : Shape) (b : Box) (prev : Option Cmd) (c : Gemm) (r : Recipe) : Bool :=
  let g0 := isleOf c.b
  decide (1 ≤ c.ms ∧ c.ms ≤ 16777216) && decide (1 ≤ c.k ∧ c.k ≤ 1048576) && decide (1 ≤ c.n ∧ c.n ≤ 4096) &&
  decide (1 ≤ c.g ∧ c.g ≤ 1536) && decide (c.c0 % 4 = 0) && decide (c.recipe % 256 = 0) &&
  rangeOk nm c.recipe 256 && r.ok c.ms c.n c.k && decide (g0 + c.g ≤ 16 * nm) &&
  (r.heldIn || slabOk g0 c.a (c.aExt r)) && slabOk g0 c.b (c.bExt r) &&
  (c.c0 == 0 || slabOk g0 c.c0 (c.ms * c.n * 4)) &&
  (recipeSlabs c r).all (fun x => slabOk g0 x.1 x.2.1) && (recipeRanges c r).all (fun x => rangeOk nm x.1 x.2) &&
  (r.chain != 2 || r.spillAddr == 0 || slabOk g0 r.spillAddr (c.spillExt r)) &&
  sendsOk sh b nm r && chainOk c r prev

/-- Two byte ranges (base, length) overlap. -/
def overlap (a b : Nat × Nat) : Bool :=
  decide (0 < a.2 ∧ 0 < b.2 ∧ a.1 < b.1 + b.2 ∧ b.1 < a.1 + a.2)

/-- Ranges an MX_GEMM reads, by slab (R309). -/
def gemmRead (c : Gemm) (r : Recipe) : List (Nat × Nat) :=
  (if r.heldIn then [] else [(c.a, c.aExt r)]) ++ [(c.b, c.bExt r)] ++
    (if c.c0 = 0 then [] else [(c.c0, c.ms * c.n * 4)]) ++
    ((recipeSlabs c r).filter (fun x => x.2.2.1)).map (fun x => (x.1, x.2.1))

/-- Ranges its column WRITEs and OSM entries write, by slab, and those of its STATS entries, unshifted (R309). -/
def gemmWrite (c : Gemm) (r : Recipe) : List (Nat × Nat) :=
  ((recipeSlabs c r).filter (fun x => x.2.2.2)).map (fun x => (x.1, x.2.1))
def gemmStats (c : Gemm) (r : Recipe) : List (Nat × Nat) :=
  (r.epis.filter (fun u => u.op == .stats)).map (fun u => (r.slot u.pa, c.g * cdiv c.ms 128 * c.n * 16))

/-- The in-place decision of an MX_GEMM (R309). -/
def gemmInPlace (c : Gemm) (r : Recipe) : Bool :=
  let rd := gemmRead c r
  rd.any (fun a => (gemmWrite c r).any (overlap a)) ||
  (gemmStats c r).any (fun w => (List.range c.g).any (fun s => rd.any (fun a => overlap (a.1 + s * 2 ^ 33, a.2) w)))

/-! ### VX (R300, R301, R303) -/

/-- VX_ELT's operations that read A, B and OUT (Table 8-13, R293, R309). -/
def vxReadsB (op : Nat) : Bool := decide (op ≤ 0x09)
def vxReadsOut (op : Nat) : Bool := op == 0x04 || op == 0x09

/-- Extents of the tensors of a VX command. -/
def Vx.ext (c : Vx) (st fmt : Nat) : Nat := extent c.ms st c.n ((fmtOf fmt).elim 0 NFmt.size)

def vxCommon (nm : Nat) (c : Vx) : Bool :=
  decide (1 ≤ c.ms ∧ c.ms ≤ 16777216) && decide (1 ≤ c.n ∧ c.n ≤ 4096) && decide (1 ≤ c.g ∧ c.g ≤ 1536) &&
  decide (c.aFmt ≤ 7) && decide (c.bFmt ≤ 7) && decide (c.oFmt ≤ 7) && decide (isleOf c.out + c.g ≤ 16 * nm)

def vxEltLegal (nm : Nat) (c : Vx) : Bool :=
  let g0 := isleOf c.out
  vxCommon nm c && decide (1 ≤ c.op ∧ c.op ≤ 0x12) && (c.op != 0x12 || c.bScalar) &&
  slabOk g0 c.out (c.ext c.so c.oFmt) && (c.op == 0x12 || slabOk g0 c.a (c.ext c.sa c.aFmt)) &&
  (!(vxReadsB c.op) || c.bScalar || slabOk g0 c.b (c.ext c.sb c.bFmt))

def vxReduceLegal (nm : Nat) (c : Vx) : Bool :=
  let g0 := isleOf c.out
  vxCommon nm c && decide (1 ≤ c.op ∧ c.op ≤ 4) && c.oFmt == 0 &&
  slabOk g0 c.out (extent c.ms c.so 1 4) && slabOk g0 c.a (c.ext c.sa c.aFmt)

def vxInPlace (elt : Bool) (c : Vx) : Bool :=
  let w := (c.out, if elt then c.ext c.so c.oFmt else extent c.ms c.so 1 4)
  (elt && vxReadsOut c.op) || (c.op != 0x12 && overlap (c.a, c.ext c.sa c.aFmt) w) ||
  (elt && vxReadsB c.op && !c.bScalar && overlap (c.b, c.ext c.sb c.bFmt) w)

def combLegal (nm : Nat) (c : Comb) : Bool :=
  decide (1 ≤ c.n ∧ c.n ≤ 4096) && decide (1 ≤ c.tms ∧ c.tms ≤ 2 ^ 24) &&
  decide (c.partial_ % 16 = 0) && decide (c.final % 16 = 0) && rangeOk nm c.partial_ (c.tms * c.n * 16) &&
  rangeOk nm c.final (c.n * 16) && decide (offOf c.final + c.n * 16 ≤ 2 ^ 33)

/-! ### MV_COPY (R304, R335, R336) -/

/-- The sixteen corner values of a space-0 side lie in the space (R335), computed exactly. -/
def cornersOk (limit base count : Nat) (c0 c1 c2 s0 s1 s2 : Nat) : Bool :=
  [0, c0 - 1].all (fun i0 => [0, c1 - 1].all (fun i1 => [0, c2 - 1].all (fun i2 =>
    let f : Int := (base : Int) + i0 * signed 32 s0 + i1 * signed 32 s1 + i2 * signed 32 s2
    decide (0 ≤ f ∧ f + count - 1 < limit))))

/-- The judgement of the sampled fields of a transfer; `limit` bounds space 0 (Table 9-3). -/
def moveOk (limit : Nat) (m : Mv) : Bool :=
  decide (1 ≤ m.count ∧ m.count ≤ 16777216) && decide (1 ≤ m.c0 ∧ 1 ≤ m.c1 ∧ 1 ≤ m.c2) &&
  decide (m.sspace < 3 ∧ m.dspace < 3) &&
  (m.sspace != 0 || cornersOk limit m.src m.count m.c0 m.c1 m.c2 m.ss0 m.ss1 m.ss2) &&
  (m.dspace != 0 || cornersOk limit m.dst m.count m.c0 m.c1 m.c2 m.ds0 m.ds1 m.ds2)

def mvLegal (nm : Nat) (m : Mv) : Bool := decide (m.core.m < nm) && moveOk (nm * 2 ^ 37) m

/-- Lowest and highest byte of one side of a transfer. -/
def moveSpan (base count c0 c1 c2 s0 s1 s2 : Nat) : Int × Int :=
  let ext := fun (c s : Nat) (lo : Bool) =>
    let v := ((c - 1 : Nat) : Int) * signed 32 s
    if lo then min 0 v else max 0 v
  ((base : Int) + ext c0 s0 true + ext c1 s1 true + ext c2 s2 true,
   (base : Int) + ext c0 s0 false + ext c1 s1 false + ext c2 s2 false + count - 1)

/-- Where the addresses of a space wrap (R331): host addresses at 2⁶⁴, scratch offsets at 4 MiB. -/
def spaceWrap (space : Nat) : Int := if space = 2 then 2 ^ 22 else 2 ^ 64

/-- Two spans of addresses that wrap at `n` share one. -/
def spansMeet (n : Int) (a b : Int × Int) : Bool :=
  decide (n ≤ a.2 - a.1 + 1) || decide (n ≤ b.2 - b.1 + 1) ||
  decide ((b.1 - a.1) % n ≤ a.2 - a.1) || decide ((a.1 - b.1) % n ≤ b.2 - b.1)

def mvInPlace (m : Mv) : Bool :=
  let a := moveSpan m.src m.count m.c0 m.c1 m.c2 m.ss0 m.ss1 m.ss2
  let b := moveSpan m.dst m.count m.c0 m.c1 m.c2 m.ds0 m.ds1 m.ds2
  m.sspace == m.dspace && spansMeet (spaceWrap m.sspace) a b

/-! ### FX and IX -/

def fxSendLegal (sh : Shape) (b : Box) (nm : Nat) (c : FxSend) : Bool :=
  decide (1 ≤ c.len ∧ c.len ≤ 16777216) && decide (c.counter < 256) && decide (c.core.m < nm) &&
  slabOk (c.core.m * 16 + c.core.die * 4 + c.core.isle) c.src c.len &&
  (peerMod sh b c.core.m c.dx c.dy c.dz).isSome

/-- The group of a module (R418): the modules that share its coordinates on every axis not reduced over. -/
def groupOf (b : Box) (axes nm m : Nat) : List Nat :=
  let c := b.coord m
  (List.range nm).filter (fun m' =>
    let d := b.coord m'
    (axes.testBit 0 || d.x == c.x) && (axes.testBit 1 || d.y == c.y) && (axes.testBit 2 || d.z == c.z))

/-- Element size of FX_REDUCE's FMT. -/
def FxRed.e (c : FxRed) : Nat := if c.fmt = 0 then 4 else 2

def fxReduceLegal (b : Box) (nm : Nat) (c : FxRed) : Bool :=
  let n := (groupOf b c.axes nm 0).length
  (c.op == 1 || c.op == 3 || c.op == 4) && c.axes != 0 && decide (c.fmt ≤ 1) &&
  decide (1 ≤ c.count ∧ c.count ≤ 16777216) && decide (c.counter < 256) &&
  decide (c.buf < 2 ^ 37) && decide (offOf c.buf + c.count * c.e ≤ 2 ^ 33) &&
  decide (c.out < 2 ^ 37) && decide (offOf c.out + n * c.count * c.e ≤ 2 ^ 33)

def fxAwaitLegal (nm : Nat) (c : FxAw) : Bool :=
  decide (c.counter < 256) && decide (1 ≤ c.value ∧ c.value ≤ 65536) && decide (c.core.m < nm)

def ixLegal (nm : Nat) (c : IxFr) : Bool := rangeOk nm c.dst (max 1 c.maxBytes)

/-! ### MX_ATTN (R432–R437) -/

def attnLegal (sh : Shape) (b : Box) (nm : Nat) (c : Attn) : Bool :=
  decide (c.axis < 3) && (sh.is3D || c.axis != 1) && b.spans sh c.axis &&
  decide (c.block % 128 = 0 ∧ 128 ≤ c.block ∧ c.block ≤ 1048576) &&
  decide (c.pos0 + b.ext c.axis * c.block ≤ 4194304) && decide (1 ≤ c.d ∧ c.d ≤ 128) &&
  decide (1 ≤ c.fmt ∧ c.fmt ≤ 4) && decide (1 ≤ nm) &&
  [c.q, c.k, c.v, c.o, c.st].all (fun a => decide (a % 4096 = 0)) &&
  c.regions.all (fun r => slabOk 0 r.1 r.2)

def attnInPlace (c : Attn) : Bool :=
  let rd := [(c.q, c.blk), (c.k, c.blk), (c.v, c.blk)]
  let wr := c.regions.drop 3
  rd.any (fun a => wr.any (overlap a))

/-! ### Judging the head (R280) -/

/-- The partition address of the recipe, where the opcode has one. -/
def recipeAddr (b : List Byte) : Option Nat := if opOf b == some .mxGemm then some (gemmOf b).recipe else none

/-- The recipe's bytes as the command processor reads them at dispatch (R128). -/
def State.recipeBytes (s : State) (mods : List Nat) (b : List Byte) : List Byte :=
  match recipeAddr b with
  | some a => s.engBytes mods a 256
  | none => []

/-- The recipe lies in a poisoned unit (R697). -/
def State.recipePoison (s : State) (mods : List Nat) (b : List Byte) : Option Nat :=
  match recipeAddr b with
  | some a => [0, 64, 128, 192].findSome? (fun i => if (paKey mods (a + i) / 64) ∈ s.badUnits then some (a + i) else none)
  | none => none

/-- A recipe read with HELD_IN 0: the command after an illegal one in a chain runs without a held operand (R152). -/
def dropHeld (rc : List Byte) : List Byte := rc.set 3 ((rc.getD 3 0) &&& 0xFB)

/-- The recipe of the head of ring `r`, as it is judged and run. -/
def State.headRecipe (s : State) (r : Nat) (e : Entry) : List Byte :=
  let x := s.ring r
  let rc := s.recipeBytes (s.part x.ctx.part).mods e.bytes
  if x.chainCut then dropHeld rc else rc

/-- Whether the command at the head of ring `r` is legal (R280). -/
def headLegal (s : State) (r : Nat) (e : Entry) : Bool :=
  let x := s.ring r
  let p := s.part x.ctx.part
  let nm := p.mods.length
  let sh := s.sh.shape
  let b := p.box.getD ⟨0, 0, 0, 0, 0, 0⟩
  let bs := e.bytes
  match opOf bs with
  | none => false
  | some op =>
    (match op.eng with | some g => x.ctx.engine == g.code | none => true) &&
    (match op with
    | .nop => true
    | .settle => true
    | .waitTally => Fld (s.ring (waitOf bs).ring).bind 0 4 == x.ctx.tenant
    | .mxGemm => (s.recipePoison p.mods bs).isNone &&
        gemmLegal nm sh b x.prev (gemmOf bs) (recipeOf (s.headRecipe r e))
    | .mxAttn => attnLegal sh b nm (attnOf bs)
    | .vxElt => vxEltLegal nm (vxOf bs)
    | .vxReduce => vxReduceLegal nm (vxOf bs)
    | .vxCombine => combLegal nm (combOf bs)
    | .mvCopy => mvLegal nm (mvOf bs)
    | .fxSend => fxSendLegal sh b nm (fxSendOf bs)
    | .fxReduce => fxReduceLegal b nm (fxRedOf bs)
    | .fxAwait => fxAwaitLegal nm (fxAwOf bs)
    | .ixFrame => ixLegal nm (ixFrOf bs))

/-- The identity a command's accesses carry (R327). -/
def State.whoOf (s : State) (r : Nat) (seq : DWord) : Who :=
  let x := s.ring r
  { tenant := x.ctx.tenant, part := x.ctx.part, ring := r, seq := seq }

/-! ### Completion, record and tally -/

/-- Commands of a ring still in progress. -/
def Ring.inProg (x : Ring) : List Cmd := x.cmds.filter (fun c => !c.done)

/-- A WAIT_TALLY or SETTLE of the ring is in progress (R280). -/
def Ring.held (x : Ring) : Bool :=
  x.inProg.any (fun c => opOf c.bytes == some .waitTally || opOf c.bytes == some .settle)

/-- The one COLUMN_POISON of a command whose recipe lies in a poisoned unit (R697). -/
def recipePoisonEvent (r : Nat) (e : Entry) (s : State) : State :=
  let x := s.ring r
  let p := s.part x.ctx.part
  match opOf e.bytes, s.recipePoison p.mods e.bytes with
  | some .mxGemm, some a =>
    let s1 := { s with flt := { s.flt with poisonReads := satInc s.flt.poisonReads } }
    deliver x.ctx.tenant (cmdEvent s1 (s1.whoOf r (x.disp + 1)) 0x070A 0 (w64 (a / 64 * 64)) (lo32 (x.disp + 1))) s1
  | _, _ => s

/-- The first fetched command becomes the ring's head for dispatch (R280): the tick is noted (R286), its recipe is read, and
it is judged, each once (log 107). -/
def noteHead (r : Nat) (s : State) : State :=
  let x := s.ring r
  match x.fetched with
  | [] => s
  | e :: _ =>
    if x.headTick.isNone && !x.held then
      recipePoisonEvent r e (s.setRing r { x with
        headTick := some s.win.tb, headOk := headLegal s r e, headRc := s.headRecipe r e })
    else s

/-- Advance the tally over the completed commands at the front of the ring's order (R255). -/
def advanceTally (r : Nat) (s : State) : State :=
  let x := s.ring r
  let n := (x.cmds.takeWhile (fun c => c.done)).length
  -- a member of a held chain that is run again has been counted (R153)
  let k := ((x.cmds.take n).filter (fun c => !c.rerun)).length
  if n = 0 then s
  else s.setRing r { x with cmds := x.cmds.drop n, tally := x.tally + w64 k, tallyDue := x.tallyDue || decide (k ≠ 0) }

/-- Host address of a command's completion record (R283). -/
def recordAddr (x : Ring) (c : Cmd) : DWord :=
  w64 (x.ctx.base.toNat + (c.idx.toNat % 2 ^ x.ctx.log2) * 64 + 48)

/-- The completion record's bytes (Table 8-5). -/
def recordBytes (c : Cmd) : List Byte := toLE 8 c.seq.toNat ++ toLE 4 c.flags.toNat ++ toLE 4 c.info.toNat

/-- Complete a dispatched command (R282): flags and INFO set, its record written before the tally that counts it, the
tally advanced in ring order. -/
def complete (r : Nat) (seq : DWord) (flags info : Word) (s : State) : State :=
  match s.cmd? r seq with
  | none => s
  | some c =>
    if c.done then s
    else
      let c' := { c with done := true, flags := c.flags ||| flags, info := info }
      let s0 := if bit c'.flags 5 && !c.rerun then
          -- the event that goes with a refused replay, before the tally write (R694)
          deliver (s.ring r).ctx.tenant (cmdEvent s (s.whoOf r seq) 0x0702 c.fenceAt (w64 info.toNat) (lo32 seq)) s
        else s
      let s1 := modCmd r seq (fun _ => c') s0
      let s2 := if recBit c.bytes && !c.skipped && !c.rerun then
          hostPost (s.ring r).ctx.tenant none (recordAddr (s.ring r) c) (recordBytes c') s1 else s1
      noteHead r (advanceTally r s2)

/-- Complete a command with CUT: of its flags only CUT is meaningful (R313). -/
def completeCut (r : Nat) (seq : DWord) (s : State) : State :=
  complete r seq 0x80 0 (modCmd r seq (fun c => { c with flags := 0 }) s)

/-- The head is an illegal command in a chain (R152): it follows a held command, or claims to be held or to hold. -/
def Ring.inChain (x : Ring) (e : Entry) : Bool :=
  let rc := recipeOf x.headRc
  x.prev.elim false (fun p => (recipeOf p.recipe).chain == 2) ||
  (opOf e.bytes == some .mxGemm && (rc.chain == 2 || rc.heldIn))

/-- Skip the head as illegal (R181): IGNORED and LAST_CAUSE, and it counts as completed in ring order; it ends a chain
(R152). -/
def skipHead (r : Nat) (e : Entry) (s : State) : State :=
  let x := s.ring r
  let seq := x.disp + 1
  let c : Cmd := { seq := seq, idx := e.idx, bytes := e.bytes, tick := s.win.tb, done := true, skipped := true }
  noteHead r (advanceTally r (s.setRing r { x with
    fetched := x.fetched.drop 1, disp := seq, headTick := none, prev := none, prevChain := [], chainCut := x.inChain e,
    ignored := satInc x.ignored, lastCause := 1, cmds := x.cmds ++ [c] }))

/-! ### Dispatch -/

/-- Commands in progress of a class in a partition (Table 8-3). -/
def State.inClass (s : State) (p : Nat) (q : Op → Bool) : Nat :=
  (s.ringIds.map (fun r =>
    let x := s.ring r
    if x.ctx.part = p then (x.inProg.filter (fun c => (opOf c.bytes).elim false q)).length else 0)).sum

/-- The logical core a command that names one runs on (R305): itself if in service, else the lowest in service. -/
def State.coreFor (s : State) (g c : Nat) : Nat :=
  let l := (s.isle g).cores
  if c ∈ l then c else l.headD 0

/-- The isle key a core reference names in a partition. -/
def refIsle (mods : List Nat) (c : CoreRef) : Nat := isleKey (mods.getD c.m 0) c.die c.isle

/-- Channel key of an MV_COPY at dispatch. -/
def State.mvChan (s : State) (mods : List Nat) (m : Mv) : Nat :=
  let g := refIsle mods m.core
  (s.coreKey g (s.coreFor g m.core.core)) * 4 + m.chan

/-- The resources of Table 8-3 and R436 are free for the head of ring `r`. -/
def resourcesFree (s : State) (r : Nat) (op : Op) (bs : List Byte) : Bool :=
  let x := s.ring r
  let p := x.ctx.part
  match op with
  | .mxGemm => decide (s.inClass p (fun o => o == .mxGemm || o == .mxAttn) < 4)
  | .mxAttn => decide (s.inClass p (fun o => o == .mxGemm || o == .mxAttn) < 4) &&
      decide (s.inClass p (fun o => o == .mxAttn) = 0)
  | .vxElt | .vxReduce | .vxCombine => decide (s.inClass p (fun o => o.eng == some .vx) < 4)
  | .mvCopy => (s.chan (s.mvChan (s.part p).mods (mvOf bs))).obj.st == .off
  | .fxSend | .fxReduce | .fxAwait => decide (s.inClass p (fun o => o.eng == some .fx) < 16)
  | .ixFrame => decide ((x.inProg.filter (fun c => opOf c.bytes == some .ixFrame)).length < 4)
  | _ => true

/-- The modules a command reaches are none of them in diagnostic mode (R341). -/
def noDiag (s : State) (mods : List Nat) : Bool := mods.all (fun w => !(s.mod w).diagActive)

/-- A chained follower (R151, R152). -/
def isFollower (op : Op) (rc : List Byte) : Bool :=
  op == .mxGemm && ((recipeOf rc).chain == 1 || (recipeOf rc).heldIn)

/-- The lead command processor of a partition, on die 0 of module index 0, is below 0.70 V (R246, R272, R322). -/
def State.leadPaused (s : State) (p : Nat) : Bool := s.paused ((s.part p).mods.getD 0 0)

/-- The head of ring `r` may be dispatched now (R281). Nothing is dispatched while the lead command processor is below 0.70 V,
and no FX command while a module of the partition, whose FX ports it takes, is (R818). -/
def canDispatch (s : State) (r : Nat) (e : Entry) (op : Op) : Bool :=
  let x := s.ring r
  let p := s.part x.ctx.part
  let allDone := x.inProg.isEmpty
  (!(orderBit e.bytes) || allDone) && (op != .settle || allDone) &&
  (!(isFollower op x.headRc) || allDone) &&
  resourcesFree s r op e.bytes && noDiag s p.mods && !(s.leadPaused x.ctx.part) &&
  (!(op == .fxSend || op == .fxReduce) || !(p.mods.any s.paused))

/-- The ρ and cores in service of each isle of a command at dispatch (R117, R295). -/
def placement (s : State) (mods : List Nat) (g0 g : Nat) : List (Nat × Nat × List Nat) :=
  (List.range g).map (fun i =>
    let p := placeOf mods (g0 + i)
    let x := s.isle (isleKey p.w p.die p.isle)
    (g0 + i, x.rho, x.cores))

/-- The logical core tile `j` of canonical isle `g` runs on (R117); a tile re-run after a fence has its own. -/
def Cmd.coreOf (c : Cmd) (g j t : Nat) : Nat :=
  match c.moved.find? (fun x => x.1 == t) with
  | some x => x.2
  | none =>
    match c.place.find? (fun x => x.1 == g) with
    | some (_, rho, l) => l.getD ((j + rho) % (max 1 l.length)) 0
    | none => 0

/-- What a SETTLE covers (R288): each ring of its scope with its last dispatched sequence number. A ring that is OFF is bound
as its BIND stands. -/
def settleCover (s : State) (r : Nat) (scope : Bool) : List (Nat × DWord) :=
  let x := s.ring r
  if scope then
    (s.ringIds.filter (fun q =>
      let y := s.ring q
      if y.obj.st == .off then Fld y.bind 0 4 == x.ctx.tenant && Fld y.bind 4 6 == x.ctx.part
      else y.ctx.tenant == x.ctx.tenant && y.ctx.part == x.ctx.part)).map (fun q => (q, (s.ring q).disp))
  else [(r, x.disp)]

/-- Take the head of a ring as dispatched, and the command with everything dispatch fixes (R128, R309, R377). -/
def dispatchHead (r : Nat) (e : Entry) (op : Op) (s : State) : Cmd × State :=
  let x := s.ring r
  let p := s.part x.ctx.part
  let rc := x.headRc
  let seq := x.disp + 1
  let gm := gemmOf e.bytes
  let vx := vxOf e.bytes
  let inPl := match op with
    | .mxGemm => gemmInPlace gm (recipeOf rc)
    | .mxAttn => attnInPlace (attnOf e.bytes)
    | .vxElt => vxInPlace true vx
    | .vxReduce => vxInPlace false vx
    | .vxCombine => overlap ((combOf e.bytes).partial_, (combOf e.bytes).tms * (combOf e.bytes).n * 16)
        ((combOf e.bytes).final, (combOf e.bytes).n * 16)
    | .mvCopy => mvInPlace (mvOf e.bytes)
    | _ => false
  let pl := match op with
    | .mxGemm => placement s p.mods (isleOf gm.b) gm.g
    | .vxElt => placement s p.mods (isleOf vx.out) vx.g
    | .vxReduce => placement s p.mods (isleOf vx.out) vx.g
    | _ => []
  let held := op == .mxGemm && (recipeOf rc).heldIn
  let open_ := held && !((x.prev.map (fun q => q.spilled)).getD true)
  let c : Cmd := {
    seq := seq, idx := e.idx, bytes := e.bytes,
    tick := if op = .waitTally then x.headTick.getD s.win.tb else s.win.tb,
    ups := p.mods.map (fun w => w64 (s.upTime w)), inPlace := inPl, recipe := rc, mods := p.mods, box := p.box, shape := s.sh.shape,
    -- a held follower's tiles run where its predecessor's did (R152)
    place := if open_ then (x.prev.map (fun q => q.place)).getD pl else pl,
    moved := if open_ then (x.prev.map (fun q => q.moved)).getD [] else [],
    flags := if open_ then (x.prev.map (fun q => q.flags &&& 0x30)).getD 0 else 0,
    fenceAt := if open_ then (x.prev.map (fun q => q.fenceAt)).getD 0 else 0,
    waitSpill := op == .mxGemm && ((recipeOf rc).chain == 1 || (held && !open_)),
    cover := if op = .settle then settleCover s r (settleScope e.bytes) else [],
    chain := if open_ then (x.prev.map (fun q => q.chain ++ [q.seq])).getD [] else [],
    heldSrc := if held then x.prev.map (fun q => (q.bytes, q.recipe)) else none,
    spilled := held && (x.prev.map (fun q => q.spilled)).getD false }
  let s1 := c.place.foldl (fun a q =>
    let l := placeOf p.mods q.1
    let g := isleKey l.w l.die l.isle
    a.setIsle g { a.isle g with dealt := true, wasPinned := (a.isle g).wasPinned || (op == .mxGemm && (recipeOf rc).chain == 2) }) s
  (c, s1.setRing r { x with
    fetched := x.fetched.drop 1, disp := seq, headTick := none, cmds := x.cmds ++ [c],
    chainCut := false
    prev := if op = .mxGemm then some c else none
    prevChain := if open_ then x.prevChain ++ x.prev.toList else [] })

/-- Report the poisoned units a command has read (R697): one COLUMN_POISON per unit and command, every read counted. -/
def reportPoison (r : Nat) (seq : DWord) (mods : List Nat) (addrs : List (Nat × Nat)) (s : State) : State :=
  if s.badUnits.isEmpty then s
  else
    let hit := fun (u : Nat) => addrs.find? (fun a => decide (paKey mods a.1 < u * 64 + 64) && decide (u * 64 < paKey mods a.1 + a.2))
    s.badUnits.foldl (fun st u =>
      match hit u with
      | none => st
      | some a =>
        let st1 := { st with flt := { st.flt with poisonReads := satInc st.flt.poisonReads } }
        match st1.cmd? r seq with
        | some c =>
          if c.poisoned.contains u then st1
          else
            let who := st1.whoOf r seq
            let pa := (a.1 / 2 ^ 37) * 2 ^ 37 + u * 64 % 2 ^ 37
            modCmd r seq (fun c => { c with poisoned := c.poisoned ++ [u] })
              (deliver who.tenant (cmdEvent st1 who 0x070A 0 (w64 pa) (w32 (seq.toNat % 2 ^ 32))) st1)
        | none => st1) s

/-- Writes of one command, its SENDs apart, have not all landed or faulted (R151). -/
def State.writesFly (s : State) (r : Nat) (seq : DWord) : Bool :=
  s.fab.kept.any (fun k => k.pkt.kind == .write && k.pkt.pcnt == 0 && !k.pkt.diag && k.pkt.oring == r && k.pkt.oseq == seq) ||
  (s.ten (s.ring r).ctx.tenant).heldW.any (fun h => h.1 == some (r, seq))

/-- Writes of a ring's commands up to one still unacknowledged at their origins (R288). -/
def State.inFlight (s : State) (r : Nat) (last : DWord) : Bool :=
  s.fab.kept.any (fun k => k.pkt.kind == .write && !k.pkt.diag && k.pkt.oring == r && decide (k.pkt.oseq.toNat ≤ last.toNat)) ||
  (s.ten (s.ring r).ctx.tenant).heldW.any (fun h =>
    match h.1 with | some (q, sq) => q == r && decide (sq.toNat ≤ last.toNat) | none => false)

end Sys2Proof.Machine
end

