-- ==== Sys2Proof/Machine/Tiles.lean ====
section
/-! DEFINITION. Tiles of MX and VX commands (R117, R146–R150, R294, R302): table loads, hand-over, epilogue, row tiles,
and spilled followers (R151). -/

namespace Sys2Proof.Machine

/-- What a tile of a command is: its geometry, its canonical isle, its place, its logical core and core key. -/
structure TileAt where
  geo : TileGeo
  g : Nat
  place : Place
  core : Nat
  key : Nat
  deriving DecidableEq, Repr

/-- An MX_GEMM tile by logical tile number (R294). -/
def gemmTileAt (s : State) (c : Cmd) (t : Nat) : TileAt :=
  let gm := gemmOf c.bytes
  let geo := tileGeo gm.ms gm.n (recipeOf c.recipe).tn t
  let g := isleOf gm.b + geo.slab
  let pl := placeOf c.mods g
  let core := c.coreOf g geo.j t
  { geo := geo, g := g, place := pl, core := core, key := s.coreKey (isleKey pl.w pl.die pl.isle) core }

/-- Number of logical tiles of an MX_GEMM (R294). -/
def gemmTiles (c : Cmd) : Nat :=
  let gm := gemmOf c.bytes
  tileCount gm.g gm.ms gm.n (recipeOf c.recipe).tn

/-- Tiles of a VX command: 64 rows each, numbered over the slabs (R302). -/
def vxTiles (c : Cmd) : Nat :=
  match opOf c.bytes with
  | some .vxCombine => 1
  | _ => let v := vxOf c.bytes; v.g * cdiv v.ms 64

/-- Where a row tile of a VX command runs (R302, R303). -/
def vxPlace (c : Cmd) (t : Nat) : Place :=
  match opOf c.bytes with
  | some .vxCombine => placeOf c.mods (isleOf (combOf c.bytes).final)
  | _ => let v := vxOf c.bytes; placeOf c.mods (isleOf v.out + t / cdiv v.ms 64)

/-- A dispatch pause, or a cold die, holds a tile back (R60, R623): the tile was not running when it began. Below 0.70 V
every tile is held (R124, R160). -/
def State.tilePaused (s : State) (l : Place) (r : Nat) (seq : DWord) (t : Nat) : Bool :=
  let d := s.die (l.w * 4 + l.die)
  s.paused l.w || ((d.pause || d.cold) && !(d.ran.contains (r, seq, t)))

/-- A tile neither ended nor dropped. -/
def Cmd.openTile (c : Cmd) (t : Nat) : Bool := !(c.ended.contains t) && !(c.dropped.contains t)

/-- Earlier tiles of the same isle and core that have not been handed over (R117: in increasing j). -/
def earlierOpen (s : State) (c : Cmd) (t : Nat) : Bool :=
  let a := gemmTileAt s c t
  let per := cdiv (gemmOf c.bytes).ms 128 * cdiv (gemmOf c.bytes).n (recipeOf c.recipe).tn
  (List.range a.geo.j).any (fun j =>
    let u := a.geo.slab * per + j
    c.openTile u && !(c.handed.any (fun h => h.1 == u)) && c.coreOf a.g j u == a.core)

/-- Tiles of all commands now in the accumulators of a core: accumulators in use (R92, R150). -/
def accsInUse (s : State) (key : Nat) : List Nat :=
  (s.ringIds.map (fun r => ((s.ring r).cmds.map (fun c =>
    c.handed.filterMap (fun h => if (gemmTileAt s c h.1).key = key then some h.2.1 else none))).flatten)).flatten

/-- The blobs a core has loaded for a command (R146), or none before the load has ended. -/
def Cmd.blobs? (c : Cmd) (g core : Nat) : Option (List (List Byte)) :=
  if (recipeOf c.recipe).loads then (c.loaded.find? (fun x => x.1 == g * 16 + core)).map (·.2)
  else some []

/-- How many tiles of a command its core runs before a tile: the h of R145 (R117). -/
def heldPos (c : Cmd) (a : TileAt) : Nat :=
  let per := cdiv (gemmOf c.bytes).ms 128 * cdiv (gemmOf c.bytes).n (recipeOf c.recipe).tn
  ((List.range a.geo.j).filter (fun j => c.coreOf a.g j (a.geo.slab * per + j) == a.core)).length

/-- Every member of a held chain before a command has ended (R152, R153). -/
def chainReady (s : State) (r : Nat) (c : Cmd) : Bool :=
  c.chain.all (fun q => match s.cmd? r q with | some d => d.done | none => true)

/-- The place in scratch of a held result's tile (R145, R152): its first byte. -/
def heldBase (pr : Recipe) (u : Mu) (c : Cmd) (a : TileAt) : Nat := pr.lo u.pa + heldPos c a * pr.hi u.pa

/-- The bytes of scratch a tile's held operand occupies, where it reads one from scratch. -/
def heldRun (c : Cmd) (a : TileAt) (size : Nat) : Option (Nat × Nat) :=
  match c.heldSrc with
  | some (_, prc) =>
    let pr := recipeOf prc
    if c.spilled then none
    else (scratchForm .f32 pr.epis).map (fun p =>
      (heldBase pr p.2 c a, extent a.geo.m (pr.lo p.2.pb) (gemmOf c.bytes).k size))
  | none => none

/-- An engine read of scratch bytes meets an uncorrectable word (R98, R126): the core's fence is due (R690 cause 1). -/
def State.scratchBad (s : State) (key a len : Nat) : Bool :=
  (s.core key).badWords.any (fun i => decide ((i * 8 + 2 ^ 22 - a / 8 * 8 % 2 ^ 22) % 2 ^ 22 < len + a % 8))

/-- The fence of a core is due: a fault has been detected there (R690, R713). CORE_FENCE performs it. -/
def fenceDue (key cause : Nat) (s : State) : State :=
  let w := key / 17 / 16
  let m := s.mod w
  let e := (key % (17 * 16), cause)
  if m.fenceDue.contains e then s else s.setMod w { m with fenceDue := m.fenceDue ++ [e] }

/-- The stored bits of the held operand (R152): read from the scratch of the tile's core in the held WRITE's layout. -/
def heldBits (s : State) (c : Cmd) (a : TileAt) (size : Nat) (i k : Nat) : Nat :=
  match c.heldSrc with
  | none => 0
  | some (_, prc) =>
    let pr := recipeOf prc
    if c.spilled then
      s.rd c.mods (pr.spillAddr + a.geo.slab * 2 ^ 33 + i * pr.spillStride + k * size) size
    else match scratchForm .f32 pr.epis with
    | some (_, u) =>
      leNat (s.scrBytes a.key (heldBase pr u c a + (i - a.geo.i0) * pr.lo u.pb + k * size) size)
    | none => 0

/-- The addresses a tile reads, for poisoned units (R697). -/
def gemmReads (c : Cmd) (a : TileAt) : List (Nat × Nat) :=
  let gm := gemmOf c.bytes
  let r := recipeOf c.recipe
  let as_ := (fmtOf r.aStore).getD .f32
  let bs := (fmtOf r.bStore).getD .f32
  let is := (List.range a.geo.m).map (· + a.geo.i0)
  let js := (List.range a.geo.n).map (· + a.geo.j0)
  let ks := List.range gm.k
  (if r.heldIn then [] else (is.map (fun i => ks.map (fun k => (gm.aAddr r as_ a.geo.slab i k, as_.size)))).flatten) ++
  (js.map (fun j => ks.map (fun k => (gm.bAddr r bs a.geo.slab k j, bs.size)))).flatten ++
  (if gm.c0 = 0 then [] else (is.map (fun i => js.map (fun j => (gm.c0Addr a.geo.slab i j, 4)))).flatten)

/-- RES addresses of a tile (R139). -/
def resReads (c : Cmd) (a : TileAt) : List (Nat × Nat) :=
  let r := recipeOf c.recipe
  (r.epis.map (fun u =>
    if u.op == .res then
      let f := (fmtOf u.imm).getD .f32
      ((List.range a.geo.m).map (fun i => (List.range a.geo.n).map (fun j =>
        (r.slot u.pa + a.geo.slab * 2 ^ 33 + (a.geo.i0 + i) * r.lo u.pb + (a.geo.j0 + j) * f.size, f.size)))).flatten
    else [])).flatten

/-- Table load of one core ends (R146): the table region of its scratch is overwritten, and the command's tiles there use
what was loaded (R148; log 13). Only while the command is in progress, once per core, before its first tile there. -/
def tableLoad (r : Nat) (seq : DWord) (g core : Nat) (s : State) : State :=
  match s.cmd? r seq with
  | none => s
  | some c =>
    let rp := recipeOf c.recipe
    if c.done || opOf c.bytes != some .mxGemm || !rp.loads || (c.blobs? g core).isSome || s.paused (placeOf c.mods g).w ||
        !(c.place.any (fun x => x.1 == g && x.2.2.contains core) || c.moved.any (fun x => x.2 == core)) then s
    else
      let gm := gemmOf c.bytes
      let us := rp.pros ++ rp.epis
      let bl := us.map (loadBlob (fun a n => s.gateBytes c.mods a n) rp gm.ms gm.n gm.k)
      let blobs := bl.map (·.1)
      let fl := bl.foldl (fun (f : Flg) b => f.or b.2) {}
      let pl := placeOf c.mods g
      let key := s.coreKey (isleKey pl.w pl.die pl.isle) core
      let ub := us.zip blobs
      let l1 := ((ub.filter (fun x => x.1.op == .lut1)).map (·.2)).zipIdx
      let s1 := l1.foldl (fun a x => a.writeScratch key (0x3F0000 + x.2 * 16384) x.1) s
      let s2 := ((ub.filter (fun x => x.1.op == .lut3)).map (·.2)).foldl (fun a b => a.writeScratch key 0x380000 b) s1
      let vec := ((ub.filter (fun x => x.1.op != .lut1 && x.1.op != .lut3)).map (·.2)).flatten
      let s3 := if vec.isEmpty then s2 else s2.writeScratch key 0x3C8000 vec
      countReads c.mods (loadRanges rp gm.ms gm.n gm.k) (reportPoison r seq c.mods (recipeRanges gm rp)
        (modCmd r seq (fun c => { c with loaded := c.loaded ++ [(g * 16 + core, blobs)], flags := c.flags ||| w32 fl.bits }) s3))

/-- Key of an accumulator word. -/
def accKey (acc i j : Nat) : Nat := acc * 16384 + i * 128 + j

/-- A tile may be handed over now (R117, R150, R151). -/
def canHandover (s : State) (c : Cmd) (t : Nat) : Bool :=
  let a := gemmTileAt s c t
  !c.done && opOf c.bytes == some .mxGemm && !c.waitSpill && decide (t < gemmTiles c) && c.openTile t &&
  !(c.handed.any (fun h => h.1 == t)) && !(earlierOpen s c t) && (c.blobs? a.g a.core).isSome &&
  decide ((accsInUse s a.key).length < 2)

/-- A tile hands its last accumulator value to the epilogue (R113, R150): its accumulator holds the tile. An uncorrectable
word of the held operand stops it, and its core is to be fenced (R98, R126). -/
def mxHandover (r : Nat) (seq : DWord) (t : Nat) (s : State) : State :=
  match s.cmd? r seq with
  | none => s
  | some c =>
    let a := gemmTileAt s c t
    if !(canHandover s c t) || !(chainReady s r c) || s.tilePaused a.place r seq t then s
    else
      let gm := gemmOf c.bytes
      let rp := recipeOf c.recipe
      let rd := s.rd c.mods
      let as_ := (fmtOf rp.aStore).getD .f32
      if rp.heldIn && (heldRun c a as_.size).elim false (fun p => s.scratchBad a.key p.1 p.2) then fenceDue a.key 1 s
      else
      let aBits := fun (i k : Nat) =>
        if rp.heldIn then heldBits s c a as_.size i k else rd (gm.aAddr rp as_ a.geo.slab i k) as_.size
      let res := gemmTile rd aBits gm rp ((c.blobs? a.g a.core).getD []) a.geo
      let acc := if (accsInUse s a.key).contains 0 then 1 else 0
      let x := s.core a.key
      let cells := (res.1.zipIdx.map (fun ri => ri.1.zipIdx.map (fun xj => (accKey acc ri.2 xj.2, xj.1)))).flatten
      let s1 := s.setCore a.key { x with acc := cells.foldl (fun m p => tset 0 p.1 p.2 m) x.acc }
      reportPoison r seq c.mods (gemmReads c a)
        (modCmd r seq (fun c => { c with handed := c.handed ++ [(t, acc, res.2.bits)] }) s1)

/-- Whether all the work of a command has ended (Table 8-4, R150). -/
def workEnded (c : Cmd) : Bool :=
  match opOf c.bytes with
  | some .mxGemm => decide (c.ended.length + c.dropped.length = gemmTiles c)
  | some .vxElt | some .vxReduce | some .vxCombine => decide (c.ended.length + c.dropped.length = vxTiles c)
  | some .mxAttn =>
    let a := attnOf c.bytes
    let e := (c.box.map (fun b => b.ext a.axis)).getD 1
    (List.range (16 * c.mods.length)).all (fun i =>
      (List.range (a.block / 128)).all (fun t => tget 0 t (c.slab i).next == e || c.dropped.contains (i * 8192 + t)))
  | some .fxSend => true
  | some .fxReduce => decide (c.ended.length = c.mods.length)
  | some .nop => true
  | _ => false

/-- The SEND of a tile (R155, R157): one contribution to the named counter at the peer module. -/
def sendTile (r : Nat) (c : Cmd) (a : TileAt) (t : Nat) (u : Mu) (ws : List (Nat × List Byte)) (s : State) : State :=
  let rp := recipeOf c.recipe
  let pw := peerWord (rp.slot u.pa)
  match c.box with
  | none => s
  | some b =>
    match peerMod c.shape b (c.mods.idxOf a.place.w) pw.1 pw.2.1 pw.2.2.1 with
    | none => s
    | some m =>
      let base := ws.headD (0, [])
      let dst : Place := ⟨c.mods.getD m 0, bitsAt base.1 35 2, bitsAt base.1 33 2⟩
      contribute { s.whoOf r c.seq with core := a.core } a.place dst pw.2.2.2 (((gemmOf c.bytes).seqBase + t) % 2 ^ 24) 0 (joinWrites ws) s

/-- Tiles of a command a core has ended (R145's h). -/
def ranOn (x : Core) (r : Nat) (seq : DWord) : Nat :=
  match x.ran.find? (fun e => e.1 == r && e.2.1 == seq) with | some e => e.2.2 | none => 0

def bumpRan (x : Core) (r : Nat) (seq : DWord) : Core :=
  { x with ran := (x.ran.filter (fun e => !(e.1 == r && e.2.1 == seq))) ++ [(r, seq, ranOn x r seq + 1)] }

/-- A tile's epilogue ends (R138–R149): its flags, WRITEs, STATS, OSM states and SEND are issued. -/
def mxEpilogue (r : Nat) (seq : DWord) (t : Nat) (s : State) : State :=
  match s.cmd? r seq with
  | none => s
  | some c =>
    match c.handed.find? (fun h => h.1 == t) with
    | none => s
    | some (_, acc, fb) =>
      let a := gemmTileAt s c t
      -- a core drains its accumulators in order (R117, R150), and none below 0.70 V (R160)
      let first := (c.handed.find? (fun h => (gemmTileAt s c h.1).key == a.key)).elim true (fun h => h.1 == t)
      if c.done || !first || s.paused a.place.w then s
      else
        let gm := gemmOf c.bytes
        let rp := recipeOf c.recipe
        let x := s.core a.key
        let rows := (List.range a.geo.m).map (fun i => (List.range a.geo.n).map (fun j => tget (0 : Word) (accKey acc i j) x.acc))
        let e := epilogue (s.rd c.mods) rp ((c.blobs? a.g a.core).getD []) gm.n a.geo (ranOn x r seq)
          (rp.aMxf == 5) rows
        let who := { s.whoOf r seq with core := a.core }
        let s1 := e.scr.foldl (fun st w => st.writeScratch a.key w.1 w.2) s
        let s2 := s1.setCore a.key (bumpRan (s1.core a.key) r seq)
        let s3 := postAll who c.mods a.place false e.cols s2
        let s4 := postAll who c.mods a.place false e.stats s3
        let s5 := match e.send with
          | some (u, ws) => sendTile r c a t u ws s4
          | none => s4
        reportPoison r seq c.mods (resReads c a)
          (modCmd r seq (fun c => { c with
            handed := c.handed.filter (fun h => h.1 != t)
            ended := c.ended ++ [t]
            flags := c.flags ||| w32 fb ||| w32 e.flg.bits }) s5)

/-- The writes of a forced spill (R154): a held result as a column WRITE at SPILL_ADDR would lay it out. -/
def spillWrites (s : State) (c : Cmd) : List (Place × List (Nat × List Byte)) :=
  let r := recipeOf c.recipe
  match scratchForm .f32 r.epis with
  | none => []
  | some (f, u) =>
    -- FILM mode 0 leaves one word for three columns (R141, R145)
    let q := if f = .film0 then 3 else 1
    (List.range (gemmTiles c)).map (fun t =>
      let a := gemmTileAt s c t
      (a.place, (List.range a.geo.m).map (fun i =>
        (r.spillAddr + a.geo.slab * 2 ^ 33 + (a.geo.i0 + i) * r.spillStride + a.geo.j0 / q * f.size,
         s.scrBytes a.key (heldBase r u c a + i * r.lo u.pb) (a.geo.n / q * f.size)))))

/-- The cores whose scratch a forced spill of a command would find uncorrectable (R98). -/
def spillBad (s : State) (c : Cmd) : List Nat :=
  let r := recipeOf c.recipe
  match scratchForm .f32 r.epis with
  | none => []
  | some (f, u) =>
    (List.range (gemmTiles c)).filterMap (fun t =>
      let a := gemmTileAt s c t
      if s.scratchBad a.key (heldBase r u c a) (extent a.geo.m (r.lo u.pb) a.geo.n f.size) then some a.key else none)

/-- A forced spill at the end of a held command (R154): its held result goes to columns, its completion carries
SPILL_FORCED, and the next command of the chain reads it there. Until its writes have landed the whole chain stays the
replay unit (R158). -/
def forceSpill (r : Nat) (c : Cmd) (s : State) : State :=
  let s1 := (spillWrites s c).foldl (fun a x => postAll (a.whoOf r c.seq) c.mods x.1 false x.2 a) s
  let s2 := modCmd r c.seq (fun d => { d with flags := d.flags ||| 0x40, spillDue := false }) s1
  let x := s2.ring r
  match x.prev with
  | some q =>
    if q.seq = c.seq then
      s2.setRing r { x with
        prev := some { q with spilled := true }, prevChain := []
        spillChain := x.prevChain ++ [{ q with spillDue := false }] }
    else s2
  | none => s2

/-- A spilled follower starts once every write of the preceding command has landed or faulted (R151, R161), and once that
command has been run again where a fence met its spill (R158). -/
def spillStart (r : Nat) (seq : DWord) (s : State) : State :=
  match s.cmd? r seq with
  | none => s
  | some c =>
    if c.waitSpill && !(s.writesFly r (seq - 1)) && !((s.ring r).cmds.any (fun d => d.rerun && !d.done)) &&
        !(s.leadPaused (s.ring r).ctx.part) then
      modCmd r seq (fun c => { c with waitSpill := false }) s
    else s

/-- Earlier tiles that a core runs for a VX command have not ended (R117, R295: in increasing j). -/
def vxEarlier (c : Cmd) (t : Nat) : Bool :=
  match opOf c.bytes with
  | some .vxCombine => false
  | _ =>
    let v := vxOf c.bytes
    let rt := cdiv v.ms 64
    let g := isleOf v.out + t / rt
    (List.range (t % rt)).any (fun j => let u := t / rt * rt + j; c.openTile u && c.coreOf g j u == c.coreOf g (t % rt) t)

/-- A VX row tile, or a VX_COMBINE, ends and its writes are issued (R301–R303). -/
def vxEnd (r : Nat) (seq : DWord) (t : Nat) (s : State) : State :=
  match s.cmd? r seq with
  | none => s
  | some c =>
    if c.done || !(decide (t < vxTiles c)) || !(c.openTile t) || vxEarlier c t || s.tilePaused (vxPlace c t) r seq t then s
    else
      let rd := s.rd c.mods
      let l := vxPlace c t
      let core := match opOf c.bytes with
        | some .vxCombine => s.coreFor (isleKey l.w l.die l.isle) 0
        | _ => c.coreOf (isleOf (vxOf c.bytes).out + t / cdiv (vxOf c.bytes).ms 64) (t % cdiv (vxOf c.bytes).ms 64) t
      let fin := fun (pl : Place) (q : List (Nat × List Byte) × Flg) (reads : List (Nat × Nat)) =>
        reportPoison r seq c.mods reads
          (modCmd r seq (fun c => { c with ended := c.ended ++ [t], flags := c.flags ||| w32 q.2.bits })
            (postAll { s.whoOf r seq with core := core } c.mods pl false q.1 s))
      let v := vxOf c.bytes
      let rt := cdiv v.ms 64
      let slab := t / rt
      let tr := t % rt
      let sa := ((fmtOf v.aFmt).getD .f32).size
      let sb := ((fmtOf v.bFmt).getD .f32).size
      let so := ((fmtOf v.oFmt).getD .f32).size
      let rowsR := (List.range (min 64 (v.ms - tr * 64))).map (· + tr * 64)
      let span : Nat → Nat → Nat → List (Nat × Nat) := fun base st sz => rowsR.map (fun i => (base + slab * 2 ^ 33 + i * st, v.n * sz))
      match opOf c.bytes with
      | some .vxElt =>
        fin (placeOf c.mods (isleOf v.out + slab)) (vxEltTile v rd slab tr)
          ((if v.op = 0x12 then [] else span v.a v.sa sa) ++
           (if vxReadsB v.op && !v.bScalar then span v.b v.sb sb else []) ++
           (if vxReadsOut v.op then span v.out v.so so else []))
      | some .vxReduce =>
        fin (placeOf c.mods (isleOf v.out + slab)) (vxRedTile v rd slab tr) (span v.a v.sa sa)
      | some .vxCombine =>
        let k := combOf c.bytes
        -- the command processor's own load, judged at the gates (R303, R328)
        let q := (k.partial_, k.tms * k.n * 16)
        countReads c.mods [q] (fin (placeOf c.mods (isleOf k.final)) (combine k (s.gateRd c.mods)) [q])
      | _ => s

end Sys2Proof.Machine
end

