-- ==== Sys2Proof/Machine/Transfers.lean ====
section
/-! DEFINITION. Transfers of the move channels (ch. 9): requests (R333), the loops (R334), reads and source faults (R349),
writes (R344) and the channel's life (R339, R340). -/

namespace Sys2Proof.Machine

/-- The channel registers an MV_COPY body loads (R304, R327). -/
def Mv.regs (m : Mv) : ChRegs :=
  { src := w64 m.src, dst := w64 m.dst, count := w32 m.count, cnt01 := w32 (m.c0 + m.c1 * 2 ^ 16), cnt2 := w32 m.c2,
    space := w32 (m.sspace + m.dspace * 4), ss0 := w32 m.ss0, ds0 := w32 m.ds0, ss1 := w32 m.ss1, ds1 := w32 m.ds1,
    ss2 := w32 m.ss2, ds2 := w32 m.ds2 }

/-- A transfer as a channel's registers give it (Table 9-2). -/
def ChRegs.mv (x : ChRegs) : Mv :=
  { src := x.src.toNat, dst := x.dst.toNat, count := x.count.toNat, c0 := Fld x.cnt01 0 16, c1 := Fld x.cnt01 16 16,
    c2 := Fld x.cnt2 0 16, ss0 := x.ss0.toNat, ds0 := x.ds0.toNat, ss1 := x.ss1.toNat, ds1 := x.ds1.toNat,
    ss2 := x.ss2.toNat, ds2 := x.ds2.toNat, core := ⟨0, 0, 0, 0⟩, sspace := Fld x.space 0 2,
    dspace := Fld x.space 2 2, chan := 0 }

/-- An address of the loops, wrapped at 2⁶⁴ (R334). -/
def loopAddr (base i0 s0 i1 s1 i2 s2 : Nat) : Nat :=
  (((base : Int) + i0 * signed 32 s0 + i1 * signed 32 s1 + i2 * signed 32 s2) % 2 ^ 64).toNat

/-- The runs of a transfer in order of issue, as (source, destination) (R334). -/
def Mv.runs (m : Mv) : List (Nat × Nat) :=
  ((List.range m.c2).map (fun i2 => ((List.range m.c1).map (fun i1 => (List.range m.c0).map (fun i0 =>
    (loopAddr m.src i0 m.ss0 i1 m.ss1 i2 m.ss2, loopAddr m.dst i0 m.ds0 i1 m.ds1 i2 m.ds2)))).flatten)).flatten

/-- Where a core sits: core key to module, die, isle. -/
def placeOfCore (key : Nat) : Place := ⟨key / 17 / 16, key / 17 / 4 % 4, key / 17 % 4⟩

/-- The port, function and tenant a channel's host requests go through: its command's tenant's, or PF0 of the control
host's port in diagnostic mode (R331). -/
def State.chanFn (s : State) (c : Chan) : Option Nat × Nat × Nat :=
  match c.owner with
  | some (r, _) => let n := (s.ring r).ctx.tenant; (some n, (s.ten n).bPort, (s.ten n).bFn)
  | none => (none, s.ctlPort, 0)

/-- On whose behalf a channel works (R327, R341). -/
def State.chanWho (s : State) (key : Nat) : Who :=
  let k := key / 4
  let core := ((s.isle (k / 17)).cores.find? (fun c => (s.isle (k / 17)).posOf c == k % 17)).getD 0
  match (s.chan key).owner with
  | some (r, seq) => { s.whoOf r seq with core := core }
  | none => { tenant := 0, part := 0, ring := key, seq := 0, diag := true, core := core }

/-- The modules a channel's partition addresses name: its command's, or its own module alone (R331). -/
def State.chanMods (s : State) (key : Nat) : List Nat :=
  match (s.chan key).owner with
  | some (r, seq) => match s.cmd? r seq with
    | some c => c.mods
    | none => (s.part (s.ring r).ctx.part).mods
  | none => [(placeOfCore (key / 4)).w]

/-- Largest host read request of a channel: Max Read Request Size (R333), and the payload of one packet (R390, log 104). -/
def State.chanReq (s : State) (c : Chan) : Nat :=
  let f := s.chanFn c
  min 2048 (s.fnc f.2.1 f.2.2).mrrsB

/-- A partition address of a channel lies beyond its die: it is reached as fabric traffic (R102, R332). -/
def State.chanFar (s : State) (key addr : Nat) : Bool :=
  let p := placeOfCore (key / 4)
  decide (modWin (s.chanMods key) addr ≠ p.w) || decide (bitsAt addr 35 2 ≠ p.die)

/-- The read requests of a transfer that leave the die, numbered in order of issue (R333, R334): those from host memory, and
those beyond the die. -/
def State.farReads (s : State) (key : Nat) : List (Nat × Nat) :=
  let c := s.chan key
  let m := c.run.mv
  match m.sspace with
  | 0 => (m.runs.map (fun r => (cutRun 256 256 r.1 m.count).filter (fun p => s.chanFar key p.1))).flatten
  | 1 => (m.runs.map (fun r => cutRun (s.chanReq c) 4096 r.1 m.count)).flatten
  | _ => []

/-- A READ_REQ of a channel to column memory beyond its die (R332, R393: calm class). -/
def chanAsk (key piece addr len : Nat) (s : State) : State :=
  let mods := s.chanMods key
  inject { writePkt s (s.chanWho key) (placeOfCore (key / 4)) ⟨modWin mods addr, bitsAt addr 35 2, bitsAt addr 33 2⟩ true 0 0 addr []
    with kind := .readReq, rlen := len, note := piece, seq := (s.chan key).gen % 2 ^ 24 } s

/-- A host read of a channel, at its port (R331, log 104). -/
def chanRead (key piece addr len : Nat) (s : State) : State :=
  let f := s.chanFn (s.chan key)
  let can := s.fnCan f.2.1 f.2.2 && s.fnBound f.2.1 f.2.2
  let rd : HRead :=
    { tenant := f.1, port := f.2.1, fn := f.2.2, addr := w64 addr, len := len, purpose := .move key piece,
      sent := can, tick := s.win.tb }
  let s1 := { s with reads := tset none s.nextRead (some rd) s.reads, nextRead := s.nextRead + 1 }
  if can then emitRead f.2.1 f.2.2 (w64 addr) len s1 else s1

/-- Issue the reads a channel may now have outstanding: at most 16 (R338); none below 0.70 V (R353). -/
def askReads (key : Nat) (s : State) : State :=
  let c := s.chan key
  if c.obj.st == .on && c.run.mv.sspace != 2 && !(s.paused (placeOfCore (key / 4)).w) then
    let ps := (s.farReads key).zipIdx.filter (fun p => decide (c.asked ≤ p.2))
    let now := ps.take (16 - (c.asked - c.got.length))
    (now.foldl (fun a p => if c.run.mv.sspace == 0 then chanAsk key p.2 p.1.1 p.1.2 a else chanRead key p.2 p.1.1 p.1.2 a)
      s).setChan key { c with asked := c.asked + now.length }
  else s

/-- Every channel with a transfer running issues what it may: a read of its own has been answered, or its core supply is
back (R338, R353). -/
def askAll (s : State) : State :=
  ((s.chans.filter (fun c => c.2.obj.st == .on && c.2.run.mv.sspace != 2)).map (·.1)).foldl (fun a k => askReads k a) s

/-- GO takes effect from OFF (R330, R339): the registers are sampled and the transfer starts. -/
def startChan (key : Nat) (owner : Option (Nat × DWord)) (s : State) : State :=
  let c := s.chan key
  askReads key (s.setChan key { c with
    obj := { st := .on }, run := c.regs, fenceEnd := false, late := 0, srcf := 0, owner := owner, got := [], asked := 0
    gen := s.fab.nextPid })

/-- A source fault of a channel: its event, or its SRCF count in diagnostic mode (R343, R349). -/
def chanSrcFault (key cause len addr : Nat) (s : State) : State := srcFault (s.chanWho key) cause len addr s

/-- What one read request in the channel's own die brings (R215, R333, R349): its bytes, or a failure. -/
def readPart (key : Nat) (mods : List Nat) (addr len : Nat) (s : State) : Option (List Byte) × State :=
  let c := s.chan key
  let w := modWin mods addr
  let k := paKey mods addr
  if !(s.modServing w) && c.owner.isSome then (none, chanSrcFault key 6 len addr s)
  else if !(s.admits (s.chanWho key) w) then (some (List.replicate len 0), countRefused w s)
  else if (unitsOf k len).any (fun u => s.badUnits.contains u) then
    (none, chanSrcFault key 4 len addr { s with flt := { s.flt with poisonReads := satInc s.flt.poisonReads } })
  else (some (s.colBytes (s.slotKey w (s.chanWho key).diag (s.chanWho key).tenant) k len), s)

/-- What the answer to a read request that left the die brought. -/
def Chan.piece (c : Chan) (n : Nat) : Option (List Byte) := (c.got.find? (fun g => g.1 == n)).bind (·.2)

/-- The source of one run: consecutive pieces with their bytes, where read. `n0` is the number of the run's first read
request that leaves the die. -/
def readRun (key : Nat) (mods : List Nat) (src n0 : Nat) (s : State) : List (Nat × Option (List Byte)) × Nat × State :=
  let c := s.chan key
  let m := c.run.mv
  match m.sspace with
  | 0 =>
    (cutRun 256 256 src m.count).foldl (fun (a : List (Nat × Option (List Byte)) × Nat × State) p =>
      if s.chanFar key p.1 then (a.1 ++ [(p.2, c.piece a.2.1)], a.2.1 + 1, a.2.2)
      else
        let q := readPart key mods p.1 p.2 a.2.2
        (a.1 ++ [(p.2, q.1)], a.2.1, q.2)) ([], n0, s)
  | 1 =>
    let ps := cutRun (s.chanReq c) 4096 src m.count
    (ps.zipIdx.map (fun p => (p.1.2, c.piece (n0 + p.2))), n0 + ps.length, s)
  | _ => ([(m.count, some (s.scrBytes (key / 4) src m.count))], n0, s)

/-- The destination runs of consecutive bytes a run has to write: pieces not read are left out (R349). -/
def segs : Nat → List (Nat × Option (List Byte)) → List (Nat × List Byte)
  | _, [] => []
  | d, (n, none) :: t => segs (d + n) t
  | d, (n, some b) :: t =>
    match segs (d + n) t with
    | (a, b') :: t' => if a = d + n then (d, b ++ b') :: t' else (d, b) :: (a, b') :: t'
    | [] => [(d, b)]

/-- One write request of a channel to column memory (R332, R345), in calm class (R393). -/
def chanWritePart (key : Nat) (mods : List Nat) (addr : Nat) (bytes : List Byte) (s : State) : State :=
  postWrite (s.chanWho key) mods (placeOfCore (key / 4)) true addr bytes s

/-- One posted write of a channel to host memory (R331): a calm packet to the portal tray of its port, which sends it out
(R370, R393, R402). -/
def chanWriteHost (key : Nat) (addr : Nat) (bytes : List Byte) (s : State) : State :=
  let p := placeOfCore (key / 4)
  let t := portTray (s.chanFn (s.chan key)).2.1
  let sp := traySplice s.sh.shape t p.w
  inject { writePkt s (s.chanWho key) p p true 3 0 addr bytes with dst := sp.2, ddie := 0, disle := 0 } s

/-- The writes of one run. -/
def writeRun (key : Nat) (mods : List Nat) (l : List (Nat × List Byte)) (s : State) : State :=
  let c := s.chan key
  let m := c.run.mv
  l.foldl (fun st x =>
    match m.dspace with
    | 0 => (cutRun 256 256 x.1 x.2.length).foldl (fun a p =>
        chanWritePart key mods p.1 ((x.2.drop (p.1 - x.1)).take p.2) a) st
    | 1 =>
      let f := s.chanFn c
      (cutRun (s.fnc f.2.1 f.2.2).mpsB 4096 x.1 x.2.length).foldl (fun a p =>
        chanWriteHost key p.1 ((x.2.drop (p.1 - x.1)).take p.2) a) st
    | _ => st.writeScratch (key / 4) x.1 x.2) s

/-- Runs of a transfer, in order of issue: the reads of each, then its writes (R334). -/
def runTransfer (key : Nat) (runs : List (Nat × Nat)) (s : State) : State :=
  let mods := s.chanMods key
  (runs.foldl (fun (a : Nat × State) r =>
    let q := readRun key mods r.1 a.1 a.2
    (q.2.1, writeRun key mods (segs r.2 q.1) q.2.2)) (0, s)).2

/-- Every read request that left the die has been answered. -/
def State.readsBack (s : State) (key : Nat) : Bool := decide ((s.chan key).got.length = (s.farReads key).length)

/-- The runs whose reads have all returned, from the first on: those that may have been written (R334). -/
def State.runsBack (s : State) (key : Nat) : List (Nat × Nat) :=
  let c := s.chan key
  let m := c.run.mv
  (m.runs.foldl (fun (a : List (Nat × Nat) × Nat × Bool) r =>
    let k := match m.sspace with
      | 0 => ((cutRun 256 256 r.1 m.count).filter (fun p => s.chanFar key p.1)).length
      | 1 => (cutRun (s.chanReq c) 4096 r.1 m.count).length
      | _ => 0
    let ok := a.2.2 && (List.range k).all (fun i => c.got.any (fun g => g.1 == a.2.1 + i))
    (if ok then a.1 ++ [r] else a.1, a.2.1 + k, ok)) ([], 0, true)).1

/-- The writes a transfer had issued when it was stopped short go on, and land or fault (R340, R351, R356): a number of its
first runs that nothing fixes (log 105). -/
def writeIssued (key : Nat) (s : State) : State :=
  let l := s.runsBack key
  let n := Config.runsIssued s.freeCtr % (l.length + 1)
  runTransfer key (l.take n) { s with freeCtr := s.freeCtr + 1 }

/-- A transfer that waits for a channel that has gone OFF starts there (R305, R311). -/
def wakeChan (key : Nat) (s : State) : State :=
  if (s.chan key).obj.st != .off then s
  else
    match s.ringIds.findSome? (fun r =>
      ((s.ring r).cmds.find? (fun c => !c.done && c.rechan == some key)).map (fun c => (r, c))) with
    | some (r, c) =>
      startChan key (some (r, c.seq))
        (modCmd r c.seq (fun d => { d with rechan := none }) (s.setChan key { s.chan key with regs := (mvOf c.bytes).regs }))
    | none => s

/-- A transfer completes (R344): its writes leave the channel, the channel goes OFF, and its MV_COPY completes. Below 0.70 V it
goes on waiting (R353). -/
def finishChan (key : Nat) (s : State) : State :=
  let c := s.chan key
  -- a source word of scratch that cannot be corrected stops it, and its core is to be fenced (R98, R126)
  if c.obj.st == .on && c.run.mv.sspace == 2 && !(s.core (key / 4)).badWords.isEmpty &&
      c.run.mv.runs.any (fun r => s.scratchBad (key / 4) r.1 c.run.mv.count) then fenceDue (key / 4) 1 s
  else if c.obj.st == .on && s.readsBack key && !(s.paused (placeOfCore (key / 4)).w) then
    let s1 := runTransfer key c.run.mv.runs s
    let s2 := s1.setChan key { s1.chan key with obj := {}, owner := none, got := [], asked := 0 }
    wakeChan key (match c.owner with
      | some (r, seq) => complete r seq 0 (((s2.cmd? r seq).map (·.info)).getD 0) s2
      | none => s2)
  else s

/-- Outstanding reads of a channel are abandoned (R340). -/
def dropChanReads (key : Nat) (s : State) : State :=
  dropReads (fun r => match r.purpose with | .move k _ => k == key | _ => false) s

/-- ABORT of a channel (R339, R340): outstanding reads are abandoned, and writes already issued go on. -/
def abortChan (key : Nat) (s : State) : State :=
  let c := s.chan key
  match c.obj.st with
  | .off => s
  | .on =>
    let s1 := writeIssued key s
    dropChanReads key (s1.setChan key { s1.chan key with obj := { st := .winding } })
  | .winding => s.setChan key { c with obj := { st := .winding } }

/-- The wind-down of a channel ends (R185, R340): OFF, or ON again with the registers sampled then. The MV_COPY it ran
completes with CUT. -/
def endAbort (key : Nat) (s : State) : State :=
  let c := s.chan key
  if c.obj.st == .winding then
    let s1 := s.setChan key { c with obj := {}, owner := none, got := [], asked := 0 }
    let s2 := match c.owner with
      | some (r, seq) => completeCut r seq s1
      | none => s1
    if c.obj.pending then
      if moveOk (2 ^ 37) c.regs.mv then startChan key none s2 else s2
    else wakeChan key s2
  else s

end Sys2Proof.Machine
end

