-- ==== Sys2Proof/Machine/Opcodes.lean ====
section
/-! DEFINITION. The 13 ring opcodes at the head of a ring (chs. 8, 9, 11, 12): judged (R280), skipped (R181) or
dispatched (R281), and what each does at its dispatch. -/

namespace Sys2Proof.Machine

/-- Clear the 32 attention counters of each module of a command (R440). -/
def clearAttnCounters (mods : List Nat) (s : State) : State :=
  { s with fab := { s.fab with
      ctrs := s.fab.ctrs.filter (fun c => !(mods.contains (c.1 / 288) && decide (256 ≤ c.1 % 288)))
      contribs := s.fab.contribs.filter (fun c => !(mods.contains c.w && decide (256 ≤ c.counter))) } }

/-- FX_SEND (R417): LEN bytes as one contribution, from the FX port of CORE. DST is a module-relative address of 37 bits;
its bits [63:37] have no meaning and are dropped (DESIGN CHOICE, safe for a DST that sets none; log 108). -/
def startSend (r : Nat) (c : Cmd) (s : State) : State :=
  let f := fxSendOf c.bytes
  let b := c.box.getD ⟨0, 0, 0, 0, 0, 0⟩
  let who := { s.whoOf r c.seq with core := s.coreFor (refIsle c.mods f.core) f.core.core }
  match peerMod c.shape b f.core.m f.dx f.dy f.dz with
  | none => s
  | some m =>
    let src : Place := ⟨c.mods.getD f.core.m 0, f.core.die, f.core.isle⟩
    let dst : Place := ⟨c.mods.getD m 0, bitsAt f.dst 35 2, bitsAt f.dst 33 2⟩
    reportPoison r c.seq c.mods [(f.src, f.len)]
      (contribute who src dst f.counter f.seq 0 [(f.dst % 2 ^ 37, s.engBytes c.mods f.src f.len)] s)

/-- A module-relative address of module index m as a partition address (Table 8-15). -/
def atModule (m a : Nat) : Nat := m * 2 ^ 37 + a % 2 ^ 37

/-- One member's part of FX_REDUCE at dispatch (R419, steps 1 and 2). -/
def reduceMember (r : Nat) (c : Cmd) (m : Nat) (s : State) : State :=
  let f := fxRedOf c.bytes
  let b := c.box.getD ⟨0, 0, 0, 0, 0, 0⟩
  let grp := groupOf b f.axes c.mods.length m
  let rank := grp.idxOf m
  let len := f.count * f.e
  let data := s.engBytes c.mods (atModule m f.buf) len
  let slot := f.out + rank * len
  let own : Place := ⟨c.mods.getD m 0, bitsAt f.out 35 2, bitsAt f.out 33 2⟩
  let who := { s.whoOf r c.seq with core := s.coreFor (isleKey own.w own.die own.isle) 0 }
  let s1 := (chop (atModule m slot) data).foldl (fun a x =>
    (landWrite who own.w (colKey own.w x.1) x.1 x.2 a).2) s
  let s2 := (grp.filter (fun m' => m' != m)).foldl (fun a m' =>
    contribute who own ⟨c.mods.getD m' 0, bitsAt f.out 35 2, bitsAt f.out 33 2⟩ f.counter ((f.seqBase + rank) % 2 ^ 24) 0
      [(slot % 2 ^ 37, data)] a) s1
  reportPoison r c.seq c.mods [(atModule m f.buf, len)] s2

/-- What an opcode does at its dispatch, beyond being in progress. -/
def startOp (op : Op) (r : Nat) (c : Cmd) (s : State) : State :=
  match op with
  | .nop => complete r c.seq 0 0 s
  | .mxAttn => clearAttnCounters c.mods s
  | .mvCopy =>
    let m := mvOf c.bytes
    let key := s.mvChan c.mods m
    startChan key (some (r, c.seq)) (s.setChan key { s.chan key with regs := m.regs })
  | .fxSend => startSend r c s
  | .fxReduce => (List.range c.mods.length).foldl (fun a m => reduceMember r c m a) s
  | _ => s

/-- What became of a ring's head. -/
inductive HeadAct where
  | stays | skipped | dispatched
  deriving DecidableEq, Repr

/-- Serve the head of a ring once: judged as it became head, it is skipped if illegal, or dispatched if it may be (R280,
R281). A ring's commands are served while it and its partition are ON, and its lead command processor at 0.70 V or
above (R818). -/
def serveHead (r : Nat) (s0 : State) : HeadAct × State :=
  let s := noteHead r s0
  let x := s.ring r
  match x.fetched with
  | [] => (.stays, s0)
  | e :: _ =>
    if x.obj.st != .on || (s.part x.ctx.part).obj.st != .on || x.held || s.leadPaused x.ctx.part then (.stays, s0)
    else if !x.headOk then (.skipped, skipHead r e s)
    else match opOf e.bytes with
    | none => (.stays, s)
    | some op =>
      if canDispatch s r e op then
        let d := dispatchHead r e op s
        (.dispatched, noteHead r (startOp op r d.1 d.2))
      else (.stays, s)

/-- The opcode of a ring's head. -/
def State.headOp (s : State) (r : Nat) : Option Op := ((s.ring r).fetched.head?).bind (fun e => opOf e.bytes)

/-- A command of the table that names an opcode: the head of ring `r`, when it has that opcode, is served. -/
def serveOp (op : Op) (r : Nat) (s : State) : State := if s.headOp r = some op then (serveHead r s).2 else s

/-- Serve a ring's heads in ring order: at most `k` dispatched, skipped commands not counted (R252). -/
def serveRing : Nat → Nat → Nat → State → State
  | 0, _, _, s => s
  | _ + 1, 0, _, s => s
  | f + 1, k + 1, r, s =>
    match serveHead r s with
    | (.stays, s') => s'
    | (.skipped, s') => serveRing f (k + 1) r s'
    | (.dispatched, s') => serveRing f k r s'

/-- One round of a partition's dispatcher for an engine class (R252). -/
def dispatcherServe (p eng : Nat) (s : State) : State :=
  ((s.ringIds).filter (fun r =>
    let x := s.ring r
    x.obj.st == .on && x.ctx.part == p && x.ctx.engine == eng)).foldl (fun a r =>
      serveRing (2 * ((a.ring r).fetched.length + 1)) (a.ring r).ctx.weight r a) s

/-- Code of an engine class (Table 7-1). -/
def engCode : EngClass → Nat
  | .mx => 0 | .vx => 1 | .mv => 2 | .fx => 3 | .ix => 4

def execDispatcherRound (p : BitVec 6) (eng : EngClass) (s : State) : Host.Outcome State Fault Refusal :=
  .next (dispatcherServe p.toNat (engCode eng) s)
def execNop (r : BitVec 12) (s : State) : Host.Outcome State Fault Refusal := .next (serveOp .nop r.toNat s)
def execWaitTally (r : BitVec 12) (s : State) : Host.Outcome State Fault Refusal := .next (serveOp .waitTally r.toNat s)
def execSettle (r : BitVec 12) (s : State) : Host.Outcome State Fault Refusal := .next (serveOp .settle r.toNat s)
def execMxGemm (r : BitVec 12) (s : State) : Host.Outcome State Fault Refusal := .next (serveOp .mxGemm r.toNat s)
def execMxAttn (r : BitVec 12) (s : State) : Host.Outcome State Fault Refusal := .next (serveOp .mxAttn r.toNat s)
def execVxElt (r : BitVec 12) (s : State) : Host.Outcome State Fault Refusal := .next (serveOp .vxElt r.toNat s)
def execVxReduce (r : BitVec 12) (s : State) : Host.Outcome State Fault Refusal := .next (serveOp .vxReduce r.toNat s)
def execVxCombine (r : BitVec 12) (s : State) : Host.Outcome State Fault Refusal := .next (serveOp .vxCombine r.toNat s)
def execMvCopy (r : BitVec 12) (s : State) : Host.Outcome State Fault Refusal := .next (serveOp .mvCopy r.toNat s)
def execFxSend (r : BitVec 12) (s : State) : Host.Outcome State Fault Refusal := .next (serveOp .fxSend r.toNat s)
def execFxReduce (r : BitVec 12) (s : State) : Host.Outcome State Fault Refusal := .next (serveOp .fxReduce r.toNat s)
def execFxAwait (r : BitVec 12) (s : State) : Host.Outcome State Fault Refusal := .next (serveOp .fxAwait r.toNat s)
def execIxFrame (r : BitVec 12) (s : State) : Host.Outcome State Fault Refusal := .next (serveOp .ixFrame r.toNat s)

end Sys2Proof.Machine
end

