-- ==== Sys2Proof/Machine/Waits.lean ====
section
/-! DEFINITION. Completion, tally writes, held writes, and the commands that wait (R255, R256, R263, R286–R290, R308,
R416). -/

namespace Sys2Proof.Machine

/-- COMMAND_COMPLETE (R282): a dispatched command whose work has ended completes; below 0.70 V the lead command processor
completes none (R322). -/
def commandDone (r : Nat) (seq : DWord) (s : State) : State :=
  match s.cmd? r seq with
  | some c =>
    if workEnded c && !c.done && !(s.leadPaused (s.ring r).ctx.part) then
      let bad := if c.spillDue && opOf c.bytes == some .mxGemm && (recipeOf c.recipe).chain == 2 then spillBad s c else []
      if !bad.isEmpty then bad.foldl (fun a k => fenceDue k 1 a) s
      else
      let s1 := if c.spillDue && opOf c.bytes == some .mxGemm && (recipeOf c.recipe).chain == 2 then forceSpill r c s else s
      complete r seq 0 c.info s1
    else s
  | none => s

def execCommandComplete (r : BitVec 12) (seq : DWord) (s : State) : Host.Outcome State Fault Refusal :=
  .next (commandDone r.toNat seq s)

/-- Post the latest tally value (R254, R256), or hold it while the function cannot take it or earlier writes and events wait
(R263, R290); a value that would be held during a reset sequence is dropped (R271). Below 0.70 V the lead command processor
posts none. -/
def postTally (r : Nat) (s : State) : State :=
  let x := s.ring r
  let n := x.ctx.tenant
  if x.tallyDue && !(s.leadPaused x.ctx.part) then
    let t := s.ten n
    if s.tenCan n && t.heldW.isEmpty && t.held.isEmpty && t.heldLost == 0 then
      tenWrite n x.ctx.taddr (toLE 8 x.tally.toNat) (s.setRing r { x with tallyDue := false, tallyHeld := false })
    else if t.flr != .idle then s.setRing r { x with tallyDue := false, tallyHeld := false }
    else s.setRing r { x with tallyHeld := true }
  else s

def execTallyWrite (r : BitVec 12) (s : State) : Host.Outcome State Fault Refusal := .next (postTally r.toNat s)

/-- Write a tenant's held events in order, then one EVT_LOST if any were dropped (R263). -/
def flushEvents (n : Nat) (s : State) : State :=
  let t := s.ten n
  let s1 := t.held.foldl (fun a e => writeEvent n e a) (s.setTen n { t with held := [] })
  let t1 := s1.ten n
  if t1.heldLost = 0 then s1
  else writeEvent n
    { code := 0x0105, tenant := BitVec.ofNat 4 n, machine := false, part := none, ring := none, detail := 0,
      tb := s1.win.tb, arg0 := 0, arg1 := t1.heldLost } (s1.setTen n { t1 with heldLost := 0 })

/-- Write the machine queue to the control tenant, then its EVT_LOST (R263). -/
def flushMachine (n : Nat) (s : State) : State :=
  let s1 := s.mevHeld.foldl (fun a e => writeEvent n e a) { s with mevHeld := [] }
  if s1.mevRun = 0 then s1
  else writeEvent n
    { code := 0x0105, tenant := 0, machine := true, part := none, ring := none, detail := 1, tb := s1.win.tb,
      arg0 := 0, arg1 := s1.mevRun } { s1 with mevRun := 0 }

/-- The function of tenant `n` can take writes again (R263): waiting posted writes, then held events, each in order, then
merged tallies, so that a late fault's event precedes the tally of the SETTLE that counts it (R290); for the control tenant
the machine queue after its own events. -/
def flushHeld (n : Nat) (s : State) : State :=
  if (s.ten n).obj.st != .off && s.tenCan n then
    let t := s.ten n
    let s1 := t.heldW.foldl (fun a h => tenWrite n h.2.1 h.2.2 a) (s.setTen n { t with heldW := [] })
    let s2 := flushEvents n s1
    let s3 := if s2.ctlTenant = some n then flushMachine n s2 else s2
    (s3.ringIds.filter (fun r => (s3.ring r).ctx.tenant == n && (s3.ring r).tallyHeld)).foldl (fun a r => postTally r a) s3
  else s

/-- Posted writes through PF0 of the control host that were waiting (R263, R331). -/
def flushCtl (s : State) : State :=
  if s.ctlCan then
    s.win.ctlHeldW.foldl (fun a h => emit (.hostWrite a.ctlPort 0 h.1 h.2) a) { s with win := { s.win with ctlHeldW := [] } }
  else s

def execHeldWriteFlush (n : BitVec 4) (s : State) : Host.Outcome State Fault Refusal :=
  .next (flushCtl (flushHeld n.toNat s))

/-- The named command of a ring is in progress with an opcode, and its lead command processor can end it: below 0.70 V it
waits (R322). -/
def State.waiting (s : State) (r : Nat) (seq : DWord) (op : Op) : Option Cmd :=
  match s.cmd? r seq with
  | some c => if !c.done && opOf c.bytes == some op && !(s.leadPaused (s.ring r).ctx.part) then some c else none
  | none => none

/-- INFO of a waiting command as it ends (Table 8-5): a WAIT_TALLY's the tally value it observes, another's 0. -/
def waitInfo (s : State) (c : Cmd) : Word :=
  if opOf c.bytes = some .waitTally then lo32 (s.ring (waitOf c.bytes).ring).tally else 0

/-- WAIT_TALLY completes when the named ring's tally reaches VALUE, unsigned (R286). -/
def waitSatisfied (r : Nat) (seq : DWord) (s : State) : State :=
  match s.waiting r seq .waitTally with
  | some c =>
    let w := waitOf c.bytes
    if w.value ≤ (s.ring w.ring).tally.toNat then complete r seq 0 (waitInfo s c) s else s
  | none => s

def execWaitTallySatisfied (r : BitVec 12) (seq : DWord) (s : State) : Host.Outcome State Fault Refusal :=
  .next (waitSatisfied r.toNat seq s)

/-- A limit of `timeout` ticks from the command's tick has passed; 0 is no limit. -/
def expired (s : State) (c : Cmd) (timeout : Nat) : Bool :=
  decide (timeout ≠ 0) && decide (c.tick.toNat + timeout ≤ s.win.tb.toNat)

/-- WAIT_TALLY's TIMEOUT expires (R286, R287). -/
def waitTimeout (r : Nat) (seq : DWord) (s : State) : State :=
  match s.waiting r seq .waitTally with
  | some c => if expired s c (waitOf c.bytes).timeout then complete r seq 0x200 (waitInfo s c) s else s
  | none => s

def execWaitTallyTimeout (r : BitVec 12) (seq : DWord) (s : State) : Host.Outcome State Fault Refusal :=
  .next (waitTimeout r.toNat seq s)

/-- Every command a SETTLE waits for has completed, and no covered write is in flight (R288). -/
def settleReady (s : State) (r : Nat) (c : Cmd) : Bool :=
  c.cover.all (fun q =>
    (q.1 == r || (s.ring q.1).cmds.all (fun d => d.done || decide (q.2.toNat < d.seq.toNat))) &&
    !(s.inFlight q.1 (if q.1 = r then c.seq - 1 else q.2)))

/-- Late faults of the writes a SETTLE covers (R290). -/
def settleFaults (s : State) (r : Nat) (c : Cmd) : Nat :=
  (c.cover.map (fun q =>
    let last := if q.1 = r then c.seq - 1 else q.2
    ((s.ring q.1).faults.filter (fun f => decide (f.toNat ≤ last.toNat))).length)).sum

/-- SETTLE completes (R288, R290), INFO saturating (Table 8-5). -/
def settleDone (r : Nat) (seq : DWord) (s : State) : State :=
  match s.waiting r seq .settle with
  | some c =>
    if settleReady s r c then
      let n := settleFaults s r c
      complete r seq (if n = 0 then 0 else 0x100) (w32 (min n 0xFFFFFFFF)) s
    else s
  | none => s

def execSettleComplete (r : BitVec 12) (seq : DWord) (s : State) : Host.Outcome State Fault Refusal :=
  .next (settleDone r.toNat seq s)

/-- The counter an FX_AWAIT names (R416). -/
def awaitCtr (c : Cmd) : Nat × Nat :=
  let f := fxAwOf c.bytes
  (c.mods.getD f.core.m 0, f.counter)

/-- FX_AWAIT completes when COUNT reaches VALUE, and the counter starts a new arming (R416). -/
def awaitSatisfied (r : Nat) (seq : DWord) (s : State) : State :=
  match s.waiting r seq .fxAwait with
  | some c =>
    let k := awaitCtr c
    if (fxAwOf c.bytes).value ≤ (s.ctr (ctrKey k.1 k.2)).count then complete r seq 0 0 (rearm k.1 k.2 s) else s
  | none => s

def execFxAwaitSatisfied (r : BitVec 12) (seq : DWord) (s : State) : Host.Outcome State Fault Refusal :=
  .next (awaitSatisfied r.toNat seq s)

/-- FX_AWAIT's TIMEOUT expires: the counter is left as it stands (R416). -/
def awaitTimeout (r : Nat) (seq : DWord) (s : State) : State :=
  match s.waiting r seq .fxAwait with
  | some c => if expired s c (fxAwOf c.bytes).timeout then complete r seq 0x200 0 s else s
  | none => s

def execFxAwaitTimeout (r : BitVec 12) (seq : DWord) (s : State) : Host.Outcome State Fault Refusal :=
  .next (awaitTimeout r.toNat seq s)

/-- An IX_FRAME's TIMEOUT expires before its frame begins (R308). -/
def frameTimeout (r : Nat) (seq : DWord) (s : State) : State :=
  match s.waiting r seq .ixFrame with
  | some c => if !c.begun && expired s c (ixFrOf c.bytes).timeout then complete r seq 0x200 0 s else s
  | none => s

def execIxFrameTimeout (r : BitVec 12) (seq : DWord) (s : State) : Host.Outcome State Fault Refusal :=
  .next (frameTimeout r.toNat seq s)

/-! ### Tiles -/

/-- TABLE_LOAD_COMPLETE (R146). `isle` is the canonical isle, `core` its logical core. -/
def execTableLoadComplete (r : BitVec 12) (seq : DWord) (isle : Nat) (core : BitVec 4) (s : State) :
    Host.Outcome State Fault Refusal := .next (tableLoad r.toNat seq isle core.toNat s)
/-- MX_TILE_HANDOVER (R150). -/
def execMxTileHandover (r : BitVec 12) (seq : DWord) (tile : Nat) (s : State) : Host.Outcome State Fault Refusal :=
  .next (mxHandover r.toNat seq tile s)
/-- EPILOGUE_END (R149). -/
def execEpilogueEnd (r : BitVec 12) (seq : DWord) (tile : Nat) (s : State) : Host.Outcome State Fault Refusal :=
  .next (mxEpilogue r.toNat seq tile s)
/-- SPILLED_FOLLOWER_START (R151). -/
def execSpilledFollowerStart (r : BitVec 12) (seq : DWord) (s : State) : Host.Outcome State Fault Refusal :=
  .next (spillStart r.toNat seq s)
/-- VX_TILE_END (R302). -/
def execVxTileEnd (r : BitVec 12) (seq : DWord) (tile : Nat) (s : State) : Host.Outcome State Fault Refusal :=
  .next (vxEnd r.toNat seq tile s)

end Sys2Proof.Machine
end

