-- ==== Sys2Proof/Machine/Streams.lean ====
section
/-! DEFINITION. The bindings of output streams to IX rings (R528, R529). -/

namespace Sys2Proof.Machine

/-- A ring that leaves ON stops the formatters bound to it (R529): STREAM_UNBOUND once for each. -/
def streamUnbound (r : Nat) (s : State) : State :=
  (s.pipes.map (·.1)).foldl (fun a k =>
    let x := a.pipe k
    if x.obj.st = .off then a
    else
      ((x.bound.filter (fun b => b.2 == r && !(x.stopped.contains b.1))).map (·.1)).foldl (fun b f =>
        machineEvent 0x0313 0 (k % 4 + k / 4 * 4 + f * 8) none 0 (w32 r)
          (b.setPipe k { b.pipe k with stopped := (b.pipe k).stopped ++ [f] })) a) s

end Sys2Proof.Machine
end

