-- ==== Sys2Proof/Machine/Partitions.lean ====
section
/-! DEFINITION. Partitions, rings and tenants as life-cycle objects (R183–R187, R196, R208–R212, R219–R223, R237–R239):
the shared operations their commands, resets, losses and shape changes use. -/

namespace Sys2Proof.Machine

/-! ### Rings -/

/-- Rings with a sampled context in a partition, not OFF. -/
def State.ringsIn (s : State) (p : Nat) : List Nat :=
  s.ringIds.filter (fun r => (s.ring r).obj.st != .off && (s.ring r).ctx.part == p)

/-- Rings with a sampled context of a tenant, not OFF. -/
def State.ringsOfTen (s : State) (n : Nat) : List Nat :=
  s.ringIds.filter (fun r => (s.ring r).obj.st != .off && (s.ring r).ctx.tenant == n)

/-- TENANT, PART, ENGINE, SLOT, WEIGHT of RING_r_BIND (Table 7-1). -/
def Ring.bTenant (x : Ring) : Nat := Fld x.bind 0 4
def Ring.bPart (x : Ring) : Nat := Fld x.bind 4 6
def Ring.bEngine (x : Ring) : Nat := Fld x.bind 12 3
def Ring.bSlot (x : Ring) : Nat := Fld x.bind 16 8
def Ring.bWeight (x : Ring) : Nat := if Fld x.bind 28 4 = 0 then 16 else Fld x.bind 28 4

/-- A member of an FX_REDUCE has counted the n − 1 contributions of its group (R419). -/
def State.memberCounted (s : State) (c : Cmd) (m : Nat) : Bool :=
  let f := fxRedOf c.bytes
  let b := c.box.getD ⟨0, 0, 0, 0, 0, 0⟩
  decide ((groupOf b f.axes c.mods.length m).length - 1 ≤ (s.ctr (ctrKey (c.mods.getD m 0) f.counter)).count)

/-- A dispatched command that waits on a condition rather than on its own work (R223, R239): of an FX_REDUCE, a member
that neither has folded nor could. -/
def State.conditional (s : State) (c : Cmd) : Bool :=
  match opOf c.bytes with
  | some .waitTally | some .fxAwait => true
  | some .ixFrame => !c.begun
  | some .fxReduce => (List.range c.mods.length).any (fun m => !(c.ended.contains m) && !(s.memberCounted c m))
  | _ => false

/-- A ring that leaves ON takes no value of a scan still outstanding (R270). -/
def forgetScan (r p : Nat) (s : State) : State :=
  let x := s.part p
  s.setPart p { x with scan := { x.scan with rings := x.scan.rings.filter (fun q => q != r) } }

/-- A ring enters WINDING (R239): it stops fetching and drops what was fetched. `waits`: its waiting commands end with
WAIT_TIMEOUT; otherwise the cut that follows ends them. -/
def windRing (waits : Bool) (r : Nat) (s : State) : State :=
  let x := s.ring r
  if x.obj.st = .on then
    let s1 := forgetScan r x.ctx.part
      (s.setRing r { x with obj := { st := .winding }, fetched := [], asked := 0, headTick := none })
    let s2 := dropReads (fun h => match h.purpose with | .fetch q _ => q == r | _ => false) s1
    let s3 := streamUnbound r s2
    if waits then ((s3.ring r).inProg.filter s3.conditional).foldl (fun a c => complete r c.seq 0x200 (waitInfo a c) a) s3 else s3
  else s

/-- A ring's enable takes effect (R238): the context is sampled, CONS, PROD and the tally are set, and TBASE is due in
its tally word. FETCH_FAULT keeps its value (log 102). Late faults of commands before the enable are no more
counted: a SETTLE covers the commands dispatched since (R288). -/
def startRing (r : Nat) (s : State) : State :=
  let x := s.ring r
  postTally r (s.setRing r { x with
    obj := { st := .on }
    ctx := { tenant := x.bTenant, part := x.bPart, engine := x.bEngine, slot := x.bSlot, weight := x.bWeight,
             log2 := x.size.toNat, base := x.base, taddr := x.taddr, tbase := x.tbase, start := x.start }
    cons := x.start, prod := x.start, tally := x.tbase, disp := x.tbase, tallyDue := true, tallyHeld := false,
    fetched := [], asked := 0, cmds := [], headTick := none, faults := [], prev := none, chainCut := false, spillChain := [] })

/-- Rings OFF with PENDING set that name a partition (R187). -/
def State.pendingRings (s : State) (p : Nat) : List Nat :=
  s.ringIds.filter (fun r => (s.ring r).obj.pending && (s.ring r).bPart == p)

/-- PENDING of the rings that wait on a partition clears (R196). -/
def clearPendingRings (p : Nat) (s : State) : State :=
  (s.pendingRings p).foldl (fun a r => let x := a.ring r; a.setRing r { x with obj := { x.obj with pending := false } }) s

/-- The rings that waited on a partition become ON with it (R187). -/
def startPendingRings (p : Nat) (s : State) : State :=
  ((s.pendingRings p).filter (fun r => (s.ring r).obj.st == .off)).foldl (fun a r => startRing r a) s

/-- A WINDING ring ends its wind-down (R185, R239): OFF, or ON if PENDING and its partition is ON. -/
def endRing (r : Nat) (s : State) : State :=
  let x := s.ring r
  if x.obj.st = .winding then
    let s1 := s.setRing r { x with obj := { x.obj with st := .off } }
    if x.obj.pending && (s.part x.bPart).obj.st == .on then startRing r s1 else s1
  else s

/-! ### Partitions -/

/-- Complete with CUT every command in progress of a partition (R313); an MV_COPY completes when its channel has
stopped (R340), or at once where it waits for a channel after a fence (R318). -/
def cutCommands (p : Nat) (s : State) : State :=
  (s.ringsIn p).foldl (fun a r =>
    (a.ring r).inProg.foldl (fun b c =>
      if opOf c.bytes == some .mvCopy && c.rechan.isNone then
        (b.chans.filter (fun h => h.2.owner == some (r, c.seq))).foldl (fun d h => abortChan h.1 d) b
      else completeCut r c.seq b) a) s

/-- Close the gates of modules to writes (Table 6-6 step 4, R223). -/
def closeGates (mods : List Nat) (s : State) : State :=
  mods.foldl (fun a w => a.setMod w { a.mod w with gateClosed := true }) s

/-- Erase a tenant's key slot in modules. -/
def eraseSlots (n : Nat) (mods : List Nat) (s : State) : State :=
  mods.foldl (fun a w =>
    let m := a.mod w
    a.setMod w { m with
      keyTen := m.keyTen &&& ~~~(BitVec.ofNat 16 (2 ^ n)), slotKeys := tset 0 n 0 m.slotKeys, keyRetry := none }) s

/-- Undo the binding of modules and reopen their gates. -/
def unbind (mods : List Nat) (s : State) : State :=
  mods.foldl (fun a w => a.setMod w { a.mod w with bind := none, gateClosed := false }) s

/-- The modules of the box that a partition is, or waits to be, enabled with: as sampled, or as PART_p_BOX holds it while it
is OFF with PENDING set (R212). -/
def State.boxMods (s : State) (p : Nat) : List Nat :=
  let x := s.part p
  if x.obj.st == .off && x.obj.pending then
    let b := boxOf x.boxReg
    if b.legal s.sh.shape then b.mods s.sh.shape else []
  else x.mods

/-- A partition that is ON, WINDING or PENDING holds a module (R212, R341). -/
def State.partHas (s : State) (p w : Nat) : Bool := (s.part p).obj.busy && (s.boxMods p).contains w

/-- The item of the configuration store that records a partition (R234). -/
def partItem (p : Nat) : Nat := 0x30008 + p / 16 * 0x1000 + p % 16 * 0x40

/-- The enable steps of a partition stop (R212): its slots are erased, and it ends OFF. -/
def cancelEnable (p : Nat) (s : State) : State :=
  let x := s.part p
  clearPendingRings p
    ((unbind x.mods (eraseSlots x.owner x.mods s)).setPart p { x with obj := {}, wind := .none, box := none, mods := [] })

/-- The rings of a winding partition stop fetching; a cut ends its commands and closes its gates (R223). -/
def stopPart (p : Nat) (cut : Bool) (s : State) : State :=
  let st := (s.ringsIn p).foldl (fun a r => windRing (!cut) r a) s
  if cut then closeGates (s.part p).mods (cutCommands p st) else st

/-- The read of a scan of a partition is outstanding. -/
def State.scanRead (s : State) (p : Nat) : Bool := s.reads.any (fun h => h.2.elim false (fun r => r.purpose == .scan p))

/-- A partition winds down (R223, R229, Table 6-6 step 3). From ON it enters WINDING; a cut overrides a wind-down in
progress (R223, R226). PENDING: a disable clears it, a reset sequence and a loss keep it (R185). A scan whose read is
outstanding stays so and delivers to no ring (R270). `lost`: it is forced by the loss of a module or of the shape (R203). -/
def windPart (p : Nat) (how : Wind) (lost : Bool) (s : State) : State :=
  let x := s.part p
  let cut := how != .finish
  let keep := (how == .reset || lost) && x.obj.pending
  let go := stopPart p cut
  match x.obj.st with
  | .off => if x.obj.pending then clearPendingRings p (s.setPart p { x with obj := {} }) else s
  | .on => go (clearPendingRings p
      (s.setPart p { x with
        obj := { st := .winding }, wind := how, lost := lost, scan := { out := s.scanRead p } }))
  | .winding =>
    if x.wind = .enabling then
      if how = .reset then
        (eraseSlots x.owner x.mods s).setPart p { x with wind := .reset }
      else cancelEnable p s
    else if cut then
      go ((if keep then s else clearPendingRings p s).setPart p { x with
        obj := { st := .winding, pending := keep }
        wind := if how == .reset || x.wind == .reset then .reset else .cut
        lost := x.lost || lost })
    else clearPendingRings p (s.setPart p { x with obj := { st := .winding } })

/-- A tray is IN_SERVICE (R701). -/
def State.trayServing (s : State) (t : Nat) : Bool := (s.tray t).svc == .inService

/-- Partitions, other than `p`, that are ON, WINDING or PENDING and hold module `w` (R212). -/
def State.heldBy (s : State) (p w : Nat) : Bool :=
  s.partIds.any (fun q => q != p && s.partHas q w)

/-- A module is present and in service for R212: with its tray IN_SERVICE (R701), and in no diagnostic mode (R341). -/
def State.modFree (s : State) (w : Nat) : Bool :=
  s.modServing w && s.trayServing (w / 8) && !(s.mod w).diagActive && !(s.mod w).diagEn

/-- The box, key and module conditions of a partition enable (R212), on PART_p_BOX as it stands. -/
def State.partReady (s : State) (p : Nat) : Bool :=
  let x := s.part p
  let b := boxOf x.boxReg
  b.legal s.sh.shape && (s.ten (boxOwner x.boxReg)).keyLoaded &&
  (b.mods s.sh.shape).all (fun w => s.modFree w && !(s.heldBy p w))

/-- A partition enable takes effect (R212): box and owner are sampled, and its steps run while it reads WINDING with
PENDING set. -/
def startEnable (p : Nat) (s : State) : State :=
  let x := s.part p
  if s.partReady p then
    let b := boxOf x.boxReg
    let n := boxOwner x.boxReg
    let ms := b.mods s.sh.shape
    let s1 := s.setPart p { x with
      obj := { st := .winding, pending := true }, wind := .enabling, box := some b, owner := n, mods := ms, scrub := false }
    ms.foldl (fun a w =>
      let m := a.mod w
      zeroScratch w (a.setMod w { m with
        keyTen := m.keyTen ||| BitVec.ofNat 16 (2 ^ n), slotKeys := tset 0 n (s.ten n).keyId m.slotKeys
        bind := some (n, p), gateClosed := false, keyRetry := none })) s1
  else clearPendingRings p (s.setPart p { x with obj := {}, wind := .none, box := none, mods := [], scrub := false })

/-- Clear a partition's counters (R413). -/
def clearCounters (mods : List Nat) (s : State) : State :=
  { s with fab := { s.fab with
      ctrs := s.fab.ctrs.filter (fun c => !(mods.contains (c.1 / 288)))
      contribs := s.fab.contribs.filter (fun c => !(mods.contains c.w)) } }

/-- The last module has finished the enable steps (R212, R818): ON, with its counters cleared and the rings that waited; the
stewards record it (R234). -/
def finishEnable (p : Nat) (s : State) : State :=
  let x := s.part p
  if x.obj.st = .winding ∧ x.wind = .enabling ∧
      x.mods.all (fun w => (s.mod w).keyRetry.isNone && !(s.reloading 3 w) && !(s.paused w)) then
    startPendingRings p (storeItem (partItem p) x.boxReg
      (clearCounters x.mods (s.setPart p { x with obj := { st := .on }, wind := .none })))
  else s

/-- Commands of a partition still in progress. -/
def State.partWorks (s : State) (p : Nat) : Bool := (s.ringsIn p).any (fun r => !(s.ring r).inProg.isEmpty)

/-- Packets that carry a partition's tag, in flight or kept (R223). -/
def State.partPackets (s : State) (p : Nat) : Bool :=
  s.fab.pkts.any (fun k => k.part == p && !k.diag) || s.fab.kept.any (fun k => k.pkt.part == p && !k.pkt.diag)

/-- Channels that run for a partition. -/
def State.partChans (s : State) (p : Nat) : Bool :=
  s.chans.any (fun c => c.2.obj.st != .off && (c.2.owner.elim false (fun o => (s.ring o.1).ctx.part == p)))

/-- Erase, scrub, zero and release the modules of a partition (R223, Table 6-6 steps 7–9). The columns are written to zero
under the key in the owner's slot, which goes with the scrub (R818, log 96). -/
def scrubPart (p : Nat) (s : State) : State :=
  let x := s.part p
  unbind x.mods (x.mods.foldl (fun a w => zeroScratch w (zeroColumns (s.slotKey w false x.owner) w a))
    (eraseSlots x.owner x.mods s))

/-- A partition's wind-down ends (R185, R223): OFF, or its pending enable takes effect, or waits for the newly written owner
(R187). -/
def endPart (p : Nat) (s : State) : State :=
  let x := s.part p
  let own := (s.ten (boxOwner x.boxReg)).obj
  let s1 := storeItem (partItem p) 0 (scrubPart p s)
  let s2 := s1.setPart p { s1.part p with
    obj := { st := .off, pending := x.obj.pending }, wind := .none, box := none, mods := [], scrub := false }
  if x.obj.pending then
    if own.st = .on then startEnable p s2
    else if own.parentOk then s2
    else clearPendingRings p (s2.setPart p { s2.part p with obj := {} })
  else s2

/-- A winding partition has drained (R223). -/
def State.partDrained (s : State) (p : Nat) : Bool := !(s.partWorks p) && !(s.partPackets p) && !(s.partChans p)

/-- No powered module of a partition is below 0.70 V, so that its scrubs and zeroing can end (R818). -/
def State.partAwake (s : State) (p : Nat) : Bool := (s.part p).mods.all (fun w => !(s.modServing w) || !(s.paused w))

/-- STATUS.SCRUB (R203): the column scrub of a reset sequence, or of a partition wind-down whose work has drained. -/
def State.partScrub (s : State) (p : Nat) : Bool :=
  let x := s.part p
  x.scrub || (x.obj.st == .winding && (x.wind == .finish || x.wind == .cut) && s.partDrained p)

/-- PARTITION_WIND_DOWN_DONE (R223, R818). A reset sequence ends its partitions itself (Table 6-6 step 9). -/
def partWindDone (p : Nat) (s : State) : State :=
  let x := s.part p
  if x.obj.st = .winding ∧ (x.wind = .finish ∨ x.wind = .cut) ∧ s.partDrained p ∧ s.partAwake p then endPart p s else s

/-! ### Tenants -/

/-- The function a tenant's BIND names, as it stands (R208). -/
def Ten.regPort (t : Ten) : Nat := bitsAt t.bind.toNat 0 4
def Ten.regFn (t : Ten) : Nat := bitsAt t.bind.toNat 4 4

/-- The preconditions of a tenant enable (R208, R228), on TEN_n_BIND as it stands. -/
def State.tenReady (s : State) (n : Nat) : Bool :=
  let t := s.ten n
  s.fnExists t.regPort t.regFn &&
  !(s.tenIds.any (fun m => m != n && (s.ten m).obj.busy && (s.ten m).bPort == t.regPort && (s.ten m).bFn == t.regFn))

/-- Partitions that name a tenant as owner: as sampled while busy with a box, else as PART_p_BOX holds it (R201). -/
def State.partsOf (s : State) (n : Nat) : List Nat :=
  s.partIds.filter (fun p =>
    let x := s.part p
    if x.box.isSome then x.owner == n else boxOwner x.boxReg == n)

/-- A tenant's enable takes effect (R186, R208, R245, R259); partitions that waited on it start, and the machine's own
requests that waited for its function leave (R205). DB_STATUS.FAULT and the run of failures keep their values
(log 102). -/
def startTen (n : Nat) (s : State) : State :=
  let t := s.ten n
  let s1 := s.setTen n { t with
    obj := { st := .on }, bound := t.bind, dbS := t.db, evtS := t.evt, evtSizeS := t.evtSize, evtK := 0, nextSeq := 1 }
  ((s1.partsOf n).filter (fun p => (s1.part p).obj.st == .off && (s1.part p).obj.pending)).foldl
    (fun a p => startEnable p a) (sendWaiting t.regPort t.regFn s1)

/-- PENDING of the partitions, and their rings, that wait on a tenant clears (R196). -/
def clearPendingParts (n : Nat) (s : State) : State :=
  ((s.partsOf n).filter (fun p => (s.part p).obj.pending && (s.part p).wind != .enabling)).foldl (fun a p =>
    let x := a.part p
    clearPendingRings p (a.setPart p { x with obj := { x.obj with pending := false } })) s

/-- The model's number of a tenant's key-store entry among the stored items: its value is the key's name, 0 none. -/
def keyItem (n : Nat) : Nat := 0xA0000 + 4 * n

/-- A tenant disable erases an ephemeral key and keeps an owner key (R728). -/
def dropEphemeral (n : Nat) (s : State) : State :=
  let t := s.ten n
  if t.keyLoaded && t.keyEph then
    s.setTen n { t with keyLoaded := false, keyEph := false, keyGen := t.keyGen + 1, keyId := 0 }
  else s

/-- A tenant's disable takes effect from ON (R209). -/
def windTen (n : Nat) (s : State) : State :=
  let t := s.ten n
  let s1 := s.setTen n { t with obj := { st := .winding } }
  let s2 := ((s1.partsOf n).filter (fun p => (s1.part p).obj.st == .on || (s1.part p).obj.pending)).foldl
    (fun a p => windPart p .cut false a) s1
  let s3 := (s2.ringsOfTen n).foldl (fun a r => windRing true r a) s2
  dropEphemeral n (eraseSlots n ((s3.mods.filter (fun m => m.2.keyTen.getLsbD n)).map (·.1)) s3)

/-- Items in flight for a tenant in shared engines: TEN_n_DRAIN (Table 6-6 step 5). A packet its origin keeps, and its copy
or answer on the way, are one item. -/
def State.drainCount (s : State) (n : Nat) : Nat :=
  let kept := s.fab.kept.filter (fun k => k.pkt.tenant == n && !k.pkt.diag)
  (s.readsOf n).length + kept.length +
  (s.fab.pkts.filter (fun p => p.tenant == n && !p.diag && !(kept.any (fun k => k.pkt.tag == p.tag)))).length +
  (s.chans.filter (fun c => c.2.obj.st != .off && c.2.owner.elim false (fun o => (s.ring o.1).ctx.tenant == n))).length

/-- The fresh key of step 7 of a reset sequence (Table 6-6), in the key service and in every slot that holds the tenant's;
none while the key service has none to give (R231). -/
def freshKey (n : Nat) (s : State) : State :=
  if s.keys.ready then
    let t := s.ten n
    let id := s.keySerial + 1
    let s1 := s.setTen n { t with keyLoaded := true, keyEph := true, keyGen := t.keyGen + 1, keyId := id }
    let s2 := ((s1.mods.filter (fun m => m.2.keyTen.getLsbD n)).map (·.1)).foldl (fun a w =>
      a.setMod w { a.mod w with slotKeys := tset 0 n id (a.mod w).slotKeys }) s1
    -- the owner's entry in the store is erased; the fresh key is never committed (R728)
    storeItem (keyItem n) 0 { s2 with keySerial := id }
  else s

/-- A tenant's outstanding host reads are abandoned, its partitions' scans with them (Table 6-6 step 2). -/
def dropTenReads (n : Nat) (s : State) : State :=
  let s1 := dropReads (fun h => h.tenant == some n) s
  s1.partIds.foldl (fun a p =>
    if (a.part p).scan.out && !(a.scanRead p) then a.setPart p { a.part p with scan := {} } else a) s1

/-- The tallies of a tenant's rings that are held or due are dropped (R271). -/
def dropTallies (n : Nat) (s : State) : State :=
  (s.ringsOfTen n).foldl (fun a r => a.setRing r { a.ring r with tallyHeld := false, tallyDue := false }) s

/-- A tenant's reset sequence starts (Table 6-6 steps 1–4, R226, R227, R271), or goes on where one is draining. `cfg`: the
function's configuration is to be reset at reset done; otherwise it has been reset at once, and is not again (R817). -/
def startReset (n : Nat) (cfg : Bool) (s : State) : State :=
  let t := s.ten n
  match t.flr with
  | .drain | .drainScrub => s.setTen n { t with flrCfg := t.flrCfg && cfg }
  | ph =>
    let s1 := s.setTen n { t with
      flr := if ph = .idle then .drain else .drainScrub, flrTick := w64 s.upTimeAll, flrCfg := cfg, heldW := [] }
    let s2 := (s1.ringsOfTen n).foldl (fun a r => windRing false r a) s1
    let s3 := dropTenReads n s2
    dropTallies n
      (((s3.partsOf n).filter (fun p => (s3.part p).obj.st != .off)).foldl (fun a p => windPart p .reset false a) s3)

/-- Reset done (Table 6-6 steps 6 and 7). -/
def resetDone (n : Nat) (forced : Bool) (s : State) : State :=
  let t := s.ten n
  let s1 := if t.flrCfg then s.setFn t.bPort t.bFn {} else s
  let cnt := t.flrCount + 1
  let s2 := s1.setTen n { t with
    flr := .scrub, flrCount := cnt, flrTb := s.win.tb, flrForced := forced, flrCfg := false }
  let s3 := machineEvent 0x070C n (n + 16 * b2n forced) none s.win.tb cnt s2
  if t.flr = .drain then
    let s4 := freshKey n s3
    ((s4.partsOf n).filter (fun p => (s4.part p).wind == .reset)).foldl
      (fun a p => a.setPart p { a.part p with scrub := true }) s4
  else s3

/-- Discard everything a tenant still has in the shared engines (R220). -/
def discardItems (n : Nat) (s : State) : State :=
  let s1 := dropTenReads n s
  let s2 := { s1 with fab := { s1.fab with
      pkts := s1.fab.pkts.filter (fun p => !(p.tenant == n && !p.diag))
      kept := s1.fab.kept.filter (fun k => !(k.pkt.tenant == n && !k.pkt.diag)) } }
  (s2.chans.filter (fun c => c.2.owner.elim false (fun o => (s2.ring o.1).ctx.tenant == n))).foldl
    (fun a c => endAbort c.1 (abortChan c.1 a)) s2

/-- The partitions of a tenant whose enable was latched during its reset sequence (R222): OFF with PENDING set. -/
def State.latchedParts (s : State) (n : Nat) : List Nat :=
  (s.partsOf n).filter (fun p => (s.part p).obj.st == .off && (s.part p).obj.pending)

/-- Steps 8 and 9 end (Table 6-6, R818): columns and scratch are zeroed, and partitions and rings go OFF, or ON if PENDING;
enables latched meanwhile take effect (R222). -/
def scrubDone (n : Nat) (s : State) : State :=
  let t := s.ten n
  if t.flr = .scrub ∧ ((s.partsOf n).filter (fun p => (s.part p).wind == .reset)).all s.partAwake then
    let s1 := s.setTen n { t with flr := .idle }
    let s2 := (s1.ringsOfTen n).foldl (fun a r =>
      if (a.ring r).inProg.isEmpty then endRing r a else a) s1
    let s3 := ((s2.partsOf n).filter (fun p => (s2.part p).wind == .reset)).foldl (fun a p => endPart p a) s2
    if t.obj.st = .on then (s3.latchedParts n).foldl (fun a p => startEnable p a) s3 else s3
  else s

end Sys2Proof.Machine
end

