-- ==== Sys2Proof/Machine/Tenants.lean ====
section
/-! DEFINITION. Commands of tenants, partitions and host functions (ch. 6): enables and disables, resets, links. -/

namespace Sys2Proof.Machine

/-- TEN_n_CTL.EN (R183, R185, R208). -/
def tenantEnable (n : Nat) (s : State) : Verdict :=
  match (s.ten n).obj.st with
  | .on => .ok s
  | .off => if s.tenReady n then .ok (startTen n s) else .error 5
  | .winding =>
    if (s.ten n).obj.pending then .ok s
    else if s.tenReady n then .ok (s.setTen n { s.ten n with obj := { st := .winding, pending := true } }) else .error 5

/-- TEN_n_CTL.DIS (R183, R185, R209). -/
def tenantDisable (n : Nat) (s : State) : Verdict :=
  match (s.ten n).obj.st with
  | .off => .ok s
  | .on => .ok (windTen n s)
  | .winding => .ok (clearPendingParts n (s.setTen n { s.ten n with obj := { st := .winding } }))

/-- Canonical offset of tenant n's page (R202). -/
def tenOff (n : Nat) : Nat := 0x20000 + n * 0x1000

def execTenantEnable (port n : BitVec 4) (s : State) : Host.Outcome State Fault Refusal :=
  .next (regOp port.toNat (tenOff n.toNat) 1 (tenantEnable n.toNat s) s)

def execTenantDisable (port n : BitVec 4) (s : State) : Host.Outcome State Fault Refusal :=
  .next (regOp port.toNat (tenOff n.toNat) 2 (tenantDisable n.toNat s) s)

/-- TENANT_WIND_DOWN_DONE (R209, R275): OFF, or ON where a pending enable is legal at this moment (R208, R228); one that
is not ends OFF like a partition's (R212), and nothing waits on it any more (log 101). -/
def tenantDown (n : Nat) (s : State) : State :=
  let t := s.ten n
  if t.obj.st = .winding ∧ t.flr = .idle ∧ (s.partsOf n).all (fun p => (s.part p).obj.st == .off) ∧ (s.ringsOfTen n).isEmpty then
    if t.obj.pending && s.tenReady n then startTen n s
    else clearPendingParts n (dropTenReads n
      (s.setTen n { t with obj := {}, evtLost := satAdd t.evtLost t.held.length, held := [], heldLost := 0, heldW := [] }))
  else s

def execTenantWindDownDone (n : BitVec 4) (s : State) : Host.Outcome State Fault Refusal := .next (tenantDown n.toNat s)

/-- PART_p_CTL.EN (R185, R187, R212): latched as PENDING while its owner's enable, or its reset sequence, is not over
(R222). -/
def partitionEnable (p : Nat) (s : State) : Verdict :=
  let x := s.part p
  let own := (s.ten (boxOwner x.boxReg)).obj
  match x.obj.st with
  | .on => .ok s
  | .off =>
    if x.obj.pending then .ok s
    else if !(own.parentOk) || !(s.partReady p) then .error 5
    else if own.st = .on ∧ (s.ten (boxOwner x.boxReg)).flr = .idle then .ok (startEnable p s)
    else .ok (s.setPart p { x with obj := { st := .off, pending := true } })
  | .winding =>
    if x.obj.pending then .ok s
    else if own.parentOk then .ok (s.setPart p { x with obj := { st := .winding, pending := true } }) else .error 5

/-- PART_p_CTL.DIS, with or without CUT (R183, R185, R223). -/
def partitionDisable (p : Nat) (cut : Bool) (s : State) : Verdict :=
  .ok (windPart p (if cut then .cut else .finish) false s)

/-- Canonical offset of partition p's registers (R203). -/
def partOff (p : Nat) : Nat := 0x30000 + p / 16 * 0x1000 + p % 16 * 0x40

def execPartitionEnable (port : BitVec 4) (p : BitVec 6) (s : State) : Host.Outcome State Fault Refusal :=
  .next (regOp port.toNat (partOff p.toNat) 1 (partitionEnable p.toNat s) s)

/-- PARTITION_ENABLE_DONE (R212). -/
def execPartitionEnableDone (p : BitVec 6) (s : State) : Host.Outcome State Fault Refusal := .next (finishEnable p.toNat s)

def execPartitionDisable (port : BitVec 4) (p : BitVec 6) (s : State) : Host.Outcome State Fault Refusal :=
  .next (regOp port.toNat (partOff p.toNat) 2 (partitionDisable p.toNat false s) s)

def execPartitionCut (port : BitVec 4) (p : BitVec 6) (s : State) : Host.Outcome State Fault Refusal :=
  .next (regOp port.toNat (partOff p.toNat) 6 (partitionDisable p.toNat true s) s)

def execPartitionWindDownDone (p : BitVec 6) (s : State) : Host.Outcome State Fault Refusal := .next (partWindDone p.toNat s)

/-! ### Host functions -/

/-- The tenant, ON or WINDING, bound to a function (R817). -/
def State.resetTen (s : State) (port fn : Nat) : Option Nat :=
  s.tenIds.find? (fun n => (s.ten n).obj.st != .off && (s.ten n).bPort == port && (s.ten n).bFn == fn)

/-- Start the reset sequence of the tenant bound to a function, if there is one. -/
def resetFn (port fn : Nat) (cfg : Bool) (s : State) : State :=
  match s.resetTen port fn with
  | some n => startReset n cfg s
  | none => s

/-- The virtual functions of a port that exist. -/
def State.vfs (s : State) (port : Nat) : List Nat := (List.range 16).filter (fun f => f != 0 && s.fnExists port f)

/-- NumVFs and VF Enable change (R210): each VF that stops existing loses its configuration, and its tenant is reset. -/
def setSriov (port : Nat) (nv : BitVec 4) (en : Bool) (s : State) : State :=
  let old := s.vfs port
  let s1 := s.setPort port { s.port port with numVfs := nv, vfEn := en }
  (old.filter (fun f => !(s1.fnExists port f))).foldl (fun a f => resetFn port f false (a.setFn port f {})) s1

/-- The tenant bound to a function has FLR_ACTIVE set. -/
def State.flrRunning (s : State) (port fn : Nat) : Bool :=
  match s.resetTen port fn with
  | some n => (s.ten n).flr == .drain || (s.ten n).flr == .drainScrub
  | none => false

/-- Function Level Reset (R219, R817): none further while one of the same function runs (R227). -/
def flr (port fn : Nat) (s : State) : State :=
  if s.fnExists port fn && !(s.flrRunning port fn) then
    let s1 := if fn = 0 then setSriov port 0 false s else s
    match s1.resetTen port fn with
    | some n => startReset n true s1
    | none => s1.setFn port fn {}
  else s

def execFunctionLevelReset (port fn : BitVec 4) (s : State) : Host.Outcome State Fault Refusal :=
  .next (flr port.toNat fn.toNat s)

/-- Every function of a port is reset at once, and every tenant bound to one undergoes the reset sequence (R817). -/
def resetPort (port : Nat) (s : State) : State :=
  let s1 := setSriov port 0 false s
  let s2 := (List.range 16).foldl (fun a f => a.setFn port f {}) s1
  let s3 := s2.setPort port { s2.port port with resets := (s2.port port).resets + 1 }
  (List.range 16).foldl (fun a f => resetFn port f false a) s3

/-- Hot reset of a port whose link is up (R817). -/
def hotReset (port : Nat) (s : State) : State := if (s.port port).up then resetPort port s else s

def execHotReset (port : BitVec 4) (s : State) : Host.Outcome State Fault Refusal := .next (hotReset port.toNat s)

/-- A port's link leaves L0 (R789, R817). -/
def linkDown (port : Nat) (s : State) : State :=
  if (s.port port).up then
    resetPort port (s.setPort port { s.port port with up := false, speed := 0, width := 0, flit := false })
  else s

def execLinkDown (port : BitVec 4) (s : State) : Host.Outcome State Fault Refusal := .next (linkDown port.toNat s)

/-- Send what waits for the functions of a port, in turn (R206). -/
def sendPort (port : Nat) (s : State) : State := sendFns port (List.range 16) s

/-- A port's link enters L0 (R788). -/
def linkUpEvent (port : Nat) (speed : BitVec 3) (width : BitVec 5) (flit : Bool) (s : State) : State :=
  if s.bridgeReady port then
    let x := s.port port
    sendPort port (s.setPort port { x with up := true, speed := speed, width := width, flit := flit, trains := x.trains + 1 })
  else s

def execHostLinkUp (port : BitVec 4) (speed : BitVec 3) (width : BitVec 5) (flit : Bool) (s : State) :
    Host.Outcome State Fault Refusal := .next (linkUpEvent port.toNat speed width flit s)

/-- A write of VF Enable and NumVFs (R204, R210). -/
def execVfDisable (port : BitVec 4) (numVfs : BitVec 4) (vfEn : Bool) (s : State) : Host.Outcome State Fault Refusal :=
  .next (if (s.port port.toNat).up then setSriov port.toNat numVfs vfEn s else s)

/-- A function's Bus Master Enable changes (R205). -/
def setBme (port fn : Nat) (on : Bool) (s : State) : State :=
  if (s.port port).up && s.fnExists port fn then
    sendWaiting port fn (s.setFn port fn { s.fnc port fn with bme := on })
  else s

def execBusMasterEnableChange (port fn : BitVec 4) (on : Bool) (s : State) : Host.Outcome State Fault Refusal :=
  .next (setBme port.toNat fn.toNat on s)

/-- A configuration request of the PCI Express subset (R204): Max Payload Size 128 to 512 B, Max Read Request Size 128 to
4,096 B, Bus Master Enable and SR-IOV. -/
def pcieConfig (port fn : Nat) (cfg : CfgWrite) (s : State) : State :=
  if (s.port port).up && s.fnExists port fn then
    let f := s.fnc port fn
    match cfg with
    | .mps v => if v.toNat ≤ 2 then s.setFn port fn { f with mps := v } else s
    | .mrrs v => if v.toNat ≤ 5 then s.setFn port fn { f with mrrs := v } else s
    | .bme on => setBme port fn on s
    | .sriov nv en => if fn = 0 then setSriov port nv en s else s
  else s

def execPcieConfigWrite (port fn : BitVec 4) (cfg : CfgWrite) (s : State) : Host.Outcome State Fault Refusal :=
  .next (pcieConfig port.toNat fn.toNat cfg s)

/-- FLR_RESET_DONE (Table 6-6 steps 6 and 7). -/
def flrDone (n : Nat) (s : State) : State :=
  let t := s.ten n
  if (t.flr = .drain ∨ t.flr = .drainScrub) ∧ s.drainCount n = 0 then resetDone n false s else s

def execFlrResetDone (n : BitVec 4) (s : State) : Host.Outcome State Fault Refusal := .next (flrDone n.toNat s)

/-- FLR_DRAIN_TIMEOUT (R220): 2 ms, 200,000 ticks, after the reset took effect, time below 0.70 V not counted (R232). -/
def flrTimeout (n : Nat) (s : State) : State :=
  let t := s.ten n
  if (t.flr = .drain ∨ t.flr = .drainScrub) ∧ s.drainCount n ≠ 0 ∧ t.flrTick.toNat + 200000 ≤ s.upTimeAll then
    resetDone n true (discardItems n s)
  else s

def execFlrDrainTimeout (n : BitVec 4) (s : State) : Host.Outcome State Fault Refusal := .next (flrTimeout n.toNat s)

/-- FLR_SCRUB_DONE (Table 6-6 steps 8 and 9). -/
def execFlrScrubDone (n : BitVec 4) (s : State) : Host.Outcome State Fault Refusal := .next (scrubDone n.toNat s)

end Sys2Proof.Machine
end

