-- ==== Sys2Proof/Machine/Rings.lean ====
section
/-! DEFINITION. Commands of rings, doorbell scans, nudges and ring fetches (ch. 7). -/

namespace Sys2Proof.Machine

/-- The preconditions of a ring enable (R237), on RING_r_BIND as it stands. A ring WINDING with PENDING set counts with the
SLOT it sampled (log 102). -/
def State.ringReady (s : State) (r : Nat) : Bool :=
  let x := s.ring r
  let n := x.bTenant
  let p := s.part x.bPart
  (s.ten n).obj.st == .on && s.fnExists (s.ten n).bPort (s.ten n).bFn &&
  -- during its tenant's reset sequence a latched partition enable is parent enough (R222)
  (p.obj.parentOk || (p.obj.pending && (s.ten n).flr != .idle)) &&
  (if p.box.isSome then p.owner else boxOwner p.boxReg) == n &&
  !(s.ringIds.any (fun q =>
    let y := s.ring q
    q != r && y.obj.busy &&
      (if y.obj.st = .off then y.bTenant == n && y.bSlot == x.bSlot else y.ctx.tenant == n && y.ctx.slot == x.bSlot)))

/-- RING_r_CTL.EN (R183, R185, R187, R237). -/
def ringEnable (r : Nat) (s : State) : Verdict :=
  let x := s.ring r
  match x.obj.st with
  | .on => .ok s
  | .off =>
    if x.obj.pending then .ok s
    else if !(s.ringReady r) then .error 5
    else if (s.part x.bPart).obj.st = .on then .ok (startRing r s)
    else .ok (s.setRing r { x with obj := { st := .off, pending := true } })
  | .winding =>
    if x.obj.pending then .ok s
    else if s.ringReady r then .ok (s.setRing r { x with obj := { st := .winding, pending := true } }) else .error 5

/-- RING_r_CTL.DIS (R183, R185, R239). -/
def ringDisable (r : Nat) (s : State) : Verdict :=
  let x := s.ring r
  match x.obj.st with
  | .on => .ok (windRing true r s)
  | _ => .ok (s.setRing r { x with obj := { x.obj with pending := false } })

/-- Canonical offset of ring r's context (R236). -/
def ringOff (r : Nat) : Nat := 0x40000 + r * 0x40

def execRingEnable (port : BitVec 4) (r : BitVec 12) (s : State) : Host.Outcome State Fault Refusal :=
  .next (regOp port.toNat (ringOff r.toNat) 1 (ringEnable r.toNat s) s)

def execRingDisable (port : BitVec 4) (r : BitVec 12) (s : State) : Host.Outcome State Fault Refusal :=
  .next (regOp port.toNat (ringOff r.toNat) 2 (ringDisable r.toNat s) s)

/-- RING_WIND_DOWN_DONE (R239): the last dispatched command has completed and its tally write has been issued. A ring
whose tenant is in a reset sequence ends with it (Table 6-6 step 9). -/
def ringDown (r : Nat) (s : State) : State :=
  let x := s.ring r
  if x.inProg.isEmpty && !x.tallyDue && (s.ten x.ctx.tenant).flr == .idle then endRing r s else s

def execRingWindDownDone (r : BitVec 12) (s : State) : Host.Outcome State Fault Refusal := .next (ringDown r.toNat s)

/-! ### Scans (R246–R249, R265) -/

/-- ON rings of a partition. -/
def State.onRings (s : State) (p : Nat) : List Nat :=
  s.ringIds.filter (fun r => (s.ring r).obj.st == .on && (s.ring r).ctx.part == p)

/-- A scanning partition (R246); scans of a tenant in a reset sequence stop (Table 6-6 step 1). -/
def State.scanning (s : State) (p : Nat) : Bool :=
  let x := s.part p
  x.obj.st == .on && !(s.onRings p).isEmpty && !((s.ten x.owner).flr == .drain || (s.ten x.owner).flr == .drainScrub)

/-- Bytes a scan reads: to the end of the 64-byte block of the highest SLOT (R247). -/
def State.scanLen (s : State) (p : Nat) : Nat :=
  (((s.onRings p).map (fun r => (s.ring r).ctx.slot)).foldl max 0 * 4 / 64 + 1) * 64

/-- Start a scan (R247). -/
def startScan (p : Nat) (s : State) : State :=
  let x := s.part p
  tenRead x.owner (s.ten x.owner).dbS (s.scanLen p) (.scan p)
    (s.setPart p { x with scan := { x.scan with out := true, rings := s.onRings p } })

/-- The scan interval in force at this tick: a change of SCAN applies from the first tick after its write (R246). -/
def State.scanNow (s : State) (n : Nat) : Nat :=
  let t := s.ten n
  if t.scanTick = s.win.tb.toNat + 1 then t.scanWas.toNat else t.scan.toNat

/-- SCAN_DUE (R246): at a tick t with t mod I = 0; none below 0.70 V (R272). -/
def scanDue (p : Nat) (s : State) : State :=
  if s.scanning p && !(s.part p).scan.out && !(s.leadPaused p) && decide (s.win.tb.toNat % s.scanNow (s.part p).owner = 0) then
    startScan p (s.setPart p { s.part p with scan := { (s.part p).scan with due := s.win.tb.toNat + 1 } })
  else s

def execScanDue (p : BitVec 6) (s : State) : Host.Outcome State Fault Refusal := .next (scanDue p.toNat s)

/-- The oldest outstanding read, with its number, whose purpose meets a test. -/
def State.readFor (s : State) (q : RdPurpose → Bool) : Option (Nat × HRead) :=
  s.reads.findSome? (fun p => p.2.bind (fun h => if q h.purpose then some (p.1, h) else none))

/-- Remove an outstanding read. -/
def endRead (id : Nat) (s : State) : State := { s with reads := s.reads.filter (fun p => p.1 != id) }

/-- A ring evaluates a value its scan delivered (R241). -/
def ringEvaluate (r : Nat) (w : Word) (s : State) : State :=
  let x := s.ring r
  let d := w - x.prod
  let count := fun (c : BitVec 4) => s.setRing r { x with ignored := satInc x.ignored, lastCause := c }
  if d = 0 then s
  else if 0x80000000#32 ≤ d then count 2
  else if 2 ^ x.ctx.log2 < (w - x.cons).toNat then count 3
  else s.setRing r { x with prod := w }

/-- After a scan of a partition, whatever its outcome: rings retry a failed fetch (R266), and a queued scan starts
(R248). -/
def afterScan (p : Nat) (s : State) : State :=
  let s1 := (s.onRings p).foldl (fun a r => a.setRing r { a.ring r with fetchWait := false }) s
  let x := s1.part p
  let s2 := s1.setPart p { x with scan := { due := x.scan.due } }
  if x.scan.queued && s2.scanning p then
    if s2.leadPaused p then s2.setPart p { s2.part p with scan := x.scan } else startScan p s2
  else s2

/-- The queued scan that crawl has kept starts when the lead command processor is back at 0.70 V (R272). -/
def resumeScan (p : Nat) (s : State) : State :=
  let x := s.part p
  if x.scan.queued && s.scanning p && !(s.leadPaused p) && !(s.scanRead p) then
    startScan p (s.setPart p { x with scan := { x.scan with queued := false } })
  else s

/-- An event of a tenant's doorbell (Table 7-6): of no partition and no ring, PART_VALID and RING_VALID 0 (log 102). -/
def dbEvent (s : State) (n code detail : Nat) (arg1 : Word) : Event :=
  { code := BitVec.ofNat 16 code, tenant := BitVec.ofNat 4 n, machine := false, part := none, ring := none,
    detail := BitVec.ofNat 16 detail, tb := s.win.tb, arg0 := (s.ten n).dbS, arg1 := arg1 }

/-- A scan's read completes (R247, R265): the rings that were ON when it started, and have been since, evaluate their words
(R268, R270, R277). -/
def scanDone (p : Nat) (data : List Byte) (s : State) : State :=
  match s.readFor (fun u => u == .scan p) with
  | none => s
  | some (id, h) =>
    if !h.sent || data.length != h.len || s.leadPaused p then s
    else
      let n := h.tenant.getD 0
      let s1 := endRead id s
      let t := s1.ten n
      let s2 := s1.setTen n { t with scans := t.scans + 1, dbFault := false, dbRun := 0 }
      let s3 := if t.dbFault then deliver n (dbEvent s2 n 0x0102 0 t.dbRun) s2 else s2
      let s4 := ((s3.onRings p).filter (fun r => (s3.part p).scan.rings.contains r)).foldl
        (fun a r => ringEvaluate r (w32 (fieldAt data (4 * (a.ring r).ctx.slot) 4)) a) s3
      afterScan p s4

def execScanReadComplete (p : BitVec 6) (data : List Byte) (s : State) : Host.Outcome State Fault Refusal :=
  .next (scanDone p.toNat data s)

/-- Cause codes of failed host reads (Table 7-6). -/
def failCode : HostFail → Nat
  | .urca => 1 | .timeout => 2 | .poison => 3

/-- A read may fail so now: a timeout comes 10 ms, 1,000,000 ticks, after its request and no sooner (R265). -/
def State.mayFail (s : State) (h : HRead) (f : HostFail) : Bool :=
  h.sent && (f != .timeout || decide (h.tick.toNat + 1000000 ≤ s.win.tb.toNat))

/-- The port counts a completion timeout (R788), and PF0's error reporting notes it or poisoned data (Table 6-3). -/
def portFail (port : Nat) (f : HostFail) (s : State) : State :=
  let x := s.port port
  match f with
  | .urca => s
  | .timeout => s.setPort port { x with cplTimeouts := satInc x.cplTimeouts, aer := x.aer ||| w32 (2 ^ 14) }
  | .poison => s.setPort port { x with aer := x.aer ||| w32 (2 ^ 12) }

/-- A scan fails (R265). -/
def scanFail (p : Nat) (cause : HostFail) (s : State) : State :=
  match s.readFor (fun u => u == .scan p) with
  | none => s
  | some (id, h) =>
    if !(s.mayFail h cause) then s
    else
      let n := h.tenant.getD 0
      let s1 := endRead id (portFail h.port cause s)
      let t := s1.ten n
      let s2 := s1.setTen n { t with
        scans := t.scans + 1, dbFails := satInc t.dbFails, dbFault := true, dbRun := if t.dbFault then satInc t.dbRun else 1 }
      let s3 := if t.dbFault then s2 else deliver n (dbEvent s2 n 0x0101 (failCode cause) (w32 p)) s2
      afterScan p s3

def execScanFailed (p : BitVec 6) (cause : HostFail) (s : State) : Host.Outcome State Fault Refusal :=
  .next (scanFail p.toNat cause s)

/-- A scanning partition acts on a nudge (R248): with a scan due at the same tick there is one scan, and below 0.70 V it is
kept as the queued one (R272). -/
def nudgePart (p : Nat) (s : State) : State :=
  let x := s.part p
  if !(s.scanning p) || (x.scan.out && x.scan.due == s.win.tb.toNat + 1) then s
  else if s.leadPaused p then s.setPart p { x with scan := { x.scan with queued := true } }
  else if !x.scan.out then startScan p s
  else match s.readFor (fun u => u == .scan p) with
  | some (_, h) => if h.sent then s.setPart p { x with scan := { x.scan with queued := true } } else s
  | none => s

/-- A write to a nudge page (R167, R171, R207, R248): counted by the port; for an ON tenant, a request for a scan. -/
def nudgeWrite (port fn off be : Nat) (s : State) : State :=
  if !s.takesWrites then s
  else if be != 15 || off % 4 != 0 then ignoreAcc 1 port fn true off true s
  else
    let x := s.port port
    let s1 := s.setPort port { x with nudges := x.nudges + 1 }
    match s1.tenIds.find? (fun n => (s1.ten n).obj.st == .on && (s1.ten n).bPort == port && (s1.ten n).bFn == fn) with
    | none => s1
    | some n =>
      let t := s1.ten n
      let s2 := s1.setTen n { t with nudges := t.nudges + 1 }
      ((s2.partsOf n).filter (fun p => (s2.part p).obj.st == .on)).foldl (fun a p => nudgePart p a) s2

def execNudge (port fn : BitVec 4) (off : BitVec 12) (be : BitVec 4) (s : State) : Host.Outcome State Fault Refusal :=
  .next (nudgeWrite port.toNat fn.toNat off.toNat be.toNat s)

/-! ### Fetches (R251, R266, R270) -/

/-- Entries the next fetch read of a ring asks for (R251): entries asked for count toward the 64 as those fetched do, so
that the ring never holds more (log 102). -/
def fetchCount (x : Ring) (mrrs : Nat) : Nat :=
  let next := (x.cons.toNat + x.asked) % 2 ^ 32
  let left := (x.prod - w32 next).toNat
  [16, mrrs / 64, 2 ^ x.ctx.log2 - next % 2 ^ x.ctx.log2, left, 64 - (x.fetched.length + x.asked)].foldl min 16

/-- RING_FETCH_ISSUE (R251), by the partition's lead command processor. -/
def fetchIssue (r : Nat) (s : State) : State :=
  let x := s.ring r
  let n := x.ctx.tenant
  let k := fetchCount x (s.fnc (s.ten n).bPort (s.ten n).bFn).mrrsB
  -- TBASE is written before any fetch (R238): it is not while nothing has been dispatched and the tally is due
  if x.obj.st == .on && !x.fetchWait && !(x.tallyDue && x.disp == x.ctx.tbase) && !(s.leadPaused x.ctx.part) && decide (x.fetched.length + x.asked < 64) &&
      decide ((x.prod - x.cons).toNat > x.asked) && decide (0 < k) then
    let idx := (x.cons.toNat + x.asked) % 2 ^ x.ctx.log2
    tenRead n (w64 (x.ctx.base.toNat + idx * 64)) (64 * k) (.fetch r k) (s.setRing r { x with asked := x.asked + k })
  else s

def execRingFetchIssue (r : BitVec 12) (s : State) : Host.Outcome State Fault Refusal := .next (fetchIssue r.toNat s)

/-- The outstanding fetch of a ring. -/
def State.fetchOf (s : State) (r : Nat) : Option (Nat × HRead × Nat) :=
  s.reads.findSome? (fun p => p.2.bind (fun h =>
    match h.purpose with | .fetch q k => if q = r then some (p.1, h, k) else none | _ => none))

/-- A ring's own event (Table 7-6). -/
def ringEvent (s : State) (r code detail : Nat) (arg0 : DWord) : Event :=
  let x := s.ring r
  { code := BitVec.ofNat 16 code, tenant := BitVec.ofNat 4 x.ctx.tenant, machine := false,
    part := some (BitVec.ofNat 6 x.ctx.part), ring := some (BitVec.ofNat 12 r), detail := BitVec.ofNat 16 detail,
    tb := s.win.tb, arg0 := arg0, arg1 := x.cons }

/-- A fetch read completes (R251, R266, R270), at a lead command processor at 0.70 V or above (R62). -/
def fetchDone (r : Nat) (data : List Byte) (s : State) : State :=
  match s.fetchOf r with
  | none => s
  | some (id, h, k) =>
    if !h.sent || data.length != 64 * k || s.leadPaused (s.ring r).ctx.part then s
    else
      let s1 := endRead id s
      let x := s1.ring r
      if x.obj.st != .on then s1
      else
        let es := (List.range k).map (fun i => ({ idx := x.cons + w32 i, bytes := (data.drop (64 * i)).take 64 } : Entry))
        let s2 := s1.setRing r { x with
          cons := x.cons + w32 k, fetched := x.fetched ++ es, asked := x.asked - k, fetchFault := false }
        let s3 := if x.fetchFault then deliver x.ctx.tenant (ringEvent s2 r 0x0104 0 0) s2 else s2
        noteHead r s3

def execRingFetchComplete (r : BitVec 12) (data : List Byte) (s : State) : Host.Outcome State Fault Refusal :=
  .next (fetchDone r.toNat data s)

/-- A fetch fails (R266): the ring's later fetches are asked for again from CONS. -/
def fetchFail (r : Nat) (cause : HostFail) (s : State) : State :=
  match s.fetchOf r with
  | none => s
  | some (_, h, _) =>
    if !(s.mayFail h cause) then s
    else
      let s1 := dropReads (fun h => match h.purpose with | .fetch q _ => q == r | _ => false) (portFail h.port cause s)
      let x := s1.ring r
      if x.obj.st != .on then s1
      else
        let s2 := s1.setRing r { x with asked := 0, fetchFault := true, fetchWait := true }
        if x.fetchFault then s2
        else deliver x.ctx.tenant (ringEvent s2 r 0x0103 (failCode cause)
          (w64 (x.ctx.base.toNat + x.cons.toNat % 2 ^ x.ctx.log2 * 64))) s2

def execRingFetchFailed (r : BitVec 12) (cause : HostFail) (s : State) : Host.Outcome State Fault Refusal :=
  .next (fetchFail r.toNat cause s)

end Sys2Proof.Machine
end

