-- ==== Sys2Proof/Machine/Fabric.lean ====
section
/-! DEFINITION. Commands of the fabric (ch. 11): arrivals, acknowledgements, links and the fold of FX_REDUCE. -/

namespace Sys2Proof.Machine

/-- A packet waits where it is: its router is below 0.70 V (R62, R818), or it has not entered the fabric and a shape
change's hold accepts no new packet (R373). -/
def State.pktWaits (s : State) (p : Packet) : Bool :=
  (match p.loc with | .mod w => s.paused w | .tray _ => false) || (s.sh.phase == .hold && p.via.isNone && s.atOrigin p)

/-- PACKET_ARRIVAL (R395, R403): a router routes on or delivers the packet it has received. `good` is its link check: a
calm packet that fails it, or its ECRC check (R392), is retried at its hop; a gust packet that fails goes on poisoned. -/
def packetArrives (pid : Nat) (good : Bool) (s : State) : State :=
  match s.pkt? pid with
  | none => s
  | some p =>
    if s.pktWaits p then s
    else
      let s1 := takePkt pid s
      if p.calm then (if good && p.whole then askAll (forward p s1) else askAll (calmRetry p s1))
      else forward (if good then p else { p with poison := true }) s1

def execPacketArrival (tag : Nat) (good : Bool) (s : State) : Host.Outcome State Fault Refusal :=
  .next (packetArrives tag good s)

/-- A LAND or NACK at the origin it was sent to. -/
def State.ackAt (s : State) (pid : Nat) (k : PKind) : Option Packet :=
  match s.pkt? pid with
  | some p =>
    if p.kind == k && !(s.pktWaits p) && nodeAt s.sh.shape (translate p.shape s.sh.shape p.dst) == some p.loc then some p else none
  | none => none

/-- LAND_RECEIVED (R402): the origin releases the packet it kept. -/
def landArrives (pid : Nat) (s : State) : State :=
  match s.ackAt pid .land with
  | some p => release p.tag (takePkt pid s)
  | none => s

def execLandReceived (tag : Nat) (s : State) : Host.Outcome State Fault Refusal := .next (landArrives tag s)

/-- NACK_RECEIVED (R404): re-injected once as calm class, or given up. -/
def nackArrives (pid : Nat) (s : State) : State :=
  match s.ackAt pid .nack with
  | some p => askAll (reinject p.tag (takePkt pid s))
  | none => s

def execNackReceived (tag : Nat) (s : State) : Host.Outcome State Fault Refusal := .next (nackArrives tag s)

/-- ACK_TIMEOUT (R404): unacknowledged for 100,000 ticks, without those of its origin below 0.70 V. -/
def ackExpired (tag : Nat) (s : State) : State :=
  if s.fab.kept.any (fun k => k.pkt.tag == tag && decide (k.tick.toNat + 100000 ≤ (s.originTime k.pkt).toNat)) then
    askAll (reinject tag s) else s

def execAckTimeout (tag : Nat) (s : State) : Host.Outcome State Fault Refusal := .next (ackExpired tag s)

/-- DUPLICATE_RECORD_EXPIRY (R406): after 400,000 ticks. -/
def dupExpired (tag : Nat) (s : State) : State :=
  { s with fab := { s.fab with
      dups := s.fab.dups.filter (fun d => !(d.tag == tag && decide (d.tick.toNat + 400000 ≤ s.win.tb.toNat))) } }

def execDuplicateRecordExpiry (tag : Nat) (s : State) : Host.Outcome State Fault Refusal := .next (dupExpired tag s)

/-! ### Links (R407, R408) -/

/-- LINK_TRAINING_LOST (R407). -/
def trainingLost (l : Nat) (s : State) : State := if s.linkUp l then failLink l 1 s else s

def execLinkTrainingLost (l : Fin 800) (s : State) : Host.Outcome State Fault Refusal := .next (trainingLost l.val s)

/-- A change of one link reaches the map in every router (R407): both its ports, one LINK_FAILED. -/
def mapLink (key : Nat) (s : State) : State :=
  let k := s.link key
  if (k.failed || k.fenced) && !k.inMap then
    let l := key % 800
    let far := if linkKey s.sh.shape l = key then portFar s l else none
    let s1 := { s with fab := { s.fab with mapGen := s.fab.mapGen + 1 } }
    let s2 := s1.setLink key { k with inMap := true }
    let s3 := match far with
      | some m => s2.setLink (linkKey s2.sh.shape m) { s2.link (linkKey s2.sh.shape m) with inMap := true }
      | none => s2
    let reason := if k.failed then k.reason else if k.reason = 5 then 5 else 4
    machineEvent 0x0708 0 (l + reason * 1024) none (w64 s3.fab.mapGen.toNat) (w32 (far.getD 0x3FF)) s3
  else s

/-- FAILED_LINK_MAP_UPDATE (R407): every change not yet in the map. -/
def mapUpdate (s : State) : State := (s.fab.links.map (·.1)).foldl (fun a k => mapLink k a) s

def execFailedLinkMapUpdate (s : State) : Host.Outcome State Fault Refusal := .next (mapUpdate s)

/-- FAB_LINK_CTL.FENCE (R408). -/
def linkFence (l : Nat) (s : State) : Verdict :=
  if 799 < l then .error 3
  else .ok (onLink l (fun k => if k.fenced then k else { k with fenced := true, training := false, reason := if k.failed then k.reason else 4 }) s)

/-- FAB_LINK_CTL.UNFENCE (R408): retraining starts. -/
def linkUnfence (l : Nat) (s : State) : Verdict :=
  if 799 < l then .error 3
  else .ok (onLink l (fun k => if k.failed || k.fenced then { k with training := true } else k) s)

def execFabLinkFence (port : BitVec 4) (l : BitVec 10) (s : State) : Host.Outcome State Fault Refusal :=
  .next (regOp port.toNat 0xB0040 (l.toNat + 0x1000) (linkFence l.toNat s) s)

def execFabLinkUnfence (port : BitVec 4) (l : BitVec 10) (s : State) : Host.Outcome State Fault Refusal :=
  .next (regOp port.toNat 0xB0040 (l.toNat + 0x2000) (linkUnfence l.toNat s) s)

/-- The nodes at both ends of a port's link are part of the fabric. -/
def State.endsLive (s : State) (l : Nat) : Bool :=
  let nodeOf := fun (m : Nat) => if m < 768 then Node.mod (m / 8) else Node.tray (12 + (m - 768) / 8)
  s.nodeLive (nodeOf l) && (portFar s l).elim false (fun m => s.nodeLive (nodeOf m))

/-- A link returns to service (R407, R408): LINK_RESTORED. A circuit over which it has trained is failed no more. -/
def restoreLink (l : Nat) (s : State) : State :=
  let dark := s.sh.dark.filter (fun p => soundPort l != some p && (portFar s l).elim true (fun m => soundPort m != some p))
  let sl := if dark.length = s.sh.dark.length then s
    else { s with sh := { s.sh with
      dark := dark, ringsFailed := s.sh.ringsFailed.filter (fun r => dark.any (fun p => s.ringOfPort s.sh.shape p == r)) } }
  let s1 := onLink l (fun k => { k with failed := false, fenced := false, training := false, inMap := false, reason := 0, recent := [] }) sl
  let s2 := { s1 with fab := { s1.fab with mapGen := s1.fab.mapGen + 1 } }
  machineEvent 0x0709 0 l none (w64 s2.fab.mapGen.toNat) (w32 ((portFar s2 l).getD 0x3FF)) s2

/-- LINK_RETRAIN_DONE (R408): trained to its mapped far end, or still failed. -/
def retrainDone (l : Nat) (ok : Bool) (s : State) : State :=
  if (s.link (linkKey s.sh.shape l)).training then
    if ok && s.endsLive l then restoreLink l s
    else onLink l (fun k => { k with failed := true, fenced := false, training := false }) s
  else s

def execLinkRetrainDone (l : Fin 800) (ok : Bool) (s : State) : Host.Outcome State Fault Refusal :=
  .next (retrainDone l.val ok s)

/-! ### The fold of FX_REDUCE (R419) -/

/-- FX_REDUCE_FOLD: member m has counted n − 1 contributions and folds its slots in rank order. -/
def reduceFold (r : Nat) (seq : DWord) (m : Nat) (s : State) : State :=
  match s.waiting r seq .fxReduce with
  | none => s
  | some c =>
    let f := fxRedOf c.bytes
    let b := c.box.getD ⟨0, 0, 0, 0, 0, 0⟩
    let n := (groupOf b f.axes c.mods.length m).length
    let w := c.mods.getD m 0
    if s.paused w then s
    else if m < c.mods.length ∧ !(c.ended.contains m) ∧ n - 1 ≤ (s.ctr (ctrKey w f.counter)).count then
      let fm : NFmt := if f.fmt = 0 then .f32 else .bf16
      let base := atModule m f.out
      let slot := fun (q k : Nat) => leNat (s.engBytes c.mods (base + (q * f.count + k) * f.e) f.e)
      let out := (List.range f.count).foldl (fun (a : List Byte × Flg) k =>
        let v := a.2.with (foldElem f.op fm ((List.range n).map (fun q => slot q k)))
        (a.1 ++ toLE f.e v.1, v.2)) ([], {})
      let pl : Place := ⟨w, bitsAt f.out 35 2, bitsAt f.out 33 2⟩
      let who := { s.whoOf r seq with core := s.coreFor (isleKey pl.w pl.die pl.isle) 0 }
      reportPoison r seq c.mods [(base, n * f.count * f.e)]
        (modCmd r seq (fun c => { c with ended := c.ended ++ [m], flags := c.flags ||| w32 out.2.bits })
          (rearm w f.counter (postAll who c.mods pl false (chop base out.1) s)))
    else s

def execFxReduceFold (r : BitVec 12) (seq : DWord) (m : Nat) (s : State) : Host.Outcome State Fault Refusal :=
  .next (reduceFold r.toNat seq m s)

end Sys2Proof.Machine
end

