-- ==== Sys2Proof/Machine/Reshape.lean ====
section
/-! DEFINITION. Shape changes and the Sound (ch. 10). -/

namespace Sys2Proof.Machine

/-- FAB_SHAPE.BUSY (Table 10-8). -/
def State.shapeBusy (s : State) : Bool := s.sh.phase != .idle

/-- Failed circuits on more than 4 distinct z rings (R375, R376). -/
def tooManyRings (l : List Nat) : Bool := decide (4 < l.dedup.length)

/-- Begin a change (R373, R374): a change from 16 × 6 to a 3D shape prepares first; the others go to their hold. The Sound
starts setting the circuits of a 3D target (R367). -/
def beginChange (target : Shape) (cause : Nat) (s : State) : State :=
  { s with sh := { s.sh with
      phase := if s.sh.shape == .s166 then .prep else .hold
      target := target, cause := cause, divert := none
      setting := target.is3D, setCols := [], ringsFailed := if target.is3D then [] else s.sh.ringsFailed
      dark := if target.is3D then [] else s.sh.dark
      trained := if target.is3D then false else s.sh.trained } }

/-- An order is abandoned (R376, R380, R382): recorded, nothing judged. -/
def abandonOrder (cause : Nat) (s : State) : State :=
  { s with sh := { s.sh with
      phase := .idle, setting := false
      lastFrom := BitVec.ofNat 2 s.sh.shape.code, lastTo := BitVec.ofNat 2 s.sh.target.code
      lastCause := BitVec.ofNat 4 cause, lastKept := 0, lastLost := 0 } }

/-- A trigger of R375 arises (R375, R380). -/
def trigger (cause : Nat) (s : State) : State :=
  match s.sh.phase with
  | .idle => if s.sh.shape.is3D then beginChange .s166 cause s else s
  | .prep => abandonOrder 6 s
  | .hold =>
    if s.sh.target.is3D && s.sh.divert.isNone then { s with sh := { s.sh with divert := some cause } } else s

/-- FAB_SHAPE_REQ (R378). -/
def shapeRequest (target : Shape) (s : State) : Verdict :=
  if s.shapeBusy then .error 4
  else if target = s.sh.shape then .ok s
  else if target.is3D ∧ s.sh.sound ≠ 1 then .error 5
  else .ok (beginChange target 1 s)

def execFabShapeReq (src : Source) (shape : BitVec 2) (s : State) : Host.Outcome State Fault Refusal :=
  .next (bySource src 0xB0004 shape.toNat (shapeRequest (shapeOf shape.toNat) s) s)

/-- SHAPE_PREPARATION_DONE (R374): the circuits are set and trained, and the hold begins. -/
def prepDone (s : State) : State :=
  if s.sh.phase = .prep ∧ s.sh.setting = false ∧ tooManyRings s.sh.ringsFailed = false then
    { s with sh := { s.sh with phase := .hold, trained := true } }
  else s

def execShapePreparationDone (s : State) : Host.Outcome State Fault Refusal := .next (prepDone s)

/-- The shape whose circuits the Sound has set or is setting. -/
def State.circuitShape (s : State) : Shape := if s.sh.phase == .idle then s.sh.shape else s.sh.target

/-- Circuits, named by one of their Sound ports, carry no light (R367): their links are down, and they count against their
z rings. -/
def darken (circuits : List Nat) (s : State) : State :=
  { s with sh := { s.sh with
      dark := (s.sh.dark ++ circuits).dedup
      ringsFailed := (s.sh.ringsFailed ++ circuits.map (s.ringOfPort s.circuitShape)).dedup } }

/-- SHAPE_PREPARATION_FAILED (R376): failed circuits on more than 4 z rings. -/
def prepFailed (circuits : List Nat) (s : State) : State :=
  let s1 := darken circuits s
  if s.sh.phase = .prep ∧ tooManyRings s1.sh.ringsFailed = true then abandonOrder 6 s1 else s

def execShapePreparationFailed (circuits : List (BitVec 8)) (s : State) : Host.Outcome State Fault Refusal :=
  .next (prepFailed (circuits.map (·.toNat)) s)

/-- A tenant's event about its partition (Table 19-4). -/
def partEvent (s : State) (p code detail : Nat) (arg0 : DWord) (arg1 : Word) : Event :=
  { code := BitVec.ofNat 16 code, tenant := BitVec.ofNat 4 (s.part p).owner, machine := false,
    part := some (BitVec.ofNat 6 p), ring := none, detail := BitVec.ofNat 16 detail, tb := s.win.tb, arg0 := arg0, arg1 := arg1 }

/-- A partition is lost (R229): it winds down with CUT and LOST, and its owner receives PART_LOST. -/
def losePart (p w cause : Nat) (s : State) : State :=
  let e := partEvent s p 0x0705 (w + cause * 128) 0 0
  deliver (s.part p).owner e (windPart p .cut true s)

/-- The partitions a release judges, each with its modules in the shape before (R373): ON, WINDING or PENDING. One that has
been cut and waits for no enable is on its way out, and there is none to keep (R385, R386, log 103). -/
def State.judged (s : State) : List (Nat × List Nat) :=
  (s.partIds.filter (fun p =>
    let x := s.part p
    x.obj.busy && !(x.obj.st == .winding && x.wind != .finish && !x.obj.pending))).map (fun p => (p, s.boxMods p))

/-- Judge one partition at release (R230, R364): kept with its new box, or lost. An enable that waits for a module out of
service has no box (R386). -/
def judgePart (old new_ : Shape) (p : Nat) (mods : List Nat) (s : State) : Bool × State :=
  let x := s.part p
  let off := x.obj.st == .off
  let owner := if off then boxOwner x.boxReg else x.owner
  match (if off && !(mods.all s.modServing) then none else formsBox new_ mods) with
  | some b =>
    let v := boxWord b owner
    let s1 := s.setPart p { x with box := if off then x.box else some b, boxReg := v }
    (true, deliver owner (partEvent s1 p 0x0706 (old.code + 4 * new_.code) (w64 v.toNat) s1.sh.count) s1)
  | none => (false, losePart p 127 10 s)

/-- The 64-bit map of partitions in a list. -/
def partMask (l : List Nat) : DWord := w64 ((l.map (fun p => 2 ^ p)).sum)

/-- External splices that are enabled (R368). -/
def State.extOn (s : State) : List Nat := (List.range 24).filter (fun e => (tget 0 e s.sh.ext).getLsbD 4)

/-- Release (R373): selectors and routes take the new shape, partitions are judged, FAB_SHAPE reports it, and the events are
raised. `seams`: ports whose selector did not reach its position (R383); `circuits`: failed circuits (R367). Below 0.70 V
the hold goes on (R374, R384). -/
def release3 (seams circuits : List Nat) (s0 : State) : State :=
  if s0.sh.phase = .hold ∧ s0.anyPaused = false then
    let s := darken circuits s0
    let old := s.sh.shape
    let l := s.sh.ringsFailed
    let bad := s.sh.target.is3D && tooManyRings l
    let new_ := if s.sh.divert.isSome || bad then .s166 else s.sh.target
    let cause := match s.sh.divert with
      | some c => c
      | none => if bad then 6 else s.sh.cause
    let h := s.sh
    let s1 := { s with sh := { h with
      shape := new_, phase := .idle, divert := none, setting := false, setCols := [], count := h.count + 1, relTb := s.win.tb
      set := if h.target.is3D then BitVec.ofNat 2 h.target.code else h.set
      trained := if h.target.is3D then !bad else h.trained
      sound := if h.enterDue then 2 else h.sound, enterDue := false
      seamFail := satAdd h.seamFail seams.length } }
    let s2 := { s1 with sh := { s1.sh with extActive := if new_ == .s446 then s1.extOn else [] } }
    let s3 := seams.foldl (fun a q => failLink q 1 a) s2
    let r := s0.judged.foldl (fun (a : List Nat × List Nat × State) p =>
      let q := judgePart old new_ p.1 p.2 a.2.2
      if q.1 then (a.1 ++ [p.1], a.2.1, q.2) else (a.1, a.2.1 ++ [p.1], q.2)) ([], [], s3)
    let s4 := { r.2.2 with sh := { r.2.2.sh with
      lastFrom := BitVec.ofNat 2 old.code, lastTo := BitVec.ofNat 2 new_.code, lastCause := BitVec.ofNat 4 cause,
      lastKept := BitVec.ofNat 7 r.1.length, lastLost := BitVec.ofNat 7 r.2.1.length } }
    machineEvent 0x0707 0 (old.code + 4 * new_.code + 16 * cause) none (partMask r.1) (w32 r.2.1.length) s4
  else s0

def execShapeHoldRelease (seams : List (Fin 800)) (circuits : List (BitVec 8)) (s : State) : Host.Outcome State Fault Refusal :=
  .next (release3 (seams.map (·.val)) (circuits.map (·.toNat)) s)

/-! ### The Sound -/

/-- A Sound controller fault (R375 cause 2): STATE 3, and 16 × 6 from a 3D shape. -/
def soundFails (s : State) : State :=
  if s.sh.sound = 0 then s else trigger 2 { s with sh := { s.sh with sound := 3, selfTest := false } }

def execSoundFault (s : State) : Host.Outcome State Fault Refusal := .next (soundFails s)

/-- The circuits of some wrap links change for a splice (R368, R372): the links are down meanwhile. Only the Sound in
service changes them, and only in a 3D shape; within a shape change the change itself sets them. -/
def changeSplices (cols : List Nat) (s : State) : State :=
  if s.sh.shape.is3D && s.sh.phase == .idle && s.sh.sound == 1 && !cols.isEmpty then
    { s with sh := { s.sh with setting := true, setCols := (s.sh.setCols ++ cols).dedup } }
  else s

/-- The physical columns 4y + x of a tray's splices (Table 10-6). -/
def spliceCols (t : Nat) : List Nat := (splices t).map (fun c => 4 * c.2 + c.1)

/-- A column whose attached tray is gone has its module ends joined directly (R372): the new circuit's link is whole again,
whatever the tray's loss or fencing had marked. -/
def joinEnds (c : Nat) (s : State) : State :=
  let l := winOf (c % 4) (c / 4) (hiPlane s.sh.shape) * 8 + 5
  match trayAtCol (c % 4) (c / 4) with
  | some (t, _) =>
    let k := s.link (linkKey s.sh.shape l)
    if !(s.trayLive t) && (k.failed || k.fenced) && k.reason == 5 then restoreLink l s else s
  | none => s

/-- SOUND_CIRCUITS_SET (R367, R368, R372): the new circuits are set, and links over them begin training. -/
def circuitsSet (s : State) : State :=
  if s.sh.setting then
    s.sh.setCols.foldl (fun a c => joinEnds c a) { s with sh := { s.sh with
        setting := false, setCols := []
        set := if s.sh.phase = .idle then s.sh.set else BitVec.ofNat 2 s.sh.target.code
        extActive := if s.sh.phase = .idle ∧ s.sh.shape = .s446 then s.extOn else s.sh.extActive } }
  else s

def execSoundCircuitsSet (s : State) : Host.Outcome State Fault Refusal := .next (circuitsSet s)

/-- SOUND_CIRCUIT_FAILED (R367): its link carries nothing and traffic detours; counted against its z ring; on more than 4
rings in a 3D shape, cause 4 (R375). In the hold of a 3D to 3D change the release decides (R376). -/
def circuitFailed (circuit : Nat) (s : State) : State :=
  let s1 := darken [circuit] s
  if tooManyRings s1.sh.ringsFailed && s1.sh.phase != .hold then trigger 4 s1 else s1

def execSoundCircuitFailed (circuit : BitVec 8) (s : State) : Host.Outcome State Fault Refusal :=
  .next (circuitFailed circuit.toNat s)

/-- SOUND_SERVICE.ENTER (R379, R382). -/
def soundEnter (s : State) : Verdict :=
  match s.sh.phase with
  | .idle =>
    if s.sh.shape.is3D then
      let s1 := beginChange .s166 5 s
      .ok { s1 with sh := { s1.sh with enterDue := true } }
    else .ok { s with sh := { s.sh with sound := 2, selfTest := false } }
  | .prep =>
    let s1 := abandonOrder 5 s
    .ok { s1 with sh := { s1.sh with sound := 2, selfTest := false } }
  | .hold =>
    if s.sh.target.is3D then .error 4 else .ok { s with sh := { s.sh with enterDue := true } }

def execSoundServiceEnter (src : Source) (s : State) : Host.Outcome State Fault Refusal :=
  .next (bySource src 0xC0004 1 (soundEnter s) s)

/-- SOUND_SERVICE.LEAVE (R379): in STATE 2 or 3 the Sound tray is powered, where nothing holds its power off, and the Sound
tests itself; otherwise no effect. -/
def soundLeave (s : State) : Verdict :=
  if s.sh.sound = 2 ∨ s.sh.sound = 3 then
    let y := s.tray 16
    let th := s.ttherm 16
    let on := y.contactor || !(y.svc == .absent || th.leakCut || th.ot || s.therm.resCut || s.therm.flowLost)
    .ok { s.setTray 16 { y with contactor := on } with sh := { s.sh with selfTest := on } }
  else .ok s

def execSoundServiceLeave (src : Source) (s : State) : Host.Outcome State Fault Refusal :=
  .next (bySource src 0xC0004 2 (soundLeave s) s)

/-- SOUND_SELF_TEST_DONE (R379). -/
def selfTestDone (ok : Bool) (s : State) : State :=
  if s.sh.selfTest then
    { s with sh :=
      if ok then { s.sh with selfTest := false, sound := 1, set := 3, trained := false, ringsFailed := [] }
      else { s.sh with selfTest := false, sound := 3 } }
  else s

def execSoundSelfTestDone (ok : Bool) (s : State) : Host.Outcome State Fault Refusal := .next (selfTestDone ok s)

/-- SOUND_EXT_e (R368, R378): naming a column in use by another enabled external splice or by an attached tray's splice is
illegal, whatever EN; in 4 × 4 × 6 the Sound then changes the circuits of the rings concerned. -/
def extWrite (e : Nat) (val : Word) (s : State) : Verdict :=
  let x := Fld val 0 2
  let y := Fld val 2 2
  let used := (trayAtCol x y).isSome ||
    (s.extOn.any (fun d => d != e && decide ((tget 0 d s.sh.ext).toNat % 16 = Fld val 0 4)))
  let old := (tget 0 e s.sh.ext).toNat
  let cols := (if 16 ≤ old then [old / 4 % 4 * 4 + old % 4] else []) ++ (if bit val 4 then [y * 4 + x] else [])
  if used then .error 3
  else
    let s1 := { s with sh := { s.sh with ext := tset 0 e (BitVec.ofNat 5 (Fld val 0 5)) s.sh.ext } }
    .ok (storeItem (0xC0100 + 4 * e) (w32 (Fld val 0 5)) (if s.sh.shape == .s446 then changeSplices cols s1 else s1))

def execSoundExtWrite (port : BitVec 4) (e : Fin 24) (val : Word) (s : State) : Host.Outcome State Fault Refusal :=
  .next (regOp port.toNat (0xC0100 + 4 * e.val) val.toNat (extWrite e.val val s) s)

end Sys2Proof.Machine
end

