-- ==== Sys2Proof/Machine/Attention.lean ====
section
/-! DEFINITION. Rotating attention (ch. 12): tile-steps, chunks around the ring, releases and stalls. -/

namespace Sys2Proof.Machine

/-- An MX_ATTN in progress. -/
def State.attn? (s : State) (r : Nat) (seq : DWord) : Option Cmd :=
  match s.cmd? r seq with
  | some c => if !c.done && opOf c.bytes == some .mxAttn then some c else none
  | none => none

/-- A slab's module is below 0.70 V: its tile-steps, forwarding and stall count pause (R450). -/
def State.slabPaused (s : State) (c : Cmd) (i : Nat) : Bool := s.paused (placeOf c.mods i).w

/-- Query tiles and chunks of a block (R438, R441). -/
def Cmd.attRT (c : Cmd) : Nat := (attnOf c.bytes).block / 128

/-- Code of a chunk of a step, or of a tile of a slab. -/
def attCode (step chunk : Nat) : Nat := step * 8192 + chunk

/-- A chunk of a step's block is present at a slab (R439, R440). -/
def Cmd.attPresent (c : Cmd) (i t k : Nat) : Bool := t == 0 || (c.slab i).present.contains (attCode t k)

/-- The slab's successor has released the buffer this slab writes at step t: both count as released at dispatch (R439). -/
def Cmd.attGranted (c : Cmd) (i t : Nat) : Bool := decide (t ≤ 1) || (c.slab i).granted.contains t

/-- Position of row or key `k` of the block of ring position `e` (R433). -/
def Attn.posOf (a : Attn) (e k : Nat) : Nat := a.pos0 + e * a.block + k

/-- Every key of chunk `k` is masked for query tile `tile` at step t (R442). -/
def Cmd.attSkips (c : Cmd) (i t tile k : Nat) : Bool :=
  let a := attnOf c.bytes
  let e := c.attPos i
  let e' := (e + c.attE - t % c.attE) % c.attE
  a.causal && decide (a.posOf e (128 * tile + 127) < a.posOf e' (128 * k))

/-- Where K and V of the block in use at step t begin (R438). -/
def Attn.kAt (a : Attn) (t : Nat) : Nat := if t = 0 then a.k else a.bufK (t % 2)
def Attn.vAt (a : Attn) (t : Nat) : Nat := if t = 0 then a.v else a.bufV (t % 2)

/-- The copy W(t): O and STATE, or ALT_O and ALT_STATE (R442). -/
def Cmd.attW (c : Cmd) (t : Nat) : Nat × Nat :=
  let a := attnOf c.bytes
  if (c.attE - 1 - t) % 2 = 0 then (a.o, a.st) else (a.altO, a.altS)

/-- ATTN_TILE_STEP_DISPATCH (R441): the tile has ended the previous step; placed by the ρ in force. -/
def stepDispatch (r : Nat) (seq : DWord) (i tile : Nat) (s : State) : State :=
  match s.attn? r seq with
  | none => s
  | some c =>
    let a := c.slab i
    if !(s.slabPaused c i) ∧ i < 16 * c.mods.length ∧ tile < c.attRT ∧ tget 0 tile a.next < c.attE ∧
        !(a.running.any (fun x => x.1 == tile)) ∧ !(c.dropped.contains (attCode i tile)) ∧
        !(s.die ((placeOf c.mods i).w * 4 + (placeOf c.mods i).die)).pause ∧
        !(s.die ((placeOf c.mods i).w * 4 + (placeOf c.mods i).die)).cold then
      let p := placeOf c.mods i
      let k := isleKey p.w p.die p.isle
      let g := s.isle k
      let core := g.cores.getD ((tile + g.rho) % (max 1 g.cores.length)) 0
      modCmd r seq (fun c => c.setSlab i { a with running := a.running ++ [(tile, core)] })
        (s.setIsle k { g with dealt := true })
    else s

def execAttnTileStepDispatch (r : BitVec 12) (seq : DWord) (slab tile : Nat) (s : State) :
    Host.Outcome State Fault Refusal := .next (stepDispatch r.toNat seq slab tile s)

/-- The rows of a tile-step (R442): starting values from W(t − 1), the chunks in increasing order, and the final
normalisation at the last step. -/
def attRows (c : Cmd) (rd : Nat → Nat → Nat) (i t tile : Nat) : List (ARow × Flg) :=
  let a := attnOf c.bytes
  let f := (fmtOf a.fmt).getD .bf16
  let sz := f.size
  let base := i * 2 ^ 33
  let e := c.attPos i
  let e' := (e + c.attE - t % c.attE) % c.attE
  let rs := fRsqrt (roundF32 (FV.ofInt a.d)).1
  let sc := rs.2.or (fMul L2E rs.1).2
  let scv := (fMul L2E rs.1).1
  let w0 := c.attW (t - 1)
  let chunks := (List.range c.attRT).filter (fun k => !(c.attSkips i t tile k))
  (List.range 128).map (fun j =>
    let row := 128 * tile + j
    let q := (List.range a.d).map (fun x => rd (base + a.q + (row * a.d + x) * sz) sz)
    let start : ARow :=
      if t = 0 then { m := negInf, l := zero32, a := zero32, o := List.replicate a.d zero32 }
      else
        { m := w32 (rd (base + w0.2 + row * 16) 4), l := w32 (rd (base + w0.2 + row * 16 + 4) 4),
          a := w32 (rd (base + w0.2 + row * 16 + 8) 4),
          o := (List.range a.d).map (fun x => w32 (rd (base + w0.1 + (row * a.d + x) * 4) 4)) }
    let z := chunks.foldl (fun (u : ARow × Flg) k =>
      u.2.with (attnRow f a.d scv q
        (fun x => (List.range a.d).map (fun y => rd (base + a.kAt t + ((128 * k + x) * a.d + y) * sz) sz))
        (fun x => (List.range a.d).map (fun y => rd (base + a.vAt t + ((128 * k + x) * a.d + y) * sz) sz))
        (fun x => a.causal && decide (a.posOf e row < a.posOf e' (128 * k + x))) u.1))
      (start, if chunks.isEmpty then {} else sc)
    if t + 1 = c.attE then
      let rc := fRcp z.1.l
      let n := mapF (fun x => fMul x rc.1) z.1.o
      ({ z.1 with o := n.1 }, (z.2.or rc.2).or n.2)
    else z)

/-- ATTN_TILE_STEP_END (R442): its o and row states are written at its end. -/
def stepEnd (r : Nat) (seq : DWord) (i tile : Nat) (s : State) : State :=
  match s.attn? r seq with
  | none => s
  | some c =>
    let a := attnOf c.bytes
    let sl := c.slab i
    let t := tget 0 tile sl.next
    if !(s.slabPaused c i) ∧ sl.running.any (fun x => x.1 == tile) ∧ i < 16 * c.mods.length ∧
        (List.range c.attRT).all (fun k => c.attSkips i t tile k || c.attPresent i t k) then
      let rows := attRows c (s.rd c.mods) i t tile
      let w := c.attW t
      let base := i * 2 ^ 33
      let fl := rows.foldl (fun (f : Flg) x => f.or x.2) {}
      let row := fun (j : Nat) => 128 * tile + j
      let ws := (rows.zipIdx.map (fun x =>
          (base + w.1 + row x.2 * a.d * 4, ((x.1.1.o.map (fun v => toLE 4 v.toNat)).flatten)))) ++
        (rows.zipIdx.map (fun x => (base + w.2 + row x.2 * 16, rowState x.1.1.m x.1.1.l x.1.1.a)))
      let sz := ((fmtOf a.fmt).getD .bf16).size
      let reads := [(base + a.q + 128 * tile * a.d * sz, 128 * a.d * sz), (base + a.kAt t, a.blk), (base + a.vAt t, a.blk)]
      reportPoison r seq c.mods reads
        (modCmd r seq (fun c => { (c.setSlab i { sl with
            next := tset 0 tile (t + 1) sl.next, running := sl.running.filter (fun x => x.1 != tile) }) with
            flags := c.flags ||| w32 fl.bits })
          (postAll { s.whoOf r seq with core := ((sl.running.find? (fun x => x.1 == tile)).map (·.2)).getD 0 }
            c.mods (placeOf c.mods i) false ((ws.map (fun x => chop x.1 x.2)).flatten) s))
    else s

def execAttnTileStepEnd (r : BitVec 12) (seq : DWord) (slab tile : Nat) (s : State) :
    Host.Outcome State Fault Refusal := .next (stepEnd r.toNat seq slab tile s)

/-- A module-relative address in the isle of slab i (Table 12-1, R439). -/
def inIsle (i a : Nat) : Nat := (i % 16) * 2 ^ 33 + a

/-- ATTN_CHUNK_FORWARD (R439, R440): chunk k of step t goes to the successor as one contribution. -/
def chunkForward (r : Nat) (seq : DWord) (i t k : Nat) (s : State) : State :=
  match s.attn? r seq with
  | none => s
  | some c =>
    let a := attnOf c.bytes
    let sl := c.slab i
    if !(s.slabPaused c i) ∧ t + 2 ≤ c.attE ∧ k < c.attRT ∧ i < 16 * c.mods.length ∧ c.attPresent i t k ∧ c.attGranted i t ∧
        !(sl.sent.contains (attCode t k)) ∧ (List.range k).all (fun q => sl.sent.contains (attCode t q)) then
      let b := (t + 1) % 2
      let n := 128 * a.d * ((fmtOf a.fmt).getD .bf16).size
      let j := c.attNext i 1
      let base := i * 2 ^ 33
      let runs := [(inIsle j (a.bufK b + k * n), s.engBytes c.mods (base + a.kAt t + k * n) n),
                   (inIsle j (a.bufV b + k * n), s.engBytes c.mods (base + a.vAt t + k * n) n)]
      let g := 16 * c.mods.length
      -- from the FX port of the core on which R117 places j = k now
      let p := placeOf c.mods i
      let x := s.isle (isleKey p.w p.die p.isle)
      let who := { s.whoOf r seq with core := x.cores.getD ((k + x.rho) % (max 1 x.cores.length)) 0 }
      modCmd r seq (fun c => c.setSlab i { sl with sent := sl.sent ++ [attCode t k] })
        (contribute who (placeOf c.mods i) (placeOf c.mods j) (256 + (j % 16) * 2 + b)
          ((a.seqBase + (t * g + i) * c.attRT + k) % 2 ^ 24) (attCode (t + 1) k) runs s)
    else s

def execAttnChunkForward (r : BitVec 12) (seq : DWord) (slab step chunk : Nat) (s : State) :
    Host.Outcome State Fault Refusal := .next (chunkForward r.toNat seq slab step chunk s)

/-- Every query tile of a slab that still runs has ended a step (R439, R446). -/
def Cmd.attEnded (c : Cmd) (i t : Nat) : Bool :=
  (List.range c.attRT).all (fun x => decide (t < tget 0 x (c.slab i).next) || c.dropped.contains (attCode i x))

/-- ATTN_BUFFER_RELEASE (R439, R440): the buffer of step t goes back to the predecessor by a CTRL packet, and its counter
starts a new arming. -/
def bufferRelease (r : Nat) (seq : DWord) (i t : Nat) (s : State) : State :=
  match s.attn? r seq with
  | none => s
  | some c =>
    let sl := c.slab i
    if !(s.slabPaused c i) ∧ 1 ≤ t ∧ t + 3 ≤ c.attE ∧ i < 16 * c.mods.length ∧ c.attEnded i t ∧ !(sl.released.contains t) then
      let j := c.attNext i (c.attE - 1)
      let p := placeOf c.mods i
      let q := placeOf c.mods j
      let pk := { writePkt s (s.whoOf r seq) p q true 2 0 0 [] with kind := .ctrl, note := t + 1 }
      modCmd r seq (fun c => c.setSlab i { sl with released := sl.released ++ [t] })
        (inject pk (rearm p.w (256 + (i % 16) * 2 + t % 2) s))
    else s

def execAttnBufferRelease (r : BitVec 12) (seq : DWord) (slab step : Nat) (s : State) :
    Host.Outcome State Fault Refusal := .next (bufferRelease r.toNat seq slab step s)

/-- Ticks at 0.70 V or above of its module that a slab has waited, at least: since it was dispatched, and since a last
count `x` (R448, R450). -/
def State.slabWait (s : State) (c : Cmd) (i : Nat) (x : DWord) : Nat :=
  s.upTime (placeOf c.mods i).w - max (c.ups.getD (i / 16) 0).toNat x.toNat

/-- ATTN_STALL (R448, R450, R454): after 1,000,000 ticks at 0.70 V or above a receiver records the outstanding chunks of its block as present, and a
sender takes the buffer as released; each raises one event. -/
def attnStall (r : Nat) (seq : DWord) (i t : Nat) (sender : Bool) (s : State) : State :=
  match s.attn? r seq with
  | none => s
  | some c =>
    let a := attnOf c.bytes
    let sl := c.slab i
    let code := t * 2 + b2n sender
    let late := fun (x : DWord) => decide (1000000 ≤ s.slabWait c i x)
    let n := 128 * a.d * ((fmtOf a.fmt).getD .bf16).size
    let ev := fun (b : Nat) (addr : Nat) (st : State) =>
      deliver (s.whoOf r seq).tenant
        (cmdEvent st (s.whoOf r seq) 0x0203 (t % 256 + 256 * b + 512 * b2n sender) (w64 addr) (lo32 seq)) st
    if !(s.slabPaused c i) ∧ i < 16 * c.mods.length ∧ !(sl.stalls.contains code) then
      if sender then
        if t + 2 ≤ c.attE ∧ !(c.attGranted i t) ∧ late sl.lastGrant then
          let b := (t + 1) % 2
          ev b (c.attNext i 1 * 2 ^ 33 + a.bufK b)
            (modCmd r seq (fun c => c.setSlab i { sl with stalls := sl.stalls ++ [code], granted := sl.granted ++ [t] }) s)
        else s
      else
        let miss := (List.range c.attRT).filter (fun k => !(c.attPresent i t k))
        match miss with
        | [] => s
        | k :: _ =>
          if t < c.attE ∧ late sl.lastChunk then
            ev (t % 2) (i * 2 ^ 33 + a.bufK (t % 2) + k * n)
              (modCmd r seq (fun c => c.setSlab i { sl with
                stalls := sl.stalls ++ [code], present := sl.present ++ miss.map (attCode t) }) s)
          else s
    else s

def execAttnStall (r : BitVec 12) (seq : DWord) (slab step : Nat) (sender : Bool) (s : State) :
    Host.Outcome State Fault Refusal := .next (attnStall r.toNat seq slab step sender s)

end Sys2Proof.Machine
end

