-- ==== Sys2Proof/Machine/Parcel.lean ====
section
/-! DEFINITION. Parcels and component instances (R747–R751): the header's fields, the instances and what joining does to
them (R763). -/

namespace Sys2Proof.Machine

/-! ### The header (Table 21-2) -/

def hdrByte (h : List Byte) (i : Nat) : Nat := fieldAt h i 1
def hdrComp (h : List Byte) : Nat := hdrByte h 5 % 8
def hdrVersion (h : List Byte) : Word := w32 (fieldAt h 8 4)
def hdrFwset (h : List Byte) : Nat := fieldAt h 12 2
def hdrLayout (h : List Byte) : Nat := fieldAt h 14 2
def hdrKey (h : List Byte) : Nat := hdrByte h 16 % 4
def hdrRevoke (h : List Byte) : Nat := hdrByte h 17 % 16
def hdrLength (h : List Byte) : Nat := fieldAt h 20 4
def hdrMin (h : List Byte) (c : Nat) : Nat := fieldAt h (32 + 8 * (c - 1)) 4
def hdrMax (h : List Byte) (c : Nat) : Nat := fieldAt h (36 + 8 * (c - 1)) 4

/-! ### Instances (Table 21-1) -/

/-- Instances of a component. -/
def compCount (c : Nat) : Nat :=
  match c with
  | 1 => 3 | 2 => 18 | 3 => 96 | 4 => 8 | 5 => 2 | 6 => 1 | 7 => 2 | _ => 0

/-- Key of an instance. -/
def instKey (c i : Nat) : Nat := c * 128 + i

/-- The instances of a component, by number. -/
def instList (c : Nat) : List Nat := List.range (compCount c)

/-- The tray that carries an instance; the steward channels stand in the steward bay. -/
def instTray (c i : Nat) : Nat :=
  match c with
  | 2 => i
  | 3 => i / 8
  | 4 => 14 + i / 4
  | 5 => 12 + i
  | 6 => 16
  | 7 => 14 + i
  | _ => 17

/-- An instance is present: its part is in the machine. -/
def State.instHere (s : State) (c i : Nat) : Bool :=
  (s.tray (instTray c i)).svc != .absent &&
    match c with
    | 3 => (s.mod i).state != 0
    | 6 => s.sh.sound != 0
    | _ => true

/-- An instance is in service: it runs. -/
def State.instOn (s : State) (c i : Nat) : Bool :=
  s.instHere c i &&
    match c with
    | 1 => (s.stew i).up || s.reloading 1 i
    | 2 => s.stw.wardens.getLsbD i || s.reloading 2 i
    | 3 => (s.mod i).state == 1
    | _ => s.trayAnswers (instTray c i)

/-- An instance's two slots change places: the inactive one becomes active (R756, R761). -/
def swapSlots (x : Inst) : Inst :=
  match x.other with
  | some o => { x with
      run := o.1, fwset := o.2.1, layout := o.2.2.1, keyId := o.2.2.2, other := some (x.run, x.fwset, x.layout, x.keyId) }
  | none => x

/-- The image a header describes, as a slot holds it. -/
def hdrImage (h : List Byte) : Word × BitVec 16 × BitVec 16 × BitVec 2 :=
  (hdrVersion h, BitVec.ofNat 16 (hdrFwset h), BitVec.ofNat 16 (hdrLayout h), BitVec.ofNat 2 (hdrKey h))

/-- The confirmed image of a component (R748). -/
def State.confImage (s : State) (c : Nat) : Word × BitVec 16 × BitVec 16 × BitVec 2 :=
  let f := tget (1, 1) c s.upd.confSet
  (tget 0x01000000 c s.upd.conf, BitVec.ofNat 16 f.1, BitVec.ofNat 16 f.2, BitVec.ofNat 2 (tget 0 c s.upd.confKey))

/-- An instance joins (R763, R766): it is brought to the confirmed version, logged where it differed, and has its fuses
blown as the steward bay's. In phases 4–6 of its component's update it then takes part as one not yet switched, with the new
image in its inactive slot. -/
def joinInst (c i : Nat) (s : State) : State :=
  let x := s.inst (instKey c i)
  let g := s.confImage c
  let part := decide (4 ≤ s.upd.phase) && s.upd.comp == c
  let old := (x.run, x.fwset, x.layout, x.keyId)
  let y : Inst := { x with
    run := g.1, fwset := g.2.1, layout := g.2.2.1, keyId := g.2.2.2
    other := if part then some (hdrImage s.upd.header) else if x.run = g.1 then x.other else some old
    trial := false, switched := false, skipped := false, written := part
    fuses := x.fuses ||| s.upd.fuses }
  let s1 := s.setInst (instKey c i) y
  if x.run = g.1 then s1
  else logAdd 6 3 (instTray c i) (w64 (c + i * 8)) 0 [x.run.toNat, g.1.toNat] s1

/-- The instances of a tray that has joined, but for its modules', which join as they enter service (R763). -/
def joinTray (t : Nat) (s : State) : State :=
  let s1 := joinInst 2 t s
  if t = 12 ∨ t = 13 then joinInst 5 (t - 12) s1
  else if t = 14 ∨ t = 15 then
    joinInst 7 (t - 14) ([0, 1, 2, 3].foldl (fun a p => joinInst 4 ((t - 14) * 4 + p) a) s1)
  else if t = 16 then joinInst 6 0 s1
  else s1

/-- A tray leaves its slot in the middle of an instance's restart, which ends with it (R775). -/
def dropRestart (t : Nat) (s : State) : State :=
  match s.upd.inst with
  | some x => if instTray (x.1 / 128) (x.1 % 128) = t ∧ x.1 / 128 ≠ 1 then { s with upd := { s.upd with inst := none } } else s
  | none => s

/-- An instance in a tray is restarting: the switch completes before the tray is powered down (R775). -/
def State.trayReloads (s : State) (t : Nat) : Bool :=
  s.upd.inst.any (fun x => instTray (x.1 / 128) (x.1 % 128) == t && x.1 / 128 != 1)

end Sys2Proof.Machine
end

