-- ==== Sys2Proof/Machine/Census.lean ====
section
/-! DEFINITION. Variants (R556), the census and the numbering of isles (R553, R559), and what a test of a module's dies,
cores and columns leaves (stages 4–6, R551–R554). -/

namespace Sys2Proof.Machine

/-! ### Variants (Table 0-2) -/

/-- Module cap in W and core-supply ceiling in mV of a variant. -/
def variantCap (v : Nat) : Nat := if v = 0 then 1200 else if v = 1 then 900 else 600
def variantCeil (v : Nat) : Nat := if v = 0 then 920 else if v = 1 then 840 else 760
/-- Maximum draw of the rack in W (R46). -/
def variantDraw (v : Nat) : Nat := if v = 0 then 127000 else if v = 1 then 98200 else 69400

def State.machCap (s : State) : Nat := variantCap s.fuses.variant.toNat
def State.machCeil (s : State) : Nat := variantCeil s.fuses.variant.toNat
def State.machDraw (s : State) : Nat := variantDraw s.fuses.variant.toNat

/-- MOD_FUSE of a module (Table 15-6): an entry, or that of the machine as delivered, an A96-X's (log 1). -/
def State.modFuse (s : State) (w : Nat) : Word := tget (w32 (1200 + 920 * 2 ^ 16)) w s.fuses.mods

/-- The judgement of a module's fuses at stage 3 (R556): the cause of its refusal, if any. -/
def State.fuseCause (s : State) (w : Nat) : Option Nat :=
  let f := s.modFuse w
  if bit f 31 then some 5
  else if Fld f 0 11 < s.machCap ∨ Fld f 16 12 < s.machCeil then some 4
  else none

/-! ### The census (R559) -/

/-- The sixteen isle keys of a module. -/
def modIsles (w : Nat) : List Nat := (List.range 16).map (fun k => w * 16 + k)

/-- Cores in service of a module. -/
def State.modCores (s : State) (w : Nat) : Nat := ((modIsles w).map (fun g => (s.isle g).cores.length)).sum

/-- Modules in service, rising. -/
def State.liveList (s : State) : List Nat := (List.range 96).filter (fun w => s.modServing w)

/-- MACH_LIVE_MODULES and MACH_LIVE_CORES. -/
def State.liveMods (s : State) : Nat := s.liveList.length
def State.liveCores (s : State) : Nat := (s.liveList.map s.modCores).sum

/-- The spare position of an isle cannot be used (MOD_CENSUS SPARE 17). -/
def State.spareBad (s : State) (g : Nat) : Bool :=
  s.boot.badCores.contains (g, 16) || s.boot.badCols.contains (g, 16)

/-- MOD_CENSUS SPARE: the logical number position 16 has taken, 16 unused, 17 unusable. -/
def State.spareField (s : State) (g : Nat) : Nat :=
  match (s.isle g).pos.find? (fun p => p.2 == 16) with
  | some p => p.1
  | none => if s.spareBad g then 17 else 16

/-- MOD_CENSUS_k of a module (Table 15-6). -/
def State.census (s : State) (w k : Nat) : Word :=
  let g := w * 16 + k
  let i := s.isle g
  w32 ((i.cores.map (fun c => 2 ^ c)).sum + s.spareField g * 2 ^ 16 + min 255 i.repaired * 2 ^ 24)

/-! ### Numbering (R553) -/

/-- The numbering of one isle: whether its module goes out, by cause, and the isle. -/
def numberIsle (badCore badCol : Nat → Bool) (i : Isle) : Option Nat × Isle :=
  let bc := (List.range 16).filter badCol
  let ok16 := !(badCore 16) && !(badCol 16)
  let pos : Tab Nat := match bc with
    | [c] => [(c, 16)]
    | [] => if ok16 then (match (List.range 16).find? badCore with | some c => [(c, 16)] | none => []) else []
    | _ => []
  let cores := (List.range 16).filter (fun c => !(badCore (tget c c pos)))
  let j := { i with
    cores := cores, pos := pos, colPos := pos, spareUsed := !pos.isEmpty, copying := none, dealt := false, wasPinned := false }
  if 1 < bc.length ∨ (bc.length = 1 ∧ badCol 16) then (some 6, j)
  else if cores.length < 12 then (some 7, j)
  else (none, j)

/-- The module an item names, and its isle. -/
def itemMod (b : BootItem) : Nat := b.tray * 8 + b.slot
def itemIsle (b : BootItem) : Nat := isleKey (itemMod b) b.die b.isle

/-- An item of stage 6 at an isle's built position. -/
def isleItem (g pos cause : Nat) : BootItem :=
  { stage := 6, tray := g / 128, slot := g / 16 % 8, die := g / 4 % 4, isle := g % 4, pos := pos, cause := cause }

/-- Items of the numbering of an isle: causes 6 and 7 take the module out; cause 8 for each number that passes to the spare
and each core left not in service (Table 15-4). -/
def numberItems (g : Nat) (badCol : Nat → Bool) (out : Option Nat) (i : Isle) : List BootItem :=
  match out with
  | some 6 => [isleItem g (((List.range 16).find? badCol).getD 0) 6]
  | some _ => [isleItem g (i.posOf (((List.range 16).find? (fun c => !(i.cores.contains c))).getD 0)) 7]
  | none => (i.pos.map (fun p => isleItem g p.1 8)) ++
      ((List.range 16).filter (fun c => !(i.cores.contains c))).map (fun c => isleItem g (i.posOf c) 8)

/-- The findings of stages 5 and 6 on the modules of a list: `items` are core failures (stage 5), raw column failures
(stage 6, cause 0) and repaired rows or bit-line groups, one item each (stage 6, cause 1). The isles are numbered
afresh; columns and scratch are zero. The items of the numbering and the modules it leaves out are answered. -/
def numberMods (ws : List Nat) (items : List BootItem) (s : State) : List BootItem × List (Nat × Nat) × State :=
  let gs := (ws.map modIsles).flatten
  let keep := fun (p : Nat × Nat) => !(gs.contains p.1)
  let s1 := { s with boot := { s.boot with
    badCores := s.boot.badCores.filter keep ++ (items.filter (fun b => b.stage == 5)).map (fun b => (itemIsle b, b.pos))
    badCols := s.boot.badCols.filter keep ++
      (items.filter (fun b => b.stage == 6 && b.cause == 0)).map (fun b => (itemIsle b, b.pos)) } }
  let s2 := ws.foldl (fun a w => zeroScratch w (zeroColumns 0 w a)) s1
  gs.foldl (fun (r : List BootItem × List (Nat × Nat) × State) g =>
    let st := r.2.2
    let bc := fun p => st.boot.badCores.contains (g, p)
    let bl := fun p => st.boot.badCols.contains (g, p)
    let reps := (items.filter (fun b => b.stage == 6 && b.cause == 1 && itemIsle b == g)).map (fun b => b.pos)
    let n := numberIsle bc bl (st.isle g)
    let st1 := st.setIsle g { n.2 with
      repaired := (reps.filter (fun p => !(bl p))).length, repaired6 := (reps.filter (fun p => !(bl p))).length }
    let st2 := (List.range 17).foldl (fun a p =>
      a.setColm (g * 17 + p) { used := (reps.filter (fun q => q == p)).length }) st1
    (r.1 ++ numberItems g bl n.1 n.2, match n.1 with | some c => r.2.1 ++ [(g / 16, c)] | none => r.2.1, st2)) ([], [], s2)

/-- Stages 4–6 of one module, run for itself (R575, R700): what failed, by stage and cause, or nothing; the isles as
numbered. -/
def testModule (w : Nat) (items : List BootItem) (s : State) : Option (Nat × Nat) × State :=
  let its := items.filter (fun b => itemMod b == w)
  let r := numberMods [w] its s
  let out := match its.find? (fun b => b.stage == 4) with
    | some b => some (4, b.cause)
    | none => (r.2.1.head?).map (fun p => (6, p.2))
  (out, r.2.2)

end Sys2Proof.Machine
end

