-- ==== Sys2Proof/Machine/Modules.lean ====
section
/-! DEFINITION. Modules in and out of service (R699, R575), the effective power order (R582, R583) and the life of a
module's power (R573, R575, R598, R599). -/

namespace Sys2Proof.Machine

/-- A module has left service by a fault (R582, Table 19-3): every cause but safety actions, the power order and tray
service; a module refused or failed at bring-up too. -/
def State.faultedOut (s : State) (w : Nat) : Bool :=
  let m := s.mod w
  m.state == 2 && !(m.stage == 15 && (m.cause == 2 || m.cause == 3 || m.cause == 7 || m.cause == 8 || m.cause == 9))

/-- No order and no safety action holds a module off (R582). -/
def State.ordersOn (s : State) (w : Nat) : Bool :=
  let p := s.pwrMod w
  p.host != 2 && p.rm != 2 && !p.auto && !p.safety

/-- The effective power order of a module is on (R582). -/
def State.effOn (s : State) (w : Nat) : Bool := s.ordersOn w && !(s.faultedOut w)

/-- The module's tray can raise it: its contactor is closed and it is in service or joining, and bring-up has not
stopped. -/
def State.canRise (s : State) (w : Nat) : Bool :=
  let y := s.tray (w / 8)
  y.contactor && (y.svc == .inService || y.svc == .joining) && s.boot.st != 2 && (s.mod w).state != 0

/-- The module's auxiliary rail is up: it is in its slot of a powered tray. -/
def State.auxUp (s : State) (w : Nat) : Bool := (s.mod w).state != 0 && (s.tray (w / 8)).contactor

/-- The rails of a module (R37, Table 16-1) are numbered as Table 16-6 numbers them: 0 auxiliary, 1 column periphery, 2 column
array, 3 core supply, 4 link I/O. Nominal voltage in mV. -/
def State.railNominal (s : State) (w rail : Nat) : Nat :=
  match rail with
  | 0 => 3300
  | 1 => 750
  | 2 => 1050
  | 3 => (s.pwrMod w).vset
  | _ => 1200

/-- A rail of a module is up, or may be in its sequence up: the auxiliary rail of every module in a powered tray, the others
from the sequence up to the sequence down (R37, R572, R573). -/
def State.railOn (s : State) (w rail : Nat) : Bool :=
  s.auxUp w && (rail == 0 || (s.pwrMod w).obj.st == .on || (s.pwrMod w).rising)

/-- A rail's voltage lies outside its window (Table 16-1). The core supply's window applies only while the setpoint is steady,
20 µs (2,000 ticks) after a step (R574). -/
def State.railOut (s : State) (w rail mv : Nat) : Bool :=
  let v := s.railNominal w rail
  let p := s.pwrMod w
  if rail = 3 then decide (mv + 10 < v ∨ v + 10 < mv) && (p.vtick == 0 || decide (p.vtick - 1 + 2000 ≤ s.win.tb.toNat))
  else
    let pc := if rail = 0 then 5 else 3
    decide (mv * 100 < v * (100 - pc) ∨ v * (100 + pc) < mv * 100)

/-- A sequence up begins (R572, R575): the core step is 0.70 V, or 0.62 V in crawl; FLIM is at the ceiling (R622). One that
follows a sequence down with PENDING set stays WINDING and PENDING until it is ON (R185, R598). -/
def startRise (w : Nat) (s : State) : State :=
  if s.canRise w then
    let v := if 2 ≤ s.pwr.sag then 620 else 700
    let o : Obj := (s.pwrMod w).obj
    (s.setPwrMod w { s.pwrMod w with
      obj := if o.st == .winding && o.pending then o else {}, rising := true, testing := false, vset := v, ctrl := s.machCeil, low := 0, guard := false }).setMtherm w
        { s.mtherm w with flim := s.machCeil, fair := 0 }
  else s.setPwrMod w { s.pwrMod w with obj := {}, rising := false, testing := false }

/-- A module is lowered to its auxiliary rail (R573, R575, R599). -/
def lowerMod (w : Nat) (s : State) : State :=
  let p := s.pwrMod w
  if p.obj.st == .on || p.rising || p.testing then
    markLow w (s.setPwrMod w { p with obj := { st := .winding }, rising := false, testing := false })
  else s

/-- The partitions that a module's loss winds down: those that hold it and are ON, or WINDING and not yet LOST (R229,
R699). -/
def State.partsHolding (s : State) (w : Nat) : List Nat :=
  s.partIds.filter (fun p =>
    let x := s.part p
    x.mods.contains w && (x.obj.st == .on || (x.obj.st == .winding && (x.wind == .enabling || !x.lost))))

/-- Diagnostic mode of a module ends (R575): EN clears and the diagnostic key is erased; its channels are OFF. -/
def endDiag (w : Nat) (s : State) : State :=
  let s1 := s.setMod w { s.mod w with diagEn := false, diagActive := false, keyDiag := false, diagKey := 0 }
  { s1 with chans := s1.chans.filter (fun c => !((placeOfCore (c.1 / 4)).w == w && c.2.owner.isNone)) }

/-- Packets held in a module, and those it originated and has not had acknowledged, are lost with it (R699). -/
def dropModPackets (w : Nat) (s : State) : State :=
  { s with fab := { s.fab with
      pkts := s.fab.pkts.filter (fun p => p.loc != .mod w)
      kept := s.fab.kept.filter (fun k => winAt k.pkt.shape k.pkt.src != some w) } }

/-- Late-fault records of a module that are held for their tenants are dropped with it and counted (R348, R699). -/
def dropLate (w : Nat) (s : State) : State :=
  let gone := fun (e : Event) => e.home == some w
  let n := (s.tens.map (fun x => (x.2.held.filter gone).length)).sum
  if n = 0 then s
  else
    let s1 := s.tenIds.foldl (fun a t => a.setTen t { a.ten t with held := (a.ten t).held.filter (fun e => !gone e) }) s
    { s1 with flt := { s1.flt with lateDropped := satAdd s1.flt.lateDropped n } }

/-- A module leaves service at run time (R699, R229, R411): its partitions are cut with LOST, its links fail, and it is
lowered. -/
def loseModule (w cause : Nat) (s : State) : State :=
  if s.modServing w then
    let ps := s.partsHolding w
    let s1 := s.setMod w { s.mod w with state := 2, stage := 15, cause := BitVec.ofNat 4 cause, retest := false }
    let s2 := ps.foldl (fun a p => losePart p w cause a) s1
    let s3 := dropLate w (dropModPackets w (endDiag w s2))
    let s4 := (List.range 8).foldl (fun a q => failLink (w * 8 + q) 5 a) s3
    let s5 := (modIsles w).foldl (fun a g => a.setIsle g { a.isle g with copying := none }) s4
    lowerMod w (machineEvent 0x0703 0 (w + cause * 128) none (partMask ps) (w32 s5.liveCores) s5)
  else lowerMod w s

/-- A module enters service (R560, R575, R700): its failed links begin training, and MODULE_RETURNED is raised. -/
def enterModule (w : Nat) (s : State) : State :=
  let s1 := s.setMod w { s.mod w with
    state := 1, stage := 0, cause := 0, retest := false, keyTransport := !s.keys.white, keyTen := 0, slotKeys := [], bind := none,
    gateClosed := false, keyRetry := none, fenceDue := [] }
  let s2 := (List.range 8).foldl (fun a q => onLink (w * 8 + q)
    (fun k => if k.failed && k.reason == 5 then { k with training := true } else k) a) s1
  machineEvent 0x0704 0 w none 0 (w32 s2.liveCores) (joinInst 3 w s2)

/-- The warden of a tray is running (MACH_WARDENS). -/
def State.wardenRuns (s : State) (t : Nat) : Bool := s.stw.wardens.getLsbD t

/-- The effective order of a module decides its power at once (R575, R582, R598); while its tray's warden is not running,
orders wait (R594). -/
def applyOrder (w : Nat) (s : State) : State :=
  let p := s.pwrMod w
  if !(s.wardenRuns (w / 8)) then s
  else if s.effOn w then
    match p.obj.st with
    | .on => s
    | .off => if p.rising || p.testing || (s.tray (w / 8)).svc != .inService then s else startRise w s
    | .winding => s.setPwrMod w { p with obj := { p.obj with pending := true } }
  else
    match p.obj.st with
    | .on => loseModule w 7 s
    | .off => if p.rising || p.testing then lowerMod w s else s
    | .winding =>
      -- one that was rising again is lowered, and ends OFF (R598)
      if p.rising then lowerMod w s else s.setPwrMod w { p with obj := { p.obj with pending := false } }

/-- A rail sequence down ends (R573, R575): columns and scratch have lost their contents; the module rises again if
PENDING, without an observable OFF (R598). -/
def downDone (w : Nat) (s : State) : State :=
  let p := s.pwrMod w
  if p.obj.st = .winding ∧ p.rising = false then
    let s1 := zeroScratch w (zeroColumns 0 w s)
    if p.obj.pending then startRise w s1 else s1.setPwrMod w { p with obj := {} }
  else s

end Sys2Proof.Machine
end

