-- ==== Sys2Proof/Machine/Fences.lean ====
section
/-! DEFINITION. Fences of cores (R690–R694, R105, R122) and what each command in progress loses, repeats and shows
(R311, R312, R153, R340, R351, R446). -/

namespace Sys2Proof.Machine

/-- A fence as it is judged (R691): the core, its built position, whether position 16 takes its number, DETAIL and ARG0
of CORE_FENCED, and the isle's cores before it. -/
structure FenceInfo where
  w : Nat
  die : Nat
  isle : Nat
  core : Nat
  pos : Nat
  spare : Bool
  cause : Nat
  old : List Nat
  deriving DecidableEq, Repr

def FenceInfo.g (f : FenceInfo) : Nat := isleKey f.w f.die f.isle
def FenceInfo.detail (f : FenceInfo) : Nat := f.w + f.die * 128 + f.isle * 512 + f.core * 2048 + b2n f.spare * 32768
def FenceInfo.arg0 (f : FenceInfo) : DWord := w64 (f.cause + f.pos * 16)

/-- The canonical isle of a command that lies at the fenced core's isle. -/
def FenceInfo.canon (f : FenceInfo) (mods : List Nat) : Option Nat :=
  if mods.contains f.w then some (mods.idxOf f.w * 16 + f.die * 4 + f.isle) else none

/-- The core of an isle that does what the manual places on logical core `c` (R305). -/
def standIn (cores : List Nat) (c : Nat) : Nat := if c ∈ cores then c else cores.headD 0

/-- Unended tiles of a command given to a core of a canonical isle. -/
def tilesOn (c : Cmd) (gi core : Nat) (old : List Nat) : List Nat :=
  match opOf c.bytes with
  | some .mxGemm =>
    let gm := gemmOf c.bytes
    let tn := (recipeOf c.recipe).tn
    (List.range (gemmTiles c)).filter (fun t =>
      let geo := tileGeo gm.ms gm.n tn t
      isleOf gm.b + geo.slab == gi && c.openTile t && c.coreOf gi geo.j t == core)
  | some .vxElt | some .vxReduce =>
    let v := vxOf c.bytes
    let rt := cdiv v.ms 64
    (List.range (vxTiles c)).filter (fun t => isleOf v.out + t / rt == gi && c.openTile t && c.coreOf gi (t % rt) t == core)
  | some .vxCombine => if isleOf (combOf c.bytes).final = gi ∧ standIn old 0 = core ∧ c.openTile 0 then [0] else []
  | _ => []

/-- Tile-steps of an MX_ATTN running on a core of a slab (R446). -/
def stepsOn (c : Cmd) (gi core : Nat) : List Nat :=
  if opOf c.bytes = some .mxAttn then ((c.slab gi).running.filter (fun x => x.2 == core)).map (·.1) else []

/-- The core a tile is placed on again (R117, R295, R311): over the isle's new core list, with the ρ now in force. -/
def replaced (s : State) (f : FenceInfo) (j : Nat) : Nat :=
  let i := s.isle f.g
  i.cores.getD ((j + i.rho) % (max 1 i.cores.length)) 0

/-- Place number of a tile in its isle. -/
def tileJ (c : Cmd) (t : Nat) : Nat :=
  match opOf c.bytes with
  | some .mxGemm => (tileGeo (gemmOf c.bytes).ms (gemmOf c.bytes).n (recipeOf c.recipe).tn t).j
  | some .vxCombine => 0
  | _ => t % cdiv (vxOf c.bytes).ms 64

/-- Give tiles their new cores. -/
def moveTiles (s : State) (f : FenceInfo) (gi : Nat) (ts : List Nat) (c : Cmd) : Cmd :=
  { c with
    moved := (c.moved.filter (fun x => !(ts.contains x.1))) ++ ts.map (fun t => (t, replaced s f (tileJ c t)))
    loaded := c.loaded.filter (fun x => x.1 != gi * 16 + f.core) }

/-- The tenant's CORE_FENCED for a command (R692); none where a column failure (cause 0 here) moves the number (R698). -/
def fenceEvent (f : FenceInfo) (r : Nat) (seq : DWord) (s : State) : State :=
  if f.cause = 0 then s
  else deliver (s.ring r).ctx.tenant (cmdEvent s (s.whoOf r seq) 0x0701 f.detail f.arg0 (lo32 seq)) s

/-- What a fence does to a command that is not in place: its unended tiles are re-run (R311, R446); in place, they are not
(R312). -/
def fenceTiles (s : State) (f : FenceInfo) (gi : Nat) (c : Cmd) : Cmd :=
  let ts := tilesOn c gi f.core f.old
  let st := stepsOn c gi f.core
  let n := w32 (ts.length + st.length)
  let a := c.slab gi
  let c1 := if st.isEmpty then c else c.setSlab gi { a with running := a.running.filter (fun x => x.2 != f.core) }
  let c2 := { c1 with handed := c1.handed.filter (fun h => !(ts.contains h.1)), info := c1.info + n }
  if c.inPlace then
    { c2 with
      dropped := c2.dropped ++ ts ++ st.map (fun t => attCode gi t), flags := c2.flags ||| 0x20, fenceAt := f.detail }
  else moveTiles s f gi ts { c2 with flags := c2.flags ||| 0x10 }

/-! ### Held chains (R153) -/

/-- Some member's writes, by the ranges of R309, lie within what the head reads: column WRITEs and OSM entries by slab, and
STATS entries over every slab. -/
def overwrites (h m : Cmd) : Bool :=
  let hr := (gemmRead (gemmOf h.bytes) (recipeOf h.recipe))
  let g := gemmOf m.bytes
  let r := recipeOf m.recipe
  hr.any (fun a => (gemmWrite g r).any (overlap a)) ||
  (gemmStats g r).any (fun w => (List.range (gemmOf h.bytes).g).any (fun s => hr.any (fun a => overlap (a.1 + s * 2 ^ 33, a.2) w)))

/-- The members of a ring's open held chain, oldest first: its last command is in progress, or is done and awaits its
follower. -/
def openChain (x : Ring) : List Cmd :=
  match x.prev with
  | some q =>
    let run := x.cmds.any (fun c => c.seq == q.seq && !c.done)
    let held := (recipeOf q.recipe).chain == 2 && !q.spilled
    if (held && opOf q.bytes == some .mxGemm) || (run && !q.chain.isEmpty) then x.prevChain ++ [q] else []
  | none => []

/-- The chain whose last command's forced spill has not all landed or faulted, or is being made again (R158). -/
def spillingChain (s : State) (r : Nat) : List Cmd :=
  let x := s.ring r
  match x.spillChain.getLast? with
  | some q => if s.writesFly r q.seq || x.cmds.any (fun c => c.seq == q.seq && !c.done) then x.spillChain else []
  | none => []

/-- A member of a chain has begun to write: it is counted, or a tile of it has ended. -/
def memberWrote (x : Ring) (m : Cmd) : Bool :=
  match x.cmds.find? (fun c => c.seq == m.seq) with
  | some c => c.done || c.rerun || !c.ended.isEmpty
  | none => true

/-- The chain cannot be replayed (R153, R319): a member was judged in place at its dispatch, or one has written over what the
head reads. -/
def chainBad (x : Ring) (ms : List Cmd) : Bool :=
  match ms with
  | [] => false
  | h :: _ => ms.any (fun m => m.inPlace) || ms.any (fun m => memberWrote x m && overwrites h m)

/-- A member as it is run again: nothing ended, nothing handed over. -/
def freshMember (s : State) (f : FenceInfo) (gi : Nat) (c : Cmd) : Cmd :=
  let ts := tilesOn { c with ended := [], dropped := [] } gi f.core f.old
  moveTiles s f gi ts { c with ended := [], handed := [], dropped := [] }

/-- A fence meets a ring's held chain (R153, R693): the whole chain is re-run, or ends with REPLAY_REFUSED. -/
def fenceChain (f : FenceInfo) (r gi : Nat) (ms : List Cmd) (s : State) : State :=
  let s1 := ms.foldl (fun a m => fenceEvent f r m.seq a) s
  let x := s1.ring r
  let lastSeq := (ms.getLast?.map (fun m => m.seq)).getD 0
  let mine := fun (q : Cmd) => ms.any (fun m => m.seq == q.seq)
  if chainBad x ms then
    let x1 := { x with
      cmds := x.cmds.map (fun c => if c.seq == lastSeq && !c.done then fenceTiles s f gi { c with inPlace := true } else c)
      prev := x.prev.map (fun q => if mine q then { q with flags := q.flags ||| 0x20, fenceAt := f.detail } else q) }
    s1.setRing r x1
  else
    -- the last member's forced spill is made again where it had not all landed (R158)
    let spill := x.spillChain.any (fun q => q.seq == lastSeq)
    let again := (ms.filter (fun m => !(x.cmds.any (fun c => c.seq == m.seq && !c.done && !c.rerun)))).map (fun m =>
      { freshMember s f gi m with rerun := true, done := false, spillDue := spill && m.seq == lastSeq })
    let rest := (x.cmds.filter (fun c => !(c.rerun && mine c))).map (fun c =>
      if c.seq == lastSeq then
        let d := freshMember s f gi c
        { d with flags := (c.flags &&& 0x60) ||| 0x10, info := c.info + w32 (gemmTiles c) }
      else c)
    let s2 := s1.setRing r { x with
      cmds := again ++ rest
      prev := x.prev.map (fun q => if mine q then { freshMember s f gi q with flags := q.flags ||| 0x10 } else q)
      prevChain := x.prevChain.map (fun q => if mine q then freshMember s f gi q else q)
      spillChain := x.spillChain.map (fun q => if mine q then freshMember s f gi q else q) }
    { s2 with cores := (s2.cores.map (fun p => (p.1, { p.2 with
        ran := p.2.ran.filter (fun e => !(e.1 == r && ms.any (fun m => m.seq == e.2.1))) }))).filter (fun p => p.2 != {}) }

/-! ### Channels and FX -/

/-- The channels of a fenced core stop (R690): a tenant's transfer starts again on the core that holds the number, or on
the isle's lowest in service (R311, R340); a diagnostic one ends with FENCE_END (R351). -/
def fenceChannel (f : FenceInfo) (n : Nat) (s : State) : State :=
  let from_ := (f.g * 17 + f.pos) * 4 + n
  -- writes already issued land or fault (R351)
  let sw := if (s.chan from_).obj.st == .on then writeIssued from_ s else s
  let c := sw.chan from_
  let s0 := dropChanReads from_ sw
  let stay := { c with obj := {}, owner := none, got := [], asked := 0 }
  let spareKey := (f.g * 17 + 16) * 4 + n
  match c.owner with
  | some (r, seq) =>
    if c.obj.st = .winding then endAbort from_ s0
    else if c.obj.st = .on then
      match s0.cmd? r seq with
      | none => s0.setChan from_ stay
      | some d =>
        let s1 := fenceEvent f r seq (s0.setChan from_ {})
        if d.inPlace then
          complete r seq 0 0 (modCmd r seq (fun d => { d with flags := d.flags ||| 0x20, fenceAt := f.detail }) s1)
        else
          let s2 := modCmd r seq (fun d => { d with flags := d.flags ||| 0x10 }) s1
          let to_ := (s2.coreKey f.g (s2.coreFor f.g f.core)) * 4 + n
          if (s2.chan to_).obj.st = .off then
            startChan to_ (some (r, seq)) (s2.setChan to_ { s2.chan to_ with regs := c.regs })
          else modCmd r seq (fun d => { d with rechan := some to_ }) s2
    else s0
  | none =>
    let ended := { stay with fenceEnd := c.fenceEnd || c.obj.st != .off }
    if f.spare then (s0.setChan from_ {}).setChan spareKey ended else s0.setChan from_ ended

/-- FX commands whose core is fenced send again with the same sequence numbers (R311). -/
def fenceFx (f : FenceInfo) (r : Nat) (c : Cmd) (s : State) : State :=
  match f.canon c.mods with
  | none => s
  | some gi =>
    let mark := fun (a : State) => modCmd r c.seq (fun d => { d with flags := d.flags ||| 0x10 }) (fenceEvent f r c.seq a)
    match opOf c.bytes with
    | some .fxSend =>
      let k := (fxSendOf c.bytes).core
      if k.m * 16 + k.die * 4 + k.isle = gi ∧ standIn f.old k.core = f.core then mark (startSend r c s) else s
    | some .fxReduce =>
      let o := (fxRedOf c.bytes).out
      let m := gi / 16
      if gi % 16 = bitsAt o 33 4 ∧ standIn f.old 0 = f.core ∧ !(c.ended.contains m) then mark (reduceMember r c m s) else s
    | _ => s

/-- A ring's held chain, where the fence is in one of its isles, is met as a whole (R153, R693). -/
def fenceMembers (f : FenceInfo) (r : Nat) (ms : List Cmd) (s : State) : State :=
  match ms.head? with
  | none => s
  | some h =>
    match f.canon h.mods with
    | some gi => if h.place.any (fun q => q.1 == gi) then fenceChain f r gi ms s else s
    | none => s

/-- What a fence does to every command in progress (R692, R693). -/
def replayAll (f : FenceInfo) (s : State) : State :=
  let s1 := s.ringIds.foldl (fun a r =>
    let x := a.ring r
    let ms := openChain x
    let sp := spillingChain a r
    let inChain := fun (c : Cmd) => (ms ++ sp).any (fun m => m.seq == c.seq)
    let a1 := (x.inProg.filter (fun c => !(inChain c))).foldl (fun b c =>
      match f.canon c.mods with
      | none => b
      | some gi =>
        if (tilesOn c gi f.core f.old).isEmpty && (stepsOn c gi f.core).isEmpty then fenceFx f r c b
        else modCmd r c.seq (fenceTiles b f gi) (fenceEvent f r c.seq b)) a
    fenceMembers f r ms (fenceMembers f r sp a1)) s
  [0, 1, 2, 3].foldl (fun a n => fenceChannel f n a) s1

/-! ### The fence -/

/-- The isle after a fence (R691, R105, R122), and whether position 16 took the number. -/
def fenceIsle (s : State) (g c : Nat) : Bool × Isle × Bool :=
  let i := s.isle g
  if i.copying = some c ∧ i.posOf c = 16 then
    -- the spare fails during its copy: the old column goes on serving (R122)
    (false, { i with cores := i.cores.filter (fun x => x != c), pos := [], copying := none }, true)
  else if i.pos.isEmpty && i.copying.isNone && !(s.spareBad g) then
    (true, { i with pos := [(c, 16)], spareUsed := true, copying := some c }, false)
  else (false, { i with cores := i.cores.filter (fun x => x != c) }, false)

/-- A core is fenced (R690–R693). -/
def fenceCore (w die isle c cause : Nat) (s : State) : State :=
  let g := isleKey w die isle
  let i := s.isle g
  if s.modServing w && i.cores.contains c then
    let n := fenceIsle s g c
    let f : FenceInfo := { w := w, die := die, isle := isle, core := c, pos := i.posOf c, spare := n.1, cause := cause,
                           old := i.cores }
    let s1 := (s.setIsle g n.2.1).setCore (g * 17 + f.pos) {}
    let s2 := (if n.1 then s1.setCore (g * 17 + 16) {} else s1).setMod w { s1.mod w with
      fenceDue := (s1.mod w).fenceDue.filter (fun e => e.1 != (die * 4 + isle) * 17 + f.pos) }
    let s3 := if n.2.2 then { s2 with boot := { s2.boot with badCores := s2.boot.badCores ++ [(g, 16)] } } else s2
    let s4 := { s3 with flt := { s3.flt with
      fenced := satInc s3.flt.fenced
      spares := if n.1 then satInc s3.flt.spares else s3.flt.spares
      lastFence := w32 (w + die * 2 ^ 7 + isle * 2 ^ 9 + c * 2 ^ 11 + f.pos * 2 ^ 15 + cause * 2 ^ 20) } }
    let s5 := machineEvent 0x0701 0 f.detail none f.arg0 0 s4
    if n.2.1.cores.length < 12 then loseModule w 4 s5 else replayAll f s5
  else s

/-- A detected fault fences its core; below 0.70 V the fence waits for the supply to return (R713). -/
def detectedFault (w die isle c cause : Nat) (s : State) : State :=
  let g := isleKey w die isle
  if s.modServing w && (s.isle g).cores.contains c && s.paused w then fenceDue (s.coreKey g c) cause s
  else fenceCore w die isle c cause s

/-- The fences that are due at a module take effect: its supply is back at 0.70 V (R713). -/
def runFences (w : Nat) (s : State) : State :=
  (s.mod w).fenceDue.foldl (fun a e =>
    let die := e.1 / 68
    let isle := e.1 / 17 % 4
    let i := a.isle (isleKey w die isle)
    match i.cores.find? (fun c => i.posOf c == e.1 % 17) with
    | some c => fenceCore w die isle c e.2 a
    | none => a) (s.setMod w { s.mod w with fenceDue := [] })

/-- CORE_FENCE: a fence the machine's own detection causes (Table 19-2 causes 1, 2 and 5). -/
def execCoreFence (w : Fin 96) (die isle : BitVec 2) (core cause : BitVec 4) (s : State) :
    Host.Outcome State Fault Refusal :=
  .next (if cause = 1 ∨ cause = 2 ∨ cause = 5 then detectedFault w.val die.toNat isle.toNat core.toNat cause.toNat s else s)

/-- A core holds dispatched work (Table 19-2 cause 3). -/
def State.coreBusy (s : State) (w die isle c : Nat) : Bool :=
  let g := isleKey w die isle
  let i := s.isle g
  let f : FenceInfo := { w := w, die := die, isle := isle, core := c, pos := i.posOf c, spare := false, cause := 3, old := i.cores }
  s.ringIds.any (fun r => (s.ring r).inProg.any (fun d =>
    match f.canon d.mods with
    | some gi => !(tilesOn d gi c i.cores).isEmpty || !(stepsOn d gi c).isEmpty
    | none => false)) ||
  [0, 1, 2, 3].any (fun n => (s.chan ((g * 17 + f.pos) * 4 + n)).obj.st != .off)

/-- CORE_STALL_TIMEOUT (Table 19-2 cause 3): 1,000,000 ticks without a transit at a core that holds work; no tick below
0.70 V counts (R713). -/
def execCoreStallTimeout (w : Fin 96) (die isle : BitVec 2) (core : BitVec 4) (s : State) : Host.Outcome State Fault Refusal :=
  .next (if s.coreBusy w.val die.toNat isle.toNat core.toNat && !(s.paused w.val) then fenceCore w.val die.toNat isle.toNat core.toNat 3 s else s)

/-- A write of FAULT_CORE_CTL (R707). -/
def coreCtl (val : Word) (s : State) : Verdict :=
  let w := Fld val 0 7
  let die := Fld val 7 2
  let isle := Fld val 9 2
  let c := Fld val 11 4
  if 95 < w then .error 3
  else if !(bit val 15) then .ok s
  else if !(s.modServing w) || !((s.isle (isleKey w die isle)).cores.contains c) then .error 5
  else .ok (fenceCore w die isle c 4 s)

def execFaultCoreFenceOrder (port : BitVec 4) (val : Word) (s : State) : Host.Outcome State Fault Refusal :=
  .next (regOp port.toNat 0x130000 val.toNat (coreCtl val s) s)

/-- The copy of a column to position 16 ends (R105, R698): the spare's column serves the slot. A copy made for a failed
column is reported. -/
def spareCopied (w die isle : Nat) (s : State) : State :=
  let g := isleKey w die isle
  let i := s.isle g
  match i.copying with
  | none => s
  | some c =>
    let s1 := s.setIsle g { i with copying := none, colPos := [(c, 16)] }
    if s.boot.badCols.contains (g, c) then
      let n := (s.badUnits.filter (fun u => u / 2 ^ 27 == g && u * 64 / 256 % 16 == c)).length
      machineEvent 0x070B 0 (w + die * 2 ^ 7 + isle * 2 ^ 9 + c * 2 ^ 11 + 2 ^ 15) none (w64 n)
        (w32 (64 - (s1.colm (g * 17 + 16)).used)) s1
    else s1

def execSpareColumnCopyDone (w : Fin 96) (die isle : BitVec 2) (s : State) : Host.Outcome State Fault Refusal :=
  .next (spareCopied w.val die.toNat isle.toNat s)

end Sys2Proof.Machine
end

