-- ==== Sys2Proof/Machine/Move.lean ====
section
/-! DEFINITION. The MOD windows (R786, R798), the commands of the move channels (R339, R340, R344) and diagnostic mode
(R341–R343). -/

namespace Sys2Proof.Machine

/-- A page of a MOD window answers (R786, R798). -/
def State.modAnswers (s : State) (w page : Nat) : Bool :=
  s.trayAnswers (w / 8) && (s.mod w).state != 0 && ((s.mod w).state == 1 || page % 2 == 0)

/-- Canonical offset of a MOD window (R169). -/
def modOff (w : Nat) : Nat := 0x1000000 + w * 0x20000

/-- The isle and logical core MV_SEL shows (Table 9-1). -/
def State.selIsle (s : State) (w : Nat) : Nat :=
  let v := (s.mod w).mvSel.toNat
  isleKey w (bitsAt v 0 2) (bitsAt v 2 2)
def State.selCore (s : State) (w : Nat) : Nat := bitsAt (s.mod w).mvSel.toNat 4 4

/-- The channel that a window's channel registers belong to (R329). -/
def State.selChan (s : State) (w n : Nat) : Nat := s.coreKey (s.selIsle w) (s.selCore w) * 4 + n

/-- The diagnostic channels of a module that are not OFF. -/
def State.diagBusy (s : State) (w : Nat) : List Nat :=
  (s.chans.filter (fun c => (placeOfCore (c.1 / 4)).w == w && c.2.owner.isNone && c.2.obj.st != .off)).map (·.1)

/-- MV_DIAG.SCRUB: the exit scrub is in progress (R342, R356). -/
def State.diagScrub (s : State) (w : Nat) : Bool :=
  (s.mod w).diagActive && !(s.mod w).diagEn && (s.diagBusy w).isEmpty && s.keys.ready

/-- A write of MV_CHn_CTL or a channel register is accepted: the module is in diagnostic mode and the core shown is in
service (R327, R329). -/
def State.chanOpen (s : State) (w : Nat) : Bool :=
  (s.mod w).diagActive && (s.isle (s.selIsle w)).cores.contains (s.selCore w)

/-- MV_CHn_CTL.GO (R339). -/
def chanGo (w n : Nat) (s : State) : Verdict :=
  let k := s.selChan w n
  let c := s.chan k
  if !(s.chanOpen w) then .error 5
  else match c.obj.st with
    | .on => .error 4
    | .off => if moveOk (2 ^ 37) c.regs.mv then .ok (startChan k none s) else .error 3
    | .winding => .ok (s.setChan k { c with obj := { st := .winding, pending := true } })

/-- MV_CHn_CTL.ABORT (R339). -/
def chanAbort (w n : Nat) (s : State) : Verdict :=
  if !(s.chanOpen w) then .error 5 else .ok (abortChan (s.selChan w n) s)

/-- A write in a MOD window takes effect only where its page answers (R798). -/
def modOp (w page port off val : Nat) (v : Verdict) (s : State) : State :=
  if s.modAnswers w page then regOp port off val v s else s

def execMvChGo (port : BitVec 4) (w : Fin 96) (n : BitVec 2) (s : State) : Host.Outcome State Fault Refusal :=
  .next (modOp w.val 1 port.toNat (modOff w.val + 0x1078 + 0x40 * n.toNat) 1 (chanGo w.val n.toNat s) s)

def execMvChAbort (port : BitVec 4) (w : Fin 96) (n : BitVec 2) (s : State) : Host.Outcome State Fault Refusal :=
  .next (modOp w.val 1 port.toNat (modOff w.val + 0x1078 + 0x40 * n.toNat) 2 (chanAbort w.val n.toNat s) s)

/-- Key of a channel by the logical number of its core. -/
def State.chanKey (s : State) (w die isle core n : Nat) : Nat := s.coreKey (isleKey w die isle) core * 4 + n

/-- MV_TRANSFER_COMPLETE (R344). -/
def execMvTransferComplete (w : Fin 96) (die isle : BitVec 2) (core : BitVec 4) (n : BitVec 2) (s : State) :
    Host.Outcome State Fault Refusal :=
  .next (finishChan (s.chanKey w.val die.toNat isle.toNat core.toNat n.toNat) s)

/-- MV_WIND_DOWN_DONE (R340). -/
def execMvWindDownDone (w : Fin 96) (die isle : BitVec 2) (core : BitVec 4) (n : BitVec 2) (s : State) :
    Host.Outcome State Fault Refusal :=
  .next (endAbort (s.chanKey w.val die.toNat isle.toNat core.toNat n.toNat) s)

/-! ### Diagnostic mode -/

/-- The module belongs to a partition that is ON, WINDING or PENDING (R341). -/
def State.modInPart (s : State) (w : Nat) : Bool :=
  s.partIds.any (fun p => s.partHas p w)

/-- MV_DIAG.EN = 1 (R341, R798). -/
def diagEnable (w : Nat) (s : State) : Verdict :=
  if (s.mod w).diagEn then .ok s
  else if !(s.modServing w) || s.modInPart w then .error 5
  else .ok (s.setMod w { s.mod w with diagEn := true })

/-- MV_DIAG.EN = 0 (R342): every busy channel of the module is aborted. -/
def diagDisable (w : Nat) (s : State) : Verdict :=
  if (s.mod w).diagEn then
    .ok ((s.diagBusy w).foldl (fun a k => abortChan k a) (s.setMod w { s.mod w with diagEn := false }))
  else .ok s

/-- MV_DIAG lies on page 1, which answers for it also while the module is on its auxiliary rail (R798). -/
def execMvDiagEnable (port : BitVec 4) (w : Fin 96) (s : State) : Host.Outcome State Fault Refusal :=
  .next (modOp w.val 0 port.toNat (modOff w.val + 0x1000) 1 (diagEnable w.val s) s)

def execMvDiagDisable (port : BitVec 4) (w : Fin 96) (s : State) : Host.Outcome State Fault Refusal :=
  .next (modOp w.val 0 port.toNat (modOff w.val + 0x1000) 0 (diagDisable w.val s) s)

/-- The diagnostic binding is in place (R341): scratch zero, gates bound to the diagnostic identity, a fresh key. -/
def diagActive (w : Nat) (s : State) : State :=
  let m := s.mod w
  if m.diagEn && !m.diagActive && s.keys.ready && s.modServing w && m.keyRetry.isNone then
    { zeroScratch w (s.setMod w { m with
        diagActive := true, keyDiag := true, diagKey := s.keySerial + 1, bind := none, gateClosed := false }) with
      keySerial := s.keySerial + 1 }
  else s

def execMvDiagActive (w : Fin 96) (s : State) : Host.Outcome State Fault Refusal := .next (diagActive w.val s)

/-- The exit scrub ends (R342): columns, under the diagnostic key, and scratch are zero, and that key is erased. -/
def diagExit (w : Nat) (s : State) : State :=
  if s.diagScrub w then
    zeroScratch w (zeroColumns (s.mod w).diagKey w
      (s.setMod w { s.mod w with diagActive := false, keyDiag := false, diagKey := 0 }))
  else s

def execMvDiagExitScrubDone (w : Fin 96) (s : State) : Host.Outcome State Fault Refusal := .next (diagExit w.val s)

end Sys2Proof.Machine
end

