-- ==== Sys2Proof/Machine/Trays.lean ====
section
/-! DEFINITION. Trays: loss of their power (R38, R541, R497), tray service (R701–R706) and joining (R560, R705). -/

namespace Sys2Proof.Machine

/-- The link ports on a tray, by number l (R408). -/
def trayPorts (t : Nat) : List Nat :=
  if t < 12 then (List.range 64).map (fun k => t * 64 + k)
  else if t < 16 then (List.range 8).map (fun k => 768 + (t - 12) * 8 + k) else []

/-- The modules of a tray. -/
def trayMods (t : Nat) : List Nat := if t < 12 then (List.range 8).map (fun k => t * 8 + k) else []

/-- The type Table 1-1 gives a position, in the code of Table 5-4. -/
def trayType (t : Nat) : Nat :=
  if t < 12 then 0 else if t < 14 then 1 else if t < 16 then 2 else if t = 16 then 3 else 4

/-- The code of a service state (R701). -/
def TraySvc.code : TraySvc → Nat
  | .inService => 0 | .preparing => 1 | .ready => 2 | .absent => 3 | .joining => 4 | .failed => 5

/-- A tray takes a service state: TRAY_STATE (Table 19-4). -/
def setSvc (t : Nat) (v : TraySvc) (s : State) : State :=
  if (s.tray t).svc = v then s
  else machineEvent 0x070E 0 (t + v.code * 32) none 0 0 (s.setTray t { s.tray t with svc := v })

/-- The effective PIPEMODE of a tray (R190, R504). -/
def State.effPipe (s : State) (t : Nat) : Bool :=
  let b := 16 + 2 * (t - 14)
  if bit s.win.strapOvr b then bit s.win.strapOvr (b + 1)
  else (s.tray t).strapsRead && !(s.tray t).mismatch && (s.tray t).pipeMode

/-- A tray's mode change point (R506): all four pipelines are OFF. -/
def modePoint (t : Nat) (s : State) : State :=
  if [0, 1, 2, 3].all (fun p => (s.pipe ((t - 14) * 4 + p)).obj.st == .off) then
    s.setIntake (t - 14) { s.intake (t - 14) with mode := s.effPipe t }
  else s

/-- A frame that a loss of the intake tray has ended: an IX_FRAME that had begun waits for another frame (log 24). -/
def forgetFrames (tray : Nat) (s : State) : State :=
  let outs := ([0, 1, 2, 3].map (fun p => ((s.pipe ((tray - 14) * 4 + p)).dev.map (fun d => d.outs)).getD [])).flatten
  outs.foldl (fun a o => modCmd o.2.1 o.2.2 (fun c => { c with begun := false }) a) s

/-- An intake tray loses its power (R458, R497, R541): its pages hold their reset values, its pool, banks and queues are
lost. -/
def intakeLoss (tray : Nat) (s : State) : State :=
  let mine := fun (k : Nat) => k / 4 == tray - 14
  let s1 := dropReads (fun r => match r.purpose with | .bank t _ => t == tray | _ => false) (forgetFrames tray s)
  { s1 with
    sports := s1.sports.filter (fun p => !(mine p.1))
    pins := s1.pins.filter (fun p => !(mine (p.1 / 16)))
    pipes := s1.pipes.filter (fun p => !(mine p.1))
    intakes := s1.intakes.filter (fun p => p.1 != tray - 14)
    win := { s1.win with latches := s1.win.latches.filter (fun l => l.1 / 0x8000 != (0xE0000 + (tray - 14) * 0x8000) / 0x8000) } }

/-- A module without its auxiliary rail: no rail, no key, no contents. -/
def darkMod (w : Nat) (s : State) : State :=
  let s1 := markLow w (s.setPwrMod w { s.pwrMod w with obj := {}, rising := false, testing := false })
  zeroScratch w (zeroColumns 0 w (s1.setMod w { s1.mod w with
    keyTen := 0, slotKeys := [], keyDiag := false, diagKey := 0, keyTransport := false, keyRetry := none, retest := false }))

/-- A tray's input contactor opens, or its power is gone: its modules go dark, its host ports lose their links (R817), an
intake tray loses what R541 states, and its warden stops. -/
def trayDark (t : Nat) (s : State) : State :=
  let s1 := s.setTray t { s.tray t with contactor := false, strapsRead := false }
  let s2 := (trayMods t).foldl (fun a w => darkMod w a) s1
  let s3 := if t = 12 ∨ t = 13 then (List.range 8).foldl (fun a q => linkDown ((t - 12) * 8 + q) a) s2 else s2
  let s4 := if t = 14 ∨ t = 15 then intakeLoss t s3 else s3
  -- its valve closes by its spring (R613, R703)
  let s4 := if t < 17 then s4.setTtherm t { s4.ttherm t with valve := 0, forced := false } else s4
  -- the Sound joins the module ends of an attached tray's wrap links (R372)
  changeSplices (if s.trayLive t then spliceCols t else []) { s4 with stw := { s4.stw with
      wardens := s4.stw.wardens &&& ~~~(BitVec.ofNat 18 (2 ^ t)), adopting := s4.stw.adopting.filter (fun x => x != t) } }

/-- A tray is lost with its power (R561, R627, R706): its modules leave service with a cause, its links fail with reason 5;
the Sound's loss is cause 3 of R375, but for a Sound in STATE 2, whose tray may be powered down and removed (R379). -/
def loseTray (t cause : Nat) (s : State) : State :=
  let s1 := (trayMods t).foldl (fun a w => loseModule w cause a) s
  let s2 := (trayPorts t).foldl (fun a l => failLink l 5 a) s1
  let s3 := trayDark t s2
  if t = 16 then
    if s3.sh.sound = 2 then { s3 with sh := { s3.sh with selfTest := false } }
    else trigger 3 { s3 with sh := { s3.sh with sound := 3, selfTest := false } }
  else s3

/-! ### Service (R702–R704) -/

/-- PREPARE is illegal on a tray IN_SERVICE (R702). -/
def State.prepareBad (s : State) (t : Nat) : Bool :=
  s.boot.st == 0 ||
  (trayMods t).any (fun w => s.modInPart w) ||
  ((t == 12 || t == 13) &&
    (s.ctlPort / 8 == t - 12 || s.tenIds.any (fun n => (s.ten n).obj.st == .on && (s.ten n).bPort / 8 == t - 12))) ||
  ((t == 14 || t == 15) && [0, 1, 2, 3].any (fun p => (s.pipe ((t - 14) * 4 + p)).obj.st != .off))

/-- Fence the links of a tray that is prepared (R703 step 1). -/
def fenceTray (t : Nat) (s : State) : State :=
  (trayPorts t).foldl (fun a l => onLink l (fun k =>
    if k.fenced || k.failed then { k with training := false } else { k with fenced := true, training := false, reason := 5 }) a) s

/-- PREPARE (R702, R703): the links are fenced, an attached tray is spliced out, and the modules are lowered. -/
def trayPrepare (t : Nat) (s : State) : Verdict :=
  if t = 16 ∨ t = 17 then .error 3
  else if (s.tray t).svc != .inService then .ok s
  else if s.prepareBad t then .error 5
  else .ok ((trayMods t).foldl (fun a w => loseModule w 8 a)
    (changeSplices (spliceCols t) (setSvc t .preparing (fenceTray t s))))

/-- TRAY_PREPARE: FAULT_TRAY_n_CTL.PREPARE; a position above 17 is no register. -/
def execTrayPrepare (port : BitVec 4) (t : Fin 18) (s : State) : Host.Outcome State Fault Refusal :=
  .next (regOp port.toNat (0x131000 + 4 * t.val) 1 (trayPrepare t.val s) s)

/-- TRAY_READY (R703 steps 3 and 4): the fences are in the map and the modules down; the contactor opens, with a majority
(R659). -/
def trayReady (t : Nat) (s : State) : State :=
  if (s.tray t).svc = .preparing ∧ s.majority = true ∧
      (trayMods t).all (fun w => (s.pwrMod w).obj.st == .off && !(s.pwrMod w).rising) ∧ s.trayReloads t = false ∧
      (trayPorts t).all (fun l => let k := s.link (linkKey s.sh.shape l); k.inMap || !(k.fenced || k.failed)) then
    setSvc t .ready (trayDark t s)
  else s

def execTrayReady (t : Fin 18) (s : State) : Host.Outcome State Fault Refusal := .next (trayReady t.val s)

/-- A safety action holds a tray's power off: leak, over-temperature or the low-low reservoir (R612, R625, R627). -/
def State.heldOff (s : State) (t : Nat) : Bool :=
  (s.ttherm t).leakCut || (s.ttherm t).ot || (s.therm.resCut && decide (t < 17)) || (s.therm.flowLost && decide (t < 17))

/-- A tray goes to JOINING (R560, R704, R705): its contactor closes, its valve opens — fully, until its warden sets it under
R613 (DESIGN CHOICE, log 118) — its straps are read (R801; at once, log 126), and its modules rise where no order holds them off.
While bring-up runs it waits for the end of stage 11 (R565). -/
def startJoin (t : Nat) (s : State) : State :=
  if !s.boot.powered || s.boot.st == 0 then setSvc t .joining (s.setTray t { s.tray t with contactor := false })
  else
  -- an open contactor waits for a majority (R659)
  let up := !(s.heldOff t) && (s.majority || (s.tray t).contactor)
  let s0 := if up && decide (t < 17) then s.setTtherm t { s.ttherm t with valve := 100 } else s
  let s1 := setSvc t .joining (s0.setTray t { s0.tray t with contactor := up, strapsRead := up })
  if !up then s1
  else (trayMods t).foldl (fun a w =>
    if !(a.ordersOn w) || (a.mod w).state = 0 then a
    else match (a.pwrMod w).obj.st with
      | .off => if (a.pwrMod w).rising then a else startRise w a
      | .winding => a.setPwrMod w { a.pwrMod w with obj := { st := .winding, pending := true } }
      | .on => a) s1

/-- Joining trays whose contactor waited for a majority or for a safety action to end come up now (R628, R659). -/
def joinWaiting (s : State) : State :=
  ((List.range 18).filter (fun t => (s.tray t).svc == .joining && !(s.tray t).contactor && !(s.heldOff t))).foldl
    (fun a t => startJoin t a) s

/-- CANCEL (R704). -/
def trayCancel (t : Nat) (s : State) : Verdict :=
  if (s.tray t).svc = .preparing ∨ (s.tray t).svc = .ready then .ok (startJoin t s) else .ok s

def execTrayCancel (port : BitVec 4) (t : Fin 18) (s : State) : Host.Outcome State Fault Refusal :=
  .next (regOp port.toNat (0x131000 + 4 * t.val) 2 (trayCancel t.val s) s)

/-- A tray has left its slot: it is ABSENT with what it carried. -/
def emptySlot (t : Nat) (s : State) : State :=
  let s1 := setSvc t .absent (s.setTray t { s.tray t with contactor := false, strapsRead := false })
  -- its lid switch is no longer sensed (R734)
  let k := { s1.keys with
    closed := s1.keys.closed &&& ~~~(BitVec.ofNat 18 (2 ^ t))
    openTick := if s1.keys.white && s1.keys.openTick == 0 && s1.keys.closed &&& ~~~(BitVec.ofNat 18 (2 ^ t)) == 0
      then s1.win.tb.toNat + 1 else s1.keys.openTick }
  let s1 := dropRestart t { s1 with keys := k }
  (trayMods t).foldl (fun a w => a.setMod w { a.mod w with state := 0, stage := 0, cause := 0, mvSel := 0, errSel := 0 }) s1

/-- A tray that bring-up concerns is removed while a stage runs: it is reported there (R565). -/
def noteGone (t : Nat) (s : State) : State :=
  if s.boot.powered && s.boot.st == 0 && (s.tray t).svc == .inService then
    { s with boot := { s.boot with gone := s.boot.gone ++ [t] } }
  else s

/-- TRAY_REMOVAL (R705, R706). The steward bay is not removed in service. -/
def trayRemoval (t : Nat) (s : State) : State :=
  let s := noteGone t s
  match (s.tray t).svc with
  | .absent => s
  | .ready => emptySlot t s
  | _ =>
    let s1 := logAdd 5 0 t 9 0 [] (loseTray t 9 s)
    let s2 := emptySlot t s1
    -- a Sound tray taken out in STATE 2 is in service work and stays so (R379)
    if t = 16 ∧ s.sh.sound ≠ 2 then { s2 with sh := { s2.sh with sound := 0 } } else s2

def execTrayRemoval (t : Fin 17) (s : State) : Host.Outcome State Fault Refusal := .next (trayRemoval t.val s)

/-- TRAY_INSERTION (R705): the tray with its straps (laid out as MACH_STRAP_n) and the fuses of its modules, by slot. -/
def trayInsertion (t : Nat) (straps : Word) (slots : List (Option ModFuse)) (s : State) : State :=
  if (s.tray t).svc = .absent then
    let s1 := s.setTray t { s.tray t with
      strapsRead := false, badType := if Fld straps 5 3 = trayType t then none else some (BitVec.ofNat 3 (Fld straps 5 3))
      ctlHost := Fld straps 12 4, fabMode := bit straps 8, preset := BitVec.ofNat 3 (Fld straps 9 3), pipeMode := bit straps 16 }
    let s2 := (trayMods t).foldl (fun a w =>
      match slots.getD (w % 8) none with
      | some f => { a.setMod w { state := 2, stage := 15, cause := 9, keyTransport := false } with
          fuses := { a.fuses with
            mods := tset (w32 (1200 + 920 * 2 ^ 16)) w f.fuse a.fuses.mods, serials := tset 0 w f.serial a.fuses.serials
            records := (List.range 64).foldl (fun b k => tset none (w * 64 + k) f.record[k]? b) a.fuses.records } }
      | none => a.setMod w { state := 0, keyTransport := false }) s1
    let s3 := if t = 16 ∧ s2.sh.sound ≠ 2 then { s2 with sh := { s2.sh with sound := 3 } } else s2
    startJoin t s3
  else s

def execTrayInsertion (t : Fin 18) (straps : Word) (slots : List (Option ModFuse)) (s : State) :
    Host.Outcome State Fault Refusal := .next (trayInsertion t.val straps slots s)

/-- The last-words register holds a record newer than the one last reported: LAST_WORDS, once (R673). -/
def tellWords (t : Nat) (s : State) : State :=
  match tget none t s.stw.words with
  | some r =>
    if tget 0 t s.stw.wordsTold ≤ r.tb.toNat then
      machineEvent 0x060A 0 t none r.tb 0 { s with stw := { s.stw with wordsTold := tset 0 t (r.tb.toNat + 1) s.stw.wordsTold } }
    else s
  | none => s

/-! ### Modules coming up (R560, R575, R700) -/

/-- A module that the tests of its stages leave out: lowered, with stage and cause (R552, R553, R558). -/
def failTests (w stage cause : Nat) (s : State) : State :=
  lowerMod w (s.setMod w { s.mod w with
    state := 2, stage := BitVec.ofNat 4 stage, cause := BitVec.ofNat 4 cause, retest := false })

/-- The log record of the stages a module or tray has run for itself (R560, R700). -/
def stageLog (place result : Nat) (items : List BootItem) (s : State) : State :=
  logAdd 2 0 place (w64 result) (w32 items.length)
    (items.map (fun b => b.stage + b.tray * 16 + b.slot * 2 ^ 9 + b.die * 2 ^ 12 + b.isle * 2 ^ 14 + b.pos * 2 ^ 16 + b.cause * 2 ^ 21)) s

/-- A tray that stages 3–11 concern: in service, with its contactor closed. -/
def State.trayRuns (s : State) (t : Nat) : Bool := (s.tray t).svc == .inService && (s.tray t).contactor

/-- A module that has passed every stage so far. -/
def State.modAlive (s : State) (w : Nat) : Bool :=
  s.trayRuns (w / 8) && (s.mod w).state != 0 && (s.mod w).stage == 0 && (s.pwrMod w).obj.st == .on

/-- A stage's own work is finished, as far as the state shows it: rails have risen, cold dies have warmed or timed out. -/
def State.stageDone (s : State) : Bool :=
  match s.boot.stage with
  | 3 => (List.range 96).all (fun w => !(s.pwrMod w).rising)
  | 4 => (List.range 96).all (fun w => !(s.modAlive w) || [0, 1, 2, 3].all (fun d =>
      !(s.die (w * 4 + d)).cold || s.boot.found.any (fun b => b.cause == 3 && itemMod b == w && b.die == d)))
  | _ => true

/-- Follow the time that stage 4 waits for a cold die (R546, R554), in the machine's count of ticks at 0.70 V or above. -/
def markWait (s : State) : State :=
  let b := s.boot
  let now := s.upTimeAll
  let waits := b.powered && b.st == 0 && b.stage == 4 && !s.stageDone
  { s with boot := { b with
      waitFrom := if waits then (if b.waitFrom = 0 then now + 1 else b.waitFrom) else 0
      waitSum := if !waits && b.waitFrom != 0 then b.waitSum + (now + 1 - b.waitFrom) else b.waitSum } }

/-- A die of a module is below −10 °C (R60): nothing on it is released to compute. -/
def State.coldMod (s : State) (w : Nat) : Bool := [0, 1, 2, 3].any (fun d => (s.die (w * 4 + d)).cold)

/-- The tests of a module that has risen end (R575, R700), which wait for a cold die (R60, R554) and below 0.70 V
(R600): it enters service, or stays out with the cause found. A power order that went off meanwhile lowers it again. -/
def testsDone (w : Nat) (items : List BootItem) (s : State) : State :=
  let p := s.pwrMod w
  if p.testing && !(s.paused w) && !(s.coldMod w) then
    let r := testModule w items s
    let s1 := stageLog (w / 8 + w % 8 * 32) (match r.1 with | some x => x.1 + x.2 * 16 | none => 0) items r.2
    match r.1 with
    | some x => failTests w x.1 x.2 s1
    | none =>
      let s2 := s1.setPwrMod w { s1.pwrMod w with obj := { st := .on }, rising := false, testing := false, testFrom := 0 }
      if s2.ordersOn w then enterModule w s2 else failTests w 15 7 s2
  else s

/-- The cause that keeps a module of a joining tray out before its die tests: stage 3 items and its fuses (R556, R558). -/
def State.stage3Cause (s : State) (w : Nat) (items : List BootItem) : Option Nat :=
  match items.find? (fun b => b.stage == 3 && itemMod b == w) with
  | some b => some b.cause
  | none => s.fuseCause w

/-- A module of a joining tray ends its stages. -/
def joinModule (items : List BootItem) (w : Nat) (s : State) : State :=
  if (s.mod w).state = 0 then s
  else match s.stage3Cause w items with
    | some c => failTests w 3 c s
    | none =>
      if !(s.ordersOn w) then failTests w 15 7 s
      else if (s.pwrMod w).obj.st = .on then testsDone w items (s.setPwrMod w { s.pwrMod w with testing := true })
      else s

/-- Links of a tray that has joined begin training (R704, R705). -/
def retrainTray (t : Nat) (s : State) : State :=
  (trayPorts t).foldl (fun a l => onLink l (fun k => if (k.failed || k.fenced) && k.reason == 5 then { k with training := true } else k) a) s

/-- TRAY_JOIN_COMPLETE (R560, R705, R565), once no module of the tray is rising, is below 0.70 V or has a cold die: `items` are
what failed in the tray's own stages; a stage 2 item is a silent warden. -/
def joinDone (t : Nat) (items : List BootItem) (s : State) : State :=
  let y := s.tray t
  if y.svc = .joining ∧ s.boot.st ≠ 0 ∧ y.contactor = true ∧ (trayMods t).all (fun w => !(s.pwrMod w).rising &&
      ((s.pwrMod w).obj.st != .on || !(s.paused w || s.coldMod w))) then
    let its := items.filter (fun b => b.tray == t)
    -- a warden that starts reports the last words it holds (R673)
    let start := fun (a : State) =>
      let b := { a.setTray t { y with strapsRead := true } with
        stw := { a.stw with wardens := a.stw.wardens ||| BitVec.ofNat 18 (2 ^ t) } }
      if a.wardenRuns t then b else tellWords t b
    if its.any (fun b => b.stage == 2 && b.cause == 2) then
      setSvc t .failed (stageLog t 2 its ((trayMods t).foldl (fun a w => failTests w 2 2 a)
        (s.setTray t { y with strapsRead := false })))
    else if y.mismatch then
      -- its warden runs and reads its straps, and nothing else takes part (R52, R188)
      setSvc t .failed (stageLog t 2 (its ++ [⟨2, t, 0, 0, 0, 0, 3⟩]) ((trayMods t).foldl (fun a w => failTests w 2 3 a) (start s)))
    else
      let s1 := stageLog t 0 its (start s)
      let s2 := joinTray t (setSvc t .inService s1)
      let s3 := (trayMods t).foldl (fun a w => joinModule its w a) s2
      -- an attached tray is spliced back into its wrap links (R372)
      let s4 := changeSplices (spliceCols t) (retrainTray t s3)
      if t = 12 ∨ t = 13 then
        (List.range 8).foldl (fun a q => let n := (t - 12) * 8 + q; a.setPort n { a.port n with
          trains := 0, replays := 0, cplTimeouts := 0, nudges := 0, resets := 0 }) s4
      else if t = 14 ∨ t = 15 then modePoint t s4
      else s4
  else s

def execTrayJoinComplete (t : Fin 18) (items : List BootItem) (s : State) : Host.Outcome State Fault Refusal :=
  .next (joinDone t.val items s)

end Sys2Proof.Machine
end

