-- ==== Sys2Proof/Machine/Faults.lean ====
section
/-! DEFINITION. Columns that fail and are repaired (R695–R698, R714), stalled dies (R699) and retests (R700). -/

namespace Sys2Proof.Machine

/-- The built column that takes a slot's spare rows: the one that serves it, or the one it is being copied to (R698,
R714). -/
def State.colOf (s : State) (g c : Nat) : Nat :=
  let i := s.isle g
  g * 17 + (if i.copying = some c then 16 else tget c c i.colPos)

/-- Key of a unit of an isle, by its number in the isle. -/
def unitKey (g u : Nat) : Nat := g * 2 ^ 27 + u

/-- Column slot (R101) and row (R553) of a unit of an isle: bits [11:8] and [32:17] of its offset. -/
def unitSlot (u : Nat) : Nat := u / 4 % 16
def unitRow (u : Nat) : Nat := u / 2 ^ 11

/-- The column of a slot has failed and no spare takes it (R698): COLUMN_REPAIR with DETAIL[15], and the module goes. -/
def columnLost (g c : Nat) (s : State) : State :=
  loseModule (g / 16) 5 (machineEvent 0x070B 0
    (g / 16 + g / 4 % 4 * 128 + g % 4 * 512 + c * 2048 + 32768) none 0
    (w32 (64 - (s.colm (s.colOf g c)).used)) s)

/-- A column fails (R698): position 16 takes the slot, and its core the number if it is good. -/
def columnFails (g c : Nat) (s : State) : State :=
  let i := s.isle g
  if i.copying = some c then s
  else if !i.spareUsed && i.pos.isEmpty && i.copying.isNone && !(s.boot.badCols.contains (g, 16)) then
    let good := !(s.boot.badCores.contains (g, 16))
    let f : FenceInfo := { w := g / 16, die := g / 4 % 4, isle := g % 4, core := c, pos := i.posOf c, spare := good,
                           cause := 0, old := i.cores }
    let s1 := s.setIsle g { i with
      pos := [(c, 16)], spareUsed := true, copying := some c
      cores := if good then i.cores else i.cores.filter (fun x => x != c) }
    let s2 : State := { (s1.setCore (g * 17 + f.pos) {}).setCore (g * 17 + 16) {} with
      boot := { s1.boot with badCols := s1.boot.badCols ++ [(g, c)] }
      flt := { s1.flt with spares := satInc s1.flt.spares } }
    if (s2.isle g).cores.length < 12 then loseModule (g / 16) 4 s2
    else if i.cores.contains c then replayAll f s2 else s2
  else columnLost g c s

/-- A row is due for repair (R696): a spare row is taken and the copy starts; with none left, an uncorrectable row fails
the column. -/
def repairRow (g c row : Nat) (bad : Bool) (s : State) : State :=
  let k := s.colOf g c
  let m := s.colm k
  if m.copying.contains row then s
  else if m.used < 64 then s.setColm k { m with used := m.used + 1, copying := m.copying ++ [row] }
  else if bad then columnFails g c s else s

/-- An error found on a read or by the patrol scrub (R695, R696). -/
def columnError (g u : Nat) (bad : Bool) (s : State) : State :=
  let key := unitKey g u
  let c := unitSlot u
  let row := unitRow u
  if !(s.modServing (g / 16)) || s.badUnits.contains key then s
  else if bad then
    repairRow g c row true { s with
      badUnits := s.badUnits ++ [key], flt := { s.flt with colUe := satInc s.flt.colUe } }
  else
    let k := s.colOf g c
    let m := s.colm k
    let n := tget 0 row m.ce + 1
    let x := s.core k
    let s1 := { (s.setColm k { m with ce := tset 0 row n m.ce }).setCore k { x with colCe := satInc x.colCe } with
      flt := { s.flt with colCe := satInc s.flt.colCe } }
    if n = 8 then repairRow g c row false s1 else s1

/-- PATROL_SCRUB_PASS: a unit is read; `found` 1 corrected, 2 uncorrectable, else clean. -/
def execPatrolScrubPass (w : Fin 96) (die isle : BitVec 2) (unit : BitVec 27) (found : BitVec 2) (s : State) :
    Host.Outcome State Fault Refusal :=
  .next (if found = 0 ∨ found = 3 then s
    else columnError (isleKey w.val die.toNat isle.toNat) unit.toNat (found == 2) s)

/-- A row copy ends (R696): the spare row serves. -/
def rowDone (g c row : Nat) (s : State) : State :=
  let k := s.colOf g c
  let m := s.colm k
  if m.copying.contains row then
    let i := s.isle g
    let s1 := (s.setColm k { m with copying := m.copying.filter (fun r => r != row) }).setIsle g { i with repaired := i.repaired + 1 }
    let s2 := { s1 with flt := { s1.flt with rowRepairs := satInc s1.flt.rowRepairs } }
    let n := (s2.badUnits.filter (fun u => u / 2 ^ 27 == g && unitSlot (u % 2 ^ 27) == c && unitRow (u % 2 ^ 27) == row)).length
    machineEvent 0x070B 0 (g / 16 + g / 4 % 4 * 128 + g % 4 * 512 + c * 2048) none (w64 n) (w32 (64 - m.used)) s2
  else s

def execRowRepairDone (w : Fin 96) (die isle : BitVec 2) (slot : BitVec 4) (row : BitVec 16) (s : State) :
    Host.Outcome State Fault Refusal :=
  .next (rowDone (isleKey w.val die.toNat isle.toNat) slot.toNat row.toNat s)

/-- COMMAND_PROCESSOR_STALL (R699 cause 6): a stalled command processor, or a die whose self-check fails; below 0.70 V neither
counts (R62, R713). -/
def execCommandProcessorStall (w : Fin 96) (_die : BitVec 2) (s : State) : Host.Outcome State Fault Refusal :=
  .next (if s.modServing w.val && !(s.paused w.val) then loseModule w.val 6 s else s)

/-- A module whose cause of leaving service is not cured by RETEST (R700). -/
def Mod.notByRetest (m : Mod) : Bool :=
  m.stage == 15 && (m.cause == 2 || m.cause == 3 || m.cause == 7 || m.cause == 8 || m.cause == 9)

/-- FAULT_MOD_CTL.RETEST (R700): lowered and raised again; the tests follow. -/
def moduleRetest (val : Word) (s : State) : Verdict :=
  let w := Fld val 0 7
  let m := s.mod w
  let p := s.pwrMod w
  if 95 < w then .error 3
  else if !(bit val 8) || m.state = 0 then .ok s
  else if s.modServing w || s.modInPart w || (s.tray (w / 8)).svc != .inService || m.notByRetest then .error 5
  else
    let s1 := s.setMod w { m with retest := true }
    let o : Obj := { st := .winding, pending := true }
    .ok (if p.obj.st = .off ∧ p.rising = false ∧ p.testing = false then startRise w s1
      else markLow w (s1.setPwrMod w { p with obj := o, rising := false, testing := false }))

def execModuleRetest (port : BitVec 4) (val : Word) (s : State) : Host.Outcome State Fault Refusal :=
  .next (regOp port.toNat 0x130004 val.toNat (moduleRetest val s) s)

/-- RETEST_COMPLETE (R575, R700): stages 4–6 of a module that has risen end; `items` are what failed. -/
def execRetestComplete (w : Fin 96) (items : List BootItem) (s : State) : Host.Outcome State Fault Refusal :=
  .next (if (s.tray (w.val / 8)).svc = .inService then testsDone w.val items s else s)

end Sys2Proof.Machine
end

