-- ==== Sys2Proof/Machine/Power.lean ====
section
/-! DEFINITION. Power (ch. 16): caps and their resolution (R579, R580), the automatic limit (R570, R581), orders (R582),
rails (R572–R574), the core setpoint and its controllers (R576, R577, R594), reports (R586, R587) and sag (R588–R592). -/

namespace Sys2Proof.Machine

/-! ### Caps (R579, R580) -/

/-- The partition that holds a module: ON, WINDING or PENDING. -/
def State.partOfMod (s : State) (w : Nat) : Option Nat :=
  s.partIds.find? (fun p => s.partHas p w)

/-- The limits of R580 in force on a module, as (watts, code), by rising code. -/
def State.capLimits (s : State) (w : Nat) : List (Nat × Nat) :=
  let p := s.pwrMod w
  let given := fun (v : Nat) (code : Nat) (l : Nat) => if v = 0 then [] else [(l, code)]
  let part := match s.partOfMod w with
    | none => []
    | some q =>
      let n := max 1 (s.boxMods q).length
      let share := fun (v : Nat) => max 560 (v / n)
      let h := (tget 0 q s.pwr.partHost).toNat
      let r := (tget 0 q s.pwr.partRm).toNat
      given h 3 (share h) ++ given r 4 (share r)
  let rack := fun (v : Nat) => max 560 ((v - 11750) / max 1 s.liveMods)
  [(s.machCap, 0)] ++ given p.capHost.toNat 1 p.capHost.toNat ++ given p.capRm.toNat 2 p.capRm.toNat ++ part ++
  given s.pwr.rackHost.toNat 5 (rack s.pwr.rackHost.toNat) ++ given s.pwr.rackRm.toNat 6 (rack s.pwr.rackRm.toNat) ++
  given s.pwr.auto 7 (rack s.pwr.auto)

/-- The least of some limits, with the lowest code that gives it. -/
def leastCap : List (Nat × Nat) → Nat × Nat
  | [] => (0, 0)
  | x :: t => t.foldl (fun a y => if y.1 < a.1 then y else a) x

/-- PWR_MOD_w_CAP_EFF: the least limit and its lowest code (R580); latched while the warden is not running (R593). -/
def State.capEff (s : State) (w : Nat) : Nat × Nat :=
  match (s.pwrMod w).capLatch with
  | some c => c
  | none => leastCap (s.capLimits w)

/-- The least rack cap in force and its source, 0 where none is (PWR_RACK_CAP_EFF, Table 16-5). -/
def State.rackCap (s : State) : Nat × Nat :=
  leastCap ([(s.pwr.rackHost.toNat, 5), (s.pwr.rackRm.toNat, 6), (s.pwr.auto, 7)].filter (fun x => x.1 != 0))

/-- The effective value that follows a cap at its level, as the log records it (R585). A partition's is the lesser of its two
caps in force. -/
def State.capAfter (s : State) : CapLevel → Nat
  | .module w => (s.capEff w.val).1
  | .partition p =>
    (leastCap ([((tget 0 p.toNat s.pwr.partHost).toNat, 3), ((tget 0 p.toNat s.pwr.partRm).toNat, 4)].filter
      (fun x => x.1 != 0))).1
  | .rack => s.rackCap.1

/-- The effective cap or order of a module differs between two states (R585). -/
def capChanged (a b : State) (w : Nat) : Bool := (a.capEff w).1 != (b.capEff w).1 || a.effOn w != b.effOn w

/-- POWER_LIMIT (R585, Table 16-6) where the effective cap or order of some module has changed since `a`. -/
def limitEvent (cause : Nat) (a s : State) : State :=
  let ch := (List.range 96).filter (capChanged a s)
  let mask := fun (l : List Nat) => (l.map (fun w => 2 ^ (w % 64))).sum
  if ch.isEmpty then s
  else machineEvent 0x0404 0 cause none (w64 (mask (ch.filter (fun w => w < 64)))) (w32 (mask (ch.filter (fun w => 64 ≤ w)))) s

/-- Canonical offsets of a module's PWR words. -/
def pwrModOff (w : Nat) : Nat := 0x101000 + w * 0x40

/-- PWR_MOD_w_CAP_HOST (R579). -/
def modCapHost (w : Nat) (val : Word) (s : State) : Verdict :=
  let v := Fld val 0 11
  if v = 0 ∨ 560 ≤ v then
    .ok (storeItem (pwrModOff w + 8) (w32 v) (s.setPwrMod w { s.pwrMod w with capHost := BitVec.ofNat 11 v }))
  else .error 3

/-- PWR_PART_p_CAP_HOST (R579). -/
def partCapHost (p : Nat) (val : Word) (s : State) : Verdict :=
  let v := Fld val 0 18
  if v = 0 ∨ 560 ≤ v then
    .ok (storeItem (0x104000 + 4 * p) (w32 v)
      { s with pwr := { s.pwr with partHost := tset 0 p (BitVec.ofNat 18 v) s.pwr.partHost } })
  else .error 3

/-- PWR_RACK_CAP_HOST (R579). -/
def rackCapHost (val : Word) (s : State) : Verdict :=
  let v := Fld val 0 18
  if v = 0 ∨ 65510 ≤ v then
    .ok (storeItem 0x100020 (w32 v) { s with pwr := { s.pwr with rackHost := BitVec.ofNat 18 v } })
  else .error 3

def execModuleCapHostWrite (port : BitVec 4) (w : Fin 96) (val : Word) (s : State) : Host.Outcome State Fault Refusal :=
  .next (regOpEff port.toNat (pwrModOff w.val + 8) val.toNat (fun t => t.capAfter (.module w)) (modCapHost w.val val s) s)

def execPartitionCapHostWrite (port : BitVec 4) (p : BitVec 6) (val : Word) (s : State) : Host.Outcome State Fault Refusal :=
  .next (regOpEff port.toNat (0x104000 + 4 * p.toNat) val.toNat (fun t => t.capAfter (.partition p)) (partCapHost p.toNat val s) s)

def execRackCapHostWrite (port : BitVec 4) (val : Word) (s : State) : Host.Outcome State Fault Refusal :=
  .next (regOpEff port.toNat 0x100020 val.toNat (fun t => t.capAfter .rack) (rackCapHost val s) s)

/-- A rack manager's cap is legal at its level (Table 16-3). -/
def capLegal (l : CapLevel) (v : Nat) : Bool :=
  v == 0 || match l with
    | .module _ => decide (560 ≤ v ∧ v ≤ 2047)
    | .partition _ => decide (560 ≤ v ∧ v ≤ 262143)
    | .rack => decide (65510 ≤ v ∧ v ≤ 262143)

/-- The register that mirrors a rack manager's cap. -/
def capOff : CapLevel → Nat
  | .module w => pwrModOff w.val + 12
  | .partition p => 0x104100 + 4 * p.toNat
  | .rack => 0x100024

/-- A rack manager's cap is recorded (R579, R582, R584). -/
def setCapRm (l : CapLevel) (v : Nat) (s : State) : State :=
  let s1 := match l with
    | .module w => s.setPwrMod w.val { s.pwrMod w.val with capRm := BitVec.ofNat 11 v }
    | .partition p => { s with pwr := { s.pwr with partRm := tset 0 p.toNat (BitVec.ofNat 18 v) s.pwr.partRm } }
    | .rack => { s with pwr := { s.pwr with rackRm := BitVec.ofNat 18 v } }
  storeItem (capOff l) (w32 v) s1

/-- REDFISH_POWER_LIMIT (R579, R585). -/
def redfishLimit (session : Nat) (l : CapLevel) (v : Nat) (s : State) : State :=
  if !s.majority then rfAnswer session 503 [] s
  else if !(capLegal l v) then rfAnswer session 400 [] s
  else
    let s1 := setCapRm l v s
    rfAnswer session 200 [v] (limitEvent 1 s (logAdd 1 0 0 0 0 [session, capOff l, v, s1.capAfter l] s1))

def execRedfishPowerLimit (session : Nat) (l : CapLevel) (v : Nat) (s : State) : Host.Outcome State Fault Refusal :=
  .next (redfishLimit session l v s)

/-! ### Orders (R581, R582) -/

/-- PWR_MOD_w_ORDER (R582). -/
def orderHost (w : Nat) (val : Word) (s : State) : Verdict :=
  if Fld val 0 2 = 3 then .error 3
  else .ok (applyOrder w (s.setPwrMod w { s.pwrMod w with host := BitVec.ofNat 2 (Fld val 0 2) }))

def execPowerOrderHost (port : BitVec 4) (w : Fin 96) (val : Word) (s : State) : Host.Outcome State Fault Refusal :=
  .next (regOpEff port.toNat (pwrModOff w.val) val.toNat (fun t => b2n (t.effOn w.val)) (orderHost w.val val s) s)

/-- POWER_ORDER_RM: the rack manager's order, 0 none, 1 on, 2 off. -/
def orderRm (session w v : Nat) (s : State) : State :=
  if !s.majority then rfAnswer session 503 [] s
  else if 2 < v then rfAnswer session 400 [] s
  else
    let s1 := s.setPwrMod w { s.pwrMod w with rm := BitVec.ofNat 2 v }
    let s2 := limitEvent 1 s (logAdd 1 0 (w / 8 + w % 8 * 32) 0 0 [session, pwrModOff w, v, b2n (s1.effOn w)] s1)
    rfAnswer session 200 [v] (applyOrder w s2)

def execPowerOrderRm (session : Nat) (w : Fin 96) (v : BitVec 2) (s : State) : Host.Outcome State Fault Refusal :=
  .next (orderRm session w.val v.toNat s)

/-- Capacity in service C, in watts (R570). -/
def State.capacity (s : State) : Nat := 7500 * (([0, 1, 2, 3].map (fun n => (s.shelf n).good.toNat)).sum)

/-- The automatic limit a capacity calls for, 0 none (R570). -/
def State.autoLimit (s : State) : Nat := if s.capacity * 95 < s.machDraw * 100 then s.capacity * 95 / 100 else 0

/-- A module counts among those the automatic orders keep: in service, or coming up. -/
def State.autoCounts (s : State) (w : Nat) : Bool :=
  !(s.pwrMod w).auto && (s.modServing w || (s.pwrMod w).rising || (s.pwrMod w).testing)

/-- Give or withdraw a module's automatic order. -/
def setAuto (on : Bool) (w : Nat) (s : State) : State := applyOrder w (s.setPwrMod w { s.pwrMod w with auto := on })

/-- The automatic orders that a limit calls for (R581): the highest windows go first, and come back in the reverse
order. -/
def autoOrders (s : State) : State :=
  let lim := s.pwr.auto
  let held := (List.range 96).filter (fun w => (s.pwrMod w).auto)
  if lim = 0 ∨ 65510 ≤ lim then held.foldl (fun a w => setAuto false w a) s
  else
    let k := (lim - 11750) / 560
    let on := (List.range 96).filter s.autoCounts
    if k < on.length then (on.drop k).reverse.foldl (fun a w => setAuto true w a) s
    else (held.take (k - on.length)).foldl (fun a w => setAuto false w a) s

/-- SHELF_REPORT (R570, R595): a shelf's supplies reporting good, its presence and output. -/
def shelfReport (n good out : Nat) (present : Bool) (s : State) : State :=
  let g := if present then min good 6 else 0
  let s1 := s.setShelf n { s.shelf n with good := BitVec.ofNat 3 g, present := present, out := BitVec.ofNat 16 out }
  let lim := s1.autoLimit
  let s2 := { s1 with pwr := { s1.pwr with auto := lim } }
  let s3 := if s2.capacity = s.capacity then s2
    else machineEvent 0x0403 0 (n + g * 4) none (w64 s2.capacity) (w32 lim) s2
  let s4 := limitEvent 2 s s3
  limitEvent 3 s4 (autoOrders s4)

def execShelfReport (shelf : BitVec 2) (good : BitVec 3) (present : Bool) (out : BitVec 16) (s : State) :
    Host.Outcome State Fault Refusal := .next (shelfReport shelf.toNat good.toNat out.toNat present s)

/-! ### Rails (R572–R575) -/

/-- A sequence up ends (R572): the rails are up, and a module of the running machine tests itself. -/
def railsUp (w : Nat) (s : State) : State :=
  let p := s.pwrMod w
  if p.rising then
    markLow w (s.setPwrMod w { p with
      obj := { st := .on }, rising := false, testing := s.boot.st == 1, testFrom := s.win.tb.toNat + 1 })
  else s

def execRailSequenceUpDone (w : Fin 96) (s : State) : Host.Outcome State Fault Refusal := .next (railsUp w.val s)

def execRailSequenceDownDone (w : Fin 96) (s : State) : Host.Outcome State Fault Refusal := .next (downDone w.val s)

/-- A rail misses its ramp (R574): the sequence ends; stage 3 cause 2. -/
def execRailRampMiss (w : Fin 96) (s : State) : Host.Outcome State Fault Refusal :=
  .next (if (s.pwrMod w.val).rising then failTests w.val 3 2 s else s)

/-- A rail leaves its window (R574, Table 16-1): RAIL_FAULT; a module whose rails are up or rising is lowered in hardware and
leaves service with cause 1. -/
def railFault (w rail mv : Nat) (s : State) : State :=
  let p := s.pwrMod w
  if s.railOn w rail && s.railOut w rail mv then
    let s1 := machineEvent 0x0402 0 (w + rail * 128) none (w64 mv) 0 s
    if p.obj.st != .on && !p.rising then s1
    else if s1.modServing w then loseModule w 1 s1 else failTests w 15 1 s1
  else s

def execRailFault (w : Fin 96) (rail : BitVec 3) (mv : BitVec 16) (s : State) : Host.Outcome State Fault Refusal :=
  .next (if rail.toNat ≤ 4 then railFault w.val rail.toNat mv.toNat s else s)

/-! ### The core setpoint (R576, R577, R594) -/

/-- The setpoint a module's limits give (R576): 0.62 V in crawl, else the least limit, at least 0.70 V. -/
def State.vTarget (s : State) (w : Nat) : Nat :=
  if 2 ≤ s.pwr.sag then 620 else max 700 (min s.machCeil (min (s.mtherm w).flim (s.pwrMod w).ctrl))

/-- What waited below 0.70 V goes on once a module's supply is back (R62, R818): its fences, the scans that its command
processor leads, and the reads of transfers. -/
def resumeMod (w : Nat) (s : State) : State :=
  let s1 := runFences w s
  askAll ((s1.partIds.filter (fun p => (s1.part p).mods.getD 0 0 == w)).foldl (fun a p => resumeScan p a) s1)

/-- CORE_SUPPLY_STEP (R576): one 10 mV step toward the target, at least 20 µs (2,000 ticks) after the last, by a running
warden. -/
def coreStep (w : Nat) (s : State) : State :=
  let p := s.pwrMod w
  let g := s.vTarget w
  if p.obj.st = .on ∧ s.wardenRuns (w / 8) = true ∧ p.vset ≠ g ∧ (p.vtick = 0 ∨ p.vtick - 1 + 2000 ≤ s.win.tb.toNat) then
    let s1 := markLow w (s.setPwrMod w { p with
      vset := if p.vset < g then min g (p.vset + 10) else max g (p.vset - 10), vtick := s.win.tb.toNat + 1 })
    if s.paused w && !(s1.paused w) then resumeMod w s1 else s1
  else s

def execCoreSupplyStep (w : Fin 96) (s : State) : Host.Outcome State Fault Refusal := .next (coreStep w.val s)

/-- The cap controller at the end of a window (R577). -/
def capControl (ceil cap power : Nat) (p : PwrMod) : PwrMod :=
  if cap < power then { p with ctrl := max 700 (p.ctrl - 10), low := 0 }
  else if power * 100 < cap * 95 then
    if 9 ≤ p.low then { p with ctrl := min ceil (p.ctrl + 10), low := 10 } else { p with low := p.low + 1 }
  else { p with low := 0 }

/-- CAP_CONTROLLER_WINDOW: a module's power in the window just ended, in watts (R577, R586, R594). -/
def capWindow (w power : Nat) (s : State) : State :=
  let p := s.pwrMod w
  let cap := (s.capEff w).1
  if s.wardenRuns (w / 8) then
    s.setPwrMod w { capControl s.machCeil cap power p with
      peak := max p.peak power, sum1 := p.sum1 + power, n1 := p.n1 + 1, sum60 := p.sum60 + power, n60 := p.n60 + 1,
      sum900 := p.sum900 + power, n900 := p.n900 + 1 }
  else if p.obj.st = .on ∧ cap < power then s.setPwrMod w { p with vset := min p.vset (max 700 (p.vset - 10)) }
  else s

def execCapControllerWindow (w : Fin 96) (power : BitVec 12) (s : State) : Host.Outcome State Fault Refusal :=
  .next (capWindow w.val power.toNat s)

/-! ### Reports (R586, R587) and the valves of compute trays (R613) -/

/-- The module's averages at the end of a span: 0 is 1 s, 1 is 60 s, 2 is 15 min. -/
def PwrMod.span (k : Nat) (p : PwrMod) : PwrMod :=
  match k with
  | 0 => { p with avg1 := p.sum1 / max 1 p.n1, sum1 := 0, n1 := 0 }
  | 1 => { p with avg60 := p.sum60 / max 1 p.n60, sum60 := 0, n60 := 0 }
  | _ => { p with avg900 := p.sum900 / max 1 p.n900, sum900 := 0, n900 := 0 }

/-- A module is at Gale or Storm. -/
def State.modLevel (s : State) (w : Nat) : Nat :=
  ([0, 1, 2, 3].map (fun d => (s.die (w * 4 + d)).level)).foldl max 0

/-- The opening a compute tray's warden sets at the end of a 1 s span (R613). -/
def State.valveFor (s : State) (t avg : Nat) : Nat :=
  let o := 40 + cdiv (60 * avg) (8 * s.machCap + 250)
  if 100 < o ∨ (trayMods t).any (fun w => decide (2 ≤ s.modLevel w)) = true then 100 else o

/-- One tray's figures: its mean power over the span and its highest window. -/
def traySpan (k t mean high : Nat) (s : State) : State :=
  if s.wardenRuns t then
    let y := s.tray t
    let s1 := s.setTray t (match k with
      | 0 => { y with avg1 := mean, peak := max y.peak high }
      | 1 => { y with avg60 := mean }
      | _ => { y with avg900 := mean })
    let s2 := (trayMods t).foldl (fun a w => a.setPwrMod w ((a.pwrMod w).span k)) s1
    let x := s2.ttherm t
    if k = 0 ∧ t < 12 ∧ y.contactor = true ∧ x.leakCut = false then
      s2.setTtherm t { x with valve := s2.valveFor t mean, forced := false }
    else s2
  else s

/-- POWER_SPAN_END (R586, R587, R613): `trays` gives each tray's mean and highest window in order, `pumps` the CDU pumps'
mean, `high` the rack's highest window. -/
def spanEnd (k : Nat) (trays : List (Nat × Nat)) (pumps high : Nat) (s : State) : State :=
  let s1 := (trays.take 18).zipIdx.foldl (fun a x => traySpan k x.2 x.1.1 x.1.2 a) s
  let mean := ((trays.take 18).map (·.1)).sum + pumps
  { s1 with pwr := match k with
    | 0 => { s1.pwr with avg1 := mean, peak := max s1.pwr.peak high }
    | 1 => { s1.pwr with avg60 := mean }
    | _ => { s1.pwr with avg900 := mean } }

def execPowerSpanEnd (span : BitVec 2) (trays : List (BitVec 14 × BitVec 14)) (pumps : BitVec 16) (high : BitVec 18) (s : State) :
    Host.Outcome State Fault Refusal :=
  .next (if span = 3 then s
    else spanEnd span.toNat (trays.map (fun x => (x.1.toNat, x.2.toNat))) pumps.toNat high.toNat s)

/-! ### Sag (R588–R592) -/

/-- The level that a sample gives (Table 16-4). -/
def sagLevel (old mv : Nat) : Nat :=
  if old = 3 then 3
  else if (if old = 2 then mv < 44500 else mv < 44000) then 2
  else if (if 1 ≤ old then mv < 47500 else mv < 47000) then 1 else 0

/-- The charge of the hold-up battery, in percent. One exhausted without power loses the store key (R736). -/
def setBattery (charge : Nat) (s : State) : State :=
  let c := min 100 charge
  { s with
    pwr := { s.pwr with battery := c }, keys := { s.keys with storeLost := s.keys.storeLost || (c == 0 && !s.boot.powered) } }

/-- Deferred writes now waiting (PWR_DEFERRED.WAITING), before saturation. -/
def State.waitingWrites (s : State) : Nat :=
  s.pwr.items.length + s.pwr.image + (([0, 1, 2].map (fun c => (s.stew c).deferred.length)).sum)

/-- SAG_SAMPLE (R588): one sample of the busbar, in mV. -/
def sagSample (mv : Nat) (s : State) : State :=
  let old := s.pwr.sag
  let lv := sagLevel old mv
  let s1 := { s with pwr := { s.pwr with
    mv := BitVec.ofNat 16 mv, sag := lv
    below := if mv < 41000 then (if s.pwr.below = 0 then s.win.tb.toNat + 1 else s.pwr.below) else 0
    deferCnt := if old = 0 ∧ 1 ≤ lv then s.pwr.deferCnt + 1 else s.pwr.deferCnt
    crawlCnt := if old < 2 ∧ lv = 2 then s.pwr.crawlCnt + 1 else s.pwr.crawlCnt } }
  if lv = old then s1
  else machineEvent 0x0401 0 (lv + 4 * b2n (decide (old < lv))) none (w64 (mv + lv * 2 ^ 16)) (w32 s1.waitingWrites) s1

def execSagSample (mv : BitVec 16) (s : State) : Host.Outcome State Fault Refusal :=
  .next (if s.boot.powered then sagSample mv.toNat s else s)

/-- The gap marker of a channel's dropped records (R589, R671: class 4). -/
def gapRec (s : State) (c n : Nat) : LogRec :=
  { tb := s.win.tb, lsn := (s.stew c).lsn, chan := c, cls := 4, code := 0, place := 0, arg0 := w64 n, arg1 := 0, data := [] }

/-- A gap marker (R671): the channel, the TB of its copy's last good record and of the gap's end, a count. -/
def gapMarker (c : Nat) (first last : DWord) (n : Nat) (s : State) : State :=
  logAdd 4 0 17 0 0 [c, first.toNat, last.toNat, n] { s with stw := { s.stw with gaps := s.stw.gaps + 1 } }

/-- The timebase of a copy's last record. -/
def lastTb (l : List LogRec) : DWord := (l.getLast?.map LogRec.tb).getD 0

/-- The log becomes unavailable (R672, R684): the RAM ring takes what the last copy, c's, had deferred, newest kept. -/
def logLost (c : Nat) (s : State) : State :=
  let late := (s.stew c).deferred
  let s1 := writeWords 0 { s with stw := { s.stw with unavail := true, ram := [], ramLost := 0 } }
  let s2 := late.foldl (fun a r => addRam r a)
    ([0, 1, 2].foldl (fun a d => a.setStew d { a.stew d with deferred := [], gap := 0, inbox := [] }) s1)
  machineEvent 0x0606 0 1 none 0 0 s2

/-- A channel's copy is marked failed (R671, R672). -/
def failCopy (c : Nat) (s : State) : State :=
  let x := s.stew c
  let g := lastTb x.copy
  let y := { x with copyOk := false, lastGood := g, failDue := false }
  let s1 := s.setStew c y
  if [0, 1, 2].any (fun d => (s1.stew d).copyOk) then
    machineEvent 0x0605 0 (c + 4) none (w64 g.toNat) 0 (gapMarker c g 0 0 (s.setStew c { y with deferred := [], gap := 0 }))
  else machineEvent 0x0605 0 (c + 4) none (w64 g.toNat) 0 (logLost c s1)

/-- LOG_COPY_FAILED (R671, R672): a copy that fails while records are deferred is marked failed at their commit (R684). -/
def copyFails (c : Nat) (s : State) : State :=
  let x := s.stew c
  if !x.copyOk then s
  else if s.pwr.sag = 0 && x.deferred.isEmpty then failCopy c s
  else s.setStew c { x with failDue := true }

def execLogCopyFailed (c : Fin 3) (s : State) : Host.Outcome State Fault Refusal := .next (copyFails c.val s)

/-- The copies that failed meanwhile are marked failed (R684). -/
def failDueCopies (s : State) : State :=
  [0, 1, 2].foldl (fun a c => if (a.stew c).failDue then failCopy c a else a) s

/-- A channel commits its deferred records (R589): in order, a gap marker in the place of those dropped. -/
def commitLog (c : Nat) (s : State) : State :=
  let x := s.stew c
  let l := x.deferred ++ (if x.gap = 0 then [] else [gapRec s c x.gap])
  s.setStew c { x with copy := l.foldl (fun a r => addCopy r a) x.copy, deferred := [], gap := 0 }

/-- The deferred configuration items are committed (R589). -/
def commitItems (s : State) : State :=
  { s with
    store := s.pwr.items.foldl (fun a p => tset none p.1 p.2 a) s.store
    pwr := { s.pwr with items := [], image := 0 } }

/-- DEFERRED_WRITE_COMMIT (R589): with the level back at 0. -/
def deferredCommit (s : State) : State :=
  if s.pwr.sag = 0 then commitItems ([0, 1, 2].foldl (fun a c => commitLog c a) (failDueCopies s)) else s

def execDeferredWriteCommit (s : State) : Host.Outcome State Fault Refusal := .next (deferredCommit s)

/-- The machine is without power: every tray is dark, every module off, and nothing runs until the busbar rises (R545,
R592). -/
def powerDown (s : State) : State :=
  let s1 := (List.range 17).foldl (fun a t =>
    trayDark t ((trayMods t).foldl (fun b w =>
      b.setMod w { b.mod w with
        state := if (b.mod w).state = 0 then 0 else 2, bind := none, gateClosed := false, diagEn := false, diagActive := false }) a)) s
  { s1 with
    boot := { s1.boot with powered := false }
    tens := tmap {} (fun _ x => { x with obj := {}, flr := .idle, held := [], heldW := [], keyLoaded := false }) s1.tens
    parts := tmap {} (fun _ x => { x with obj := {}, wind := .none, box := none, mods := [] }) s1.parts
    rings := tmap {} (fun _ x => { x with obj := {}, cmds := [], fetched := [], prev := none, prevChain := [] }) s1.rings
    chans := [], reads := [], mevHeld := []
    fab := { s1.fab with pkts := [], kept := [], contribs := [], ctrs := [] }
    keys := { s1.keys with ready := false, storeLost := s1.keys.storeLost || s1.pwr.battery == 0 }
    -- the stewards serve no one and hold no role (R545, R592)
    stw := { s1.stw with
      chans := [0, 1, 2].foldl (fun a c => tset {} c { tget {} c a with st := 0 } a) s1.stw.chans, spokes := 3, cool := 3 }
    pwr := { s1.pwr with items := [], image := 0, below := 0 } }

/-- A channel appends every record it has received over the strait (R670). -/
def drainInbox (c : Nat) (s : State) : State :=
  (s.stew c).inbox.foldl (fun a r => takeRec c r a) (s.setStew c { s.stew c with inbox := [] })

/-- HOLD_TIMER_EXPIRY (R592, R606): 20 ms, 2,000,000 ticks, below 41.0 V. -/
def holdExpiry (s : State) : State :=
  if s.boot.powered = true ∧ s.pwr.below ≠ 0 ∧ s.pwr.below - 1 + 2000000 ≤ s.win.tb.toNat then
    let s1 := machineEvent 0x0401 0 7 none (w64 (s.pwr.mv.toNat + 3 * 2 ^ 16)) (w32 s.waitingWrites)
      { s with pwr := { s.pwr with sag := 3 } }
    let s2 := if s1.stw.unavail && decide (20 ≤ s1.pwr.battery) then
        -- the RAM ring is lost with the power (R685)
        commitItems (writeWords (s1.stw.ramLost + s1.stw.ram.length) s1)
      else if 20 ≤ s1.pwr.battery then
        let a := failDueCopies ([0, 1, 2].foldl (fun b c => drainInbox c b) (logAdd 7 0 0 (w64 s1.pwr.mv.toNat) 0 [] s1))
        commitItems ([0, 1, 2].foldl (fun b c => commitLog c b) a)
      else [0, 1, 2].foldl (fun b c => b.setStew c { b.stew c with deferred := [], gap := 0 }) s1
    powerDown s2
  else s

def execHoldTimerExpiry (s : State) : Host.Outcome State Fault Refusal := .next (holdExpiry s)

/-- A safety action holds modules off (R583). -/
def holdMods (ws : List Nat) (s : State) : State := ws.foldl (fun a w => a.setPwrMod w { a.pwrMod w with safety := true }) s

/-- TRAY_UNDERVOLTAGE (R588): the tray powers itself down; its modules are out with cause 3 until re-arm (Table 19-3). -/
def undervolt (t : Nat) (s : State) : State :=
  if (s.tray t).contactor then loseTray t 3 (holdMods (trayMods t) s) else s

def execTrayUndervoltage (t : Fin 17) (s : State) : Host.Outcome State Fault Refusal := .next (undervolt t.val s)

end Sys2Proof.Machine
end

