-- ==== Sys2Proof/Machine/Thermal.lean ====
section
/-! DEFINITION. Cooling and the forecaster (ch. 17), with the voted actuators (R649–R651). -/

namespace Sys2Proof.Machine

/-! ### Voted actuators (R649–R651) -/

/-- A channel is disqualified at every voter: declared failed, or restarting in an update, with both others asserting its line
(R651, R756). -/
def State.disq (s : State) (c : Nat) : Bool :=
  ((s.stew c).st == 3 || s.reloading 1 c) && ([0, 1, 2].filter (fun d => d != c)).all (fun d => (s.stew d).up)

/-- Make and clear the CDU's forcing (R632). -/
def releaseForced (s : State) : State :=
  if s.therm.forced then machineEvent 0x0504 0 31 none 0 0 { s with therm := { s.therm with forced := false } } else s

/-- The applied value of a voted actuator (Table 18-1): 0–1 pumps, 2 CDU valve, 3–6 shelves, 7–24 contactors. -/
def State.applied (s : State) (a : Nat) : Nat :=
  if a = 0 then (if s.therm.fault0 then s.stw.coolOrder.1 else s.therm.spd0)
  else if a = 1 then (if s.therm.fault1 then s.stw.coolOrder.1 else s.therm.spd1)
  else if a = 2 then s.therm.cduValve
  else if a < 7 then b2n (s.shelf (a - 3)).enabled else b2n (s.tray (a - 7)).contactor

/-- A voter applies a value (R650). A stopped pump follows no order until its retry (R609). A contactor is not closed while a
safety action holds the tray off (R651). -/
def applyVote (a v : Nat) (s : State) : State :=
  let th := s.therm
  if a = 0 then releaseForced { s with therm := { th with spd0 := if th.fault0 then th.spd0 else v } }
  else if a = 1 then releaseForced { s with therm := { th with spd1 := if th.fault1 then th.spd1 else v } }
  else if a = 2 then releaseForced { s with therm := { s.therm with cduValve := v } }
  else if a < 7 then s.setShelf (a - 3) { s.shelf (a - 3) with enabled := v != 0 }
  else
    let t := a - 7
    if v != 0 then
      if (s.tray t).contactor || s.heldOff t || (s.tray t).svc == .absent || (s.tray t).svc == .ready then s
      else if (s.tray t).svc == .joining && s.boot.powered && s.boot.st != 0 && s.majority then startJoin t s
      else (s.setTtherm t { s.ttherm t with valve := 100 }).setTray t { s.tray t with contactor := true }
    else if (s.tray t).contactor then loseTray t 3 s else s

/-- The value two channels agree on. -/
def agreed : List Nat → Option Nat
  | [] => none
  | v :: t => if t.contains v then some v else agreed t

/-- A channel's order compared with the applied value (R650): VOTE_DISSENT once, after 1 s of difference. -/
def dissent (a c v : Nat) (s : State) : State :=
  let x := s.stew c
  let now := s.win.tb.toNat
  if v = s.applied a then s.setStew c { x with told := x.told.filter (fun b => b != a), differs := tset 0 a 0 x.differs }
  else
    let since := tget 0 a x.differs
    if since = 0 then s.setStew c { x with differs := tset 0 a (now + 1) x.differs }
    else if since - 1 + 100000000 ≤ now ∧ a ∉ x.told then
      let s1 := s.setStew c { x with told := x.told ++ [a] }
      machineEvent 0x0609 0 (a + c * 32) none (w64 v) (w32 (s.applied a))
        { s1 with stw := { s1.stw with dissent := satInc s1.stw.dissent } }
    else s

/-- The order a channel sends for an actuator: its cooling order, or the bit of the record of intent it was given. -/
def State.orderOf (s : State) (a c : Nat) (bits : Nat) : Nat :=
  if a < 2 then (s.stew c).order.1 else if a = 2 then (s.stew c).order.2 else b2n (bits.testBit c)

/-- ACTUATOR_ORDER_RECEIPT (R649–R651): the orders that reach a voter in one heartbeat period, from the channels of `heard`;
for shelves and contactors `bits` gives each channel's order. With a channel disqualified, or forced cooling, only an agreed
order is applied (R632, R651). -/
def orderReceipt (a heard bits : Nat) (s : State) : State :=
  let cs := [0, 1, 2].filter (fun c => heard.testBit c && !(s.disq c))
  let vs := cs.map (fun c => s.orderOf a c bits)
  let now := s.win.tb.toNat
  let s1 := match agreed vs with
    | some v => applyVote a v { s with stw := { s.stw with noAgree := tset 0 a 0 s.stw.noAgree } }
    | none =>
      let since := tget 0 a s.stw.noAgree
      if since = 0 then { s with stw := { s.stw with noAgree := tset 0 a (now + 1) s.stw.noAgree } }
      else if a < 3 ∧ since - 1 + 10000000 ≤ now ∧ 2 ≤ vs.length ∧ s.therm.forced = false ∧
          [0, 1, 2].any (fun c => s.disq c) = false then applyVote a (vs.foldl max 0) s else s
  cs.foldl (fun st c => dissent a c (st.orderOf a c bits) st) s1

def execActuatorOrderReceipt (a : Fin 25) (heard bits : BitVec 3) (s : State) : Host.Outcome State Fault Refusal :=
  .next (orderReceipt a.val heard.toNat bits.toNat s)

/-- A value lies within 10 percentage points of another. -/
def near (a b : Nat) : Bool := decide (a ≤ b + 10 ∧ b ≤ a + 10)

/-- The CDU's figures, and how long its flow has been low or good (R614, R626, R628). -/
def readCdu (r : CduRead) (s : State) : State :=
  let now := s.win.tb.toNat + 1
  let f := r.flow.toNat
  { s with therm := { s.therm with
      cduSupply := r.supply.toInt, cduReturn := r.ret.toInt, facSupply := r.facSupply.toInt, facReturn := r.facRet.toInt
      cduFlow := f
      lowFlow := if f < 43 then (if s.therm.lowFlow = 0 then now else s.therm.lowFlow) else 0
      goodFlow := if 150 ≤ f then (if s.therm.goodFlow = 0 then now else s.therm.goodFlow) else 0 } }

/-- COOLING_CONTROL_PERIOD (R609, R610, R650): each channel's own pump speed and valve position, in the order A, B, C; the
authority's are published, and the others echo or keep their own. With a pump stopped every speed is 100 % (R609). -/
def coolingPeriod (r : CduRead) (own : List (Nat × Nat)) (s : State) : State :=
  let s0 := readCdu r s
  let a := s0.stw.cool
  if a < 3 ∧ (s0.stew a).up = true then
    let lim := fun (p : Nat × Nat) => (if s.therm.fault0 || s.therm.fault1 then 100 else max 30 (min 100 p.1), min 100 p.2)
    let pub := lim (own.getD a s0.stw.coolOrder)
    let s1 := { s0 with stw := { s0.stw with coolOrder := pub } }
    [0, 1, 2].foldl (fun st c =>
      let o := lim (own.getD c pub)
      st.setStew c { st.stew c with
        order := if c = a then pub else (if near o.1 pub.1 then pub.1 else o.1, if near o.2 pub.2 then pub.2 else o.2) }) s1
  else s0

def execCoolingControlPeriod (r : CduRead) (own : List (BitVec 7 × BitVec 7)) (s : State) : Host.Outcome State Fault Refusal :=
  .next (coolingPeriod r (own.map (fun p => (p.1.toNat, p.2.toNat))) s)

/-! ### Pumps and the reservoir (R609, R612) -/

/-- PUMP_STOP (R609): the other pump goes to 100 %, unless it has stopped too. A stopped pump whose retry fails is at rest
again. -/
def pumpStop (p : Nat) (s : State) : State :=
  let h := s.therm
  let now := s.win.tb.toNat + 1
  if p = 0 then
    if h.fault0 then { s with therm := { h with spd0 := 0 } }
    else machineEvent 0x0506 0 2 none 0 0 { s with therm := { h with
      fault0 := true, pumpTick0 := now, spd0 := 0, spd1 := if h.fault1 then h.spd1 else 100 } }
  else if h.fault1 then { s with therm := { h with spd1 := 0 } }
  else machineEvent 0x0506 0 3 none 0 0 { s with therm := { h with
    fault1 := true, pumpTick1 := now, spd1 := 0, spd0 := if h.fault0 then h.spd0 else 100 } }

def execPumpStop (p : BitVec 1) (s : State) : Host.Outcome State Fault Refusal := .next (pumpStop p.toNat s)

/-- PUMP_RETRY (R609): every 60 s, 6,000,000,000 ticks. -/
def pumpRetry (p : Nat) (s : State) : State :=
  let h := s.therm
  let now := s.win.tb.toNat
  if p = 0 then
    if h.fault0 ∧ h.pumpTick0 - 1 + 6000000000 ≤ now then
      { s with therm := { h with pumpTick0 := now + 1, spd0 := s.stw.coolOrder.1 } } else s
  else if h.fault1 ∧ h.pumpTick1 - 1 + 6000000000 ≤ now then
    { s with therm := { h with pumpTick1 := now + 1, spd1 := s.stw.coolOrder.1 } } else s

def execPumpRetry (p : BitVec 1) (s : State) : Host.Outcome State Fault Refusal := .next (pumpRetry p.toNat s)

/-- PUMP_REJOIN (R609): its tachometer has held for 5 s; it rejoins at the common speed. -/
def pumpRejoin (p : Nat) (s : State) : State :=
  let h := s.therm
  if p = 0 then
    if h.fault0 then machineEvent 0x0506 0 0 none 0 0 { s with therm := { h with fault0 := false, pumpTick0 := 0, spd0 := s.stw.coolOrder.1 } }
    else s
  else if h.fault1 then
    machineEvent 0x0506 0 1 none 0 0 { s with therm := { h with fault1 := false, pumpTick1 := 0, spd1 := s.stw.coolOrder.1 } }
  else s

def execPumpRejoin (p : BitVec 1) (s : State) : Host.Outcome State Fault Refusal := .next (pumpRejoin p.toNat s)

/-- The valve of a tray without power closes by its spring (R613, R627, R703). -/
def closeValve (t : Nat) (s : State) : State := s.setTtherm t { s.ttherm t with valve := 0, forced := false }

/-- RESERVOIR_LEVEL_CHANGE (R612): the level in percent. -/
def reservoirChange (lv : Nat) (s : State) : State :=
  let old := s.therm.reservoir
  let s1 := { s with therm := { s.therm with reservoir := lv } }
  let s2 := if lv < 50 ∧ 50 ≤ old then machineEvent 0x0508 0 (1 + 2 * b2n s.therm.cduLeak) none (w64 lv) 0 s1 else s1
  if lv < 10 ∧ 10 ≤ old then
    let s3 := { s2 with therm := { s2.therm with resCut := true } }
    let s4 := ((List.range 17).filter (fun t => (s.tray t).svc != .absent)).foldl (fun a t =>
      logAdd 5 3 t (w64 lv) 0 [] (machineEvent 0x0503 0 (t + 32) none 0 0
        (closeValve t (loseTray t 3 (holdMods (trayMods t) a))))) s3
    limitEvent 4 s2 s4
  else s2

def execReservoirLevelChange (lv : BitVec 7) (s : State) : Host.Outcome State Fault Refusal :=
  .next (reservoirChange (min 100 lv.toNat) s)

/-- CDU_LEAK_SENSED (R612): the CDU's drip pan reads wet, or dry again. -/
def execCduLeakSensed (wet : Bool) (s : State) : Host.Outcome State Fault Refusal :=
  let s1 : State := { s with therm := { s.therm with cduLeak := wet } }
  .next (if wet && !s.therm.cduLeak then
    machineEvent 0x0508 0 (2 + b2n (decide (s.therm.reservoir < 50))) none (w64 s.therm.reservoir) 0 s1
  else s1)

/-! ### Tray coolant (R611, R614) -/

/-- TRAY_COOLANT_SAMPLE (R611, R614, R628): inlet, outlet in 0.25 °C, flow in 0.1 L/min, and the leak sensor. -/
def coolantSample (t : Nat) (inlet outlet : Int) (flow : Nat) (wet : Bool) (s : State) : State :=
  let x := s.ttherm t
  let hi := if x.inletHigh then decide (124 < inlet) else decide (128 < inlet)
  let s1 := s.setTtherm t { x with
    inlet := inlet, outlet := outlet, flow := flow, inletHigh := hi, leak := wet
    dry := if wet then 0 else if x.dry = 0 then s.win.tb.toNat + 1 else x.dry }
  if hi = x.inletHigh then s1
  else machineEvent 0x0505 0 (t + 32 * b2n hi) none (w64 (BitVec.ofInt 12 inlet).toNat) 0 s1

def execTrayCoolantSample (t : Fin 18) (inlet outlet : BitVec 12) (flow : BitVec 10) (wet : Bool) (s : State) :
    Host.Outcome State Fault Refusal := .next (coolantSample t.val inlet.toInt outlet.toInt flow.toNat wet s)

/-! ### Junction sensors (R615, R617) -/

/-- A reading that is valid (R617): between −40 °C and 150 °C, and updated. -/
def validReading (r : Option Int) : Option Int :=
  match r with
  | some v => if -160 ≤ v ∧ v ≤ 600 then some v else none
  | none => none

/-- The highest of some readings. -/
def highest (l : List Int) : Option Int :=
  match l with
  | [] => none
  | v :: t => some (t.foldl max v)

/-- Tiles of a command running on a die (R60, R623): of each of its cores the first in order that has not been handed over,
or of a VX command has not ended, and those in its accumulators; of an MX_ATTN the tile-steps dispatched. -/
def runningOn (s : State) (w d : Nat) (c : Cmd) : List Nat :=
  let gi := c.mods.idxOf w * 16 + d * 4
  let here := fun (l : Place) => l.w == w && l.die == d
  if c.mods.contains w then
    match opOf c.bytes with
    | some .mxGemm => (List.range (gemmTiles c)).filter (fun t =>
        let a := gemmTileAt s c t
        c.openTile t && here a.place && ((c.handed.any (fun h => h.1 == t)) ||
          (!(earlierOpen s c t) && (c.blobs? a.g a.core).isSome)))
    | some .mxAttn => (([0, 1, 2, 3].map (fun k => (c.slab (gi + k)).running.map (fun x => attCode (gi + k) x.1)))).flatten
    | _ => (List.range (vxTiles c)).filter (fun t => c.openTile t && here (vxPlace c t) && !(vxEarlier c t))
  else []

/-- The tiles running on a die (R60, R623). -/
def State.runningAll (s : State) (w d : Nat) : List (Nat × DWord × Nat) :=
  (s.ringIds.map (fun r => ((s.ring r).inProg.map (fun c => (runningOn s w d c).map (fun t => (r, c.seq, t)))).flatten)).flatten

/-- JUNCTION_SENSOR_SAMPLE: the eight readings of a die, none where a sensor has not updated for 1 ms. -/
def sensorSample (w d : Nat) (readings : List (Option Int)) (s : State) : State :=
  if s.auxUp w then
    let k := w * 4 + d
    let x := s.die k
    let v := (List.range 8).map (fun i => validReading (readings.getD i none))
    let bad := (List.range 8).filter (fun i => (v.getD i none).isNone)
    let cold := v.any (fun r => r.any (fun y => decide (y < -40)))
    let s1 := s.setDie k { x with
      cold := cold, ran := if cold && !x.cold && !x.pause then s.runningAll w d else if cold || x.pause then x.ran else []
      sensors := v, told := bad, meas := (highest (v.filterMap id)).getD x.meas }
    (bad.filter (fun i => !(x.told.contains i))).foldl (fun a i =>
      machineEvent 0x0507 0 (w + d * 128 + i * 512) none 0 0 a) (markWait s1)
  else s

def execJunctionSensorSample (w : Fin 96) (d : BitVec 2) (readings : List (Option (BitVec 12))) (s : State) :
    Host.Outcome State Fault Refusal := .next (sensorSample w.val d.toNat (readings.map (fun r => r.map (·.toInt))) s)

/-! ### The forecaster (R616–R624) -/

/-- The level of a prediction and a measured temperature (Table 17-1, R617), in 0.25 °C; a boundary is in the band above it
(R11). -/
def bandOf (pred meas : Int) (blind : Bool) : Nat :=
  if 420 ≤ pred ∨ 432 ≤ meas then 3
  else if 380 ≤ pred ∨ blind = true then 2
  else if 340 ≤ pred then 1 else 0

/-- The four isle-centre sensors are all invalid (R617). -/
def DieTherm.blind (x : DieTherm) : Bool := (x.sensors.take 4).all (·.isNone)

/-- The isles that a ring's held chain pins (R153, R620). -/
def chainIsles (x : Ring) : List Nat :=
  match openChain x with
  | [] => []
  | h :: _ => h.place.filterMap (fun q => (h.mods[q.1 / 16]?).map (fun w => w * 16 + q.1 % 16))

/-- An isle is pinned (R620). -/
def State.pinned (s : State) (g : Nat) : Bool := s.ringIds.any (fun r => (chainIsles (s.ring r)).contains g)

/-- The rotation offset among the 15 others with the lowest prediction; ties to the least step (R619). -/
def coolest (h : Nat → Int) (rho : Nat) : Nat :=
  let cands := (List.range 15).map (fun k => (rho + k + 1) % 16)
  match cands with
  | [] => rho
  | c :: t => t.foldl (fun b r => if h r < h b then r else b) c

/-- An isle's new offset at a rotation (R619, R620): `lv` is its die's level, `k` its place among the four offsets. -/
def newRho (h : List Nat → Int) (lv k : Nat) (rhos : List Nat) : Nat :=
  let r := rhos.getD k 0
  if lv = 0 then (r + 1) % 16 else coolest (fun c => h (rhos.set k c)) r

/-- Rotation of one die's isles at an update (R619, R620): the offsets, and how many changed hands. -/
def rotateDie (s : State) (w d lv : Nat) (point : Bool) (h : List Nat → Int) : List Nat × Nat :=
  [0, 1, 2, 3].foldl (fun (a : List Nat × Nat) k =>
    let g := isleKey w d k
    let i := s.isle g
    let go := s.therm.rotEn && !(s.pinned g) && ((point && i.dealt) || i.wasPinned)
    if go then (a.1.set k (newRho h lv k a.1), a.2 + 1) else a) ([0, 1, 2, 3].map (fun k => (s.isle (isleKey w d k)).rho), 0)

/-- What an update leaves in an isle: its offset, and what it must remember (R619, R620). -/
def isleAfter (s : State) (point : Bool) (g rho : Nat) (i : Isle) : Isle :=
  { i with rho := rho, dealt := i.dealt && !point, wasPinned := s.pinned g }

/-- A die's level rule, event and dispatch pause after an update (R618, R623, R634). `floor`: FLIM already stood at 700 mV, or
the warden is not running. -/
def settleDie (w d : Nat) (x' : List Int) (pred : Int) (flim : Nat) (floor : Bool) (s : State) : State :=
  let k := w * 4 + d
  let x := s.die k
  let lv := bandOf pred x.meas x.blind
  let pause := decide (lv = 3) && (x.pause || floor)
  let starts := pause && !x.pause
  let now := s.win.tb.toNat
  -- a return to Breezy, and the first Fair update after it, are returns (Example 17-1), at most one event a second
  let back := (decide (2 ≤ x.level ∧ lv < 2) || (x.ret && lv == 0)) &&
    (x.retTick == 0 || decide (x.retTick - 1 + 100000000 ≤ now))
  let up := decide (2 ≤ lv) && lv != x.level
  let s1 := s.setDie k { x with
    x := x', pred := pred, level := lv, pause := pause
    ran := if starts && !x.cold then s.runningAll w d else if pause || x.cold then x.ran else []
    retTick := if back then now + 1 else x.retTick, ret := lv == 1 && (x.ret || decide (2 ≤ x.level)) }
  let m := s1.mtherm w
  let s2 := if starts then s1.setMtherm w { m with pauses := m.pauses + 1 } else s1
  if up || back then
    machineEvent 0x0501 0 (w + d * 128 + lv * 512) none (w64 (BitVec.ofInt 12 pred).toNat) (w32 flim) s2
  else s2

/-- FLIM after an update at a module level (R622): the limit, the run of Fair updates, the steps down. -/
def flimAfter (ceil lv : Nat) (m : ModTherm) : ModTherm :=
  let v := if lv = 3 then max 700 (m.flim - 30) else if lv = 2 then max 700 (m.flim - 10)
    else if lv = 0 ∧ 7 ≤ m.fair then min ceil (m.flim + 10) else m.flim
  { m with
    flim := v, fair := if lv = 0 then min 8 (m.fair + 1) else 0
    stepdowns := m.stepdowns + BitVec.ofNat 16 ((m.flim - v) / 10) }

/-- Force the spill of every held chain that pins an isle of a Storm die of the module, at the end of its command in
progress (R624, R154, R159). -/
def stormSpills (w : Nat) (s : State) : State :=
  s.ringIds.foldl (fun a r =>
    let x := a.ring r
    let hot := (chainIsles x).any (fun g => g / 16 == w && (a.die (g / 4)).level == 3)
    match x.prev with
    | some q =>
      let live := x.cmds.any (fun c => c.seq == q.seq && !c.done && !c.spillDue)
      if hot && live && opOf q.bytes == some .mxGemm && (recipeOf q.recipe).chain == 2 && (recipeOf q.recipe).spillAddr != 0 then
        let m := a.mtherm w
        (modCmd r q.seq (fun c => { c with spillDue := true }) a).setMtherm w { m with spills := m.spills + 1 }
      else a
    | none => a) s

/-- FORECASTER_UPDATE (R616–R624): the four dies of a module at update t ÷ 25,000. -/
def forecast (w : Nat) (s : State) : State :=
  let n := s.win.tb.toNat / 25000
  let m := s.mtherm w
  if !(s.auxUp w) ∨ m.last = n + 1 then s
  else
    let inlet := (s.ttherm (w / 8)).inlet
    let v := (s.pwrMod w).vset
    let floor := decide (m.flim = 700) || !(s.wardenRuns (w / 8))
    let step := fun (st : State) (d : Nat) =>
      let k := w * 4 + d
      let x := st.die k
      let x' := Config.forecastNext k n x.x v inlet x.sensors
      let h := fun rhos => Config.forecastHot k n x' v inlet rhos
      let now := [0, 1, 2, 3].map (fun i => (st.isle (isleKey w d i)).rho)
      let lv := bandOf (h now) x.meas x.blind
      let point := decide (2 ≤ lv) || n % max 1 st.therm.rotPeriod.toNat == 0
      let r := rotateDie st w d lv point h
      let st1 := [0, 1, 2, 3].foldl (fun a i =>
        let g := isleKey w d i
        a.setIsle g (isleAfter st point g (r.1.getD i 0) (st.isle g))) st
      let st2 := st1.setMtherm w { st1.mtherm w with rotations := (st1.mtherm w).rotations + BitVec.ofNat 16 r.2 }
      (st2, x', h r.1)
    -- rotation first, then levels, FLIM, pauses and spills
    let q := [0, 1, 2, 3].foldl (fun (a : State × List (List Int × Int)) d =>
      let y := step a.1 d
      (y.1, a.2 ++ [y.2])) (s, [])
    let lvl := ([0, 1, 2, 3].map (fun d =>
      let x := q.1.die (w * 4 + d)
      bandOf (q.2.getD d ([], 0)).2 x.meas x.blind)).foldl max 0
    let s1 := q.1.setMtherm w { flimAfter s.machCeil lvl (q.1.mtherm w) with last := n + 1 }
    let s2 := [0, 1, 2, 3].foldl (fun a d =>
      settleDie w d (q.2.getD d ([], 0)).1 (q.2.getD d ([], 0)).2 (s1.mtherm w).flim floor a) s1
    let s3 := stormSpills w s2
    let y := s3.ttherm (w / 8)
    if 2 ≤ lvl ∧ s3.wardenRuns (w / 8) = true ∧ y.leakCut = false then s3.setTtherm (w / 8) { y with valve := 100 } else s3

def execForecasterUpdate (w : Fin 96) (s : State) : Host.Outcome State Fault Refusal := .next (forecast w.val s)

/-! ### Hard limits, leaks and watchdogs (R625–R632) -/

/-- COMPARATOR_TRIP (R625): a compute die, or the logic of a portal, intake or Sound tray. -/
def comparatorTrip (t slot d : Nat) (s : State) : State :=
  if t < 12 then
    let w := t * 8 + slot
    if s.auxUp w then
      let k := w * 4 + d
      let s1 := holdMods [w] (s.setDie k { s.die k with tripped := true })
      let s2 := logAdd 5 2 (t + slot * 32 + d * 256) 0 0 [] (machineEvent 0x0502 0 (t + slot * 32 + d * 256) none
        (w64 (BitVec.ofInt 12 (s.die k).meas).toNat) 0 (loseModule w 2 s1))
      limitEvent 4 s s2
    else s
  else if (s.tray t).contactor then
    let s1 := closeValve t (loseTray t 2 (s.setTtherm t { s.ttherm t with ot := true }))
    logAdd 5 2 t 0 0 [] (machineEvent 0x0502 0 t none (w64 (BitVec.ofInt 12 (s.ttherm t).outlet).toNat) 0 s1)
  else s

def execComparatorTrip (t : Fin 17) (slot : BitVec 3) (die : BitVec 2) (s : State) : Host.Outcome State Fault Refusal :=
  .next (comparatorTrip t.val slot.toNat die.toNat s)

/-- LOSS_OF_FLOW (R626): a hard over-temperature of every tray that carries coolant, 5 s after the first sample of the flow
below 43 L/min. -/
def lossOfFlow (s : State) : State :=
  if s.therm.lowFlow ≠ 0 ∧ s.therm.lowFlow - 1 + 500000000 ≤ s.win.tb.toNat ∧ s.therm.flowLost = false then
    let s1 := { s with therm := { s.therm with flowLost := true } }
    let s2 := (List.range 17).foldl (fun a t => closeValve t (loseTray t 2 (holdMods (trayMods t) a))) s1
    limitEvent 4 s (logAdd 5 4 0 (w64 s.therm.cduFlow) 0 [] (machineEvent 0x0502 0 1024 none (w64 s.therm.cduFlow) 0 s2))
  else s

def execLossOfFlow (s : State) : Host.Outcome State Fault Refusal := .next (lossOfFlow s)

/-- LEAK_CUTOFF (R627): a tray's leak sensed for 2 ms. -/
def leakCutoff (t : Nat) (s : State) : State :=
  if (s.ttherm t).leakCut || (s.tray t).svc == .absent then s
  else
    let s1 := s.setTtherm t { s.ttherm t with leakCut := true, leak := true, dry := 0 }
    let s2 := closeValve t (loseTray t 3 (holdMods (trayMods t) s1))
    limitEvent 4 s (logAdd 5 1 t 0 0 [] (machineEvent 0x0503 0 t none 0 0 s2))

def execLeakCutoff (t : Fin 17) (s : State) : Host.Outcome State Fault Refusal := .next (leakCutoff t.val s)

/-- The dispatch pause begins at once on every Storm die of a tray whose warden no longer runs (R623). -/
def stormPauses (t : Nat) (s : State) : State :=
  (trayMods t).foldl (fun a w => [0, 1, 2, 3].foldl (fun b d =>
    let k := w * 4 + d
    let x := b.die k
    if x.level = 3 ∧ x.pause = false then
      let m := b.mtherm w
      (b.setDie k { x with pause := true, ran := if x.cold then x.ran else b.runningAll w d }).setMtherm w
        { m with pauses := m.pauses + 1 }
    else b) a) s

/-- WARDEN_WATCHDOG_EXPIRY (R593, R594, R631, R668, R375): the warden is lost, its latches hold, the valve is forced full. -/
def wardenLost (t : Nat) (s : State) : State :=
  if s.wardenRuns t then
    let s1 := (trayMods t).foldl (fun a w => a.setPwrMod w { a.pwrMod w with
      capLatch := some (s.capEff w), guard := (a.pwrMod w).obj.st == .on }) s
    let s2 := { s1 with stw := { s1.stw with
      wardens := s1.stw.wardens &&& ~~~(BitVec.ofNat 18 (2 ^ t)), adopting := s1.stw.adopting.filter (fun x => x != t) } }
    let s3 := s2.setTtherm t { s2.ttherm t with valve := 100, forced := true, wdg := true }
    let s4 := stormPauses t (machineEvent 0x0504 0 (t + 32) none 0 0 (machineEvent 0x0607 0 t none 0 0 s3))
    if t = 16 then trigger 3 { s4 with sh := { s4.sh with sound := 3, selfTest := false } } else s4
  else s

def execWardenWatchdogExpiry (t : Fin 18) (s : State) : Host.Outcome State Fault Refusal := .next (wardenLost t.val s)

/-- CDU_VOTER_WATCHDOG (R632): fewer than two channels run and kick. -/
def cduWatchdog (s : State) : State :=
  if s.therm.forced || s.majority then s
  else machineEvent 0x0504 0 63 none 0 0
    { s with therm := { s.therm with spd0 := 100, spd1 := 100, cduValve := 100, forced := true } }

def execCduVoterWatchdog (s : State) : Host.Outcome State Fault Refusal := .next (cduWatchdog s)

end Sys2Proof.Machine
end

