-- ==== Sys2Proof/Machine/Pool.lean ====
section
/-! DEFINITION. The raw pool and the queues of an intake tray: the bank header and its validity (R511, R512), quotas
(R505), and the forming of develop units (R503, R508, R509, R531). A context's key is (tray − 14) × 4 + number. -/

namespace Sys2Proof.Machine

/-! ### The bank header (Tables 14-2, 14-4) -/

/-- Bytes of a context's bank. -/
def Pipe.bankBytes (x : Pipe) (b : Bool) (off len : Nat) : List Byte := bytesAt x.mem (b2n b * 2 ^ 32 + off) len

/-- The 512-byte header of a bank. -/
def Pipe.header (x : Pipe) (b : Bool) : List Byte := x.bankBytes b 0 512

def hUnit (h : List Byte) : Nat := bitsAt (fieldAt h 0 1) 0 4
def hHdr (h : List Byte) : Bool := (fieldAt h 0 1).testBit 4
def hBayer (h : List Byte) : Bool := (fieldAt h 0 1).testBit 5
def hCfa (h : List Byte) : Nat := bitsAt (fieldAt h 0 1) 6 2
/-- Stage enables: 0 DARK, 1 FLAT, 2 DEFECT, 3 DUST, 4 REG, 5 CMAT, 6 LUT1, 7 LUT3. -/
def hEn (h : List Byte) (i : Nat) : Bool := (fieldAt h 1 1).testBit i
def hW (h : List Byte) : Nat := bitsAt (fieldAt h 4 2) 0 14 + 1
def hH (h : List Byte) : Nat := bitsAt (fieldAt h 6 2) 0 14 + 1
/-- ROLE[e]: plane mask, SHORT, DSLOT. -/
def hMask (h : List Byte) (e : Nat) : Nat := bitsAt (fieldAt h (8 + e) 1) 0 4
def hShort (h : List Byte) (e : Nat) : Bool := (fieldAt h (8 + e) 1).testBit 4
def hSlot (h : List Byte) (e : Nat) : Nat := bitsAt (fieldAt h (8 + e) 1) 5 2
/-- An fp32 field. -/
def hF (h : List Byte) (off : Nat) : Word := w32 (fieldAt h off 4)
/-- The positions of a unit. -/
def hRoles (h : List Byte) : List Nat := List.range (hUnit h)

/-- FMT[k] (Table 14-4). -/
structure Fmtr where
  src : Nat
  pack : Nat
  meta_ : Bool
  cx : Nat
  cy : Nat
  cw : Nat
  ch : Nat
  ow : Nat
  oh : Nat
  filt : Nat
  taps : Nat
  deriving DecidableEq, Repr

def fmtrOf (h : List Byte) (k : Nat) : Fmtr :=
  let b := 256 + 32 * k
  { src := bitsAt (fieldAt h b 1) 0 3, pack := bitsAt (fieldAt h (b + 1) 1) 0 3, meta_ := (fieldAt h (b + 1) 1).testBit 3,
    cx := fieldAt h (b + 4) 2, cy := fieldAt h (b + 6) 2, cw := fieldAt h (b + 8) 2, ch := fieldAt h (b + 10) 2,
    ow := fieldAt h (b + 12) 2, oh := fieldAt h (b + 14) 2, filt := fieldAt h (b + 16) 4, taps := fieldAt h (b + 20) 1 }

/-- A run of header bytes is zero. -/
def hZero (h : List Byte) (off len : Nat) : Bool := fieldAt h off len == 0

/-- A table lies within the bank, at a 64-byte multiple (R511). -/
def tableOk (off len : Nat) : Bool := off % 64 == 0 && decide (off + len ≤ 2 ^ 32)

/-- The formatter scales an axis (R522). -/
def Fmtr.scales (f : Fmtr) : Bool := f.ow != f.cw || f.oh != f.ch

/-- A formatter entry meets Table 14-4. -/
def fmtrOk (h : List Byte) (k : Nat) : Bool :=
  let f := fmtrOf h k
  let b := 256 + 32 * k
  hZero h (b + 2) 2 && hZero h (b + 21) 11 &&
  decide (f.src ≤ 5) && (if f.pack < 4 then f.src == 0 else f.src != 0) &&
  decide (1 ≤ f.cw) && decide (1 ≤ f.ch) && decide (f.cx + f.cw ≤ hW h) && decide (f.cy + f.ch ≤ hH h) &&
  decide (f.cw ≤ 8 * f.ow) && decide (f.ow ≤ f.cw) && decide (f.ch ≤ 8 * f.oh) && decide (f.oh ≤ f.ch) &&
  decide (4 ≤ f.taps) && decide (f.taps ≤ 64) && f.taps % 4 == 0 &&
  (!f.scales || tableOk f.filt (64 * f.taps * 4))

/-- Roles that name a plane, long or short. -/
def planeRoles (h : List Byte) (c : Nat) (short : Bool) : List Nat :=
  (hRoles h).filter (fun e => (hMask h e).testBit c && (hShort h e == short))

/-- A header is valid (R512); `on` lists the formatters that are enabled. -/
def headerOk (h : List Byte) (on : List Nat) : Bool :=
  let n := hUnit h
  hZero h 2 2 && hZero h 52 12 && hZero h 168 88 && hZero h 448 64 && decide (1 ≤ n) && decide (n ≤ 8) &&
  (hBayer h || [0, 1, 2].all (fun c => (hRoles h).any (fun e => (hMask h e).testBit c))) &&
  [0, 1, 2, 3].all (fun c =>
    let l := (planeRoles h c false).length
    let s := (planeRoles h c true).length
    if hHdr h then (l == 0 && s == 0) || (l == 1 && s == 1) else decide (l ≤ 1) && s == 0) &&
  (hHdr h || (hRoles h).all (fun e => !(hShort h e))) &&
  (!(hBayer h) || (n == (if hHdr h then 2 else 1) && (hRoles h).all (fun e => hMask h e == 7))) &&
  (!(hEn h 3 || on.any (fun k => (fmtrOf h k).src == 4 || (fmtrOf h k).src == 5)) ||
    (hRoles h).any (fun e => (hMask h e).testBit 3)) &&
  decide (2 ≤ fieldAt h 40 2) && decide (2 ≤ fieldAt h 42 2) &&
  decide (fieldAt h 36 2 + fieldAt h 40 2 ≤ hW h) && decide (fieldAt h 38 2 + fieldAt h 42 2 ≤ hH h) &&
  (!(hEn h 0) || (hRoles h).all (fun e => tableOk (fieldAt h (136 + 4 * hSlot h e) 4) (hW h * hH h * 2))) &&
  (!(hEn h 1) || (hRoles h).all (fun e => tableOk (fieldAt h (152 + 4 * hSlot h e) 4) (hW h * hH h * 2))) &&
  (!(hEn h 2) || tableOk (fieldAt h 112 4) (fieldAt h 116 4 * 8)) &&
  (!(hEn h 6) || tableOk (fieldAt h 120 4) (3 * 16384)) &&
  (!(hEn h 7) || tableOk (fieldAt h 132 4) (33 * 33 * 33 * 8)) &&
  on.all (fmtrOk h)

/-- The formatters of a context that are on: those sampled while its pipeline is not OFF, else those with BIND.EN. -/
def Pipe.onFmts (x : Pipe) : List Nat :=
  if x.obj.st = .off then [0, 1, 2, 3, 4, 5].filter (fun k => bit (tget 0 k x.bind) 12) else x.bound.map (·.1)

/-- The header of a bank is valid (R512, R527, R530). -/
def Pipe.bankOk (x : Pipe) (b : Bool) : Bool := headerOk (x.header b) x.onFmts

/-! ### Quotas and units -/

def QItem.bytes : QItem → Nat
  | .unit fs _ _ => (fs.map (fun f => f.data.length)).sum
  | .marker _ => 0
  | .frame f => f.data.length

/-- Pixel bytes of a port's queue. -/
def Pipe.held (x : Pipe) : Nat := (x.queue.map QItem.bytes).sum + (x.loose.map (fun f => f.data.length)).sum

/-- A frame of n bytes would exceed its port's quota (R505). -/
def State.overQuota (s : State) (k n : Nat) : Bool :=
  if (s.intake (k / 4)).mode && k % 4 != 0 then
    decide (48 * 2 ^ 30 < ([1, 2, 3].map (fun p => (s.pipe (k / 4 * 4 + p)).held)).sum + n)
  else decide (16 * 2 ^ 30 < (s.pipe k).held + n)

/-- A machine-level event of a scanner port or context (R489, R534): DETAIL [1:0] port, [2] tray, `hi` above. -/
def portEvent (k code hi : Nat) (arg0 : DWord) (arg1 : Word) (s : State) : State :=
  machineEvent code 0 (k % 4 + k / 4 * 4 + hi * 8) none arg0 arg1 s

/-- A unit is discarded (R508): formation waits for slot tag 0. -/
def discardUnit (k cause : Nat) (num : Word) (s : State) : State :=
  let x := s.pipe k
  portEvent k 0x0312 cause 0 num (s.setPipe k { x with
    loose := [], sync := true, discards := satInc x.discards, dcause := BitVec.ofNat 4 cause })

/-- S of R508 step 1. -/
def SPort.slotsOf (p : SPort) : Nat := if Fld p.trigCtl 0 3 = 0 then 1 else Fld p.trigCtl 8 2 + 1

/-- A frame has the size and kind of pixels that a header asks (R508 step 4, R513). -/
def frameFits (h : List Byte) (f : RawFrame) : Bool := f.w == hW h && f.h == hH h && f.fmt.bayer == hBayer h

/-- A frame joins the unit now forming, or is a size mismatch (R508, R513); a complete unit waits in the queue. -/
def joinUnit (k : Nat) (f : RawFrame) (s : State) : State :=
  let x := s.pipe k
  let h := x.header x.formBank
  if !(frameFits h f) then discardUnit k 3 f.num s
  else
    let l := x.loose ++ [f]
    if hUnit h ≤ l.length then s.setPipe k { x with loose := [], queue := x.queue ++ [.unit l x.formBank x.gen] }
    else s.setPipe k { x with loose := l }

/-- A unit begins forming: a bank switch that waits takes effect (R527, R536). -/
def beginUnit (k : Nat) (f : RawFrame) (s : State) : State :=
  let x := s.pipe k
  let y := if x.req != x.bank then { x with bank := x.req, gen := x.gen + 1 } else x
  joinUnit k f (s.setPipe k { y with formBank := y.bank, sync := false })

/-- A frame at a position beyond the first mismatches: the unit is discarded, and the frame can start the next one, where it
does not mismatch that one too (R508; DEDUCED, log 117). -/
def mismatch (k cause : Nat) (f : RawFrame) (s : State) : State :=
  let s1 := discardUnit k cause f.num s
  let x := s1.pipe k
  if f.slot = 0 ∧ (cause = 2 ∨ frameFits (x.header x.req) f = true) then beginUnit k f s1 else s1

/-- Formation takes a frame (R508). While the pipeline is OFF the frame waits in no unit. -/
def formFrame (k : Nat) (f : RawFrame) (s : State) : State :=
  let x := s.pipe k
  if x.obj.st = .off then s.setPipe k { x with queue := x.queue ++ [.frame f] }
  else if x.loose.isEmpty then
    if f.slot = 0 then beginUnit k f s
    else if x.sync then s
    else discardUnit k 2 f.num s
  else if f.slot ≠ x.loose.length % (s.sport k).slotsOf then mismatch k 2 f s
  else if frameFits (x.header x.formBank) f then joinUnit k f s
  else mismatch k 3 f s

/-- A complete frame lands (R503), or is dropped by its quota (R505). -/
def landFrame (k : Nat) (f : RawFrame) (s : State) : State :=
  if s.overQuota k f.data.length then
    let x := s.pipe k
    s.setPipe k { x with drops := satInc x.drops, dropRun := satInc x.dropRun }
  else formFrame k f s

/-- The marker of a frame that ended early takes its place (R503, R508); the unit it meets is discarded. -/
def landMarker (k : Nat) (num : Word) (s : State) : State :=
  let s1 := if (s.pipe k).loose.isEmpty then s else discardUnit k 1 num s
  s1.setPipe k { s1.pipe k with queue := (s1.pipe k).queue ++ [.marker num] }

/-- An item that waited is formed again at an enable. -/
def reformItem (k : Nat) (q : QItem) (s : State) : State :=
  match q with
  | .frame f => formFrame k f s
  | .marker n => landMarker k n s
  | .unit _ _ _ => s.setPipe k { s.pipe k with queue := (s.pipe k).queue ++ [q] }

def QItem.isFrame : QItem → Bool
  | .frame _ => true
  | _ => false

/-- Units begin to form anew at an enable (R508 step 2): what landed since the last unit or marker is taken first. -/
def reform (k : Nat) (s : State) : State :=
  let x := s.pipe k
  let keep := x.queue.takeWhile (fun q => !q.isFrame)
  (x.queue.dropWhile (fun q => !q.isFrame)).foldl (fun a q => reformItem k q a)
    (s.setPipe k { x with queue := keep, loose := [], sync := true })

/-- A pipeline goes OFF: frames of the unit that was forming wait. -/
def parkLoose (x : Pipe) : Pipe := { x with queue := x.queue ++ x.loose.map QItem.frame, loose := [], sync := false }

/-- The head of a queue. -/
def Pipe.head? (x : Pipe) : Option QItem := x.queue.head?

end Sys2Proof.Machine
end

