-- ==== Sys2Proof/Machine/Intake.lean ====
section
/-! DEFINITION. The scanner ports: the CoaXPress subset (R460–R469), frames and their early ends (R464, R486–R491), the
mailbox (R467), the pins and their holds (R472–R476), encoder and perforation (R477, R478), triggers and scheduled
outputs (R479–R484). A port's key is (tray − 14) × 4 + port; a pin's that × 16 + m. Times are in steps of 2.5 ns. -/

namespace Sys2Proof.Machine

/-- The intake tray of a port. -/
def portIntake (k : Nat) : Nat := 14 + k / 4

/-- The intake tray has its 54 V (R497); its ports do not depend on its warden (R496). -/
def State.intakeOn (s : State) (k : Nat) : Bool := s.boot.powered && (s.tray (portIntake k)).contactor

/-- The pages of a port (R459): CoaXPress and transport I/O. -/
def cxpPage (k : Nat) : Nat := 0xD0000 + (k / 4 * 8 + k % 4 * 2) * 0x1000
def tioPage (k : Nat) : Nat := cxpPage k + 0x1000

/-- A write of a register on a tray's page takes effect only where the page answers (R786). -/
def trayOp (t port off val : Nat) (v : Verdict) (s : State) : State :=
  if s.trayAnswers t then regOp port off val v s else s

/-! ### Frames (R464, R488) -/

/-- A frame in progress ends early (R488): it is counted, and its marker goes to the pipeline. -/
def abortFrame (k cause : Nat) (s : State) : State :=
  let p := s.sport k
  match p.cur with
  | none => s
  | some f =>
    landMarker k f.num (s.setSport k { p with
      cur := none, aborts := satInc p.aborts, abortCause := BitVec.ofNat 4 cause, abortFrame := f.num })

/-- The pixel formats of the unpack stage (Table 14-3 stage 1). -/
def fmtListed (bayer : Bool) (bits : Nat) : Bool :=
  bits == 8 || bits == 10 || bits == 12 || bits == 16 || (!bayer && bits == 14)

/-- Bytes of a line as the port receives it: samples packed low bit first, filled up to a 32-bit word (log 26). -/
def lineBytes (w bits : Nat) : Nat := cdiv (w * bits) 32 * 4

/-- The port accepts stream packets: it runs, a device is attached, and no extension is lost (R469, R487). -/
def SPort.streams (p : SPort) : Bool := bit p.ctl 0 && p.st == 2 && !p.connLost

/-- IMAGE_HEADER_ARRIVAL (R464). A header that comes before the frame in progress is complete ends that frame as too
long (log 27). -/
def imageHeader (k : Nat) (stream : BitVec 8) (w h : Nat) (bayer : Bool) (cfa : BitVec 2) (bits : Nat) (s : State) : State :=
  let p := s.sport k
  if !(s.intakeOn k) || !p.streams then s
  else if stream != p.stream then s.setSport k { p with other := satInc p.other }
  else
    let s1 := abortFrame k 4 s
    let q := s1.sport k
    let seq := Fld q.trigCtl 8 2 + 1
    let f : RawFrame := {
      num := q.frames + 1, slot := if Fld q.trigCtl 0 3 = 0 then 0 else q.armFrames % seq, tb := s.win.tb, w := w, h := h,
      fmt := { bayer := bayer, cfa := cfa, bits := bits }, data := [] }
    let s2 := s1.setSport k { q with
      frames := q.frames + 1, armFrames := q.armFrames + 1, cur := some f, curTick := s.win.tb }
    if 1 ≤ w ∧ w ≤ 16384 ∧ 1 ≤ h ∧ h ≤ 16384 ∧ fmtListed bayer bits = true then s2 else abortFrame k 4 s2

def execImageHeaderArrival (k : Fin 8) (stream : BitVec 8) (w h : BitVec 24) (bayer : Bool) (cfa : BitVec 2) (bits : BitVec 5)
    (s : State) : Host.Outcome State Fault Refusal :=
  .next (imageHeader k.val stream w.toNat h.toNat bayer cfa bits.toNat s)

/-- STREAM_PACKET_ARRIVAL (R461, R465): `good` is the packet's CRC; `long` says that its line markers put a line beyond the
length, or the frame beyond the lines, that the header declares. A packet that fails its CRC ends the frame of its own
stream (DEDUCED, log 115). -/
def streamPacket (k : Nat) (stream : BitVec 8) (good long : Bool) (bytes : List Byte) (s : State) : State :=
  let p := s.sport k
  if !(s.intakeOn k) || !p.streams then s
  else if !good then
    let s1 := s.setSport k { p with crcErr := satInc p.crcErr }
    if stream = p.stream then abortFrame k 3 s1 else s1
  else if stream != p.stream then s.setSport k { p with other := satInc p.other }
  else match p.cur with
  | none => s
  | some f =>
    let g := { f with data := f.data ++ bytes }
    let need := lineBytes f.w f.fmt.bits * f.h
    if long || decide (need < g.data.length) then abortFrame k 4 s
    else if g.data.length = need then landFrame k g (s.setSport k { p with cur := none })
    else s.setSport k { p with cur := some g, curTick := s.win.tb }

def execStreamPacketArrival (k : Fin 8) (stream : BitVec 8) (good long : Bool) (bytes : List Byte) (s : State) :
    Host.Outcome State Fault Refusal :=
  .next (streamPacket k.val stream good long bytes s)

/-- FRAME_IDLE_TIMEOUT (R488 cause 6): 10,000,000 ticks without a stream packet of the frame. -/
def execFrameIdleTimeout (k : Fin 8) (s : State) : Host.Outcome State Fault Refusal :=
  .next (if s.win.tb.toNat - (s.sport k.val).curTick.toNat < 10000000 then s else abortFrame k.val 6 s)

/-! ### The uplink and the mailbox (R465–R468) -/

/-- Something the uplink sends (log 28): its kind — 0 mailbox read, 1 mailbox write, 2 rising and 3 falling trigger packet, 4
acknowledgement of an event packet, 5 an access of discovery — and its content. -/
def uplink (k kind : Nat) (body : List Byte) (s : State) : State :=
  emit (.uplink (portIntake k) (k % 4) (BitVec.ofNat 8 kind :: body)) s

/-- Bytes of the mailbox data. -/
def SPort.gcBytes (p : SPort) : List Byte :=
  ((List.range (p.gcLen.toNat / 4)).map (fun i => toLE 4 (tget 0 i p.gcData).toNat)).flatten

/-- Send the control packet of the mailbox access. -/
def gcSend (k : Nat) (s : State) : State :=
  let p := s.sport k
  uplink k (b2n p.gcWr) (toLE 4 p.gcAddr.toNat ++ toLE 2 p.gcLen.toNat ++ (if p.gcWr then p.gcBytes else []))
    (s.setSport k { p with gcTries := p.gcTries + 1, gcTick := s.win.tb })

/-- A mailbox access ends with a result. -/
def gcEnd (result : Nat) (p : SPort) : SPort :=
  if p.gcBusy then { p with gcBusy := false, gcTries := 0, gcResult := BitVec.ofNat 4 result } else p

/-- GC_CMD (R467). -/
def gcCmd (k : Nat) (wr : Bool) (s : State) : Verdict :=
  let p := s.sport k
  if p.gcBusy then .error 4
  else if p.st != 2 then .ok (s.setSport k { p with gcResult := 3 })
  else .ok (gcSend k (s.setSport k { p with gcBusy := true, gcWr := wr, gcTries := 0 }))

def execGcRead (port : BitVec 4) (k : Fin 8) (s : State) : Host.Outcome State Fault Refusal :=
  .next (trayOp (portIntake k.val) port.toNat (cxpPage k.val + 0x2C) 1 (gcCmd k.val false s) s)

def execGcWrite (port : BitVec 4) (k : Fin 8) (s : State) : Host.Outcome State Fault Refusal :=
  .next (trayOp (portIntake k.val) port.toNat (cxpPage k.val + 0x2C) 2 (gcCmd k.val true s) s)

/-- Place read data in GC_DATA, little-endian (R467). -/
def gcStore (bytes : List Byte) (d : Tab Word) : Tab Word :=
  (List.range (cdiv bytes.length 4)).foldl (fun a i => if i < 64 then tset 0 i (w32 (fieldAt bytes (4 * i) 4)) a else a) d

/-- Send, for the n-th time, the bootstrap access that discovery is at (R462, R465; its bytes are the standard's, log 28). -/
def discSend (k n : Nat) (s : State) : State :=
  uplink k 5 [] (s.setSport k { s.sport k with discTries := n, discSent := s.win.tb })

/-- Discovery waits for the acknowledgement of an access. -/
def SPort.discovers (p : SPort) : Bool := p.st == 1 && p.discTries != 0

/-- Discovery's access is sent again, or after three sends discovery ends without a device (R465). -/
def discAgain (k : Nat) (s : State) : State :=
  let p := s.sport k
  if p.discTries < 3 then discSend k (p.discTries + 1) s else s.setSport k { p with st := 0, discTries := 0 }

/-- An acknowledgement of an access of discovery (R462, R465): the next access is sent; a device that reports an error
refuses (STATE 3). -/
def discAck (k : Nat) (a : CtlAck) (s : State) : State :=
  let p := s.sport k
  match a with
  | .ok _ => discSend k 1 s
  | .error _ => s.setSport k { p with st := 3, discTries := 0 }
  | .badCrc => discAgain k (s.setSport k { p with crcErr := satInc p.crcErr })

/-- CONTROL_ACK_ARRIVAL (R465, R467): of a mailbox access, else of one of discovery. CRC_ERR counts every packet that fails
its CRC (Table 13-2). -/
def controlAck (k : Nat) (a : CtlAck) (s : State) : State :=
  let p := s.sport k
  if !(s.intakeOn k) then s
  else if !p.gcBusy then (if p.discovers then discAck k a s else s)
  else match a with
  | .ok bytes =>
    s.setSport k (gcEnd 0 { p with gcData := if p.gcWr then p.gcData else gcStore (bytes.take p.gcLen.toNat) p.gcData })
  | .error st => s.setSport k (gcEnd 1 { p with gcDev := st })
  | .badCrc =>
    let q := { p with crcErr := satInc p.crcErr }
    if p.gcTries < 3 then gcSend k (s.setSport k q) else s.setSport k (gcEnd 4 q)

def execControlAckArrival (k : Fin 8) (a : CtlAck) (s : State) : Host.Outcome State Fault Refusal :=
  .next (controlAck k.val a s)

/-- CONTROL_PACKET_TIMEOUT (R465): 200 ms. -/
def controlTimeout (k : Nat) (s : State) : State :=
  let p := s.sport k
  let late := fun (t : DWord) => decide (20000000 ≤ s.win.tb.toNat - t.toNat)
  if !p.gcBusy then (if p.discovers && late p.discSent then discAgain k s else s)
  else if !(late p.gcTick) then s
  else if p.gcTries < 3 then gcSend k s
  else s.setSport k (gcEnd 2 p)

def execControlPacketTimeout (k : Fin 8) (s : State) : Host.Outcome State Fault Refusal := .next (controlTimeout k.val s)

/-- EVENT_PACKET_ARRIVAL (R466, R468): acknowledged, and reported as SCANNER_EVENT. -/
def eventPacket (k : Nat) (id : BitVec 16) (payload : List Byte) (s : State) : State :=
  if !(s.intakeOn k) || (s.sport k).st != 2 then s
  else portEvent k 0x0304 (b2n (decide (8 < payload.length))) (w64 (leNat (payload.take 8))) (id.setWidth 32)
    (uplink k 4 [] s)

def execEventPacketArrival (k : Fin 8) (id : BitVec 16) (payload : List Byte) (s : State) :
    Host.Outcome State Fault Refusal := .next (eventPacket k.val id payload s)

/-! ### Discovery, power, detaching (R461–R463, R486, R487) -/

/-- A write of CXP_CTL (R462, R463, R469). EN 0 ends a frame and stops the stream and discovery; the device stays attached
until its lock is lost (DEDUCED, log 115). Power is given at discovery, where the detection is made (R462). -/
def cxpCtl (k : Nat) (val : Word) (s : State) : Verdict :=
  let p := s.sport k
  if Fld val 4 3 = 7 then .error 3
  else
    let s1 := s.setSport k { p with
      ctl := val &&& 0x00FF0373
      pocFault := if bit val 1 && !(bit p.ctl 1) then 0 else p.pocFault
      pocOn := if bit val 1 then p.pocOn else 0 }
    .ok (if bit val 0 then s1 else abortFrame k 5 s1)

def execCxpCtlWrite (port : BitVec 4) (k : Fin 8) (val : Word) (s : State) : Host.Outcome State Fault Refusal :=
  .next (trayOp (portIntake k.val) port.toNat (cxpPage k.val) val.toNat (cxpCtl k.val val s) s)

/-- DISCOVERY_ATTEMPT (R462): once a second while no device is attached; `found` are the connectors where the standard's
detection finds a device. -/
def discoveryAttempt (k : Nat) (found : BitVec 4) (s : State) : State :=
  let p := s.sport k
  let due := fun (t : Nat) => t == 0 || decide (t - 1 + 100000000 ≤ s.win.tb.toNat)
  if s.intakeOn k && bit p.ctl 0 && p.st != 2 && due p.discTick && due p.detTick then
    discSend k 1 (s.setSport k { p with
      st := 1, discTick := s.win.tb.toNat + 1, detTick := 0
      pocOn := if bit p.ctl 1 then p.pocOn ||| (found &&& ~~~p.pocFault) else p.pocOn })
  else s

def execDiscoveryAttempt (k : Fin 8) (found : BitVec 4) (s : State) : Host.Outcome State Fault Refusal :=
  .next (discoveryAttempt k.val found s)

/-- DISCOVERY_COMPLETE (R461, R462): `rates` gives for C0 onwards the bit rates (MAXRATE codes, bit r for code r) the device
supports on each connector, 0 where none responds; `count` is the device's own connection count. -/
def discoveryComplete (k : Nat) (rates : List (BitVec 7)) (count : Nat) (refused : Bool) (s : State) : State :=
  let p := s.sport k
  if !(s.intakeOn k) || p.st != 1 then s
  else
    let p := { p with discTries := 0 }
    let run := ((rates.take 4).takeWhile (fun r => r != 0)).length
    let n := min (Fld p.ctl 8 2 + 1) (min count run)
    let fits := (List.range (Fld p.ctl 4 3 + 1)).filter (fun r => (rates.take n).all (fun m => m.getLsbD r))
    if n = 0 then s.setSport k { p with st := 0 }
    else match refused, fits.getLast? with
    | false, some r =>
      portEvent k 0x0301 (r + (n - 1) * 8) 0 p.frames (s.setSport k { p with
        st := 2, rate := BitVec.ofNat 3 r, conns := BitVec.ofNat 2 (n - 1), connUp := BitVec.ofNat 4 (2 ^ n - 1),
        stream := BitVec.ofNat 8 (Fld p.ctl 16 8), connLost := false })
    | _, _ => s.setSport k { p with st := 3 }

def execDiscoveryComplete (k : Fin 8) (rates : List (BitVec 7)) (count : BitVec 3) (refused : Bool) (s : State) :
    Host.Outcome State Fault Refusal :=
  .next (discoveryComplete k.val rates count.toNat refused s)

/-- CXP_CMD.RECONFIG (R463, R469, R487, R495): discovery is run again at once, with power kept. -/
def cxpReconfig (k : Nat) (s : State) : State :=
  let s1 := abortFrame k 5 s
  let p := s1.sport k
  s1.setSport k (gcEnd 3 { p with
    connLost := false, pocFault := 0, st := if bit p.ctl 0 then 1 else 0, discTries := 0, discTick := 0, detTick := 0 })

def execCxpReconfig (port : BitVec 4) (k : Fin 8) (s : State) : Host.Outcome State Fault Refusal :=
  .next (trayOp (portIntake k.val) port.toNat (cxpPage k.val + 4) 1 (.ok (cxpReconfig k.val s)) s)

/-- No device: connectors unpowered, the mailbox ended (R486, R469, R495). -/
def noDevice (p : SPort) : SPort :=
  gcEnd 3 { p with st := 0, rate := 0, conns := 0, connUp := 0, pocOn := 0, connLost := false, discTries := 0 }

/-- CXP_CMD.DETACH (R463, R469). -/
def cxpDetach (k : Nat) (s : State) : State :=
  let s1 := abortFrame k 5 s
  s1.setSport k { noDevice (s1.sport k) with pocFault := 0, discTick := 0, detTick := s.win.tb.toNat + 1 }

def execCxpDetach (port : BitVec 4) (k : Fin 8) (s : State) : Host.Outcome State Fault Refusal :=
  .next (trayOp (portIntake k.val) port.toNat (cxpPage k.val + 4) 2 (.ok (cxpDetach k.val s)) s)

/-- POCXP_FAULT (R463). -/
def pocFault (k : Nat) (mask : BitVec 4) (s : State) : State :=
  let p := s.sport k
  let m := mask &&& p.pocOn
  if m = 0 then s
  else portEvent k 0x0307 m.toNat 0 0 (s.setSport k { p with pocOn := p.pocOn &&& ~~~m, pocFault := p.pocFault ||| m })

def execPocxpFault (k : Fin 8) (mask : BitVec 4) (s : State) : Host.Outcome State Fault Refusal :=
  .next (pocFault k.val mask s)

/-- SCANNER_DETACH (R486): loss of lock on C0. Of a detach and an extension loss of one step the detach is the first
command (R490), and a last line of that step comes before it (R491). -/
def scannerDetach (k : Nat) (s : State) : State :=
  let p := s.sport k
  if p.st = 2 ∨ p.connUp.getLsbD 0 = true then
    let s1 := abortFrame k 1 s
    portEvent k 0x0302 (b2n p.cur.isSome) 0 p.frames (s1.setSport k (noDevice (s1.sport k)))
  else s

def execScannerDetach (k : Fin 8) (s : State) : Host.Outcome State Fault Refusal := .next (scannerDetach k.val s)

/-- EXTENSION_LOCK_LOST (R487). -/
def extensionLost (k : Nat) (mask : BitVec 4) (s : State) : State :=
  let p := s.sport k
  let m := mask &&& p.connUp &&& 0xE
  if p.st != 2 || m == 0 then s
  else
    let s1 := abortFrame k 2 s
    let q := s1.sport k
    portEvent k 0x0303 m.toNat 0 q.frames (s1.setSport k { q with connLost := true, connUp := q.connUp &&& ~~~m })

def execExtensionLockLost (k : Fin 8) (mask : BitVec 4) (s : State) : Host.Outcome State Fault Refusal :=
  .next (extensionLost k.val mask s)

/-! ### Pins (R472–R476) -/

/-- Time in steps: the tick × 4 + the quarter-tick phase (R480). -/
def State.steps (s : State) (ph : Nat) : Nat := s.win.tb.toNat * 4 + ph

/-- Pins of a port. -/
def portPins (k : Nat) : List Nat := (List.range 16).map (fun m => k * 16 + m)

/-- Functions of which a port has one pin (Table 13-5). -/
def onePin (f : BitVec 4) : Bool := decide (1 ≤ f.toNat) && decide (f.toNat ≤ 12)
def isInput (f : BitVec 4) : Bool := decide (1 ≤ f.toNat) && decide (f.toNat ≤ 5)
def isOutput (f : BitVec 4) : Bool := (decide (6 ≤ f.toNat) && decide (f.toNat ≤ 12)) || f == 14

/-- Level an output function drives, before INV: OUT_k, CAP_DIR, or the GPO bit of pin m. -/
def SPort.outOf (p : SPort) (f : BitVec 4) (m : Nat) : Bool :=
  if f = 12 then bit p.cap 1 else if f = 14 then p.gpo.getLsbD m else p.outLvl.getLsbD (f.toNat - 6)

/-- Level that a pin's driver gives the connector; none while undriven (R475, R471, R497). -/
def State.pinDrive (s : State) (key : Nat) : Option Bool :=
  let x := s.pin key
  if !(s.intakeOn (key / 16)) || x.fault then none
  else if x.hold != 0 then x.keep
  else if isOutput x.act then some ((s.sport (key / 16)).outOf x.act (key % 16) != x.actInv)
  else none

/-- LEVEL: the pin's level at the connector, before INV (Table 13-7). -/
def State.pinLevel (s : State) (key : Nat) : Bool := (s.pinDrive key).getD (s.pin key).ext

/-- A write of PIN_m (R474, R475). -/
def pinWrite (k m : Nat) (val : Word) (s : State) : Verdict :=
  let key := k * 16 + m
  let x := s.pin key
  let f := BitVec.ofNat 4 (Fld val 0 4)
  let inv := bit val 4
  if f = 15 then .error 3
  else
    let changes := f != x.func || inv != x.inv
    if changes && x.hold != 0 then .error 4
    else
      let y := { x with term := m < 8 && bit val 5, filt := BitVec.ofNat 8 (Fld val 8 8) }
      if !changes then .ok (s.setPin key y)
      else
        let now := s.steps 0 + 1
        let q := if f != x.func && onePin f then
            (portPins k).find? (fun z => z != key && (s.pin z).func == f && !(s.pin z).leaving)
          else none
        let s1 := match q with
          | some z =>
            let w := s.pin z
            s.setPin z { w with
              leaving := true, hold := if w.hold = 0 then now else w.hold
              keep := if w.hold = 0 then s.pinDrive z else w.keep }
          | none => s
        .ok (s1.setPin key { y with func := f, inv := inv, leaving := false, hold := now, keep := s.pinDrive key })

def execPinConfigWrite (port : BitVec 4) (k : Fin 8) (m : BitVec 4) (val : Word) (s : State) :
    Host.Outcome State Fault Refusal :=
  .next (trayOp (portIntake k.val) port.toNat (tioPage k.val + 4 * m.toNat) val.toNat (pinWrite k.val m.toNat val s) s)

/-- PIN_HOLD_END (R475): 1,600 steps after the write. An input function takes the pin's level without an edge. -/
def pinHoldEnd (k m ph : Nat) (s : State) : State :=
  let key := k * 16 + m
  let x := s.pin key
  if x.hold = 0 ∨ s.steps ph < x.hold - 1 + 1600 then s
  else
    let f := if x.leaving then 0 else x.func
    let s1 := s.setPin key { x with func := f, act := f, actInv := x.inv, hold := 0, keep := none, leaving := false }
    let p := s1.sport k
    if isInput f then
      let i := f.toNat - 1
      let lv := s1.pinLevel key != x.inv
      s1.setSport k { p with inLvl := (p.inLvl &&& ~~~(BitVec.ofNat 5 (2 ^ i))) ||| BitVec.ofNat 5 (b2n lv * 2 ^ i) }
    else s1

def execPinHoldEnd (k : Fin 8) (m : BitVec 4) (ph : BitVec 2) (s : State) : Host.Outcome State Fault Refusal :=
  .next (pinHoldEnd k.val m.toNat ph.toNat s)

/-! ### Triggers (R479–R481, R484) -/

/-- OUT_k_DELAY and OUT_k_WIDTH. -/
def SPort.delayOf (p : SPort) (i : Nat) : Nat := (tget 0 i p.delay).toNat
def SPort.widthOf (p : SPort) (i : Nat) : Nat := (tget 1 i p.width).toNat

/-- The edges a trigger with an index schedules at its time (R481, Table 13-6); the falling trigger packet too. -/
def trigEdges (p : SPort) (now idx : Nat) : List OutEdge :=
  let slot := idx % (Fld p.trigCtl 8 2 + 1)
  let pulse := fun (i : Nat) =>
    let a := now + 5 + p.delayOf i
    [({ due := a, out := i, rise := true } : OutEdge), { due := a + p.widthOf i, out := i, rise := false }]
  let strobes := ([1, 2, 3, 4].filter (fun c => p.slots.getLsbD ((c - 1) * 4 + slot))).map pulse
  let gap := p.capInt.toNat
  let cap : List OutEdge := if bit p.cap 0 then []
    else [{ due := now + 5 + p.delayOf 5, out := 5, rise := true, left := Fld p.cap 16 16 - 1, gap := gap,
            wide := min (p.widthOf 5) (gap - 1) }]
  pulse 0 ++ strobes.flatten ++ (if !(bit p.cap 0) && Fld p.cap 16 16 == 0 then [] else cap) ++
    (if bit p.trigCtl 4 && p.st == 2 then [{ due := now + 4 + p.widthOf 0, out := 6, rise := false }] else [])

/-- A trigger has fired in this step already. -/
def SPort.firedAt (p : SPort) (now : Nat) : Bool := p.trigCount != 0 && p.trigTs == w64 now

/-- A trigger fires (R480), or is dropped while an edge of the one before is still to be placed (R484). A FIRE and a source
trigger of one step are one trigger (R479). -/
def fireTrig (k now : Nat) (s : State) : State :=
  let p := s.sport k
  if p.firedAt now then s
  else if p.sched.any (fun e => decide (e.out < 6)) then
    s.setSport k { p with overrun := satInc p.overrun, overRun := satInc p.overRun }
  else
    let s1 := s.setSport k { p with
      trigCount := p.trigCount + 1, trigTs := w64 now, trigIdx := p.trigIdx + 1
      sched := p.sched ++ trigEdges p now p.trigIdx }
    if bit p.trigCtl 4 && p.st == 2 then uplink k 2 [] s1 else s1

/-- The first target above a position (R479): PHASE + k × PERIOD for the least k. -/
def firstTarget (period phase pos : Word) : Word :=
  let p : Int := period.toNat
  BitVec.ofInt 32 (phase.toInt + ((pos.toInt - phase.toInt) / p + 1) * p)

/-- PERIOD is in the range of its source (R479). -/
def periodOk (src p : Nat) : Bool :=
  match src with
  | 1 => decide (1 ≤ p) && decide (p < 2 ^ 31)
  | 2 => decide (1 ≤ p) && decide (p ≤ 65535)
  | 3 => decide (1 ≤ p) && decide (p ≤ 65535)
  | 4 => decide (100 ≤ p)
  | _ => true

/-- A write of TRIG_CTL arms the generator (R479, R494) with the PERIOD and PHASE it judges (DEDUCED, log 116). -/
def trigArm (k : Nat) (val : Word) (s : State) : Verdict :=
  let p := s.sport k
  let src := Fld val 0 3
  if 5 < src ∨ periodOk src p.period.toNat = false then .error 3
  else .ok (s.setSport k { p with
    trigCtl := val &&& 0x31F, trigIdx := 0, srcEdges := 0, armFrames := 0, armPeriod := p.period, armPhase := p.phase
    target := if src = 1 then firstTarget p.period p.phase p.encPos else p.target })

def execTriggerArm (port : BitVec 4) (k : Fin 8) (val : Word) (s : State) : Host.Outcome State Fault Refusal :=
  .next (trayOp (portIntake k.val) port.toNat (tioPage k.val + 0x50) val.toNat (trigArm k.val val s) s)

/-- TRIG_FIRE (R479): under any source but 0, unless a source trigger fires in the same step. -/
def trigFire (k ph : Nat) (s : State) : State :=
  let p := s.sport k
  if Fld p.trigCtl 0 3 = 0 then s else fireTrig k (s.steps ph) s

def execTrigFire (port : BitVec 4) (k : Fin 8) (ph : BitVec 2) (s : State) : Host.Outcome State Fault Refusal :=
  .next (trayOp (portIntake k.val) port.toNat (tioPage k.val + 0x5C) 1 (.ok (trigFire k.val ph.toNat s)) s)

/-- TIMED_TRIGGER (R479 source 4): at a tick. -/
def timedTrigger (k : Nat) (s : State) : State :=
  let p := s.sport k
  if s.intakeOn k && Fld p.trigCtl 0 3 == 4 && s.win.tb.toNat % p.armPeriod.toNat == p.armPhase.toNat % p.armPeriod.toNat then
    fireTrig k (s.steps 0) s
  else s

def execTimedTrigger (k : Fin 8) (s : State) : Host.Outcome State Fault Refusal := .next (timedTrigger k.val s)

/-- TRIG_OVERRUN_REPORT (R484): at most once a second. -/
def overrunReport (k : Nat) (s : State) : State :=
  let p := s.sport k
  if p.overRun != 0 && (p.overTick == 0 || decide (p.overTick - 1 + 100000000 ≤ s.win.tb.toNat)) then
    portEvent k 0x0306 0 (p.trigCount.setWidth 64) p.overRun
      (s.setSport k { p with overRun := 0, overTick := s.win.tb.toNat + 1 })
  else s

def execTrigOverrunReport (k : Fin 8) (s : State) : Host.Outcome State Fault Refusal := .next (overrunReport k.val s)

/-! ### Input edges (R477–R479) -/

/-- The position changes by one count; a target reached rising fires source 1 (R479). A trigger dropped under R484 uses
its target up too (DEDUCED, log 116). -/
def encCount (k now : Nat) (up : Bool) (s : State) : State :=
  let p := s.sport k
  let v := if up then p.encPos + 1 else p.encPos - 1
  let s1 := s.setSport k { p with encPos := v }
  if up && Fld p.trigCtl 0 3 == 1 && v == p.target then
    fireTrig k now (s1.setSport k { s1.sport k with target := p.target + p.armPeriod })
  else s1

/-- An edge of ENC_A or ENC_B (R477): ×4 counts every edge, ×2 the edges of A, ×1 the edges of A while B is low (log 29).
A change of one within 10 ns of the other's is an error and undoes the count; a trigger that the undone count fired stays
fired (DESIGN CHOICE, log 29). -/
def encEdge (k now : Nat) (isA : Bool) (s : State) : State :=
  let p := s.sport k
  let mode := Fld (w32 p.encCtl.toNat) 0 2
  let a := p.inLvl.getLsbD 0
  let b := p.inLvl.getLsbD 1
  if mode = 0 then s
  else if p.encStep != 0 && p.encWasA != isA && decide (now ≤ p.encStep - 1 + 4) then
    s.setSport k { p with encErr := satInc p.encErr, encPos := p.encWas, encStep := 0 }
  else
    let up := (if isA then a != b else a == b) != p.encCtl.getLsbD 2
    let counts := mode == 3 || (isA && (mode == 2 || !b))
    let s1 := s.setSport k { p with encStep := now + 1, encWasA := isA, encWas := p.encPos }
    if counts then encCount k now up s1 else s1

/-- The index edge (R477); with the encoder off (MODE 0) it does nothing (DEDUCED, log 29). -/
def encIndex (p : SPort) : SPort :=
  if Fld (w32 p.encCtl.toNat) 0 2 = 0 then p
  else { p with encIdx := p.encPos, encPos := if p.encCtl.getLsbD 3 then 0 else p.encPos }

/-- An edge of the trigger source 2 or 3 (R479): the e-th since arming. -/
def sourceEdge (k now src : Nat) (s : State) : State :=
  let p := s.sport k
  if Fld p.trigCtl 0 3 != src then s
  else
    let e := p.srcEdges
    let ph := if src = 2 then p.armPhase.toNat else 0
    let s1 := s.setSport k { p with srcEdges := e + 1 }
    if ph ≤ e ∧ (e - ph) % p.armPeriod.toNat = 0 then fireTrig k now s1 else s1

/-- An edge that an input function sees: 0 ENC_A, 1 ENC_B, 2 ENC_I, 3 PERF, 4 TRIG_IN. -/
def functionEdge (k now i : Nat) (rise : Bool) (s : State) : State :=
  let p := s.sport k
  match i with
  | 0 => encEdge k now true s
  | 1 => encEdge k now false s
  | 2 => if rise then s.setSport k (encIndex p) else s
  | 3 => if rise then sourceEdge k now 2 (s.setSport k { p with perf := p.perf + 1 }) else s
  | _ => if rise != bit p.trigCtl 3 then sourceEdge k now 3 s else s

/-- PIN_INPUT_EDGE (R478): the pin's level has changed for FILT steps and is accepted. In a hold the function that leaves the
pin still sees it (R475); in the step in which the hold ends it belongs to the new function (R492). -/
def pinEdge (k m ph : Nat) (level : Bool) (s : State) : State :=
  let key := k * 16 + m
  let s := pinHoldEnd k m ph s
  let x := s.pin key
  let s1 := s.setPin key { x with ext := level }
  if !(s.intakeOn k) || (s.pinDrive key).isSome || !(isInput x.act) then s1
  else
    let p := s1.sport k
    let i := x.act.toNat - 1
    let lv := level != x.actInv
    if p.inLvl.getLsbD i = lv then s1
    else functionEdge k (s.steps ph) i lv
      (s1.setSport k { p with inLvl := p.inLvl ^^^ BitVec.ofNat 5 (2 ^ i) })

def execPinInputEdge (k : Fin 8) (m : BitVec 4) (level : Bool) (ph : BitVec 2) (s : State) :
    Host.Outcome State Fault Refusal :=
  .next (pinEdge k.val m.toNat ph.toNat level s)

/-! ### Output edges (R476, R481) -/

/-- The first due edge of a list, and the others. -/
def takeDue (now : Nat) (l : List OutEdge) : Option (OutEdge × List OutEdge) :=
  let due := l.filter (fun e => decide (e.due ≤ now))
  match due with
  | [] => none
  | h :: t =>
    let e := t.foldl (fun a b => if b.due < a.due then b else a) h
    some (e, l.erase e)

/-- An edge of output i appears: the function's level changes; with no pin to show it, it is masked (R476). -/
def placeEdge (k i : Nat) (rise : Bool) (s : State) : State :=
  let p := s.sport k
  let f := BitVec.ofNat 4 (i + 6)
  let shown := (portPins k).any (fun z => (s.pin z).act == f && (s.pin z).hold == 0)
  s.setSport k { p with
    outLvl := if rise then p.outLvl ||| BitVec.ofNat 6 (2 ^ i) else p.outLvl &&& ~~~(BitVec.ofNat 6 (2 ^ i))
    masked := if shown then p.masked else satInc p.masked }

/-- CAP_STEP runs free (R481 mode 1). -/
def SPort.capRuns (p : SPort) : Bool := bit p.cap 0 && bit p.cap 2

/-- SCHEDULED_OUTPUT_EDGE (R481): the earliest edge that has fallen due is placed. -/
def outputEdge (k ph : Nat) (s : State) : State :=
  let p := s.sport k
  match takeDue (s.steps ph) p.sched with
  | none => s
  | some (e, rest) =>
    let add := fun (l : List OutEdge) => s.setSport k { p with sched := rest ++ l }
    if e.out = 6 then (if p.st = 2 then uplink k 3 [] (add []) else add [])
    else if e.out = 5 ∧ e.rise = true then
      placeEdge k 5 true (add ({ due := e.due + e.wide, out := 5, rise := false } ::
        (if e.left = 0 then [] else [{ e with due := e.due + e.gap, left := e.left - 1 }])))
    else if e.out = 7 ∧ e.rise = true then
      if p.capRuns then
        let gap := p.capInt.toNat
        placeEdge k 5 true (add [{ due := e.due + min (p.widthOf 5) (gap - 1), out := 7, rise := false },
          { e with due := e.due + gap }])
      else add []
    else placeEdge k (min e.out 5) e.rise (add [])

def execScheduledOutputEdge (k : Fin 8) (ph : BitVec 2) (s : State) : Host.Outcome State Fault Refusal :=
  .next (if s.intakeOn k.val then outputEdge k.val ph.toNat s else s)

/-- A write of CAP_CTL (R481, Table 13-7): free running begins one interval after RUN (DESIGN CHOICE, log 116). -/
def capWrite (k : Nat) (val : Word) (s : State) : Verdict :=
  let p := s.sport k
  if !(bit val 0) && Fld val 16 16 == 0 then .error 3
  else
    let q := { p with cap := val &&& 0xFFFF0007 }
    .ok (s.setSport k (if q.capRuns && !(p.sched.any (fun e => e.out == 7 && e.rise)) then
      { q with sched := q.sched ++ [{ due := s.steps 0 + p.capInt.toNat, out := 7, rise := true }] } else q))

/-- OUTPUT_OVERLOAD (R471): `m` a pin, or 16 the +5 V output. -/
def outputOverload (k m : Nat) (s : State) : State :=
  let p := s.sport k
  if m = 16 then
    if s.intakeOn k && !p.fault5v then portEvent k 0x0305 16 0 0 (s.setSport k { p with fault5v := true, fault5Tick := s.win.tb }) else s
  else if m < 16 ∧ (s.pinDrive (k * 16 + m)).isSome = true then
    portEvent k 0x0305 m 0 0 (s.setPin (k * 16 + m) { s.pin (k * 16 + m) with fault := true, faultTick := s.win.tb })
  else s

def execOutputOverload (k : Fin 8) (m : BitVec 5) (s : State) : Host.Outcome State Fault Refusal :=
  .next (outputOverload k.val m.toNat s)

/-- OUTPUT_FAULT_RETRY (R471): 10 ms (the +5 V output: 1 s) after the driver was switched off or last tried. FAULT clears at
a retry that does not fault. -/
def outputRetry (k m : Nat) (ok : Bool) (s : State) : State :=
  let p := s.sport k
  let x := s.pin (k * 16 + m)
  let due := fun (n : Nat) (t : DWord) => decide (n ≤ s.win.tb.toNat - t.toNat)
  if m = 16 then
    if p.fault5v && due 100000000 p.fault5Tick then s.setSport k { p with fault5v := !ok, fault5Tick := s.win.tb } else s
  else if m < 16 ∧ x.fault = true ∧ due 1000000 x.faultTick = true then
    s.setPin (k * 16 + m) { x with fault := !ok, faultTick := s.win.tb }
  else s

def execOutputFaultRetry (k : Fin 8) (m : BitVec 5) (ok : Bool) (s : State) : Host.Outcome State Fault Refusal :=
  .next (outputRetry k.val m.toNat ok s)

end Sys2Proof.Machine
end

