-- ==== Sys2Proof/Machine/Pixels.lean ====
section
/-! DEFINITION. What a develop pipeline computes: stages 1–10 (R513–R520), the formatters (R521–R523) and the metadata
record (R524). Every step is an fp32 operation of Table 3-4 whose flags are not reported (R510). -/

namespace Sys2Proof.Machine

/-- A plane or frame, by rows. -/
abbrev Img := List (List Word)

def px (i : Img) (x y : Nat) : Word := (i.getD y []).getD x zero32

/-- Fill a plane. -/
def mkImg (w h : Nat) (f : Nat → Nat → Word) : Img := (List.range h).map (fun y => (List.range w).map (fun x => f x y))

/-- Values without their flags. -/
def vAdd (a b : Word) : Word := (fAdd a b).1
def vSub (a b : Word) : Word := (fSub a b).1
def vMul (a b : Word) : Word := (fMul a b).1
def vFma (a b c : Word) : Word := (fFma a b c).1
def vRcp (a : Word) : Word := (fRcp a).1
def vClamp (x : Word) : Word := (fClamp x zero32 one32).1
def half32 : Word := 0x3F000000
def quarter32 : Word := 0x3E800000

/-- An exact n·2^e, rounded once. -/
def ratio32 (n : Int) (e : Int) : Word := (roundF32 (.fin (decide (n < 0)) n.natAbs e)).1

/-! ### Stages 1–4 (R513, R514) -/

/-- The code of a sample of a raw frame. -/
def RawFrame.sample (f : RawFrame) (x y : Nat) : Nat :=
  let b := f.fmt.bits
  bitsAt (fieldAt f.data (y * lineBytes f.w b + x * b / 8) 4) (x * b % 8) b

/-- An fp16 of a row-major table of the frame's size. -/
def slotTable (x : Pipe) (bank : Bool) (off w h : Nat) : Img :=
  let bs := x.bankBytes bank off (w * h * 2)
  mkImg w h (fun i j => (widen .f16 (fieldAt bs ((j * w + i) * 2) 2)).1)

/-- The coordinate a step d from x, or its mirror on the other side where that lies outside (R514, R516). -/
def mirror (n x : Nat) (d : Int) : Option Nat :=
  let a : Int := x + d
  let b : Int := x - d
  if 0 ≤ a ∧ a < n then some a.toNat else if 0 ≤ b ∧ b < n then some b.toNat else none

/-- A neighbour of a sample along x or y; with no neighbour in the frame on either side its value is open (log 5). -/
def nearX (ctr w : Nat) (v : Img) (x y : Nat) (d : Int) : Word :=
  match mirror w x d with | some a => px v a y | none => Config.freeSample ctr 0 x y
def nearY (ctr h : Nat) (v : Img) (x y : Nat) (d : Int) : Word :=
  match mirror h y d with | some a => px v x a | none => Config.freeSample ctr 1 x y

def mean2 (a b : Word) : Word := vMul (vAdd a b) half32
def mean4 (a b c d : Word) : Word := vMul (vAdd (vAdd a b) (vAdd c d)) quarter32

/-- The replacement of a listed sample (R514). -/
def defectAt (ctr w h : Nat) (v : Img) (d : Int) (x y meth : Nat) : Word :=
  let l := nearX ctr w v x y (-d)
  let r := nearX ctr w v x y d
  let u := nearY ctr h v x y (-d)
  let b := nearY ctr h v x y d
  match meth with
  | 0 => mean2 l r
  | 1 => mean2 u b
  | 2 => mean4 l r u b
  | _ => l

/-- Stages 1–4 of the frame at a position of its unit. The value of a sample that entries of different METHODs list is open
(R514 gives them no order; log 5). -/
def stages14 (ctr : Nat) (p : Pipe) (bank : Bool) (h : List Byte) (e : Nat) (f : RawFrame) : Img :=
  let w := hW h
  let t := hH h
  let s := hSlot h e
  let v1 := mkImg w t (fun x y => ratio32 (f.sample x y) (-(f.fmt.bits : Int)))
  let v2 := if hEn h 0 then
      let k := slotTable p bank (fieldAt h (136 + 4 * s) 4) w t
      mkImg w t (fun x y => vSub (px v1 x y) (px k x y))
    else v1
  let v3 := if hEn h 1 then
      let k := slotTable p bank (fieldAt h (152 + 4 * s) 4) w t
      mkImg w t (fun x y => vMul (px v2 x y) (px k x y))
    else v2
  if hEn h 2 then
    let n := fieldAt h 116 4
    let bs := p.bankBytes bank (fieldAt h 112 4) (n * 8)
    let list := (List.range n).map (fun i => (fieldAt bs (8 * i) 2, fieldAt bs (8 * i + 2) 2, fieldAt bs (8 * i + 4) 1))
    let d : Int := if hBayer h then 2 else 1
    mkImg w t (fun x y =>
      match list.filter (fun q => q.1 == x && q.2.1 == y && decide (q.2.2 < 4)) with
      | [] => px v3 x y
      | q :: more =>
        if more.all (fun r => r.2.2 == q.2.2) then defectAt ctr w t v3 d x y q.2.2 else Config.freeSample ctr 5 x y)
  else v3

/-! ### Stages 5–7 (R515–R517) -/

/-- The two-exposure merge of a sample (R515). -/
def merge (h : List Byte) (l s : Word) : Word :=
  let t0 := hF h 20
  let w := vClamp (vMul (vSub l t0) (vRcp (vSub (hF h 24) t0)))
  vFma w (vSub (vMul s (hF h 16)) l) l

/-- The merged frame of a long and, with HDR, a short position. -/
def mergedImg (h : List Byte) (fs : List Img) (long short : Option Nat) : Img :=
  match long, short with
  | some a, some b => mkImg (hW h) (hH h) (fun x y => merge h (px (fs.getD a []) x y) (px (fs.getD b []) x y))
  | some a, none => fs.getD a []
  | none, some b => fs.getD b []
  | none, none => []

/-- The colour at a site of the Bayer cell: 0 R, 1 G, 2 B (Table 14-2). -/
def siteColour (cfa x y : Nat) : Nat :=
  let cell := match cfa with
    | 0 => [0, 1, 1, 2] | 1 => [1, 0, 2, 1] | 2 => [1, 2, 0, 1] | _ => [2, 1, 1, 0]
  cell.getD (y % 2 * 2 + x % 2) 0

/-- Bilinear demosaic of one colour at a site (R516). The four diagonal neighbours are added as the pair above and the pair
below (DESIGN CHOICE, log 117). -/
def demosaic (ctr : Nat) (h : List Byte) (v : Img) (c x y : Nat) : Word :=
  let w := hW h
  let t := hH h
  let own := siteColour (hCfa h) x y
  let l := nearX ctr w v x y (-1)
  let r := nearX ctr w v x y 1
  let u := nearY ctr t v x y (-1)
  let d := nearY ctr t v x y 1
  let diag := fun (dx dy : Int) =>
    match mirror w x dx, mirror t y dy with | some a, some b => px v a b | _, _ => Config.freeSample ctr 2 x y
  if own = c then px v x y
  else if c = 1 then mean4 l r u d
  else if own = 1 then (if siteColour (hCfa h) (x + 1) y = c then mean2 l r else mean2 u d)
  else mean4 (diag (-1) (-1)) (diag 1 (-1)) (diag (-1) 1) (diag 1 1)

/-- The planes R, G, B, IR of a unit (R516). -/
def planesOf (ctr : Nat) (h : List Byte) (fs : List Img) : List Img :=
  if hBayer h then
    let m := mergedImg h fs ((hRoles h).find? (fun e => !(hShort h e))) ((hRoles h).find? (fun e => hShort h e))
    [0, 1, 2].map (fun c => mkImg (hW h) (hH h) (demosaic ctr h m c))
  else [0, 1, 2, 3].map (fun c => mergedImg h fs (planeRoles h c false).head? (planeRoles h c true).head?)

/-- The dust plane (R517); its value with DUST_EN 0 is open. -/
def dustPlane (ctr : Nat) (h : List Byte) (ir : Img) : Img :=
  mkImg (hW h) (hH h) (fun x y =>
    if hEn h 3 then vClamp (vMul (vSub (hF h 28) (px ir x y)) (hF h 32)) else Config.freeSample ctr 3 x y)

/-! ### Stages 8 and 9 (R518, R519) -/

/-- The first crossing of a profile (R518): none where there is none, or where the lowest equals the highest value. -/
def edgeOf (v : List Word) : Option Word :=
  match v with
  | [] => none
  | a :: t =>
    let lo := t.foldl (fun m x => (fMin m x).1) a
    let hi := t.foldl (fun m x => (fMax m x).1) a
    let m := vMul (vAdd lo hi) half32
    if (fCmp eqV lo hi).1 then none
    else
      let at_ := fun (n : Nat) => v.getD n zero32
      match (List.range (v.length - 1)).find? (fun n => (fCmp ltV (at_ n) m).1 != (fCmp ltV (at_ (n + 1)) m).1) with
      | some n => some (vAdd (f32Int n) (vMul (vSub m (at_ n)) (vRcp (vSub (at_ (n + 1)) (at_ n)))))
      | none => none

/-- q64 in units of 1/64: the nearest multiple, clamped to [−64, 64] (R518). -/
def q64 (u : Word) : Int := max (-4096) (min 4096 (toIntRange (-8192) 8192 (val32 (vMul u 0x42800000))).1)

/-- The offsets of a unit in units of 1/64, and LOCATE_FAIL (R518). -/
def locate (h : List Byte) (g : Img) : Int × Int × Bool :=
  let wx := fieldAt h 36 2
  let wy := fieldAt h 38 2
  let ww := fieldAt h 40 2
  let wh := fieldAt h 42 2
  let p := (List.range ww).map (fun c => (List.range wh).foldl (fun a r => vAdd a (px g (wx + c) (wy + r))) zero32)
  let q := (List.range wh).map (fun r => (List.range ww).foldl (fun a c => vAdd a (px g (wx + c) (wy + r))) zero32)
  match edgeOf p, edgeOf q with
  | some a, some b =>
    (q64 (vSub (vAdd (f32Int wx) a) (hF h 44)), q64 (vSub (vAdd (f32Int wy) b) (hF h 48)), false)
  | _, _ => (0, 0, true)

/-- The Catmull–Rom weights of a phase of p/64 (R519). -/
def crWeight (p a : Nat) : Word :=
  let f : Int := p
  let n : Int := match a with
    | 0 => -f ^ 3 + 2 * 64 * f ^ 2 - 64 ^ 2 * f
    | 1 => 3 * f ^ 3 - 5 * 64 * f ^ 2 + 2 * 64 ^ 3
    | 2 => -3 * f ^ 3 + 4 * 64 * f ^ 2 + 64 ^ 2 * f
    | _ => f ^ 3 - 64 * f ^ 2
  ratio32 n (-19)

def clampTo (n : Nat) (v : Int) : Nat := (max 0 (min v ((n : Int) - 1))).toNat

/-- Stage 9 on one plane: the shift by dx, dy in 1/64. -/
def shiftImg (w h : Nat) (dx dy : Int) (v : Img) : Img :=
  mkImg w h (fun x y =>
    let sx : Int := 64 * x + dx
    let sy : Int := 64 * y + dy
    let row := fun (yy : Nat) => (List.range 4).foldl (fun acc a =>
      vFma (crWeight (sx % 64).toNat a) (px v (clampTo w (sx / 64 + a - 1)) yy) acc) zero32
    (List.range 4).foldl (fun acc b =>
      vFma (crWeight (sy % 64).toNat b) (row (clampTo h (sy / 64 + b - 1))) acc) zero32)

/-! ### Stage 10 (R520) -/

/-- CMAT, LUT1 and LUT3 on one triple. -/
def colour (h : List Byte) (luts : List (List Byte)) (l3 : List Byte) (t : Word × Word × Word) : List Word :=
  let a := [t.1, t.2.1, t.2.2]
  let tri := fun (l : List Word) => ((l.getD 0 0).toNat, (l.getD 1 0).toNat, (l.getD 2 0).toNat)
  let b := if hEn h 5 then (cmat (fun i => hF h (64 + 4 * i)) (tri a)).1.map w32 else a
  let c := if hEn h 6 then
      b.zipIdx.map (fun p => (lut1 (fun i => blobW (luts.getD p.2 []) i) (hF h 124) (hF h 128) p.1).1)
    else b
  if hEn h 7 then (lut3 l3 (tri c)).1.map w32 else c

/-- What a unit develops to: the planes R, G, B, IR, dust after stage 10, the offsets and LOCATE_FAIL. -/
structure Developed where
  planes : List Img
  dx : Int
  dy : Int
  fail : Bool

/-- Stages 1–10 of a unit. -/
def develop (ctr : Nat) (p : Pipe) (bank : Bool) (frames : List RawFrame) : Developed :=
  let h := p.header bank
  let w := hW h
  let t := hH h
  let fs := frames.zipIdx.map (fun x => stages14 ctr p bank h x.2 x.1)
  let pl := planesOf ctr h fs
  let all := pl.take 3 ++ [pl.getD 3 []] ++ [dustPlane ctr h (pl.getD 3 [])]
  let o := if hEn h 4 then locate h (all.getD 1 []) else (0, 0, false)
  let sh := if hEn h 4 then all.map (fun v => if v.isEmpty then v else shiftImg w t o.1 o.2.1 v) else all
  let off := fieldAt h 120 4
  let luts := if hEn h 6 then [0, 1, 2].map (fun c => p.bankBytes bank (off + c * 16384) 16384) else []
  let l3 := if hEn h 7 then p.bankBytes bank (fieldAt h 132 4) 287496 else []
  let rgb := (List.range t).map (fun y => (List.range w).map (fun x =>
    colour h luts l3 (px (sh.getD 0 []) x y, px (sh.getD 1 []) x y, px (sh.getD 2 []) x y)))
  let out := fun (c : Nat) => rgb.map (fun row => row.map (fun v => v.getD c 0))
  { planes := [out 0, out 1, out 2, sh.getD 3 [], sh.getD 4 []], dx := o.1, dy := o.2.1, fail := o.2.2 }

/-! ### Stage 11: the formatters (R521–R524) -/

/-- One output sample along an axis of crop length C and output length O (R522). -/
def scaleAt (coef : Nat → Nat → Word) (taps c o : Nat) (i : Nat) (src : Nat → Word) : Word :=
  if o = c then src i
  else
    let p64 : Int := (((2 * i + 1) * c * 64 / (2 * o) : Nat) : Int) - 32
    let ph := (p64 % 64).toNat
    (List.range taps).foldl (fun acc t =>
      vFma (coef ph t) (src (clampTo c (p64 / 64 - (taps : Int) / 2 + 1 + t))) acc) zero32

/-- A plane cropped and scaled, horizontally first. -/
def scaleImg (coef : Nat → Nat → Word) (f : Fmtr) (v : Img) : Img :=
  let a := mkImg f.ow f.ch (fun x y => scaleAt coef f.taps f.cw f.ow x (fun i => px v (f.cx + i) (f.cy + y)))
  mkImg f.ow f.oh (fun x y => scaleAt coef f.taps f.ch f.oh y (fun j => px a x j))

/-- The bytes of a pixel in a pack code (Table 14-5). -/
def packPx (code : Nat) (v : List Word) : List Byte :=
  let at_ := fun (i : Nat) => v.getD i zero32
  let half := fun (w : Word) => toLE 2 (narrow .f16 w).1
  let c16 := fun (w : Word) => toLE 2 (filmCode 0x477FFF00 w).1
  match code with
  | 0 => toLE 4 (at_ 0).toNat ++ toLE 4 (at_ 1).toNat ++ toLE 4 (at_ 2).toNat
  | 1 => half (at_ 0) ++ half (at_ 1) ++ half (at_ 2) ++ toLE 2 0
  | 2 => c16 (at_ 0) ++ c16 (at_ 1) ++ c16 (at_ 2) ++ toLE 2 0
  | 3 =>
    let q := fun (w : Word) => (filmCode 0x447FC000 w).1
    toLE 4 (q (at_ 0) * 2 ^ 22 + q (at_ 1) * 2 ^ 12 + q (at_ 2) * 4)
  | 4 => toLE 4 (at_ 0).toNat
  | 5 => half (at_ 0)
  | 6 => c16 (at_ 0)
  | _ => toLE 1 (filmCode 0x437F0000 (at_ 0)).1

/-- The lines of a formatter's output (R521–R523). -/
def fmtLines (p : Pipe) (bank : Bool) (f : Fmtr) (d : Developed) : List (List Byte) :=
  let bs := if f.scales then p.bankBytes bank f.filt (64 * f.taps * 4) else []
  let coef := fun (ph t : Nat) => w32 (fieldAt bs ((ph * f.taps + t) * 4) 4)
  let ps := (if f.src = 0 then [0, 1, 2] else [f.src - 1]).map (fun c => scaleImg coef f (d.planes.getD c []))
  (List.range f.oh).map (fun y => ((List.range f.ow).map (fun x => packPx f.pack (ps.map (fun v => px v x y)))).flatten)

/-- Version of the running image of a component's instance (R524). -/
def State.runVersion (s : State) (comp idx : Nat) : Word := (s.inst (comp * 128 + idx)).run

/-- The metadata record of a unit (R524): `k` the context, `pl` the pipeline that developed it. -/
def metaRec (s : State) (k pl : Nat) (e : Dev) (d : Developed) : List Byte :=
  let h := (s.pipe k).header e.bank
  let f : Option RawFrame := e.frames.head?
  let off := fun (i : Nat) (v : Int) =>
    if hEn h 4 then (ratio32 v (-6)).toNat else (Config.freeSample s.freeCtr 4 i 0).toNat
  toLE 4 (f.elim 0 RawFrame.num).toNat ++
  toLE 1 (k % 4 + k / 4 * 4 + b2n (hHdr h) * 8 + hUnit h * 16) ++
  toLE 1 (b2n d.fail + b2n e.bank * 2 + b2n e.pool * 4) ++ toLE 2 (pl % 4) ++
  toLE 8 (f.elim 0 RawFrame.tb).toNat ++ toLE 4 (off 0 d.dx) ++ toLE 4 (off 1 d.dy) ++
  toLE 4 e.gen.toNat ++ toLE 4 (s.runVersion 7 (k / 4)).toNat ++ toLE 4 (s.runVersion 4 pl).toNat ++ List.replicate 28 0

end Sys2Proof.Machine
end

