-- ==== Sys2Proof/Machine/Develop.lean ====
section
/-! DEFINITION. The develop pipelines: taking units (R507, R509), their last write (R521–R524, R532), markers (R488, R509),
the life cycle (R530, R531, R537), banks and their loads (R525, R527) and what whiteout does (R540). -/

namespace Sys2Proof.Machine

/-- Pages of a context (R533). -/
def ctxPage (k : Nat) : Nat := 0xE0000 + k / 4 * 0x8000 + (k % 4 + 1) * 0x1000

/-! ### Readiness and taking (R507, R509) -/

/-- The formatters of a context that take frames: sampled and not stopped (R529). -/
def Pipe.live (x : Pipe) : List (Nat × Nat) := x.bound.filter (fun b => !(x.stopped.contains b.1))

/-- The IX_FRAME of a ring that would be given the next frame: dispatched and not yet given one, first in ring order. -/
def State.openFrame (s : State) (r : Nat) : Option Cmd :=
  (s.ring r).inProg.find? (fun c => opOf c.bytes == some .ixFrame && !c.begun)

/-- The head of a context's queue is ready (R509). -/
def State.headReady (s : State) (k : Nat) : Bool := (s.pipe k).live.all (fun b => (s.openFrame b.2).isSome)

/-- The head is a unit and is ready. -/
def State.unitReady (s : State) (k : Nat) : Bool :=
  match (s.pipe k).head? with
  | some (.unit _ _ _) => s.headReady k
  | _ => false

/-- A pipeline is ON and free. -/
def State.pipeFree (s : State) (pl : Nat) : Bool := (s.pipe pl).obj.st == .on && (s.pipe pl).dev.isNone

/-- The context whose unit a free pipeline takes next (R507). -/
def State.takes (s : State) (pl : Nat) : Option Nat :=
  let t := pl / 4
  let i := s.intake t
  if !(s.intakeOn pl) || !(s.pipeFree pl) then none
  else if !i.mode || pl % 4 == 0 then (if s.unitReady pl then some pl else none)
  else if [1, 2, 3].any (fun q => decide (q < pl % 4) && s.pipeFree (t * 4 + q)) then none
  else ([1, 2, 3].map (fun j => t * 4 + (i.lastPool + j - 1) % 3 + 1)).find? (fun k =>
    (s.pipe k).obj.st == .on && s.unitReady k)

/-- UNIT_TAKEN (R507, R509): each formatter's first open IX_FRAME is given the frame. -/
def takeUnit (pl : Nat) (s : State) : State :=
  match s.takes pl with
  | none => s
  | some k =>
    match (s.pipe k).head? with
    | some (.unit fs bank gen) =>
      let outs := (s.pipe k).live.filterMap (fun b => (s.openFrame b.2).map (fun c => (b.1, b.2, c.seq)))
      let s1 := outs.foldl (fun a o => modCmd o.2.1 o.2.2 (fun c => { c with begun := true }) a) s
      let s2 := s1.setPipe k { s1.pipe k with queue := (s1.pipe k).queue.drop 1 }
      let pool := (s.intake (pl / 4)).mode && pl % 4 != 0
      let s3 := s2.setPipe pl { s2.pipe pl with
        dev := some { ctx := k, frames := fs, bank := bank, gen := gen, outs := outs, pool := pool } }
      if pool then s3.setIntake (pl / 4) { s3.intake (pl / 4) with lastPool := k % 4 } else s3
    | _ => s

def execUnitTaken (pl : Fin 8) (s : State) : Host.Outcome State Fault Refusal := .next (takeUnit pl.val s)

/-- EARLY_END_MARKER_REPORT (R488, R509): one IX_FRAME of each formatter completes with IX_ABORTED and the frame's number. -/
def reportMarker (k : Nat) (s : State) : State :=
  let x := s.pipe k
  match x.head? with
  | some (.marker num) =>
    if s.intakeOn k && x.obj.st == .on && s.headReady k then
      x.live.foldl (fun a b =>
        match a.openFrame b.2 with
        | some c => complete b.2 c.seq 0x800 num a
        | none => a) (s.setPipe k { x with queue := x.queue.drop 1 })
    else s
  | _ => s

def execEarlyEndMarkerReport (k : Fin 8) (s : State) : Host.Outcome State Fault Refusal := .next (reportMarker k.val s)

/-! ### The last write (R521–R524, R528, R532) -/

/-- One write of a stream from an intake tray to partition memory: calm-class fabric traffic (Table 11-3, R528). -/
def trayWrite (who : Who) (mods : List Nat) (t pa : Nat) (bytes : List Byte) (s : State) : State :=
  let w := modWin mods pa
  inject (fromTray t w (writePkt s who ⟨w, 0, 0⟩ ⟨w, bitsAt pa 35 2, bitsAt pa 33 2⟩ true 0 0 pa bytes) s) s

/-- The bytes of one formatter's frame, by offset in the buffer (R523, R524): its lines, then the metadata record. -/
def frameRuns (stride : Nat) (lines : List (List Byte)) (meta_ : List Byte) : List (Nat × List Byte) :=
  lines.zipIdx.map (fun p => (p.2 * stride, p.1)) ++ (if meta_.isEmpty then [] else [(lines.length * stride, meta_)])

/-- Write one formatter's frame and complete its IX_FRAME (R307, R308): with IX_TRUNC where the frame does not fit. -/
def writeFrame (k t : Nat) (num : Word) (lines : List (List Byte)) (meta_ : List Byte) (f r : Nat) (seq : DWord)
    (s : State) : State :=
  match s.cmd? r seq with
  | none => s
  | some c =>
    if c.done then s
    else
      let i := ixFrOf c.bytes
      let runs := frameRuns i.stride lines meta_
      let trunc := runs.any (fun x => decide (i.maxBytes < x.1 + x.2.length))
      let s1 := runs.foldl (fun a x =>
        (chop (i.dst + x.1) (x.2.take (i.maxBytes - x.1))).foldl (fun b w => trayWrite (s.whoOf r seq) c.mods t w.1 w.2 b) a) s
      let x := s1.pipe k
      complete r seq (if trunc then 0x400 else 0) num
        (s1.setPipe k { x with fmtFrames := tset 0 f (tget 0 f x.fmtFrames + 1) x.fmtFrames })

/-- UNIT_LAST_WRITE (R532): stages 1–11 of the unit in development. With REG_EN it waits for the intake C8 (R535). -/
def lastWrite (pl : Nat) (s : State) : State :=
  let t := portIntake pl
  match (s.pipe pl).dev with
  | none => s
  | some e =>
    let k := e.ctx
    let x := s.pipe k
    let h := x.header e.bank
    if !(s.intakeOn pl) || (hEn h 4 && !(s.intake (pl / 4)).c8) then s
    else
      let d := develop s.freeCtr x e.bank e.frames
      let num := e.frames.head?.elim 0 RawFrame.num
      let s1 := { s with freeCtr := s.freeCtr + 1 }
      let s2 := e.outs.foldl (fun a o =>
        let f := fmtrOf h o.1
        writeFrame k t num (fmtLines x e.bank f d) (if f.meta_ then metaRec s k pl e d else []) o.1 o.2.1 o.2.2 a) s1
      let y := s2.pipe pl
      s2.setPipe pl { y with
        dev := none, units := y.units + 1, locFail := if d.fail then satInc y.locFail else y.locFail }

def execUnitLastWrite (pl : Fin 8) (s : State) : Host.Outcome State Fault Refusal := .next (lastWrite pl.val s)

/-! ### Life cycle (R501, R528–R531, R537) -/

/-- The formatters whose BIND has EN, with their rings. -/
def Pipe.binds (x : Pipe) : List (Nat × Nat) :=
  ([0, 1, 2, 3, 4, 5].filter (fun f => bit (tget 0 f x.bind) 12)).map (fun f => (f, Fld (tget 0 f x.bind) 0 12))

/-- Another enabled binding of the machine names a ring (R530). -/
def State.ringTaken (s : State) (k f r : Nat) : Bool :=
  (List.range 8).any (fun j =>
    (s.pipe j).binds.any (fun b => b.2 == r && (j != k || b.1 != f)) ||
    (j != k && (s.pipe j).obj.st != .off && (s.pipe j).bound.any (fun b => b.2 == r)))

/-- A pipeline's enable takes effect (R508, R528): the bindings are sampled, units form anew; a ring that has left ON stops
its formatter (R529). -/
def startPipe (k : Nat) (s : State) : State :=
  let x := s.pipe k
  let s1 := reform k (s.setPipe k { x with obj := { st := .on }, bound := x.binds, stopped := [] })
  x.binds.foldl (fun a b => if (a.ring b.2).obj.st == .on then a else streamUnbound b.2 a) s1

/-- PIPE_CTL.EN (R530, R185). An enable waits, PENDING, for the load of new tables (R756). -/
def pipeEnable (k : Nat) (s : State) : Verdict :=
  let x := s.pipe k
  if x.obj.st = .on ∨ x.obj.pending = true then .ok s
  else if !(headerOk (x.header x.bank) (x.binds.map (·.1))) ||
      x.binds.any (fun b => (s.ring b.2).obj.st != .on || (s.ring b.2).ctx.engine != Eng.code .ix || s.ringTaken k b.1 b.2) then
    .error 5
  else if x.obj.st = .off && !(s.reloading 4 k) then .ok (startPipe k s)
  else .ok (s.setPipe k { x with obj := { x.obj with pending := true } })

def execPipeEnable (port : BitVec 4) (k : Fin 8) (s : State) : Host.Outcome State Fault Refusal :=
  .next (trayOp (portIntake k.val) port.toNat (ctxPage k.val) 1 (pipeEnable k.val s) s)

/-- A unit that a pipeline's disable waits for: its own, or one of its context's in a pool pipeline (R531). -/
def State.pipeWorks (s : State) (k : Nat) : Bool :=
  (s.pipe k).dev.isSome || [0, 1, 2, 3].any (fun p => ((s.pipe (k / 4 * 4 + p)).dev.map (fun e => e.ctx)) == some k)

/-- A load stops with RESULT 1 (R537, R540). -/
def stopLoad (k : Nat) (s : State) : State :=
  let x := s.pipe k
  if x.loadBusy then
    dropReads (fun r => r.purpose == .bank (portIntake k) (k % 4)) (s.setPipe k { x with loadBusy := false, loadResult := 1 })
  else s

/-- A pipeline goes OFF. -/
def pipeOff (k : Nat) (s : State) : State :=
  modePoint (portIntake k) (s.setPipe k { parkLoose (s.pipe k) with obj := {}, bound := [], stopped := [] })

/-- PIPE_CTL.DIS (R531, R537). -/
def pipeDisable (k : Nat) (s : State) : Verdict :=
  let x := s.pipe k
  match x.obj.st with
  | .off | .winding => .ok (s.setPipe k { x with obj := { x.obj with pending := false } })
  | .on =>
    let s1 := if x.loadBank == x.bank then stopLoad k s else s
    .ok (if s1.pipeWorks k then s1.setPipe k { s1.pipe k with obj := { st := .winding } } else pipeOff k s1)

def execPipeDisable (port : BitVec 4) (k : Fin 8) (s : State) : Host.Outcome State Fault Refusal :=
  .next (trayOp (portIntake k.val) port.toNat (ctxPage k.val) 2 (pipeDisable k.val s) s)

/-- PIPE_WIND_DOWN_DONE (R531, R185). -/
def pipeDown (k : Nat) (s : State) : State :=
  let x := s.pipe k
  if x.obj.st != .winding || s.pipeWorks k then s
  else if x.obj.pending then startPipe k (s.setPipe k (parkLoose x))
  else pipeOff k s

def execPipeWindDownDone (k : Fin 8) (s : State) : Host.Outcome State Fault Refusal := .next (pipeDown k.val s)

/-! ### Banks (R525, R527) -/

/-- A write of PIPE_BANK.REQ (R527). -/
def bankWrite (k : Nat) (b : Bool) (s : State) : Verdict :=
  let x := s.pipe k
  if b = x.bank then .ok s
  else if !(x.bankOk b) then .error 5
  else if x.loadBusy && x.loadBank == b then .error 4
  else if x.obj.st = .off then .ok (s.setPipe k { x with bank := b, req := b, gen := x.gen + 1 })
  else .ok (s.setPipe k { x with req := b })

def execPipeBankWrite (port : BitVec 4) (k : Fin 8) (val : Word) (s : State) : Host.Outcome State Fault Refusal :=
  .next (trayOp (portIntake k.val) port.toNat (ctxPage k.val + 8) val.toNat (bankWrite k.val (bit val 0) s) s)

/-- A host read of the machine's own, through PF0 of the control host's port (R525, R725, R754); it waits until the function
can take it. -/
def ctlRead (addr : DWord) (len : Nat) (pu : RdPurpose) (s : State) : State :=
  let q := s.ctlPort
  let can := s.ctlCan
  let rd : HRead :=
    { tenant := none, port := q, fn := 0, addr := addr, len := len, purpose := pu, sent := can, tick := s.win.tb }
  let s1 := { s with reads := tset none s.nextRead (some rd) s.reads, nextRead := s.nextRead + 1 }
  if can then emitRead q 0 addr len s1 else s1

/-- PIPE_LOAD_CTL.GO (R525). -/
def bankGo (k : Nat) (b : Bool) (s : State) : Verdict :=
  let x := s.pipe k
  let dst := x.loadDst.toNat
  let len := x.loadLen.toNat
  if len = 0 ∨ 2 ^ 32 < dst + len then .error 3
  else if x.loadBusy then .error 4
  else if b == x.bank && x.obj.busy then .error 5
  else .ok (ctlRead x.loadSrc len (.bank (portIntake k) (k % 4)) (s.setPipe k { x with
    loadBusy := true, loadBank := b, runSrc := x.loadSrc, runDst := dst, runLen := len, loadDone := 0 }))

def execBankLoad (port : BitVec 4) (k : Fin 8) (bank : Bool) (s : State) : Host.Outcome State Fault Refusal :=
  .next (trayOp (portIntake k.val) port.toNat (ctxPage k.val + 0x20) (1 + 2 * b2n bank) (bankGo k.val bank s) s)

/-- The bytes of a load that have been read are written into its bank. -/
def bankFill (k : Nat) (data : List Byte) (s : State) : State :=
  let x := s.pipe k
  let d := data.take (x.runLen - x.loadDone)
  s.setPipe k { x with
    mem := putBytes x.mem (b2n x.loadBank * 2 ^ 32 + x.runDst + x.loadDone) d, loadDone := x.loadDone + d.length }

/-- BANK_LOAD_COMPLETE (R525): `data` is what was read, all of it or up to the read that failed. -/
def bankLoaded (k : Nat) (data : List Byte) (failed : Bool) (s : State) : State :=
  let x := s.pipe k
  match s.readFor (fun u => u == .bank (portIntake k) (k % 4)) with
  | none => s
  | some (id, h) =>
    if !x.loadBusy || !h.sent || (!failed && x.loadDone + data.length != x.runLen) then s
    else
      let s1 := bankFill k data (endRead id s)
      let y := s1.pipe k
      let s2 := s1.setPipe k { y with loadBusy := false, loadResult := if failed then 2 else 0 }
      if failed then portEvent k 0x0314 2 (x.runSrc + w64 y.loadDone) 0 s2 else s2

def execBankLoadComplete (k : Fin 8) (data : List Byte) (failed : Bool) (s : State) : Host.Outcome State Fault Refusal :=
  .next (bankLoaded k.val data failed s)

/-- FRAME_DROPPED_REPORT (R505): at most once a second. -/
def dropReport (k : Nat) (s : State) : State :=
  let x := s.pipe k
  if x.dropRun != 0 && (x.dropTick == 0 || decide (x.dropTick - 1 + 100000000 ≤ s.win.tb.toNat)) then
    portEvent k 0x0311 0 0 x.dropRun (s.setPipe k { x with dropRun := 0, dropTick := s.win.tb.toNat + 1 })
  else s

def execFrameDroppedReport (k : Fin 8) (s : State) : Host.Outcome State Fault Refusal := .next (dropReport k.val s)

/-! ### Whiteout (R540) -/

/-- The position-0 frame number of a unit. -/
def QItem.unitNum : QItem → Option Word
  | .unit fs _ _ => fs.head?.map RawFrame.num
  | _ => none

/-- Whiteout on one context: every unit and marker is discarded, and its load stops with RESULT 1. The units are counted with
cause 4; a marker is no unit (DEDUCED, log 117). -/
def whitePipe (k : Nat) (s : State) : State :=
  let x := s.pipe k
  let nums := x.queue.filterMap QItem.unitNum ++ (x.loose.head?.map RawFrame.num).toList
  let s1 := stopLoad k (s.setPipe k { x with queue := [], loose := [] })
  let s2 := nums.foldl (fun a n => discardUnit k 4 n a) s1
  if (s2.pipe k).obj.st = .off then s2.setPipe k { s2.pipe k with sync := false } else s2

def whiteIntake (s : State) : State := (List.range 8).foldl (fun a k => whitePipe k a) s

end Sys2Proof.Machine
end

