-- ==== Sys2Proof/Machine/Roles.lean ====
section
/-! DEFINITION. The stewards' roles: succession (R648, R656), switch-back (R657) and the epoch (R658). -/

namespace Sys2Proof.Machine

/-- The order of succession of a role, counted onward from a channel: A, B, C for the spokesman; B, C, A for the cooling
authority goes round in the same direction (R648, R656). -/
def onward (c : Nat) : List Nat := [(c + 1) % 3, (c + 2) % 3]

/-- A channel is healthy, in path alarm counted: alarm moves no role (R653, R654). -/
def State.chanUp (s : State) (c : Nat) : Bool := (s.stew c).up

/-- The next healthy channel onward from one, 3 none. -/
def State.heir (s : State) (c : Nat) : Nat := ((onward c).find? (fun d => s.chanUp d)).getD 3

/-- ROLE_CHANGED (Table 18-6): role 0 spokesman, 1 cooling authority. -/
def roleChanged (role old new cause : Nat) (s : State) : State :=
  machineEvent 0x0604 0 (role + old * 2 + new * 8 + cause * 32) none (w64 s.stw.epoch.toNat) 0 s

/-- A channel takes the spokesman role (R656–R658): the epoch is one more than the highest seen. -/
def giveSpokes (new cause : Nat) (s : State) : State :=
  let old := s.stw.spokes
  roleChanged 0 old new cause
    { s with stw := { s.stw with spokes := new, epoch := if new < 3 then s.stw.epoch + 1 else s.stw.epoch } }

/-- A channel takes the cooling authority, from the applied values (R656, R657). -/
def giveCool (new cause : Nat) (s : State) : State :=
  let old := s.stw.cool
  roleChanged 1 old new cause { s with stw := { s.stw with cool := new } }

/-- A channel's roles pass to the next healthy channel onward (R656), or are handed on (R756). -/
def passRoles (c cause : Nat) (s : State) : State :=
  let s1 := if s.stw.spokes = c then giveSpokes (s.heir c) cause s else s
  if s1.stw.cool = c then giveCool (s1.heir c) cause s1 else s1

end Sys2Proof.Machine
end

