-- ==== Sys2Proof/Machine/Update.lean ====
section
/-! DEFINITION. Field update (ch. 21): MOVING (R767, R768), refusal (R752), delivery and the header's checks (R750, R754),
staging, install, switching, trial (R755–R759), confirmation and fall-back (R760, R761), cancellation (R770) and whiteout
(R774). -/

namespace Sys2Proof.Machine

/-! ### Conditions (Table 21-4) -/

/-- MOVING (R767): the tilt latch or the transport switch. -/
def State.moving (s : State) : Bool := s.upd.tilt || s.upd.switch

/-- The refusal conditions of causes 1–5 (Table 21-4), the least that holds. -/
def State.updCond (s : State) : Option Nat :=
  if s.moving then some 1
  else if s.pwr.battery < 40 then some 2
  else if s.upd.lock then some 3
  else if 1 ≤ s.pwr.sag then some 4
  else if s.keys.white then some 5
  else none

/-- Some component awaits confirmation (R760). -/
def State.updAwaits (s : State) : Bool := s.upd.phase != 0

/-- The refusal of an update at its start (R752). A steward parcel is judged further as its header is read. -/
def State.updRefused (s : State) : Option Nat :=
  match s.updCond with
  | some c => some c
  | none => if s.updAwaits then some 6 else if !s.majority then some 7 else none

/-- A channel that is not being restarted by the update is not up: a steward update waits for three (R777). -/
def State.stewardDown (s : State) : Bool :=
  [0, 1, 2].any (fun c => !(s.chanUp c) && !(s.reloading 1 c))

/-- UPD_STATUS.PAUSED (R759, R772, R773, R777): in phases 2–4 a condition holds, or the stewards have no majority, or a
deferred write waits, or bring-up runs. -/
def State.updPaused (s : State) : Bool :=
  (s.upd.phase == 2 || s.upd.phase == 3 || s.upd.phase == 4) &&
    (s.updCond.isSome || !s.majority || decide (s.waitingWrites ≠ 0) || s.boot.stage != 11 || s.boot.st != 1 ||
      (s.upd.comp == 1 && s.stewardDown))

/-! ### Events and ends -/

/-- VERSION of the parcel in hand, 0 with none read. -/
def State.updVersion (s : State) : Word := if s.upd.header.isEmpty then 0 else hdrVersion s.upd.header

/-- The answer of a Redfish push, whose request stands open until the header is judged (R754). -/
def updAnswer (code : Nat) (s : State) : State :=
  if s.upd.path = 1 ∧ s.upd.phase = 1 then rfAnswer s.upd.sess code [] s else s

/-- The update returns to phase 0 and its incoming area is cleared. -/
def updIdle (s : State) : State :=
  dropReads (fun r => r.purpose == .parcel) { s with upd := { s.upd with
    phase := 0, comp := 0, header := [], bytes := 0, inst := none, failed := none, failDue := none, returned := 0 } }

/-- UPDATE_REFUSED (R752): the cause is kept, and nothing else changes. -/
def refuse (comp cause : Nat) (version : Word) (s : State) : State :=
  machineEvent 0x0901 0 (comp + cause * 8) none (w64 version.toNat) 0
    { s with upd := { s.upd with cause := BitVec.ofNat 5 cause } }

/-- HTTP status of a refusal (R752). -/
def refusalCode (cause : Nat) : Nat := if cause = 7 then 503 else 400

/-- Instances switched. -/
def State.switchedCount (s : State) : Nat :=
  ((instList s.upd.comp).filter (fun i => (s.inst (instKey s.upd.comp i)).switched)).length

/-- UPDATE_ABORTED (Table 21-8). -/
def abortEvent (cause : Nat) (s : State) : State :=
  machineEvent 0x0904 0 (s.upd.comp + cause * 8) none (w64 s.updVersion.toNat) (w32 s.switchedCount)
    { s with upd := { s.upd with cause := BitVec.ofNat 5 cause } }

/-- Clear the inactive slots that an install in progress has begun to write (R770, R774). -/
def clearSlots (s : State) : State :=
  (instList s.upd.comp).foldl (fun a i =>
    let k := instKey a.upd.comp i
    if a.instHere a.upd.comp i then a.setInst k { a.inst k with other := none, written := false, skipped := false } else a) s

/-- The update is ended in phases 1–3 with UPDATE_ABORTED (R770, R772–R774). -/
def abortUpdate (cause : Nat) (s : State) : State :=
  let s1 := abortEvent cause s
  updIdle (if s.upd.phase = 3 then clearSlots s1 else updAnswer 400 s1)

/-! ### MOVING -/

/-- MOVING begins or ends (Table 21-8): raised where the condition differs from that of `a`. -/
def movingEvent (a s : State) : State :=
  if a.moving = s.moving then s
  else machineEvent 0x0905 0 (b2n s.moving + 2 * b2n s.upd.tilt + 4 * b2n s.upd.switch) none 0 0 s

/-- TILT_TRIP (R767): the sensor has left its limits; `still` counts from here (log 30). -/
def tiltTrip (s : State) : State :=
  movingEvent s { s with upd := { s.upd with tilt := true, still := s.win.tb.toNat + 1 } }

def execTiltTrip (s : State) : Host.Outcome State Fault Refusal := .next (tiltTrip s)

/-- The sensor has stayed within its limits for the last 60 s, 6,000,000,000 ticks (R768). -/
def State.sensorStill (s : State) : Bool := s.upd.still != 0 && decide (s.upd.still - 1 + 6000000000 ≤ s.win.tb.toNat)

/-- The tilt latch is cleared. -/
def clearTilt (s : State) : State := movingEvent s { s with upd := { s.upd with tilt := false } }

/-- UPD_MOVING_CLR (R768). -/
def movingClr (s : State) : Verdict :=
  if s.sensorStill || !s.upd.tilt then .ok (clearTilt s) else .error 5

/-- ClearMoving and MOVING CLEAR (R768), with the action's parameter Reattitude. -/
def movingOrder (m : Mgmt) (reattitude : Bool) (s : State) : State :=
  if !s.majority then answerM m 503 2 [] s
  else
  let s1 := if reattitude then { s with upd := { s.upd with attitude := s.upd.attitude + 1 } } else s
  match movingClr s1 with
  | .ok s2 => answerM m 200 0 [] (logAdd 1 0 17 0 0 [mgmtNum m, 0x120020, b2n reattitude, b2n reattitude] s2)
  | .error _ => answerM m 400 1 [] s1

/-- MOVING_CLEAR by the register, Redfish or the console. -/
def movingClear (src : Source) (reattitude : Bool) (s : State) : State :=
  match src with
  | .window p => regOp p.toNat 0x120020 1 (movingClr s) s
  | .mgmt m => movingOrder m reattitude s

def execMovingClear (src : Source) (reattitude : Bool) (s : State) : Host.Outcome State Fault Refusal :=
  .next (movingClear src reattitude s)

/-! ### OWNER LOCK (R753) and the battery (R752) -/

/-- OWNER_LOCK_SET: by an Administrator; it is part of the record of intent (R659). -/
def ownerLock (m : Mgmt) (on : Bool) (s : State) : State :=
  if s.mgmtRole m = none then answerM m 401 1 [] s
  else if s.mgmtRole m ≠ some 2 then answerM m 403 1 [] s
  else if !s.majority then answerM m 503 2 [] s
  else answerM m 200 0 [b2n on]
    (logAdd 1 0 17 0 0 [mgmtNum m, 0x120008, b2n on, b2n on] { s with upd := { s.upd with lock := on } })

def execOwnerLockSet (m : Mgmt) (on : Bool) (s : State) : Host.Outcome State Fault Refusal := .next (ownerLock m on s)

/-- BATT_LOW_CONDITION (R752 cause 2): the charge of the hold-up battery, in percent; below 40 is UPD_COND.BATT_LOW. -/
def battCharge (charge : Nat) (s : State) : State := setBattery charge s

def execBattLowCondition (charge : BitVec 7) (s : State) : Host.Outcome State Fault Refusal :=
  .next (battCharge charge.toNat s)

/-! ### Delivery (R754) -/

/-- The header begins to be read: phase 1. -/
def startHeader (path sess : Nat) (s : State) : State :=
  { s with upd := { s.upd with
      phase := 1, comp := 0, cause := 0, path := path, sess := sess, from_ := s.upd.src, header := [], bytes := 0
      inst := none, failed := none, failDue := none, returned := 0 } }

/-- UPD_CTL.START (R752, R754, R769). -/
def updStart (s : State) : Verdict :=
  if s.upd.phase ≠ 0 then .error 4
  else match s.updRefused with
    | some c => .ok (refuse 0 c 0 s)
    | none => .ok (ctlRead s.upd.src 256 .parcel (startHeader 0 0 s))

def execUpdateStart (port : BitVec 4) (s : State) : Host.Outcome State Fault Refusal :=
  .next (regOp port.toNat 0x120000 1 (updStart s) s)

/-- A Redfish delivery begins (R752, R754). -/
def rfUpdate (path session : Nat) (s : State) : State :=
  match s.updRefused with
  | some c => rfAnswer session (refusalCode c) [c] (refuse 0 c 0 s)
  | none => if path = 2 then rfAnswer session 202 [] (startHeader path session s) else startHeader path session s

def execRedfishUpdatePush (session : Nat) (s : State) : Host.Outcome State Fault Refusal := .next (rfUpdate 1 session s)

def execSimpleUpdate (session : Nat) (s : State) : Host.Outcome State Fault Refusal := .next (rfUpdate 2 session s)

/-! ### The header's checks (R750) -/

/-- MAGIC, FORMAT and the reserved fields are as Table 21-2 states. -/
def hdrForm (h : List Byte) : Bool :=
  h.length == 256 && fieldAt h 0 4 == 0x4C435250 && hdrByte h 4 == 1 && hdrByte h 5 / 8 == 0 && hdrByte h 16 / 4 == 0 &&
  hdrByte h 17 / 16 == 0 && fieldAt h 18 2 == 0 && fieldAt h 24 8 == 0 && fieldAt h 136 24 == 0

/-- Every running instance has a version that the parcel works with. -/
def State.compatible (s : State) (h : List Byte) : Bool :=
  [1, 2, 3, 4, 5, 6, 7].all (fun c => (instList c).all (fun i =>
    !(s.instOn c i) ||
      (let v := (s.inst (instKey c i)).run.toNat; decide (hdrMin h c ≤ v ∧ v ≤ hdrMax h c))))

/-- The first check of Table 21-3 that a header fails. -/
def State.hdrCause (s : State) (h : List Byte) : Option Nat :=
  if !(hdrForm h) then some 8
  else if fieldAt h 6 2 != 0xA9 || hdrComp h == 0 then some 9
  else if s.upd.fuses.getLsbD (hdrKey h) then some 10
  else if !(Config.parcelSigned h (hdrKey h)) then some 11
  else if !(s.compatible h) then some 12
  else if hdrLength h < 1024 || 134217728 < hdrLength h then some 13
  else none

/-- A parcel is refused once its header is in hand: the update returns to phase 0. -/
def refuseHeader (h : List Byte) (cause : Nat) (s : State) : State :=
  let comp := if h.isEmpty then 0 else hdrComp h
  updIdle (updAnswer (refusalCode cause) (refuse comp cause (if h.isEmpty then 0 else hdrVersion h) s))

/-- The header passes: staging begins, and the control host's body is read (R754). -/
def startStaging (h : List Byte) (s : State) : State :=
  let s1 := updAnswer 202 s
  let s2 := { s1 with upd := { s1.upd with phase := 2, comp := hdrComp h, header := h } }
  if s.upd.path = 0 then ctlRead (s.upd.from_ + 256) (hdrLength h) .parcel s2 else s2

/-- PARCEL_HEADER_JUDGED (R750, R754): the 256 bytes read, or the read's failure. -/
def judgeHeader (h : List Byte) (failed : Bool) (s : State) : State :=
  if s.upd.phase ≠ 1 then s
  else
    let got := s.readFor (fun u => u == .parcel)
    let ready := s.upd.path != 0 || got.any (fun g => g.2.sent)
    if !ready || (!failed && h.length != 256) then s
    else
      let s1 := match got with | some g => endRead g.1 s | none => s
      if failed then refuseHeader [] 14 s1
      else if hdrComp h = 1 ∧ [0, 1, 2].any (fun c => (s.stew c).st != 1) = true then refuseHeader h 7 s1
      else match s1.hdrCause h with
        | some c => refuseHeader h c s1
        | none => startStaging h s1

def execParcelHeaderJudged (header : List Byte) (failed : Bool) (s : State) : Host.Outcome State Fault Refusal :=
  .next (judgeHeader header failed s)

/-! ### Staging and install (R755, Table 21-5) -/

/-- BODY_STAGED: the channels that hold the body with a digest equal to DIGEST, or the failure of its source. -/
def bodyStaged (good : BitVec 3) (failed : Bool) (s : State) : State :=
  if s.upd.phase ≠ 2 ∨ s.updPaused = true then s
  else
    let got := s.readFor (fun u => u == .parcel)
    -- a control host's body that has not been asked for yet cannot be staged
    if s.upd.path = 0 && got.any (fun g => !g.2.sent) then s
    else
      let s1 := match got with | some g => endRead g.1 s | none => s
      if failed then abortUpdate 19 s1
      else if 2 ≤ ([0, 1, 2].filter (fun c => good.getLsbD c && s.chanUp c)).length then
        { s1 with upd := { s1.upd with phase := 3, bytes := hdrLength s.upd.header } }
      else refuseHeader s.upd.header 15 s1

def execBodyStaged (good : BitVec 3) (failed : Bool) (s : State) : Host.Outcome State Fault Refusal :=
  .next (bodyStaged good failed s)

/-- An instance's inactive slot has been written, or its read-back has failed twice and it is left out. -/
def installInst (skipped : Bool) (i : Nat) (s : State) : State :=
  let c := s.upd.comp
  let k := instKey c i
  let x := { s.inst k with trial := false, switched := false }
  if !(s.instHere c i) then s
  else if skipped then
    logAdd 6 2 (instTray c i) (w64 (c + i * 8)) 0 [] (s.setInst k { x with skipped := true, written := false, other := none })
  else s.setInst k { x with skipped := false, written := true, other := some (hdrImage s.upd.header) }

/-- Instances that the update still has to switch: in service, written, not yet switched. -/
def State.toSwitch (s : State) : List Nat :=
  let c := s.upd.comp
  (instList c).filter (fun i => let x := s.inst (instKey c i); s.instOn c i && x.written && !x.skipped && !x.switched)

/-- UPDATE_APPLIED and phase 5 (R757): every instance in service has switched and none is restarting. -/
def applyIfDone (s : State) : State :=
  if s.upd.phase = 4 ∧ s.upd.inst = none ∧ s.upd.failDue = none ∧ s.toSwitch = [] then
    machineEvent 0x0902 0 s.upd.comp none (w64 s.updVersion.toNat) (w32 s.switchedCount)
      { s with upd := { s.upd with phase := 5 } }
  else s

/-- INSTALL_COMPLETE: the instances left out (Table 21-5). -/
def installComplete (skipped : List Nat) (s : State) : State :=
  if s.upd.phase = 3 ∧ s.updPaused = false then
    let s1 := (instList s.upd.comp).foldl (fun a i => installInst (skipped.contains i) i a) s
    applyIfDone { s1 with upd := { s1.upd with phase := 4 } }
  else s

def execInstallComplete (skipped : List Nat) (s : State) : Host.Outcome State Fault Refusal :=
  .next (installComplete skipped s)

/-! ### Switching (R756, Table 21-6) -/

/-- The order in which the instances of a component switch: stewards by their roles, all others by number. -/
def State.switchOrder (s : State) (c : Nat) : List Nat :=
  if c = 1 then
    let free := [0, 1, 2].filter (fun i => i != s.stw.spokes && i != s.stw.cool)
    let cool := [0, 1, 2].filter (fun i => i != s.stw.spokes && i == s.stw.cool)
    free ++ cool ++ [0, 1, 2].filter (fun i => i == s.stw.spokes)
  else instList c

/-- An instance stands at its switch point. -/
def State.switchPoint (s : State) (c i : Nat) : Bool :=
  match c with
  | 3 => !(s.modInPart i) && !(s.mod i).diagActive && !(s.mod i).diagEn
  | 4 => (s.pipe i).obj.st == .off
  | 5 =>
    !(s.tenIds.any (fun n => (s.ten n).obj.st == .on && (s.ten n).bPort / 8 == i)) && s.ctlPort / 8 != i
  | 6 => s.sh.sound == 2 || s.sh.selfTest
  | _ => true

/-- The next instance to switch: the first in order, or for the components that wait for a quiet point the first whose
point has come. -/
def State.nextSwitch (s : State) (l : List Nat) : Option Nat :=
  let c := s.upd.comp
  let o := (s.switchOrder c).filter (fun i => l.contains i)
  if c = 3 ∨ c = 4 ∨ c = 5 ∨ c = 6 then o.find? (s.switchPoint c) else o.head?

/-- The warden of a tray stops to restart: its caps are latched (R593). -/
def pauseWarden (t : Nat) (s : State) : State :=
  let s1 := (trayMods t).foldl (fun a w => a.setPwrMod w { a.pwrMod w with capLatch := some (s.capEff w) }) s
  { s1 with stw := { s1.stw with
      wardens := s1.stw.wardens &&& ~~~(BitVec.ofNat 18 (2 ^ t))
      adopting := if (s.tray t).contactor then s1.stw.adopting.filter (fun x => x != t) ++ [t] else s1.stw.adopting } }

/-- What an instance's restart does in service. -/
def restartEffect (c i : Nat) (s : State) : State :=
  match c with
  | 1 => passRoles i 3 (s.setStew i { s.stew i with st := 0, okE := 0, okS := 0 })
  | 2 => pauseWarden i s
  | 5 => (List.range 8).foldl (fun a q => linkDown (i * 8 + q) a) s
  | 7 => s.setIntake i { s.intake i with c8 := false }
  | _ => s

/-- An instance restarts, or loads, on the slot that is now active. -/
def beginRestart (c i : Nat) (s : State) : State :=
  restartEffect c i { s with upd := { s.upd with inst := some (instKey c i, s.win.tb) } }

/-- Instances that have still to return in a fall-back. -/
def State.toReturn (s : State) : List Nat :=
  let c := s.upd.comp
  (instList c).filter (fun i => s.instOn c i && (s.inst (instKey c i)).switched)

/-- What an instance's health waits for, as far as the state shows it (Table 21-6). -/
def State.healthReady (s : State) (c i : Nat) : Bool :=
  match c with
  | 1 => (s.stew i).st == 1
  | 2 => s.stw.wardens.getLsbD i
  | 6 => !s.sh.selfTest
  | _ => true

/-- What an instance's health brings: a pipeline's waiting enable, an intake C8 that is up (Table 21-6). -/
def healthEffect (c i : Nat) (s : State) : State :=
  match c with
  | 4 => if (s.pipe i).obj = { st := .off, pending := true } then startPipe i s else s
  | 7 => s.setIntake i { s.intake i with c8 := true }
  | _ => s

/-- A trial failure (R758, R776): the instance boots its previous slot, and the component falls back, after the end of a
pause. -/
def trialFail (key : Nat) (s : State) : State :=
  let paused := s.updPaused
  let s1 := s.setInst key { swapSlots (s.inst key) with trial := false, switched := false, written := false }
  let c := key / 128
  let s2 := healthEffect c (key % 128) { s1 with upd := { s1.upd with inst := none, returned := s1.upd.returned + 1 } }
  if paused then { s2 with upd := { s2.upd with failDue := some key } }
  else { s2 with upd := { s2.upd with phase := 6, failed := some key } }

/-- INSTANCE_SWITCH (R756, R761, R765): the next instance switches, or in fall-back returns. -/
def instanceSwitch (s : State) : State :=
  let c := s.upd.comp
  if s.upd.inst ≠ none then s
  else if s.upd.phase = 4 ∧ s.updPaused = false ∧ s.upd.failDue = none then
    match s.nextSwitch s.toSwitch with
    | some i =>
      let k := instKey c i
      let x := { swapSlots (s.inst k) with trial := true, switched := true }
      let s1 := beginRestart c i (s.setInst k x)
      -- the part's own fuses revoke the key that signed the image: its ROM boots the previous slot (R765)
      if x.fuses.getLsbD x.keyId.toNat then trialFail k s1 else s1
    | none => s
  else if s.upd.phase = 6 ∧ s.keys.white = false ∧ s.pwr.sag = 0 ∧ s.boot.st = 1 then
    match s.nextSwitch s.toReturn with
    | some i =>
      let k := instKey c i
      let s1 := s.setInst k { swapSlots (s.inst k) with trial := false, switched := false, written := false }
      beginRestart c i { s1 with upd := { s1.upd with returned := s1.upd.returned + 1 } }
    | none => s
  else s

def execInstanceSwitch (s : State) : Host.Outcome State Fault Refusal := .next (instanceSwitch s)

/-- INSTANCE_HEALTHY (R757). -/
def instanceHealthy (s : State) : State :=
  match s.upd.inst with
  | none => applyIfDone s
  | some x =>
    let c := x.1 / 128
    let i := x.1 % 128
    if s.healthReady c i then
      applyIfDone (healthEffect c i { s with upd := { s.upd with inst := none } })
    else s

def execInstanceHealthy (s : State) : Host.Outcome State Fault Refusal := .next (instanceHealthy s)

/-! ### Trial (R758) -/

/-- Trial bound of a component, in ticks (Table 21-6). -/
def trialBound (c : Nat) : Nat :=
  match c with
  | 1 => 12000000000
  | 2 => 500000000
  | 3 => 100000000
  | 4 => 100000000
  | _ => 1000000000

/-- TRIAL_BOUND_EXPIRY: the instance that restarts is not healthy within its bound. -/
def trialExpiry (s : State) : State :=
  match s.upd.inst with
  | some x =>
    if s.upd.phase = 4 ∧ (s.inst x.1).trial = true ∧ x.2.toNat + trialBound (x.1 / 128) ≤ s.win.tb.toNat then trialFail x.1 s
    else s
  | none => s

def execTrialBoundExpiry (s : State) : Host.Outcome State Fault Refusal := .next (trialExpiry s)

/-- TRIAL_RESTART: it restarts before it has become healthy. A restart order's is not one (R773). -/
def trialRestart (s : State) : State :=
  match s.upd.inst with
  | some x => if s.upd.phase = 4 ∧ (s.inst x.1).trial = true ∧ s.boot.stage = 11 then trialFail x.1 s else s
  | none => s

def execTrialRestart (s : State) : Host.Outcome State Fault Refusal := .next (trialRestart s)

/-- A steward channel that fails while on trial (R759, R777). -/
def stewardTrial (c : Nat) (s : State) : State :=
  if s.upd.comp = 1 ∧ (s.upd.phase = 4 ∨ s.upd.phase = 5) ∧ (s.inst (instKey 1 c)).trial = true then trialFail (instKey 1 c) s
  else s

/-- UPDATE_RESUME (R759, R776): the conditions have cleared and nothing deferred waits; a trial failure that arose in the
pause begins fall-back, and what a pause held goes on. -/
def updResume (s : State) : State :=
  if s.updPaused then s
  else match s.upd.failDue with
    | some k => { s with upd := { s.upd with phase := 6, failed := some k, failDue := none } }
    | none => applyIfDone s

def execUpdateResume (s : State) : Host.Outcome State Fault Refusal := .next (updResume s)

/-! ### Cancellation, confirmation, fall-back -/

/-- CANCEL (R770). -/
def updCancel (s : State) : Verdict :=
  if s.upd.phase = 0 then .ok s
  else if s.upd.phase ≤ 3 then .ok (abortUpdate 18 s)
  else .error 5

/-- UPDATE_CANCEL: UPD_CTL.CANCEL, or the deletion of the update's Task. -/
def execUpdateCancel (src : Source) (s : State) : Host.Outcome State Fault Refusal :=
  .next (bySource src 0x120000 2 (updCancel s) s)

/-- The keys that a confirmation revokes (R766), given the state in which the new parcel is confirmed: all of REVOKE, or
none. -/
def State.revoked (s : State) (h : List Byte) : Nat :=
  let r := hdrRevoke h
  let hit := fun (k : Nat) => r.testBit k
  let bad := hit (hdrKey h) || [1, 2, 3, 4, 5, 6, 7].any (fun c =>
    hit (tget 0 c s.upd.confKey) || (instList c).any (fun i => s.instHere c i && hit (s.inst (instKey c i)).keyId.toNat))
  if bad then 0 else r

/-- Blow revocation fuses in every present part and in the steward bay (R766). -/
def blowFuses (r : Nat) (s : State) : State :=
  let s1 := [1, 2, 3, 4, 5, 6, 7].foldl (fun a c => (instList c).foldl (fun b i =>
    let k := instKey c i
    if b.instHere c i then b.setInst k { b.inst k with fuses := (b.inst k).fuses ||| BitVec.ofNat 4 r } else b) a) s
  { s1 with upd := { s1.upd with fuses := s1.upd.fuses ||| BitVec.ofNat 4 r } }

/-- Confirmation (R760): TRIAL marks are cleared, the parcel is the component's confirmed one, and keys are revoked. -/
def confirm (s : State) : State :=
  let h := s.upd.header
  let c := s.upd.comp
  let s1 := (instList c).foldl (fun a i =>
    a.setInst (instKey c i) { a.inst (instKey c i) with
      trial := false, switched := false, skipped := false, written := false }) s
  let s2 := { s1 with upd := { s1.upd with
    conf := tset 0x01000000 c (hdrVersion h) s1.upd.conf
    confKey := tset 0 c (hdrKey h) s1.upd.confKey
    confSet := tset (1, 1) c (hdrFwset h, hdrLayout h) s1.upd.confSet } }
  let r := s2.revoked h
  let s3 := if r = 0 then s2 else blowFuses r s2
  updIdle (logAdd 6 1 17 (w64 (c + hdrRevoke h * 8)) (hdrVersion h) [hdrRevoke h, r] s3)

/-- UPDATE_CONFIRM (R760). -/
def updConfirm (m : Mgmt) (s : State) : State :=
  if !s.majority then answerM m 503 2 [] s
  else if s.upd.phase = 5 then answerM m 200 0 [] (confirm s)
  else answerM m 409 3 [] s

def execUpdateConfirm (m : Mgmt) (s : State) : Host.Outcome State Fault Refusal := .next (updConfirm m s)

/-- UPDATE_FALLBACK (R761). -/
def updFallback (m : Mgmt) (s : State) : State :=
  if !s.majority then answerM m 503 2 [] s
  else if s.upd.phase = 4 ∨ s.upd.phase = 5 then
    answerM m 200 0 [] (logAdd 6 4 17 0 0 [mgmtNum m]
      { s with upd := { s.upd with phase := 6, failed := s.upd.failDue, failDue := none } })
  else answerM m 409 3 [] s

def execUpdateFallback (m : Mgmt) (s : State) : Host.Outcome State Fault Refusal := .next (updFallback m s)

/-- FALLBACK_COMPLETE (R761): the last instance has returned. The new image stays in the inactive slots. DETAIL[8:4] holds the
low five bits of the instance (log 130). -/
def fallbackDone (s : State) : State :=
  if s.upd.phase = 6 ∧ s.upd.inst = none ∧ s.toReturn = [] then
    let c := s.upd.comp
    let d := c + (match s.upd.failed with | some k => 8 + k % 32 * 16 | none => 0)
    let n := s.upd.returned
    let s1 := (instList c).foldl (fun a i => a.setInst (instKey c i) { a.inst (instKey c i) with
      trial := false, switched := false, skipped := false, written := false }) s
    machineEvent 0x0903 0 d none (w64 s.updVersion.toNat) (w32 n) (updIdle s1)
  else s

def execFallbackComplete (s : State) : Host.Outcome State Fault Refusal := .next (fallbackDone s)

/-! ### Whiteout and re-arm (R774); restart and power (R772, R773) -/

/-- Whiteout during an update. -/
def updWhite (s : State) : State :=
  if s.upd.phase = 0 then s
  else if s.upd.phase ≤ 3 then abortUpdate 17 s
  else abortEvent 17 s

/-- After re-arm an update of phases 4–6 waits in phase 5. -/
def updRearm (s : State) : State :=
  if 4 ≤ s.upd.phase then { s with upd := { s.upd with phase := 5, failDue := none } } else s

/-- The machine has lost power, or a restart order is given: phases 1 and 2 end; a restarting instance's bound runs anew. -/
def updBreak (cause : Nat) (s : State) : State :=
  if s.upd.phase = 1 ∨ s.upd.phase = 2 then abortUpdate cause s
  else { s with upd := { s.upd with inst := s.upd.inst.map (fun x => (x.1, s.win.tb)) } }

end Sys2Proof.Machine
end

