-- ==== Sys2Proof/Machine/Keys.lean ====
section
/-! DEFINITION. Keys (ch. 20): loading and forgetting (R725–R727), the wrapping key (R729), module slots (R722), SPDM
(R730–R732), whiteout (R734–R736) and re-arm (R738). -/

namespace Sys2Proof.Machine

/-! ### Loading (R725–R727) -/

/-- GO and FORGET are accepted (R727): the cause under which they are not. -/
def State.keyBar (s : State) (n : Nat) : Option Nat :=
  if s.keys.busy then some 4
  else if s.keys.white || !s.keys.ready || (s.partsOf n).any (fun p => (s.part p).obj.st == .on) then some 5
  else none

/-- KEY_LOAD_CTL.GO. -/
def keyGo (n : Nat) (s : State) : Verdict :=
  match s.keyBar n with
  | some c => .error c
  | none => .ok (ctlRead s.keys.loadSrc 256 .blob { s with keys := { s.keys with busy := true, loadTen := BitVec.ofNat 4 n } })

def execKeyLoad (port n : BitVec 4) (s : State) : Host.Outcome State Fault Refusal :=
  .next (regOp port.toNat 0xA1008 (n.toNat + 0x100) (keyGo n.toNat s) s)

/-- The prime and the constant b of P-384. -/
def p384 : Nat := 2 ^ 384 - 2 ^ 128 - 2 ^ 96 + 2 ^ 32 - 1
def p384b : Nat :=
  0xb3312fa7e23ee7e4988e056be3f82d19181d9c6efe8141120314088f5013875ac656398d8a2ed19d2a85c8edd3ec2aef

/-- A big-endian number. -/
def beNat (l : List Byte) : Nat := leNat l.reverse

/-- A point in X, Y form lies on P-384 (Table 20-3 result 3). -/
def onP384 (l : List Byte) : Bool :=
  let x := beNat (l.take 48)
  let y := beNat ((l.drop 48).take 48)
  decide (x < p384 ∧ y < p384) && (y * y) % p384 == (x * x * x + (p384 - 3) * x + p384b) % p384

/-- The fields of a blob that RESULT 1 judges (Tables 20-2, 20-3). -/
def blobForm (n : Nat) (b : List Byte) : Bool :=
  fieldAt b 0 4 == 0x31424B53 && fieldAt b 4 1 == 1 && fieldAt b 5 1 == n && fieldAt b 6 1 / 2 == 0 && fieldAt b 7 1 == 0 &&
  fieldAt b 12 4 == 0 && fieldAt b 124 4 == 0 && fieldAt b 208 48 == 0

/-- RESULT of a blob (Table 20-3), in its order. -/
def State.blobResult (s : State) (n : Nat) (b : List Byte) : Nat :=
  if !(blobForm n b) then 1
  else if fieldAt b 8 4 != s.keys.wkgen.toNat then 2
  else if !(onP384 ((b.drop 16).take 96)) then 3
  else match Config.unwrapKey s.keys.wkgen.toNat b with
    | none => 4
    | some k => if k.take 32 = k.drop 32 then 5 else 0

/-- A loaded key, of 512 bits, replaces the tenant's (R726). -/
def loadKey (n : Nat) (volatile : Bool) (key : List Byte) (s : State) : State :=
  let t := s.ten n
  let id := s.keySerial + 1
  let s1 := { s.setTen n { t with keyLoaded := true, keyEph := false, keyGen := t.keyGen + 1, keyId := id } with
    keySerial := id, keyBank := tset none id (some key) s.keyBank }
  if volatile then s1 else storeItem (keyItem n) (w32 id) s1

/-- A load ends with its RESULT. -/
def endLoad (r : Nat) (s : State) : State := { s with keys := { s.keys with busy := false, result := BitVec.ofNat 4 r } }

/-- KEY_BLOB_JUDGED (R726): the blob read, or its read's failure. -/
def judgeBlob (b : List Byte) (failed : Bool) (s : State) : State :=
  match s.readFor (fun u => u == .blob) with
  | some (id, h) =>
    if !s.keys.busy || !h.sent || (!failed && b.length != 256) then s
    else
      let n := s.keys.loadTen.toNat
      let r := if failed then 6 else s.blobResult n b
      let s1 := endLoad r (endRead id s)
      if r = 0 then loadKey n (fieldAt b 6 1 == 1) ((Config.unwrapKey s.keys.wkgen.toNat b).getD []) s1 else s1
  | none => s

def execKeyBlobJudged (blob : List Byte) (failed : Bool) (s : State) : Host.Outcome State Fault Refusal :=
  .next (judgeBlob blob failed s)

/-- KEY_LOAD_CTL.FORGET (R727). -/
def keyForget (n : Nat) (s : State) : Verdict :=
  match s.keyBar n with
  | some c => .error c
  | none =>
    let t := s.ten n
    let s1 := { s with keys := { s.keys with loadTen := BitVec.ofNat 4 n, result := 0 } }
    .ok (if t.keyLoaded then
        storeItem (keyItem n) 0 (s1.setTen n { t with keyLoaded := false, keyEph := false, keyGen := t.keyGen + 1, keyId := 0 })
      else s1)

def execKeyForget (port n : BitVec 4) (s : State) : Host.Outcome State Fault Refusal :=
  .next (regOp port.toNat 0xA1008 (n.toNat + 0x200) (keyForget n.toNat s) s)

/-! ### The wrapping key (R729) -/

/-- KEY_CTL.ROTATE_WK. While one rotation runs another has no effect. -/
def rotateWk (s : State) : Verdict :=
  if s.keys.busy || s.keys.white then .error 5 else .ok { s with keys := { s.keys with rotating := true } }

def execRotateWk (port : BitVec 4) (s : State) : Host.Outcome State Fault Refusal :=
  .next (regOp port.toNat 0xA0050 1 (rotateWk s) s)

/-- The item of the sealed wrapping key in the key store. -/
def wrapItem : Nat := 0xA0044

/-- The next generation is made and sealed (R724, R729). -/
def newWrap (s : State) : State :=
  let g := s.keys.wkLast + 1
  storeItem wrapItem g { s with keys := { s.keys with wkgen := g, wkLast := g } }

/-- WRAPPING_KEY_ROTATED. -/
def wrapRotated (s : State) : State :=
  if s.keys.rotating then newWrap { s with keys := { s.keys with rotating := false } } else s

def execWrappingKeyRotated (s : State) : Host.Outcome State Fault Refusal := .next (wrapRotated s)

/-! ### Module slots (R722) -/

/-- A slot write is in progress for a module: a partition's enable or diagnostic mode waits for it. -/
def State.slotWrites (s : State) (w : Nat) : Bool :=
  s.partIds.any (fun p => let x := s.part p; x.obj.st == .winding && x.wind == .enabling && x.mods.contains w) ||
  ((s.mod w).diagEn && !(s.mod w).diagActive)

/-- KEY_SLOT_WRITE_TIMEOUT: not acknowledged in 50 µs. -/
def slotTimeout (w : Nat) (s : State) : State :=
  if s.slotWrites w && (s.mod w).keyRetry.isNone then
    machineEvent 0x0802 0 (3 + w * 8) none 0 0 (s.setMod w { s.mod w with keyRetry := some s.win.tb })
  else s

def execKeySlotWriteTimeout (w : Fin 96) (s : State) : Host.Outcome State Fault Refusal := .next (slotTimeout w.val s)

/-- KEY_SLOT_WRITE_RETRY: 1 ms, 100,000 ticks, after the failure or later; a module that acknowledges is written. -/
def slotRetry (w : Nat) (ok : Bool) (s : State) : State :=
  match (s.mod w).keyRetry with
  | some t => if ok && decide (t.toNat + 100000 ≤ s.win.tb.toNat) then s.setMod w { s.mod w with keyRetry := none } else s
  | none => s

def execKeySlotWriteRetry (w : Fin 96) (ok : Bool) (s : State) : Host.Outcome State Fault Refusal :=
  .next (slotRetry w.val ok s)

/-- KEY_SLOT_RETRY_EXHAUSTED: after 20 ms, 2,000,000 ticks, the module leaves service with cause 11. -/
def slotExhausted (w : Nat) (s : State) : State :=
  match (s.mod w).keyRetry with
  | some t =>
    if t.toNat + 2000000 ≤ s.win.tb.toNat then loseModule w 11 (s.setMod w { s.mod w with keyRetry := none }) else s
  | none => s

def execKeySlotRetryExhausted (w : Fin 96) (s : State) : Host.Outcome State Fault Refusal := .next (slotExhausted w.val s)

/-! ### Attestation (R730–R732) -/

/-- The mailbox of a port answers from the end of stage 11 (R730). -/
def State.mailbox (s : State) (port : Nat) : Bool :=
  s.boot.powered && s.boot.stage == 11 && s.boot.st == 1 && s.bridgeReady port

/-- An answer of a port's mailbox; response codes as SPDM 1.2 numbers them (log 31). -/
def doe (port code : Nat) (body : List Nat) (s : State) : State :=
  if s.mailbox port then emit (.answer (2 ^ 33 + port) code body) s else s

/-- DOE_DISCOVERY: DOE Discovery (type 0) and SPDM (type 1) of vendor 1, and no other. -/
def execDoeDiscovery (port : BitVec 4) (s : State) : Host.Outcome State Fault Refusal :=
  .next (doe port.toNat 0 [1, 0, 1, 1] s)

/-- ERROR, UnsupportedRequest. -/
def spdmError (port : Nat) (s : State) : State := doe port 0x7F [7] s

/-- Certificate slots other than 0 are not supported (Table 20-4). -/
def execGetDigests (port : BitVec 4) (s : State) : Host.Outcome State Fault Refusal :=
  .next (doe port.toNat 1 (Config.spdmDigest 0) s)

def execGetCertificate (port : BitVec 4) (slot : BitVec 4) (off len : BitVec 16) (s : State) :
    Host.Outcome State Fault Refusal :=
  .next (if slot = 0 then doe port.toNat 2 ((Config.spdmChain.drop off.toNat).take len.toNat) s else spdmError port.toNat s)

/-- KEY_STATE (Table 20-7). -/
def State.keyState (s : State) : Word :=
  w32 (b2n s.keys.ready + 2 * b2n s.keys.white + 4 * b2n s.keys.storeOk + s.pwr.battery * 2 ^ 16)

/-- KEY_WKGEN: 0 in whiteout. -/
def State.keyWkgen (s : State) : Word := if s.keys.white then 0 else s.keys.wkgen

/-- KEY_WPUB_k: zero in whiteout, when there is no pair (log 32). -/
def State.keyWpub (s : State) (k : Nat) : Word := if s.keys.white then 0 else Config.wrapPublic s.keys.wkgen.toNat k

/-- MACH_IDENT and MACH_LIMITS (Table 15-5): FAMILY 0xA9 in [15:8]. -/
def State.machIdent (s : State) : Word := w32 (s.fuses.variant.toNat + 0xA9 * 2 ^ 8)
def State.machLimits (s : State) : Word := w32 (s.machCap + s.machCeil * 2 ^ 16)

/-- The bytes of words, as numbers. -/
def wordBytes (l : List Word) : List Nat := ((l.map (fun v => toLE 4 v.toNat)).flatten).map BitVec.toNat

/-- Measurement block i (Table 20-5). -/
def State.measurement (s : State) (i : Nat) : List Nat :=
  if i ≤ 7 then
    Config.spdmBlock i (((instList i).filter (s.instOn i)).map (fun j => (s.inst (instKey i j)).run.toNat))
  else if i = 8 then wordBytes [s.machIdent, s.machLimits]
  else if i = 9 then wordBytes [s.keyState, s.keyWkgen, w32 s.keys.count.toNat]
  else if s.keys.white then List.replicate 100 0
  else wordBytes (s.keyWkgen :: (List.range 24).map s.keyWpub)

/-- The blocks that an index asks for: 0xFF is all (R730). -/
def State.measured (s : State) (i : Nat) : Option (List Nat) :=
  if i = 0xFF then some (((List.range 10).map (fun k => s.measurement (k + 1))).flatten)
  else if 1 ≤ i ∧ i ≤ 10 then some (s.measurement i) else none

/-- CHALLENGE: slot 0, with the summary hash none (0), TCB (1) or all (0xFF), over the port's nonce (R730). -/
def challenge (port slot summary nonce : Nat) (s : State) : State :=
  if slot = 0 ∧ (summary = 0 ∨ summary = 1 ∨ summary = 0xFF) then
    let m := if summary = 0 then [] else (s.measured 0xFF).getD []
    doe port 3 (Config.spdmSign (nonce :: summary :: m)) s
  else spdmError port s

def execChallenge (port : BitVec 4) (slot : BitVec 4) (summary : BitVec 8) (nonce : BitVec 256) (s : State) :
    Host.Outcome State Fault Refusal :=
  .next (challenge port.toNat slot.toNat summary.toNat nonce.toNat s)

/-- GET_MEASUREMENTS (R730, R732). -/
def getMeasurements (port i nonce : Nat) (sign : Bool) (s : State) : State :=
  match s.measured i with
  | some m => doe port 0x60 (m ++ if sign then Config.spdmSign (nonce :: m) else []) s
  | none => spdmError port s

def execGetMeasurements (port : BitVec 4) (index : BitVec 8) (sign : Bool) (nonce : BitVec 256) (s : State) :
    Host.Outcome State Fault Refusal :=
  .next (getMeasurements port.toNat index.toNat nonce.toNat sign s)

/-- SPDM_UNSUPPORTED_REQUEST. -/
def execSpdmUnsupportedRequest (port : BitVec 4) (s : State) : Host.Outcome State Fault Refusal :=
  .next (spdmError port.toNat s)

/-! ### Whiteout (R734–R736) -/

/-- Every module key slot is zeroised (Table 20-6 steps 3 and 4). -/
def zeroSlots (s : State) : State :=
  (List.range 96).foldl (fun a w => a.setMod w { a.mod w with
    keyTen := 0, slotKeys := [], keyDiag := false, diagKey := 0, keyTransport := false, keyRetry := none }) s

/-- A tenant's key is gone in whiteout (Table 20-6 step 5). -/
def whiteTenant (n : Nat) (s : State) : State :=
  let t := s.ten n
  storeItem (keyItem n) 0 (s.setTen n { t with keyLoaded := false, keyEph := false, keyGen := t.keyGen + 1, keyId := 0 })

/-- Every channel in diagnostic mode is aborted and EN cleared (R356). -/
def whiteDiag (s : State) : State :=
  ((List.range 96).filter (fun w => (s.mod w).diagEn || !(s.diagBusy w).isEmpty)).foldl (fun a w =>
    (a.diagBusy w).foldl (fun b k => abortChan k b) (a.setMod w { a.mod w with diagEn := false })) s

/-- What whiteout does with rack power (Table 20-6 steps 5 and 6; R231, R356, R540, R774). -/
def whitePowered (s : State) : State :=
  let s1 := allTens.foldl (fun a n => whiteTenant n a) s
  let s2 := s1.partIds.foldl (fun a p =>
    let x := a.part p
    if x.obj.st == .on || (x.obj.st == .winding && x.wind == .enabling) then windPart p .cut false a
    -- a wind-down without CUT becomes a cut (R278, R325, R718)
    else if x.obj.st == .winding && x.wind == .finish then stopPart p true (a.setPart p { x with wind := .cut })
    else a) s1
  updWhite (whiteIntake (whiteDiag (storeItem wrapItem 0 s2)))

/-- WHITEOUT (R740). -/
def whiteEvent (entered : Bool) (s : State) : State :=
  machineEvent 0x0801 0 (b2n entered + 2 * b2n s.keys.atPower + 4 * b2n s.keys.battLost) none (w64 s.keys.lids.toNat)
    (w32 s.keys.count.toNat) s

/-- Whiteout begins (R735, R742): the latch, the count, the slots and keys, and with power what follows. The entries of the
key store cannot be unsealed from now on. -/
def enterWhite (batt : Bool) (s : State) : State :=
  let k := s.keys
  let sealed := (allTens.map (fun n => (s.stored (keyItem n) 0).toNat)).filter (fun v => v != 0)
  let s1 := zeroSlots (dropReads (fun r => r.purpose == .blob) { s with keys := { k with
    stale := (k.stale ++ sealed).dedup, white := true, ready := false, wkgen := 0, count := satInc k.count, atPower := !s.boot.powered, battLost := batt
    busy := false, result := if k.busy then 7 else k.result, rotating := false, rearming := false, openTick := 0 } })
  if s.boot.powered then
    logAdd 5 0 17 (w64 s1.keys.lids.toNat) (w32 s1.keys.count.toNat) [] (whiteEvent true (whitePowered s1))
  else s1

/-- A lid switch's bit. -/
def lidBit (t : Nat) : BitVec 18 := BitVec.ofNat 18 (2 ^ t)

/-- The switch of a lid is sensed: the steward bay's, or that of a tray in its slot (R734), while the rack or the battery
gives power (R736). -/
def State.lidSensed (s : State) (t : Nat) : Bool :=
  (t == 17 || (s.tray t).svc != .absent) && (s.boot.powered || s.pwr.battery != 0)

/-- A sensed switch closes (R734, R741): whiteout, or one more lid in the whiteout in force. -/
def lidCloses (t : Nat) (s : State) : State :=
  let s1 := { s with keys := { s.keys with
    closed := s.keys.closed ||| lidBit t, lids := s.keys.lids ||| lidBit t, openTick := 0 } }
  if s.keys.white then
    logAdd 5 0 t (w64 s1.keys.lids.toNat) (w32 s1.keys.count.toNat) []
      (if s.keys.rearming then zeroSlots { s1 with keys := { s1.keys with rearming := false } } else s1)
  else enterWhite false s1

/-- A switch opens again: the 10 s of R738 begin when none is closed. -/
def lidOpens (t : Nat) (s : State) : State :=
  let c := s.keys.closed &&& ~~~(lidBit t)
  { s with keys := { s.keys with
      closed := c
      openTick := if s.keys.white && c == 0 && s.keys.closed != 0 then s.win.tb.toNat + 1 else s.keys.openTick } }

/-- LID_SWITCH_CLOSE: a lid's switch closes, is found closed as its tray enters, or opens again. -/
def lidSwitch (t : Nat) (closes : Bool) (s : State) : State :=
  if s.lidSensed t then (if closes then lidCloses t s else lidOpens t s) else s

def execLidSwitchClose (t : Fin 18) (closes : Bool) (s : State) : Host.Outcome State Fault Refusal :=
  .next (lidSwitch t.val closes s)

/-- BATTERY_LOW (R736): the charge below 20 % with the rack powered, told once until it recovers. -/
def batteryLow (charge : Nat) (s : State) : State :=
  let s1 := setBattery charge s
  if 20 ≤ s1.pwr.battery then { s1 with keys := { s1.keys with battTold := false } }
  else if s1.keys.battTold || !s1.boot.powered then s1
  else machineEvent 0x0802 0 4 none 0 0 { s1 with keys := { s1.keys with battTold := true } }

def execBatteryLow (charge : BitVec 7) (s : State) : Host.Outcome State Fault Refusal := .next (batteryLow charge.toNat s)

/-! ### Re-arm (R738) -/

/-- The whiteout condition has ended: every sensed switch open for 10 s, 1,000,000,000 ticks. -/
def State.lidsEnded (s : State) : Bool :=
  s.keys.closed == 0 && (s.keys.openTick == 0 || decide (s.keys.openTick - 1 + 1000000000 ≤ s.win.tb.toNat))

/-- The RE-ARM key starts the key service's re-arm (R738): with power and stage 11 completed. -/
def startRearm (s : State) : State :=
  if s.keys.white && s.lidsEnded && s.boot.powered && s.boot.stage == 11 && s.boot.st == 1 then
    { s with keys := { s.keys with rearming := true } }
  else s

/-- A module's rails are up. -/
def State.railsUp (s : State) (w : Nat) : Bool := (s.pwrMod w).obj.st == .on

/-- WHITEOUT_REARM_COMPLETE (R738, R774). -/
def rearmDone (s : State) : State :=
  if s.keys.rearming then
    let s1 := newWrap { s with keys := { s.keys with
      rearming := false, white := false, ready := true, lids := 0, battLost := false, atPower := false, storeLost := false } }
    let s2 := ((List.range 96).filter (fun w => s1.railsUp w)).foldl
      (fun a w => a.setMod w { a.mod w with keyTransport := true }) s1
    logAdd 5 0 17 0 (w32 s2.keys.count.toNat) [] (whiteEvent false (updRearm s2))
  else s

def execWhiteoutRearmComplete (s : State) : Host.Outcome State Fault Refusal := .next (rearmDone s)

end Sys2Proof.Machine
end

