-- ==== Sys2Proof/Machine/Boot.lean ====
section
/-! DEFINITION. Bring-up (ch. 15): power-on and restart (R545, R660), the stages and their reports (R546–R549), calibration
(R551–R554), the transport hold (R555) and the oscillators (R69). -/

namespace Sys2Proof.Machine

/-! ### The machine anew -/

/-- Every register at its Reset value (R782), every object OFF: after a power-on (`cold`), or as a restart leaves it, with
what the steward bay keeps. -/
def anewTens (cold : Bool) (t : Ten) : Ten :=
  if cold then {}
  else
    let gone := t.keyLoaded && t.keyEph
    -- events held at the restart are dropped and counted (R275)
    { evtWritten := t.evtWritten, evtLost := satAdd t.evtLost t.held.length, keyGen := if gone then t.keyGen + 1 else t.keyGen,
      keyLoaded := t.keyLoaded && !t.keyEph, keyId := if gone then 0 else t.keyId }

/-- A module as bring-up finds it: its slot empty or filled. -/
def anewMod (cold : Bool) (m : Mod) : Mod :=
  { state := if m.state = 0 then 0 else 2, keyTransport := !cold && m.keyTransport, errSel := 0 }

/-- A module's power on its auxiliary rail: caps and, over a restart, orders stand (R584, R660). -/
def anewPwr (cold : Bool) (s : State) (w : Nat) : PwrMod :=
  let p := s.pwrMod w
  { obj := {}, host := if cold then 0 else p.host, rm := if cold then 0 else p.rm, safety := p.safety
    capHost := if cold then BitVec.ofNat 11 (s.stored (pwrModOff w + 8) 0).toNat else p.capHost
    capRm := if cold then BitVec.ofNat 11 (s.stored (pwrModOff w + 12) 0).toNat else p.capRm
    vset := 700, ctrl := s.machCeil }

/-- A tray position as bring-up finds it: powered over a restart only. Straps are read again at stage 2. -/
def anewTray (cold : Bool) (y : Tray) : Tray :=
  let svc := match y.svc with
    | .absent => TraySvc.absent
    | .ready => if cold then .inService else .ready
    | .joining => if cold then .inService else .joining
    | _ => .inService
  { y with
    svc := svc, contactor := !cold && y.contactor, strapsRead := !cold && y.strapsRead, peak := 0, avg1 := 0, avg60 := 0
    avg900 := 0 }

/-- The report of a stage not run (R547). -/
def noReport : BootRep := { result := 0 }

/-- The BOOT block as a power-on or a restart begins (R549, R782). -/
def anewBoot (cold : Bool) (s : State) : Boot :=
  { powered := true, stage := if cold then 0 else 2, st := 0, degraded := false, held := false, items := []
    count := if cold then 0 else s.boot.count
    reports := (List.range 12).foldl (fun a n =>
      if !cold && decide (n < 2) then a else tset {} n noReport a) s.boot.reports
    again := !cold, began := if cold then 0 else s.win.tb, beganUp := if cold then 0 else w64 s.upTimeAll, codes := [], failCode := none, badCores := [], badCols := [], cal := [], found := [] }

def anewPower (cold : Bool) (s : State) : Pwr :=
  { s.pwr with
    lowFrom := 0
    lowSum := if cold then 0 else s.pwr.lowSum + (if s.pwr.lowFrom = 0 then 0 else s.win.tb.toNat + 1 - s.pwr.lowFrom)
    sag := if cold then 0 else s.pwr.sag, below := 0
    deferCnt := if cold then 0 else s.pwr.deferCnt, crawlCnt := if cold then 0 else s.pwr.crawlCnt
    items := if cold then [] else s.pwr.items, image := if cold then 0 else s.pwr.image
    dropped := if cold then 0 else s.pwr.dropped
    rackHost := if cold then BitVec.ofNat 18 (s.stored 0x100020 0).toNat else s.pwr.rackHost
    rackRm := if cold then BitVec.ofNat 18 (s.stored 0x100024 0).toNat else s.pwr.rackRm
    auto := s.autoLimit, peak := 0, avg1 := 0, avg60 := 0, avg900 := 0
    partHost := if cold then allParts.foldl (fun a p => tset 0 p (BitVec.ofNat 18 (s.stored (0x104000 + 4 * p) 0).toNat) a) []
      else s.pwr.partHost
    partRm := if cold then allParts.foldl (fun a p => tset 0 p (BitVec.ofNat 18 (s.stored (0x104100 + 4 * p) 0).toNat) a) []
      else s.pwr.partRm
    mods := (List.range 96).foldl (fun a w => tset {} w (anewPwr cold s w) a) [] }

/-- Offsets of the stored THERM registers (R610, R619). -/
def thermCtlOff : Nat := 0xF0000
def cduSetOff : Nat := 0xF0004

def anewTherm (cold : Bool) (s : State) : Therm :=
  let v := s.stored thermCtlOff 0x110
  { s.therm with
    rotPeriod := BitVec.ofNat 8 (Fld v 0 8), rotEn := bit v 8, cduSet := BitVec.ofNat 8 (Fld (s.stored cduSetOff 30) 0 8)
    forced := !cold && s.therm.forced
    dies := tmap {} (fun _ x => { x with level := 0, pause := false, ran := [], retTick := 0, ret := false }) s.therm.dies
    mods := (List.range 96).foldl (fun a w => tset {} w { flim := s.machCeil } a) [] }

def anewStew (cold : Bool) (s : State) : Stw :=
  let w := s.stw
  if cold then
    { w with
      chans := [0, 1, 2].foldl (fun a c => tset {} c { tget {} c w.chans with
        st := 0, missE := 0, missS := 0, okE := 0, okS := 0, alarmE := false, alarmS := false, inbox := [], deferred := [],
        gap := 0, told := [], differs := [] } a) w.chans
      spokes := 3, cool := 3, period := 0, dissent := 0, gaps := 0, ram := [], ramLost := 0, wardens := 0, adopting := []
      sessions := [], rmRack := false, rmTrays := 0, rmMods := [], panelLocate := false, lamp := 0, lampLocate := false
      clock := none, shown := 0x5030, shownTick := 0, locTick := 0, active := [0x5030], noAgree := [] }
  else { w with dissent := 0 }

def anewKeys (cold : Bool) (k : KeyS) : KeyS :=
  { k with
    ready := !cold && k.ready, storeOk := !cold && k.storeOk, loadSrc := 0, busy := false, result := 0, loadTen := 0
    rotating := !cold && k.rotating, rearming := false, openTick := if cold && k.openTick != 0 then 1 else k.openTick }

/-- What a power-on, or a restart order, makes of the machine before its first stage: stored registers take their stored
values (R782, R806), but for the caps, which stand over a restart (R660). A crystal that has failed stays failed
over a power-on, and the source that drives the timebase with it (DESIGN CHOICE, log 71: R69 is silent). -/
def anew (cold : Bool) (s : State) : State :=
  { s with
    win := { strapOvr := s.stored 0x280 0, ignored := if cold then 0 else s.win.ignored
             ignLast := if cold then 0 else s.win.ignLast, ignAddr := if cold then 0 else s.win.ignAddr
             tb := if cold then 0 else s.win.tb, osc := s.win.osc, oscFailed := s.win.oscFailed }
    ports := [], fns := [], parts := [], rings := []
    tens := tmap {} (fun _ t => anewTens cold t) s.tens
    mevHeld := if cold then [] else s.mevHeld, mevLost := 0, mevRun := 0
    mods := (List.range 96).foldl (fun a w => tset {} w (anewMod cold (s.mod w)) a) []
    isles := []
    cores := if cold then [] else tmap {} (fun _ c => { scratchCe := c.scratchCe, colCe := c.colCe }) s.cores
    chans := [], cols := [], unitKeys := [], badUnits := []
    fab := { nextPid := s.fab.nextPid, nextTag := s.fab.nextTag }
    sh := { sound := if cold && s.sh.sound != 0 then 1 else s.sh.sound
            ext := (List.range 24).foldl (fun a e => tset 0 e (BitVec.ofNat 5 (s.stored (0xC0100 + 4 * e) 0).toNat) a) [] }
    reads := []
    trays := (List.range 18).foldl (fun a t => tset {} t (anewTray cold (s.tray t)) a) []
    flt := if cold then {} else { fenced := s.flt.fenced, spares := s.flt.spares }
    colms := if cold then [] else tmap {} (fun _ c => { ce := c.ce }) s.colms
    keys := anewKeys cold s.keys, boot := anewBoot cold s, pwr := anewPower cold s, therm := anewTherm cold s
    -- FRAMES and PERF_COUNT count on from power-on (R464, R478, R782)
    sports := if cold then [] else tmap {} (fun _ p => { frames := p.frames, perf := p.perf }) s.sports
    pins := [], pipes := if cold then [] else tmap {} (fun _ x => { gen := x.gen }) s.pipes
    intakes := [], stw := anewStew cold s
    upd := { s.upd with src := 0, still := if cold then 1 else s.upd.still } }

/-! ### The beginning of a stage -/

/-- Stage n begins (R546): at stage 2 contactors close, at stage 3 the rails of accepted modules rise. -/
def beginStage (n : Nat) (s : State) : State :=
  let s1 := markWait { s with boot := { s.boot with
    stage := n, began := s.win.tb, beganUp := w64 s.upTimeAll, waitFrom := 0, waitSum := 0, found := [], gone := [], held := false } }
  if n = 2 then
    (List.range 18).foldl (fun a t =>
      if (a.tray t).svc = .inService then
        let up := t == 17 || !(a.heldOff t)
        (a.setTtherm t { a.ttherm t with valve := if up then 100 else 0 }).setTray t { a.tray t with contactor := up }
      else a) s1
  else if n = 3 then
    if s1.fuses.split then s1
    else (List.range 96).foldl (fun a w =>
      if (a.mod w).stage != 0 then a
      else match a.fuseCause w with
        | some c => failTests w 3 c a
        | none => if a.ordersOn w then startRise w a else a.setMod w { a.mod w with stage := 15, cause := 7 }) s1
  else s1

/-- POWER_ON (R545, R562, R772): `straps` gives the strap blocks as the trays in their slots carry them, by position. -/
def powerOn (straps : List Word) (s : State) : State :=
  if s.boot.powered then s
  else
    let s1 := anew true s
    let s2 := (List.range 18).foldl (fun a t =>
      match straps[t]? with
      | some v =>
        let y := a.tray t
        a.setTray t { y with
          badType := if Fld v 5 3 = trayType t then none else some (BitVec.ofNat 3 (Fld v 5 3))
          ctlHost := Fld v 12 4, fabMode := bit v 8, preset := BitVec.ofNat 3 (Fld v 9 3), pipeMode := bit v 16 }
      | none => a) s1
    updBreak 16 s2

def execPowerOn (straps : List Word) (s : State) : Host.Outcome State Fault Refusal := .next (powerOn straps s)

/-! ### What the stages find (Table 15-4) -/

/-- An item of a stage. -/
def itemAt (stage tray slot die isle pos cause : Nat) : BootItem := ⟨stage, tray, slot, die, isle, pos, cause⟩

/-- An item for a module. -/
def modItem (stage w cause : Nat) : BootItem := itemAt stage (w / 8) (w % 8) 0 0 0 cause

/-- What a stage comes to: it stops, ARG, its items, the state. -/
structure StageOut where
  stop : Bool
  arg : Nat
  items : List BootItem
  st : State

/-- Stage 0: shelves in service, and the busbar. -/
def stage0 (its : List BootItem) (s : State) : StageOut :=
  let low := s.capacity < s.machDraw
  let more := if low then [itemAt 0 17 0 0 0 0 2] else []
  { stop := its.any (fun b => b.cause == 1), arg := ([0, 1, 2, 3].filter (fun n => decide (0 < (s.shelf n).good.toNat))).length
    items := its.filter (fun b => b.cause == 1) ++ more, st := s }

/-- Stage 1: the channels that have verified their firmware; each role goes to the first of its order (R648). An item's
position is the channel. -/
def stage1 (its : List BootItem) (s : State) : StageOut :=
  let bad := ([0, 1, 2].filter (fun c => its.any (fun b => b.pos == c)))
  let good := [0, 1, 2].filter (fun c => !(bad.contains c))
  let s1 := [0, 1, 2].foldl (fun a c => a.setStew c { a.stew c with st := if bad.contains c then 3 else 1 }) s
  let s2 := { s1 with stw := { s1.stw with
    spokes := good.head?.getD 3, cool := ([1, 2, 0].find? (fun c => good.contains c)).getD 3, epoch := 1 } }
  { stop := decide (good.length < 2), arg := (good.map (fun c => 2 ^ c)).sum
    items := bad.map (fun c => itemAt 1 17 0 0 0 c (if good.length < 2 then 1 else 2)), st := s2 }

/-- Stage 2: a silent warden, or one that a safety action keeps off (R561), and a type mismatch (R52) make a missing tray. -/
def stage2 (its : List BootItem) (s : State) : StageOut :=
  let here := (List.range 17).filter (fun t => (s.tray t).svc == .inService)
  let silent := here.filter (fun t => its.any (fun b => b.cause == 2 && b.tray == t) || !(s.tray t).contactor)
  let wrong := here.filter (fun t => !(silent.contains t) && (s.tray t).mismatch)
  let s1 := (silent ++ wrong).foldl (fun a t =>
    let b := (trayMods t).foldl (fun b w => if (b.mod w).state = 0 then b
      else b.setMod w { b.mod w with stage := 2, cause := if wrong.contains t then 3 else 2 }) a
    b.setTray t { b.tray t with svc := .failed, strapsRead := wrong.contains t }) s
  let runs := here.filter (fun t => !(silent.contains t)) ++ [17]
  let s2 := runs.foldl (fun a t => a.setTray t { a.tray t with strapsRead := true }) s1
  let s3 := { s2.setTray 17 { s2.tray 17 with transport := s2.upd.switch } with
    stw := { s2.stw with wardens := BitVec.ofNat 18 ((runs.map (fun t => 2 ^ t)).sum) } }
  -- the wardens that start, rather than run on over a restart, report the last words they hold (R673)
  let s4 := (runs.filter (fun t => !(s.wardenRuns t))).foldl (fun a t => tellWords t a) s3
  { stop := its.any (fun b => b.cause == 1), arg := ((silent ++ wrong).map (fun t => 2 ^ t)).sum
    items := its.filter (fun b => b.cause == 1) ++ silent.map (fun t => itemAt 2 t 0 0 0 0 2) ++
      wrong.map (fun t => itemAt 2 t 0 0 0 0 3), st := s4 }

/-- Modules that left service at a stage. -/
def State.outAt (s : State) (n : Nat) : List Nat :=
  (List.range 96).filter (fun w => (s.mod w).state == 2 && (s.mod w).stage.toNat == n)

/-- Stage 3: rails and fuses (R556, R557, R574). Items of rails that are still rising count as missed. -/
def stage3 (its : List BootItem) (s : State) : StageOut :=
  let s1 := (its.filter (fun b => b.cause == 2)).foldl (fun a b => failTests (itemMod b) 3 2 a) s
  let out := s1.outAt 3
  { stop := s.fuses.split, arg := out.length
    items := if s.fuses.split then [itemAt 3 17 0 0 0 0 1] else out.map (fun w => modItem 3 w (s1.mod w).cause.toNat), st := s1 }

/-- Stage 4: a die that fails takes its module out (R552). -/
def stage4 (its : List BootItem) (s : State) : StageOut :=
  let l := its.filter (fun b => s.modAlive (itemMod b))
  let s1 := l.foldl (fun a b => if a.modAlive (itemMod b) then failTests (itemMod b) 4 b.cause a else a) s
  { stop := false, arg := (s1.outAt 4).length, items := l, st := s1 }

/-- Stage 5: cores that fail are kept for the numbering of stage 6 (R553). -/
def stage5 (its : List BootItem) (s : State) : StageOut :=
  let l := its.filter (fun b => s.modAlive (itemMod b))
  { stop := false, arg := l.length, items := l
    st := { s with boot := { s.boot with badCores := l.map (fun b => (itemIsle b, b.pos)) } } }

/-- The core failures of stage 5 as items, from what it kept. -/
def State.coreItems (s : State) : List BootItem :=
  s.boot.badCores.map (fun p => itemAt 5 (p.1 / 128) (p.1 / 16 % 8) (p.1 / 4 % 4) (p.1 % 4) p.2 1)

/-- Stage 6: columns and numbering (R553). An item with cause 0 is a column whose failures exceed its spares. Modules that
pass enter service (R559). -/
def stage6 (its : List BootItem) (s : State) : StageOut :=
  let ws := (List.range 96).filter s.modAlive
  let l := its.filter (fun b => s.modAlive (itemMod b))
  let r := numberMods ws (s.coreItems ++ l) s
  let s1 := r.2.1.foldl (fun a p => if a.modAlive p.1 then failTests p.1 6 p.2 a else a) r.2.2
  let s2 := (ws.filter s1.modAlive).foldl (fun a w => a.setMod w { a.mod w with state := 1 }) s1
  let items := l.filter (fun b => b.cause == 1) ++ r.1
  let fenced := ((ws.map modIsles).flatten.map (fun g => 16 - (s2.isle g).cores.length)).sum
  let arg := match items.head? with
    | some b => if b.cause = 1 then (l.filter (fun b => b.cause == 1)).length
      else if b.cause = 8 then fenced else (s2.outAt 6).length
    | none => 0
  { stop := false, arg := arg, items := items, st := s2 }

/-- The link that an item names: port q of a module or of an attached tray (R408). -/
def itemLink (b : BootItem) : Nat := if b.tray < 12 then itemMod b * 8 + b.pos else 768 + (b.tray - 12) * 8 + b.pos

/-- What an item of stage 7 or 8 names takes part: a module or a tray that has left service does not (R558). -/
def State.takesPart (s : State) (b : BootItem) : Bool := if b.tray < 12 then s.modAlive (itemMod b) else s.trayRuns b.tray

/-- A link is failed in the map from bring-up (R558): reason 1 for training, 5 for a module or tray out of service. -/
def bootFail (reason l : Nat) (s : State) : State :=
  onLink l (fun k => { k with failed := true, inMap := true, training := false, reason := reason }) s

/-- Stage 7: links that did not train, or to the wrong far end. -/
def stage7 (its : List BootItem) (s : State) : StageOut :=
  let l := its.filter s.takesPart
  { stop := false, arg := l.length, items := l, st := l.foldl (fun a b => bootFail 1 (itemLink b) a) s }

/-- SOUND_STATUS (Table 10-8). -/
def State.soundStatus (s : State) : Word :=
  w32 (s.sh.sound.toNat + s.sh.set.toNat * 4 + b2n s.sh.trained * 16 + s.sh.ringsFailed.length * 2 ^ 8)

/-- Stage 8: the shape (R365, R375, R389) and its circuits; items of stage 7 reported here fail their links (R567). An item of
cause 2 names a z ring with a failed circuit by its position; the circuit taken to be dark is the ring's wrap (log 109). The
Sound joins the module ends of the wraps of attached trays that are missing (R372). -/
def stage8 (its : List BootItem) (s : State) : StageOut :=
  let rings := ((its.filter (fun b => b.stage == 8 && b.cause == 2)).map (fun b => b.pos)).dedup
  let late := its.filter (fun b => b.stage == 7 && s.takesPart b)
  let sound : BitVec 2 := if (s.tray 16).svc = .absent then 0 else if s.trayRuns 16 then s.sh.sound else 3
  let tall := !s.effFab && sound == 1 && !(tooManyRings rings)
  let s1 := { s with sh := { s.sh with
    sound := sound, shape := if tall then .s446 else .s166, set := if tall then 0 else 3, trained := tall, ringsFailed := rings
    dark := if tall then rings.map (fun r => winOf (r % 4) (r / 4 % 4) 5) else []
    phase := .idle, setting := false, setCols := [], extActive := if tall then s.extOn else [] } }
  let s2 := late.foldl (fun a b => bootFail 1 (itemLink b) a) s1
  let s3 := ((List.range 96).filter (fun w => !(s2.modAlive w))).foldl
    (fun a w => (List.range 8).foldl (fun b q => bootFail 5 (w * 8 + q) b) a) s2
  let s4 := ([12, 13, 14, 15].filter (fun t => !(s3.trayRuns t))).foldl
    (fun a t => (trayPorts t).foldl (fun b l =>
      -- in a 3D shape only the tray's own ports fail: the wrap is joined without it
      if tall then b.setLink (linkKey b.sh.shape l) { b.link (linkKey b.sh.shape l) with failed := true, inMap := true, reason := 5 }
      else bootFail 5 l b) a) s3
  let flat := if !s.effFab && !tall then [itemAt 8 16 0 0 0 0 1] else []
  { stop := false, arg := if flat.isEmpty then rings.length else s4.soundStatus.toNat
    items := flat ++ (if flat.isEmpty then rings.map (fun r => itemAt 8 16 0 0 0 r 2) else []) ++ late, st := s4 }

/-- An entry of the key store at stage 9 (R723): loaded where its tag checks. -/
def openEntry (bad : List Nat) (n : Nat) (s : State) : State :=
  let v := s.stored (keyItem n) 0
  if v = 0 then s
  else if bad.contains n || s.keys.stale.contains v.toNat then machineEvent 0x0802 0 1 none (w64 n) 0 (storeItem (keyItem n) 0 s)
  else
    let t := s.ten n
    if t.keyLoaded then s
    else { s.setTen n { t with keyLoaded := true, keyEph := false, keyGen := t.keyGen + 1, keyId := v.toNat } with
      keySerial := max s.keySerial v.toNat }

/-- Stage 9: the key service (R722, R723, R736, R737). An item of cause 1 is the failure of the generator's health test, one of
cause 2 an entry whose tag fails, by its tenant. -/
def stage9 (its : List BootItem) (s : State) : StageOut :=
  -- a whiteout that occurred without power is reported now (Table 20-6 step 7)
  let s1 := if s.keys.white && s.keys.atPower then
      logAdd 5 0 17 (w64 s.keys.lids.toNat) (w32 s.keys.count.toNat) [] (whiteEvent true s) else s
  let s2 := if s1.keys.storeLost = true ∧ s1.keys.white = false then enterWhite true s1 else s1
  let sick := its.any (fun b => b.cause == 1)
  if s2.keys.white || sick then
    let s3 := if sick && !s2.keys.white then machineEvent 0x0802 0 2 none 0 0 s2 else s2
    { stop := false, arg := 0, items := [itemAt 9 17 0 0 0 0 1]
      st := { s3 with keys := { s3.keys with ready := false, storeOk := false } } }
  else
    let bad := (its.filter (fun b => b.cause == 2)).map (fun b => b.pos)
    let hit := allTens.filter (fun n => s2.stored (keyItem n) 0 != 0 &&
      (bad.contains n || s2.keys.stale.contains (s2.stored (keyItem n) 0).toNat))
    let s3 := allTens.foldl (fun a n => openEntry bad n a) s2
    let g := s3.stored wrapItem 1
    let s4 := { s3 with keys := { s3.keys with
      ready := true, storeOk := true, wkgen := if g = 0 then s3.keys.wkLast else g, wkLast := if g = 0 then s3.keys.wkLast else g } }
    let s5 := ((List.range 96).filter s4.modAlive).foldl (fun a w => a.setMod w { a.mod w with keyTransport := true }) s4
    { stop := false, arg := (hit.map (fun n => 2 ^ n)).sum, items := hit.map (fun n => itemAt 9 17 0 0 0 n 2), st := s5 }

/-- Extents of a preset's boxes (Table 5-5). -/
def presetSize (sh : Shape) (n : Nat) : Nat × Nat × Nat :=
  if sh = .s166 then
    match n with
    | 1 => (16, 1, 6) | 2 => (16, 1, 3) | 3 => (16, 1, 2) | 4 => (16, 1, 1) | 5 => (8, 1, 1) | 6 => (4, 1, 1) | _ => (2, 1, 1)
  else
    match n with
    | 1 => (4, 4, 6) | 2 => (4, 4, 3) | 3 => (4, 4, 2) | 4 => (4, 4, 1) | 5 => (4, 2, 1) | 6 => (2, 2, 1) | _ => (2, 1, 1)

/-- A preset's boxes by increasing origin, z first, then y, then x (R189). -/
def presetBoxes (sh : Shape) (n : Nat) : List Box :=
  if n = 0 then []
  else
    let e := presetSize sh n
    let starts := fun (a k : Nat) => (List.range (axisLen sh a / max 1 k)).map (fun i => i * k)
    ((starts 2 e.2.2).map (fun z => ((starts 1 e.2.1).map (fun y => (starts 0 e.1).map (fun x =>
      ({ x0 := x, y0 := y, z0 := z, ex := e.1, ey := e.2.1, ez := e.2.2 } : Box)))).flatten)).flatten

/-- Stage 10: the partitions of the effective preset, owned by tenant 0 (R189). -/
def stage10 (s : State) : StageOut :=
  let bs := presetBoxes s.sh.shape s.effPreset
  let s1 := bs.zipIdx.foldl (fun a b => a.setPart b.2 { a.part b.2 with boxReg := boxWord b.1 0 }) s
  let bad := bs.filterMap (fun b => (b.mods s.sh.shape).find? (fun w => (s.mod w).state != 1))
  { stop := false, arg := bad.length, items := bad.map (fun w => modItem 10 w 1), st := s1 }

/-- Stage 11: the portal bridges (R546, Table 15-4); an item names a portal tray whose bridge is not ready. Intake trays take
their mode (R506). -/
def stage11 (its : List BootItem) (s : State) : StageOut :=
  let bad := [12, 13].filter (fun t => !(s.trayRuns t) || its.any (fun b => b.tray == t))
  let s1 := bad.foldl (fun a t => if a.trayRuns t then a.setTray t { a.tray t with svc := .failed } else a) s
  let s2 := modePoint 15 (modePoint 14 s1)
  { stop := decide (bad.length = 2), arg := 0
    items := bad.map (fun t => itemAt 11 t 0 0 0 0 (if bad.length = 2 then 1 else 2)), st := s2 }

/-- The work of stage n. -/
def stageWork (n : Nat) (its : List BootItem) (s : State) : StageOut :=
  match n with
  | 0 => stage0 its s
  | 1 => stage1 its s
  | 2 => stage2 its s
  | 3 => stage3 its s
  | 4 => stage4 its s
  | 5 => stage5 its s
  | 6 => stage6 its s
  | 7 => stage7 its s
  | 8 => stage8 its s
  | 9 => stage9 its s
  | 10 => stage10 s
  | _ => stage11 its s

/-! ### Reports (R547–R550) -/

/-- RESULT (R547): a repaired column alone leaves stage 6 a PASS. -/
def StageOut.result (n : Nat) (o : StageOut) : BitVec 2 :=
  if o.stop then 3
  else if (if n = 6 then o.items.filter (fun b => b.cause != 1) else o.items).isEmpty then 1 else 2

/-- An item's word, as BOOT_ITEM_i (R549). -/
def itemWord (b : BootItem) : Nat :=
  b.stage + b.tray * 2 ^ 4 + b.slot * 2 ^ 9 + b.die * 2 ^ 12 + b.isle * 2 ^ 14 + b.pos * 2 ^ 16 + b.cause * 2 ^ 21

/-- A stage's report is written (R548): BOOT_REPORT_n, the items, the log. -/
def report (n : Nat) (o : StageOut) (s : State) : State :=
  let r := o.result n
  let f := o.items.head?.getD (itemAt 0 0 0 0 0 0 0)
  let k := o.items.length
  let rep : BootRep := {
    result := r, cause := BitVec.ofNat 4 f.cause, items := BitVec.ofNat 8 (min 255 k), tray := f.tray, slot := f.slot
    die := f.die, arg := w32 o.arg, tb := s.win.tb }
  let s1 := { s with boot := { s.boot with
    items := (s.boot.items ++ o.items).take 64, count := satAdd s.boot.count k
    reports := tset {} n rep s.boot.reports, degraded := s.boot.degraded || r == 2 } }
  logAdd 2 0 17 (w64 (n + r.toNat * 16 + f.cause * 2 ^ 8)) (w32 k) (o.arg :: o.items.map itemWord) s1

/-- Stage 0's report enters the log once stage 1 has channels that keep one (R548). -/
def logFirst (s : State) : State :=
  let r := tget {} 0 s.boot.reports
  let l := s.boot.items.filter (fun b => b.stage == 0)
  logAdd 2 0 17 (w64 (r.result.toNat * 16 + r.cause.toNat * 2 ^ 8)) (w32 l.length) (r.arg.toNat :: l.map itemWord) s

/-- Bring-up stops (R547): from stage 3 on every module is lowered. -/
def stopBoot (n : Nat) (s : State) : State :=
  let s1 := { s with boot := { s.boot with st := 2, failCode := some n } }
  if 3 ≤ n then (List.range 96).foldl (fun a w => lowerMod w a) s1 else s1

/-- The last stage has ended: registers take their Reset values, a LO word written meanwhile with them (R15, R175), the machine
runs, and degraded codes show (R550). Trays inserted meanwhile come up now (R565). -/
def endBoot (s : State) : State :=
  ((List.range 18).filter (fun t => (s.tray t).svc == .joining)).foldl (fun a t => startJoin t a) { s with
    win := { s.win with latches := [] }
    boot := { s.boot with
      st := 1, again := false, codes := (List.range 12).filter (fun n => (tget {} n s.boot.reports).result == 2) } }

/-- Stages run now: none while held, stopped, complete or without power; crawl, and a module still below 0.70 V after it,
pause stages 4–8 (R562). -/
def State.stageRuns (s : State) : Bool :=
  s.boot.powered && s.boot.st == 0 && !s.boot.held &&
  !((decide (2 ≤ s.pwr.sag) || s.anyPaused) && decide (4 ≤ s.boot.stage ∧ s.boot.stage ≤ 8))

/-- A stage ends with what failed in it; trays removed while it ran are items of it, as missing trays (R565; the cause is that
of stage 2's missing tray, DESIGN CHOICE, log 118). -/
def endStage (its : List BootItem) (s : State) : State :=
  let n := s.boot.stage
  let w := stageWork n (s.boot.found ++ its.filter (fun b => b.stage == n || (n == 8 && b.stage == 7))) s
  let o := { w with items := w.items ++ s.boot.gone.map (fun t => itemAt n t 0 0 0 0 2) }
  let s1 := report n o (if n = 1 then logFirst o.st else o.st)
  if o.stop then stopBoot n s1
  else if n = 2 ∧ (s1.tray 17).transport = true then { s1 with boot := { s1.boot with held := true } }
  else if n = 11 then endBoot s1
  else beginStage (n + 1) s1

/-- STAGE_END (R547): `items` are what failed in the stage. -/
def execStageEnd (items : List BootItem) (s : State) : Host.Outcome State Fault Refusal :=
  .next (if s.stageRuns && s.stageDone then endStage items s else s)

/-- Bounds of the stages in ticks (Table 15-1). -/
def stageBound (n : Nat) : Nat :=
  match n with
  | 0 => 1000000000 | 1 => 500000000 | 2 => 300000000 | 3 => 200000000 | 4 => 20000000 | 5 => 10000000 | 6 => 10000000
  | 7 => 200000000 | 8 => 10000000 | 9 => 100000000 | 10 => 5000000 | _ => 100000000

/-- Ticks that count toward the bound of the stage in progress (R546): none below 0.70 V, and none in a wait for a cold die. -/
def State.stageTicks (s : State) : Nat := s.upTimeAll - s.boot.beganUp.toNat - s.boot.waitSum

/-- STAGE_BOUND_EXPIRY (R546): the stage completes with the items not finished treated as failed; a rail still rising has
missed its window. -/
def stageExpiry (items : List BootItem) (s : State) : State :=
  let n := s.boot.stage
  if s.stageRuns && decide (stageBound n ≤ s.stageTicks) && (n != 4 || s.stageDone) then
    let late := if n = 3 then ((List.range 96).filter (fun w => (s.pwrMod w).rising)).map (fun w => modItem 3 w 2) else []
    endStage (items ++ late) s
  else s

def execStageBoundExpiry (items : List BootItem) (s : State) : Host.Outcome State Fault Refusal :=
  .next (stageExpiry items s)

/-! ### Calibration (R551, R552, R554) -/

/-- Table 2-2 at a variant's ceiling, and at 0.70 V, in ps. -/
def transitMax (v : Nat) (ceil : Bool) : Nat := if !ceil then 860 else if v = 0 then 460 else if v = 1 then 560 else 700

/-- Measured transit time in ps, rounded up (R551): 1 ms ÷ (N × 4,096), within the register's 16 bits. -/
def transitPs (n : Nat) : Nat := if n = 0 then 65535 else min 65535 (cdiv 1000000000 (n * 4096))

/-- CALIBRATION_LOOP_END: loops counted by a die at 0.70 V, or at the ceiling; none on a die that waits, below −10 °C
(R554). Crawl discards the loop (R562). -/
def calibrate (w d : Nat) (ceil : Bool) (n : Nat) (s : State) : State :=
  if s.stageRuns && s.boot.stage == 4 && s.modAlive w && !(s.die (w * 4 + d)).cold then
    let k := w * 4 + d
    let v := tget 0 k s.boot.cal
    let ps := transitPs n
    let v' := if ceil then w32 (Fld v 0 16 + ps * 2 ^ 16) else w32 (ps + Fld v 16 16 * 2 ^ 16)
    let bad := transitMax s.fuses.variant.toNat ceil * 90 < ps * 100
    let item := itemAt 4 (w / 8) (w % 8) d 0 0 2
    { s with boot := { s.boot with
        cal := tset 0 k v' s.boot.cal
        found := if bad && !(s.boot.found.contains item) then s.boot.found ++ [item] else s.boot.found } }
  else s

def execCalibrationLoopEnd (w : Fin 96) (d : BitVec 2) (ceil : Bool) (n : BitVec 17) (s : State) :
    Host.Outcome State Fault Refusal :=
  .next (calibrate w.val d.toNat ceil n.toNat s)

/-- COLD_WAIT_TIMEOUT (R554): a die below −10 °C 10 minutes, 60,000,000,000 ticks, after its stage began; of a module that
tests itself (R560, R700), after its tests began. -/
def coldTimeout (w d : Nat) (s : State) : State :=
  let item := itemAt 4 (w / 8) (w % 8) d 0 0 3
  let p := s.pwrMod w
  if s.stageRuns && s.boot.stage == 4 && s.modAlive w && (s.die (w * 4 + d)).cold &&
      decide (s.boot.began.toNat + 60000000000 ≤ s.win.tb.toNat) && !(s.boot.found.contains item) then
    markWait { s with boot := { s.boot with found := s.boot.found ++ [item] } }
  else if s.boot.st == 1 && p.testing && !(s.paused w) && (s.die (w * 4 + d)).cold &&
      decide (p.testFrom - 1 + 60000000000 ≤ s.win.tb.toNat) then
    failTests w 4 3 (stageLog (w / 8 + w % 8 * 32) (4 + 3 * 16) [item] s)
  else s

def execColdWaitTimeout (w : Fin 96) (d : BitVec 2) (s : State) : Host.Outcome State Fault Refusal :=
  .next (coldTimeout w.val d.toNat s)

/-! ### The transport switch, acknowledgement, restart -/

/-- TRANSPORT_SWITCH (R555, R566, R767). -/
def transportSwitch (on : Bool) (s : State) : State :=
  let s1 := movingEvent s { s with upd := { s.upd with switch := on } }
  if s1.boot.held && !on then beginStage 3 s1 else s1

def execTransportSwitch (on : Bool) (s : State) : Host.Outcome State Fault Refusal := .next (transportSwitch on s)

/-- Degraded codes leave the display together (R550). -/
def ackCodes (s : State) : State := { s with boot := { s.boot with codes := [] } }

/-- BOOT_ACK: the register's 1, AcknowledgeDegraded or ACK. -/
def execBootAck (src : Source) (s : State) : Host.Outcome State Fault Refusal :=
  .next (bySource src 0x110008 1 (.ok (ackCodes s)) s)

/-- A restart order takes effect (R660, R773): partitions are cut, and stages 2–11 run. -/
def restart (s : State) : State :=
  let s1 := s.partIds.foldl (fun a p => windPart p .cut false a) s
  beginStage 2 (updBreak 20 (anew false s1))

/-- MACH_RESTART (R660). -/
def restartReg (val : Word) (s : State) : Verdict :=
  if Fld val 0 16 ≠ 0x0A96 then .error 3
  else if !s.majority then .error 5
  else .ok (restart s)

/-- RESTART: the register with its value, Chassis.Reset or the console. -/
def restartOrder (src : Source) (val : Word) (s : State) : State :=
  match src with
  | .window p => regOp p.toNat 0x410 val.toNat (restartReg val s) s
  | .mgmt m =>
    if !s.majority then answerM m 503 2 [] s
    else answerM m 200 0 [] (restart (logAdd 1 0 17 0 0 [mgmtNum m, 0x410, 0xA96, 0xA96] s))

def execRestart (src : Source) (val : Word) (s : State) : Host.Outcome State Fault Refusal := .next (restartOrder src val s)

/-! ### The oscillators (R69) -/

/-- OSCILLATOR_FAILURE: the active crystal fails, and the other source takes over; the count goes on. -/
def oscFails (s : State) : State :=
  if s.win.osc = 2 then s
  else
    let bad := s.win.oscFailed ||| (if s.win.osc = 0 then 1 else 2)
    let next : BitVec 2 := if bad = 3 then 2 else if s.win.osc = 0 then 1 else 0
    machineEvent 0x070D 0 (if next = 2 then 2 else 1) none s.win.tb 0 { s with win := { s.win with osc := next, oscFailed := bad } }

def execOscillatorFailure (s : State) : Host.Outcome State Fault Refusal := .next (oscFails s)

end Sys2Proof.Machine
end

