-- ==== Sys2Proof/Machine/Stewards.lean ====
section
/-! DEFINITION. The stewards and wardens (ch. 18): heartbeats and failure (R652–R655), roles (R656–R658), the log's copies
(R670–R673), wardens' adoption (R669). -/

namespace Sys2Proof.Machine

/-! ### Heartbeats (R652–R655) -/

/-- PATH_ALARM (Table 18-6): path 0 is the Ethernet, 1 the strait. -/
def pathAlarm (c path : Nat) (enter : Bool) (s : State) : State :=
  machineEvent 0x0603 0 (c + path * 4 + b2n enter * 8) none 0 0 s

/-- The fail-over time by which R564 extends a stage's bound: the 110 ms of R656, 11,000,000 ticks (DEDUCED, log 125). -/
def failOverTicks : Nat := 11000000

/-- A channel is lost during bring-up (R564): the stage's bound is extended by the fail-over time. With two lost the stage in
progress stops with stage 1's cause 1, ARG the channels that remain. -/
def bootLost (c : Nat) (s : State) : State :=
  if s.boot.powered && s.boot.st == 0 then
    if s.majority then { s with boot := { s.boot with waitSum := s.boot.waitSum + failOverTicks } }
    else
      let n := s.boot.stage
      let up := (([0, 1, 2].filter s.chanUp).map (fun d => 2 ^ d)).sum
      stopBoot n (report n { stop := true, arg := up, items := [itemAt n 17 0 0 0 c 1], st := s } s)
  else s

/-- A channel is declared failed (R653, R656): STEWARD_FAILED, its roles pass, a trial of it has failed (R759). -/
def failChan (c : Nat) (s : State) : State :=
  let s1 := s.setStew c { s.stew c with
    st := 3, okE := 0, okS := 0, alarmE := false, alarmS := false, told := [], differs := [] }
  let s2 := machineEvent 0x0601 0 c none 0 s1.stw.epoch s1
  bootLost c (stewardTrial c (passRoles c 1 s2))

/-- What a rejoining channel lacks comes from a peer that has a working copy (R655, R670). -/
def syncCopy (c : Nat) (s : State) : State :=
  match (onward c).find? (fun d => s.chanUp d && (s.stew d).copyOk) with
  | some d => s.setStew c { s.stew c with
      copy := if (s.stew c).copyOk then (s.stew d).copy else (s.stew c).copy, inbox := (s.stew d).inbox }
  | none => s

/-- A channel rejoins (R655): STEWARD_RECOVERED; a role that nobody holds is taken. -/
def recoverChan (c : Nat) (s : State) : State :=
  let s1 := (syncCopy c s).setStew c { (syncCopy c s).stew c with
    st := 1, missE := 0, missS := 0, alarmE := false, alarmS := false }
  let s2 := machineEvent 0x0602 0 c none 0 s1.stw.epoch s1
  let s3 := if s2.reloading 1 c then s2 else joinInst 1 c s2
  let s4 := if s3.stw.spokes = 3 then giveSpokes c 1 s3 else s3
  -- a majority regained lets the trays that wait for one join (R659)
  joinWaiting (if s4.stw.cool = 3 then giveCool c 1 s4 else s4)

/-- One path of a channel after a period: periods missed and received in a row, and its alarm. -/
def pathStep (heard : Bool) (miss ok : Nat) (alarm : Bool) : Nat × Nat × Bool :=
  let m := if heard then 0 else miss + 1
  let k := if heard then ok + 1 else 0
  (m, k, if alarm then decide (k < 50) else decide (5 ≤ m))

/-- One channel is judged at the end of a period (R653, R655, R688). -/
def judgeChan (heardE heardS : Bool) (c : Nat) (s : State) : State :=
  let x := s.stew c
  let e := pathStep heardE x.missE x.okE x.alarmE
  let t := pathStep heardS x.missS x.okS x.alarmS
  let y := { x with missE := e.1, okE := e.2.1, missS := t.1, okS := t.2.1 }
  if x.up then
    if 5 ≤ e.1 ∧ 5 ≤ t.1 then failChan c (s.setStew c y)
    else
      let s1 := s.setStew c { y with alarmE := e.2.2, alarmS := t.2.2, st := if e.2.2 || t.2.2 then 2 else 1 }
      let s2 := if e.2.2 = x.alarmE then s1 else pathAlarm c 0 e.2.2 s1
      if t.2.2 = x.alarmS then s2 else pathAlarm c 1 t.2.2 s2
  else if 50 ≤ e.2.1 ∧ 50 ≤ t.2.1 then recoverChan c (s.setStew c y)
  else s.setStew c y

/-- The cooling authority returns to its home channel B at a 100 ms boundary (R657). -/
def reclaim (s : State) : State :=
  if s.stw.cool ≠ 1 ∧ s.chanUp 1 = true then giveCool 1 2 s else s

/-- HEARTBEAT_PERIOD: the channels heard in the period just ended, bits 0–2 on the Ethernet, 3–5 on the strait. -/
def heartbeat (heard : BitVec 6) (s : State) : State :=
  let k := s.win.tb.toNat / 2000000
  if s.boot.powered = false ∨ s.stw.period = k + 1 then s
  else
    let s1 := { s with stw := { s.stw with period := k + 1 } }
    let s2 := [0, 1, 2].foldl (fun a c => judgeChan (heard.getLsbD c) (heard.getLsbD (3 + c)) c a) s1
    if k % 5 = 0 then reclaim s2 else s2

def execHeartbeatPeriod (heard : BitVec 6) (s : State) : Host.Outcome State Fault Refusal := .next (heartbeat heard s)

/-- HEARTBEAT_RECEIPT (R658, R679): another channel claims the spokesman role at an epoch. -/
def splitResolve (c : Nat) (epoch : Word) (s : State) : State :=
  let h := s.stw.spokes
  if 3 ≤ c ∨ 3 ≤ h ∨ c = h then s
  else if s.stw.epoch < epoch ∨ (s.stw.epoch = epoch ∧ c < h) then
    roleChanged 0 h c 4 { s with stw := { s.stw with spokes := c, epoch := epoch } }
  else roleChanged 0 c h 4 s

def execHeartbeatReceipt (claimant : BitVec 2) (epoch : Word) (s : State) : Host.Outcome State Fault Refusal :=
  .next (splitResolve claimant.toNat epoch s)

/-- SWITCHBACK (R657): to another healthy channel. -/
def switchback (c : Nat) (s : State) : Verdict :=
  if 3 ≤ c ∨ c = s.stw.spokes ∨ (s.stew c).st ≠ 1 then .error 3 else .ok (giveSpokes c 3 s)

def execSwitchback (m : Mgmt) (c : BitVec 2) (s : State) : Host.Outcome State Fault Refusal :=
  .next (bySource (.mgmt m) 0x400 c.toNat (switchback c.toNat s) s)

/-! ### The log's copies (R670–R673) -/

/-- LOG_RECORD_APPEND: the oldest record that a channel has received over the strait is appended to its copy. -/
def appendRec (c : Nat) (s : State) : State :=
  match (s.stew c).inbox with
  | r :: t => takeRec c r (s.setStew c { s.stew c with inbox := t })
  | [] => s

def execLogRecordAppend (c : Fin 3) (s : State) : Host.Outcome State Fault Refusal := .next (appendRec c.val s)

/-- A repaired copy while the log is unavailable (R672): a gap marker from the last good record to the ring's oldest, then the
ring. -/
def restoreLog (c : Nat) (s : State) : State :=
  let x := s.stew c
  let ring := s.stw.ram
  let lost := s.stw.ramLost
  let mark : LogRec := {
    tb := s.win.tb, lsn := x.lsn + 1, chan := c, cls := 4, code := 0, place := 17, arg0 := 0, arg1 := 0
    data := [c, x.lastGood.toNat, ((ring.head?.map LogRec.tb).getD 0).toNat, lost] }
  let s1 := s.setStew c { x with
    copyOk := true, lsn := x.lsn + 1, copy := (mark :: ring).foldl (fun a r => addCopy r a) x.copy, inbox := [] }
  machineEvent 0x0606 0 0 none 0 (w32 lost)
    { s1 with stw := { s1.stw with unavail := false, ram := [], ramLost := 0, gaps := s1.stw.gaps + 1 } }

/-- LOG_COPY_REBUILT (R671, R672): from a peer, or from the RAM ring. -/
def copyRebuilt (c : Nat) (s : State) : State :=
  let x := s.stew c
  if x.copyOk then s
  else
    let s1 := if s.stw.unavail then restoreLog c s
      else match (onward c).find? (fun d => (s.stew d).copyOk) with
        | some d => gapMarker c x.lastGood s.win.tb 0 (s.setStew c { x with
            copyOk := true, copy := (s.stew d).copy, inbox := (s.stew d).inbox, deferred := [] })
        | none => s.setStew c { x with copyOk := true }
    machineEvent 0x0605 0 c none (w64 x.lastGood.toNat) 0 s1

def execLogCopyRebuilt (c : Fin 3) (s : State) : Host.Outcome State Fault Refusal := .next (copyRebuilt c.val s)

/-! ### Wardens (R669, R673) -/

/-- WARDEN_START (R669): a warden starts while its tray's contactor is closed. One that starts with it open has nothing to
adopt. -/
def wardenStart (t : Nat) (s : State) : State :=
  let y := s.tray t
  if s.boot.powered && y.contactor && y.svc != .absent && y.svc != .failed && !(s.wardenRuns t) && !(s.stw.adopting.contains t) then
    let s1 := s.setTray t { y with strapsRead := true }
    tellWords t { s1 with stw := { s1.stw with adopting := s1.stw.adopting ++ [t] } }
  else s

def execWardenStart (t : Fin 18) (s : State) : Host.Outcome State Fault Refusal := .next (wardenStart t.val s)

/-- What a returning warden finds different for a module: rails, core setpoint, effective cap (R669). -/
def modDiffs (s : State) (w : Nat) : List Nat :=
  let p := s.pwrMod w
  (if (p.obj.st == .on) != s.effOn w then [1] else []) ++
  (if p.obj.st == .on && p.vset != s.vTarget w then [2] else []) ++
  (match p.capLatch with | some c => if c = leastCap (s.capLimits w) then [] else [3] | none => [])

/-- The valve opening that a warden writes (R613). -/
def State.valveIntent (s : State) (t : Nat) : Nat :=
  if t < 12 then s.valveFor t (s.tray t).avg1 else if t < 17 then 100 else (s.ttherm t).valve

/-- All differences of a tray: (module or 127, kind). -/
def State.trayDiffs (s : State) (t : Nat) : List (Nat × Nat) :=
  ((trayMods t).map (fun w => (modDiffs s w).map (fun k => (w, k)))).flatten ++
  (if (s.ttherm t).forced || (s.ttherm t).valve != s.valveIntent t then [(127, 4)] else [])

/-- WARDEN_ADOPTION_DONE (R669): outputs follow the intent, each difference is logged, and WARDEN_ADOPTED is raised. A valve
that a leak closed stays closed (R779). -/
def adopted (t : Nat) (s : State) : State :=
  if s.stw.adopting.contains t then
    let d := s.trayDiffs t
    let s1 := (trayMods t).foldl (fun a w => a.setPwrMod w { a.pwrMod w with capLatch := none, guard := false }) s
    let x := s1.ttherm t
    let s2 := s1.setTtherm t { x with
      valve := if x.leakCut then x.valve else s.valveIntent t, forced := false, wdg := false }
    let s3 := { s2 with stw := { s2.stw with
      adopting := s2.stw.adopting.filter (fun u => u != t), wardens := s2.stw.wardens ||| BitVec.ofNat 18 (2 ^ t) } }
    let s4 := if x.wdg then machineEvent 0x0504 0 t none 0 0 s3 else s3
    let s5 := d.foldl (fun a e => logAdd 9 e.2 (if e.1 = 127 then t else e.1 / 8 + e.1 % 8 * 32) 0 0 [] a) s4
    (trayMods t).foldl (fun a w => applyOrder w a) (machineEvent 0x0608 0 t none 0 (w32 d.length) s5)
  else s

def execWardenAdoptionDone (t : Fin 18) (s : State) : Host.Outcome State Fault Refusal := .next (adopted t.val s)

end Sys2Proof.Machine
end

