-- ==== Sys2Proof/Machine/Panel.lean ====
section
/-! DEFINITION. The front panel (R50, R51, R54), locate (R675), re-arm (R628, R738), and the Redfish service and console
(R661–R666). -/

namespace Sys2Proof.Machine

/-! ### The code display (R51) -/

/-- A code of two characters. -/
def code2 (a b : Nat) : Nat := a * 256 + b

/-- The digit of a stage in a code, in hexadecimal. -/
def stageDigit (n : Nat) : Nat := if n < 10 then 0x30 + n else 0x37 + n

/-- A code where its condition holds. -/
def codeIf (b : Bool) (c : Nat) : List Nat := if b then [c] else []

/-- Some tray meets a test; some die does. -/
def State.anyTray (s : State) (p : TrayTherm → Bool) : Bool := s.therm.trays.any (fun x => p x.2)
def State.anyDie (s : State) (p : DieTherm → Bool) : Bool := s.therm.dies.any (fun x => p x.2)

/-- A module is out at run time with one of some causes. -/
def State.outBy (s : State) (l : List Nat) : Bool :=
  (List.range 96).any (fun w => (s.mod w).state == 2 && (s.mod w).stage == 15 && l.contains (s.mod w).cause.toNat)

/-- The active codes of a class, 1 the most severe (R51, R550, R635, R677, R707, R771). -/
def State.classCodes (s : State) : Nat → List Nat
  | 1 => codeIf s.keys.white 0x574F
  | 2 => codeIf (s.anyTray (·.leakCut) || s.therm.resCut) 0x4C43 ++
      codeIf (s.anyTray (·.ot) || s.anyDie (·.tripped) || s.therm.flowLost) 0x4854
  | 3 => codeIf s.stw.unavail 0x4C46
  | 4 => (match s.boot.failCode with | some n => [code2 0x46 (stageDigit n)] | none => []) ++ codeIf s.boot.held 0x5452
  | 5 =>
    (if s.boot.st = 0 then [] else s.boot.codes.map (fun n => code2 0x64 (stageDigit n))) ++
    codeIf (s.anyTray (·.wdg) || s.therm.forced) 0x4357 ++ codeIf (s.anyTray (·.inletHigh)) 0x4349 ++
    codeIf (s.therm.fault0 || s.therm.fault1 || s.therm.cduLeak || decide (s.therm.reservoir < 50)) 0x4350 ++
    codeIf (s.anyDie (fun x => !x.told.isEmpty)) 0x4353 ++
    codeIf ([0, 1, 2].any (fun c => (s.stew c).st == 3)) 0x5346 ++
    codeIf ([0, 1, 2].any (fun c => (s.stew c).alarmE || (s.stew c).alarmS)) 0x5350 ++
    codeIf (s.anyTray (·.wdg)) 0x574C ++ codeIf ([0, 1, 2].any (fun c => !(s.stew c).told.isEmpty)) 0x5644 ++
    codeIf (s.flt.lastFence != 0) 0x4346 ++ codeIf (s.outBy [6]) 0x4345 ++ codeIf (s.outBy [1, 4, 5, 6, 9, 11]) 0x4D4C ++
    codeIf (s.fab.links.any (fun l => (l.2.failed || l.2.fenced) && l.2.reason != 5)) 0x4C4B ++
    codeIf (s.win.osc != 0) 0x5442 ++ codeIf (s.upd.phase == 5) 0x5543
  | 6 => codeIf (s.boot.powered && s.boot.st == 0 && !s.boot.held) (code2 0x50 (stageDigit s.boot.stage)) ++
      codeIf (s.upd.phase == 2 || s.upd.phase == 3 || s.upd.phase == 4 || s.upd.phase == 6) 0x5550
  | 7 => codeIf (s.boot.st == 1) 0x4F4B
  | _ => []

/-- The active codes of the most severe class present; OK stands alone (R51, Table 15-3). -/
def State.topCodes (s : State) : List Nat :=
  (([1, 2, 3, 4, 5, 6, 7].map s.classCodes).find? (fun l => !l.isEmpty)).getD []

/-- Every active code but OK. -/
def State.allCodes (s : State) : List Nat := ([1, 2, 3, 4, 5, 6].map s.classCodes).flatten

/-- The active codes in order of arrival: those that have ended leave, new ones join at the end (R51). -/
def State.arrivals (s : State) : List Nat :=
  let all := s.allCodes ++ s.classCodes 7
  let kept := s.stw.active.filter (fun c => all.contains c)
  kept ++ all.filter (fun c => !(kept.contains c))

/-- The order of arrival as it stands is noted: at each tick, and at a turn of the display (log 81). -/
def noteCodes (s : State) : State := { s with stw := { s.stw with active := s.arrivals } }

/-- The codes of the most severe class present, in order of arrival (R51). -/
def State.turnCodes (s : State) : List Nat := s.arrivals.filter (fun c => s.topCodes.contains c)

/-- The code on the display (R51, R55): the one whose turn it is while it is among the most severe class present, else the
first of that class. -/
def State.display (s : State) : Nat :=
  if s.turnCodes.contains s.stw.shown then s.stw.shown else s.turnCodes.head?.getD 0

/-- DISPLAY_CYCLE: after 2 s (200,000,000 ticks) of a code, the next of the most severe class has its turn. -/
def displayCycle (s : State) : State :=
  if s.stw.shownTick = 0 ∨ s.stw.shownTick - 1 + 200000000 ≤ s.win.tb.toNat then
    let top := s.turnCodes
    let i := top.idxOf s.stw.shown
    let t := noteCodes s
    { t with stw := { t.stw with
        shown := (if i < top.length then top.rotate (i + 1) else top).head?.getD 0, shownTick := s.win.tb.toNat + 1 } }
  else s

def execDisplayCycle (s : State) : Host.Outcome State Fault Refusal := .next (displayCycle s)

/-! ### Buttons (R54, R675) -/

/-- LOCATE_BUTTON: toggles the panel's request (R50, R675). Pressed together with LAMP TEST, its toggle waits for the end of the
test (R54). DESIGN CHOICE (log 110): the toggle of a LOCATE pressed alone while a test is already running waits too; the spec
speaks only of the two pressed together. -/
def locateButton (s : State) : State :=
  let now := s.win.tb.toNat + 1
  if s.stw.lamp ≠ 0 then { s with stw := { s.stw with lampLocate := !s.stw.lampLocate } }
  else { s with stw := { s.stw with
      panelLocate := !s.stw.panelLocate, locTick := if s.stw.locTick = now then 0 else now } }

def execLocateButton (s : State) : Host.Outcome State Fault Refusal := .next (locateButton s)

/-- LAMP_TEST (R54): every panel element for 3 s. A LOCATE of the same tick was pressed together with it: its toggle is taken
back, and takes effect after the test. -/
def lampTest (s : State) : State :=
  let now := s.win.tb.toNat + 1
  let w := s.stw
  if w.lamp ≠ 0 then s
  else if w.locTick = now then
    { s with stw := { w with lamp := now, locTick := 0, panelLocate := !w.panelLocate, lampLocate := !w.lampLocate } }
  else { s with stw := { w with lamp := now } }

def execLampTest (s : State) : Host.Outcome State Fault Refusal := .next (lampTest s)

/-- LAMP_TEST_END: after 3 s, 300,000,000 ticks. -/
def lampEnd (s : State) : State :=
  if s.stw.lamp ≠ 0 ∧ s.stw.lamp - 1 + 300000000 ≤ s.win.tb.toNat then
    { s with stw := { s.stw with
        lamp := 0, lampLocate := false, panelLocate := if s.stw.lampLocate then !s.stw.panelLocate else s.stw.panelLocate } }
  else s

def execLampTestEnd (s : State) : Host.Outcome State Fault Refusal := .next (lampEnd s)

/-! ### Re-arm (R583, R628, R738) -/

/-- Every valid sensor of a die reads at or below 85 °C. -/
def DieTherm.cooled (x : DieTherm) : Bool := x.sensors.all (fun r => r.all (fun y => decide (y ≤ 340)))

/-- What one turn of the key re-arms among the safety actions. -/
def rearmConds (s : State) : State :=
  let now := s.win.tb.toNat
  let th := s.therm
  { s with therm := { th with
      dies := tmap {} (fun _ x => if x.tripped && x.cooled then { x with tripped := false } else x) th.dies
      flowLost := th.flowLost && !(th.goodFlow != 0 && decide (th.goodFlow - 1 + 1000000000 ≤ now))
      resCut := th.resCut && decide (th.reservoir ≤ 10)
      trays := tmap {} (fun _ x =>
        let dryOk := !x.leak && x.dry != 0 && decide (x.dry - 1 + 1000000000 ≤ now)
        let y := if x.ot && decide (x.inlet ≤ 340 ∧ x.outlet ≤ 340) then { x with ot := false } else x
        if y.leakCut && dryOk then { y with leakCut := false, valve := 100, forced := false } else y) th.trays } }

/-- A safety action still holds a module off. -/
def State.modHeld (s : State) (w : Nat) : Bool :=
  [0, 1, 2, 3].any (fun d => (s.die (w * 4 + d)).tripped) || s.heldOff (w / 8)

/-- SAFETY clears where no safety action holds any longer. -/
def clearSafety (s : State) : State :=
  ((List.range 96).filter (fun w => (s.pwrMod w).safety && !(s.modHeld w))).foldl
    (fun a w => a.setPwrMod w { a.pwrMod w with safety := false }) s

/-- A tray whose power a safety action removed comes up again once nothing holds it off (R628). -/
def raiseTrays (s : State) : State :=
  ((List.range 18).filter (fun t => (s.tray t).svc == .inService && !(s.tray t).contactor && !(s.heldOff t))).foldl
    (fun a t => startJoin t a) s

/-- The records of what a turn of the key has re-armed (R629), between two states: CODE 16 above that of the safety action
(log 118). -/
def rearmRecs (a b : State) : State :=
  let dies := ((List.range 384).filter (fun k => (a.die k).tripped && !(b.die k).tripped)).map (fun k =>
    (18, k / 32 + k / 4 % 8 * 32 + k % 4 * 256))
  let hot := ((List.range 18).filter (fun t => (a.ttherm t).ot && !(b.ttherm t).ot)).map (fun t => (18, t))
  let leak := ((List.range 18).filter (fun t => (a.ttherm t).leakCut && !(b.ttherm t).leakCut)).map (fun t => (17, t))
  let res := if a.therm.resCut && !b.therm.resCut then [(19, 17)] else []
  let flow := if a.therm.flowLost && !b.therm.flowLost then [(20, 17)] else []
  (dies ++ hot ++ leak ++ res ++ flow).foldl (fun s r => logAdd 5 r.1 r.2 0 0 [] s) b

/-- RE_ARM (R54, R628, R738). -/
def reArm (s : State) : State :=
  if s.boot.powered then
    let s1 := clearSafety (rearmRecs s (rearmConds s))
    let s2 := (List.range 96).foldl (fun a w => applyOrder w a) (joinWaiting (raiseTrays s1))
    startRearm (limitEvent 5 s s2)
  else s

def execReArm (s : State) : Host.Outcome State Fault Refusal := .next (reArm s)

/-! ### Redfish (R661–R664) -/

/-- The Redfish service stands: some channel is spokesman (R661). -/
def State.served (s : State) : Bool := decide (s.stw.spokes < 3) && s.chanUp s.stw.spokes

/-- A light shows locate while any source asks for it (R675): rack, tray, module. -/
def State.rackLight (s : State) : Bool := s.stw.rmRack || s.stw.panelLocate
def State.trayLight (s : State) (t : Nat) : Bool := s.stw.rmTrays.getLsbD t || bit s.win.locateTrays t
def State.modLight (s : State) (w : Nat) : Bool := s.stw.rmMods.contains w || bit (tget 0 (w / 32) s.win.locateMods) (w % 32)

/-! ### The lights (R36, R50, R674, R676) -/

/-- Patterns of a light (Table 18-4). -/
inductive Blink where
  | off | steady | slow | fast | double
  deriving DecidableEq, Repr

/-- A green, an amber and a blue light. -/
structure Light where
  green : Blink := .off
  amber : Blink := .off
  blue : Blink := .off
  deriving DecidableEq, Repr

def Blink.code : Blink → Nat
  | .off => 0
  | .steady => 1
  | .slow => 2
  | .fast => 3
  | .double => 4

def Light.nums (l : Light) : List Nat := [l.green.code, l.amber.code, l.blue.code]

/-- A light where its condition holds. -/
def Blink.when (b : Bool) : Blink := if b then .steady else .off

/-- Amber: fast beats steady, and steady beats slow (R674). -/
def amberOf (fast steady slow : Bool) : Blink :=
  if fast then .fast else if steady then .steady else if slow then .slow else .off

/-- Blue: locate, ready to remove, or both (Table 18-4). -/
def blueOf (loc ready : Bool) : Blink :=
  if loc && ready then .double else if loc then .steady else if ready then .slow else .off

/-- A degraded module: a core fenced, a spare used, a column repaired beyond the stage-6 count (Table 18-4). -/
def State.modDegraded (s : State) (w : Nat) : Bool :=
  (modIsles w).any (fun g =>
    let i := s.isle g
    decide (i.cores.length < 16) || i.spareUsed || decide (i.repaired6 < i.repaired))

/-- The three lights of a module (R36, Table 18-4). The table gives no green pattern for a module whose rails are up and which is
not in service: off (DESIGN CHOICE, log 111). -/
def State.modLamp (s : State) (w : Nat) : Light :=
  { green := if !(s.auxUp w) then .off else if (s.mod w).state == 1 then .steady
      else if (s.pwrMod w).obj.st == .off then .slow else .off
    amber := amberOf (s.pwrMod w).safety ((s.mod w).state == 2) (s.modDegraded w)
    blue := blueOf (s.modLight w) ((s.tray (w / 8)).svc == .ready && (s.mod w).state != 0) }

/-- The three lights of a tray (Table 18-4). -/
def State.trayLamp (s : State) (t : Nat) : Light :=
  let y := s.tray t
  let raising := y.svc == .joining || s.stw.adopting.contains t || (s.boot.powered && s.boot.st == 0)
  let here := y.svc != .absent
  { green := if !y.contactor || !here then .off else if raising then .slow else Blink.when (y.svc == .inService && s.wardenRuns t)
    amber := if !here then .off else amberOf (s.heldOff t || (trayMods t).any (fun w => (s.pwrMod w).safety))
      (y.svc == .failed || y.svc == .preparing || y.svc == .ready || (s.ttherm t).wdg || y.mismatch)
      ((trayPorts t).any (fun l => let k := s.link (linkKey s.sh.shape l); k.failed || k.fenced) ||
        (trayMods t).any (fun w => (s.mod w).state == 2))
    blue := if here then blueOf (s.trayLight t) (y.svc == .ready) else .off }

/-- Every element of a light, lit by LAMP TEST (R54). -/
def Light.lit : Light := { green := .steady, amber := .steady, blue := .steady }

/-- A channel's light on the front panel (R50, R654). The spokesman blinks; the spec gives no rate: slow (DESIGN CHOICE, log
111). -/
def State.chanLamp (s : State) (c : Nat) : Light :=
  let x := s.stew c
  if s.stw.lamp ≠ 0 then { Light.lit with blue := .off }
  else if x.st = 1 then { green := if s.stw.spokes = c then .slow else .steady }
  else if x.st = 0 then {} else { amber := .steady }

/-- The rack light on the front panel (R50, R676). -/
def State.rackLamp (s : State) : Light :=
  if s.stw.lamp ≠ 0 then Light.lit
  else
    { green := Blink.when (s.display == 0x4F4B)
      amber := amberOf false ([1, 2, 3, 4].any (fun k => !(s.classCodes k).isEmpty)) (!(s.classCodes 5).isEmpty)
      blue := Blink.when s.rackLight }

/-- What the two characters of the display show: a code, or during LAMP TEST every segment (R50, R54). -/
def State.displayFace (s : State) : Option Nat := if s.stw.lamp ≠ 0 then none else some s.display

/-! ### Redfish resources (R662) -/

/-- The numbers of a log record, as Table 18-3 orders its fields. -/
def recNums (r : LogRec) : List Nat :=
  [r.tb.toNat, r.lsn.toNat, r.chan, r.cls, r.code, r.place, r.arg0.toNat, r.arg1.toNat] ++ r.data

/-- A record comes before another as copies present them: by timebase, then channel, then sequence number (R670). -/
def LogRec.before (a b : LogRec) : Bool :=
  decide (a.tb < b.tb ∨ (a.tb = b.tb ∧ (a.chan < b.chan ∨ (a.chan = b.chan ∧ a.lsn ≤ b.lsn))))

/-- Put a record in its place among others that stand in order. -/
def insertRec (r : LogRec) : List LogRec → List LogRec
  | [] => [r]
  | x :: t => if r.before x then r :: x :: t else x :: insertRec r t

/-- The records that the EventLog shows, in order: the copy of the channel that serves, or the RAM ring (R662, R670, R672). The
timebase starts again at a power-on, so records of several power-ons stand among each other, as R670 has it (log 127). -/
def State.eventLog (s : State) : List LogRec :=
  (if s.stw.unavail then s.stw.ram else (s.stew s.stw.spokes).copy).foldr insertRec []

/-- Created of a log entry (R664): UTC by the latest CLOCK record before it; none before the first. -/
def createdOf (l : List LogRec) (k : Nat) : Option Int :=
  (((l.take k).filter (fun r => r.cls == 3)).getLast?).map (fun c =>
    (c.arg0.toNat : Int) + (((l[k]?.map LogRec.tb).getD 0).toNat - c.tb.toNat : Int) * 10)

/-- Coordinates of a module in the shape in force (R41). -/
def State.coordNums (s : State) (w : Nat) : List Nat :=
  let c := coordOf s.sh.shape w
  [c.x, c.y, c.z]

/-- A stage report as Redfish shows it (R41, R548): the place it names, and a module's coordinates. -/
def State.reportNums (s : State) (n : Nat) : List Nat :=
  let r := tget {} n s.boot.reports
  let t := r.tray
  [r.result.toNat, r.cause.toNat, r.items.toNat, t, r.slot, r.die, r.arg.toNat, r.tb.toNat] ++
    (if t < 12 then s.coordNums (t * 8 + r.slot) else []) ++
    ((s.boot.items.filter (fun b => b.stage == n)).map (fun b =>
      itemWord b :: (if b.tray < 12 then s.coordNums (itemMod b) else []))).flatten

/-- A temperature as a number: twelve bits signed, in 0.25 °C (R633). -/
def tempNum (v : Int) : Nat := (BitVec.ofInt 12 v).toNat

/-- The wall clock now, by the latest CLOCK record: ticks are 10 ns (R13). -/
def State.wallNow (s : State) : Option Int :=
  s.stw.clock.map (fun c => (c.2.toNat : Int) + ((s.win.tb.toNat : Int) - c.1.toNat) * 10)

/-- Numbers that a resource of Table 18-2 shows, by its place in the table and its index; none where there is no such
resource. The model's own record of the content (log 33). -/
def State.resource (s : State) (row i : Nat) : Option (List Nat) :=
  match row with
  | 0 => some [0xA96]
  | 1 => some ([s.fuses.variant.toNat, 96, 24576, b2n s.rackLight, b2n s.moving] ++ s.rackLamp.nums)
  | 2 => some (([0, 1, 2, 3].map (fun n =>
      let h := s.shelf n
      [b2n h.present, b2n h.enabled, h.good.toNat, h.out.toNat])).flatten ++ [s.pwr.mv.toNat, s.pwr.sag, s.pwr.avg1, s.pwr.avg60,
      s.pwr.avg900, s.pwr.peak])
  | 3 => some [s.pwr.rackRm.toNat]
  | 4 => if i < 64 then some [(tget 0 i s.pwr.partRm).toNat] else none
  | 5 => if i < 18 then some ([trayType i, i, b2n (s.stw.wardens.getLsbD i), b2n (s.trayLight i), (s.tray i).avg1,
      (s.tray i).avg60, (s.tray i).avg900, (s.tray i).peak, (s.ttherm i).flow, (s.ttherm i).valve,
      tempNum (s.ttherm i).inlet, tempNum (s.ttherm i).outlet, b2n (s.ttherm i).leak] ++ (s.trayLamp i).nums ++ (tget none i s.stw.words).elim [] recNums) else none
  | 6 => if i < 96 then some ([i / 8, i % 8] ++ s.coordNums i ++ [(s.mod i).state.toNat, (s.mod i).stage.toNat,
      (s.mod i).cause.toNat, s.modCores i, (s.pwrMod i).avg1, s.modLevel i, (s.pwrMod i).rm.toNat, b2n (s.modLight i)] ++
      (s.modLamp i).nums) else none
  | 7 => if i < 96 then some [(s.pwrMod i).capRm.toNat] else none
  | 8 => some [s.therm.spd0, s.therm.spd1, s.therm.cduValve, s.therm.reservoir, s.therm.cduFlow, b2n s.therm.cduLeak,
      tempNum s.therm.cduSupply, tempNum s.therm.cduReturn, tempNum s.therm.facSupply, tempNum s.therm.facReturn,
      b2n s.therm.fault0, b2n s.therm.fault1]
  | 9 => if i < 3 then some ([(s.stew i).st.toNat, b2n (decide (s.stw.spokes = i)), b2n (decide (s.stw.cool = i)),
      s.stw.epoch.toNat, (s.inst (instKey 1 i)).run.toNat, (s.inst (instKey 1 i)).fwset.toNat] ++
      (s.wallNow.map (fun t => [t.toNat])).getD []) else none
  | 10 => if i < 3 then some s.stw.ntp else none
  | 11 =>
    -- the service, then its entries: class 1 records are the set-up writes with their host port (R177)
    let l := s.eventLog
    if i = 0 then some [l.length, b2n s.stw.unavail]
    else (l[i - 1]?).map (fun r => recNums r ++ ((createdOf l (i - 1)).map (fun t => [t.toNat])).getD [])
  | 12 => if i = 0 then some ((List.range 12).map (fun n => (tget {} n s.boot.reports).result.toNat) ++ [b2n s.stw.unavail])
    else if i ≤ 12 then some (s.reportNums (i - 1)) else none
  | 13 => some [s.sh.shape.code, (s.fab.links.filter (fun l => l.2.failed || l.2.fenced)).length, s.sh.sound.toNat]
  | 14 => some [s.upd.phase, s.upd.comp, s.upd.cause.toNat, b2n s.upd.lock]
  | 15 => some [s.stw.accounts.length, s.stw.sessions.length, s.stw.subs.length, s.stw.certs.length]
  | _ => none

/-- REDFISH_GET: reads are served without a majority, too (R680). -/
def redfishGet (session row i : Nat) (s : State) : State :=
  if s.served then
    match s.resource row i with
    | some b => rfAnswer session 200 b s
    | none => rfAnswer session 404 [] s
  else s

def execRedfishGet (session row i : Nat) (s : State) : Host.Outcome State Fault Refusal :=
  .next (redfishGet session row i s)

/-- Answers that change the record of intent need a spokesman and a majority (R659, R661). -/
def rfWrite (session : Nat) (f : State → State) (s : State) : State :=
  if !s.served then s else if !s.majority then rfAnswer session 503 [] s else f s

/-- REDFISH_SESSION_CREATE: against an account, at most 16 open at once. The answer goes by the new session's number. -/
def sessionCreate (account password : Nat) (s : State) : State :=
  rfWrite s.stw.nextSess (fun s =>
    match s.stw.accounts.find? (fun x => x.1 == account && x.2.1 == password) with
    | none => rfAnswer s.stw.nextSess 401 [] s
    | some x =>
      if 16 ≤ s.stw.sessions.length then rfAnswer s.stw.nextSess 503 [] s
      else
        let n := s.stw.nextSess
        rfAnswer n 201 [n] (logAdd 8 1 17 (w64 n) (w32 account) [] { s with stw := { s.stw with
          sessions := s.stw.sessions ++ [{ id := n, account := account, role := x.2.2, tick := s.win.tb }], nextSess := n + 1 } })) s

def execRedfishSessionCreate (account password : Nat) (s : State) : Host.Outcome State Fault Refusal :=
  .next (sessionCreate account password s)

/-- A CLOCK record pairs the timebase with UTC (R664). -/
def clockRec (utc : DWord) (s : State) : State :=
  logAdd 3 0 17 utc 0 [] { s with stw := { s.stw with clock := some (s.win.tb, utc) } }

/-- DATETIME_SET: UTC in nanoseconds. -/
def dateTime (session : Nat) (utc : DWord) (s : State) : State :=
  rfWrite session (fun s => rfAnswer session 200 [] (clockRec utc s)) s

def execDatetimeSet (session : Nat) (utc : DWord) (s : State) : Host.Outcome State Fault Refusal :=
  .next (dateTime session utc s)

/-- NTP_STEP: a step larger than 1 s, or the first setting, writes a CLOCK record. -/
def ntpStep (utc : DWord) (s : State) : State :=
  match s.wallNow with
  | none => clockRec utc s
  | some t => if 1000000000 < (utc.toNat - t).natAbs then clockRec utc s else s

def execNtpStep (utc : DWord) (s : State) : Host.Outcome State Fault Refusal := .next (ntpStep utc s)

/-- LOCATION_INDICATOR_SET (R675): the rack manager's request for a light. -/
def locateSet (session : Nat) (g : LocTarget) (on : Bool) (s : State) : State :=
  rfWrite session (fun s =>
    let w := s.stw
    let w' := match g with
      | .rack => { w with rmRack := on }
      | .tray t => { w with rmTrays := if on then w.rmTrays ||| BitVec.ofNat 18 (2 ^ t.val)
          else w.rmTrays &&& ~~~(BitVec.ofNat 18 (2 ^ t.val)) }
      | .module m => { w with rmMods := if on then (w.rmMods.filter (fun x => x != m.val)) ++ [m.val]
          else w.rmMods.filter (fun x => x != m.val) }
    rfAnswer session 200 [b2n on] { s with stw := w' }) s

def execLocationIndicatorSet (session : Nat) (g : LocTarget) (on : Bool) (s : State) : Host.Outcome State Fault Refusal :=
  .next (locateSet session g on s)

/-- REDFISH_SESSION_TIMEOUT: idle for SessionTimeout, in ticks of 10 ns. -/
def sessionExpiry (n : Nat) (s : State) : State :=
  { s with stw := { s.stw with sessions := s.stw.sessions.filter (fun x =>
      !(x.id == n && decide (x.tick.toNat + s.stw.sessTimeout * 100000000 ≤ s.win.tb.toNat))) } }

def execRedfishSessionTimeout (n : Nat) (s : State) : Host.Outcome State Fault Refusal := .next (sessionExpiry n s)

/-- A standard operation that is accepted, or none (R661, R662): the record of intent with it. -/
def stdOp (op : StdOp) (w : Stw) : Option Stw :=
  match op with
  | .accountCreate a p r =>
    if w.accounts.any (fun x => x.1 == a) || decide (2 < r) then none else some { w with accounts := w.accounts ++ [(a, p, r)] }
  | .accountDelete a =>
    if w.accounts.any (fun x => x.1 == a) then some { w with accounts := w.accounts.filter (fun x => x.1 != a) } else none
  | .sessionDelete n =>
    if w.sessions.any (fun x => x.id == n) then some { w with sessions := w.sessions.filter (fun x => x.id != n) } else none
  | .sessionTimeout v => if v = 0 then none else some { w with sessTimeout := v }
  | .subscribe n d =>
    if 8 ≤ w.subs.length ∨ w.subs.any (fun x => x.1 == n) = true then none else some { w with subs := w.subs ++ [(n, d)] }
  | .unsubscribe n =>
    if w.subs.any (fun x => x.1 == n) then some { w with subs := w.subs.filter (fun x => x.1 != n) } else none
  | .certificate c => some { w with certs := w.certs.filter (fun x => x != c) ++ [c] }
  | .ntpServers l => some { w with ntp := l }

/-- REDFISH_STANDARD_OPERATION: judged, committed to the record of intent, answered. -/
def stdOperation (session : Nat) (op : StdOp) (s : State) : State :=
  rfWrite session (fun s =>
    match stdOp op s.stw with
    | some w => rfAnswer session 200 [] (logAdd 8 2 17 (w64 session) 0 [] { s with stw := w })
    | none => rfAnswer session 400 [] s) s

def execRedfishStandardOperation (session : Nat) (op : StdOp) (s : State) : Host.Outcome State Fault Refusal :=
  .next (stdOperation session op s)

/-! ### The console (R666) -/

/-- A console command under a local account: its use is logged and answered. -/
def consoleCmd (account num : Nat) (body : List Nat) (s : State) : State :=
  if s.served then
    if s.stw.accounts.any (fun x => x.1 == account) then
      answerM (.console account) 200 0 body (logAdd 8 (16 + num) 17 (w64 account) 0 [] s)
    else answerM (.console account) 401 1 [] s
  else s

/-- CONSOLE_STATUS: channels, roles, stage, active panel codes. -/
def execConsoleStatus (account : Nat) (s : State) : Host.Outcome State Fault Refusal :=
  .next (consoleCmd account 0 ([0, 1, 2].map (fun c => (s.stew c).st.toNat) ++
    [s.stw.spokes, s.stw.cool, s.stw.epoch.toNat, s.boot.stage, s.boot.st.toNat] ++ s.allCodes) s)

/-- CONSOLE_LOG: the last n records, 20 by default. -/
def execConsoleLog (account : Nat) (n : Option Nat) (s : State) : Host.Outcome State Fault Refusal :=
  .next (
    let l := s.eventLog
    consoleCmd account 1 ((l.drop (l.length - n.getD 20)).map recNums).flatten s)

/-- CONSOLE_LASTWORDS: every warden's last-words register. -/
def execConsoleLastwords (account : Nat) (s : State) : Host.Outcome State Fault Refusal :=
  .next (consoleCmd account 2 (((List.range 18).map (fun t => (tget none t s.stw.words).elim [0] recNums)).flatten) s)

end Sys2Proof.Machine
end

