-- ==== Sys2Proof/Machine/HostReads.lean ====
section
/-! DEFINITION. Completions of host reads and their failures (R265, R266, R349, R525, R726, R754). -/

namespace Sys2Proof.Machine

/-- The answer to a channel's host read, from the portal tray to its core in calm class (R370, R393). -/
def hostAnswer (key piece : Nat) (h : HRead) (b : List Byte) (s : State) : Packet :=
  let p := placeOfCore (key / 4)
  fromTray (portTray h.port) p.w { writePkt s (s.chanWho key) p p true 2 (s.chanWho key).core h.addr.toNat b with
    kind := .readResp, rlen := h.len, note := piece, seq := (s.chan key).gen % 2 ^ 24, score := 0 } s

/-- A source read of a move channel ends at its port (R338, R349): its bytes are passed on to the core, or it is a source
fault and further reads are asked for. -/
def moveRead (key piece : Nat) (h : HRead) (res : HostRes) (s : State) : State :=
  let c := s.chan key
  if c.obj.st != .on then s
  else match res with
    | .data b => inject (hostAnswer key piece h b s) s
    | .fail f =>
      let s1 := chanSrcFault key (failCode f) h.len h.addr.toNat s
      askReads key (s1.setChan key { s1.chan key with got := (s1.chan key).got ++ [(piece, none)] })

/-- The body of a parcel from the control host is in, or its source has failed (R754, Table 21-8 cause 19). -/
def parcelRead (id : Nat) (res : HostRes) (s : State) : State :=
  if s.upd.phase = 1 then
    match res with
    | .data b => judgeHeader b false s
    | .fail _ => judgeHeader [] true s
  else match res with
    | .data _ => endRead id s
    | .fail _ => abortUpdate 19 (endRead id s)

/-- What a completion brings fits the read. -/
def HRead.fits (h : HRead) (res : HostRes) : Bool :=
  match res with
  | .data b => b.length == h.len
  | .fail _ => true

/-- The failure a completion brings may come now, or it brings data. -/
def State.mayEnd (s : State) (h : HRead) (res : HostRes) : Bool :=
  match res with
  | .data _ => h.sent
  | .fail f => s.mayFail h f

/-- The port's part in a completion: a failure is noted there. -/
def portRes (port : Nat) (res : HostRes) (s : State) : State :=
  match res with
  | .data _ => s
  | .fail f => portFail port f s

/-- An outstanding read ends with what its completion brings. -/
def readEnds (id : Nat) (res : HostRes) (s : State) : State :=
  match tget none id s.reads with
  | none => s
  | some h =>
    if !(s.mayEnd h res) || !(h.fits res) then s
    else match h.purpose with
      | .scan p => match res with | .data b => scanDone p b s | .fail f => scanFail p f s
      | .fetch r _ => match res with | .data b => fetchDone r b s | .fail f => fetchFail r f s
      | .move key piece =>
        moveRead key piece h res (endRead id (portRes h.port res s))
      | .bank t p =>
        match res with
        | .data b => bankLoaded ((t - 14) * 4 + p) b false s
        | .fail _ => bankLoaded ((t - 14) * 4 + p) [] true (portRes h.port res s)
      | .blob => match res with | .data b => judgeBlob b false s | .fail _ => judgeBlob [] true (portRes h.port res s)
      | .parcel => parcelRead id res (portRes h.port res s)

/-- HOST_READ_COMPLETION: for the read with the model's number `id`. -/
def execHostReadCompletion (id : Nat) (res : HostRes) (s : State) : Host.Outcome State Fault Refusal :=
  .next (readEnds id res s)

/-- HOST_READ_TIMEOUT (R265): no completion within 10 ms of the request; the port counts it (R788). -/
def readTimeout (id : Nat) (s : State) : State := readEnds id (.fail .timeout) s

def execHostReadTimeout (id : Nat) (s : State) : Host.Outcome State Fault Refusal := .next (readTimeout id s)

end Sys2Proof.Machine
end

