-- ==== Sys2Proof/Machine/Regs.lean ====
section
/-! DEFINITION. The set-up window as a host reaches it (chs. 5, 22): which register an offset names (R168, R785), what every
register reads as (Tables 22-2 to 22-10), how a write of it is judged and what it does (R171–R176, R180–R183). -/

namespace Sys2Proof.Machine

/-! ### Decoding (R168, R785) -/

/-- A block of the window (Table 22-1): its base and size, the pages it implements, the words of a page it decodes. -/
structure Block where
  base : Nat
  size : Nat
  pages : Nat
  words : Nat
  deriving DecidableEq, Repr

/-- Table 22-1: MACH, HPORT, TEN, PART, RING, EVT, KEY, FAB, SOUND, INTAKE, THERM, PWR, BOOT, UPD, FAULT, MOD. -/
def blocks : List Block := [
  ⟨0x0000000, 0x10000, 1, 1024⟩, ⟨0x0010000, 0x10000, 16, 256⟩, ⟨0x0020000, 0x10000, 16, 256⟩,
  ⟨0x0030000, 0x10000, 4, 256⟩, ⟨0x0040000, 0x40000, 64, 1024⟩, ⟨0x0080000, 0x20000, 16, 256⟩,
  ⟨0x00A0000, 0x10000, 2, 256⟩, ⟨0x00B0000, 0x10000, 16, 256⟩, ⟨0x00C0000, 0x10000, 4, 256⟩,
  ⟨0x00D0000, 0x20000, 32, 256⟩, ⟨0x00F0000, 0x10000, 8, 1024⟩, ⟨0x0100000, 0x10000, 8, 1024⟩,
  ⟨0x0110000, 0x10000, 1, 256⟩, ⟨0x0120000, 0x10000, 2, 256⟩, ⟨0x0130000, 0x10000, 4, 256⟩,
  ⟨0x1000000, 0xC00000, 3072, 256⟩]

/-- The offset that an offset repeats (R168): the register's first appearance in the window; none outside every block. -/
def canon (a : Nat) : Option Nat :=
  (blocks.find? (fun b => decide (b.base ≤ a) && decide (a < b.base + b.size))).map (fun b =>
    b.base + (a - b.base) / 4096 % b.pages * 4096 + a / 4 % b.words * 4)

/-- A place of the window by the object it belongs to, with the byte offset among that object's registers. Scanner ports and
contexts are numbered (tray − 14) × 4 + n. -/
inductive Reg where
  | mach (o : Nat)
  | hport (n o : Nat)
  | ten (n o : Nat)
  | part (p o : Nat)
  | ring (r o : Nat)
  | evt (n o : Nat)
  | key (o : Nat)
  | fab (o : Nat)
  | sound (o : Nat)
  | cxp (k o : Nat)
  | tio (k o : Nat)
  | dev (t o : Nat)
  | ctx (k o : Nat)
  | therm (o : Nat)
  | pwr (o : Nat)
  | boot (o : Nat)
  | upd (o : Nat)
  | fault (o : Nat)
  | mod (w page o : Nat)
  | empty
  deriving DecidableEq, Repr

/-- The INTAKE pages (R792). -/
def intakeReg (page o : Nat) : Reg :=
  if page < 16 then
    if page % 2 = 0 then .cxp (page / 8 * 4 + page % 8 / 2) o else .tio (page / 8 * 4 + page % 8 / 2) o
  else
    let t := (page - 16) / 8
    match (page - 16) % 8 with
    | 0 => .dev (14 + t) o
    | q + 1 => if q < 4 then .ctx (t * 4 + q) o else .empty

/-- The object a canonical offset belongs to (R790–R795). -/
def regAt (c : Nat) : Reg :=
  let page := c / 4096 % 16
  let o := c % 4096
  if c < 0x10000 then .mach o
  else if c < 0x20000 then .hport page o
  else if c < 0x30000 then .ten page o
  else if c < 0x40000 then .part (page * 16 + o / 0x40) (o % 0x40)
  else if c < 0x80000 then .ring ((c - 0x40000) / 0x40) (c % 0x40)
  else if c < 0xA0000 then .evt page o
  else if c < 0xB0000 then .key (c - 0xA0000)
  else if c < 0xC0000 then .fab (c - 0xB0000)
  else if c < 0xD0000 then .sound (c - 0xC0000)
  else if c < 0xF0000 then intakeReg ((c - 0xD0000) / 4096) o
  else if c < 0x100000 then .therm (c - 0xF0000)
  else if c < 0x110000 then .pwr (c - 0x100000)
  else if c < 0x120000 then .boot (c - 0x110000)
  else if c < 0x130000 then .upd (c - 0x120000)
  else if c < 0x140000 then .fault (c - 0x130000)
  else .mod ((c - 0x1000000) / 0x20000) (c / 4096 % 32) o

/-- The register's page answers a read (R786, R798). -/
def State.answersRead (s : State) : Reg → Bool
  | .hport n _ => s.bridgeReady n
  | .cxp k _ => s.trayAnswers (portIntake k)
  | .tio k _ => s.trayAnswers (portIntake k)
  | .dev t _ => s.trayAnswers t
  | .ctx k _ => s.trayAnswers (portIntake k)
  | .mod w page _ => s.modAnswers w page
  | _ => true

/-- The register's page takes a write: as it answers a read, but that MV_DIAG is judged also on the auxiliary rail (R798). -/
def State.answersWrite (s : State) : Reg → Bool
  | .mod w 1 0 => s.modAnswers w 0
  | r => s.answersRead r

/-! ### What the registers read as -/

/-- Bits from a list of numbered conditions. -/
def maskOf (n : Nat) (f : Nat → Bool) : Nat := ((List.range n).map (fun i => if f i then 2 ^ i else 0)).sum

/-- A signed value in 12 bits. -/
def s12 (i : Int) : Nat := (BitVec.ofInt 12 i).toNat

/-- Where register words stand in an array: the index of byte offset o in an array of n registers from base, `step` apart. -/
def idx (o base step n : Nat) : Option (Nat × Nat) :=
  if base ≤ o ∧ o < base + step * n then some ((o - base) / step, (o - base) % step) else none

/-- MACH_STRAP_n (Table 5-4): the fields that apply to the type the straps give (R188). -/
def State.strapReg (s : State) (t : Nat) : Word :=
  let y := s.tray t
  if !y.strapsRead then 0
  else
    let ty := (y.badType.map (·.toNat)).getD (trayType t)
    let bay := fun (b : Bool) => b && ty == 4
    w32 (t + ty * 2 ^ 5 + b2n (bay y.fabMode) * 2 ^ 8 + (if ty = 4 then y.preset.toNat else 0) * 2 ^ 9 +
      (if ty = 1 then y.ctlHost else 0) * 2 ^ 12 + b2n (y.pipeMode && ty == 2) * 2 ^ 16 + b2n (bay y.transport) * 2 ^ 17 + 2 ^ 31)

/-- MACH_STRAP_EFF (R190): the layout of MACH_STRAP_OVR with the enable bits 0. -/
def State.strapEff (s : State) : Word :=
  w32 (b2n s.effFab * 2 + s.effPreset * 2 ^ 5 + s.ctlPort * 2 ^ 12 + b2n (s.effPipe 14) * 2 ^ 17 + b2n (s.effPipe 15) * 2 ^ 19)

/-- MACH_STEWARD and MACH_LOG (Table 18-5). -/
def State.stewardReg (s : State) : Word :=
  w32 ((s.stew 0).st.toNat + (s.stew 1).st.toNat * 4 + (s.stew 2).st.toNat * 16 + s.stw.spokes * 2 ^ 8 + s.stw.cool * 2 ^ 10 +
    b2n s.majority * 2 ^ 12)
def State.logReg (s : State) : Word :=
  w32 (maskOf 3 (fun c => (s.stew c).copyOk) + b2n s.stw.unavail * 8 + s.stw.ram.length * 2 ^ 16)

/-- The MACH block (Table 22-2). -/
def readMach (s : State) (o : Nat) : Word :=
  match o with
  | 0x000 => s.machIdent
  | 0x008 => s.machLimits
  | 0x010 => 24576
  | 0x014 => w32 s.liveMods
  | 0x018 => w32 s.liveCores
  | 0x020 => lo32 s.win.tb
  | 0x024 => hi32 s.win.tb
  | 0x030 => lo32 s.fuses.serial
  | 0x034 => hi32 s.fuses.serial
  | 0x100 => s.win.ignored
  | 0x104 => s.win.ignLast
  | 0x108 => s.win.ignAddr
  | 0x280 => s.win.strapOvr
  | 0x284 => s.strapEff
  | 0x300 => w32 s.mevHeld.length
  | 0x304 => s.mevLost
  | 0x308 => match s.ctlTenant with | some n => w32 (n + 16) | none => 0
  | 0x400 => s.stewardReg
  | 0x404 => s.stw.epoch
  | 0x408 => s.logReg
  | 0x40C => s.stw.gaps
  | 0x414 => s.stw.wardens.setWidth 32
  | 0x418 => s.stw.dissent
  | 0x420 => s.win.locateTrays
  | _ =>
    match idx o 0x200 4 18, idx o 0x424 4 3 with
    | some (n, _), _ => s.strapReg n
    | none, some (n, _) => tget 0 n s.win.locateMods
    | none, none => 0

/-- A reset sequence is running for a tenant (R219). -/
def Ten.resetting (t : Ten) : Bool := t.flr == .drain || t.flr == .drainScrub

/-- HPORT_n_FN_f (Table 22-3, R789). -/
def State.fnReg (s : State) (n f : Nat) : Word :=
  let x := s.fnc n f
  let b := s.boundTen n f
  w32 (b2n (s.fnExists n f) + b2n b.isSome * 2 + b.getD 0 * 4 + x.mps.toNat * 2 ^ 6 + x.mrrs.toNat * 2 ^ 9 +
    b2n ((s.port n).up && x.bme) * 2 ^ 12)

/-- The HPORT block (Table 22-3). -/
def readHport (s : State) (n o : Nat) : Word :=
  let p := s.port n
  match o with
  | 0x000 => w32 (b2n p.up + (if p.up then p.speed.toNat * 2 + p.width.toNat * 2 ^ 4 + b2n p.flit * 2 ^ 9 else 0) +
      b2n (s.ctlPort == n) * 2 ^ 10)
  | 0x004 => w32 (p.numVfs.toNat + b2n p.vfEn * 16)
  | 0x008 => w32 (maskOf 16 (fun f => p.up && (s.fnc n f).bme))
  | 0x00C => w32 (maskOf 16 (fun f => (s.boundTen n f).any (fun t => (s.ten t).resetting)))
  | 0x010 => p.trains
  | 0x014 => p.replays
  | 0x018 => p.cplTimeouts
  | 0x01C => p.nudges
  | 0x020 => p.resets
  | _ => match idx o 0x40 4 16 with | some (f, _) => s.fnReg n f | none => 0

/-- The tenant a partition names as owner (R201). -/
def Part.ownerOf (x : Part) : Nat := if x.box.isSome then x.owner else boxOwner x.boxReg

/-- TEN_n_STATUS (Table 6-1); a tenant that is OFF has no bound function (R208). -/
def State.tenStatus (s : State) (n : Nat) : Word :=
  let t := s.ten n
  let b := t.obj.busy
  w32 (t.obj.bits + b2n (b && s.fnExists t.bPort t.bFn) * 8 + b2n (b && (s.port t.bPort).up && (s.fnc t.bPort t.bFn).bme) * 16 +
    b2n t.resetting * 32 + b2n t.flrForced * 64)

/-- The TEN block (Tables 6-1, 7-3). -/
def readTen (s : State) (n o : Nat) : Word :=
  let t := s.ten n
  match o with
  | 0x004 => s.tenStatus n
  | 0x008 => t.bind.setWidth 32
  | 0x00C => w32 (min 0xFFFF (s.drainCount n))
  | 0x010 => t.flrCount
  | 0x018 => lo32 t.flrTb
  | 0x01C => hi32 t.flrTb
  | 0x028 => w32 (maskOf 32 (fun p => (s.part p).ownerOf == n))
  | 0x02C => w32 (maskOf 32 (fun p => (s.part (p + 32)).ownerOf == n))
  | 0x100 => lo32 t.db
  | 0x104 => hi32 t.db
  | 0x108 => t.scan.setWidth 32
  | 0x10C => w32 (b2n t.dbFault)
  | 0x110 => t.dbFails
  | 0x114 => t.scans
  | 0x118 => t.nudges
  | 0x120 => lo32 t.evt
  | 0x124 => hi32 t.evt
  | 0x128 => t.evtSize.setWidth 32
  | _ => 0

/-- The PART block (Table 6-2). -/
def readPartReg (s : State) (p o : Nat) : Word :=
  let x := s.part p
  match o with
  | 0x04 => w32 (x.obj.bits + b2n (s.partScrub p) * 8 + s.sh.shape.code * 16 + b2n x.lost * 64 +
      (if x.obj.st = .off then 0 else x.mods.length) * 2 ^ 8)
  | 0x08 => x.boxReg
  | 0x0C => x.gateDrop
  | _ => 0

/-- The RING block (Table 7-1). -/
def readRing (s : State) (r o : Nat) : Word :=
  let x := s.ring r
  match o with
  | 0x04 => w32 (x.obj.bits + b2n x.fetchFault * 8 + x.lastCause.toNat * 16 + x.ignored.toNat * 2 ^ 8)
  | 0x08 => x.bind
  | 0x0C => x.size.setWidth 32
  | 0x10 => lo32 x.base
  | 0x14 => hi32 x.base
  | 0x18 => lo32 x.taddr
  | 0x1C => hi32 x.taddr
  | 0x20 => lo32 x.tbase
  | 0x24 => hi32 x.tbase
  | 0x28 => x.start
  | 0x2C => x.cons
  | 0x30 => x.prod
  | 0x34 => x.late
  | 0x38 => lo32 x.tally
  | 0x3C => hi32 x.tally
  | _ => 0

/-- The EVT block (Table 7-7). -/
def readEvt (s : State) (n o : Nat) : Word :=
  let t := s.ten n
  match o with
  | 0x0 => t.evtWritten
  | 0x4 => w32 t.held.length
  | 0x8 => t.evtLost
  | 0xC => t.nextSeq
  | _ => 0

/-- The KEY block (Table 22-5). -/
def readKey (s : State) (o : Nat) : Word :=
  match o with
  | 0x0040 => s.keyState
  | 0x0044 => s.keyWkgen
  | 0x0048 => w32 (s.keys.lids.toNat + b2n s.keys.battLost * 2 ^ 18 + b2n s.keys.atPower * 2 ^ 19)
  | 0x004C => s.keys.count.setWidth 32
  | 0x1000 => lo32 s.keys.loadSrc
  | 0x1004 => hi32 s.keys.loadSrc
  | 0x100C => w32 (b2n s.keys.busy + s.keys.result.toNat * 2 ^ 4 + s.keys.loadTen.toNat * 2 ^ 8)
  | _ =>
    match idx o 0 4 16, idx o 0x100 4 24 with
    | some (n, _), _ => w32 (b2n (s.ten n).keyLoaded + b2n (s.ten n).keyEph * 2 + (s.ten n).keyGen.toNat * 2 ^ 8)
    | none, some (k, _) => s.keyWpub k
    | none, none => 0

/-- Class of a link's cable in the shape in force (Tables 10-2, 10-3, R408): 0 board, 1 copper, 2 optical. -/
def linkClass (sh : Shape) (l : Nat) : Nat :=
  if 768 ≤ l then (if l % 8 < 4 then 2 else 1)
  else
    let x := physX (l / 8)
    let y := physY (l / 8)
    -- a row seam by its selector, `y0` the row of its X+ end
    let seam := fun (y0 : Nat) => match rowSel sh with | 0 => 0 | 1 => 1 | _ => y0 % 2
    match l % 8 with
    | 0 => if x = 0 then seam (if rowSel sh = 2 then (y + 3) % 4 else y) else 0
    | 1 => if x = 3 then seam y else 0
    | 2 => if y % 2 = 1 then 0 else 1
    | 3 => if y % 2 = 0 then 0 else 1
    | 4 => 2
    | 5 => 2
    | _ => 1

/-- STATE of FAB_LINK_l (R408). -/
def State.linkState (s : State) (l : Nat) : Nat :=
  let k := s.link (linkKey s.sh.shape l)
  if k.fenced then 3 else if k.failed then 2 else if linkUsed s.sh.shape l then 1 else 0

/-- Links of a list that are failed or fenced. -/
def State.linksDown (s : State) (l : List Nat) : Nat := (l.filter (fun x => decide (2 ≤ s.linkState x))).length

/-- FAB_LINK_l. -/
def State.linkReg (s : State) (l : Nat) : Word :=
  let k := s.link (linkKey s.sh.shape l)
  w32 (s.linkState l + linkClass s.sh.shape l * 4 + k.giveups.toNat * 2 ^ 8 + k.retries.toNat * 2 ^ 16)

/-- The FAB block (Table 22-5). -/
def readFab (s : State) (o : Nat) : Word :=
  match o with
  | 0x00 => w32 (s.sh.shape.code + b2n s.shapeBusy * 4 + (if s.shapeBusy then s.sh.target.code else 0) * 8)
  | 0x08 => w32 (s.sh.lastFrom.toNat + s.sh.lastTo.toNat * 4 + s.sh.lastCause.toNat * 16 + s.sh.lastKept.toNat * 2 ^ 8 +
      s.sh.lastLost.toNat * 2 ^ 16)
  | 0x0C => s.sh.count
  | 0x10 => lo32 s.sh.relTb
  | 0x14 => hi32 s.sh.relTb
  | 0x18 => s.sh.seamFail
  | 0x20 => s.fab.retries
  | 0x24 => s.fab.reinj
  | 0x28 => s.fab.giveups
  | 0x2C => s.fab.dupCount
  | 0x30 => s.fab.stray
  | 0x34 => w32 (s.linksDown (List.range 800))
  | 0x38 => s.fab.mapGen
  | _ =>
    let l := (o / 4096 - 1) * 256 + o % 4096 / 4
    if 0x1000 ≤ o ∧ o % 4096 < 0x400 ∧ l < 800 then s.linkReg l else 0

/-- The SOUND block (Table 22-5). -/
def readSound (s : State) (o : Nat) : Word :=
  match o with
  | 0 => s.soundStatus
  | _ => match idx o 0x100 4 24 with
    | some (e, _) => w32 ((tget 0 e s.sh.ext).toNat + b2n (s.sh.extActive.contains e) * 32)
    | none => 0

/-- Page 0 of a scanner port (Table 13-2). -/
def readCxp (s : State) (k o : Nat) : Word :=
  let p := s.sport k
  match o with
  | 0x000 => p.ctl
  | 0x008 => w32 (p.st.toNat + p.rate.toNat * 4 + p.conns.toNat * 2 ^ 5 + p.connUp.toNat * 2 ^ 8 + p.pocOn.toNat * 2 ^ 12 +
      p.pocFault.toNat * 2 ^ 16 + b2n p.cur.isSome * 2 ^ 20 + b2n p.connLost * 2 ^ 21)
  | 0x00C => p.frames
  | 0x010 => p.aborts
  | 0x014 => p.abortCause.setWidth 32
  | 0x018 => p.abortFrame
  | 0x01C => p.crcErr
  | 0x020 => p.other
  | 0x024 => p.gcAddr
  | 0x028 => p.gcLen.setWidth 32
  | 0x030 => w32 (b2n p.gcBusy + p.gcResult.toNat * 2 ^ 4 + p.gcDev.toNat * 2 ^ 16)
  | _ => match idx o 0x100 4 64 with | some (i, _) => tget 0 i p.gcData | none => 0

/-- PIN_m (Table 13-7). -/
def State.pinReg (s : State) (k m : Nat) : Word :=
  let x := s.pin (k * 16 + m)
  w32 (x.func.toNat + b2n x.inv * 16 + b2n x.term * 32 + x.filt.toNat * 2 ^ 8 + b2n (x.hold != 0) * 2 ^ 16 +
    b2n (s.pinLevel (k * 16 + m)) * 2 ^ 17 + b2n x.fault * 2 ^ 18)

/-- Page 1 of a scanner port (Table 13-7). -/
def readTio (s : State) (k o : Nat) : Word :=
  let p := s.sport k
  match o with
  | 0x040 => w32 (p.encCtl.toNat + p.encErr.toNat * 2 ^ 16)
  | 0x044 => p.encPos
  | 0x048 => p.encIdx
  | 0x04C => p.perf
  | 0x050 => p.trigCtl
  | 0x054 => p.period
  | 0x058 => p.phase
  | 0x060 => p.trigCount
  | 0x064 => p.overrun
  | 0x068 => lo32 p.trigTs
  | 0x06C => hi32 p.trigTs
  | 0x070 => p.slots.setWidth 32
  | 0x074 => p.masked
  | 0x078 => p.gpo.setWidth 32
  | 0x07C => w32 (maskOf 16 (fun m => s.pinLevel (k * 16 + m)))
  | 0x0B0 => p.cap
  | 0x0B4 => p.capInt
  | _ =>
    match idx o 0 4 16, idx o 0x80 8 6 with
    | some (m, _), _ => s.pinReg k m
    | none, some (i, 0) => tget 0 i p.delay
    | none, some (i, 4) => tget 1 i p.width
    | _, _ => 0

/-- Frames in a queue place. -/
def QItem.frameCount : QItem → Nat
  | .unit fs _ _ => fs.length
  | .marker _ => 0
  | .frame _ => 1

def QItem.isUnit : QItem → Bool
  | .unit _ _ _ => true
  | _ => false

/-- QUEUE_n (Table 14-6): frames and complete units that wait. -/
def Pipe.queueReg (x : Pipe) : Word :=
  w32 (min 0xFFFF ((x.queue.map QItem.frameCount).sum + x.loose.length) +
    min 0xFFFF (x.queue.filter QItem.isUnit).length * 2 ^ 16)

/-- The develop page of a tray (Table 14-6). -/
def readDev (s : State) (t o : Nat) : Word :=
  let i := s.intake (t - 14)
  match o with
  | 0x000 => w32 (b2n i.mode + b2n (s.effPipe t != i.mode) * 2)
  | 0x030 => w32 (b2n i.c8)
  | _ =>
    match idx o 0x10 4 4, idx o 0x20 4 4 with
    | some (n, _), _ => (s.pipe ((t - 14) * 4 + n)).queueReg
    | none, some (n, _) => (s.pipe ((t - 14) * 4 + n)).drops
    | none, none => 0

/-- A context's page (Table 14-6). -/
def readCtx (s : State) (k o : Nat) : Word :=
  let x := s.pipe k
  match o with
  | 0x004 => w32 (x.obj.bits + b2n x.bank * 8 + b2n x.sync * 16)
  | 0x008 => w32 (b2n x.req)
  | 0x010 => lo32 x.loadSrc
  | 0x014 => hi32 x.loadSrc
  | 0x018 => x.loadDst
  | 0x01C => x.loadLen
  | 0x024 => w32 (b2n x.loadBusy + x.loadResult.toNat * 2)
  | 0x030 => x.units
  | 0x034 => x.discards
  | 0x038 => x.dcause.setWidth 32
  | 0x03C => x.locFail
  | _ =>
    match idx o 0x40 8 6 with
    | some (i, 0) => tget 0 i x.bind
    | some (i, 4) => tget 0 i x.fmtFrames
    | _ => 0

/-- A tray that carries coolant: one of positions 0–16 in its slot. -/
def State.hasCoolant (s : State) (t : Nat) : Bool := decide (t < 17) && (s.tray t).svc != .absent

/-- Tray n, or a module of it, is under hard over-temperature, of its own or by loss of flow (R625, R626, R633). -/
def State.overTemp (s : State) (t : Nat) : Bool :=
  (s.ttherm t).ot || (s.therm.flowLost && s.hasCoolant t) ||
  (trayMods t).any (fun w => [0, 1, 2, 3].any (fun d => (s.die (w * 4 + d)).tripped))

/-- Tray n is under leak cut-off, of its own or by the low-low reservoir (R612, R627). -/
def State.leakOff (s : State) (t : Nat) : Bool := (s.ttherm t).leakCut || (s.therm.resCut && s.hasCoolant t)

/-- A tray's THERM words. -/
def readThermTray (s : State) (t o : Nat) : Word :=
  let x := s.ttherm t
  match o with
  | 0x0 => w32 (s12 x.inlet + s12 x.outlet * 2 ^ 16)
  | 0x4 => w32 x.flow
  | 0x8 => w32 (x.valve + b2n x.forced * 2 ^ 7 + b2n (s.leakOff t) * 2 ^ 8)
  | _ => w32 (b2n x.leak + b2n x.inletHigh * 2 + b2n (s.overTemp t) * 4 + b2n x.wdg * 8)

/-- A module's THERM words. -/
def readThermMod (s : State) (w o : Nat) : Word :=
  let m := s.mtherm w
  let d := fun (k : Nat) => s.die (w * 4 + k)
  match o with
  | 0x00 => w32 (s.modLevel w + (d 0).level * 4 + (d 1).level * 16 + (d 2).level * 64 + (d 3).level * 256 +
      maskOf 4 (fun k => (d k).pause) * 2 ^ 10 + b2n ([0, 1, 2, 3].any (fun k => (d k).sensors.any (·.isNone))) * 2 ^ 14)
  | 0x14 => w32 m.flim
  | 0x18 => w32 (m.rotations.toNat + m.stepdowns.toNat * 2 ^ 16)
  | 0x1C => w32 (m.spills.toNat + m.pauses.toNat * 2 ^ 16)
  | 0x20 => w32 (((List.range 8).map (fun i => (s.isle (w * 16 + i)).rho % 16 * 16 ^ i)).sum)
  | 0x24 => w32 (((List.range 8).map (fun i => (s.isle (w * 16 + 8 + i)).rho % 16 * 16 ^ i)).sum)
  | 0x28 => w32 (maskOf 16 (fun i => s.pinned (w * 16 + i)))
  | _ => match idx o 4 4 4 with
    | some (k, _) => w32 (s12 (d k).pred + s12 (d k).meas * 2 ^ 16)
    | none => 0

/-- The THERM block (Table 17-2). -/
def readTherm (s : State) (o : Nat) : Word :=
  let t := s.therm
  match o with
  | 0x00 => w32 (t.rotPeriod.toNat + b2n t.rotEn * 2 ^ 8)
  | 0x04 => t.cduSet.setWidth 32
  | 0x08 => w32 (t.spd0 + b2n t.fault0 * 2 ^ 7 + t.spd1 * 2 ^ 8 + b2n t.fault1 * 2 ^ 15 + b2n t.forced * 2 ^ 16)
  | 0x0C => w32 t.cduValve
  | 0x10 => w32 (s12 t.cduSupply + s12 t.cduReturn * 2 ^ 16)
  | 0x14 => w32 (t.cduFlow + b2n (decide (t.reservoir < 50)) * 2 ^ 16 + b2n (decide (t.reservoir < 10)) * 2 ^ 17 +
      b2n t.cduLeak * 2 ^ 18)
  | 0x18 => w32 (s12 t.facSupply + s12 t.facReturn * 2 ^ 16)
  | 0x1C => w32 (maskOf 18 s.leakOff)
  | 0x20 => w32 (maskOf 18 s.overTemp)
  | _ =>
    match idx o 0x1000 0x10 18, idx o 0x2000 0x40 96 with
    | some (n, b), _ => readThermTray s n b
    | none, some (w, b) => readThermMod s w b
    | none, none => 0

/-- PWR_RACK_CAP_EFF (Table 16-5): the least rack cap and its source. -/
def State.rackEff (s : State) : Word :=
  w32 (s.rackCap.1 + s.rackCap.2 * 2 ^ 28)

/-- A module's PWR words. -/
def readPwrMod (s : State) (w o : Nat) : Word :=
  let p := s.pwrMod w
  match o with
  | 0x00 => p.host.setWidth 32
  | 0x04 => w32 (p.obj.bits + p.rm.toNat * 8 + b2n p.auto * 32 + b2n p.safety * 64 + b2n (s.effOn w) * 128)
  | 0x08 => p.capHost.setWidth 32
  | 0x0C => p.capRm.setWidth 32
  | 0x10 => w32 ((s.capEff w).1 + (s.capEff w).2 * 2 ^ 12)
  | 0x14 => w32 (p.vset + p.ctrl * 2 ^ 16 + b2n p.guard * 2 ^ 26)
  | 0x18 => w32 p.peak
  | 0x1C => w32 p.avg1
  | 0x20 => w32 p.avg60
  | 0x24 => w32 p.avg900
  | _ => 0

/-- A tray's PWR words. -/
def readPwrTray (s : State) (t o : Nat) : Word :=
  let y := s.tray t
  match o with
  | 0x00 => w32 (b2n y.contactor)
  | 0x04 => w32 y.peak
  | 0x08 => w32 y.avg1
  | 0x0C => w32 y.avg60
  | 0x10 => w32 y.avg900
  | _ => 0

/-- The PWR block (Table 16-5). -/
def readPwr (s : State) (o : Nat) : Word :=
  let p := s.pwr
  match o with
  | 0x00 => w32 (p.mv.toNat + p.sag * 2 ^ 16)
  | 0x04 => w32 (p.deferCnt.toNat + p.crawlCnt.toNat * 2 ^ 16)
  | 0x08 => w32 (min 0xFFFF s.waitingWrites + p.dropped.toNat * 2 ^ 16)
  | 0x20 => p.rackHost.setWidth 32
  | 0x24 => p.rackRm.setWidth 32
  | 0x28 => w32 p.auto
  | 0x2C => s.rackEff
  | 0x30 => w32 p.peak
  | 0x34 => w32 p.avg1
  | 0x38 => w32 p.avg60
  | 0x3C => w32 p.avg900
  | _ =>
    match idx o 0x10 4 4, idx o 0x1000 0x40 96, idx o 0x3000 0x20 18, idx o 0x4000 4 64, idx o 0x4100 4 64 with
    | some (n, _), _, _, _, _ =>
      let h := s.shelf n
      w32 (h.good.toNat + b2n h.present * 8 + b2n h.enabled * 16 + h.out.toNat * 2 ^ 16)
    | _, some (w, b), _, _, _ => readPwrMod s w b
    | _, _, some (t, b), _, _ => readPwrTray s t b
    | _, _, _, some (n, _), _ => (tget 0 n p.partHost).setWidth 32
    | _, _, _, _, some (n, _) => (tget 0 n p.partRm).setWidth 32
    | _, _, _, _, _ => 0

/-- The instances of every component that are in service, with component and index. -/
def State.liveInsts (s : State) : List (Nat × Nat) :=
  ([1, 2, 3, 4, 5, 6, 7].map (fun c => ((instList c).filter (s.instOn c)).map (fun i => (c, i)))).flatten

/-- BOOT_FWSET (R764): the lowest FWSET among the instances in service. -/
def State.fwSet (s : State) : Nat :=
  match s.liveInsts.map (fun x => (s.inst (instKey x.1 x.2)).fwset.toNat) with
  | [] => 1
  | a :: t => t.foldl min a

/-- The BOOT block (Table 15-2). -/
def readBoot (s : State) (o : Nat) : Word :=
  let b := s.boot
  match o with
  | 0x00 => w32 (b.stage + b.st.toNat * 16 + b2n b.degraded * 64 + b2n b.held * 128)
  | 0x04 => w32 s.fwSet
  | 0x0C => b.count.setWidth 32
  | _ =>
    match idx o 0x40 0x10 12, idx o 0x100 4 64 with
    | some (n, q), _ =>
      let r := tget {} n b.reports
      match q with
      | 0 => w32 (r.result.toNat + r.cause.toNat * 2 ^ 4 + r.items.toNat * 2 ^ 8 + r.tray * 2 ^ 16 + r.slot * 2 ^ 21 + r.die * 2 ^ 24)
      | 4 => r.arg
      | 8 => lo32 r.tb
      | _ => hi32 r.tb
    | none, some (i, _) => w32 ((b.items[i]?.map itemWord).getD 0)
    | none, none => 0

/-- UPD_COND (Table 21-7). -/
def State.condReg (s : State) : Word :=
  w32 (b2n s.moving + b2n s.upd.tilt * 2 + b2n s.upd.switch * 4 + b2n (decide (s.pwr.battery < 40)) * 8 + b2n s.upd.lock * 16 +
    b2n (decide (1 ≤ s.pwr.sag)) * 32 + b2n s.keys.white * 64)

/-- The instances of a component, in service, as the registers count them. -/
def State.compOn (s : State) (c : Nat) : List Inst := ((instList c).filter (s.instOn c)).map (fun i => s.inst (instKey c i))

/-- A component's UPD words (Table 21-7, R762). -/
def readComp (s : State) (c o : Nat) : Word :=
  let l := s.compOn c
  let all := (instList c).map (fun i => s.inst (instKey c i))
  let now := s.upd.comp == c && decide (2 ≤ s.upd.phase)
  match o with
  | 0x0 => match l.map (fun x => x.run.toNat) with | [] => 0 | a :: t => w32 (t.foldl min a)
  | 0x4 => if now then s.updVersion else 0
  | 0x8 => (s.confImage c).1
  | _ =>
    let begun := decide (5 ≤ s.upd.phase) || (s.upd.phase == 4 && decide (s.switchedCount ≠ 0))
    w32 (b2n (all.any (·.trial)) + b2n (l.any (fun x => l.any (fun y => x.run != y.run))) * 2 +
      b2n (now && begun && hdrLayout s.upd.header != (s.confImage c).2.2.1.toNat) * 4)

/-- The UPD block (Table 21-7). -/
def readUpd (s : State) (o : Nat) : Word :=
  match o with
  | 0x04 => w32 (s.upd.phase + s.upd.comp * 16 + b2n s.updPaused * 2 ^ 7 + s.upd.cause.toNat * 2 ^ 8)
  | 0x08 => s.condReg
  | 0x10 => lo32 s.upd.src
  | 0x14 => hi32 s.upd.src
  | 0x18 =>
    let l := instList s.upd.comp
    w32 (s.switchedCount + (l.filter (s.instOn s.upd.comp)).length * 2 ^ 8 +
      (l.filter (fun i => (s.inst (instKey s.upd.comp i)).skipped)).length * 2 ^ 16)
  | 0x1C => w32 s.upd.bytes
  | _ => match idx o 0x1000 0x10 7 with | some (c, b) => readComp s (c + 1) b | none => 0

/-- The FAULT block (Table 19-5). -/
def readFault (s : State) (o : Nat) : Word :=
  match o with
  | 0x10 => w32 (s.flt.fenced.toNat + s.flt.spares.toNat * 2 ^ 16)
  | 0x14 => s.flt.lastFence
  | 0x18 => s.flt.colCe
  | 0x1C => s.flt.colUe
  | 0x20 => s.flt.rowRepairs
  | 0x24 => s.flt.poisonReads
  | 0x28 => s.flt.lateDropped
  | _ => match idx o 0x1080 4 18 with
    | some (t, _) => w32 ((s.tray t).svc.code + min 255 (s.linksDown (trayPorts t)) * 2 ^ 16)
    | none => 0

/-- The partition whose box holds a module, with PART_VALID (R796): one that is ON, WINDING or PENDING, else the lowest whose
PART_p_BOX does. -/
def State.posPart (s : State) (w : Nat) : Nat × Bool :=
  match s.partOfMod w with
  | some p => (p, true)
  | none =>
    let holds := fun (p : Nat) =>
      let b := boxOf (s.part p).boxReg
      b.legal s.sh.shape && (b.mods s.sh.shape).contains w
    match s.partIds.find? (fun p => holds p && (s.part p).obj.busy) with
    | some p => (p, true)
    | none => ((s.partIds.find? holds).getD 0, false)

/-- MOD_POS (R796). -/
def State.modPos (s : State) (w : Nat) : Word :=
  let c := coordOf s.sh.shape w
  let p := s.posPart w
  w32 (w / 8 + w % 8 * 2 ^ 5 + c.x * 2 ^ 8 + c.y * 2 ^ 12 + c.z * 2 ^ 15 + s.sh.shape.code * 2 ^ 18 + b2n (s.modServing w) * 2 ^ 20 +
    p.1 * 2 ^ 21 + b2n p.2 * 2 ^ 28)

/-- MOD_RECORD_k (Table 22-10): bytes 40–47 hold the serial number; VERSION is 1. -/
def State.modRecord (s : State) (w k : Nat) : Word :=
  let n := tget 0 w s.fuses.serials
  if k = 10 then lo32 n else if k = 11 then hi32 n
  else (tget none (w * 64 + k) s.fuses.records).getD (if k = 0 then 1 else 0)

/-- Page 0 of a MOD window (Table 22-9). -/
def readMod0 (s : State) (w o : Nat) : Word :=
  let m := s.mod w
  match o with
  | 0x00 => s.modFuse w
  | 0x04 => w32 (m.state.toNat + m.stage.toNat * 2 ^ 4 + m.cause.toNat * 2 ^ 8)
  | _ =>
    match idx o 0x10 4 4, idx o 0x40 4 16 with
    | some (d, _), _ => tget 0 (w * 4 + d) s.boot.cal
    | none, some (k, _) => s.census w k
    | none, none => 0

/-- A move channel's registers (Table 9-2). -/
def readChan (c : Chan) (o : Nat) : Word :=
  match o with
  | 0x00 => lo32 c.regs.src
  | 0x04 => hi32 c.regs.src
  | 0x08 => lo32 c.regs.dst
  | 0x0C => hi32 c.regs.dst
  | 0x10 => c.regs.count
  | 0x14 => c.regs.cnt01
  | 0x18 => c.regs.cnt2
  | 0x1C => c.regs.space
  | 0x20 => c.regs.ss0
  | 0x24 => c.regs.ds0
  | 0x28 => c.regs.ss1
  | 0x2C => c.regs.ds1
  | 0x30 => c.regs.ss2
  | 0x34 => c.regs.ds2
  | 0x3C => w32 (c.obj.bits + b2n c.fenceEnd * 8 + c.late.toNat * 2 ^ 8 + c.srcf.toNat * 2 ^ 16)
  | _ => 0

/-- Page 1 of a MOD window: the move page (Table 9-1). -/
def readMod1 (s : State) (w o : Nat) : Word :=
  let m := s.mod w
  match o with
  | 0x00 => w32 (b2n m.diagEn + b2n m.diagActive * 2 + b2n (s.diagScrub w) * 4)
  | 0x04 => m.mvSel.setWidth 32
  | _ => match idx o 0x40 0x40 4 with | some (n, q) => readChan (s.chan (s.selChan w n)) q | none => 0

/-- Page 2 of a MOD window (R796, Table 22-10). -/
def readMod2 (s : State) (w o : Nat) : Word :=
  let m := s.mod w
  match o with
  | 0x00 => lo32 (tget 0 w s.fuses.serials)
  | 0x04 => hi32 (tget 0 w s.fuses.serials)
  | 0x08 => s.modPos w
  | 0x0C => if s.keys.white then 0 else w32 (m.keyTen.toNat + b2n m.keyDiag * 2 ^ 16 + b2n m.keyTransport * 2 ^ 17)
  | _ => match idx o 0x100 4 64 with | some (k, _) => s.modRecord w k | none => 0

/-- Page 3 of a MOD window (R797). -/
def readMod3 (s : State) (w o : Nat) : Word :=
  let v := (s.mod w).errSel.toNat
  match o with
  | 0x00 => w32 v
  | _ => match idx o 0x40 4 17 with
    | some (p, _) =>
      let c := s.core (isleKey w (bitsAt v 0 2) (bitsAt v 2 2) * 17 + p)
      w32 (c.scratchCe.toNat + c.colCe.toNat * 2 ^ 16)
    | none => 0

/-- What a register reads as where its page answers; write-only registers and words with no register read 0 (R15, R170). -/
def State.readReg (s : State) : Reg → Word
  | .mach o => readMach s o
  | .hport n o => readHport s n o
  | .ten n o => readTen s n o
  | .part p o => readPartReg s p o
  | .ring r o => readRing s r o
  | .evt n o => readEvt s n o
  | .key o => readKey s o
  | .fab o => readFab s o
  | .sound o => readSound s o
  | .cxp k o => readCxp s k o
  | .tio k o => readTio s k o
  | .dev t o => readDev s t o
  | .ctx k o => readCtx s k o
  | .therm o => readTherm s o
  | .pwr o => readPwr s o
  | .boot o => readBoot s o
  | .upd o => readUpd s o
  | .fault o => readFault s o
  | .mod w 0 o => readMod0 s w o
  | .mod w 1 o => readMod1 s w o
  | .mod w 2 o => readMod2 s w o
  | .mod w 3 o => readMod3 s w o
  | .mod _ _ _ => 0
  | .empty => 0

/-- The effect of a read: an RC register, such as a PWR peak, is cleared (R15, R586). -/
def State.clearRC (s : State) : Reg → State
  | .pwr o =>
    if o = 0x30 then { s with pwr := { s.pwr with peak := 0 } }
    else match idx o 0x1000 0x40 96, idx o 0x3000 0x20 18 with
      | some (w, 0x18), _ => s.setPwrMod w { s.pwrMod w with peak := 0 }
      | none, some (t, 0x04) => s.setTray t { s.tray t with peak := 0 }
      | _, _ => s
  | _ => s

/-! ### Reads -/

/-- A read of BAR0 (R171, R172, R182): a sub-word access and one outside every block are ignored and return 0; a page that does
not answer returns 0. -/
def setupRead (port off be : Nat) (s : State) : State :=
  if !s.takesWrites then s
  else if be ≠ 15 ∨ off % 4 ≠ 0 then emit (.readCpl port 0) (ignoreAcc 1 port 0 false off false s)
  else match canon off with
    | none => emit (.readCpl port 0) (ignoreAcc 2 port 0 false off false s)
    | some c =>
      let r := regAt c
      if s.answersRead r then emit (.readCpl port (s.readReg r)) (s.clearRC r) else emit (.readCpl port 0) s

/-- A read of a nudge page (R167, R172): 0, and no effect but the count of an illegal one. -/
def nudgeRead (port fn off be : Nat) (s : State) : State :=
  if !s.takesWrites then s
  else if be ≠ 15 ∨ off % 4 ≠ 0 then emit (.readCpl port 0) (ignoreAcc 1 port fn false off true s)
  else emit (.readCpl port 0) s

/-! ### Pairs (R175, R176, Table 22-12) -/

/-- The committed value of a writable pair, by the place of its name_LO. -/
def State.pairOf (s : State) : Reg → Option DWord
  | .ring r 0x10 => some (s.ring r).base
  | .ring r 0x18 => some (s.ring r).taddr
  | .ring r 0x20 => some (s.ring r).tbase
  | .ten n 0x100 => some (s.ten n).db
  | .ten n 0x120 => some (s.ten n).evt
  | .key 0x1000 => some s.keys.loadSrc
  | .upd 0x10 => some s.upd.src
  | .ctx k 0x10 => some (s.pipe k).loadSrc
  | _ => none

/-- The alignment Table 22-12 asks of a pair's value. -/
def pairAlign : Reg → Nat
  | .ring _ 0x10 => 4096
  | .ring _ 0x18 => 8
  | .ten _ _ => 4096
  | .key _ => 256
  | .upd _ => 256
  | _ => 1

/-- A pair takes a value. -/
def setPair (r : Reg) (v : DWord) (s : State) : State :=
  match r with
  | .ring q 0x10 => s.setRing q { s.ring q with base := v }
  | .ring q 0x18 => s.setRing q { s.ring q with taddr := v }
  | .ring q 0x20 => s.setRing q { s.ring q with tbase := v }
  | .ten n 0x100 => s.setTen n { s.ten n with db := v }
  | .ten n 0x120 => s.setTen n { s.ten n with evt := v }
  | .key 0x1000 => { s with keys := { s.keys with loadSrc := v } }
  | .upd 0x10 => { s with upd := { s.upd with src := v } }
  | .ctx k 0x10 => s.setPipe k { s.pipe k with loadSrc := v }
  | _ => s

/-- Load a pair's staging latch, by the canonical offset of its name_LO; none is the committed LO. -/
def setLatch (c : Nat) (v : Option Word) (s : State) : State :=
  { s with win := { s.win with latches := tset none c v s.win.latches } }

/-- A write of name_HI (R175, R176): the whole value is judged, the latch is loaded with the committed LO either way. -/
def pairHi (c port off : Nat) (val : Word) (old : DWord) (s : State) : State :=
  let lo := (tget none c s.win.latches).getD (lo32 old)
  let v := join64 val lo
  let s1 := setLatch c none s
  if v.toNat % pairAlign (regAt c) = 0 then regOp port off val.toNat (.ok (setPair (regAt c) v s1)) s else illegal 6 port off s1

/-! ### Writes (R171–R173, R180–R183) -/

/-- A write of the register with two start bits, of which both is an illegal value. -/
def twoBits (val : Word) (a b : Nat) (va vb : Verdict) (s : State) : Verdict :=
  if bit val a && bit val b then .error 3 else if bit val a then va else if bit val b then vb else .ok s

/-- MACH_STRAP_OVR (R190, R191, Table 5-6): stored; a change of PIPEMODE waits for its tray's mode change point (R506). -/
def strapOvr (val : Word) (s : State) : State :=
  let v := val &&& 0x000FF1F3
  rehostEvents s.ctlTenant (modePoint 15 (modePoint 14 (storeItem 0x280 v { s with win := { s.win with strapOvr := v } })))

/-- The MACH block. -/
def writeMach (o : Nat) (val : Word) (s : State) : Verdict :=
  match o with
  | 0x280 => .ok (strapOvr val s)
  | 0x410 => restartReg val s
  | 0x420 => .ok { s with win := { s.win with locateTrays := val &&& 0x3FFFF } }
  | _ => match idx o 0x424 4 3 with
    | some (n, _) => .ok { s with win := { s.win with locateMods := tset 0 n val s.win.locateMods } }
    | none => .ok s

/-- The TEN block, but for its pairs. -/
def writeTen (n o : Nat) (val : Word) (s : State) : Verdict :=
  match o with
  | 0x000 => twoBits val 0 1 (tenantEnable n s) (tenantDisable n s) s
  | 0x008 => .ok (s.setTen n { s.ten n with bind := val.setWidth 8 })
  | 0x108 =>
    let v := Fld val 0 17
    if 100 ≤ v ∧ v ≤ 100000 then 
      let t := s.ten n
      let now := s.win.tb.toNat + 1
      .ok (s.setTen n { t with
        scan := BitVec.ofNat 17 v, scanWas := if t.scanTick = now then t.scanWas else t.scan, scanTick := now })
    else .error 3
  | 0x128 =>
    let v := Fld val 0 5
    if 6 ≤ v ∧ v ≤ 16 then .ok (s.setTen n { s.ten n with evtSize := BitVec.ofNat 5 v }) else .error 3
  | _ => .ok s

/-- The PART block. CUT without DIS, and EN with DIS, are illegal values (Table 6-2). -/
def writePart (p o : Nat) (val : Word) (s : State) : Verdict :=
  match o with
  | 0x00 =>
    if bit val 0 && bit val 1 || bit val 2 && !(bit val 1) then .error 3
    else if bit val 0 then partitionEnable p s
    else if bit val 1 then partitionDisable p (bit val 2) s
    else .ok s
  | 0x08 => .ok (s.setPart p { s.part p with boxReg := val &&& 0x0F7FFFFF })
  | _ => .ok s

/-- The RING block, but for its pairs. -/
def writeRing (r o : Nat) (val : Word) (s : State) : Verdict :=
  match o with
  | 0x00 => twoBits val 0 1 (ringEnable r s) (ringDisable r s) s
  | 0x08 => if 4 < Fld val 12 3 then .error 3 else .ok (s.setRing r { s.ring r with bind := val &&& 0xF0FF73FF })
  | 0x0C =>
    let v := Fld val 0 5
    if 4 ≤ v ∧ v ≤ 16 then .ok (s.setRing r { s.ring r with size := BitVec.ofNat 5 v }) else .error 3
  | 0x28 => .ok (s.setRing r { s.ring r with start := val })
  | _ => .ok s

/-- The KEY block, but for its pair. -/
def writeKey (o : Nat) (val : Word) (s : State) : Verdict :=
  match o with
  | 0x0050 => if bit val 0 then rotateWk s else .ok s
  | 0x1008 => twoBits val 8 9 (keyGo (Fld val 0 4) s) (keyForget (Fld val 0 4) s) s
  | _ => .ok s

/-- The FAB block. -/
def writeFab (o : Nat) (val : Word) (s : State) : Verdict :=
  match o with
  | 0x04 => shapeRequest (shapeOf (Fld val 0 2)) s
  | 0x40 =>
    let l := Fld val 0 10
    if 799 < l then .error 3 else twoBits val 12 13 (linkFence l s) (linkUnfence l s) s
  | _ => .ok s

/-- The SOUND block. -/
def writeSound (o : Nat) (val : Word) (s : State) : Verdict :=
  match o with
  | 0x04 => twoBits val 0 1 (soundEnter s) (soundLeave s) s
  | _ => match idx o 0x100 4 24 with | some (e, _) => extWrite e val s | none => .ok s

/-- Page 0 of a scanner port. -/
def writeCxp (k o : Nat) (val : Word) (s : State) : Verdict :=
  let p := s.sport k
  match o with
  | 0x000 => cxpCtl k val s
  | 0x004 => twoBits val 0 1 (.ok (cxpReconfig k s)) (.ok (cxpDetach k s)) s
  | 0x024 => .ok (s.setSport k { p with gcAddr := val })
  | 0x028 =>
    let v := Fld val 0 9
    if 4 ≤ v ∧ v ≤ 256 ∧ v % 4 = 0 then .ok (s.setSport k { p with gcLen := BitVec.ofNat 9 v }) else .error 3
  | 0x02C => twoBits val 0 1 (gcCmd k false s) (gcCmd k true s) s
  | _ => match idx o 0x100 4 64 with
    | some (i, _) => .ok (s.setSport k { p with gcData := tset 0 i val p.gcData })
    | none => .ok s

/-- Page 1 of a scanner port. -/
def writeTio (k o : Nat) (val : Word) (s : State) : Verdict :=
  let p := s.sport k
  match o with
  | 0x040 => .ok (s.setSport k { p with encCtl := val.setWidth 4 })
  | 0x050 => trigArm k val s
  | 0x054 => .ok (s.setSport k { p with period := val })
  | 0x058 => .ok (s.setSport k { p with phase := val })
  | 0x05C => .ok (if bit val 0 then trigFire k 0 s else s)
  | 0x070 => .ok (s.setSport k { p with slots := val.setWidth 16 })
  | 0x078 => .ok (s.setSport k { p with gpo := val.setWidth 16 })
  | 0x0B0 => capWrite k val s
  | 0x0B4 =>
    let v := Fld val 0 24
    if v < 2 then .error 3 else .ok (s.setSport k { p with capInt := w32 v })
  | _ =>
    match idx o 0 4 16, idx o 0x80 8 6 with
    | some (m, _), _ => pinWrite k m val s
    | none, some (i, 0) => .ok (s.setSport k { p with delay := tset 0 i (w32 (Fld val 0 24)) p.delay })
    | none, some (i, 4) =>
      if Fld val 0 24 = 0 then .error 3 else .ok (s.setSport k { p with width := tset 1 i (w32 (Fld val 0 24)) p.width })
    | _, _ => .ok s

/-- A context's page, but for its pair (R525, R527, R528). -/
def writeCtx (k o : Nat) (val : Word) (s : State) : Verdict :=
  let x := s.pipe k
  match o with
  | 0x000 => twoBits val 0 1 (pipeEnable k s) (pipeDisable k s) s
  | 0x008 => bankWrite k (bit val 0) s
  | 0x018 => if Fld val 0 6 = 0 then .ok (s.setPipe k { x with loadDst := val }) else .error 3
  | 0x01C =>
    let v := Fld val 0 29
    if 1 ≤ v ∧ v ≤ 2 ^ 28 then .ok (s.setPipe k { x with loadLen := w32 v }) else .error 3
  | 0x020 => if bit val 0 then bankGo k (bit val 1) s else .ok s
  | _ => match idx o 0x40 8 6 with
    | some (i, 0) => .ok (s.setPipe k { x with bind := tset 0 i (w32 (Fld val 0 13)) x.bind })
    | _ => .ok s

/-- The THERM block (R610, R619, Table 17-2). -/
def writeTherm (o : Nat) (val : Word) (s : State) : Verdict :=
  match o with
  | 0x00 =>
    if Fld val 0 8 = 0 then .error 3
    else .ok (storeItem thermCtlOff (w32 (Fld val 0 9))
      { s with therm := { s.therm with rotPeriod := val.setWidth 8, rotEn := bit val 8 } })
  | 0x04 =>
    let v := Fld val 0 8
    if 20 ≤ v ∧ v ≤ 32 then
      .ok (storeItem cduSetOff (w32 v) { s with therm := { s.therm with cduSet := BitVec.ofNat 8 v } })
    else .error 3
  | _ => .ok s

/-- The PWR block. -/
def writePwr (o : Nat) (val : Word) (s : State) : Verdict :=
  match o with
  | 0x20 => rackCapHost val s
  | _ =>
    match idx o 0x1000 0x40 96, idx o 0x4000 4 64 with
    | some (w, 0x00), _ => orderHost w val s
    | some (w, 0x08), _ => modCapHost w val s
    | none, some (p, _) => partCapHost p val s
    | _, _ => .ok s

/-- The UPD block, but for its pair. -/
def writeUpd (o : Nat) (val : Word) (s : State) : Verdict :=
  match o with
  | 0x00 => twoBits val 0 1 (updStart s) (updCancel s) s
  | 0x20 => if bit val 0 then movingClr s else .ok s
  | _ => .ok s

/-- The FAULT block. -/
def writeFault (o : Nat) (val : Word) (s : State) : Verdict :=
  match o with
  | 0x00 => coreCtl val s
  | 0x04 => moduleRetest val s
  | _ => match idx o 0x1000 4 18 with
    | some (t, _) => twoBits val 0 1 (trayPrepare t s) (trayCancel t s) s
    | none => .ok s

/-- A move channel takes new registers (R329): in command mode, and while the core shown is not in service, illegal. -/
def putChan (w n : Nat) (f : Chan → Chan) (s : State) : Verdict :=
  if s.chanOpen w then .ok (s.setChan (s.selChan w n) (f (s.chan (s.selChan w n)))) else .error 5

/-- A write of a channel's registers (Table 9-2, R330, R350): no value is judged but GO's with ABORT; a pair's HI commits the
latch of the core shown. -/
def writeChan (w n o : Nat) (val : Word) (s : State) : Verdict :=
  let set := fun (f : ChRegs → ChRegs) => putChan w n (fun c => { c with regs := f c.regs }) s
  match o with
  | 0x00 => putChan w n (fun c => { c with latSrc := some val }) s
  | 0x04 => putChan w n (fun c => { c with
      regs := { c.regs with src := join64 val (c.latSrc.getD (lo32 c.regs.src)) }, latSrc := none }) s
  | 0x08 => putChan w n (fun c => { c with latDst := some val }) s
  | 0x0C => putChan w n (fun c => { c with
      regs := { c.regs with dst := join64 val (c.latDst.getD (lo32 c.regs.dst)) }, latDst := none }) s
  | 0x10 => set (fun r => { r with count := val })
  | 0x14 => set (fun r => { r with cnt01 := val })
  | 0x18 => set (fun r => { r with cnt2 := w32 (Fld val 0 16) })
  | 0x1C => set (fun r => { r with space := w32 (Fld val 0 4) })
  | 0x20 => set (fun r => { r with ss0 := val })
  | 0x24 => set (fun r => { r with ds0 := val })
  | 0x28 => set (fun r => { r with ss1 := val })
  | 0x2C => set (fun r => { r with ds1 := val })
  | 0x30 => set (fun r => { r with ss2 := val })
  | 0x34 => set (fun r => { r with ds2 := val })
  | 0x38 =>
    if bit val 0 && bit val 1 then .error 3
    else if bit val 0 then chanGo w n s
    else if bit val 1 then chanAbort w n s
    else if s.chanOpen w then .ok s else .error 5
  | _ => .ok s

/-- A MOD window. -/
def writeMod (w page o : Nat) (val : Word) (s : State) : Verdict :=
  match page, o with
  | 1, 0x00 => if bit val 0 then diagEnable w s else diagDisable w s
  | 1, 0x04 => .ok (s.setMod w { s.mod w with mvSel := val.setWidth 8 })
  | 1, o => match idx o 0x40 0x40 4 with | some (n, q) => writeChan w n q val s | none => .ok s
  | 3, 0x00 => .ok (s.setMod w { s.mod w with errSel := val.setWidth 4 })
  | _, _ => .ok s

/-- How a write of a register is judged, but for the pairs; read-only registers and words with no register take none (R15,
R170, R173). -/
def writeReg (r : Reg) (val : Word) (s : State) : Verdict :=
  match r with
  | .mach o => writeMach o val s
  | .ten n o => writeTen n o val s
  | .part p o => writePart p o val s
  | .ring q o => writeRing q o val s
  | .key o => writeKey o val s
  | .fab o => writeFab o val s
  | .sound o => writeSound o val s
  | .cxp k o => writeCxp k o val s
  | .tio k o => writeTio k o val s
  | .ctx k o => writeCtx k o val s
  | .therm o => writeTherm o val s
  | .pwr o => writePwr o val s
  | .boot o => if o = 8 ∧ bit val 0 = true then .ok (ackCodes s) else .ok s
  | .upd o => writeUpd o val s
  | .fault o => writeFault o val s
  | .mod w page o => writeMod w page o val s
  | _ => .ok s

/-- The effective value that the log records for a register that has one of its own (R177, R585, Table 18-3). -/
def effOf : Reg → Option (State → Nat)
  | .mach 0x280 => some (fun t => t.strapEff.toNat)
  | .pwr 0x20 => some (fun t => t.capAfter .rack)
  | .pwr o => match idx o 0x1000 0x40 96, idx o 0x4000 4 64 with
    | some (w, 0x00), _ => some (fun t => b2n (t.effOn w))
    | some (w, 0x08), _ => some (fun t => t.capAfter (.module (Fin.ofNat 96 w)))
    | none, some (p, _) => some (fun t => t.capAfter (.partition (BitVec.ofNat 6 p)))
    | _, _ => none
  | _ => none

/-- A write of BAR0 (R171–R176): a sub-word access and one outside every block are ignored and counted; a page that does not
answer takes nothing (R786); a pair's LO loads its latch and its HI commits it; any other register is judged by its own
rule. -/
def setupWrite (port off be : Nat) (val : Word) (s : State) : State :=
  if !s.takesWrites then s
  else if be ≠ 15 ∨ off % 4 ≠ 0 then illegal 1 port off s
  else match canon off with
    | none => illegal 2 port off s
    | some c =>
      if !(s.answersWrite (regAt c)) then s
      else match s.pairOf (regAt c), s.pairOf (regAt (c - 4)) with
        | some _, _ => regOp port off val.toNat (.ok (setLatch c (some val) s)) s
        | none, some v => pairHi (c - 4) port off val v s
        | none, none =>
          match effOf (regAt c) with
          | some eff => regOpEff port off val.toNat eff (writeReg (regAt c) val s) s
          | none => regOp port off val.toNat (writeReg (regAt c) val s) s

/-! ### The commands -/

/-- SETUP_REGISTER_WRITE: whichever register the offset names. -/
def execSetupRegisterWrite (port : BitVec 4) (off : BitVec 26) (be : BitVec 4) (val : Word) (s : State) :
    Host.Outcome State Fault Refusal := .next (setupWrite port.toNat off.toNat be.toNat val s)

/-- PAIR_LO_WRITE: the same access where the offset names a pair's LO. -/
def execPairLoWrite (port : BitVec 4) (off : BitVec 26) (be : BitVec 4) (val : Word) (s : State) :
    Host.Outcome State Fault Refusal := .next (setupWrite port.toNat off.toNat be.toNat val s)

/-- PAIR_HI_COMMIT: the same access where the offset names a pair's HI. -/
def execPairHiCommit (port : BitVec 4) (off : BitVec 26) (be : BitVec 4) (val : Word) (s : State) :
    Host.Outcome State Fault Refusal := .next (setupWrite port.toNat off.toNat be.toNat val s)

/-- RC_REGISTER_READ: a read of BAR0, of whichever register the offset names; an RC register is cleared. -/
def execRcRegisterRead (port : BitVec 4) (off : BitVec 26) (be : BitVec 4) (s : State) :
    Host.Outcome State Fault Refusal := .next (setupRead port.toNat off.toNat be.toNat s)

/-- STRAP_OVERRIDE_WRITE (R190). -/
def execStrapOverrideWrite (port : BitVec 4) (val : Word) (s : State) : Host.Outcome State Fault Refusal :=
  .next (regOpEff port.toNat 0x280 val.toNat (fun t => t.strapEff.toNat) (.ok (strapOvr val s)) s)

/-- ILLEGAL_SETUP_READ (R172, R182): a read of BAR0 or of function `fn`'s nudge page (`nudge`) that may be sub-word, misaligned
or outside every block; one that is not is an ordinary read. -/
def execIllegalSetupRead (port fn : BitVec 4) (nudge : Bool) (off : BitVec 26) (be : BitVec 4) (s : State) :
    Host.Outcome State Fault Refusal :=
  .next (if nudge then nudgeRead port.toNat fn.toNat (off.toNat % 4096) be.toNat s else setupRead port.toNat off.toNat be.toNat s)

end Sys2Proof.Machine
end

