-- ==== Sys2Proof/Machine/Dispatch.lean ====
section
/-! DEFINITION. One arm per command, each a direct call of its meaning. -/

namespace Sys2Proof.Machine

def exec (i : Instr) (s : State) : Host.Outcome State Fault Refusal :=
  match i with
  | .setupRegisterWrite port off be val => Sys2Proof.Machine.execSetupRegisterWrite port off be val s
  | .pairLoWrite port off be val => Sys2Proof.Machine.execPairLoWrite port off be val s
  | .pairHiCommit port off be val => Sys2Proof.Machine.execPairHiCommit port off be val s
  | .rcRegisterRead port off be => Sys2Proof.Machine.execRcRegisterRead port off be s
  | .strapOverrideWrite port val => Sys2Proof.Machine.execStrapOverrideWrite port val s
  | .pcieConfigWrite port fn cfg => Sys2Proof.Machine.execPcieConfigWrite port fn cfg s
  | .nudge port fn off be => Sys2Proof.Machine.execNudge port fn off be s
  | .tenantEnable port n => Sys2Proof.Machine.execTenantEnable port n s
  | .tenantDisable port n => Sys2Proof.Machine.execTenantDisable port n s
  | .tenantWindDownDone n => Sys2Proof.Machine.execTenantWindDownDone n s
  | .partitionEnable port p => Sys2Proof.Machine.execPartitionEnable port p s
  | .partitionEnableDone p => Sys2Proof.Machine.execPartitionEnableDone p s
  | .partitionDisable port p => Sys2Proof.Machine.execPartitionDisable port p s
  | .partitionCut port p => Sys2Proof.Machine.execPartitionCut port p s
  | .partitionWindDownDone p => Sys2Proof.Machine.execPartitionWindDownDone p s
  | .functionLevelReset port fn => Sys2Proof.Machine.execFunctionLevelReset port fn s
  | .hotReset port => Sys2Proof.Machine.execHotReset port s
  | .linkDown port => Sys2Proof.Machine.execLinkDown port s
  | .hostLinkUp port speed width flit => Sys2Proof.Machine.execHostLinkUp port speed width flit s
  | .vfDisable port numVfs vfEn => Sys2Proof.Machine.execVfDisable port numVfs vfEn s
  | .busMasterEnableChange port fn on => Sys2Proof.Machine.execBusMasterEnableChange port fn on s
  | .flrResetDone n => Sys2Proof.Machine.execFlrResetDone n s
  | .flrDrainTimeout n => Sys2Proof.Machine.execFlrDrainTimeout n s
  | .flrScrubDone n => Sys2Proof.Machine.execFlrScrubDone n s
  | .ringEnable port r => Sys2Proof.Machine.execRingEnable port r s
  | .ringDisable port r => Sys2Proof.Machine.execRingDisable port r s
  | .ringWindDownDone r => Sys2Proof.Machine.execRingWindDownDone r s
  | .scanDue p => Sys2Proof.Machine.execScanDue p s
  | .scanReadComplete p data => Sys2Proof.Machine.execScanReadComplete p data s
  | .scanFailed p cause => Sys2Proof.Machine.execScanFailed p cause s
  | .hostReadTimeout id => Sys2Proof.Machine.execHostReadTimeout id s
  | .ringFetchIssue r => Sys2Proof.Machine.execRingFetchIssue r s
  | .ringFetchComplete r data => Sys2Proof.Machine.execRingFetchComplete r data s
  | .ringFetchFailed r cause => Sys2Proof.Machine.execRingFetchFailed r cause s
  | .dispatcherRound p eng => Sys2Proof.Machine.execDispatcherRound p eng s
  | .nop r => Sys2Proof.Machine.execNop r s
  | .waitTally r => Sys2Proof.Machine.execWaitTally r s
  | .settle r => Sys2Proof.Machine.execSettle r s
  | .mxGemm r => Sys2Proof.Machine.execMxGemm r s
  | .mxAttn r => Sys2Proof.Machine.execMxAttn r s
  | .vxElt r => Sys2Proof.Machine.execVxElt r s
  | .vxReduce r => Sys2Proof.Machine.execVxReduce r s
  | .vxCombine r => Sys2Proof.Machine.execVxCombine r s
  | .mvCopy r => Sys2Proof.Machine.execMvCopy r s
  | .fxSend r => Sys2Proof.Machine.execFxSend r s
  | .fxReduce r => Sys2Proof.Machine.execFxReduce r s
  | .fxAwait r => Sys2Proof.Machine.execFxAwait r s
  | .ixFrame r => Sys2Proof.Machine.execIxFrame r s
  | .commandComplete r seq => Sys2Proof.Machine.execCommandComplete r seq s
  | .tallyWrite r => Sys2Proof.Machine.execTallyWrite r s
  | .heldWriteFlush n => Sys2Proof.Machine.execHeldWriteFlush n s
  | .waitTallySatisfied r seq => Sys2Proof.Machine.execWaitTallySatisfied r seq s
  | .waitTallyTimeout r seq => Sys2Proof.Machine.execWaitTallyTimeout r seq s
  | .settleComplete r seq => Sys2Proof.Machine.execSettleComplete r seq s
  | .fxAwaitSatisfied r seq => Sys2Proof.Machine.execFxAwaitSatisfied r seq s
  | .fxAwaitTimeout r seq => Sys2Proof.Machine.execFxAwaitTimeout r seq s
  | .ixFrameTimeout r seq => Sys2Proof.Machine.execIxFrameTimeout r seq s
  | .tableLoadComplete r seq isle core => Sys2Proof.Machine.execTableLoadComplete r seq isle core s
  | .mxTileHandover r seq tile => Sys2Proof.Machine.execMxTileHandover r seq tile s
  | .epilogueEnd r seq tile => Sys2Proof.Machine.execEpilogueEnd r seq tile s
  | .spilledFollowerStart r seq => Sys2Proof.Machine.execSpilledFollowerStart r seq s
  | .vxTileEnd r seq tile => Sys2Proof.Machine.execVxTileEnd r seq tile s
  | .coreFence w die isle core cause => Sys2Proof.Machine.execCoreFence w die isle core cause s
  | .coreStallTimeout w die isle core => Sys2Proof.Machine.execCoreStallTimeout w die isle core s
  | .faultCoreFenceOrder port val => Sys2Proof.Machine.execFaultCoreFenceOrder port val s
  | .spareColumnCopyDone w die isle => Sys2Proof.Machine.execSpareColumnCopyDone w die isle s
  | .mvChGo port w n => Sys2Proof.Machine.execMvChGo port w n s
  | .mvChAbort port w n => Sys2Proof.Machine.execMvChAbort port w n s
  | .mvTransferComplete w die isle core n => Sys2Proof.Machine.execMvTransferComplete w die isle core n s
  | .mvWindDownDone w die isle core n => Sys2Proof.Machine.execMvWindDownDone w die isle core n s
  | .mvDiagEnable port w => Sys2Proof.Machine.execMvDiagEnable port w s
  | .mvDiagActive w => Sys2Proof.Machine.execMvDiagActive w s
  | .mvDiagDisable port w => Sys2Proof.Machine.execMvDiagDisable port w s
  | .mvDiagExitScrubDone w => Sys2Proof.Machine.execMvDiagExitScrubDone w s
  | .packetArrival tag good => Sys2Proof.Machine.execPacketArrival tag good s
  | .landReceived tag => Sys2Proof.Machine.execLandReceived tag s
  | .nackReceived tag => Sys2Proof.Machine.execNackReceived tag s
  | .ackTimeout tag => Sys2Proof.Machine.execAckTimeout tag s
  | .duplicateRecordExpiry tag => Sys2Proof.Machine.execDuplicateRecordExpiry tag s
  | .linkTrainingLost l => Sys2Proof.Machine.execLinkTrainingLost l s
  | .failedLinkMapUpdate => Sys2Proof.Machine.execFailedLinkMapUpdate s
  | .fabLinkFence port l => Sys2Proof.Machine.execFabLinkFence port l s
  | .fabLinkUnfence port l => Sys2Proof.Machine.execFabLinkUnfence port l s
  | .linkRetrainDone l ok => Sys2Proof.Machine.execLinkRetrainDone l ok s
  | .fxReduceFold r seq m => Sys2Proof.Machine.execFxReduceFold r seq m s
  | .fabShapeReq src shape => Sys2Proof.Machine.execFabShapeReq src shape s
  | .shapePreparationDone => Sys2Proof.Machine.execShapePreparationDone s
  | .shapePreparationFailed rings => Sys2Proof.Machine.execShapePreparationFailed rings s
  | .shapeHoldRelease seams rings => Sys2Proof.Machine.execShapeHoldRelease seams rings s
  | .soundFault => Sys2Proof.Machine.execSoundFault s
  | .soundCircuitsSet => Sys2Proof.Machine.execSoundCircuitsSet s
  | .soundCircuitFailed ring => Sys2Proof.Machine.execSoundCircuitFailed ring s
  | .soundServiceEnter src => Sys2Proof.Machine.execSoundServiceEnter src s
  | .soundServiceLeave src => Sys2Proof.Machine.execSoundServiceLeave src s
  | .soundSelfTestDone ok => Sys2Proof.Machine.execSoundSelfTestDone ok s
  | .soundExtWrite port e val => Sys2Proof.Machine.execSoundExtWrite port e val s
  | .attnTileStepDispatch r seq slab tile => Sys2Proof.Machine.execAttnTileStepDispatch r seq slab tile s
  | .attnTileStepEnd r seq slab tile => Sys2Proof.Machine.execAttnTileStepEnd r seq slab tile s
  | .attnChunkForward r seq slab step chunk => Sys2Proof.Machine.execAttnChunkForward r seq slab step chunk s
  | .attnBufferRelease r seq slab step => Sys2Proof.Machine.execAttnBufferRelease r seq slab step s
  | .attnStall r seq slab step sender => Sys2Proof.Machine.execAttnStall r seq slab step sender s
  | .cxpCtlWrite port k val => Sys2Proof.Machine.execCxpCtlWrite port k val s
  | .discoveryAttempt k found => Sys2Proof.Machine.execDiscoveryAttempt k found s
  | .discoveryComplete k rates count refused => Sys2Proof.Machine.execDiscoveryComplete k rates count refused s
  | .cxpReconfig port k => Sys2Proof.Machine.execCxpReconfig port k s
  | .cxpDetach port k => Sys2Proof.Machine.execCxpDetach port k s
  | .pocxpFault k mask => Sys2Proof.Machine.execPocxpFault k mask s
  | .imageHeaderArrival k stream w h bayer cfa bits => Sys2Proof.Machine.execImageHeaderArrival k stream w h bayer cfa bits s
  | .streamPacketArrival k stream good long bytes => Sys2Proof.Machine.execStreamPacketArrival k stream good long bytes s
  | .controlAckArrival k a => Sys2Proof.Machine.execControlAckArrival k a s
  | .controlPacketTimeout k => Sys2Proof.Machine.execControlPacketTimeout k s
  | .eventPacketArrival k id payload => Sys2Proof.Machine.execEventPacketArrival k id payload s
  | .scannerDetach k => Sys2Proof.Machine.execScannerDetach k s
  | .extensionLockLost k mask => Sys2Proof.Machine.execExtensionLockLost k mask s
  | .frameIdleTimeout k => Sys2Proof.Machine.execFrameIdleTimeout k s
  | .gcRead port k => Sys2Proof.Machine.execGcRead port k s
  | .gcWrite port k => Sys2Proof.Machine.execGcWrite port k s
  | .pinConfigWrite port k m val => Sys2Proof.Machine.execPinConfigWrite port k m val s
  | .pinHoldEnd k m ph => Sys2Proof.Machine.execPinHoldEnd k m ph s
  | .pinInputEdge k m level ph => Sys2Proof.Machine.execPinInputEdge k m level ph s
  | .triggerArm port k val => Sys2Proof.Machine.execTriggerArm port k val s
  | .trigFire port k ph => Sys2Proof.Machine.execTrigFire port k ph s
  | .timedTrigger k => Sys2Proof.Machine.execTimedTrigger k s
  | .scheduledOutputEdge k ph => Sys2Proof.Machine.execScheduledOutputEdge k ph s
  | .outputOverload k m => Sys2Proof.Machine.execOutputOverload k m s
  | .outputFaultRetry k m ok => Sys2Proof.Machine.execOutputFaultRetry k m ok s
  | .trigOverrunReport k => Sys2Proof.Machine.execTrigOverrunReport k s
  | .unitTaken pl => Sys2Proof.Machine.execUnitTaken pl s
  | .earlyEndMarkerReport k => Sys2Proof.Machine.execEarlyEndMarkerReport k s
  | .unitLastWrite pl => Sys2Proof.Machine.execUnitLastWrite pl s
  | .pipeEnable port k => Sys2Proof.Machine.execPipeEnable port k s
  | .pipeDisable port k => Sys2Proof.Machine.execPipeDisable port k s
  | .pipeWindDownDone k => Sys2Proof.Machine.execPipeWindDownDone k s
  | .pipeBankWrite port k val => Sys2Proof.Machine.execPipeBankWrite port k val s
  | .bankLoad port k bank => Sys2Proof.Machine.execBankLoad port k bank s
  | .bankLoadComplete k data failed => Sys2Proof.Machine.execBankLoadComplete k data failed s
  | .frameDroppedReport k => Sys2Proof.Machine.execFrameDroppedReport k s
  | .powerOn straps => Sys2Proof.Machine.execPowerOn straps s
  | .stageEnd items => Sys2Proof.Machine.execStageEnd items s
  | .stageBoundExpiry items => Sys2Proof.Machine.execStageBoundExpiry items s
  | .calibrationLoopEnd w d ceil n => Sys2Proof.Machine.execCalibrationLoopEnd w d ceil n s
  | .coldWaitTimeout w d => Sys2Proof.Machine.execColdWaitTimeout w d s
  | .transportSwitch on => Sys2Proof.Machine.execTransportSwitch on s
  | .bootAck src => Sys2Proof.Machine.execBootAck src s
  | .restart src val => Sys2Proof.Machine.execRestart src val s
  | .displayCycle => Sys2Proof.Machine.execDisplayCycle s
  | .locateButton => Sys2Proof.Machine.execLocateButton s
  | .lampTest => Sys2Proof.Machine.execLampTest s
  | .lampTestEnd => Sys2Proof.Machine.execLampTestEnd s
  | .reArm => Sys2Proof.Machine.execReArm s
  | .shelfReport shelf good present out => Sys2Proof.Machine.execShelfReport shelf good present out s
  | .powerOrderHost port w val => Sys2Proof.Machine.execPowerOrderHost port w val s
  | .powerOrderRm session w v => Sys2Proof.Machine.execPowerOrderRm session w v s
  | .moduleCapHostWrite port w val => Sys2Proof.Machine.execModuleCapHostWrite port w val s
  | .partitionCapHostWrite port p val => Sys2Proof.Machine.execPartitionCapHostWrite port p val s
  | .rackCapHostWrite port val => Sys2Proof.Machine.execRackCapHostWrite port val s
  | .redfishPowerLimit session l v => Sys2Proof.Machine.execRedfishPowerLimit session l v s
  | .railSequenceUpDone w => Sys2Proof.Machine.execRailSequenceUpDone w s
  | .railSequenceDownDone w => Sys2Proof.Machine.execRailSequenceDownDone w s
  | .railRampMiss w => Sys2Proof.Machine.execRailRampMiss w s
  | .railFault w rail mv => Sys2Proof.Machine.execRailFault w rail mv s
  | .coreSupplyStep w => Sys2Proof.Machine.execCoreSupplyStep w s
  | .capControllerWindow w power => Sys2Proof.Machine.execCapControllerWindow w power s
  | .powerSpanEnd span trays pumps high => Sys2Proof.Machine.execPowerSpanEnd span trays pumps high s
  | .sagSample mv => Sys2Proof.Machine.execSagSample mv s
  | .holdTimerExpiry => Sys2Proof.Machine.execHoldTimerExpiry s
  | .trayUndervoltage t => Sys2Proof.Machine.execTrayUndervoltage t s
  | .deferredWriteCommit => Sys2Proof.Machine.execDeferredWriteCommit s
  | .coolingControlPeriod r own => Sys2Proof.Machine.execCoolingControlPeriod r own s
  | .actuatorOrderReceipt a heard bits => Sys2Proof.Machine.execActuatorOrderReceipt a heard bits s
  | .pumpStop p => Sys2Proof.Machine.execPumpStop p s
  | .pumpRetry p => Sys2Proof.Machine.execPumpRetry p s
  | .pumpRejoin p => Sys2Proof.Machine.execPumpRejoin p s
  | .trayCoolantSample t inlet outlet flow wet => Sys2Proof.Machine.execTrayCoolantSample t inlet outlet flow wet s
  | .reservoirLevelChange lv => Sys2Proof.Machine.execReservoirLevelChange lv s
  | .cduLeakSensed wet => Sys2Proof.Machine.execCduLeakSensed wet s
  | .junctionSensorSample w d readings => Sys2Proof.Machine.execJunctionSensorSample w d readings s
  | .forecasterUpdate w => Sys2Proof.Machine.execForecasterUpdate w s
  | .comparatorTrip t slot die => Sys2Proof.Machine.execComparatorTrip t slot die s
  | .lossOfFlow => Sys2Proof.Machine.execLossOfFlow s
  | .leakCutoff t => Sys2Proof.Machine.execLeakCutoff t s
  | .wardenWatchdogExpiry t => Sys2Proof.Machine.execWardenWatchdogExpiry t s
  | .cduVoterWatchdog => Sys2Proof.Machine.execCduVoterWatchdog s
  | .heartbeatPeriod heard => Sys2Proof.Machine.execHeartbeatPeriod heard s
  | .heartbeatReceipt claimant epoch => Sys2Proof.Machine.execHeartbeatReceipt claimant epoch s
  | .switchback m c => Sys2Proof.Machine.execSwitchback m c s
  | .redfishGet session row idx => Sys2Proof.Machine.execRedfishGet session row idx s
  | .redfishSessionCreate account password => Sys2Proof.Machine.execRedfishSessionCreate account password s
  | .datetimeSet session utc => Sys2Proof.Machine.execDatetimeSet session utc s
  | .ntpStep utc => Sys2Proof.Machine.execNtpStep utc s
  | .locationIndicatorSet session g on => Sys2Proof.Machine.execLocationIndicatorSet session g on s
  | .consoleStatus account => Sys2Proof.Machine.execConsoleStatus account s
  | .consoleLog account n => Sys2Proof.Machine.execConsoleLog account n s
  | .consoleLastwords account => Sys2Proof.Machine.execConsoleLastwords account s
  | .wardenStart t => Sys2Proof.Machine.execWardenStart t s
  | .wardenAdoptionDone t => Sys2Proof.Machine.execWardenAdoptionDone t s
  | .logRecordAppend c => Sys2Proof.Machine.execLogRecordAppend c s
  | .logCopyFailed c => Sys2Proof.Machine.execLogCopyFailed c s
  | .logCopyRebuilt c => Sys2Proof.Machine.execLogCopyRebuilt c s
  | .patrolScrubPass w die isle unit found => Sys2Proof.Machine.execPatrolScrubPass w die isle unit found s
  | .rowRepairDone w die isle slot row => Sys2Proof.Machine.execRowRepairDone w die isle slot row s
  | .commandProcessorStall w die => Sys2Proof.Machine.execCommandProcessorStall w die s
  | .moduleRetest port val => Sys2Proof.Machine.execModuleRetest port val s
  | .retestComplete w items => Sys2Proof.Machine.execRetestComplete w items s
  | .trayPrepare port t => Sys2Proof.Machine.execTrayPrepare port t s
  | .trayReady t => Sys2Proof.Machine.execTrayReady t s
  | .trayCancel port t => Sys2Proof.Machine.execTrayCancel port t s
  | .trayRemoval t => Sys2Proof.Machine.execTrayRemoval t s
  | .trayInsertion t straps slots => Sys2Proof.Machine.execTrayInsertion t straps slots s
  | .trayJoinComplete t items => Sys2Proof.Machine.execTrayJoinComplete t items s
  | .keyLoad port n => Sys2Proof.Machine.execKeyLoad port n s
  | .keyBlobJudged blob failed => Sys2Proof.Machine.execKeyBlobJudged blob failed s
  | .keyForget port n => Sys2Proof.Machine.execKeyForget port n s
  | .rotateWk port => Sys2Proof.Machine.execRotateWk port s
  | .wrappingKeyRotated => Sys2Proof.Machine.execWrappingKeyRotated s
  | .keySlotWriteTimeout w => Sys2Proof.Machine.execKeySlotWriteTimeout w s
  | .keySlotRetryExhausted w => Sys2Proof.Machine.execKeySlotRetryExhausted w s
  | .doeDiscovery port => Sys2Proof.Machine.execDoeDiscovery port s
  | .getDigests port => Sys2Proof.Machine.execGetDigests port s
  | .getCertificate port slot off len => Sys2Proof.Machine.execGetCertificate port slot off len s
  | .challenge port slot summary nonce => Sys2Proof.Machine.execChallenge port slot summary nonce s
  | .getMeasurements port index sign nonce => Sys2Proof.Machine.execGetMeasurements port index sign nonce s
  | .spdmUnsupportedRequest port => Sys2Proof.Machine.execSpdmUnsupportedRequest port s
  | .lidSwitchClose t closes => Sys2Proof.Machine.execLidSwitchClose t closes s
  | .batteryLow charge => Sys2Proof.Machine.execBatteryLow charge s
  | .whiteoutRearmComplete => Sys2Proof.Machine.execWhiteoutRearmComplete s
  | .tiltTrip => Sys2Proof.Machine.execTiltTrip s
  | .movingClear src reattitude => Sys2Proof.Machine.execMovingClear src reattitude s
  | .ownerLockSet m on => Sys2Proof.Machine.execOwnerLockSet m on s
  | .updateStart port => Sys2Proof.Machine.execUpdateStart port s
  | .redfishUpdatePush session => Sys2Proof.Machine.execRedfishUpdatePush session s
  | .simpleUpdate session => Sys2Proof.Machine.execSimpleUpdate session s
  | .parcelHeaderJudged header failed => Sys2Proof.Machine.execParcelHeaderJudged header failed s
  | .bodyStaged good failed => Sys2Proof.Machine.execBodyStaged good failed s
  | .installComplete skipped => Sys2Proof.Machine.execInstallComplete skipped s
  | .instanceSwitch => Sys2Proof.Machine.execInstanceSwitch s
  | .instanceHealthy => Sys2Proof.Machine.execInstanceHealthy s
  | .trialBoundExpiry => Sys2Proof.Machine.execTrialBoundExpiry s
  | .trialRestart => Sys2Proof.Machine.execTrialRestart s
  | .updateResume => Sys2Proof.Machine.execUpdateResume s
  | .updateCancel src => Sys2Proof.Machine.execUpdateCancel src s
  | .updateConfirm m => Sys2Proof.Machine.execUpdateConfirm m s
  | .updateFallback m => Sys2Proof.Machine.execUpdateFallback m s
  | .fallbackComplete => Sys2Proof.Machine.execFallbackComplete s
  | .oscillatorFailure => Sys2Proof.Machine.execOscillatorFailure s
  | .keySlotWriteRetry w ok => Sys2Proof.Machine.execKeySlotWriteRetry w ok s
  | .hostReadCompletion id res => Sys2Proof.Machine.execHostReadCompletion id res s
  | .illegalSetupRead port fn nudge off be => Sys2Proof.Machine.execIllegalSetupRead port fn nudge off be s
  | .redfishSessionTimeout n => Sys2Proof.Machine.execRedfishSessionTimeout n s
  | .redfishStandardOperation session op => Sys2Proof.Machine.execRedfishStandardOperation session op s
  | .battLowCondition charge => Sys2Proof.Machine.execBattLowCondition charge s

end Sys2Proof.Machine
end

