-- ==== Sys2Proof/Machine/Step.lean ====
section
/-! DEFINITION. One step of the block: the command at the front of the queue takes effect; an empty queue lets one tick of the
timebase pass (DESIGN CHOICE, log 2). -/

namespace Sys2Proof.Machine

/-- The timebase counts one tick (R67), and the display's order of arrival is noted (R51, log 81). -/
def tick (s : State) : State := noteCodes { s with win := { s.win with tb := s.win.tb + 1 } }

/-- Take the command at the front and run it on the rest of the machine. -/
def step (s : State) : Host.Outcome State Fault Refusal :=
  match s.pending with
  | c :: rest => exec c { s with pending := rest }
  | [] => .next (tick s)

/-- Put the command a word spells at the front of the queue. The table gives no row bits, so no word spells one (log 4). -/
def State.withFetchWord (s : State) (nbits w : Nat) : State :=
  match decodeTableWord nbits w with
  | some c => { s with pending := c :: s.pending }
  | none => s

end Sys2Proof.Machine
end

