-- ==== Sys2Proof/Safety.lean ====
section
/-! DEFINITION. What counts as a safe run: no command stops the machine, and its sparse memories keep their canonical form. -/

namespace Sys2Proof

/-- A run of k steps that never stops. -/
def RunsSafely (k : Nat) (s : Machine.State) : Prop := ∃ t, core.run k s = .next t

/-- The canonical form of the memories the spec gives the machine: columns, scratch and bank bytes (keys rising, no byte listed
that reads as an unlisted one). -/
def Machine.State.memWf (s : Machine.State) : Bool :=
  Machine.Tab.wf 0 s.cols && s.cores.all (fun c => Machine.Tab.wf 0 c.2.scratch && Machine.Tab.wf 0 c.2.acc) &&
    s.pipes.all (fun p => Machine.Tab.wf 0 p.2.mem)

/-- The command completes: exec answers a next state, and P holds of it. -/
def Runs (c : Instr) (s : Machine.State) (P : Machine.State → Prop) : Prop := ∃ t, Machine.exec c s = .next t ∧ P t

/-- The state `s` with the places a log record may change (R670, R672, R589) as `t` has them: the frame of a command that is
recorded in the stewards' log. -/
def Machine.logged (s t : Machine.State) : Machine.State :=
  { s with
    stw := { s.stw with chans := t.stw.chans, ram := t.stw.ram, ramLost := t.stw.ramLost }
    pwr := { s.pwr with dropped := t.pwr.dropped } }

/-- The state `s` with the places a machine-level event may change as `t` has them: its log record, the events held, and the
control tenant's event ring with what is written to it (R262, R263, R670). -/
def Machine.told (s t : Machine.State) : Machine.State :=
  { Machine.logged s t with tens := t.tens, out := t.out, mevHeld := t.mevHeld, mevLost := t.mevLost, mevRun := t.mevRun }

/-- The state `s` with those places and what an answer to management changes: what goes out, and when its session was last
used (R661). -/
def Machine.answered (s t : Machine.State) : Machine.State :=
  { Machine.told s t with stw := { (Machine.told s t).stw with sessions := t.stw.sessions } }

/-- The oldest command of a ring not yet counted is `c`, in progress with opcode `op`; the one after it is still in progress
(R255). The lead command processor, which completes it, is not below 0.70 V (R322). -/
def FrontWaits (s : Machine.State) (r : Nat) (seq : DWord) (op : Machine.Op) (c : Machine.Cmd) (rest : List Machine.Cmd) : Prop :=
  (s.ring r).cmds = c :: rest ∧ c.seq = seq ∧ c.done = false ∧ c.rerun = false ∧ Machine.bit c.flags 5 = false ∧
  Machine.opOf c.bytes = some op ∧ (∀ d ∈ rest, d.seq ≠ seq) ∧ (∀ d ∈ rest.head?, d.done = false) ∧
  s.leadPaused (s.ring r).ctx.part = false

/-- The ring's front command has completed: the tally counts one more, it waits to be written, and no other ring changes
(R255). -/
def Retires (s t : Machine.State) (r : Nat) (rest : List Machine.Cmd) : Prop :=
  (t.ring r).cmds = rest ∧ (t.ring r).tally = (s.ring r).tally + 1 ∧ (t.ring r).tallyDue = true ∧
  ∀ q, q ≠ r → t.ring q = s.ring q

/-- The head of ring `r` is judged legal: as it became head, or now if it has not been (R280). -/
def JudgedLegal (s : Machine.State) (r : Nat) (e : Machine.Entry) : Bool :=
  if (s.ring r).headTick.isNone then Machine.headLegal s r e else (s.ring r).headOk

/-- The head of ring `r` is `e` with opcode `op`, ring and partition are ON, nothing holds the ring, and its lead command
processor is not below 0.70 V (R280, R818). -/
def HeadServed (s : Machine.State) (r : Nat) (op : Machine.Op) (e : Machine.Entry) (rest : List Machine.Entry) : Prop :=
  (s.ring r).fetched = e :: rest ∧ (s.ring r).obj.st = .on ∧ (s.part (s.ring r).ctx.part).obj.st = .on ∧
  (s.ring r).held = false ∧ Machine.opOf e.bytes = some op ∧ s.leadPaused (s.ring r).ctx.part = false

/-- Such a head is judged legal and, noted as head, may be dispatched (R280, R281). -/
def HeadReady (s : Machine.State) (r : Nat) (op : Machine.Op) (e : Machine.Entry) (rest : List Machine.Entry) : Prop :=
  HeadServed s r op e rest ∧ JudgedLegal s r e = true ∧ Machine.canDispatch (Machine.noteHead r s) r e op = true

/-- The command that becomes head after it has no recipe in a poisoned unit, whose event its becoming head would raise (R697). -/
def NextUnpoisoned (s : Machine.State) (r : Nat) (rest : List Machine.Entry) : Prop :=
  ∀ e ∈ rest.head?, s.recipePoison (s.part (s.ring r).ctx.part).mods e.bytes = none

/-- The head of ring `r` has been dispatched: it has the next sequence number and no other ring changes (R240, R281). -/
def Dispatched (s t : Machine.State) (r : Nat) (rest : List Machine.Entry) : Prop :=
  (t.ring r).disp = (s.ring r).disp + 1 ∧ (t.ring r).fetched = rest ∧ (t.ring r).obj = (s.ring r).obj

/-- It is in progress as the ring's youngest command, with its entry's index and bytes and its partition's modules. -/
def InProgress (s t : Machine.State) (r : Nat) (e : Machine.Entry) : Prop :=
  ∃ c, (t.ring r).cmds = (s.ring r).cmds ++ [c] ∧ c.seq = (s.ring r).disp + 1 ∧ c.idx = e.idx ∧ c.bytes = e.bytes ∧
    c.done = false ∧ c.mods = (s.part (s.ring r).ctx.part).mods

end Sys2Proof
end

