-- ==== Sys2Proof/Certificates/Slice0/Obligations.lean ====
section
/-! DEFINITION. The statements about the model. -/

open Sys2Proof Sys2Proof.Machine

/-- For every command c, every queue rest and every state s, step of s with c at the front of its queue is exec of c on s with the
queue rest, whatever the outcome; and exec of every command answers a next state from every state: no command stops the
machine. What each command does there is what the other statements say of it. Derived: spec/opcode_table.json. -/
def Obligations.StepRunsFrontCommand : Prop :=
  ∀ (c : Instr) (rest : List Instr) (s : State), step { s with pending := c :: rest } = exec c { s with pending := rest } ∧ ∃ t, exec c s = .next t

/-- When no command is pending, step answers a next state in which the 64-bit timebase has counted one 10 ns tick and the codes of
the front panel are noted in order of arrival: exactly the active ones, those noted before and still active first and in their
order. Nothing else differs. That the tick is what a step on an empty queue does, and that arrivals are noted there, is the
model's choice (log 2, log 81). Derived: R67, R13, R51. -/
def Obligations.EmptyQueueLetsOneTickPass : Prop :=
  ∀ s : State, s.pending = [] → ∃ t, step s = .next t ∧
    t = { s with win := { s.win with tb := s.win.tb + 1 }, stw := { s.stw with active := t.stw.active } } ∧
    (∀ c, c ∈ t.stw.active ↔ c ∈ s.allCodes ∨ c ∈ s.classCodes 7) ∧
    s.stw.active.filter (fun c => (s.allCodes ++ s.classCodes 7).contains c) <+: t.stw.active

/-- In the state after reset no command is pending, the sparse memory of the columns has its canonical form (addresses strictly
rising, no entry equal to what an unlisted address reads as), and every byte of it reads 0. What the columns read as at reset
is the model's choice (log 1). Derived: 02_transits.md, 23_limits.md. -/
def Obligations.ResetColumnsAreCanonical : Prop :=
  State.reset.pending = [] ∧ Tab.wf 0 State.reset.cols = true ∧ ∀ a, tget 0 a State.reset.cols = 0

/-- For every state whose column memory is canonical (addresses strictly rising, no entry that reads as an unlisted one), whatever
command is at the front of the queue, a step that answers a next state leaves the column memory canonical. So two machines
whose columns read the same at every address hold equal memories after any run. Derived: 02_transits.md, 03_core.md,
06_tenants.md. -/
def Obligations.StepKeepsColumnsCanonical : Prop :=
  ∀ s t : State, Tab.wf 0 s.cols = true → step s = .next t → Tab.wf 0 t.cols = true

/-- For each block of Table 5-1, with its base, size, implemented pages and word mask, an offset A inside the block names the
register at base + page * 4096 + word * 4, where page is bit field p & (implemented pages - 1) of p = (A - base) >> 12 and
word is (A >> 2) & word mask. In the MOD block window and page are bits [23:17] and [16:12] of A - base, whole. An offset
outside every block names none. Stated: R168. -/
def Obligations.WindowOffsetDecodesAsTable51 : Prop :=
  (∀ (base size pages mask A : Nat),
    (base, size, pages, mask) ∈ [
      (0x0000000, 0x10000, 1, 0x3FF), (0x0010000, 0x10000, 16, 0xFF), (0x0020000, 0x10000, 16, 0xFF),
      (0x0030000, 0x10000, 4, 0xFF), (0x0040000, 0x40000, 64, 0x3FF), (0x0080000, 0x20000, 16, 0xFF),
      (0x00A0000, 0x10000, 2, 0xFF), (0x00B0000, 0x10000, 16, 0xFF), (0x00C0000, 0x10000, 4, 0xFF),
      (0x00D0000, 0x20000, 32, 0xFF), (0x00F0000, 0x10000, 8, 0x3FF), (0x0100000, 0x10000, 8, 0x3FF),
      (0x0110000, 0x10000, 1, 0xFF), (0x0120000, 0x10000, 2, 0xFF), (0x0130000, 0x10000, 4, 0xFF)] →
    base ≤ A → A < base + size →
    canon A = some (base + (((A - base) >>> 12) &&& (pages - 1)) * 4096 + ((A >>> 2) &&& mask) * 4)) ∧
  (∀ A, 0x1000000 ≤ A → A < 0x1C00000 →
    canon A = some (0x1000000 + ((A - 0x1000000) >>> 17) * 0x20000 + (((A - 0x1000000) >>> 12) &&& 0x1F) * 4096 +
      ((A >>> 2) &&& 0xFF) * 4)) ∧
  (∀ A, (0x0140000 ≤ A ∧ A < 0x1000000) ∨ 0x1C00000 ≤ A → canon A = none)

/-- On a powered machine, no restart running, an access whose byte enables are not all set or whose offset is not a multiple of 4,
and one with an offset in no block, has no effect but this: MACH_IGNORED counts 1 (saturating), MACH_IGNORED_LAST and
MACH_IGNORED_ADDR take cause, port, function, direction, offset and BAR, and a read returns 0. Stated of the set-up writes
(SETUP_REGISTER_WRITE, PAIR_LO_WRITE, PAIR_HI_COMMIT), the reads (RC_REGISTER_READ, ILLEGAL_SETUP_READ of either BAR) and the
nudge. While a restart runs, or without power, none of these has an effect or a completion. Derived: R171, R172, R180, R182,
R167, R802. -/
def Obligations.RefusedAccessesAreCounted : Prop :=
  ∀ (s : State) (port fn : BitVec 4) (off : BitVec 26) (noff : BitVec 12) (be : BitVec 4) (val : Word),
    (s.boot.again = true ∨ s.boot.powered = false →
      Runs (.setupRegisterWrite port off be val) s (fun t => t = s) ∧ Runs (.pairLoWrite port off be val) s (fun t => t = s) ∧
      Runs (.pairHiCommit port off be val) s (fun t => t = s) ∧ Runs (.rcRegisterRead port off be) s (fun t => t = s) ∧
      (∀ bar, Runs (.illegalSetupRead port fn bar off be) s (fun t => t = s)) ∧ Runs (.nudge port fn noff be) s (fun t => t = s)) ∧
    (s.takesWrites = true →
    (be ≠ 15 ∨ off.toNat % 4 ≠ 0 →
      Runs (.setupRegisterWrite port off be val) s (fun t => t = ignoreAcc 1 port.toNat 0 true off.toNat false s) ∧
      Runs (.pairLoWrite port off be val) s (fun t => t = ignoreAcc 1 port.toNat 0 true off.toNat false s) ∧
      Runs (.pairHiCommit port off be val) s (fun t => t = ignoreAcc 1 port.toNat 0 true off.toNat false s) ∧
      Runs (.rcRegisterRead port off be) s (fun t =>
        t = { ignoreAcc 1 port.toNat 0 false off.toNat false s with out := s.out ++ [.readCpl port.toNat 0] }) ∧
      Runs (.illegalSetupRead port fn false off be) s (fun t =>
        t = { ignoreAcc 1 port.toNat 0 false off.toNat false s with out := s.out ++ [.readCpl port.toNat 0] })) ∧
    (be = 15 → off.toNat % 4 = 0 → canon off.toNat = none →
      Runs (.setupRegisterWrite port off be val) s (fun t => t = ignoreAcc 2 port.toNat 0 true off.toNat false s) ∧
      Runs (.illegalSetupRead port fn false off be) s (fun t =>
        t = { ignoreAcc 2 port.toNat 0 false off.toNat false s with out := s.out ++ [.readCpl port.toNat 0] })) ∧
    (be ≠ 15 ∨ noff.toNat % 4 ≠ 0 →
      Runs (.nudge port fn noff be) s (fun t => t = ignoreAcc 1 port.toNat fn.toNat true noff.toNat true s) ∧
      Runs (.illegalSetupRead port fn true (noff.setWidth 26) be) s (fun t =>
        t = { ignoreAcc 1 port.toNat fn.toNat false noff.toNat true s with out := s.out ++ [.readCpl port.toNat 0] })) ∧
    (∀ (cause : Nat) (bar wr : Bool) (a : Nat), cause < 16 → a < 2 ^ 31 →
      let t := ignoreAcc cause port.toNat fn.toNat wr a bar s
      t.win.ignored = (if s.win.ignored = 0xFFFFFFFF then 0xFFFFFFFF else s.win.ignored + 1) ∧
      t.win.ignLast = w32 (cause + port.toNat * 2 ^ 4 + fn.toNat * 2 ^ 8 + (if wr then 2 ^ 12 else 0)) ∧
      t.win.ignAddr = w32 (a + (if bar then 2 ^ 31 else 0)) ∧
      t = { s with win := { s.win with ignored := t.win.ignored, ignLast := t.win.ignLast, ignAddr := t.win.ignAddr } }))

/-- On a powered machine, no restart running, for every ring, partition and tenant: a full-word write of RING_r_START sets it
whole; one of PART_p_BOX sets the bits of its fields and is not judged; one of TEN_n_SCAN sets SCAN when the value is 100 to
100,000, the interval in force staying what it was until the next tick, and is otherwise ignored with cause 3. Beside the log
record nothing else changes: no other ring, partition or tenant, and no other field of the one written. Derived: R171, R173,
R180, R211, R236, R245, R177. -/
def Obligations.RegisterWritesTakeEffect : Prop :=
  ∀ (s : State) (port : BitVec 4) (val : Word), s.takesWrites = true →
    (∀ r : BitVec 12, Runs (.setupRegisterWrite port (BitVec.ofNat 26 (0x40000 + r.toNat * 0x40 + 0x28)) 15 val) s (fun t =>
      t = { logged s t with rings := t.rings } ∧ t.ring r.toNat = { s.ring r.toNat with start := val } ∧
      ∀ q, q ≠ r.toNat → t.ring q = s.ring q)) ∧
    (∀ p : BitVec 6, Runs (.setupRegisterWrite port
        (BitVec.ofNat 26 (0x30000 + p.toNat / 16 * 0x1000 + p.toNat % 16 * 0x40 + 8)) 15 val) s (fun t =>
      t = { logged s t with parts := t.parts } ∧ t.part p.toNat = { s.part p.toNat with boxReg := val &&& 0x0F7FFFFF } ∧
      ∀ q, q ≠ p.toNat → t.part q = s.part q)) ∧
    (∀ n : BitVec 4,
      let off : BitVec 26 := BitVec.ofNat 26 (0x20000 + n.toNat * 0x1000 + 0x108)
      let v := val.toNat % 2 ^ 17
      (100 ≤ v → v ≤ 100000 → Runs (.setupRegisterWrite port off 15 val) s (fun t =>
        t = { logged s t with tens := t.tens } ∧
        t.ten n.toNat = { s.ten n.toNat with
          scan := BitVec.ofNat 17 v, scanWas := (t.ten n.toNat).scanWas, scanTick := s.win.tb.toNat + 1 } ∧
        t.scanNow n.toNat = s.scanNow n.toNat ∧
        ∀ m, m ≠ n.toNat → t.ten m = s.ten m)) ∧
      (v < 100 ∨ 100000 < v → Runs (.setupRegisterWrite port off 15 val) s (fun t =>
        t = ignoreAcc 3 port.toNat 0 true off.toNat false s)))

/-- For RING_r_BASE of every ring on a powered machine: a write of BASE_LO loads the pair's latch and changes no register; a write
of BASE_HI takes bits [63:32] from the write and bits [31:0] from the latch (the committed LO where nothing was written),
commits them when the value is a multiple of 4,096, and is otherwise ignored with cause 6 with both halves kept; either way
the latch again holds the committed LO. Only the log record, the ignored-access registers and the ring written change.
Derived: R174, R175, R176, Table 22-12. -/
def Obligations.PairsCommitWhole : Prop :=
  ∀ (s : State) (port : BitVec 4) (r : BitVec 12) (val : Word), s.takesWrites = true →
    let lo : Nat := 0x40000 + r.toNat * 0x40 + 0x10
    let latch : Word := (tget none lo s.win.latches).getD (lo32 (s.ring r.toNat).base)
    let v : DWord := join64 val latch
    Runs (.pairLoWrite port (BitVec.ofNat 26 lo) 15 val) s (fun t =>
      t = { logged s t with win := { s.win with latches := t.win.latches } } ∧ tget none lo t.win.latches = some val ∧
      ∀ k, k ≠ lo → tget none k t.win.latches = tget none k s.win.latches) ∧
    (v.toNat % 4096 = 0 → Runs (.pairHiCommit port (BitVec.ofNat 26 (lo + 4)) 15 val) s (fun t =>
      t = { logged s t with win := { s.win with latches := t.win.latches }, rings := t.rings } ∧
      t.ring r.toNat = { s.ring r.toNat with base := v } ∧ (∀ q, q ≠ r.toNat → t.ring q = s.ring q) ∧
      tget none lo t.win.latches = none ∧ (∀ k, k ≠ lo → tget none k t.win.latches = tget none k s.win.latches))) ∧
    (v.toNat % 4096 ≠ 0 → Runs (.pairHiCommit port (BitVec.ofNat 26 (lo + 4)) 15 val) s (fun t =>
      t.rings = s.rings ∧ t.win.ignored = satInc s.win.ignored ∧
      t.win.ignLast = w32 (6 + port.toNat * 2 ^ 4 + 2 ^ 12) ∧ t.win.ignAddr = w32 (lo + 4) ∧
      tget none lo t.win.latches = none ∧ t = { s with win := t.win }))

/-- On a powered machine, no restart running, a full-word read of PWR_RACK_PEAK (0x100030), and one through its alias in the
second repeat of the PWR pages (0x108030), answers the peak and leaves it 0, nothing else changing but the completion sent. A
write of MACH_STRAP_OVR holds every field of it, stores it while no sag is in force, and while its CTLHOST override is enabled
the effective control-host port is the one it names. Derived: R15, R170, R586, R190. -/
def Obligations.PeakReadReturnsAndClears : Prop :=
  ∀ (s : State) (port : BitVec 4) (val : Word), s.takesWrites = true →
    Runs (.rcRegisterRead port 0x100030 15) s (fun t => t = { s with
      out := s.out ++ [.readCpl port.toNat (w32 s.pwr.peak)], pwr := { s.pwr with peak := 0 } }) ∧
    Runs (.rcRegisterRead port 0x108030 15) s (fun t => t = { s with
      out := s.out ++ [.readCpl port.toNat (w32 s.pwr.peak)], pwr := { s.pwr with peak := 0 } }) ∧
    Runs (.strapOverrideWrite port val) s (fun t =>
      t.win.strapOvr = val &&& 0x000FF1F3 ∧ (bit val 8 = true → t.ctlPort = Fld val 12 4) ∧
      (s.pwr.sag = 0 → tget none 0x280 t.store = some (val &&& 0x000FF1F3)) ∧
      t = { logged s t with
        win := { s.win with strapOvr := t.win.strapOvr }, store := t.store, intakes := t.intakes,
        pwr := { s.pwr with dropped := t.pwr.dropped, items := t.pwr.items } })

/-- Written on a powered machine to a tenant, partition, ring or develop context: an enable while the object is ON, and a disable
while it is OFF with nothing pending, leave every register as it was; only the record of the write in the steward log is
added, and MACH_IGNORED does not count. Stated: R183. -/
def Obligations.LifeCycleOrdersWithoutEffect : Prop :=
  ∀ (s : State) (port : BitVec 4), s.takesWrites = true →
    (∀ n : BitVec 4,
      ((s.ten n.toNat).obj.st = .on → Runs (.tenantEnable port n) s (fun t => t = logged s t)) ∧
      ((s.ten n.toNat).obj = {} → Runs (.tenantDisable port n) s (fun t => t = logged s t))) ∧
    (∀ p : BitVec 6,
      ((s.part p.toNat).obj.st = .on → Runs (.partitionEnable port p) s (fun t => t = logged s t)) ∧
      ((s.part p.toNat).obj = {} → Runs (.partitionDisable port p) s (fun t => t = logged s t)) ∧
      ((s.part p.toNat).obj = {} → Runs (.partitionCut port p) s (fun t => t = logged s t))) ∧
    (∀ r : BitVec 12,
      ((s.ring r.toNat).obj.st = .on → Runs (.ringEnable port r) s (fun t => t = logged s t)) ∧
      ((s.ring r.toNat).obj = {} → Runs (.ringDisable port r) s (fun t =>
        t = { logged s t with rings := t.rings } ∧ ∀ q, t.ring q = s.ring q))) ∧
    (∀ k : Fin 8,
      ((s.pipe k.val).obj.st = .on → Runs (.pipeEnable port k) s (fun t => t = logged s t)) ∧
      ((s.pipe k.val).obj = {} → Runs (.pipeDisable port k) s (fun t =>
        t = { logged s t with pipes := t.pipes } ∧ ∀ j, t.pipe j = s.pipe j)))

/-- While the portal bridge is ready, a link entering L0 sets UP, SPEED, WIDTH and FLIT and counts one entry. On a port whose link
is up, an existing function takes a Max Payload Size of at most 512 B, a Max Read Request Size of at most 4,096 B and its Bus
Master Enable, each without another field changing; a value beyond keeps the old one. VF Enable and NumVFs, written to PF0 or
as VF_DISABLE, are held by the port; each virtual function that thereby stops existing loses its configuration, and the tenant
bound to it begins its reset sequence; no other function changes. With the link down, or for a function that does not exist,
nothing changes. Derived: R204, R205, R208, R210, R788. -/
def Obligations.HostFunctionsAreConfigured : Prop :=
  ∀ (s : State) (port fn : BitVec 4),
    let sriov := fun (nv : BitVec 4) (en : Bool) (t : State) =>
      t.port port.toNat = { s.port port.toNat with numVfs := nv, vfEn := en } ∧
      (∀ q, q ≠ port.toNat → t.port q = s.port q) ∧
      (∀ f : BitVec 4, s.fnExists port.toNat f.toNat = true → t.fnExists port.toNat f.toNat = false →
        t.fnc port.toNat f.toNat = {} ∧
        ∀ n, s.resetTen port.toNat f.toNat = some n → (t.ten n).flr = .drain ∨ (t.ten n).flr = .drainScrub) ∧
      (∀ q f : BitVec 4, q ≠ port ∨ s.fnExists port.toNat f.toNat = false ∨ t.fnExists port.toNat f.toNat = true →
        t.fnc q.toNat f.toNat = s.fnc q.toNat f.toNat)
    let bme := fun (on : Bool) (t : State) =>
      t.fnc port.toNat fn.toNat = { s.fnc port.toNat fn.toNat with bme := on } ∧
      (∀ q f : BitVec 4, (q, f) ≠ (port, fn) → t.fnc q.toNat f.toNat = s.fnc q.toNat f.toNat) ∧
      t = { s with fns := t.fns, reads := t.reads, out := t.out }
    (∀ (speed : BitVec 3) (width : BitVec 5) (flit : Bool),
      (s.bridgeReady port.toNat = true → Runs (.hostLinkUp port speed width flit) s (fun t =>
        t.port port.toNat = { s.port port.toNat with
          up := true, speed := speed, width := width, flit := flit, trains := (s.port port.toNat).trains + 1 } ∧
        (∀ q, q ≠ port.toNat → t.port q = s.port q) ∧
        t = { s with ports := t.ports, reads := t.reads, out := t.out })) ∧
      (s.bridgeReady port.toNat = false → Runs (.hostLinkUp port speed width flit) s (fun t => t = s))) ∧
    ((s.port port.toNat).up = true → s.fnExists port.toNat fn.toNat = true →
      (∀ v : BitVec 3,
        (v.toNat ≤ 2 → Runs (.pcieConfigWrite port fn (.mps v)) s (fun t =>
          t = s.setFn port.toNat fn.toNat { s.fnc port.toNat fn.toNat with mps := v })) ∧
        (2 < v.toNat → Runs (.pcieConfigWrite port fn (.mps v)) s (fun t => t = s)) ∧
        (v.toNat ≤ 5 → Runs (.pcieConfigWrite port fn (.mrrs v)) s (fun t =>
          t = s.setFn port.toNat fn.toNat { s.fnc port.toNat fn.toNat with mrrs := v })) ∧
        (5 < v.toNat → Runs (.pcieConfigWrite port fn (.mrrs v)) s (fun t => t = s))) ∧
      (∀ on : Bool, Runs (.busMasterEnableChange port fn on) s (bme on) ∧ Runs (.pcieConfigWrite port fn (.bme on)) s (bme on)) ∧
      (∀ (nv : BitVec 4) (en : Bool),
        (fn = 0 → Runs (.pcieConfigWrite port fn (.sriov nv en)) s (sriov nv en)) ∧
        (fn ≠ 0 → Runs (.pcieConfigWrite port fn (.sriov nv en)) s (fun t => t = s)))) ∧
    (∀ (nv : BitVec 4) (en : Bool), (s.port port.toNat).up = true → Runs (.vfDisable port nv en) s (sriov nv en)) ∧
    ((s.port port.toNat).up = false ∨ s.fnExists port.toNat fn.toNat = false →
      (∀ on : Bool, Runs (.busMasterEnableChange port fn on) s (fun t => t = s)) ∧
      (∀ cfg : CfgWrite, Runs (.pcieConfigWrite port fn cfg) s (fun t => t = s)))

/-- A link-down and a hot reset of a port whose link is up clear VF Enable and NumVFs, give every function of the port its reset
configuration at once, count one reset and start the reset sequence of the ON or WINDING tenant bound to each function, whose
configuration is not reset again; a link-down leaves UP 0 with no speed, width or flit mode. Where no tenant is bound to a
function of the port, nothing else changes. A Function Level Reset of an existing function gives an unbound one its reset
configuration at once and starts the reset sequence of the tenant bound to it, which keeps the configuration until reset done,
while the tenant stays as it is and its ON partitions are cut; one of PF0 clears VF Enable and NumVFs and resets the virtual
functions with it. While one of the same function runs a further one has no effect. Derived: R789, R817, R219, R227, R210. -/
def Obligations.UnboundFunctionsResetAtOnce : Prop :=
  ∀ (s : State) (port fn : BitVec 4),
    let reset := fun (cfg : Bool) (f : Nat) (t : State) => ∀ n, s.resetTen port.toNat f = some n →
      ((t.ten n).flr = .drain ∨ (t.ten n).flr = .drainScrub) ∧ (t.ten n).flrCfg = cfg ∧ (t.ten n).obj = (s.ten n).obj ∧
      ∀ p ∈ s.partsOf n, (s.part p).obj.st = .on → (t.part p).obj.st = .winding ∧ (t.part p).wind = .reset
    let all := fun (t : State) =>
      (∀ f : BitVec 4, t.fnc port.toNat f.toNat = {} ∧ reset false f.toNat t) ∧
      (∀ q, q ≠ port.toNat → t.port q = s.port q) ∧
      (∀ q f : BitVec 4, q ≠ port → t.fnc q.toNat f.toNat = s.fnc q.toNat f.toNat) ∧
      ((∀ f, s.resetTen port.toNat f = none) → t = { s with ports := t.ports, fns := t.fns })
    ((s.port port.toNat).up = true →
      Runs (.linkDown port) s (fun t => all t ∧
        t.port port.toNat = { s.port port.toNat with
          up := false, speed := 0, width := 0, flit := false, numVfs := 0, vfEn := false,
          resets := (s.port port.toNat).resets + 1 }) ∧
      Runs (.hotReset port) s (fun t => all t ∧
        t.port port.toNat = { s.port port.toNat with
          numVfs := 0, vfEn := false, resets := (s.port port.toNat).resets + 1 })) ∧
    ((s.port port.toNat).up = false →
      Runs (.linkDown port) s (fun t => t = s) ∧ Runs (.hotReset port) s (fun t => t = s)) ∧
    (s.fnExists port.toNat fn.toNat = true → s.flrRunning port.toNat fn.toNat = false →
      Runs (.functionLevelReset port fn) s (fun t =>
        reset true fn.toNat t ∧
        (s.resetTen port.toNat fn.toNat = none → t.fnc port.toNat fn.toNat = {}) ∧
        (s.resetTen port.toNat fn.toNat ≠ none → t.fnc port.toNat fn.toNat = s.fnc port.toNat fn.toNat) ∧
        (fn ≠ 0 → t.ports = s.ports ∧ (s.resetTen port.toNat fn.toNat = none → t = s.setFn port.toNat fn.toNat {})) ∧
        (fn = 0 → (t.port port.toNat).vfEn = false ∧ (t.port port.toNat).numVfs = 0 ∧
          ∀ f : BitVec 4, f ≠ 0 → s.fnExists port.toNat f.toNat = true →
            t.fnc port.toNat f.toNat = {} ∧ reset false f.toNat t))) ∧
    (s.fnExists port.toNat fn.toNat = false ∨ s.flrRunning port.toNat fn.toNat = true →
      Runs (.functionLevelReset port fn) s (fun t => t = s))

/-- On a powered machine, no restart running: an enable of an OFF tenant whose named function exists and is free makes it ON, with
BIND, DB and EVT sampled and its event ring at index 0 and sequence 1; with the precondition unmet the enable is ignored with
cause 5. A disable of an ON tenant makes it WINDING and erases its key from every module key slot. When a WINDING tenant
without PENDING, in no reset sequence, has its partitions and rings OFF, its wind-down ends: it is OFF, holds no event or
write, and none of its host reads is outstanding; with PENDING set and BIND fit it is ON again. While it is WINDING an enable
sets PENDING, and a disable clears it. Derived: R185, R186, R208, R209, R245, R259. -/
def Obligations.TenantLifeCycle : Prop :=
  ∀ (s : State) (port n : BitVec 4),
    (s.takesWrites = true → (s.ten n.toNat).obj.st = .off → s.tenReady n.toNat = true →
      Runs (.tenantEnable port n) s (fun t =>
        (t.ten n.toNat).obj = { st := .on } ∧ (t.ten n.toNat).bound = (s.ten n.toNat).bind ∧
        (t.ten n.toNat).dbS = (s.ten n.toNat).db ∧ (t.ten n.toNat).evtS = (s.ten n.toNat).evt ∧
        (t.ten n.toNat).evtSizeS = (s.ten n.toNat).evtSize ∧ (t.ten n.toNat).evtK = 0 ∧ (t.ten n.toNat).nextSeq = 1 ∧
        (∀ m, m ≠ n.toNat → t.ten m = s.ten m) ∧ t.win = s.win)) ∧
    (s.takesWrites = true → (s.ten n.toNat).obj.st = .off → s.tenReady n.toNat = false →
      Runs (.tenantEnable port n) s (fun t =>
        t = ignoreAcc 5 port.toNat 0 true (0x20000 + n.toNat * 0x1000) false s)) ∧
    (s.takesWrites = true → (s.ten n.toNat).obj.st = .on →
      Runs (.tenantDisable port n) s (fun t =>
        (t.ten n.toNat).obj = { st := .winding } ∧ ∀ w, (t.mod w).keyTen.getLsbD n.toNat = false)) ∧
    ((s.ten n.toNat).obj = { st := .winding } → (s.ten n.toNat).flr = .idle →
      (∀ p ∈ s.partsOf n.toNat, (s.part p).obj.st = .off) → s.ringsOfTen n.toNat = [] →
      Runs (.tenantWindDownDone n) s (fun t =>
        (t.ten n.toNat).obj = {} ∧ (t.ten n.toNat).held = [] ∧ (t.ten n.toNat).heldW = [] ∧
        t.readsOf n.toNat = [] ∧ (∀ m, m ≠ n.toNat → t.ten m = s.ten m) ∧
        t = { s with tens := t.tens, reads := t.reads, parts := t.parts, rings := t.rings })) ∧
    ((s.ten n.toNat).obj = { st := .winding, pending := true } → (s.ten n.toNat).flr = .idle → s.tenReady n.toNat = true →
      (∀ p ∈ s.partsOf n.toNat, (s.part p).obj.st = .off) → s.ringsOfTen n.toNat = [] →
      Runs (.tenantWindDownDone n) s (fun t =>
        (t.ten n.toNat).obj = { st := .on } ∧ (t.ten n.toNat).bound = (s.ten n.toNat).bind ∧ ∀ m, m ≠ n.toNat → t.ten m = s.ten m)) ∧
    (s.takesWrites = true → (s.ten n.toNat).obj = { st := .winding } → s.tenReady n.toNat = true →
      Runs (.tenantEnable port n) s (fun t => (t.ten n.toNat).obj = { st := .winding, pending := true } ∧
        t = { logged s t with tens := t.tens })) ∧
    (s.takesWrites = true → (s.ten n.toNat).obj.st = .winding →
      Runs (.tenantDisable port n) s (fun t => (t.ten n.toNat).obj = { st := .winding } ∧ ∀ m, m ≠ n.toNat → t.ten m = s.ten m))

/-- On a powered machine, no restart running, an enable of an OFF partition that is ready (legal box, owner's key loaded, every
module free), with its owner ON and in no reset sequence, leaves it WINDING with PENDING set, box, owner and modules sampled;
each module of the box is bound to (owner, partition) and holds the owner's key. With the owner WINDING with PENDING, or ON in
a reset sequence, it waits OFF with PENDING. With the owner neither ON nor WINDING with PENDING, or the partition not ready,
the enable is ignored with cause 5. When no key slot of its modules is being written again and none is reloading or below 0.70
V, the enable ends with the partition ON and, while no sag is in force, recorded in the configuration store. Derived: R185,
R187, R201, R211, R212, R222, R234. -/
def Obligations.PartitionEnableBindsItsModules : Prop :=
  ∀ (s : State) (port : BitVec 4) (p : BitVec 6),
    let x := s.part p.toNat
    let n := boxOwner x.boxReg
    (s.takesWrites = true → x.obj = {} → (s.ten n).obj.st = .on → (s.ten n).flr = .idle → s.partReady p.toNat = true →
      Runs (.partitionEnable port p) s (fun t =>
        (t.part p.toNat).obj = { st := .winding, pending := true } ∧ (t.part p.toNat).wind = .enabling ∧
        (t.part p.toNat).box = some (boxOf x.boxReg) ∧ (t.part p.toNat).owner = n ∧
        (t.part p.toNat).mods = (boxOf x.boxReg).mods s.sh.shape ∧
        (∀ w ∈ (boxOf x.boxReg).mods s.sh.shape, (t.mod w).bind = some (n, p.toNat) ∧ (t.mod w).keyTen.getLsbD n = true) ∧
        (∀ q, q ≠ p.toNat → t.part q = s.part q) ∧ t.tens = s.tens ∧ t.rings = s.rings)) ∧
    (s.takesWrites = true → x.obj = {} → (s.ten n).obj.parentOk = true → s.partReady p.toNat = true →
      ¬((s.ten n).obj.st = .on ∧ (s.ten n).flr = .idle) →
      Runs (.partitionEnable port p) s (fun t => (t.part p.toNat).obj = { st := .off, pending := true } ∧
        t = { logged s t with parts := t.parts } ∧ ∀ q, q ≠ p.toNat → t.part q = s.part q)) ∧
    (s.takesWrites = true → x.obj = {} → (s.ten n).obj.parentOk = false ∨ s.partReady p.toNat = false →
      Runs (.partitionEnable port p) s (fun t => t = ignoreAcc 5 port.toNat 0 true (partOff p.toNat) false s)) ∧
    (x.obj.st = .winding → x.wind = .enabling →
      (∀ w ∈ x.mods, (s.mod w).keyRetry = none ∧ s.reloading 3 w = false ∧ s.paused w = false) →
      Runs (.partitionEnableDone p) s (fun t =>
        (t.part p.toNat).obj = { st := .on } ∧ (t.part p.toNat).mods = x.mods ∧
        (s.pwr.sag = 0 → tget none (partItem p.toNat) t.store = some x.boxReg) ∧ ∀ q, q ≠ p.toNat → t.part q = s.part q))

/-- On a powered machine, no restart running, a disable of an ON partition leaves it WINDING to finish its commands, and a cut
leaves it WINDING by a cut with the memory gates of its modules closed to writes. Once its commands, packets and channels are
done, and no powered module of it is below 0.70 V, the wind-down of a partition without PENDING ends it OFF with no module:
each module it had is unbound with its gate open and without the owner's key, and every byte of that module's columns has been
written to zero under the key in the owner's slot. Derived: R185, R223. -/
def Obligations.PartitionDisableAndCut : Prop :=
  ∀ (s : State) (port : BitVec 4) (p : BitVec 6),
    let x := s.part p.toNat
    (s.takesWrites = true → x.obj.st = .on →
      Runs (.partitionDisable port p) s (fun t =>
        (t.part p.toNat).obj = { st := .winding } ∧ (t.part p.toNat).wind = .finish ∧ (t.part p.toNat).mods = x.mods) ∧
      Runs (.partitionCut port p) s (fun t =>
        (t.part p.toNat).obj = { st := .winding } ∧ (t.part p.toNat).wind = .cut ∧ (t.part p.toNat).mods = x.mods ∧
        ∀ w ∈ x.mods, (t.mod w).gateClosed = true)) ∧
    (x.obj = { st := .winding } → x.wind = .finish ∨ x.wind = .cut → s.partDrained p.toNat = true → s.partAwake p.toNat = true →
      Runs (.partitionWindDownDone p) s (fun t =>
        (t.part p.toNat).obj = {} ∧ (t.part p.toNat).mods = [] ∧ (t.part p.toNat).box = none ∧
        (∀ q, q ≠ p.toNat → t.part q = s.part q) ∧
        (∀ w ∈ x.mods, (t.mod w).bind = none ∧ (t.mod w).gateClosed = false ∧
          (x.owner < 16 → (t.mod w).keyTen.getLsbD x.owner = false) ∧
          (t.mod w).colKey = s.slotKey w false x.owner ∧ ∀ a, tget 0 (w * 2 ^ 37 + a % 2 ^ 37) t.cols = 0) ∧
        (∀ a, a / 2 ^ 37 ∉ x.mods → tget 0 a t.cols = tget 0 a s.cols) ∧ t.tens = s.tens ∧ t.rings = s.rings))

/-- For a tenant in the drain step of a reset sequence: with no item left, reset done counts one in FLR_COUNT, loads FLR_TB and
clears FLR_FORCED; with items left, 2 ms (200,000 ticks, those below 0.70 V not counted) after the reset took effect its items
are discarded and reset done follows with FLR_FORCED set. Either way the tenant passes to the scrub step. When the scrub has
ended, with no powered module of its partitions below 0.70 V, the tenant is in no reset sequence, and its partitions that the
sequence cut, none of them to be enabled again, are OFF. Derived: R219, R220, R226, R232, R818. -/
def Obligations.ResetSequenceEnds : Prop :=
  ∀ (s : State) (n : BitVec 4),
    let y := s.ten n.toNat
    (y.flr = .drain ∨ y.flr = .drainScrub → s.drainCount n.toNat = 0 →
      Runs (.flrResetDone n) s (fun t =>
        (t.ten n.toNat).flr = .scrub ∧ (t.ten n.toNat).flrCount = y.flrCount + 1 ∧
        (t.ten n.toNat).flrTb = s.win.tb ∧ (t.ten n.toNat).flrForced = false ∧ (t.ten n.toNat).obj = y.obj)) ∧
    (y.flr = .drain ∨ y.flr = .drainScrub → s.drainCount n.toNat ≠ 0 → y.flrTick.toNat + 200000 ≤ s.upTimeAll →
      Runs (.flrDrainTimeout n) s (fun t =>
        (t.ten n.toNat).flr = .scrub ∧ (t.ten n.toNat).flrCount = y.flrCount + 1 ∧
        (t.ten n.toNat).flrTb = s.win.tb ∧ (t.ten n.toNat).flrForced = true)) ∧
    (y.flr = .scrub → (∀ p ∈ s.partsOf n.toNat, (s.part p).wind = .reset → s.partAwake p = true) →
      Runs (.flrScrubDone n) s (fun t => (t.ten n.toNat).flr = .idle ∧ (t.ten n.toNat).obj = y.obj ∧
        ∀ p ∈ s.partsOf n.toNat, (s.part p).wind = .reset → (s.part p).obj.pending = false → (t.part p).obj = {}))

/-- On a powered machine, no restart running, an enable of an OFF ring that meets R237, its partition ON, makes it ON: its context
is sampled from BIND, SIZE, BASE, TADDR, TBASE and START, CONS and PROD are START and its tally is TBASE. With its partition
not ON it waits OFF with PENDING. One that does not meet R237 is ignored with cause 5. A disable of an ON ring makes it
WINDING with nothing fetched. A WINDING ring without PENDING whose commands have completed and whose tally write has been
issued, its tenant in no reset sequence, becomes OFF, and nothing else changes. Derived: R185, R187, R237, R238, R239. -/
def Obligations.RingLifeCycle : Prop :=
  ∀ (s : State) (port : BitVec 4) (r : BitVec 12),
    let x := s.ring r.toNat
    (s.takesWrites = true → x.obj = {} → s.ringReady r.toNat = true → (s.part x.bPart).obj.st = .on →
      Runs (.ringEnable port r) s (fun t =>
        (t.ring r.toNat).obj = { st := .on } ∧ (t.ring r.toNat).cons = x.start ∧ (t.ring r.toNat).prod = x.start ∧
        (t.ring r.toNat).tally = x.tbase ∧ (t.ring r.toNat).cmds = [] ∧
        (t.ring r.toNat).ctx = {
          tenant := x.bTenant, part := x.bPart, engine := x.bEngine, slot := x.bSlot, weight := x.bWeight,
          log2 := x.size.toNat, base := x.base, taddr := x.taddr, tbase := x.tbase, start := x.start } ∧
        (∀ q, q ≠ r.toNat → t.ring q = s.ring q) ∧ t = { logged s t with rings := t.rings, out := t.out })) ∧
    (s.takesWrites = true → x.obj = {} → s.ringReady r.toNat = true → (s.part x.bPart).obj.st ≠ .on →
      Runs (.ringEnable port r) s (fun t => t.ring r.toNat = { x with obj := { st := .off, pending := true } } ∧
        (∀ q, q ≠ r.toNat → t.ring q = s.ring q) ∧ t = { logged s t with rings := t.rings })) ∧
    (s.takesWrites = true → x.obj = {} → s.ringReady r.toNat = false →
      Runs (.ringEnable port r) s (fun t =>
        t = ignoreAcc 5 port.toNat 0 true (0x40000 + r.toNat * 0x40) false s)) ∧
    (s.takesWrites = true → x.obj.st = .on →
      Runs (.ringDisable port r) s (fun t =>
        (t.ring r.toNat).obj = { st := .winding } ∧ (t.ring r.toNat).fetched = [] ∧ (t.ring r.toNat).cons = x.cons)) ∧
    (x.obj = { st := .winding } → x.inProg = [] → x.tallyDue = false → (s.ten x.ctx.tenant).flr = .idle →
      Runs (.ringWindDownDone r) s (fun t => t = s.setRing r.toNat { x with obj := {} }))

/-- With d = W - PROD modulo 2^32: d = 0 changes nothing; d of 0x8000_0000 or more counts with cause 2; otherwise a W more than
2^L entries ahead of CONS counts with cause 3; otherwise PROD becomes W. A count adds 1 to IGNORED and sets LAST_CAUSE, PROD
keeping its value. No other register of the ring, no other ring and nothing else changes. Stated: R241. -/
def Obligations.RingJudgesScannedValue : Prop :=
  ∀ (s : State) (r : Nat) (w : Word),
    let x := s.ring r
    let d := w - x.prod
    let t := ringEvaluate r w s
    (d = 0 → t = s) ∧
    (d ≠ 0 → 0x80000000 ≤ d.toNat → t = s.setRing r { x with ignored := satInc x.ignored, lastCause := 2 }) ∧
    (d ≠ 0 → d.toNat < 0x80000000 → 2 ^ x.ctx.log2 < (w - x.cons).toNat →
      t = s.setRing r { x with ignored := satInc x.ignored, lastCause := 3 }) ∧
    (d ≠ 0 → d.toNat < 0x80000000 → (w - x.cons).toNat ≤ 2 ^ x.ctx.log2 → t = s.setRing r { x with prod := w }) ∧
    (∀ q, q ≠ r → t.ring q = s.ring q)

/-- On a powered machine, no restart running, a full-word nudge to a function that no ON tenant is bound to only counts at the
port. For the one ON tenant bound to the function it also counts in TEN_n_NUDGES, and a scanning partition of the tenant with
no scan outstanding, its lead command processor not below 0.70 V, starts one. A scan due at a tick that is a multiple of the
interval in force, none being outstanding and the lead command processor not below 0.70 V, delivers to the rings that are ON
now and is one host read for the tenant from its sampled doorbell address, of the length that the highest SLOT gives, sent at
once where the function can take it. Derived: R207, R246, R247, R248, R272. -/
def Obligations.NudgesAndDueScansStartScans : Prop :=
  ∀ (s : State) (port fn : BitVec 4) (off : BitVec 12),
    (s.takesWrites = true → off.toNat % 4 = 0 →
      (∀ m, ¬((s.ten m).obj.st = .on ∧ (s.ten m).bPort = port.toNat ∧ (s.ten m).bFn = fn.toNat)) →
      Runs (.nudge port fn off 15) s (fun t =>
        t = s.setPort port.toNat { s.port port.toNat with nudges := (s.port port.toNat).nudges + 1 })) ∧
    (∀ (n : BitVec 4) (p : BitVec 6), s.takesWrites = true → off.toNat % 4 = 0 →
      (∀ m, ((s.ten m).obj.st = .on ∧ (s.ten m).bPort = port.toNat ∧ (s.ten m).bFn = fn.toNat) ↔ m = n.toNat) →
      p.toNat ∈ s.partsOf n.toNat → s.scanning p.toNat = true → (s.part p.toNat).scan.out = false → s.leadPaused p.toNat = false →
      Runs (.nudge port fn off 15) s (fun t =>
        (t.port port.toNat).nudges = (s.port port.toNat).nudges + 1 ∧
        (t.ten n.toNat) = { s.ten n.toNat with nudges := (s.ten n.toNat).nudges + 1 } ∧
        (t.part p.toNat).scan.out = true ∧ (∀ m, m ≠ n.toNat → t.ten m = s.ten m) ∧ t.rings = s.rings)) ∧
    (∀ p : BitVec 6,
      let n := (s.part p.toNat).owner
      s.scanning p.toNat = true → (s.part p.toNat).scan.out = false → s.leadPaused p.toNat = false →
      s.win.tb.toNat % s.scanNow n = 0 →
      Runs (.scanDue p) s (fun t =>
        t = { s with parts := t.parts, reads := t.reads, nextRead := s.nextRead + 1, out := t.out } ∧
        (t.part p.toNat).scan.out = true ∧ (t.part p.toNat).scan.rings = s.onRings p.toNat ∧
        (∀ q, q ≠ p.toNat → t.part q = s.part q) ∧ tget none s.nextRead t.reads = some {
          tenant := some n, port := (s.ten n).bPort, fn := (s.ten n).bFn, addr := (s.ten n).dbS,
          len := s.scanLen p.toNat, purpose := .scan p.toNat, sent := s.tenCan n, tick := s.win.tb }))

/-- For an outstanding scan whose read has left the host port: its completion with all the bytes it asked for, the lead command
processor not below 0.70 V, counts one in TEN_n_SCANS and clears DB_STATUS.FAULT; a failure (as a timeout, no sooner than 10
ms after the request) counts one in TEN_n_SCANS and one in TEN_n_DB_FAILS (saturating) and sets FAULT. A scan read without a
completion 10 ms (1,000,000 ticks) after it was sent counts one in HPORT_n_CPL_TIMEOUTS of its port (saturating). Derived:
R247, R265, R788. -/
def Obligations.ScansEndCounted : Prop :=
  ∀ (s : State) (p : BitVec 6) (id : Nat) (h : HRead),
    let n := h.tenant.getD 0
    (s.readFor (fun u => u == .scan p.toNat) = some (id, h) → h.sent = true →
      (∀ data : List Byte, data.length = h.len → s.leadPaused p.toNat = false → Runs (.scanReadComplete p data) s (fun t =>
        (t.ten n).scans = (s.ten n).scans + 1 ∧ (t.ten n).dbFault = false ∧ (t.ten n).dbFails = (s.ten n).dbFails ∧
        ∀ m, m ≠ n → t.ten m = s.ten m)) ∧
      (∀ cause : HostFail, cause ≠ .timeout ∨ h.tick.toNat + 1000000 ≤ s.win.tb.toNat → Runs (.scanFailed p cause) s (fun t =>
        (t.ten n).scans = (s.ten n).scans + 1 ∧ (t.ten n).dbFault = true ∧
        (t.ten n).dbFails = satInc (s.ten n).dbFails ∧ ∀ m, m ≠ n → t.ten m = s.ten m)) ∧
      (tget none id s.reads = some h → h.tick.toNat + 1000000 ≤ s.win.tb.toNat → Runs (.hostReadTimeout id) s (fun t =>
        (t.port h.port).cplTimeouts = satInc (s.port h.port).cplTimeouts ∧ (∀ q, q ≠ h.port → t.port q = s.port q) ∧
        (t.ten n).scans = (s.ten n).scans + 1 ∧ (t.ten n).dbFault = true)))

/-- An ON ring that holds fewer than 64 fetched commands and has entries it has not asked for, its TBASE written and its lead
command processor not below 0.70 V, asks for k of them in one read of k * 64 bytes from its sampled base, at the entry after
those asked for, with k * 64 at most 1,024 and at most the function's Max Read Request Size, ending no later than entry 2^L -
1. When the read's bytes come, CONS advances by k, FETCH_FAULT clears and the k entries join those fetched. When it fails,
CONS and the fetched commands are kept, FETCH_FAULT is set, and the ring waits for a later scan. Derived: R238, R251, R265,
R266, R270. -/
def Obligations.RingsFetchInOrder : Prop :=
  ∀ (s : State) (r : BitVec 12),
    let x := s.ring r.toNat
    let n := x.ctx.tenant
    let k := fetchCount x (s.fnc (s.ten n).bPort (s.ten n).bFn).mrrsB
    let i := (x.cons.toNat + x.asked) % 2 ^ x.ctx.log2
    (x.obj.st = .on → x.fetchWait = false → x.fetched.length + x.asked < 64 → x.asked < (x.prod - x.cons).toNat → 0 < k →
      x.ctx.log2 ≤ 16 → x.tallyDue = false ∨ x.disp ≠ x.ctx.tbase → s.leadPaused x.ctx.part = false →
      Runs (.ringFetchIssue r) s (fun t =>
        64 * k ≤ 1024 ∧ 64 * k ≤ (s.fnc (s.ten n).bPort (s.ten n).bFn).mrrsB ∧ i + k ≤ 2 ^ x.ctx.log2 ∧
        t.ring r.toNat = { x with asked := x.asked + k } ∧ (∀ q, q ≠ r.toNat → t.ring q = s.ring q) ∧
        t = { s with rings := t.rings, reads := t.reads, nextRead := s.nextRead + 1, out := t.out } ∧
        tget none s.nextRead t.reads = some {
          tenant := some n, port := (s.ten n).bPort, fn := (s.ten n).bFn, addr := w64 (x.ctx.base.toNat + i * 64),
          len := 64 * k, purpose := .fetch r.toNat k, sent := s.tenCan n, tick := s.win.tb })) ∧
    (∀ (id : Nat) (h : HRead) (j : Nat), s.fetchOf r.toNat = some (id, h, j) → h.sent = true → x.obj.st = .on →
      (∀ data : List Byte, data.length = 64 * j → s.leadPaused x.ctx.part = false →
        Runs (.ringFetchComplete r data) s (fun t =>
          (t.ring r.toNat).cons = x.cons + w32 j ∧ (t.ring r.toNat).prod = x.prod ∧ (t.ring r.toNat).fetchFault = false ∧
          (t.ring r.toNat).fetched = x.fetched ++ (List.range j).map (fun a =>
            ({ idx := x.cons + w32 a, bytes := (data.drop (64 * a)).take 64 } : Entry)) ∧
          ∀ q, q ≠ r.toNat → t.ring q = s.ring q) ∧
        (tget none id s.reads = some h → h.purpose = .fetch r.toNat j → h.len = 64 * j →
          Runs (.hostReadCompletion id (.data data)) s (fun t =>
            (t.ring r.toNat).cons = x.cons + w32 j ∧ (t.ring r.toNat).fetched.length = x.fetched.length + j))) ∧
      (∀ cause : HostFail, cause ≠ .timeout ∨ h.tick.toNat + 1000000 ≤ s.win.tb.toNat → Runs (.ringFetchFailed r cause) s (fun t =>
        (t.ring r.toNat).cons = x.cons ∧ (t.ring r.toNat).fetched = x.fetched ∧ (t.ring r.toNat).fetchFault = true ∧
        (t.ring r.toNat).fetchWait = true ∧ ∀ q, q ≠ r.toNat → t.ring q = s.ring q)))

/-- For a ring whose head has the named opcode, is judged legal and may be dispatched, its lead command processor not below 0.70
V, each of WAIT_TALLY, SETTLE, MX_GEMM, MX_ATTN, VX_ELT, VX_REDUCE, VX_COMBINE, FX_AWAIT and IX_FRAME leaves the head and is
the ring's youngest command in progress, with the next sequence number, its entry and its partition's modules; no other ring,
no partition or column is touched, and no tenant or host write unless the next head's recipe is poisoned. A dispatcher round
with that ring alone to serve and its one fetched command such a WAIT_TALLY does the same. Derived: R240, R252, R280, R281,
R305. -/
def Obligations.RingCommandsAreDispatched : Prop :=
  ∀ (s : State) (r : BitVec 12) (e : Entry) (rest : List Entry),
    let quiet := fun (t : State) => (∀ q, q ≠ r.toNat → t.ring q = s.ring q) ∧
      t.parts = s.parts ∧ t.cols = s.cols ∧ t.win = s.win ∧ t.mods = s.mods ∧
      (NextUnpoisoned s r.toNat rest → t.tens = s.tens ∧ t.out = s.out)
    (HeadReady s r.toNat .waitTally e rest → Runs (.waitTally r) s (fun t =>
      Dispatched s t r.toNat rest ∧ InProgress s t r.toNat e ∧ quiet t)) ∧
    (HeadReady s r.toNat .settle e rest → Runs (.settle r) s (fun t =>
      Dispatched s t r.toNat rest ∧ InProgress s t r.toNat e ∧ quiet t)) ∧
    (HeadReady s r.toNat .mxGemm e rest → Runs (.mxGemm r) s (fun t =>
      Dispatched s t r.toNat rest ∧ InProgress s t r.toNat e ∧ quiet t)) ∧
    (HeadReady s r.toNat .mxAttn e rest → Runs (.mxAttn r) s (fun t =>
      Dispatched s t r.toNat rest ∧ InProgress s t r.toNat e ∧ quiet t)) ∧
    (HeadReady s r.toNat .vxElt e rest → Runs (.vxElt r) s (fun t =>
      Dispatched s t r.toNat rest ∧ InProgress s t r.toNat e ∧ quiet t)) ∧
    (HeadReady s r.toNat .vxReduce e rest → Runs (.vxReduce r) s (fun t =>
      Dispatched s t r.toNat rest ∧ InProgress s t r.toNat e ∧ quiet t)) ∧
    (HeadReady s r.toNat .vxCombine e rest → Runs (.vxCombine r) s (fun t =>
      Dispatched s t r.toNat rest ∧ InProgress s t r.toNat e ∧ quiet t)) ∧
    (HeadReady s r.toNat .fxAwait e rest → Runs (.fxAwait r) s (fun t =>
      Dispatched s t r.toNat rest ∧ InProgress s t r.toNat e ∧ quiet t)) ∧
    (HeadReady s r.toNat .ixFrame e rest → Runs (.ixFrame r) s (fun t =>
      Dispatched s t r.toNat rest ∧ InProgress s t r.toNat e ∧ quiet t)) ∧
    (∀ (p : BitVec 6) (eng : EngClass), HeadReady s r.toNat .waitTally e [] →
      (s.ringIds.filter (fun q => (s.ring q).obj.st == .on && (s.ring q).ctx.part == p.toNat &&
        (s.ring q).ctx.engine == engCode eng)) = [r.toNat] → 0 < (s.ring r.toNat).ctx.weight →
      Runs (.dispatcherRound p eng) s (fun t =>
        Dispatched s t r.toNat [] ∧ InProgress s t r.toNat e ∧ quiet t))

/-- For a ready head: a NOP on a ring with no command in progress is dispatched and counted by the tally at once. An MV_COPY is
dispatched and its channel is ON with the registers its body gives, owned by it. An FX_SEND and an FX_REDUCE are dispatched
and in progress. An illegal head of any opcode but NOP and SETTLE (which are never illegal), named by its command, of an ON
ring and partition is skipped: IGNORED counts 1 with LAST_CAUSE 1, and the tally passes it when nothing earlier is in
progress. Derived: R181, R255, R282, R304, R339, R417, R419. -/
def Obligations.NopCopyAndSendsAtDispatch : Prop :=
  ∀ (s : State) (r : BitVec 12) (e : Entry) (rest : List Entry),
    let x := s.ring r.toNat
    (HeadReady s r.toNat .nop e rest → x.cmds = [] → Runs (.nop r) s (fun t =>
      Dispatched s t r.toNat rest ∧ (t.ring r.toNat).cmds = [] ∧ (t.ring r.toNat).tally = x.tally + 1 ∧
      (t.ring r.toNat).tallyDue = true ∧ (∀ q, q ≠ r.toNat → t.ring q = s.ring q) ∧ t.cols = s.cols)) ∧
    (HeadReady s r.toNat .mvCopy e rest → Runs (.mvCopy r) s (fun t =>
      let k := s.mvChan (s.part x.ctx.part).mods (mvOf e.bytes)
      Dispatched s t r.toNat rest ∧ InProgress s t r.toNat e ∧
      (t.chan k).obj = { st := .on } ∧ (t.chan k).owner = some (r.toNat, x.disp + 1) ∧
      (t.chan k).run = (mvOf e.bytes).regs ∧ (∀ j, j ≠ k → t.chan j = s.chan j) ∧
      (∀ q, q ≠ r.toNat → t.ring q = s.ring q) ∧ t.cols = s.cols)) ∧
    ((∀ c ∈ x.cmds, c.seq ≠ x.disp + 1) →
      (HeadReady s r.toNat .fxSend e rest → Runs (.fxSend r) s (fun t =>
        Dispatched s t r.toNat rest ∧ InProgress s t r.toNat e ∧ t.mods = s.mods)) ∧
      (HeadReady s r.toNat .fxReduce e rest → Runs (.fxReduce r) s (fun t =>
        Dispatched s t r.toNat rest ∧ InProgress s t r.toNat e ∧ t.mods = s.mods))) ∧
    (∀ op c, (op, c) ∈ [(Op.waitTally, Instr.waitTally r), (.mxGemm, .mxGemm r), (.mxAttn, .mxAttn r),
        (.vxElt, .vxElt r), (.vxReduce, .vxReduce r), (.vxCombine, .vxCombine r), (.mvCopy, .mvCopy r), (.fxSend, .fxSend r),
        (.fxReduce, .fxReduce r), (.fxAwait, .fxAwait r), (.ixFrame, .ixFrame r)] →
      HeadServed s r.toNat op e rest → JudgedLegal s r.toNat e = false → x.cmds = [] → Runs c s (fun t =>
        Dispatched s t r.toNat rest ∧ (t.ring r.toNat).ignored = satInc x.ignored ∧ (t.ring r.toNat).lastCause = 1 ∧
        (t.ring r.toNat).tally = x.tally + 1 ∧ ∀ q, q ≠ r.toNat → t.ring q = s.ring q))

/-- For the oldest uncounted command of a ring, the next one still in progress: COMMAND_COMPLETE when all its work has ended (no
forced spill due), also writing its completion record over bytes 48-63 of its entry when REC is 1, the function can take it
and no next head has still to be judged; a WAIT_TALLY when the named ring's tally has reached VALUE; a SETTLE when every
covered write has landed or faulted; an FX_AWAIT when its counter has reached VALUE, the counter then starting a new arming
with COUNT 0; and at the end of their TIMEOUT a WAIT_TALLY, an FX_AWAIT and an IX_FRAME that has not begun. In each case, the
lead command processor not below 0.70 V, the ring's tally grows by one and is due to be written, and no other ring changes.
Derived: R254, R255, R256, R282, R283, R286, R288, R308, R416. -/
def Obligations.CompletionAdvancesTheTally : Prop :=
  ∀ (s : State) (r : BitVec 12) (seq : DWord) (op : Op) (c : Cmd) (rest : List Cmd), FrontWaits s r.toNat seq op c rest →
    let n := (s.ring r.toNat).ctx.tenant
    (workEnded c = true → c.spillDue = false → Runs (.commandComplete r seq) s (fun t => Retires s t r.toNat rest ∧
      (c.skipped = false → s.tenCan n = true → (s.ten n).heldW = [] → (s.ring r.toNat).fetched = [] ∨ (s.ring r.toNat).headTick ≠ none →
        t.out = s.out ++ (if recBit c.bytes then [.hostWrite (s.ten n).bPort (s.ten n).bFn (recordAddr (s.ring r.toNat) c)
          (toLE 8 seq.toNat ++ toLE 4 c.flags.toNat ++ toLE 4 c.info.toNat)] else [])))) ∧
    (op = .waitTally → (waitOf c.bytes).value ≤ (s.ring (waitOf c.bytes).ring).tally.toNat →
      Runs (.waitTallySatisfied r seq) s (fun t => Retires s t r.toNat rest)) ∧
    (op = .waitTally → (waitOf c.bytes).timeout ≠ 0 → c.tick.toNat + (waitOf c.bytes).timeout ≤ s.win.tb.toNat →
      Runs (.waitTallyTimeout r seq) s (fun t => Retires s t r.toNat rest)) ∧
    (op = .settle → settleReady s r.toNat c = true → Runs (.settleComplete r seq) s (fun t => Retires s t r.toNat rest)) ∧
    (op = .fxAwait → (fxAwOf c.bytes).value ≤ (s.ctr (ctrKey (awaitCtr c).1 (awaitCtr c).2)).count →
      Runs (.fxAwaitSatisfied r seq) s (fun t => Retires s t r.toNat rest ∧
        (t.ctr (ctrKey (awaitCtr c).1 (awaitCtr c).2)).count = 0 ∧
        (t.ctr (ctrKey (awaitCtr c).1 (awaitCtr c).2)).prev = (s.ctr (ctrKey (awaitCtr c).1 (awaitCtr c).2)).cur)) ∧
    (op = .fxAwait → (fxAwOf c.bytes).timeout ≠ 0 → c.tick.toNat + (fxAwOf c.bytes).timeout ≤ s.win.tb.toNat →
      Runs (.fxAwaitTimeout r seq) s (fun t => Retires s t r.toNat rest ∧ t.fab = s.fab)) ∧
    (op = .ixFrame → c.begun = false → (ixFrOf c.bytes).timeout ≠ 0 →
      c.tick.toNat + (ixFrOf c.bytes).timeout ≤ s.win.tb.toNat →
      Runs (.ixFrameTimeout r seq) s (fun t => Retires s t r.toNat rest ∧ t.cols = s.cols))

/-- A ring whose tally is due, its lead command processor not below 0.70 V, its tenant's function able to take writes and no write
or event waiting before it, writes the 8 bytes of the tally, little-endian, to its sampled TADDR through the tenant's
function, and the tally is no longer due. For a tenant that is not OFF whose function can take writes, a flush leaves it no
held write and no held event. Derived: R254, R256, R263, R290. -/
def Obligations.TallyAndHeldWritesGoOut : Prop :=
  ∀ (s : State) (r : BitVec 12) (n : BitVec 4),
    let x := s.ring r.toNat
    let y := s.ten x.ctx.tenant
    (x.tallyDue = true → s.leadPaused x.ctx.part = false → s.tenCan x.ctx.tenant = true → y.heldW = [] → y.held = [] →
      y.heldLost = 0 → Runs (.tallyWrite r) s (fun t =>
      t = { s with rings := t.rings, out := s.out ++ [.hostWrite y.bPort y.bFn x.ctx.taddr (toLE 8 x.tally.toNat)] } ∧
      t.ring r.toNat = { x with tallyDue := false, tallyHeld := false } ∧ ∀ q, q ≠ r.toNat → t.ring q = s.ring q)) ∧
    ((s.ten n.toNat).obj.st ≠ .off → s.tenCan n.toNat = true → Runs (.heldWriteFlush n) s (fun t =>
      (t.ten n.toNat).heldW = [] ∧ (t.ten n.toNat).held = [] ∧ ∀ m, m ≠ n.toNat → t.ten m = s.ten m))

/-- For a dispatched command: on modules not below 0.70 V, a table load whose core is placed for a command that loads tables marks
that core of the isle loaded; a tile that may be handed over to its epilogue, on a die that is not paused, with its chain
ready and no uncorrectable word in the scratch it holds its operand in, is handed over; the epilogue of the first tile handed
over on its core ends it; a VX tile not yet ended, its core having ended the tiles before it, on a die not paused, ends; a
spilled follower whose preceding command has no write in flight, with no command to be run again, starts; and the fold of a
member of an FX_REDUCE that has counted all its contributions ends that member. Derived: R117, R146, R150, R151, R302, R419,
R818. -/
def Obligations.TileWorkAdvances : Prop :=
  ∀ (s : State) (r : BitVec 12) (seq : DWord) (c : Cmd) (tile isle m : Nat) (core : BitVec 4), s.cmd? r.toNat seq = some c →
    (c.done = false → opOf c.bytes = some .mxGemm → (recipeOf c.recipe).loads = true → c.blobs? isle core.toNat = none →
      s.paused (placeOf c.mods isle).w = false →
      c.place.any (fun x => x.1 == isle && x.2.2.contains core.toNat) = true → Runs (.tableLoadComplete r seq isle core) s (fun t =>
        ∃ d, t.cmd? r.toNat seq = some d ∧ d.loaded.any (fun x => x.1 == isle * 16 + core.toNat) = true ∧ t.cols = s.cols)) ∧
    (canHandover s c tile = true → chainReady s r.toNat c = true →
      (recipeOf c.recipe).heldIn = false ∨ (s.core (gemmTileAt s c tile).key).badWords = [] →
      s.tilePaused (gemmTileAt s c tile).place r.toNat seq tile = false → Runs (.mxTileHandover r seq tile) s (fun t =>
        ∃ d, t.cmd? r.toNat seq = some d ∧ d.handed.any (fun x => x.1 == tile) = true ∧ t.cols = s.cols)) ∧
    (c.done = false → s.paused (gemmTileAt s c tile).place.w = false →
      (c.handed.find? (fun x => (gemmTileAt s c x.1).key == (gemmTileAt s c tile).key)).map (·.1) = some tile → Runs (.epilogueEnd r seq tile) s (fun t =>
        ∃ d, t.cmd? r.toNat seq = some d ∧ tile ∈ d.ended ∧ d.handed.any (fun x => x.1 == tile) = false)) ∧
    (c.waitSpill = true → s.writesFly r.toNat (seq - 1) = false → (∀ d ∈ (s.ring r.toNat).cmds, d.rerun = false ∨ d.done = true) →
      s.leadPaused (s.ring r.toNat).ctx.part = false → Runs (.spilledFollowerStart r seq) s (fun t =>
        ∃ d, t.cmd? r.toNat seq = some d ∧ d = { c with waitSpill := false } ∧ t = { s with rings := t.rings })) ∧
    (c.done = false → tile < vxTiles c → c.openTile tile = true → vxEarlier c tile = false → s.tilePaused (vxPlace c tile) r.toNat seq tile = false →
      opOf c.bytes = some .vxElt ∨ opOf c.bytes = some .vxReduce ∨ opOf c.bytes = some .vxCombine →
      Runs (.vxTileEnd r seq tile) s (fun t => ∃ d, t.cmd? r.toNat seq = some d ∧ tile ∈ d.ended)) ∧
    (c.done = false → opOf c.bytes = some .fxReduce → m < c.mods.length → m ∉ c.ended →
      s.leadPaused (s.ring r.toNat).ctx.part = false → s.paused (c.mods.getD m 0) = false →
      (groupOf (c.box.getD ⟨0, 0, 0, 0, 0, 0⟩) (fxRedOf c.bytes).axes c.mods.length m).length - 1 ≤
        (s.ctr (ctrKey (c.mods.getD m 0) (fxRedOf c.bytes).counter)).count →
      Runs (.fxReduceFold r seq m) s (fun t => ∃ d, t.cmd? r.toNat seq = some d ∧ m ∈ d.ended))

/-- A core in service of a serving module not below 0.70 V, on an isle of at least 12 cores whose spare is unused and usable: a
fence by the machine (causes 1, 2, 5), by a stall of a core that holds work (cause 3) and by an order of FAULT_CORE_CTL (cause
4) keeps every logical number in service, gives the core's number to position 16, starts the copy of its column, counts one
fence and one spare (saturating) and loads FAULT_LAST_FENCE. Below 0.70 V a fence by the machine is only due. When the copy
ends, the column at position 16 serves the number. Derived: R105, R122, R690, R691, R698, R707, R713. -/
def Obligations.FencesMoveTheNumberToTheSpare : Prop :=
  ∀ (s : State) (w : Fin 96) (die isle : BitVec 2) (c cause port : BitVec 4) (val : Word),
    let g := isleKey w.val die.toNat isle.toNat
    let moved := fun (cs : Nat) (t : State) =>
      (t.isle g).pos = [(c.toNat, 16)] ∧ (t.isle g).copying = some c.toNat ∧ (t.isle g).cores = (s.isle g).cores ∧
      t.flt.fenced = satInc s.flt.fenced ∧ t.flt.spares = satInc s.flt.spares ∧
      t.flt.lastFence = w32 (w.val + die.toNat * 2 ^ 7 + isle.toNat * 2 ^ 9 + c.toNat * 2 ^ 11 + c.toNat * 2 ^ 15 + cs * 2 ^ 20)
    (s.modServing w.val = true → c.toNat ∈ (s.isle g).cores → 12 ≤ (s.isle g).cores.length → (s.isle g).pos = [] →
      (s.isle g).copying = none → s.spareBad g = false → s.paused w.val = false →
      (cause = 1 ∨ cause = 2 ∨ cause = 5 → Runs (.coreFence w die isle c cause) s (moved cause.toNat)) ∧
      (s.coreBusy w.val die.toNat isle.toNat c.toNat = true → Runs (.coreStallTimeout w die isle c) s (moved 3)) ∧
      (s.takesWrites = true → val = w32 (w.val + die.toNat * 2 ^ 7 + isle.toNat * 2 ^ 9 + c.toNat * 2 ^ 11 + 2 ^ 15) →
        Runs (.faultCoreFenceOrder port val) s (moved 4))) ∧
    (s.modServing w.val = true → c.toNat ∈ (s.isle g).cores → s.paused w.val = true → cause = 1 ∨ cause = 2 ∨ cause = 5 →
      Runs (.coreFence w die isle c cause) s (fun t => t = { s with mods := t.mods } ∧ (t.mod w.val).fenceDue ≠ [])) ∧
    ((s.isle g).copying = some c.toNat → Runs (.spareColumnCopyDone w die isle) s (fun t =>
      t.isle g = { s.isle g with copying := none, colPos := [(c.toNat, 16)] } ∧ ∀ h, h ≠ g → t.isle h = s.isle h))

/-- In a module in diagnostic mode whose window answers, on a powered machine with no restart running, with the core shown in
service: GO of an OFF channel with a legal transfer makes it ON with its registers sampled and no owner; GO of an ON channel
is ignored with cause 4; ABORT of an ON channel makes it WINDING with none of its host reads outstanding, the writes it had
issued going on. On a module not below 0.70 V a running channel whose reads are all back, with no uncorrectable word in a
scratch source, completes, and a winding channel without PENDING ends its wind-down: each is then OFF with no owner, where no
command waits for the channel. Derived: R327, R329, R330, R339, R340, R344. -/
def Obligations.MoveChannelsRunAndStop : Prop :=
  ∀ (s : State) (port core : BitVec 4) (w : Fin 96) (die isle n : BitVec 2),
    let k := s.selChan w.val n.toNat
    let j := s.chanKey w.val die.toNat isle.toNat core.toNat n.toNat
    let off := 0x1000000 + w.val * 0x20000 + 0x1078 + 0x40 * n.toNat
    (s.takesWrites = true → s.modAnswers w.val 1 = true → s.chanOpen w.val = true →
      ((s.chan k).obj.st = .off → moveOk (2 ^ 37) (s.chan k).regs.mv = true → Runs (.mvChGo port w n) s (fun t =>
        (t.chan k).obj = { st := .on } ∧ (t.chan k).run = (s.chan k).regs ∧ (t.chan k).owner = none ∧
        (∀ i, i ≠ k → t.chan i = s.chan i) ∧ t.cols = s.cols)) ∧
      ((s.chan k).obj.st = .on →
        Runs (.mvChGo port w n) s (fun t => t = ignoreAcc 4 port.toNat 0 true off false s) ∧
        Runs (.mvChAbort port w n) s (fun t =>
          (t.chan k).obj = { st := .winding } ∧ (∀ q p, (q, some p) ∈ t.reads → ∀ i, p.purpose ≠ .move k i) ∧
          (∀ i, i ≠ k → t.chan i = s.chan i)))) ∧
    ((∀ q, ∀ d ∈ (s.ring q).cmds, d.rechan = none) →
      ((s.chan j).obj.st = .on → s.readsBack j = true → s.paused (placeOfCore (j / 4)).w = false →
        (s.chan j).run.mv.sspace ≠ 2 ∨ (s.core (j / 4)).badWords = [] →
        Runs (.mvTransferComplete w die isle core n) s (fun t => (t.chan j).obj = {} ∧ (t.chan j).owner = none)) ∧
      ((s.chan j).obj = { st := .winding } →
        Runs (.mvWindDownDone w die isle core n) s (fun t => (t.chan j).obj = {} ∧ (t.chan j).owner = none)))

/-- On a powered machine, no restart running, with a window that answers: MV_DIAG.EN of a serving module in no busy partition is
held, and of another is ignored with cause 5. The mode becomes active with a fresh diagnostic key loaded and no binding. EN =
0 clears the order and winds down every channel of the module that runs in the mode. When the exit scrub ends, the mode is not
active, the diagnostic key is gone and every byte of the module's columns has been written to zero under it. Derived: R341,
R342, R798. -/
def Obligations.DiagnosticModeEntersAndLeaves : Prop :=
  ∀ (s : State) (port : BitVec 4) (w : Fin 96),
    (s.takesWrites = true → s.modAnswers w.val 0 = true →
      ((s.mod w.val).diagEn = false → s.modServing w.val = true → s.modInPart w.val = false →
        Runs (.mvDiagEnable port w) s (fun t => t.mod w.val = { s.mod w.val with diagEn := true } ∧
          (∀ v, v ≠ w.val → t.mod v = s.mod v) ∧ t = { logged s t with mods := t.mods })) ∧
      ((s.mod w.val).diagEn = false → s.modServing w.val = false ∨ s.modInPart w.val = true →
        Runs (.mvDiagEnable port w) s (fun t =>
          t = ignoreAcc 5 port.toNat 0 true (0x1000000 + w.val * 0x20000 + 0x1000) false s)) ∧
      ((s.mod w.val).diagEn = true → Runs (.mvDiagDisable port w) s (fun t => (t.mod w.val).diagEn = false ∧
        (t.mod w.val).diagActive = (s.mod w.val).diagActive ∧
        ∀ k ∈ s.diagBusy w.val, (s.chan k).obj.st ≠ .off → (t.chan k).obj = { st := .winding }))) ∧
    ((s.mod w.val).diagEn = true → (s.mod w.val).diagActive = false → s.keys.ready = true → s.modServing w.val = true →
      (s.mod w.val).keyRetry = none → Runs (.mvDiagActive w) s (fun t =>
        t.mod w.val = { s.mod w.val with
          diagActive := true, keyDiag := true, diagKey := s.keySerial + 1, bind := none, gateClosed := false } ∧ t.keySerial = s.keySerial + 1 ∧
        (∀ v, v ≠ w.val → t.mod v = s.mod v) ∧ t.cols = s.cols)) ∧
    (s.diagScrub w.val = true → Runs (.mvDiagExitScrubDone w) s (fun t =>
      (t.mod w.val).diagActive = false ∧ (t.mod w.val).keyDiag = false ∧ (t.mod w.val).colKey = (s.mod w.val).diagKey ∧
      (∀ a, tget 0 (w.val * 2 ^ 37 + a % 2 ^ 37) t.cols = 0) ∧ ∀ a, a / 2 ^ 37 ≠ w.val → tget 0 a t.cols = tget 0 a s.cols))

/-- A good packet of a listed KIND and legal length that its router sends on leaves for the next hop as routing gives it, a gust
packet that fails its link check poisoned. A calm-class packet that fails its link check or its ECRC check, short of its
eighth failure, stays in flight with one more try, and the fabric counts one retry (saturating). A LAND at the origin releases
the packet it kept. A NACK there, or 1 ms (100,000 ticks of the origin at 0.70 V or above) without acknowledgement, re-injects
a kept packet that has not been re-injected, as calm class with a new ECRC, once, and counts it; one that has been re-injected
is given up and counted. A duplicate record goes after 4 ms (400,000 ticks). After each but the acknowledgement and the
record, move channels issue the reads they then may. A packet that waits, below 0.70 V or in the hold of a shape change, does
not arrive. Derived: R392, R395, R402, R403, R404, R405, R406. -/
def Obligations.PacketsAreForwardedRetriedAndAcknowledged : Prop :=
  ∀ (s : State) (pid : Nat) (p : Packet),
    let moved := fun (q : Packet) => { s with fab := { s.fab with pkts := (s.fab.pkts.filter (fun x => x.pid != pid)) ++ [q] } }
    (s.pkt? pid = some p → s.pktWaits p = false → p.kind ≠ .reserved → p.len ≤ 2048 →
      (∀ (d : Hop) (q : Packet),
        (route (takePkt pid s) ((takePkt pid s).inShape p) = .send d q →
          (p.calm = false → Runs (.packetArrival pid true) s (fun t => t = moved q)) ∧
          (p.calm = true → p.whole = true → Runs (.packetArrival pid true) s (fun t => t = askAll (moved q)))) ∧
        (p.calm = false → route (takePkt pid s) ((takePkt pid s).inShape { p with poison := true }) = .send d q →
          Runs (.packetArrival pid false) s (fun t => t = moved q))) ∧
      (∀ good : Bool, good = false ∨ p.whole = false → p.calm = true → p.tries < 7 → p.via = none →
        Runs (.packetArrival pid good) s (fun t => t = askAll { s with fab := { s.fab with
          retries := satInc s.fab.retries
          pkts := (s.fab.pkts.filter (fun x => x.pid != pid)) ++ [{ p with tries := p.tries + 1 }] } }))) ∧
    (s.pkt? pid = some p → s.pktWaits p = true → ∀ good, Runs (.packetArrival pid good) s (fun t => t = s)) ∧
    (s.ackAt pid .land = some p → Runs (.landReceived pid) s (fun t =>
      t = { s with fab := { s.fab with pkts := t.fab.pkts, kept := t.fab.kept } } ∧
      (∀ k, k ∈ t.fab.kept ↔ k ∈ s.fab.kept ∧ k.pkt.tag ≠ p.tag) ∧ ∀ x, x ∈ t.fab.pkts ↔ x ∈ s.fab.pkts ∧ x.pid ≠ pid)) ∧
    (∀ k : Kept, s.fab.kept.find? (fun x => x.pkt.tag == p.tag) = some k →
      let q : Packet := { k.pkt with calm := true, reinj := true, pid := s.fab.nextPid }
      let again := fun (t : State) => ∃ u, t = askAll u ∧
        u.fab.reinj = satInc s.fab.reinj ∧ u.fab.nextPid = s.fab.nextPid + 1 ∧ { q with ecrc := q.crc } ∈ u.fab.pkts ∧
        (∀ x ∈ u.fab.kept, x.pkt.tag = p.tag → x.again = true ∧ x.tick = s.originTime q) ∧ u = { s with fab := u.fab }
      (k.again = false →
        (s.ackAt pid .nack = some p → Runs (.nackReceived pid) s again) ∧
        (k.tick.toNat + 100000 ≤ (s.originTime k.pkt).toNat → Runs (.ackTimeout p.tag) s again)) ∧
      (k.again = true →
        (s.ackAt pid .nack = some p → Runs (.nackReceived pid) s (fun t => t.fab.giveups = satInc s.fab.giveups)) ∧
        (k.tick.toNat + 100000 ≤ (s.originTime k.pkt).toNat →
          Runs (.ackTimeout p.tag) s (fun t => t.fab.giveups = satInc s.fab.giveups)))) ∧
    (∀ tag : Nat, Runs (.duplicateRecordExpiry tag) s (fun t =>
      t = { s with fab := { s.fab with dups := t.fab.dups } } ∧
      ∀ d, d ∈ t.fab.dups ↔ d ∈ s.fab.dups ∧ ¬(d.tag = tag ∧ d.tick.toNat + 400000 ≤ s.win.tb.toNat)))

/-- A link in use that loses training is failed with reason 1. A map update brings every failed or fenced link that is not in the
map into it. On a powered machine, no restart running, FAB_LINK_CTL.FENCE of a link below 800 fences it and UNFENCE of a
failed or fenced one starts its retraining; for a higher number either is ignored with cause 3. A link in training that
trains, both its ends in the fabric, is neither failed nor fenced nor in the map; one that does not is failed. Derived: R182,
R407, R408. -/
def Obligations.LinksFailFenceAndReturn : Prop :=
  ∀ (s : State) (port : BitVec 4) (l : Fin 800) (b : BitVec 10),
    let k := linkKey s.sh.shape l.val
    (s.linkUp l.val = true → Runs (.linkTrainingLost l) s (fun t =>
      (t.link k).failed = true ∧ (t.link k).reason = 1 ∧ t = { s with fab := { s.fab with links := t.fab.links } })) ∧
    Runs .failedLinkMapUpdate s (fun t => ∀ q, (s.link q).failed = true ∨ (s.link q).fenced = true → (t.link q).inMap = true) ∧
    (s.takesWrites = true → b.toNat < 800 →
      Runs (.fabLinkFence port b) s (fun t => (t.link (linkKey s.sh.shape b.toNat)).fenced = true ∧
        t = { logged s t with fab := { s.fab with links := t.fab.links } }) ∧
      ((s.link (linkKey s.sh.shape b.toNat)).failed = true ∨ (s.link (linkKey s.sh.shape b.toNat)).fenced = true →
        Runs (.fabLinkUnfence port b) s (fun t => (t.link (linkKey s.sh.shape b.toNat)).training = true ∧
          t = { logged s t with fab := { s.fab with links := t.fab.links } }))) ∧
    (s.takesWrites = true → 800 ≤ b.toNat →
      Runs (.fabLinkFence port b) s (fun t => t = ignoreAcc 3 port.toNat 0 true 0xB0040 false s) ∧
      Runs (.fabLinkUnfence port b) s (fun t => t = ignoreAcc 3 port.toNat 0 true 0xB0040 false s)) ∧
    ((s.link k).training = true → s.endsLive l.val = true → Runs (.linkRetrainDone l true) s (fun t =>
      (t.link k).failed = false ∧ (t.link k).fenced = false ∧ (t.link k).training = false ∧ (t.link k).inMap = false)) ∧
    ((s.link k).training = true → Runs (.linkRetrainDone l false) s (fun t =>
      (t.link k).failed = true ∧ (t.link k).training = false))

/-- With no change under way on a powered machine with no restart running, a host's FAB_SHAPE_REQ of another shape, the Sound
ready where it is a 3D one, begins the change: from 16 x 6 it prepares, from a 3D shape it holds; of a 3D shape without the
Sound ready it is ignored with cause 5, of the shape in force it changes nothing, and while a change is under way it is
ignored with cause 4. A preparation whose circuits are set, on at most 4 failed z rings, begins the hold; failed circuits on
more than 4 rings abandon the order with cause 6 and keep the shape. A release, no module being below 0.70 V, of an undiverted
change with at most 4 failed rings gives the fabric its target shape; a diverted one, and one to a 3D shape with more than 4,
the shape 16 x 6; either counts one change. Below 0.70 V the hold goes on. Derived: R367, R373, R374, R375, R376, R378, R384. -/
def Obligations.ShapeChangesPrepareHoldAndRelease : Prop :=
  ∀ (s : State) (port : BitVec 4) (sh : BitVec 2) (circuits : List (BitVec 8)) (seams : List (Fin 800)),
    let rings := (s.sh.ringsFailed ++ circuits.map (fun c => s.ringOfPort s.circuitShape c.toNat)).dedup
    (s.takesWrites = true → s.sh.phase = .idle → shapeOf sh.toNat ≠ s.sh.shape →
      ((shapeOf sh.toNat).is3D = false ∨ s.sh.sound = 1 → Runs (.fabShapeReq (.window port) sh) s (fun t =>
        t.sh.phase = (if s.sh.shape = .s166 then .prep else .hold) ∧ t.sh.target = shapeOf sh.toNat ∧
        t.sh.shape = s.sh.shape ∧ t = { logged s t with sh := t.sh })) ∧
      ((shapeOf sh.toNat).is3D = true → s.sh.sound ≠ 1 → Runs (.fabShapeReq (.window port) sh) s (fun t =>
        t = ignoreAcc 5 port.toNat 0 true 0xB0004 false s))) ∧
    (s.takesWrites = true → s.sh.phase = .idle → shapeOf sh.toNat = s.sh.shape → Runs (.fabShapeReq (.window port) sh) s (fun t =>
      t = logged s t)) ∧
    (s.takesWrites = true → s.sh.phase ≠ .idle → Runs (.fabShapeReq (.window port) sh) s (fun t =>
      t = ignoreAcc 4 port.toNat 0 true 0xB0004 false s)) ∧
    (s.sh.phase = .prep → s.sh.setting = false → tooManyRings s.sh.ringsFailed = false →
      Runs .shapePreparationDone s (fun t => t = { s with sh := { s.sh with phase := .hold, trained := true } })) ∧
    (s.sh.phase = .prep → tooManyRings rings = true → Runs (.shapePreparationFailed circuits) s (fun t =>
      t.sh.phase = .idle ∧ t.sh.shape = s.sh.shape ∧ t.sh.lastCause = 6 ∧ t = { s with sh := t.sh })) ∧
    (s.sh.phase = .hold → s.anyPaused = false →
      (s.sh.divert = none → s.sh.target.is3D = false ∨ tooManyRings rings = false →
        Runs (.shapeHoldRelease seams circuits) s (fun t =>
          t.sh.shape = s.sh.target ∧ t.sh.phase = .idle ∧ t.sh.count = s.sh.count + 1 ∧ t.sh.relTb = s.win.tb ∧ t.win = s.win)) ∧
      (s.sh.divert ≠ none ∨ (s.sh.target.is3D = true ∧ tooManyRings rings = true) →
        Runs (.shapeHoldRelease seams circuits) s (fun t =>
          t.sh.shape = .s166 ∧ t.sh.phase = .idle ∧ t.sh.count = s.sh.count + 1 ∧ t.sh.relTb = s.win.tb ∧ t.win = s.win))) ∧
    (s.anyPaused = true → Runs (.shapeHoldRelease seams circuits) s (fun t => t = s))

/-- A controller fault of a Sound that is fitted gives it STATE 3. Circuits being set are then set. A failed circuit carries no
light and is listed against its z ring. On a powered machine, no restart running: with no change under way ENTER in the 16 x 6
shape gives STATE 2, and from a 3D shape begins a change to 16 x 6; in a preparation it abandons the order and gives STATE 2;
in the hold of a change to a 3D shape it is ignored with cause 4, and in another it waits for the release. LEAVE in STATE 2 or
3 powers the Sound tray, nothing holding its power off, and begins its self-test; in another state it changes nothing. A
passed self-test gives STATE 1, a failed one STATE 3. A write of SOUND_EXT_e that names a column used by an attached tray or
another enabled external splice is ignored with cause 3; another is held and stored. Derived: R367, R368, R375, R378, R379,
R382. -/
def Obligations.SoundFollowsItsOrders : Prop :=
  ∀ (s : State) (port : BitVec 4) (circuit : BitVec 8) (e : Fin 24) (val : Word),
    (s.sh.sound ≠ 0 → Runs .soundFault s (fun t => t.sh.sound = 3 ∧ t.sh.selfTest = false ∧ t = { s with sh := t.sh })) ∧
    (s.sh.setting = true → Runs .soundCircuitsSet s (fun t => t.sh.setting = false ∧
      (s.sh.phase ≠ .idle → t.sh.set = BitVec.ofNat 2 s.sh.target.code) ∧ t.sh.shape = s.sh.shape ∧
      (s.sh.setCols = [] → t = { s with sh := t.sh }))) ∧
    Runs (.soundCircuitFailed circuit) s (fun t =>
      circuit.toNat ∈ t.sh.dark ∧ s.ringOfPort s.circuitShape circuit.toNat ∈ t.sh.ringsFailed ∧
      t.sh.shape = s.sh.shape ∧ t = { s with sh := t.sh }) ∧
    (s.takesWrites = true →
      (s.sh.phase = .idle → s.sh.shape.is3D = false → Runs (.soundServiceEnter (.window port)) s (fun t =>
        t.sh.sound = 2 ∧ t = { logged s t with sh := t.sh })) ∧
      (s.sh.phase = .idle → s.sh.shape.is3D = true → Runs (.soundServiceEnter (.window port)) s (fun t =>
        t.sh.phase = .hold ∧ t.sh.target = .s166 ∧ t.sh.enterDue = true ∧ t = { logged s t with sh := t.sh })) ∧
      (s.sh.phase = .prep → Runs (.soundServiceEnter (.window port)) s (fun t =>
        t.sh.phase = .idle ∧ t.sh.shape = s.sh.shape ∧ t.sh.sound = 2 ∧ t = { logged s t with sh := t.sh })) ∧
      (s.sh.phase = .hold → s.sh.target.is3D = true → Runs (.soundServiceEnter (.window port)) s (fun t =>
        t = ignoreAcc 4 port.toNat 0 true 0xC0004 false s)) ∧
      (s.sh.phase = .hold → s.sh.target.is3D = false → Runs (.soundServiceEnter (.window port)) s (fun t =>
        t = { logged s t with sh := { s.sh with enterDue := true } })) ∧
      (s.sh.sound = 2 ∨ s.sh.sound = 3 → s.heldOff 16 = false → (s.tray 16).svc ≠ .absent →
        Runs (.soundServiceLeave (.window port)) s (fun t => t.sh = { s.sh with selfTest := true } ∧
          (t.tray 16).contactor = true ∧ (∀ u, u ≠ 16 → t.tray u = s.tray u) ∧
          t = { logged s t with sh := t.sh, trays := t.trays })) ∧
      (s.sh.sound = 0 ∨ s.sh.sound = 1 → Runs (.soundServiceLeave (.window port)) s (fun t => t = logged s t))) ∧
    (∀ ok : Bool, s.sh.selfTest = true → Runs (.soundSelfTestDone ok) s (fun t =>
      t.sh.sound = (if ok then 1 else 3) ∧ t.sh.selfTest = false ∧ t = { s with sh := t.sh })) ∧
    (s.takesWrites = true →
      let named := ∃ d ∈ s.extOn, d ≠ e.val ∧ (tget 0 d s.sh.ext).toNat % 16 = Fld val 0 4
      (trayAtCol (Fld val 0 2) (Fld val 2 2) ≠ none ∨ named → Runs (.soundExtWrite port e val) s (fun t =>
        t = ignoreAcc 3 port.toNat 0 true (0xC0100 + 4 * e.val) false s)) ∧
      (trayAtCol (Fld val 0 2) (Fld val 2 2) = none → ¬named → Runs (.soundExtWrite port e val) s (fun t =>
        tget 0 e.val t.sh.ext = BitVec.ofNat 5 (val.toNat % 32) ∧ (∀ d, d ≠ e.val → tget 0 d t.sh.ext = tget 0 d s.sh.ext) ∧
        (s.pwr.sag = 0 → tget none (0xC0100 + 4 * e.val) t.store = some (w32 (val.toNat % 32))))))

/-- For an MX_ATTN in progress, on a slab whose module is not below 0.70 V: a query tile that has ended its previous step, on a
die neither paused nor cold, runs on a core of its isle; a running tile whose chunks are present ends its step; a chunk of a
step that is present and granted, with a next step, the chunks before it sent, is sent once; a buffer whose step every tile
has ended is released once; a receiver that has waited 1,000,000 ticks at 0.70 V or above for chunks records each missing
chunk of its step as present, and a sender that has waited so long for a buffer takes it as released. On a slab below 0.70 V
none of these happens. Derived: R439, R440, R441, R442, R448, R450, R454. -/
def Obligations.AttentionStepsAdvance : Prop :=
  ∀ (s : State) (r : BitVec 12) (seq : DWord) (c : Cmd) (i tile step k : Nat), s.attn? r.toNat seq = some c →
    i < 16 * c.mods.length →
    let a := c.slab i
    let d := s.die ((placeOf c.mods i).w * 4 + (placeOf c.mods i).die)
    let becomes := fun (t : State) (P : AttnSlab → Prop) => ∃ x, t.cmd? r.toNat seq = some x ∧ P (x.slab i)
    (s.slabPaused c i = false →
      (tile < c.attRT → tget 0 tile a.next < c.attE → a.running.any (fun x => x.1 == tile) = false →
        attCode i tile ∉ c.dropped → d.pause = false → d.cold = false →
        Runs (.attnTileStepDispatch r seq i tile) s (fun t => becomes t (fun x => x.running.any (fun y => y.1 == tile) = true))) ∧
      (a.running.any (fun x => x.1 == tile) = true →
        (∀ k < c.attRT, c.attSkips i (tget 0 tile a.next) tile k = true ∨ c.attPresent i (tget 0 tile a.next) k = true) →
        Runs (.attnTileStepEnd r seq i tile) s (fun t =>
          becomes t (fun x => tget 0 tile x.next = tget 0 tile a.next + 1 ∧ x.running.any (fun y => y.1 == tile) = false))) ∧
      (step + 2 ≤ c.attE → k < c.attRT → c.attPresent i step k = true → c.attGranted i step = true → attCode step k ∉ a.sent →
        (∀ q < k, attCode step q ∈ a.sent) →
        Runs (.attnChunkForward r seq i step k) s (fun t => becomes t (fun x => attCode step k ∈ x.sent))) ∧
      (1 ≤ step → step + 3 ≤ c.attE → c.attEnded i step = true → step ∉ a.released →
        Runs (.attnBufferRelease r seq i step) s (fun t => becomes t (fun x => step ∈ x.released))) ∧
      (step * 2 ∉ a.stalls → step < c.attE → 1000000 ≤ s.slabWait c i a.lastChunk →
        (∃ k < c.attRT, c.attPresent i step k = false) → Runs (.attnStall r seq i step false) s (fun t =>
          becomes t (fun x => step * 2 ∈ x.stalls ∧ ∀ k < c.attRT, c.attPresent i step k = false → attCode step k ∈ x.present))) ∧
      (step * 2 + 1 ∉ a.stalls → step + 2 ≤ c.attE → c.attGranted i step = false → 1000000 ≤ s.slabWait c i a.lastGrant →
        Runs (.attnStall r seq i step true) s (fun t =>
          becomes t (fun x => step * 2 + 1 ∈ x.stalls ∧ step ∈ x.granted)))) ∧
    (s.slabPaused c i = true → ∀ sender : Bool,
      Runs (.attnTileStepDispatch r seq i tile) s (fun t => t = s) ∧ Runs (.attnTileStepEnd r seq i tile) s (fun t => t = s) ∧
      Runs (.attnChunkForward r seq i step k) s (fun t => t = s) ∧ Runs (.attnBufferRelease r seq i step) s (fun t => t = s) ∧
      Runs (.attnStall r seq i step sender) s (fun t => t = s))

/-- A write of CXP_CTL on a page that answers, RUN kept 1 and MAXRATE not 7, is held. A discovery attempt of a running port with
no device, none made before, begins discovery (STATE 1); one that finds a device on C0 alone ends in STATE 2 with that
connector up, at a bit rate the device supports and MAXRATE allows; one that finds none, in STATE 0, and one that the device
refuses, in STATE 3. A write with RUN 0 is held and ends a frame in progress. RECONFIG runs discovery again with power kept;
DETACH leaves no device and no connector powered. A PoCXP fault switches off the powered connectors named and marks them. Loss
of lock on C0 leaves no device, no frame and no connector powered; loss of an extension that is up marks the port and drops
the connector. No other port changes. Derived: R461, R462, R463, R469, R486, R487. -/
def Obligations.ScannerPortsFollowTheirOrders : Prop :=
  ∀ (s : State) (port mask : BitVec 4) (k : Fin 8) (val : Word),
    let p := s.sport k.val
    let others := fun (t : State) => ∀ j, j ≠ k.val → t.sport j = s.sport j
    (s.takesWrites = true → s.trayAnswers (14 + k.val / 4) = true →
      (Fld val 4 3 ≠ 7 → bit val 0 = true → Runs (.cxpCtlWrite port k val) s (fun t =>
        (t.sport k.val).ctl = val &&& 0x00FF0373 ∧ (t.sport k.val).st = p.st ∧ (t.sport k.val).cur = p.cur ∧ others t)) ∧
      (Fld val 4 3 ≠ 7 → bit val 0 = false → Runs (.cxpCtlWrite port k val) s (fun t =>
        (t.sport k.val).ctl = val &&& 0x00FF0373 ∧ (t.sport k.val).st = p.st ∧ (t.sport k.val).cur = none ∧ others t)) ∧
      (Fld val 4 3 = 7 → Runs (.cxpCtlWrite port k val) s (fun t =>
        t = ignoreAcc 3 port.toNat 0 true (cxpPage k.val) false s)) ∧
      Runs (.cxpReconfig port k) s (fun t => (t.sport k.val).st = (if bit p.ctl 0 then 1 else 0) ∧
        (t.sport k.val).cur = none ∧ (t.sport k.val).connLost = false ∧ (t.sport k.val).pocOn = p.pocOn ∧ others t) ∧
      Runs (.cxpDetach port k) s (fun t => (t.sport k.val).st = 0 ∧ (t.sport k.val).cur = none ∧
        (t.sport k.val).pocOn = 0 ∧ (t.sport k.val).connUp = 0 ∧ others t)) ∧
    (s.intakeOn k.val = true → bit p.ctl 0 = true → p.st ≠ 2 → p.discTick = 0 → p.detTick = 0 →
      Runs (.discoveryAttempt k mask) s (fun t => (t.sport k.val).st = 1 ∧ others t)) ∧
    (s.intakeOn k.val = true → p.st = 1 →
      Runs (.discoveryComplete k [] 0 false) s (fun t => (t.sport k.val).st = 0 ∧ others t) ∧
      (∀ (m : BitVec 7) (count : BitVec 3), m ≠ 0 → count ≠ 0 →
        Runs (.discoveryComplete k [m] count true) s (fun t => (t.sport k.val).st = 3 ∧ others t)) ∧
      (∀ (m : BitVec 7) (count : BitVec 3), m.getLsbD 0 = true → count ≠ 0 →
        Runs (.discoveryComplete k [m] count false) s (fun t =>
          (t.sport k.val).st = 2 ∧ (t.sport k.val).conns = 0 ∧ (t.sport k.val).connUp = 1 ∧
          m.getLsbD (t.sport k.val).rate.toNat = true ∧ (t.sport k.val).rate.toNat ≤ Fld p.ctl 4 3 ∧ others t))) ∧
    (mask &&& p.pocOn ≠ 0 → Runs (.pocxpFault k mask) s (fun t =>
      (t.sport k.val) = { p with pocOn := p.pocOn &&& ~~~(mask &&& p.pocOn), pocFault := p.pocFault ||| (mask &&& p.pocOn) } ∧
      others t)) ∧
    (p.st = 2 →
      Runs (.scannerDetach k) s (fun t => (t.sport k.val).st = 0 ∧ (t.sport k.val).cur = none ∧
        (t.sport k.val).pocOn = 0 ∧ (t.sport k.val).connUp = 0 ∧ others t) ∧
      (mask &&& p.connUp &&& 0xE ≠ 0 → Runs (.extensionLockLost k mask) s (fun t =>
        (t.sport k.val).st = 2 ∧ (t.sport k.val).cur = none ∧ (t.sport k.val).connLost = true ∧
        (t.sport k.val).connUp = p.connUp &&& ~~~(mask &&& p.connUp &&& 0xE) ∧ others t)))

/-- On a port that accepts streams: a header of the port's stream with a legal size, no frame being in progress, begins the frame
whose number is one more; a packet of another stream is counted and otherwise ignored; a good packet that leaves the frame
incomplete adds its bytes; one longer than the header declares ends the frame early with cause 4; a packet with a CRC error is
counted and, of the port's own stream, ends the frame early with cause 3 (of another stream it ends none: the model's reading,
log 115); 100 ms (10,000,000 ticks) without a packet end it with cause 6. An early end counts one abort (saturating) and holds
its cause and the frame's number. Derived: R464, R465, R488. -/
def Obligations.FramesBeginGrowAndEndEarly : Prop :=
  ∀ (s : State) (k : Fin 8) (stream : BitVec 8),
    let p := s.sport k.val
    let ended := fun (cause : BitVec 4) (f : RawFrame) (t : State) =>
      (t.sport k.val).cur = none ∧ (t.sport k.val).aborts = satInc p.aborts ∧ (t.sport k.val).abortCause = cause ∧
      (t.sport k.val).abortFrame = f.num ∧ ∀ j, j ≠ k.val → t.sport j = s.sport j
    (s.intakeOn k.val = true → p.streams = true →
      (∀ (w h : BitVec 24) (bayer : Bool) (cfa : BitVec 2) (bits : BitVec 5), stream = p.stream → p.cur = none →
        1 ≤ w.toNat → w.toNat ≤ 16384 → 1 ≤ h.toNat → h.toNat ≤ 16384 → fmtListed bayer bits.toNat = true →
        Runs (.imageHeaderArrival k stream w h bayer cfa bits) s (fun t =>
          (t.sport k.val).frames = p.frames + 1 ∧ t = { s with sports := t.sports } ∧
          (∀ j, j ≠ k.val → t.sport j = s.sport j) ∧
          ∃ f, (t.sport k.val).cur = some f ∧ f.num = p.frames + 1 ∧ f.w = w.toNat ∧ f.h = h.toNat ∧ f.data = [] ∧
            f.tb = s.win.tb ∧ f.fmt = { bayer := bayer, cfa := cfa, bits := bits.toNat })) ∧
      (∀ (long : Bool) (bytes : List Byte), stream ≠ p.stream →
        Runs (.streamPacketArrival k stream true long bytes) s (fun t => t = s.setSport k.val { p with other := satInc p.other })) ∧
      (∀ (f : RawFrame) (bytes : List Byte), stream = p.stream → p.cur = some f →
        (f.data ++ bytes).length < lineBytes f.w f.fmt.bits * f.h →
        Runs (.streamPacketArrival k stream true false bytes) s (fun t =>
          t = s.setSport k.val { p with cur := some { f with data := f.data ++ bytes }, curTick := s.win.tb })) ∧
      (∀ (f : RawFrame) (bytes : List Byte), stream = p.stream → p.cur = some f →
        Runs (.streamPacketArrival k stream true true bytes) s (ended 4 f)) ∧
      (∀ (f : RawFrame) (long : Bool) (bytes : List Byte), p.cur = some f →
        (stream = p.stream → Runs (.streamPacketArrival k stream false long bytes) s (fun t =>
          ended 3 f t ∧ (t.sport k.val).crcErr = satInc p.crcErr)) ∧
        (stream ≠ p.stream → Runs (.streamPacketArrival k stream false long bytes) s (fun t =>
          t = s.setSport k.val { p with crcErr := satInc p.crcErr })))) ∧
    (∀ f : RawFrame, p.cur = some f → p.curTick.toNat + 10000000 ≤ s.win.tb.toNat → Runs (.frameIdleTimeout k) s (ended 6 f))

/-- On a page that answers, with a device attached: a GC read and a GC write of an idle mailbox send their control packet on the
uplink and make it busy; with no device RESULT is 3; while it is busy they are ignored with cause 4. For a busy mailbox of a
powered port: an acknowledgement ends the access with RESULT 0, an error with RESULT 1 and the device's status, one that fails
its CRC is counted and has the packet sent again, or after the third sending ends it with RESULT 4; and 200 ms (20,000,000
ticks) without one send the packet again, or after the third sending end it with RESULT 2. An event packet from an attached
device is acknowledged on the uplink. Derived: R465, R466, R467, R468. -/
def Obligations.MailboxAndEventPackets : Prop :=
  ∀ (s : State) (port : BitVec 4) (k : Fin 8),
    let p := s.sport k.val
    (s.takesWrites = true → s.trayAnswers (14 + k.val / 4) = true →
      (p.gcBusy = false → p.st = 2 →
        Runs (.gcRead port k) s (fun t => (t.sport k.val) = { p with gcBusy := true, gcWr := false, gcTries := 1, gcTick := s.win.tb } ∧
          t.out = s.out ++ [.uplink (14 + k.val / 4) (k.val % 4) ([0] ++ toLE 4 p.gcAddr.toNat ++ toLE 2 p.gcLen.toNat)]) ∧
        Runs (.gcWrite port k) s (fun t => (t.sport k.val) = { p with gcBusy := true, gcWr := true, gcTries := 1, gcTick := s.win.tb } ∧
          t.out = s.out ++ [.uplink (14 + k.val / 4) (k.val % 4)
            ([1] ++ toLE 4 p.gcAddr.toNat ++ toLE 2 p.gcLen.toNat ++ p.gcBytes)])) ∧
      (p.gcBusy = false → p.st ≠ 2 →
        Runs (.gcRead port k) s (fun t => t = logged (s.setSport k.val { p with gcResult := 3 }) t) ∧
        Runs (.gcWrite port k) s (fun t => t = logged (s.setSport k.val { p with gcResult := 3 }) t)) ∧
      (p.gcBusy = true →
        Runs (.gcRead port k) s (fun t => t = ignoreAcc 4 port.toNat 0 true (cxpPage k.val + 0x2C) false s) ∧
        Runs (.gcWrite port k) s (fun t => t = ignoreAcc 4 port.toNat 0 true (cxpPage k.val + 0x2C) false s))) ∧
    (p.gcBusy = true →
      (s.intakeOn k.val = true →
        (∀ bytes, Runs (.controlAckArrival k (.ok bytes)) s (fun t =>
          (t.sport k.val).gcBusy = false ∧ (t.sport k.val).gcResult = 0 ∧ ∀ j, j ≠ k.val → t.sport j = s.sport j)) ∧
        (∀ st, Runs (.controlAckArrival k (.error st)) s (fun t =>
          (t.sport k.val).gcBusy = false ∧ (t.sport k.val).gcResult = 1 ∧ (t.sport k.val).gcDev = st)) ∧
        (p.gcTries < 3 → Runs (.controlAckArrival k .badCrc) s (fun t =>
          (t.sport k.val) = { p with crcErr := satInc p.crcErr, gcTries := p.gcTries + 1, gcTick := s.win.tb } ∧
          t.out.length = s.out.length + 1)) ∧
        (3 ≤ p.gcTries → Runs (.controlAckArrival k .badCrc) s (fun t =>
          (t.sport k.val).gcBusy = false ∧ (t.sport k.val).gcResult = 4 ∧
          (t.sport k.val).crcErr = satInc p.crcErr ∧ t.out = s.out))) ∧
      (p.gcTick.toNat + 20000000 ≤ s.win.tb.toNat → p.gcTries < 3 → Runs (.controlPacketTimeout k) s (fun t =>
        (t.sport k.val) = { p with gcTries := p.gcTries + 1, gcTick := s.win.tb } ∧ t.out.length = s.out.length + 1)) ∧
      (p.gcTick.toNat + 20000000 ≤ s.win.tb.toNat → 3 ≤ p.gcTries → Runs (.controlPacketTimeout k) s (fun t =>
        (t.sport k.val).gcBusy = false ∧ (t.sport k.val).gcResult = 2 ∧ t.out = s.out))) ∧
    (∀ (id : BitVec 16) (payload : List Byte), s.intakeOn k.val = true → p.st = 2 →
      Runs (.eventPacketArrival k id payload) s (fun t =>
        .uplink (14 + k.val / 4) (k.val % 4) [4] ∈ t.out ∧ t.sports = s.sports))

/-- On a page that answers, a write of a pin in no hold with a legal function holds its function, inversion, termination and
filter, and begins a hold when function or inversion change; function 15 is ignored with cause 3, and a change of a pin in a
hold with cause 4. At the end of the hold, 1,600 steps of 2.5 ns after the write, the pin acts in its new function, or in none
where the function has left it. An accepted edge, but for one in the step in which a hold ends, sets the pin's outside level,
and a rising edge that a perforation input sees counts one. An overload of a driven pin, or of a +5 V output not faulted,
marks it faulted; a retry 10 ms later (of the +5 V output 1 s) clears the mark if it does not fault, and else counts the time
anew. Derived: R471, R474, R475, R476, R477, R478. -/
def Obligations.PinsHoldAndSeeEdges : Prop :=
  ∀ (s : State) (port m : BitVec 4) (k : Fin 8) (ph : BitVec 2) (val : Word),
    let key := k.val * 16 + m.toNat
    let x := s.pin key
    let f : BitVec 4 := BitVec.ofNat 4 (Fld val 0 4)
    (s.takesWrites = true → s.trayAnswers (14 + k.val / 4) = true →
      (f ≠ 15 → x.hold = 0 → Runs (.pinConfigWrite port k m val) s (fun t =>
        (t.pin key).func = f ∧ (t.pin key).inv = bit val 4 ∧ (t.pin key).term = (decide (m.toNat < 8) && bit val 5) ∧
        (t.pin key).filt = BitVec.ofNat 8 (Fld val 8 8) ∧ (t.pin key).act = x.act ∧
        ((t.pin key).hold ≠ 0 ↔ f ≠ x.func ∨ bit val 4 ≠ x.inv) ∧ t.sports = s.sports)) ∧
      (f ≠ 15 → x.hold ≠ 0 → f ≠ x.func ∨ bit val 4 ≠ x.inv → Runs (.pinConfigWrite port k m val) s (fun t =>
        t = ignoreAcc 4 port.toNat 0 true (tioPage k.val + 4 * m.toNat) false s)) ∧
      (f = 15 → Runs (.pinConfigWrite port k m val) s (fun t =>
        t = ignoreAcc 3 port.toNat 0 true (tioPage k.val + 4 * m.toNat) false s))) ∧
    (x.hold ≠ 0 → x.hold - 1 + 1600 ≤ s.win.tb.toNat * 4 + ph.toNat → Runs (.pinHoldEnd k m ph) s (fun t =>
      (t.pin key).hold = 0 ∧ (t.pin key).act = (if x.leaving then 0 else x.func) ∧ (t.pin key).actInv = x.inv ∧
      ∀ j, j ≠ key → t.pin j = s.pin j)) ∧
    (∀ level : Bool, x.hold = 0 ∨ s.win.tb.toNat * 4 + ph.toNat < x.hold - 1 + 1600 →
      Runs (.pinInputEdge k m level ph) s (fun t =>
      (t.pin key) = { x with ext := level } ∧ (∀ j, j ≠ key → t.pin j = s.pin j) ∧
      (s.intakeOn k.val = true → s.pinDrive key = none → x.act = 4 → x.actInv = false → level = true →
        (s.sport k.val).inLvl.getLsbD 3 = false → (t.sport k.val).perf = (s.sport k.val).perf + 1))) ∧
    (s.pinDrive key ≠ none → Runs (.outputOverload k (m.setWidth 5)) s (fun t =>
      (t.pin key) = { x with fault := true, faultTick := s.win.tb })) ∧
    (s.intakeOn k.val = true → (s.sport k.val).fault5v = false →
      Runs (.outputOverload k 16) s (fun t =>
        (t.sport k.val) = { s.sport k.val with fault5v := true, fault5Tick := s.win.tb })) ∧
    (∀ ok : Bool,
      (x.fault = true → x.faultTick.toNat + 1000000 ≤ s.win.tb.toNat →
        Runs (.outputFaultRetry k (m.setWidth 5) ok) s (fun t =>
          t = s.setPin key { x with fault := !ok, faultTick := s.win.tb })) ∧
      ((s.sport k.val).fault5v = true → (s.sport k.val).fault5Tick.toNat + 100000000 ≤ s.win.tb.toNat →
        Runs (.outputFaultRetry k 16 ok) s (fun t =>
          t = s.setSport k.val { s.sport k.val with fault5v := !ok, fault5Tick := s.win.tb })))

/-- On a page that answers, a write of TRIG_CTL with a source and a PERIOD in range arms the generator from index 0 with that
PERIOD and PHASE. TRIG_FIRE under a source other than 0, and the time source at a tick PHASE modulo PERIOD, when no trigger
has fired in that step and no output edge of one is still to be placed, count one trigger with its time; with an edge still to
be placed they count one overrun instead. A due edge of a strobe output is placed: the output takes the level and the edge is
no longer scheduled. Overruns are reported when none was reported before, and their run count restarts. Derived: R479, R480,
R481, R484. -/
def Obligations.TriggersFireAndScheduleEdges : Prop :=
  ∀ (s : State) (port : BitVec 4) (k : Fin 8) (ph : BitVec 2) (val : Word),
    let p := s.sport k.val
    let busy := p.sched.any (fun e => decide (e.out < 6))
    let fired := fun (now : Nat) (t : State) =>
      (busy = false → (t.sport k.val).trigCount = p.trigCount + 1 ∧ (t.sport k.val).trigTs = w64 now ∧
        (t.sport k.val).overrun = p.overrun) ∧
      (busy = true → (t.sport k.val).trigCount = p.trigCount ∧ (t.sport k.val).overrun = satInc p.overrun) ∧
      (∀ j, j ≠ k.val → t.sport j = s.sport j) ∧ t.pins = s.pins
    (s.takesWrites = true → s.trayAnswers (14 + k.val / 4) = true →
      (Fld val 0 3 ≤ 5 → periodOk (Fld val 0 3) p.period.toNat = true → Runs (.triggerArm port k val) s (fun t =>
        (t.sport k.val).trigCtl = val &&& 0x31F ∧ (t.sport k.val).trigIdx = 0 ∧ (t.sport k.val).srcEdges = 0 ∧
        (t.sport k.val).armPeriod = p.period ∧ (t.sport k.val).armPhase = p.phase ∧
        (t.sport k.val).trigCount = p.trigCount ∧ ∀ j, j ≠ k.val → t.sport j = s.sport j)) ∧
      (5 < Fld val 0 3 ∨ periodOk (Fld val 0 3) p.period.toNat = false → Runs (.triggerArm port k val) s (fun t =>
        t = ignoreAcc 3 port.toNat 0 true (tioPage k.val + 0x50) false s)) ∧
      (Fld p.trigCtl 0 3 ≠ 0 → p.firedAt (s.win.tb.toNat * 4 + ph.toNat) = false →
        Runs (.trigFire port k ph) s (fired (s.win.tb.toNat * 4 + ph.toNat)))) ∧
    (s.intakeOn k.val = true → Fld p.trigCtl 0 3 = 4 → s.win.tb.toNat % p.armPeriod.toNat = p.armPhase.toNat % p.armPeriod.toNat →
      p.firedAt (s.win.tb.toNat * 4) = false → Runs (.timedTrigger k) s (fired (s.win.tb.toNat * 4))) ∧
    (∀ e : OutEdge, s.intakeOn k.val = true → p.sched = [e] → e.out < 5 → e.due ≤ s.win.tb.toNat * 4 + ph.toNat →
      Runs (.scheduledOutputEdge k ph) s (fun t =>
        (t.sport k.val).sched = [] ∧ (t.sport k.val).outLvl.getLsbD e.out = e.rise ∧
        (∀ i, i < 6 → i ≠ e.out → (t.sport k.val).outLvl.getLsbD i = p.outLvl.getLsbD i) ∧
        t = { s with sports := t.sports })) ∧
    (p.overRun ≠ 0 → p.overTick = 0 → Runs (.trigOverrunReport k) s (fun t =>
      (t.sport k.val) = { p with overRun := 0, overTick := s.win.tb.toNat + 1 } ∧ ∀ j, j ≠ k.val → t.sport j = s.sport j))

/-- A pipeline that may take the unit at the head of a context's queue takes it, and develops it under the unit's bank, and the
unit leaves the queue. At the last write of the unit in development (no C8 registration waiting) the pipeline counts one unit
and is free. A marker at the head of the queue of an ON context, ready, leaves the queue. Dropped frames not reported before
are reported and their run count restarts. Derived: R489, R505, R507, R509, R532. -/
def Obligations.PipelinesTakeDevelopAndReport : Prop :=
  ∀ (s : State) (k : Fin 8),
    let x := s.pipe k.val
    (∀ (j : Nat) (fs : List RawFrame) (bank : Bool) (gen : Word) (rest : List QItem), s.takes k.val = some j →
      (s.pipe j).queue = .unit fs bank gen :: rest → Runs (.unitTaken k) s (fun t =>
        (∃ d, (t.pipe k.val).dev = some d ∧ d.ctx = j ∧ d.frames = fs ∧ d.bank = bank ∧ d.gen = gen) ∧
        (t.pipe j).queue = rest ∧ t.sports = s.sports ∧ t.tens = s.tens)) ∧
    (∀ d : Dev, x.dev = some d → s.intakeOn k.val = true →
      (hEn ((s.pipe d.ctx).header d.bank) 4 = false ∨ (s.intake (k.val / 4)).c8 = true) →
      Runs (.unitLastWrite k) s (fun t => (t.pipe k.val).dev = none ∧ (t.pipe k.val).units = x.units + 1 ∧ t.sports = s.sports)) ∧
    (∀ (num : Word) (rest : List QItem), x.queue = .marker num :: rest → s.intakeOn k.val = true → x.obj.st = .on →
      s.headReady k.val = true → Runs (.earlyEndMarkerReport k) s (fun t => (t.pipe k.val).queue = rest ∧
        ∀ j, j ≠ k.val → t.pipe j = s.pipe j)) ∧
    (x.dropRun ≠ 0 → x.dropTick = 0 → Runs (.frameDroppedReport k) s (fun t =>
      (t.pipe k.val) = { x with dropRun := 0, dropTick := s.win.tb.toNat + 1 } ∧ ∀ j, j ≠ k.val → t.pipe j = s.pipe j))

/-- On a page that answers: an enable of an OFF context with a valid header, and no binding that names an unfit ring, makes it ON
with its bindings; a disable of an ON context with no unit in development makes it OFF, and with one WINDING. A wind-down with
no unit left and nothing pending ends it OFF. A write of PIPE_BANK.REQ to the other, valid bank of an OFF context with no load
running switches it at once. A load with a legal length and place, into the bank not in use, is one host read through PF0 of
the control host's port; when all its bytes have come they stand in that bank and RESULT is 0. Derived: R185, R512, R525,
R527, R530, R531. -/
def Obligations.ContextsAreEnabledAndLoaded : Prop :=
  ∀ (s : State) (port : BitVec 4) (k : Fin 8) (val : Word) (b : Bool),
    let x := s.pipe k.val
    (s.takesWrites = true → s.trayAnswers (14 + k.val / 4) = true →
      (x.obj = {} → headerOk (x.header x.bank) (x.binds.map (·.1)) = true →
        (∀ c ∈ x.binds, (s.ring c.2).obj.st = .on ∧ (s.ring c.2).ctx.engine = Eng.code .ix ∧ s.ringTaken k.val c.1 c.2 = false) →
        s.reloading 4 k.val = false → Runs (.pipeEnable port k) s (fun t =>
          (t.pipe k.val).obj = { st := .on } ∧ (t.pipe k.val).bound = x.binds ∧ (t.pipe k.val).mem = x.mem)) ∧
      (x.obj = {} → headerOk (x.header x.bank) (x.binds.map (·.1)) = false → Runs (.pipeEnable port k) s (fun t =>
        t = ignoreAcc 5 port.toNat 0 true (ctxPage k.val) false s)) ∧
      (x.obj.st = .on → Runs (.pipeDisable port k) s (fun t =>
        (t.pipe k.val).obj = { st := if s.pipeWorks k.val then .winding else .off } ∧ (t.pipe k.val).mem = x.mem)) ∧
      (x.obj.st = .off → bit val 0 ≠ x.bank → x.bankOk (bit val 0) = true → x.loadBusy = false →
        Runs (.pipeBankWrite port k val) s (fun t =>
          (t.pipe k.val) = { x with bank := bit val 0, req := bit val 0, gen := x.gen + 1 } ∧
          (∀ j, j ≠ k.val → t.pipe j = s.pipe j) ∧ t = { logged s t with pipes := t.pipes })) ∧
      (x.loadLen ≠ 0 → x.loadDst.toNat + x.loadLen.toNat ≤ 2 ^ 32 → x.loadBusy = false → b ≠ x.bank →
        Runs (.bankLoad port k b) s (fun t =>
          (t.pipe k.val).loadBusy = true ∧ (t.pipe k.val).loadBank = b ∧ (t.pipe k.val).loadDone = 0 ∧
          tget none s.nextRead t.reads = some {
            tenant := none, port := s.ctlPort, fn := 0, addr := x.loadSrc, len := x.loadLen.toNat,
            purpose := .bank (14 + k.val / 4) (k.val % 4), sent := s.ctlCan, tick := s.win.tb } ∧
          ∀ j, j ≠ k.val → t.pipe j = s.pipe j))) ∧
    (x.obj = { st := .winding } → s.pipeWorks k.val = false → Runs (.pipeWindDownDone k) s (fun t => (t.pipe k.val).obj = {})) ∧
    (∀ (id : Nat) (h : HRead) (data : List Byte), s.readFor (fun u => u == .bank (14 + k.val / 4) (k.val % 4)) = some (id, h) →
      x.loadBusy = true → h.sent = true → x.loadDone = 0 → data.length = x.runLen →
      Runs (.bankLoadComplete k data false) s (fun t =>
        (t.pipe k.val).loadBusy = false ∧ (t.pipe k.val).loadResult = 0 ∧
        (∀ i, i < data.length → tget 0 (b2n x.loadBank * 2 ^ 32 + x.runDst + i) (t.pipe k.val).mem = data.getD i 0) ∧
        (∀ a, a < b2n x.loadBank * 2 ^ 32 + x.runDst ∨ b2n x.loadBank * 2 ^ 32 + x.runDst + data.length ≤ a →
          tget 0 a (t.pipe k.val).mem = tget 0 a x.mem) ∧ ∀ j, j ≠ k.val → t.pipe j = s.pipe j))

/-- In the state after reset, which is the end of bring-up of a healthy machine (the model's choice, log 1): no command is
pending, the timebase and the counters of ignored accesses are 0, no strap is overridden, every tenant, partition, ring,
channel and pipeline context is OFF, no key is loaded, no host read is outstanding, every module is in service with its rails
up, bring-up is complete at stage 11, the caps and orders are none, the steward epoch is 1 and no update is in progress.
Derived: R184, R782, R549, R658. -/
def Obligations.ResetLeavesEveryObjectOff : Prop :=
  let s := State.reset
  s.pending = [] ∧ s.win.tb = 0 ∧ s.win.ignored = 0 ∧ s.win.strapOvr = 0 ∧ s.out = [] ∧ s.reads = [] ∧
  (∀ n, (s.ten n).obj = {} ∧ (s.ten n).keyLoaded = false ∧ (s.part n).obj = {} ∧ (s.ring n).obj = {} ∧ (s.chan n).obj = {} ∧
    (s.pipe n).obj = {} ∧ (s.mod n).state = 1 ∧ (s.pwrMod n).obj = { st := .on } ∧ (s.pwrMod n).host = 0 ∧
    (s.pwrMod n).capHost = 0) ∧
  s.boot.stage = 11 ∧ s.boot.st = 1 ∧ s.boot.degraded = false ∧ s.pwr.rackHost = 0 ∧ s.pwr.sag = 0 ∧ s.keys.white = false ∧
  s.stw.epoch = 1 ∧ s.upd.phase = 0

/-- Power-on of a machine without power begins bring-up at stage 0 with no report, no partition and no ring, and the strap
overrides as stored. The end of the stage in progress writes its report with its result and its count of items (at most 255),
a tray removed meanwhile among them (as a missing tray: the model's cause, log 118): a stage that stops ends bring-up with
STATE 2; stage 11 completes it with STATE 1; stage 2 with the transport switch on holds it; any other stage is followed by the
next. At the end of its bound, which time below 0.70 V, waits for a cold die and steward fail-overs extend, a stage ends in
the same way, a rail still rising at the bound of stage 3 counting as failed. Derived: R545, R546, R547, R548, R549, R555,
R782. -/
def Obligations.BringUpRunsItsStages : Prop :=
  (∀ (s : State) (straps : List Word), s.boot.powered = false → Runs (.powerOn straps) s (fun t =>
    t.boot.powered = true ∧ t.boot.stage = 0 ∧ t.boot.st = 0 ∧ t.boot.items = [] ∧ t.boot.degraded = false ∧
    (∀ n, n < 12 → (tget {} n t.boot.reports).result = 0) ∧ t.parts = [] ∧ t.rings = [] ∧
    t.win.strapOvr = s.stored 0x280 0)) ∧
  ∀ (s : State) (items : List BootItem),
    let n := s.boot.stage
    let o := fun (l : List BootItem) =>
      let w := stageWork n (s.boot.found ++ l.filter (fun b => b.stage == n || (n == 8 && b.stage == 7))) s
      { w with items := w.items ++ s.boot.gone.map (fun t => itemAt n t 0 0 0 0 2) }
    let ends := fun (l : List BootItem) (t : State) =>
      (tget {} n t.boot.reports).result = (o l).result n ∧
      (tget {} n t.boot.reports).items = BitVec.ofNat 8 (min 255 (o l).items.length) ∧
      ((o l).stop = true → t.boot.st = 2) ∧
      ((o l).stop = false → n = 11 → t.boot.st = 1) ∧
      ((o l).stop = false → n = 2 → s.upd.switch = true → t.boot.held = true) ∧
      ((o l).stop = false → n ≠ 11 → ¬(n = 2 ∧ s.upd.switch = true) → t.boot.stage = n + 1 ∧ t.boot.held = false)
    let late := ((List.range 96).filter (fun w => (s.pwrMod w).rising)).map (fun w => modItem 3 w 2)
    s.stageRuns = true →
      (s.stageDone = true → Runs (.stageEnd items) s (ends items)) ∧
      (stageBound n ≤ s.stageTicks →
        (n ≠ 3 → (n = 4 → s.stageDone = true) → Runs (.stageBoundExpiry items) s (ends items)) ∧
        (n = 3 → Runs (.stageBoundExpiry items) s (ends (items ++ late))))

/-- In stage 4 the loops N a die, not below -10 C, of a module still in the bring-up has counted are recorded as 1 ms / (N x 4096)
in picoseconds, rounded up (65,535 at most, the model's choice), in the field of their setpoint, the other field and all other
dies unchanged. A die still cold 10 minutes (60,000,000,000 ticks) after the stage began is an item with cause 3; of a module
that tests itself in the running machine, after its tests began, it takes the module out with stage 4, cause 3. The transport
switch sets its condition; cleared while bring-up is held, it resumes at stage 3. BOOT_ACK, from the window or from management
with a majority, removes the degraded codes. A legal restart order leaves stage 2 running, every partition, ring and column
empty; MACH_RESTART with another value or without a majority is ignored with cause 3 or 5. When the active oscillator fails,
the other takes over, then the internal one, and the timebase does not step. Derived: R69, R550, R551, R554, R555, R660, R767. -/
def Obligations.CalibrationHoldRestartAndOscillators : Prop :=
  (∀ (s : State) (w : Fin 96) (d : BitVec 2) (ceil : Bool) (n : BitVec 17),
    let k := w.val * 4 + d.toNat
    s.stageRuns = true → s.boot.stage = 4 → s.modAlive w.val = true →
      (n ≠ 0 → (s.die k).cold = false → Runs (.calibrationLoopEnd w d ceil n) s (fun t => t = { s with boot := t.boot } ∧
        Fld (tget 0 k t.boot.cal) (if ceil then 16 else 0) 16 =
          min 65535 ((1000000000 + n.toNat * 4096 - 1) / (n.toNat * 4096)) ∧
        Fld (tget 0 k t.boot.cal) (if ceil then 0 else 16) 16 = Fld (tget 0 k s.boot.cal) (if ceil then 0 else 16) 16 ∧
        ∀ j, j ≠ k → tget 0 j t.boot.cal = tget 0 j s.boot.cal)) ∧
      ((s.die k).cold = true → s.boot.began.toNat + 60000000000 ≤ s.win.tb.toNat →
        itemAt 4 (w.val / 8) (w.val % 8) d.toNat 0 0 3 ∉ s.boot.found → Runs (.coldWaitTimeout w d) s (fun t =>
          t.boot.found = s.boot.found ++ [itemAt 4 (w.val / 8) (w.val % 8) d.toNat 0 0 3] ∧
          t = { s with boot := { s.boot with found := t.boot.found, waitFrom := t.boot.waitFrom, waitSum := t.boot.waitSum } }))) ∧
  (∀ (s : State) (w : Fin 96) (d : BitVec 2), s.boot.st = 1 → (s.pwrMod w.val).testing = true → s.paused w.val = false →
    (s.die (w.val * 4 + d.toNat)).cold = true → (s.pwrMod w.val).testFrom - 1 + 60000000000 ≤ s.win.tb.toNat →
    Runs (.coldWaitTimeout w d) s (fun t => (t.mod w.val).state = 2 ∧ (t.mod w.val).stage = 4 ∧ (t.mod w.val).cause = 3 ∧
      (t.pwrMod w.val).testing = false ∧ ∀ j, j ≠ w.val → t.mod j = s.mod j ∧ t.pwrMod j = s.pwrMod j)) ∧
  (∀ (s : State) (on : Bool), Runs (.transportSwitch on) s (fun t => t.upd.switch = on ∧ t.upd.tilt = s.upd.tilt ∧
    (s.boot.held = true → on = false → t.boot.stage = 3 ∧ t.boot.held = false) ∧
    (s.boot.held = false ∨ on = true → t = { told s t with upd := { s.upd with switch := on } }))) ∧
  (∀ (s : State) (port : BitVec 4), s.takesWrites = true → Runs (.bootAck (.window port)) s (fun t =>
    t = { logged s t with boot := { s.boot with codes := [] } })) ∧
  (∀ (s : State) (m : Mgmt), s.majority = true → Runs (.bootAck (.mgmt m)) s (fun t =>
    t = { answered s t with boot := { s.boot with codes := [] } })) ∧
  (∀ (s : State) (port : BitVec 4) (val : Word), s.takesWrites = true →
    (Fld val 0 16 ≠ 0xA96 → Runs (.restart (.window port) val) s (fun t => t = ignoreAcc 3 port.toNat 0 true 0x410 false s)) ∧
    (Fld val 0 16 = 0xA96 → s.majority = false → Runs (.restart (.window port) val) s (fun t =>
      t = ignoreAcc 5 port.toNat 0 true 0x410 false s)) ∧
    (Fld val 0 16 = 0xA96 → s.majority = true → Runs (.restart (.window port) val) s (fun t =>
      t.boot.powered = true ∧ t.boot.stage = 2 ∧ t.boot.st = 0 ∧ t.parts = [] ∧ t.rings = [] ∧ t.cols = []))) ∧
  (∀ (s : State) (m : Mgmt) (val : Word), s.majority = true → Runs (.restart (.mgmt m) val) s (fun t =>
    t.boot.powered = true ∧ t.boot.stage = 2 ∧ t.boot.st = 0 ∧ t.parts = [] ∧ t.rings = [] ∧ t.cols = [])) ∧
  (∀ s : State, s.win.osc ≠ 2 → Runs .oscillatorFailure s (fun t =>
    t = { told s t with win := { s.win with osc := t.win.osc, oscFailed := t.win.oscFailed } } ∧
    (s.win.osc = 0 → s.win.oscFailed = 0 → t.win.osc = 1) ∧ (s.win.osc = 1 → s.win.oscFailed = 1 → t.win.osc = 2)))

/-- After 2 s (200,000,000 ticks) of a code a display cycle gives the turn to one of the most severe class present and notes
exactly the active codes; before, it does nothing. At every time the display shows a code of that class. LOCATE toggles the
panel's request at once, and during a lamp test after it; a lamp test begun in the same tick takes the toggle back until its
end. A lamp test lasts 3 s (300,000,000 ticks). LocationIndicatorActive sets or clears the rack manager's request for a light
and leaves every other request, from every source, as it was. A turn of the RE-ARM key re-arms the low-low reservoir cut-off
and the loss of flow whose condition has ended and leaves those whose condition is still present; with the whiteout condition
ended and bring-up complete it starts the key service's re-arm. Derived: R51, R54, R628, R675, R738. -/
def Obligations.PanelShowsAndLocates : Prop :=
  ∀ s : State,
    let now := s.win.tb.toNat + 1
    (s.topCodes ≠ [] → s.display ∈ s.topCodes) ∧
    (s.stw.shownTick = 0 ∨ s.stw.shownTick - 1 + 200000000 ≤ s.win.tb.toNat →
      Runs .displayCycle s (fun t =>
        t = { s with stw := { s.stw with active := t.stw.active, shown := t.stw.shown, shownTick := now } } ∧
        (s.topCodes ≠ [] → t.stw.shown ∈ s.topCodes) ∧ ∀ c, c ∈ t.stw.active ↔ c ∈ s.allCodes ∨ c ∈ s.classCodes 7)) ∧
    (s.stw.shownTick ≠ 0 → s.win.tb.toNat < s.stw.shownTick - 1 + 200000000 → Runs .displayCycle s (fun t => t = s)) ∧
    (s.stw.lamp = 0 →
      Runs .locateButton s (fun t => t = { s with stw := { s.stw with
        panelLocate := !s.stw.panelLocate, locTick := if s.stw.locTick = now then 0 else now } }) ∧
      (s.stw.locTick ≠ now → Runs .lampTest s (fun t => t = { s with stw := { s.stw with lamp := now } })) ∧
      (s.stw.locTick = now → Runs .lampTest s (fun t => t = { s with stw := { s.stw with
        lamp := now, locTick := 0, panelLocate := !s.stw.panelLocate, lampLocate := !s.stw.lampLocate } }))) ∧
    (s.stw.lamp ≠ 0 → Runs .lampTest s (fun t => t = s) ∧
      Runs .locateButton s (fun t => t = { s with stw := { s.stw with lampLocate := !s.stw.lampLocate } }) ∧
      (s.stw.lamp - 1 + 300000000 ≤ s.win.tb.toNat → Runs .lampTestEnd s (fun t =>
        t = { s with stw := { s.stw with lamp := 0, lampLocate := false, panelLocate := s.stw.panelLocate ^^ s.stw.lampLocate } })) ∧
      (s.win.tb.toNat < s.stw.lamp - 1 + 300000000 → Runs .lampTestEnd s (fun t => t = s))) ∧
    (s.served = true → s.majority = true → ∀ (session : Nat) (on : Bool),
      let rest := fun (t : State) => t = { answered s t with stw := { (answered s t).stw with
        rmRack := t.stw.rmRack, rmTrays := t.stw.rmTrays, rmMods := t.stw.rmMods } }
      Runs (.locationIndicatorSet session .rack on) s (fun t =>
        rest t ∧ t.stw.rmRack = on ∧ t.stw.rmTrays = s.stw.rmTrays ∧ t.stw.rmMods = s.stw.rmMods) ∧
      (∀ u : Fin 18, Runs (.locationIndicatorSet session (.tray u) on) s (fun t =>
        rest t ∧ t.stw.rmRack = s.stw.rmRack ∧ t.stw.rmMods = s.stw.rmMods ∧ t.stw.rmTrays.getLsbD u.val = on ∧
        ∀ j, j ≠ u.val → t.stw.rmTrays.getLsbD j = s.stw.rmTrays.getLsbD j)) ∧
      (∀ w : Fin 96, Runs (.locationIndicatorSet session (.module w) on) s (fun t =>
        rest t ∧ t.stw.rmRack = s.stw.rmRack ∧ t.stw.rmTrays = s.stw.rmTrays ∧ (w.val ∈ t.stw.rmMods ↔ on = true) ∧
        ∀ j, j ≠ w.val → (j ∈ t.stw.rmMods ↔ j ∈ s.stw.rmMods)))) ∧
    (s.boot.powered = true → Runs .reArm s (fun t =>
      (t.therm.resCut = (s.therm.resCut && decide (s.therm.reservoir ≤ 10))) ∧
      (s.therm.goodFlow ≠ 0 → s.therm.goodFlow - 1 + 1000000000 ≤ s.win.tb.toNat → t.therm.flowLost = false) ∧
      (s.therm.goodFlow = 0 → t.therm.flowLost = s.therm.flowLost) ∧
      (s.keys.white = true → s.lidsEnded = true → s.boot.stage = 11 → s.boot.st = 1 → t.keys.rearming = true) ∧
      (s.keys.white = false → t.keys = s.keys)))

/-- On a powered machine, no restart running, a host's cap of 0 or from 560 W (65,510 W for the rack) is held and stored, another
is ignored with cause 3, no other cap changing. The rack manager's caps and orders are taken with a majority where they are
legal and answered with 200; an illegal one is answered with 400. An order is held as given (3 is ignored with cause 3), and a
module whose host orders it off begins to fall while its warden runs. A shelf's report is held, and the automatic limit is
0.95 C rounded down where that is below the machine's maximum draw, else none. Derived: R570, R579, R580, R582, R584, R585,
R198. -/
def Obligations.CapsOrdersAndShelves : Prop :=
  (∀ (s : State) (port : BitVec 4) (w : Fin 96) (p : BitVec 6) (val : Word), s.takesWrites = true →
    let v := Fld val 0 11
    let u := Fld val 0 18
    (v = 0 ∨ 560 ≤ v → Runs (.moduleCapHostWrite port w val) s (fun t =>
      t.pwrMod w.val = { s.pwrMod w.val with capHost := BitVec.ofNat 11 v } ∧ (∀ j, j ≠ w.val → t.pwrMod j = s.pwrMod j) ∧
      (s.pwr.sag = 0 → t.stored (pwrModOff w.val + 8) 0 = w32 v) ∧
      t = { logged s t with store := t.store, pwr := { (logged s t).pwr with mods := t.pwr.mods, items := t.pwr.items } })) ∧
    (v ≠ 0 → v < 560 → Runs (.moduleCapHostWrite port w val) s (fun t =>
      t = ignoreAcc 3 port.toNat 0 true (pwrModOff w.val + 8) false s)) ∧
    (u = 0 ∨ 560 ≤ u → Runs (.partitionCapHostWrite port p val) s (fun t =>
      tget 0 p.toNat t.pwr.partHost = BitVec.ofNat 18 u ∧
      (∀ j, j ≠ p.toNat → tget 0 j t.pwr.partHost = tget 0 j s.pwr.partHost) ∧
      (s.pwr.sag = 0 → t.stored (0x104000 + 4 * p.toNat) 0 = w32 u) ∧
      t = { logged s t with store := t.store, pwr := { (logged s t).pwr with partHost := t.pwr.partHost, items := t.pwr.items } })) ∧
    (u ≠ 0 → u < 560 → Runs (.partitionCapHostWrite port p val) s (fun t =>
      t = ignoreAcc 3 port.toNat 0 true (0x104000 + 4 * p.toNat) false s)) ∧
    (u = 0 ∨ 65510 ≤ u → Runs (.rackCapHostWrite port val) s (fun t =>
      (s.pwr.sag = 0 → t.stored 0x100020 0 = w32 u) ∧
      t = { logged s t with store := t.store, pwr := { (logged s t).pwr with rackHost := BitVec.ofNat 18 u, items := t.pwr.items } })) ∧
    (u ≠ 0 → u < 65510 → Runs (.rackCapHostWrite port val) s (fun t =>
      t = ignoreAcc 3 port.toNat 0 true 0x100020 false s)) ∧
    (Fld val 0 2 ≠ 3 → Runs (.powerOrderHost port w val) s (fun t =>
      (t.pwrMod w.val).host = BitVec.ofNat 2 (Fld val 0 2) ∧ (t.pwrMod w.val).rm = (s.pwrMod w.val).rm ∧
      (Fld val 0 2 = 2 → (s.pwrMod w.val).obj.st = .on → s.wardenRuns (w.val / 8) = true →
        (t.pwrMod w.val).obj.st = .winding) ∧
      ∀ j, j ≠ w.val → t.pwrMod j = s.pwrMod j)) ∧
    (Fld val 0 2 = 3 → Runs (.powerOrderHost port w val) s (fun t =>
      t = ignoreAcc 3 port.toNat 0 true (pwrModOff w.val) false s))) ∧
  (∀ (s : State) (session v : Nat) (l : CapLevel), s.majority = true →
    (capLegal l v = true → Runs (.redfishPowerLimit session l v) s (fun t =>
      t.out.getLast? = some (.answer session 200 [v]) ∧
      match l with
      | .module w => t.pwrMod w.val = { s.pwrMod w.val with capRm := BitVec.ofNat 11 v } ∧ t.pwr.rackRm = s.pwr.rackRm
      | .partition p => tget 0 p.toNat t.pwr.partRm = BitVec.ofNat 18 v ∧ t.pwr.mods = s.pwr.mods
      | .rack => t.pwr.rackRm = BitVec.ofNat 18 v ∧ t.pwr.mods = s.pwr.mods ∧ t.pwr.partRm = s.pwr.partRm)) ∧
    (capLegal l v = false → Runs (.redfishPowerLimit session l v) s (fun t => t = rfAnswer session 400 [] s))) ∧
  (∀ (s : State) (session : Nat) (w : Fin 96) (v : BitVec 2), s.majority = true →
    (v ≠ 3 → Runs (.powerOrderRm session w v) s (fun t => t.out.getLast? = some (.answer session 200 [v.toNat]) ∧
      (t.pwrMod w.val).rm = v ∧ (t.pwrMod w.val).host = (s.pwrMod w.val).host ∧ ∀ j, j ≠ w.val → t.pwrMod j = s.pwrMod j)) ∧
    (v = 3 → Runs (.powerOrderRm session w v) s (fun t => t = rfAnswer session 400 [] s))) ∧
  (∀ (s : State) (shelf : BitVec 2) (good : BitVec 3) (present : Bool) (out : BitVec 16),
    Runs (.shelfReport shelf good present out) s (fun t =>
      t.shelf shelf.toNat = { s.shelf shelf.toNat with
        good := BitVec.ofNat 3 (if present then min good.toNat 6 else 0), present := present, out := out } ∧
      (∀ n, n ≠ shelf.toNat → t.shelf n = s.shelf n) ∧
      t.pwr.auto = (if t.capacity * 95 < t.machDraw * 100 then t.capacity * 95 / 100 else 0)))

/-- A sequence up that ends leaves the module's rails up; a sequence down that ends leaves its rails down, or with PENDING rising
again without an observable OFF, and its columns zero, no other module's. A missed ramp leaves the module out with stage 3,
cause 2; a rail of a module with rails up that leaves its window (Table 16-1) leaves it out with cause 1 and falling, and one
inside it changes nothing. A running warden moves the core setpoint of a module with rails up by one 10 mV step toward its
target, never past it, at least 20 us after the last. At the end of a window above the cap the controller lowers its level by
10 mV, not below 0.70 V; after ten windows below 0.95 of the cap it raises it by 10 mV, not above the ceiling; else it keeps
it. The rack's 1 s average is the sum of the trays' and the pumps', and each tray with a running warden reports its own.
Derived: R572, R573, R574, R575, R576, R577, R586, R587, R594. -/
def Obligations.RailsSetpointsAndReports : Prop :=
  (∀ (s : State) (w : Fin 96),
    let p := s.pwrMod w.val
    let g := s.vTarget w.val
    let now := s.win.tb.toNat + 1
    let rest := fun (t : State) => ∀ j, j ≠ w.val → t.pwrMod j = s.pwrMod j
    let one := fun (t : State) => rest t ∧
      t = { s with pwr := { s.pwr with mods := t.pwr.mods, lowFrom := t.pwr.lowFrom, lowSum := t.pwr.lowSum } }
    let moved := fun (v : Nat) (t : State) => t.pwrMod w.val = { p with
      vset := v, vtick := now, lowFrom := (t.pwrMod w.val).lowFrom, lowSum := (t.pwrMod w.val).lowSum }
    (p.rising = true →
      Runs (.railSequenceUpDone w) s (fun t =>
        t.pwrMod w.val = { p with
          obj := { st := .on }, rising := false, testing := s.boot.st == 1, testFrom := now
          lowFrom := (t.pwrMod w.val).lowFrom, lowSum := (t.pwrMod w.val).lowSum } ∧
        (p.vset < 700 → p.lowFrom = 0 → (t.pwrMod w.val).lowFrom = now) ∧ one t) ∧
      Runs (.railRampMiss w) s (fun t => (t.mod w.val).state = 2 ∧ (t.mod w.val).stage = 3 ∧ (t.mod w.val).cause = 2 ∧
        (t.pwrMod w.val).rising = false ∧ (t.pwrMod w.val).obj = { st := .winding } ∧
        ∀ j, j ≠ w.val → t.mod j = s.mod j ∧ t.pwrMod j = s.pwrMod j)) ∧
    (p.obj.st = .winding → p.rising = false → Runs (.railSequenceDownDone w) s (fun t =>
      (p.obj.pending = false ∨ s.canRise w.val = false → (t.pwrMod w.val).obj = {}) ∧
      (p.obj.pending = true → s.canRise w.val = true → (t.pwrMod w.val).rising = true ∧ (t.pwrMod w.val).obj = p.obj) ∧
      (∀ a, a / 2 ^ 37 = w.val → tget 0 a t.cols = 0) ∧ (∀ a, a / 2 ^ 37 ≠ w.val → tget 0 a t.cols = tget 0 a s.cols) ∧
      rest t)) ∧
    (∀ (rail : BitVec 3) (mv : BitVec 16), rail.toNat ≤ 4 →
      (p.obj.st = .on → s.auxUp w.val = true → s.railOut w.val rail.toNat mv.toNat = true → Runs (.railFault w rail mv) s (fun t =>
        (t.mod w.val).state = 2 ∧ (t.mod w.val).stage = 15 ∧ (t.mod w.val).cause = 1 ∧ (t.pwrMod w.val).obj.st = .winding ∧
        rest t)) ∧
      (s.railOut w.val rail.toNat mv.toNat = false → Runs (.railFault w rail mv) s (fun t => t = s))) ∧
    (p.obj.st = .on →
      (s.wardenRuns (w.val / 8) = true →
        (p.vset < g → p.vtick = 0 ∨ p.vtick - 1 + 2000 ≤ s.win.tb.toNat → Runs (.coreSupplyStep w) s (fun t =>
          ((s.mod w.val).fenceDue = [] → moved (min g (p.vset + 10)) t ∧ rest t) ∧
          (700 ≤ p.vset ∨ min g (p.vset + 10) < 700 → moved (min g (p.vset + 10)) t ∧ one t))) ∧
        (g < p.vset → p.vtick = 0 ∨ p.vtick - 1 + 2000 ≤ s.win.tb.toNat → Runs (.coreSupplyStep w) s (fun t =>
          moved (max g (p.vset - 10)) t ∧ one t)) ∧
        (p.vset = g → Runs (.coreSupplyStep w) s (fun t => t = s)))) ∧
    (s.wardenRuns (w.val / 8) = true → ∀ power : BitVec 12,
      let cap := (s.capEff w.val).1
      Runs (.capControllerWindow w power) s (fun t => one t ∧ (t.pwrMod w.val).peak = max p.peak power.toNat ∧
        (t.pwrMod w.val).sum1 = p.sum1 + power.toNat ∧
        (cap < power.toNat → (t.pwrMod w.val).ctrl = max 700 (p.ctrl - 10)) ∧
        (power.toNat ≤ cap → power.toNat * 100 < cap * 95 → 9 ≤ p.low →
          (t.pwrMod w.val).ctrl = min s.machCeil (p.ctrl + 10)) ∧
        (power.toNat ≤ cap → cap * 95 ≤ power.toNat * 100 ∨ p.low < 9 → (t.pwrMod w.val).ctrl = p.ctrl)))) ∧
  (∀ (s : State) (trays : List (BitVec 14 × BitVec 14)) (pumps : BitVec 16) (high : BitVec 18), trays.length = 18 →
    Runs (.powerSpanEnd 0 trays pumps high) s (fun t =>
      t.pwr.avg1 = (trays.map (fun x => x.1.toNat)).sum + pumps.toNat ∧ t.pwr.peak = max s.pwr.peak high.toNat ∧
      t.pwr.avg60 = s.pwr.avg60 ∧
      ∀ u, u < 18 → s.wardenRuns u = true → (t.tray u).avg1 = (trays.getD u (0, 0)).1.toNat) ∧
    Runs (.powerSpanEnd 1 trays pumps high) s (fun t =>
      t.pwr.avg60 = (trays.map (fun x => x.1.toNat)).sum + pumps.toNat ∧ t.pwr.avg1 = s.pwr.avg1) ∧
    Runs (.powerSpanEnd 2 trays pumps high) s (fun t =>
      t.pwr.avg900 = (trays.map (fun x => x.1.toNat)).sum + pumps.toNat ∧ t.pwr.avg60 = s.pwr.avg60))

/-- A sample in mV moves the level as Table 16-4 states: level 1 is entered below 47.0 V and left at 47.5 V, level 2 below 44.0 V
and left at 44.5 V to level 1, level 3 is not left; a sample below 41.0 V starts the 20 ms unless they run, another stops
them. 20 ms (2,000,000 ticks) below 41.0 V power the machine down at level 3 with every tray's contactor open and no read
outstanding, and with a battery of 20 % and the log available the deferred items are stored. A tray's undervoltage opens its
contactor and sets SAFETY for its modules. Deferred writes commit at level 0 and wait at any other. The battery's charge is
held, one of 0 without power loses the store key, and a charge below 20 % is told once. Derived: R588, R589, R592, R736, R752. -/
def Obligations.SagLevelsHoldAndBattery : Prop :=
  (∀ (s : State) (mv : BitVec 16), s.boot.powered = true → Runs (.sagSample mv) s (fun t =>
    let v := mv.toNat
    t = { told s t with pwr := { (told s t).pwr with
      mv := mv, sag := t.pwr.sag, below := t.pwr.below, deferCnt := t.pwr.deferCnt, crawlCnt := t.pwr.crawlCnt } } ∧
    (s.pwr.sag = 0 → t.pwr.sag = (if v < 44000 then 2 else if v < 47000 then 1 else 0)) ∧
    (s.pwr.sag = 1 → t.pwr.sag = (if v < 44000 then 2 else if v < 47500 then 1 else 0)) ∧
    (s.pwr.sag = 2 → t.pwr.sag = (if v < 44500 then 2 else if v < 47500 then 1 else 0)) ∧
    (s.pwr.sag = 3 → t.pwr.sag = 3) ∧
    (v < 41000 → s.pwr.below = 0 → t.pwr.below = s.win.tb.toNat + 1) ∧
    (v < 41000 → s.pwr.below ≠ 0 → t.pwr.below = s.pwr.below) ∧ (41000 ≤ v → t.pwr.below = 0))) ∧
  (∀ s : State, s.boot.powered = true → s.pwr.below ≠ 0 → s.pwr.below - 1 + 2000000 ≤ s.win.tb.toNat →
    Runs .holdTimerExpiry s (fun t => t.boot.powered = false ∧ t.pwr.sag = 3 ∧ t.reads = [] ∧ t.chans = [] ∧
      (∀ u, u < 17 → (t.tray u).contactor = false) ∧
      (20 ≤ s.pwr.battery → s.stw.unavail = false → Tab.wf none s.pwr.items = true →
        ∀ off v, tget none off s.pwr.items = some v → tget none off t.store = some v))) ∧
  (∀ (s : State) (u : Fin 17), (s.tray u.val).contactor = true → Runs (.trayUndervoltage u) s (fun t =>
    (t.tray u.val).contactor = false ∧ ∀ w ∈ trayMods u.val, (t.pwrMod w).safety = true ∧
      (s.modServing w = true → (t.mod w).state = 2 ∧ (t.mod w).stage = 15 ∧ (t.mod w).cause = 3))) ∧
  (∀ s : State,
    (s.pwr.sag = 0 → Runs .deferredWriteCommit s (fun t => t.pwr.items = [] ∧ t.pwr.image = 0 ∧
      (∀ c, c < 3 → (t.stew c).deferred = [] ∧ (t.stew c).gap = 0) ∧
      (Tab.wf none s.pwr.items = true → ∀ off, tget none off s.pwr.items = none → tget none off t.store = tget none off s.store) ∧
      (Tab.wf none s.pwr.items = true → ∀ off v, tget none off s.pwr.items = some v → tget none off t.store = some v))) ∧
    (s.pwr.sag ≠ 0 → Runs .deferredWriteCommit s (fun t => t = s))) ∧
  (∀ (s : State) (charge : BitVec 7),
    Runs (.battLowCondition charge) s (fun t => t = { s with
      pwr := { s.pwr with battery := min 100 charge.toNat }, keys := { s.keys with storeLost := t.keys.storeLost } } ∧
      (t.keys.storeLost = true ↔ s.keys.storeLost = true ∨ (charge = 0 ∧ s.boot.powered = false))) ∧
    Runs (.batteryLow charge) s (fun t =>
      t = { told s t with pwr := { (told s t).pwr with battery := min 100 charge.toNat }, keys := { s.keys with
        battTold := t.keys.battTold, storeLost := t.keys.storeLost } } ∧
      (t.keys.storeLost = true ↔ s.keys.storeLost = true ∨ (charge = 0 ∧ s.boot.powered = false)) ∧
      (charge.toNat < 20 → s.boot.powered = true → t.keys.battTold = true) ∧
      (charge.toNat < 20 → s.keys.battTold = true → t.out = s.out ∧ t.mevHeld = s.mevHeld) ∧ (20 ≤ charge.toNat → t.keys.battTold = false)))

/-- A control period of a healthy authority publishes its own pump speed, from 30 to 100 % (100 % while a pump is stopped), and
valve position, and holds the CDU's readings. An order on which two qualified channels agree is applied to a pump, a valve or
a shelf, and opens or closes a contactor, no safety action holding it; a stopped pump follows none. Where two or more disagree
for 100 ms (10,000,000 ticks), no channel disqualified and cooling not forced, a pump or CDU valve takes the highest. A pump
that stops is set to 0 and the other, unless it has stopped too, to 100 %; one that stops again in a retry is set to 0; it is
tried again every 60 s and rejoins at the common speed. The reservoir falling below 10 % opens the contactor and closes the
valve of every tray present; the CDU's own leak only sets its condition. The CDU's watchdog, with fewer than two channels up,
forces both pumps and the valve to 100 % once. Derived: R609, R610, R612, R614, R632, R649, R650, R651. -/
def Obligations.CoolingIsOrderedAndVoted : Prop :=
  (∀ (s : State) (r : CduRead) (own : List (BitVec 7 × BitVec 7)),
    let a := s.stw.cool
    Runs (.coolingControlPeriod r own) s (fun t => t.therm.cduFlow = r.flow.toNat ∧ t.therm.cduSupply = r.supply.toInt ∧
      t = { s with therm := t.therm, stw := { s.stw with coolOrder := t.stw.coolOrder, chans := t.stw.chans } } ∧
      (own.length = 3 → a < 3 → (s.stew a).up = true →
        t.stw.coolOrder = (if s.therm.fault0 || s.therm.fault1 then 100 else max 30 (min 100 (own.getD a (0, 0)).1.toNat),
          min 100 (own.getD a (0, 0)).2.toNat) ∧
        (t.stew a).order = t.stw.coolOrder) ∧
      (3 ≤ a → t.stw = s.stw))) ∧
  (∀ (s : State) (a : Fin 25) (heard bits : BitVec 3),
    let vs := ([0, 1, 2].filter (fun c => heard.toNat.testBit c && !(s.disq c))).map (fun c => s.orderOf a.val c bits.toNat)
    let since := tget 0 a.val s.stw.noAgree
    let stopped := (a.val = 0 ∧ s.therm.fault0 = true) ∨ (a.val = 1 ∧ s.therm.fault1 = true)
    let y := s.tray (a.val - 7)
    Runs (.actuatorOrderReceipt a heard bits) s (fun t =>
      (∀ v, agreed vs = some v →
        (a.val < 7 → (¬stopped → t.applied a.val = v) ∧ (stopped → t.therm.spd0 = s.therm.spd0 ∧ t.therm.spd1 = s.therm.spd1) ∧
          ∀ b, b ≠ a.val → b < 25 → t.applied b = s.applied b) ∧
        (7 ≤ a.val → v = 0 → t.applied a.val = 0) ∧
        (7 ≤ a.val → v ≠ 0 → s.heldOff (a.val - 7) = false → y.svc ≠ .absent → y.svc ≠ .ready → t.applied a.val = 1)) ∧
      (agreed vs = none → a.val < 3 → ¬stopped → since ≠ 0 → since - 1 + 10000000 ≤ s.win.tb.toNat → 2 ≤ vs.length →
        s.therm.forced = false → (∀ c, c < 3 → s.disq c = false) → t.applied a.val = vs.foldl max 0) ∧
      (agreed vs = none → since = 0 → t.applied a.val = s.applied a.val))) ∧
  (∀ s : State,
    (s.therm.fault0 = false → Runs (.pumpStop 0) s (fun t => t = { told s t with therm := { s.therm with
      fault0 := true, pumpTick0 := s.win.tb.toNat + 1, spd0 := 0, spd1 := if s.therm.fault1 then s.therm.spd1 else 100 } })) ∧
    (s.therm.fault0 = true → Runs (.pumpStop 0) s (fun t => t = { s with therm := { s.therm with spd0 := 0 } })) ∧
    (s.therm.fault1 = true → Runs (.pumpStop 1) s (fun t => t = { s with therm := { s.therm with spd1 := 0 } })) ∧
    (s.therm.fault1 = false → Runs (.pumpStop 1) s (fun t => t = { told s t with therm := { s.therm with
      fault1 := true, pumpTick1 := s.win.tb.toNat + 1, spd1 := 0, spd0 := if s.therm.fault0 then s.therm.spd0 else 100 } })) ∧
    (s.therm.fault0 = true → s.therm.pumpTick0 - 1 + 6000000000 ≤ s.win.tb.toNat → Runs (.pumpRetry 0) s (fun t =>
      t = { s with therm := { s.therm with pumpTick0 := s.win.tb.toNat + 1, spd0 := s.stw.coolOrder.1 } })) ∧
    (s.therm.fault1 = true → s.therm.pumpTick1 - 1 + 6000000000 ≤ s.win.tb.toNat → Runs (.pumpRetry 1) s (fun t =>
      t = { s with therm := { s.therm with pumpTick1 := s.win.tb.toNat + 1, spd1 := s.stw.coolOrder.1 } })) ∧
    (s.therm.fault0 = true → Runs (.pumpRejoin 0) s (fun t =>
      t.therm.fault0 = false ∧ t.therm.spd0 = s.stw.coolOrder.1 ∧ t.therm.spd1 = s.therm.spd1 ∧ t = { told s t with therm := t.therm })) ∧
    (s.therm.fault1 = true → Runs (.pumpRejoin 1) s (fun t =>
      t.therm.fault1 = false ∧ t.therm.spd1 = s.stw.coolOrder.1 ∧ t.therm.spd0 = s.therm.spd0 ∧ t = { told s t with therm := t.therm })) ∧
    (∀ lv : BitVec 7,
      (lv.toNat < 10 → 10 ≤ s.therm.reservoir → Runs (.reservoirLevelChange lv) s (fun t => t.therm.reservoir = lv.toNat ∧
        t.therm.resCut = true ∧ ∀ u, u < 17 → (s.tray u).svc ≠ .absent → (t.tray u).contactor = false ∧ (t.ttherm u).valve = 0)) ∧
      (10 ≤ lv.toNat ∨ s.therm.reservoir < 10 → Runs (.reservoirLevelChange lv) s (fun t =>
        t = { told s t with therm := { s.therm with reservoir := min 100 lv.toNat } }))) ∧
    (∀ wet : Bool, Runs (.cduLeakSensed wet) s (fun t => t = { told s t with therm := { s.therm with cduLeak := wet } })) ∧
    (s.therm.forced = false → s.majority = false → Runs .cduVoterWatchdog s (fun t =>
      t = { told s t with therm := { s.therm with spd0 := 100, spd1 := 100, cduValve := 100, forced := true } })) ∧
    (s.therm.forced = true ∨ s.majority = true → Runs .cduVoterWatchdog s (fun t => t = s)))

/-- A coolant sample holds the tray's figures, the inlet alarm beginning above 32 C and ending at 31 C. A die's sample holds the
valid readings, an invalid one as none, and the die is cold when a valid reading is below -10 C; no other die changes. A
forecaster update not yet made gives each die of the module the level of its prediction and measurement, and moves the
module's limit FLIM 30 mV down at Storm, 10 mV down at Gale, never below 700 mV, and 10 mV up after eight Fair updates, never
above the ceiling. A comparator trip of a die latches it, sets SAFETY and takes the module out with cause 2; one of an
attached tray opens its contactor. A flow below 43 L/min for 5 s (500,000,000 ticks) and a leak open contactors and close
valves. An expired watchdog leaves the warden not running, its valve forced to 100 %, its modules' caps latched, and every
Storm die of its modules in dispatch pause. Derived: R611, R616, R617, R618, R622, R625, R626, R627, R631, R593. -/
def Obligations.HeatIsMeasuredForecastAndCut : Prop :=
  (∀ (s : State) (u : Fin 18) (inlet outlet : BitVec 12) (flow : BitVec 10) (wet : Bool),
    Runs (.trayCoolantSample u inlet outlet flow wet) s (fun t =>
      t = { told s t with therm := { s.therm with trays := t.therm.trays } } ∧ (∀ j, j ≠ u.val → t.ttherm j = s.ttherm j) ∧
      (t.ttherm u.val).inlet = inlet.toInt ∧ (t.ttherm u.val).outlet = outlet.toInt ∧ (t.ttherm u.val).flow = flow.toNat ∧
      (t.ttherm u.val).leak = wet ∧ (t.ttherm u.val).valve = (s.ttherm u.val).valve ∧
      (t.ttherm u.val).inletHigh = (if (s.ttherm u.val).inletHigh then decide (124 < inlet.toInt) else decide (128 < inlet.toInt)))) ∧
  (∀ (s : State) (w : Fin 96) (d : BitVec 2) (readings : List (Option (BitVec 12))),
    let k := w.val * 4 + d.toNat
    let valid := fun (r : Option (BitVec 12)) => r.any (fun v => decide (-160 ≤ v.toInt ∧ v.toInt ≤ 600))
    s.auxUp w.val = true → readings.length = 8 → Runs (.junctionSensorSample w d readings) s (fun t =>
      t = { told s t with therm := { s.therm with dies := t.therm.dies }, boot := { s.boot with
        waitFrom := t.boot.waitFrom, waitSum := t.boot.waitSum } } ∧ (∀ j, j ≠ k → t.die j = s.die j) ∧
      (∀ i, i < 8 → (t.die k).sensors.getD i none =
        if valid (readings.getD i none) then (readings.getD i none).map (·.toInt) else none) ∧
      ((t.die k).cold = true ↔ ∃ r ∈ readings, valid r = true ∧ r.any (fun v => decide (v.toInt < -40)) = true))) ∧
  (∀ (s : State) (w : Fin 96), s.auxUp w.val = true → (s.mtherm w.val).last ≠ s.win.tb.toNat / 25000 + 1 →
    Runs (.forecasterUpdate w) s (fun t =>
      let f := (s.mtherm w.val).flim
      let lv := ([0, 1, 2, 3].map (fun d => (t.die (w.val * 4 + d)).level)).foldl max 0
      (t.mtherm w.val).last = s.win.tb.toNat / 25000 + 1 ∧
      (∀ d, d < 4 → (t.die (w.val * 4 + d)).level =
        bandOf (t.die (w.val * 4 + d)).pred (s.die (w.val * 4 + d)).meas (s.die (w.val * 4 + d)).blind) ∧
      (t.mtherm w.val).flim = (if lv = 3 then max 700 (f - 30) else if lv = 2 then max 700 (f - 10)
        else if lv = 0 ∧ 7 ≤ (s.mtherm w.val).fair then min s.machCeil (f + 10) else f))) ∧
  (∀ (s : State) (u : Fin 17) (slot : BitVec 3) (die : BitVec 2),
    let w := u.val * 8 + slot.toNat
    (u.val < 12 → s.auxUp w = true → Runs (.comparatorTrip u slot die) s (fun t =>
      (t.die (w * 4 + die.toNat)).tripped = true ∧ (t.pwrMod w).safety = true ∧
      (s.modServing w = true → (t.mod w).state = 2 ∧ (t.mod w).stage = 15 ∧ (t.mod w).cause = 2))) ∧
    (12 ≤ u.val → (s.tray u.val).contactor = true → Runs (.comparatorTrip u slot die) s (fun t =>
      (t.ttherm u.val).ot = true ∧ (t.ttherm u.val).valve = 0 ∧ (t.tray u.val).contactor = false)) ∧
    (s.therm.lowFlow ≠ 0 → s.therm.lowFlow - 1 + 500000000 ≤ s.win.tb.toNat → s.therm.flowLost = false →
      Runs .lossOfFlow s (fun t => t.therm.flowLost = true ∧
      ∀ v, v < 17 → (t.tray v).contactor = false ∧ (t.ttherm v).valve = 0)) ∧
    ((s.ttherm u.val).leakCut = false → (s.tray u.val).svc ≠ .absent → Runs (.leakCutoff u) s (fun t =>
      (t.ttherm u.val).leakCut = true ∧ (t.ttherm u.val).valve = 0 ∧ (t.tray u.val).contactor = false ∧
      ∀ m ∈ trayMods u.val, (t.pwrMod m).safety = true))) ∧
  (∀ (s : State) (u : Fin 18), s.wardenRuns u.val = true → Runs (.wardenWatchdogExpiry u) s (fun t =>
    t.wardenRuns u.val = false ∧ (∀ j, j ≠ u.val → t.wardenRuns j = s.wardenRuns j) ∧
    (t.ttherm u.val).valve = 100 ∧ (t.ttherm u.val).forced = true ∧ (t.ttherm u.val).wdg = true ∧
    (∀ m ∈ trayMods u.val, (t.pwrMod m).capLatch = some (s.capEff m)) ∧
    ∀ m ∈ trayMods u.val, ∀ d, d < 4 → (s.die (m * 4 + d)).level = 3 → (t.die (m * 4 + d)).pause = true))

/-- In a heartbeat period not yet judged, a channel that is up and has missed four periods on each path and is heard on neither
fails (state 3); one that is up without alarm and is heard on both stays healthy. If that channel is spokesman and the two
others are heard without alarm, the role passes to the next onward and the epoch counts one. A claim to the role with a higher
epoch stands against the holder, with a lower one it does not, and at equal epochs the earlier channel holds it. A legal
switch-back moves the role to the channel named. A warden that starts in a powered tray is adopted: it then runs, with no
output forced and no cap latched. Derived: R653, R654, R655, R656, R657, R658, R669. -/
def Obligations.RolesPassWithHeartbeats : Prop :=
  (∀ (s : State) (heard : BitVec 6), s.boot.powered = true → s.stw.period ≠ s.win.tb.toNat / 2000000 + 1 →
    let fails := fun (c : Nat) => (s.stew c).up = true ∧ 4 ≤ (s.stew c).missE ∧ 4 ≤ (s.stew c).missS ∧
      heard.getLsbD c = false ∧ heard.getLsbD (3 + c) = false
    let well := fun (c : Nat) => (s.stew c).up = true ∧ (s.stew c).alarmE = false ∧ (s.stew c).alarmS = false ∧
      heard.getLsbD c = true ∧ heard.getLsbD (3 + c) = true
    Runs (.heartbeatPeriod heard) s (fun t => t.stw.period = s.win.tb.toNat / 2000000 + 1 ∧
      (∀ c, c < 3 → (fails c → (t.stew c).st = 3) ∧ (well c → (t.stew c).st = 1)) ∧
      (∀ c, c < 3 → c = s.stw.spokes → fails c → (∀ d, d < 3 → d ≠ c → well d) →
        t.stw.spokes = (c + 1) % 3 ∧ t.stw.epoch = s.stw.epoch + 1))) ∧
  (∀ (s : State) (c : BitVec 2) (epoch : Word),
    let h := s.stw.spokes
    let holds := fun (x : Nat) (e : Word) (t : State) =>
      t = { told s t with stw := { (told s t).stw with spokes := x, epoch := e } }
    h < 3 → c.toNat < 3 → c.toNat ≠ h →
      (s.stw.epoch < epoch → Runs (.heartbeatReceipt c epoch) s (holds c.toNat epoch)) ∧
      (epoch < s.stw.epoch → Runs (.heartbeatReceipt c epoch) s (holds h s.stw.epoch)) ∧
      (epoch = s.stw.epoch → Runs (.heartbeatReceipt c epoch) s (holds (min c.toNat h) epoch))) ∧
  (∀ (s : State) (m : Mgmt) (c : BitVec 2), s.majority = true →
    (c.toNat < 3 → c.toNat ≠ s.stw.spokes → (s.stew c.toNat).st = 1 → Runs (.switchback m c) s (fun t =>
      t.stw.spokes = c.toNat ∧ t.stw.epoch = s.stw.epoch + 1 ∧ t.stw.cool = s.stw.cool)) ∧
    (c.toNat = s.stw.spokes → Runs (.switchback m c) s (fun t => t = answerM m 400 1 [] s))) ∧
  (∀ (s : State) (u : Fin 18),
    (s.boot.powered = true → (s.tray u.val).contactor = true → (s.tray u.val).svc = .inService → s.wardenRuns u.val = false →
      u.val ∉ s.stw.adopting → Runs (.wardenStart u) s (fun t => u.val ∈ t.stw.adopting ∧ (t.tray u.val).strapsRead = true ∧
        t.stw.wardens = s.stw.wardens ∧ t.pwr.mods = s.pwr.mods)) ∧
    (u.val ∈ s.stw.adopting → Runs (.wardenAdoptionDone u) s (fun t => t.wardenRuns u.val = true ∧ u.val ∉ t.stw.adopting ∧
      (t.ttherm u.val).forced = false ∧ (t.ttherm u.val).wdg = false ∧
      ((s.ttherm u.val).leakCut = true → (t.ttherm u.val).valve = (s.ttherm u.val).valve) ∧
      ∀ m ∈ trayMods u.val, (t.pwrMod m).capLatch = none)))

/-- A channel takes the oldest record it has received: into its copy at sag level 0 with none deferred, else among its deferred
records. A copy that fails with nothing deferred is failed, alone, and otherwise awaits the commit; while another works the
log stays available with one gap more, and with none the log is unavailable and every warden's last-words register is written.
A rebuilt copy works, and the log is available again with an empty RAM ring. Each console command under a local account is
answered once with its data: STATUS with channels, roles, epoch, stage and the active codes; LOG with the last n records (20
by default) of the log in order of timebase, channel and sequence number; LASTWORDS with every register. Without the account
it is refused and nothing else changes. Derived: R589, R666, R670, R671, R672, R673. -/
def Obligations.LogCopiesAndConsole : Prop :=
  (∀ (s : State) (c : Fin 3),
    let x := s.stew c.val
    let others := fun (t : State) => ∀ d, d ≠ c.val → t.stew d = s.stew d
    (∀ (r : LogRec) (rest : List LogRec), x.inbox = r :: rest → x.copyOk = true →
      (s.pwr.sag = 0 → x.deferred = [] → Runs (.logRecordAppend c) s (fun t =>
        t.stew c.val = { x with inbox := rest, copy := addCopy r x.copy } ∧ others t)) ∧
      (s.pwr.sag ≠ 0 → x.deferred.length < 4096 → Runs (.logRecordAppend c) s (fun t =>
        t.stew c.val = { x with inbox := rest, deferred := x.deferred ++ [r] } ∧ others t))) ∧
    (x.copyOk = true → s.pwr.sag ≠ 0 ∨ x.deferred ≠ [] → Runs (.logCopyFailed c) s (fun t =>
      t.stew c.val = { x with failDue := true } ∧ others t ∧ t.stw.unavail = s.stw.unavail)) ∧
    (x.copyOk = true → s.pwr.sag = 0 → x.deferred = [] → Runs (.logCopyFailed c) s (fun t => (t.stew c.val).copyOk = false ∧
      (t.stew c.val).lastGood = lastTb x.copy ∧ (∀ d, d ≠ c.val → (t.stew d).copyOk = (s.stew d).copyOk) ∧
      ((∃ d, d < 3 ∧ d ≠ c.val ∧ (s.stew d).copyOk = true) → t.stw.gaps = s.stw.gaps + 1 ∧ t.stw.unavail = s.stw.unavail) ∧
      ((∀ d, d < 3 → d ≠ c.val → (s.stew d).copyOk = false) →
        t.stw.unavail = true ∧ ∀ u, u < 18 → tget none u t.stw.words ≠ none))) ∧
    (x.copyOk = false → Runs (.logCopyRebuilt c) s (fun t => (t.stew c.val).copyOk = true ∧ t.stw.unavail = false ∧
      (s.stw.unavail = true → t.stw.ram = [] ∧ t.stw.gaps = s.stw.gaps + 1) ∧ (s.stw.unavail = false → t.stw.ram = s.stw.ram)))) ∧
  (∀ (s : State) (account : Nat) (n : Option Nat), s.served = true →
    let l := s.eventLog
    let tells := fun (body : List Nat) (t : State) =>
      t = { logged s t with out := s.out ++ [.answer (2 ^ 32 + account) 0 body] }
    l.Perm (if s.stw.unavail then s.stw.ram else (s.stew s.stw.spokes).copy) ∧ l.Pairwise (fun a b => a.before b = true) ∧
    (s.stw.accounts.any (fun x => x.1 == account) = true →
      Runs (.consoleStatus account) s (tells ([0, 1, 2].map (fun c => (s.stew c).st.toNat) ++
        [s.stw.spokes, s.stw.cool, s.stw.epoch.toNat, s.boot.stage, s.boot.st.toNat] ++ s.allCodes)) ∧
      Runs (.consoleLog account n) s (tells ((l.drop (l.length - n.getD 20)).map recNums).flatten) ∧
      Runs (.consoleLastwords account) s (tells ((List.range 18).map (fun u => (tget none u s.stw.words).elim [0] recNums)).flatten)) ∧
    (s.stw.accounts.any (fun x => x.1 == account) = false → Runs (.consoleStatus account) s (fun t =>
      t = emit (.answer (2 ^ 32 + account) 1 []) s)))

/-- While a channel serves: a GET of a resource that exists is answered with 200 and one of none with 404, majority or not. With a
majority: a session is created for matching credentials while fewer than 16 are open (else 503; 401 for others); the account,
session, timeout, subscription, certificate and NTP operations change the record of intent as named; DateTime sets the clock's
pair of timebase and UTC. Without one such an operation is answered with 503 and changes nothing else. An NTP step sets the
clock when it is the first or differs by more than 1 s, and not otherwise. A session idle for its timeout ends, and no other
session. Derived: R659, R661, R662, R664, R680. -/
def Obligations.RedfishServesAndRecords : Prop :=
  (∀ (s : State) (session row i : Nat), s.served = true →
    (∀ b, s.resource row i = some b → Runs (.redfishGet session row i) s (fun t => t = rfAnswer session 200 b s)) ∧
    (s.resource row i = none → Runs (.redfishGet session row i) s (fun t => t = rfAnswer session 404 [] s))) ∧
  (∀ (s : State) (account password : Nat), s.served = true → s.majority = true →
    let n := s.stw.nextSess
    let hit := s.stw.accounts.find? (fun x => x.1 == account && x.2.1 == password)
    (∀ x, hit = some x → s.stw.sessions.length < 16 → Runs (.redfishSessionCreate account password) s (fun t =>
      t.stw.sessions.length = s.stw.sessions.length + 1 ∧ t.stw.nextSess = n + 1 ∧
      (∃ y ∈ t.stw.sessions, y.id = n ∧ y.account = account ∧ y.role = x.2.2) ∧
      t.out = s.out ++ [.answer n 201 [n]] ∧ t.stw.accounts = s.stw.accounts)) ∧
    (∀ x, hit = some x → 16 ≤ s.stw.sessions.length → Runs (.redfishSessionCreate account password) s (fun t =>
      t = rfAnswer n 503 [] s)) ∧
    (hit = none → Runs (.redfishSessionCreate account password) s (fun t => t = rfAnswer n 401 [] s))) ∧
  (∀ (s : State) (session a p r n d v c : Nat) (l : List Nat) (utc : DWord), s.served = true →
    (s.majority = true →
      ((∀ x ∈ s.stw.accounts, x.1 ≠ a) → r ≤ 2 → Runs (.redfishStandardOperation session (.accountCreate a p r)) s (fun t =>
        t.stw.accounts = s.stw.accounts ++ [(a, p, r)])) ∧
      ((∃ x ∈ s.stw.accounts, x.1 = a) → Runs (.redfishStandardOperation session (.accountDelete a)) s (fun t =>
        ∀ x, x ∈ t.stw.accounts ↔ x ∈ s.stw.accounts ∧ x.1 ≠ a)) ∧
      ((∃ x ∈ s.stw.sessions, x.id = n) → Runs (.redfishStandardOperation session (.sessionDelete n)) s (fun t =>
        ∀ x ∈ t.stw.sessions, x.id ≠ n)) ∧
      (v ≠ 0 → Runs (.redfishStandardOperation session (.sessionTimeout v)) s (fun t => t.stw.sessTimeout = v)) ∧
      (s.stw.subs.length < 8 → (∀ x ∈ s.stw.subs, x.1 ≠ n) → Runs (.redfishStandardOperation session (.subscribe n d)) s (fun t =>
        t.stw.subs = s.stw.subs ++ [(n, d)])) ∧
      ((∃ x ∈ s.stw.subs, x.1 = n) → Runs (.redfishStandardOperation session (.unsubscribe n)) s (fun t =>
        ∀ x ∈ t.stw.subs, x.1 ≠ n)) ∧
      Runs (.redfishStandardOperation session (.certificate c)) s (fun t => c ∈ t.stw.certs) ∧
      Runs (.redfishStandardOperation session (.ntpServers l)) s (fun t => t.stw.ntp = l) ∧
      Runs (.datetimeSet session utc) s (fun t => t.stw.clock = some (s.win.tb, utc) ∧ t.win = s.win)) ∧
    (s.majority = false →
      Runs (.redfishStandardOperation session (.ntpServers l)) s (fun t => t = rfAnswer session 503 [] s) ∧
      Runs (.datetimeSet session utc) s (fun t => t = rfAnswer session 503 [] s))) ∧
  (∀ (s : State) (utc : DWord) (n : Nat),
    (s.stw.clock = none → Runs (.ntpStep utc) s (fun t => t.stw.clock = some (s.win.tb, utc))) ∧
    (∀ b u, s.stw.clock = some (b, u) →
      let off : Int := (utc.toNat : Int) - ((u.toNat : Int) + ((s.win.tb.toNat : Int) - b.toNat) * 10)
      (1000000000 < off.natAbs → Runs (.ntpStep utc) s (fun t => t.stw.clock = some (s.win.tb, utc))) ∧
      (off.natAbs ≤ 1000000000 → Runs (.ntpStep utc) s (fun t => t = s))) ∧
    Runs (.redfishSessionTimeout n) s (fun t => t = { s with stw := { s.stw with sessions := t.stw.sessions } } ∧
      ∀ x, x ∈ t.stw.sessions ↔ x ∈ s.stw.sessions ∧ ¬(x.id = n ∧ x.tick.toNat + s.stw.sessTimeout * 100000000 ≤ s.win.tb.toNat)))

/-- A corrected error that the patrol scrub finds in a unit of a module in service counts once for its column's row and for the
machine; an uncorrectable one counts once and, with a spare row left, poisons the unit and begins its row's copy; a clean unit
changes nothing. A row copy that ends leaves the copy list, and counts one repair for the machine and the isle. A stalled
command processor, not below 0.70 V, takes its module out with cause 6. RETEST of a module out of service by a cause it may
cure raises it, or lowers and raises it again; of one in service it is ignored with cause 5, of a window above 95 with cause
3. At the end of its tests, no die cold and not below 0.70 V, the module enters service, or stays out with the stage and cause
found. Derived: R695, R696, R699, R700, R575. -/
def Obligations.ColumnsRowsAndModulesAreRepaired : Prop :=
  (∀ (s : State) (w : Fin 96) (die isle : BitVec 2) (unit : BitVec 27),
    let g := isleKey w.val die.toNat isle.toNat
    let k := s.colOf g (unitSlot unit.toNat)
    (s.modServing (g / 16) = true → s.badUnits.contains (unitKey g unit.toNat) = false →
      Runs (.patrolScrubPass w die isle unit 2) s (fun t => t.flt.colUe = satInc s.flt.colUe ∧ t.flt.colCe = s.flt.colCe ∧
        ((s.colm k).used < 64 → t.badUnits = s.badUnits ++ [unitKey g unit.toNat] ∧ unitRow unit.toNat ∈ (t.colm k).copying)) ∧
      Runs (.patrolScrubPass w die isle unit 1) s (fun t => t.flt.colCe = satInc s.flt.colCe ∧ t.flt.colUe = s.flt.colUe ∧
        tget 0 (unitRow unit.toNat) (t.colm k).ce = tget 0 (unitRow unit.toNat) (s.colm k).ce + 1 ∧ t.badUnits = s.badUnits ∧
        t.cols = s.cols)) ∧
    Runs (.patrolScrubPass w die isle unit 0) s (fun t => t = s)) ∧
  (∀ (s : State) (w : Fin 96) (die isle : BitVec 2) (slot : BitVec 4) (row : BitVec 16),
    let g := isleKey w.val die.toNat isle.toNat
    let k := s.colOf g slot.toNat
    row.toNat ∈ (s.colm k).copying → Runs (.rowRepairDone w die isle slot row) s (fun t =>
      row.toNat ∉ (t.colm k).copying ∧ t.flt.rowRepairs = satInc s.flt.rowRepairs ∧ (t.isle g).repaired = (s.isle g).repaired + 1 ∧
      (∀ j, j ≠ k → t.colm j = s.colm j) ∧ t.badUnits = s.badUnits ∧ t.cols = s.cols)) ∧
  (∀ (s : State) (w : Fin 96) (die : BitVec 2), s.modServing w.val = true → s.paused w.val = false → Runs (.commandProcessorStall w die) s (fun t =>
    (t.mod w.val).state = 2 ∧ (t.mod w.val).stage = 15 ∧ (t.mod w.val).cause = 6 ∧ (t.pwrMod w.val).obj.st ≠ .on)) ∧
  (∀ (s : State) (port : BitVec 4) (val : Word), s.takesWrites = true →
    let w := Fld val 0 7
    (95 < w → Runs (.moduleRetest port val) s (fun t => t = ignoreAcc 3 port.toNat 0 true 0x130004 false s)) ∧
    (w ≤ 95 → bit val 8 = true → s.modServing w = true → Runs (.moduleRetest port val) s (fun t =>
      t = ignoreAcc 5 port.toNat 0 true 0x130004 false s)) ∧
    (w ≤ 95 → bit val 8 = true → (s.mod w).state = 2 → s.modInPart w = false → (s.tray (w / 8)).svc = .inService →
      (s.mod w).notByRetest = false → Runs (.moduleRetest port val) s (fun t =>
        (t.mod w).retest = true ∧ (t.mod w).state = 2 ∧ (∀ j, j ≠ w → t.mod j = s.mod j ∧ t.pwrMod j = s.pwrMod j) ∧
        ((s.pwrMod w).obj.st = .off → (s.pwrMod w).rising = false → (s.pwrMod w).testing = false → s.canRise w = true →
          (t.pwrMod w).rising = true) ∧
        ((s.pwrMod w).obj.st ≠ .off ∨ (s.pwrMod w).rising = true ∨ (s.pwrMod w).testing = true → (t.pwrMod w).obj = { st := .winding, pending := true })))) ∧
  (∀ (s : State) (w : Fin 96) (items : List BootItem), (s.tray (w.val / 8)).svc = .inService → (s.pwrMod w.val).testing = true →
    s.paused w.val = false → s.coldMod w.val = false →
    ((testModule w.val items s).1 = none → s.ordersOn w.val = true → Runs (.retestComplete w items) s (fun t =>
      (t.mod w.val).state = 1 ∧ (t.mod w.val).cause = 0 ∧ (t.mod w.val).retest = false ∧ (t.pwrMod w.val).testing = false ∧
      (t.pwrMod w.val).obj.st = .on)) ∧
    (∀ stage cause, (testModule w.val items s).1 = some (stage, cause) → Runs (.retestComplete w items) s (fun t =>
      (t.mod w.val).state = 2 ∧ (t.mod w.val).stage = BitVec.ofNat 4 stage ∧ (t.mod w.val).cause = BitVec.ofNat 4 cause ∧
      (t.pwrMod w.val).testing = false)))

/-- PREPARE of an attached or compute tray IN_SERVICE, legal by R702, makes it PREPARING with its links fenced or failed and every
module that was in service out with cause 8; of the Sound or the steward bay it is ignored with cause 3, and when illegal with
cause 5. A prepared tray whose modules are down and whose links are in the map becomes READY, with a majority, with its
contactor open. CANCEL makes it JOINING. A tray that leaves its slot is ABSENT with its contactor open and its modules absent.
A tray inserted into an empty slot is JOINING with the modules it carries and their fuses. A joining tray whose modules have
risen, none of them below 0.70 V or with a cold die, enters service with its warden running; with a silent warden or a type
mismatch it has FAILED, in the second case with its warden running and its straps read. Derived: R560, R701, R702, R703, R704,
R705, R706. -/
def Obligations.TraysAreServicedRemovedAndJoin : Prop :=
  (∀ (s : State) (port : BitVec 4) (u : Fin 18), s.takesWrites = true →
    let off := 0x131000 + 4 * u.val
    (16 ≤ u.val → Runs (.trayPrepare port u) s (fun t => t = ignoreAcc 3 port.toNat 0 true off false s)) ∧
    (u.val < 16 → (s.tray u.val).svc = .inService → s.prepareBad u.val = true → Runs (.trayPrepare port u) s (fun t =>
      t = ignoreAcc 5 port.toNat 0 true off false s)) ∧
    (u.val < 16 → (s.tray u.val).svc = .inService → s.prepareBad u.val = false → Runs (.trayPrepare port u) s (fun t =>
      (t.tray u.val).svc = .preparing ∧ (∀ j, j ≠ u.val → t.tray j = s.tray j) ∧
      (∀ l ∈ trayPorts u.val, (t.link (linkKey s.sh.shape l)).fenced = true ∨ (t.link (linkKey s.sh.shape l)).failed = true) ∧
      ∀ w ∈ trayMods u.val, s.modServing w = true → (t.mod w).state = 2 ∧ (t.mod w).cause = 8)) ∧
    ((s.tray u.val).svc = .preparing ∨ (s.tray u.val).svc = .ready → Runs (.trayCancel port u) s (fun t =>
      (t.tray u.val).svc = .joining ∧ ∀ j, j ≠ u.val → t.tray j = s.tray j)) ∧
    ((s.tray u.val).svc = .inService → Runs (.trayCancel port u) s (fun t => t = logged s t))) ∧
  (∀ (s : State) (u : Fin 18), (s.tray u.val).svc = .preparing → s.majority = true → s.trayReloads u.val = false →
    (∀ w ∈ trayMods u.val, (s.pwrMod w).obj.st = .off ∧ (s.pwrMod w).rising = false) →
    (∀ l ∈ trayPorts u.val, (s.link (linkKey s.sh.shape l)).inMap = true) → Runs (.trayReady u) s (fun t =>
      (t.tray u.val).svc = .ready ∧ (t.tray u.val).contactor = false ∧ ∀ j, j ≠ u.val → t.tray j = s.tray j)) ∧
  (∀ (s : State) (u : Fin 17), (s.tray u.val).svc ≠ .absent → Runs (.trayRemoval u) s (fun t =>
    (t.tray u.val).svc = .absent ∧ (t.tray u.val).contactor = false ∧ (∀ j, j ≠ u.val → t.tray j = s.tray j) ∧
    ∀ w ∈ trayMods u.val, (t.mod w).state = 0)) ∧
  (∀ (s : State) (u : Fin 18) (straps : Word) (slots : List (Option ModFuse)), (s.tray u.val).svc = .absent →
    Runs (.trayInsertion u straps slots) s (fun t => (t.tray u.val).svc = .joining ∧ (∀ j, j ≠ u.val → t.tray j = s.tray j) ∧
      (t.tray u.val).mismatch = decide (Fld straps 5 3 ≠ trayType u.val) ∧
      ∀ w ∈ trayMods u.val,
        (∀ f, slots.getD (w % 8) none = some f → (t.mod w).state = 2 ∧ t.modFuse w = f.fuse) ∧
        (slots.getD (w % 8) none = none → (t.mod w).state = 0))) ∧
  (∀ (s : State) (u : Fin 18) (items : List BootItem), (s.tray u.val).svc = .joining → s.boot.st ≠ 0 →
    (s.tray u.val).contactor = true → (∀ w ∈ trayMods u.val, (s.pwrMod w).rising = false ∧
      ((s.pwrMod w).obj.st = .on → s.paused w = false ∧ s.coldMod w = false)) →
    ((s.tray u.val).mismatch = false → (∀ b ∈ items, b.tray = u.val → b.stage ≠ 2) → Runs (.trayJoinComplete u items) s (fun t =>
      (t.tray u.val).svc = .inService ∧ t.wardenRuns u.val = true ∧ ∀ j, j ≠ u.val → t.tray j = s.tray j)) ∧
    ((∃ b ∈ items, b.tray = u.val ∧ b.stage = 2 ∧ b.cause = 2) → Runs (.trayJoinComplete u items) s (fun t =>
      (t.tray u.val).svc = .failed ∧ (t.tray u.val).strapsRead = false)) ∧
    ((s.tray u.val).mismatch = true → (∀ b ∈ items, b.tray = u.val → b.stage ≠ 2) → Runs (.trayJoinComplete u items) s (fun t =>
      (t.tray u.val).svc = .failed ∧ (t.tray u.val).strapsRead = true ∧ t.wardenRuns u.val = true)))

/-- On a powered machine, no restart running, GO and FORGET are ignored with cause 4 while a load is BUSY, and with cause 5 in
whiteout, while the service is not READY, or while the tenant has an ON partition; otherwise GO sets BUSY and reads 256 bytes
through PF0 of the control host's port, and FORGET erases a loaded key and counts one generation, or changes no key. A blob
read ends the load with the RESULT it is judged to have, 6 where the read failed; RESULT 0 loads the key and counts one
generation. ROTATE_WK is ignored with cause 5 while BUSY or in whiteout; a rotation that ends makes the next generation. A
slot write not acknowledged is retried; one that is acknowledged 1 ms (100,000 ticks) later ends the retry, and after 20 ms
the module leaves service with cause 11. Derived: R722, R724, R726, R727, R729. -/
def Obligations.KeysAreLoadedForgottenAndWritten : Prop :=
  (∀ (s : State) (port n : BitVec 4), s.takesWrites = true →
    let on := (s.partsOf n.toNat).any (fun p => (s.part p).obj.st == .on)
    let refused := fun (c : Nat) (t : State) => t = ignoreAcc c port.toNat 0 true 0xA1008 false s
    (s.keys.busy = true → Runs (.keyLoad port n) s (refused 4) ∧ Runs (.keyForget port n) s (refused 4)) ∧
    (s.keys.busy = false → s.keys.white = true ∨ s.keys.ready = false ∨ on = true →
      Runs (.keyLoad port n) s (refused 5) ∧ Runs (.keyForget port n) s (refused 5)) ∧
    (s.keys.busy = false → s.keys.white = false → s.keys.ready = true → on = false →
      Runs (.keyLoad port n) s (fun t => t.keys = { s.keys with busy := true, loadTen := n } ∧ t.tens = s.tens ∧
        tget none s.nextRead t.reads = some {
          tenant := none, port := s.ctlPort, fn := 0, addr := s.keys.loadSrc, len := 256, purpose := .blob
          sent := s.ctlCan, tick := s.win.tb }) ∧
      Runs (.keyForget port n) s (fun t => t.keys = { s.keys with loadTen := n, result := 0 } ∧
        (t.ten n.toNat).keyLoaded = false ∧
        (t.ten n.toNat).keyGen = (if (s.ten n.toNat).keyLoaded then (s.ten n.toNat).keyGen + 1 else (s.ten n.toNat).keyGen) ∧
        ∀ j, j ≠ n.toNat → t.ten j = s.ten j)) ∧
    (s.keys.busy = true ∨ s.keys.white = true → Runs (.rotateWk port) s (fun t =>
      t = ignoreAcc 5 port.toNat 0 true 0xA0050 false s)) ∧
    (s.keys.busy = false → s.keys.white = false → Runs (.rotateWk port) s (fun t =>
      t = { logged s t with keys := { s.keys with rotating := true } }))) ∧
  (∀ (s : State) (id : Nat) (h : HRead) (blob : List Byte), s.readFor (fun u => u == .blob) = some (id, h) → s.keys.busy = true →
    h.sent = true →
    let n := s.keys.loadTen.toNat
    Runs (.keyBlobJudged [] true) s (fun t => t.keys = { s.keys with busy := false, result := 6 } ∧ t.tens = s.tens) ∧
    (blob.length = 256 → Runs (.keyBlobJudged blob false) s (fun t =>
      t.keys = { s.keys with busy := false, result := BitVec.ofNat 4 (s.blobResult n blob) } ∧
      (s.blobResult n blob ≠ 0 → t.tens = s.tens) ∧
      (s.blobResult n blob = 0 → (t.ten n).keyLoaded = true ∧ (t.ten n).keyGen = (s.ten n).keyGen + 1 ∧
        ∀ j, j ≠ n → t.ten j = s.ten j)))) ∧
  (∀ s : State, s.keys.rotating = true → Runs .wrappingKeyRotated s (fun t =>
    t.keys = { s.keys with rotating := false, wkgen := s.keys.wkLast + 1, wkLast := s.keys.wkLast + 1 } ∧ t.tens = s.tens)) ∧
  (∀ (s : State) (w : Fin 96) (t0 : DWord),
    (s.slotWrites w.val = true → (s.mod w.val).keyRetry = none → Runs (.keySlotWriteTimeout w) s (fun t =>
      t.mod w.val = { s.mod w.val with keyRetry := some s.win.tb } ∧ (∀ j, j ≠ w.val → t.mod j = s.mod j) ∧
      t = { told s t with mods := t.mods })) ∧
    ((s.mod w.val).keyRetry = some t0 →
      (t0.toNat + 100000 ≤ s.win.tb.toNat → Runs (.keySlotWriteRetry w true) s (fun t =>
        t.mod w.val = { s.mod w.val with keyRetry := none } ∧ (∀ j, j ≠ w.val → t.mod j = s.mod j) ∧ t = { s with mods := t.mods })) ∧
      (t0.toNat + 2000000 ≤ s.win.tb.toNat → s.modServing w.val = true → Runs (.keySlotRetryExhausted w) s (fun t =>
        (t.mod w.val).state = 2 ∧ (t.mod w.val).stage = 15 ∧ (t.mod w.val).cause = 11))))

/-- While a port's mailbox answers (power, stage 11 complete, the bridge ready), discovery, the digests, the certificate chain of
slot 0 by offset and length, a challenge of slot 0 and the measurements asked for are answered once through that port, a
signature covering the nonce; another certificate slot, an index of none and any other request are answered with ERROR.
Nothing else changes. Before that no request is answered. The response codes are the model's (log 31); digests, chains,
images' measurements and signatures are not fixed by the model (log 25). Derived: R730, R731, R732. -/
def Obligations.MailboxAnswersAttestation : Prop :=
  ∀ (s : State) (port slot : BitVec 4) (off len : BitVec 16) (nonce : BitVec 256) (index : BitVec 8) (sign : Bool),
    let says_ := fun (code : Nat) (body : List Nat) (t : State) =>
      t = { s with out := s.out ++ [.answer (2 ^ 33 + port.toNat) code body] }
    (s.mailbox port.toNat = true →
      Runs (.doeDiscovery port) s (says_ 0 [1, 0, 1, 1]) ∧
      Runs (.getDigests port) s (says_ 1 (Config.spdmDigest 0)) ∧
      Runs (.getCertificate port 0 off len) s (says_ 2 ((Config.spdmChain.drop off.toNat).take len.toNat)) ∧
      (slot ≠ 0 → Runs (.getCertificate port slot off len) s (says_ 0x7F [7]) ∧
        Runs (.challenge port slot 0 nonce) s (says_ 0x7F [7])) ∧
      Runs (.challenge port 0 0 nonce) s (says_ 3 (Config.spdmSign [nonce.toNat, 0])) ∧
      (∀ m, s.measured index.toNat = some m → Runs (.getMeasurements port index sign nonce) s
        (says_ 0x60 (m ++ if sign then Config.spdmSign (nonce.toNat :: m) else []))) ∧
      (∀ i, 1 ≤ i → i ≤ 10 → s.measured i = some (s.measurement i)) ∧
      (s.measured index.toNat = none → Runs (.getMeasurements port index sign nonce) s (says_ 0x7F [7])) ∧
      Runs (.spdmUnsupportedRequest port) s (says_ 0x7F [7])) ∧
    (s.mailbox port.toNat = false →
      Runs (.doeDiscovery port) s (fun t => t = s) ∧ Runs (.spdmUnsupportedRequest port) s (fun t => t = s) ∧
      Runs (.getDigests port) s (fun t => t = s) ∧ Runs (.getCertificate port slot off len) s (fun t => t = s) ∧
      Runs (.challenge port slot 0 nonce) s (fun t => t = s) ∧ Runs (.getMeasurements port index sign nonce) s (fun t => t = s))

/-- A sensed lid switch that closes outside whiteout enters it: WHITEOUT set, READY and the wrapping-key generation 0, the lid and
one more whiteout recorded, no module holding a transport key, no entry of the key store to be unsealed any more and, with
power, no tenant a loaded key. In whiteout it adds its lid. A switch that opens clears its place. A completed re-arm ends
whiteout with READY set, LIDS clear, the count kept and the next wrapping-key generation. A tilt trip sets the latch;
MOVING_CLR and its management forms, which need a majority, clear it where the sensor has been still for 60 s or the latch is
clear, and are otherwise ignored with cause 5 or refused. OWNER LOCK takes an Administrator's order with a majority, and no
other account's. Derived: R734, R735, R738, R740, R753, R767, R768. -/
def Obligations.WhiteoutTiltAndOwnerLock : Prop :=
  (∀ (s : State) (u : Fin 18), s.lidSensed u.val = true →
    (s.keys.white = false → Runs (.lidSwitchClose u true) s (fun t => t.keys.white = true ∧ t.keys.ready = false ∧
      t.keys.wkgen = 0 ∧ t.keys.count = satInc s.keys.count ∧ t.keys.lids = s.keys.lids ||| lidBit u.val ∧
      (∀ w, w < 96 → (t.mod w).keyTransport = false ∧ (t.mod w).keyTen = 0) ∧
      (∀ n, n < 16 → s.stored (keyItem n) 0 ≠ 0 → (s.stored (keyItem n) 0).toNat ∈ t.keys.stale) ∧
      (s.boot.powered = true → ∀ n, n < 16 → (t.ten n).keyLoaded = false))) ∧
    (s.keys.white = true → Runs (.lidSwitchClose u true) s (fun t =>
      t.keys = { s.keys with closed := s.keys.closed ||| lidBit u.val, lids := s.keys.lids ||| lidBit u.val, openTick := 0,
                             rearming := false })) ∧
    Runs (.lidSwitchClose u false) s (fun t => t.keys.closed = s.keys.closed &&& ~~~(lidBit u.val) ∧ t.keys.white = s.keys.white ∧
      t = { s with keys := { s.keys with closed := t.keys.closed, openTick := t.keys.openTick } })) ∧
  (∀ s : State, s.keys.rearming = true → Runs .whiteoutRearmComplete s (fun t => t.keys.white = false ∧ t.keys.ready = true ∧
    t.keys.lids = 0 ∧ t.keys.count = s.keys.count ∧ t.keys.wkgen = s.keys.wkLast + 1 ∧ t.keys.rearming = false ∧
    ∀ w, w < 96 → s.railsUp w = true → (t.mod w).keyTransport = true)) ∧
  (∀ s : State, Runs .tiltTrip s (fun t =>
    t = { told s t with upd := { s.upd with tilt := true, still := s.win.tb.toNat + 1 } })) ∧
  (∀ (s : State) (port : BitVec 4) (b : Bool), s.takesWrites = true →
    (s.sensorStill = true ∨ s.upd.tilt = false → Runs (.movingClear (.window port) b) s (fun t =>
      t = { told s t with upd := { s.upd with tilt := false } })) ∧
    (s.sensorStill = false → s.upd.tilt = true → Runs (.movingClear (.window port) b) s (fun t =>
      t = ignoreAcc 5 port.toNat 0 true 0x120020 false s))) ∧
  (∀ (s : State) (m : Mgmt) (b : Bool),
    (s.majority = false → Runs (.movingClear (.mgmt m) b) s (fun t => t = answerM m 503 2 [] s)) ∧
    (s.majority = true → s.sensorStill = true ∨ s.upd.tilt = false → Runs (.movingClear (.mgmt m) b) s (fun t =>
      t = { answered s t with upd := { s.upd with tilt := false, attitude := if b then s.upd.attitude + 1 else s.upd.attitude } })) ∧
    (s.sensorStill = false → s.upd.tilt = true → Runs (.movingClear (.mgmt m) b) s (fun t => t.upd.tilt = true)) ∧
    (s.mgmtRole m = some 2 → s.majority = true → Runs (.ownerLockSet m b) s (fun t =>
      t = { answered s t with upd := { s.upd with lock := b } })) ∧
    (s.mgmtRole m ≠ some 2 → Runs (.ownerLockSet m b) s (fun t => t.upd = s.upd)))

/-- START while an update is in progress is ignored with cause 4; where a refusal condition holds the cause is kept and no update
begins, and Redfish answers 400, or 503 for cause 7; else the header is read in phase 1, at the control host's source or in a
push. A header of 256 bytes that fails a check returns the update to phase 0 with the check's cause, and one that passes
begins staging in phase 2 with its component. A body that two channels hold is staged: phase 3. One that fewer hold is refused
with cause 15, and a failed source ends the update with cause 19. CANCEL in phases 1 to 3 returns to phase 0 with cause 18 and
is illegal in phases 4 to 6 with cause 5. Derived: R750, R752, R754, R755, R770. -/
def Obligations.UpdatesAreDeliveredOrRefused : Prop :=
  let inHand := fun (s : State) => s.upd.path ≠ 0 ∨ ∃ g, s.readFor (fun u => u == .parcel) = some g ∧ g.2.sent = true
  (∀ (s : State) (port : BitVec 4), s.takesWrites = true →
    (s.upd.phase ≠ 0 → Runs (.updateStart port) s (fun t => t = ignoreAcc 4 port.toNat 0 true 0x120000 false s)) ∧
    (s.upd.phase = 0 → ∀ c, s.updRefused = some c → Runs (.updateStart port) s (fun t =>
      t = { told s t with upd := { s.upd with cause := BitVec.ofNat 5 c } })) ∧
    (s.upd.phase = 0 → s.updRefused = none → Runs (.updateStart port) s (fun t => t.upd.phase = 1 ∧ t.upd.cause = 0 ∧
      t.upd.path = 0 ∧ t.upd.header = [] ∧ t.upd.insts = s.upd.insts ∧ t.upd.conf = s.upd.conf ∧
      tget none s.nextRead t.reads = some {
        tenant := none, port := s.ctlPort, fn := 0, addr := s.upd.src, len := 256, purpose := .parcel
        sent := s.ctlCan, tick := s.win.tb }))) ∧
  (∀ (s : State) (session : Nat),
    (∀ c, s.updRefused = some c → Runs (.redfishUpdatePush session) s (fun t =>
        t = { answered s t with upd := { s.upd with cause := BitVec.ofNat 5 c } } ∧
        t.out.getLast? = some (.answer session (if c = 7 then 503 else 400) [c])) ∧
      Runs (.simpleUpdate session) s (fun t => t = { answered s t with upd := { s.upd with cause := BitVec.ofNat 5 c } })) ∧
    (s.updRefused = none →
      Runs (.redfishUpdatePush session) s (fun t => t.upd.phase = 1 ∧ t.upd.path = 1 ∧ t.upd.cause = 0 ∧ t.out = s.out ∧
        t = { s with upd := t.upd }) ∧
      Runs (.simpleUpdate session) s (fun t => t.upd.phase = 1 ∧ t.upd.path = 2 ∧ t.upd.cause = 0 ∧
        t.out = s.out ++ [.answer session 202 []]))) ∧
  (∀ (s : State) (header : List Byte), s.upd.phase = 1 → inHand s → header.length = 256 →
    (hdrComp header ≠ 1 ∨ ∀ c, c < 3 → (s.stew c).st = 1) →
    (∀ c, s.hdrCause header = some c → Runs (.parcelHeaderJudged header false) s (fun t => t.upd.phase = 0 ∧
      t.upd.cause = BitVec.ofNat 5 c ∧ t.upd.insts = s.upd.insts)) ∧
    (s.hdrCause header = none → Runs (.parcelHeaderJudged header false) s (fun t => t.upd.phase = 2 ∧
      t.upd.comp = hdrComp header ∧ t.upd.header = header ∧ t.upd.insts = s.upd.insts))) ∧
  (∀ (s : State) (good : BitVec 3), s.upd.phase = 2 → s.updPaused = false → inHand s →
    let n := ([0, 1, 2].filter (fun c => good.getLsbD c && s.chanUp c)).length
    (2 ≤ n → Runs (.bodyStaged good false) s (fun t => t.upd.phase = 3 ∧ t.upd.insts = s.upd.insts ∧
      t = { s with upd := t.upd, reads := t.reads })) ∧
    (n < 2 → Runs (.bodyStaged good false) s (fun t => t.upd.phase = 0 ∧ t.upd.cause = 15 ∧ t.upd.insts = s.upd.insts)) ∧
    Runs (.bodyStaged good true) s (fun t => t.upd.phase = 0 ∧ t.upd.cause = 19 ∧ t.upd.insts = s.upd.insts)) ∧
  (∀ (s : State) (port : BitVec 4), s.takesWrites = true →
    (1 ≤ s.upd.phase → s.upd.phase ≤ 3 → Runs (.updateCancel (.window port)) s (fun t => t.upd.phase = 0 ∧ t.upd.cause = 18)) ∧
    (3 < s.upd.phase → Runs (.updateCancel (.window port)) s (fun t =>
      t = ignoreAcc 5 port.toNat 0 true 0x120000 false s)))

/-- An install that completes gives every instance present the new image in its inactive slot and phase 4. A switch restarts the
next written instance on it, on trial, or, where the part's own fuses revoke the key that signed the image, is a trial failure
at once. An instance found healthy is no longer restarting; one whose bound expires, or that restarts before, boots its
previous slot again and begins fall-back (phase 6). A resumed update whose trial failed in the pause does so too. With a
majority, confirmation in phase 5 makes the parcel the component's confirmed version and ends the update, and in another phase
is answered with 409; fall-back in phases 4 and 5 begins phase 6. A fall-back with no instance to return ends in phase 0.
Derived: R756, R757, R758, R759, R760, R761, R766. -/
def Obligations.UpdatesSwitchTryConfirmOrReturn : Prop :=
  (∀ (s : State), s.upd.phase = 3 → s.updPaused = false → Runs (.installComplete []) s (fun t =>
    4 ≤ t.upd.phase ∧ t.upd.phase ≤ 5 ∧ ∀ i ∈ instList s.upd.comp, s.instHere s.upd.comp i = true →
      (t.inst (instKey s.upd.comp i)).written = true ∧ (t.inst (instKey s.upd.comp i)).skipped = false ∧
      (t.inst (instKey s.upd.comp i)).other = some (hdrImage s.upd.header) ∧
      (t.inst (instKey s.upd.comp i)).run = (s.inst (instKey s.upd.comp i)).run)) ∧
  (∀ (s : State) (i : Nat),
    let k := instKey s.upd.comp i
    s.upd.inst = none →
    (s.upd.phase = 4 → s.updPaused = false → s.upd.failDue = none → s.nextSwitch s.toSwitch = some i →
      let x := swapSlots (s.inst k)
      (x.fuses.getLsbD x.keyId.toNat = false → Runs .instanceSwitch s (fun t =>
        t.upd.inst = some (k, s.win.tb) ∧ (t.inst k).trial = true ∧ (t.inst k).switched = true ∧
        (t.inst k).run = x.run ∧ ∀ j, j ≠ k → t.inst j = s.inst j)) ∧
      (x.fuses.getLsbD x.keyId.toNat = true → Runs .instanceSwitch s (fun t =>
        t.upd.inst = none ∧ (t.inst k).trial = false ∧ (t.inst k).switched = false ∧
        (t.upd.phase = 6 ∧ t.upd.failed = some k ∨ t.upd.failDue = some k) ∧ ∀ j, j ≠ k → t.inst j = s.inst j))) ∧
    (s.upd.phase = 6 → s.keys.white = false → s.pwr.sag = 0 → s.boot.st = 1 → s.nextSwitch s.toReturn = some i →
      Runs .instanceSwitch s (fun t => t.upd.inst = some (k, s.win.tb) ∧ (t.inst k).trial = false ∧ (t.inst k).switched = false ∧
        t.upd.returned = s.upd.returned + 1 ∧ (t.inst k).run = (swapSlots (s.inst k)).run ∧ ∀ j, j ≠ k → t.inst j = s.inst j)) ∧
    (s.upd.phase = 6 → s.toReturn = [] → Runs .fallbackComplete s (fun t => t.upd.phase = 0 ∧ t.upd.conf = s.upd.conf ∧
      ∀ j ∈ instList s.upd.comp, (t.inst (instKey s.upd.comp j)).trial = false ∧
        (t.inst (instKey s.upd.comp j)).run = (s.inst (instKey s.upd.comp j)).run))) ∧
  (∀ (s : State) (k : Nat) (tick : DWord), s.upd.inst = some (k, tick) →
    let back := fun (t : State) => t.upd.inst = none ∧ (t.inst k).trial = false ∧ (t.inst k).switched = false ∧
      (t.inst k).run = (swapSlots (s.inst k)).run ∧
      (s.updPaused = false → t.upd.phase = 6 ∧ t.upd.failed = some k) ∧
      (s.updPaused = true → t.upd.phase = 4 ∧ t.upd.failDue = some k)
    (s.healthReady (k / 128) (k % 128) = true → Runs .instanceHealthy s (fun t => t.upd.inst = none ∧
      (t.inst k).switched = (s.inst k).switched ∧ (t.inst k).run = (s.inst k).run)) ∧
    (s.upd.phase = 4 → (s.inst k).trial = true →
      (tick.toNat + trialBound (k / 128) ≤ s.win.tb.toNat → Runs .trialBoundExpiry s back) ∧
      (s.boot.stage = 11 → Runs .trialRestart s back))) ∧
  (∀ (s : State) (k : Nat), s.updPaused = false → s.upd.failDue = some k → Runs .updateResume s (fun t =>
    t = { s with upd := { s.upd with phase := 6, failed := some k, failDue := none } })) ∧
  (∀ (s : State) (m : Mgmt), s.majority = true →
    (s.upd.phase = 5 → Runs (.updateConfirm m) s (fun t => t.upd.phase = 0 ∧ t.upd.comp = 0 ∧
      tget 0x01000000 s.upd.comp t.upd.conf = hdrVersion s.upd.header ∧
      (∀ c, c ≠ s.upd.comp → tget 0x01000000 c t.upd.conf = tget 0x01000000 c s.upd.conf) ∧
      ∀ i ∈ instList s.upd.comp, (t.inst (instKey s.upd.comp i)).trial = false)) ∧
    (s.upd.phase ≠ 5 → Runs (.updateConfirm m) s (fun t => t = answerM m 409 3 [] s)) ∧
    (s.upd.phase = 4 ∨ s.upd.phase = 5 → Runs (.updateFallback m) s (fun t =>
      t = { answered s t with upd := { s.upd with phase := 6, failed := s.upd.failDue, failDue := none } })) ∧
    (s.upd.phase < 4 ∨ 5 < s.upd.phase → Runs (.updateFallback m) s (fun t => t = answerM m 409 3 [] s)))
end

