-- ==== Sys2Proof/Laws/Tab.lean ====
section
/-! SUPPORT. The laws of the sparse tables and memories: a read after a write, and the canonical form. -/

namespace Sys2Proof.Machine

variable {α : Type} [DecidableEq α]

/-- A read of the key just written gives what was written. -/
@[simp] theorem tget_tset_self (d : α) (k : Nat) (v : α) (t : Tab α) : tget d k (tset d k v t) = v := by
  induction t with
  | nil => by_cases h : v = d <;> simp [tset, tget, h]
  | cons p t ih =>
    obtain ⟨j, u⟩ := p
    by_cases hk : k = j
    · subst hk
      by_cases h : v = d
      · simpa [tset, h] using (h ▸ ih)
      · simp [tset, tget, h]
    · by_cases hl : k < j ∧ v ≠ d
      · simp [tset, tget, hk, hl]
      · simp [tset, tget, hk, hl, ih]

/-- A write leaves every other key alone. -/
theorem tget_tset_ne (d : α) {k k' : Nat} (v : α) (t : Tab α) (h : k' ≠ k) :
    tget d k' (tset d k v t) = tget d k' t := by
  induction t with
  | nil => by_cases hv : v = d <;> simp [tset, tget, hv, h]
  | cons p t ih =>
    obtain ⟨j, u⟩ := p
    by_cases hk : k = j
    · subst hk
      by_cases hv : v = d
      · simp only [tset, if_true, hv, tget, if_neg h]
        simpa [hv] using ih
      · simp [tset, tget, hv, h]
    · by_cases hl : k < j ∧ v ≠ d
      · simp [tset, tget, hk, hl, h]
      · by_cases hj : k' = j
        · subst hj
          have : ¬(k < k' ∧ v ≠ d) := hl
          simp [tset, tget, hk, this]
        · simp [tset, tget, hk, hl, hj, ih]

/-- Every key of a table after a write is one of its keys before, or the key written. -/
theorem keys_tset (d : α) (k : Nat) (v : α) (t : Tab α) : ∀ p ∈ tset d k v t, p.1 = k ∨ ∃ q ∈ t, q.1 = p.1 := by
  induction t with
  | nil => intro p hp; by_cases hv : v = d <;> simp [tset, hv] at hp; exact .inl (by rw [hp])
  | cons q t ih =>
    obtain ⟨j, u⟩ := q
    intro p hp
    by_cases hk : k = j
    · subst hk
      by_cases hv : v = d
      · simp only [tset, if_true, hv] at hp
        rcases ih p (by simpa [hv] using hp) with h | ⟨r, hr, he⟩
        · exact .inl h
        · exact .inr ⟨r, List.mem_cons_of_mem _ hr, he⟩
      · simp only [tset, if_true, if_neg hv, List.mem_cons] at hp
        rcases hp with rfl | hp
        · exact .inl rfl
        · exact .inr ⟨p, List.mem_cons_of_mem _ hp, rfl⟩
    · by_cases hl : k < j ∧ v ≠ d
      · simp only [tset, if_neg hk, if_pos hl, List.mem_cons] at hp
        rcases hp with rfl | rfl | hp
        · exact .inl rfl
        · exact .inr ⟨(j, u), by simp, rfl⟩
        · exact .inr ⟨p, List.mem_cons_of_mem _ hp, rfl⟩
      · simp only [tset, if_neg hk, if_neg hl, List.mem_cons] at hp
        rcases hp with rfl | hp
        · exact .inr ⟨(j, u), by simp, rfl⟩
        · rcases ih p hp with h | ⟨r, hr, he⟩
          · exact .inl h
          · exact .inr ⟨r, List.mem_cons_of_mem _ hr, he⟩

/-- A write keeps the canonical form. -/
theorem wf_tset (d : α) (k : Nat) (v : α) (t : Tab α) (h : Tab.wf d t = true) : Tab.wf d (tset d k v t) = true := by
  induction t with
  | nil => by_cases hv : v = d <;> simp [tset, Tab.wf, hv]
  | cons q t ih =>
    obtain ⟨j, u⟩ := q
    simp only [Tab.wf, Bool.and_eq_true, decide_eq_true_eq, List.all_eq_true] at h
    obtain ⟨⟨hu, hj⟩, ht⟩ := h
    by_cases hk : k = j
    · subst hk
      by_cases hv : v = d
      · simpa [tset, hv] using (hv ▸ ih ht)
      · simp only [tset, if_true, if_neg hv, Tab.wf, Bool.and_eq_true, decide_eq_true_eq, List.all_eq_true]
        exact ⟨⟨hv, hj⟩, ht⟩
    · by_cases hl : k < j ∧ v ≠ d
      · simp only [tset, if_neg hk, if_pos hl, Tab.wf, Bool.and_eq_true, decide_eq_true_eq, List.all_eq_true]
        refine ⟨⟨hl.2, ?_⟩, ⟨hu, hj⟩, ht⟩
        intro p hp
        rcases List.mem_cons.1 hp with rfl | hp
        · exact hl.1
        · exact lt_trans hl.1 (hj p hp)
      · simp only [tset, if_neg hk, if_neg hl, Tab.wf, Bool.and_eq_true, decide_eq_true_eq, List.all_eq_true]
        refine ⟨⟨hu, ?_⟩, ih ht⟩
        intro p hp
        by_cases hv : v = d
        · rcases keys_tset d k v t p hp with h1 | ⟨r, hr, he⟩
          · exfalso
            have hw := tget_tset_self d k v t
            have : ∀ (l : Tab α), Tab.wf d l = true → p ∈ l → p.1 = k → tget d k l ≠ d := by
              intro l
              induction l with
              | nil => intro _ hm; cases hm
              | cons q l il =>
                obtain ⟨a, b⟩ := q
                intro hwf hm hpk
                simp only [Tab.wf, Bool.and_eq_true, decide_eq_true_eq, List.all_eq_true] at hwf
                rcases List.mem_cons.1 hm with rfl | hm
                · subst hpk; simpa [tget] using hwf.1.1
                · have hlt := hwf.1.2 p hm
                  have : k ≠ a := by omega
                  simpa [tget, this] using il hwf.2 hm hpk
            exact this _ (ih ht) hp h1 (hw.trans hv)
          · exact he ▸ hj r hr
        · have hjk : j < k := by
            by_contra hc
            exact hl ⟨by omega, hv⟩
          rcases keys_tset d k v t p hp with h1 | ⟨r, hr, he⟩
          · omega
          · exact he ▸ hj r hr

/-- Taking entries out keeps the canonical form. -/
theorem wf_filter (d : α) (q : Nat × α → Bool) (t : Tab α) (h : Tab.wf d t = true) : Tab.wf d (t.filter q) = true := by
  induction t with
  | nil => rfl
  | cons p t ih =>
    obtain ⟨j, u⟩ := p
    simp only [Tab.wf, Bool.and_eq_true, decide_eq_true_eq, List.all_eq_true] at h
    obtain ⟨⟨hu, hj⟩, ht⟩ := h
    by_cases hq : q (j, u) = true
    · simp only [List.filter_cons, hq, if_true, Tab.wf, Bool.and_eq_true, decide_eq_true_eq, List.all_eq_true]
      exact ⟨⟨hu, fun p hp => hj p (List.mem_of_mem_filter hp)⟩, ih ht⟩
    · simp only [List.filter_cons, hq]
      exact ih ht

/-- A write of consecutive bytes keeps the canonical form of a memory. -/
theorem wf_putBytes (m : Tab Byte) (k : Nat) (bs : List Byte) (h : Tab.wf 0 m = true) : Tab.wf 0 (putBytes m k bs) = true := by
  induction bs generalizing m k with
  | nil => exact h
  | cons b t ih => exact ih _ _ (wf_tset 0 k b m h)

/-- Zeroing part of a memory keeps its canonical form. -/
theorem wf_zeroWhere (p : Nat → Bool) (m : Tab Byte) (h : Tab.wf 0 m = true) : Tab.wf 0 (zeroWhere p m) = true :=
  wf_filter 0 _ m h

/-- Bytes outside the run that a write stores to read as before. -/
theorem tget_putBytes_out (m : Tab Byte) (k j : Nat) (bs : List Byte) (h : j < k ∨ k + bs.length ≤ j) :
    tget 0 j (putBytes m k bs) = tget 0 j m := by
  induction bs generalizing m k with
  | nil => rfl
  | cons b t ih =>
    simp only [List.length_cons] at h
    rw [putBytes, ih _ _ (by omega), tget_tset_ne 0 b m (by omega)]

/-- Each byte of a stored run reads back. -/
theorem tget_putBytes_in (m : Tab Byte) (k i : Nat) (bs : List Byte) (h : i < bs.length) :
    tget 0 (k + i) (putBytes m k bs) = bs[i] := by
  induction bs generalizing m k i with
  | nil => simp at h
  | cons b t ih =>
    cases i with
    | zero => rw [putBytes, Nat.add_zero, tget_putBytes_out _ _ _ _ (by omega)]; simp
    | succ i =>
      have := ih (tset 0 k b m) (k + 1) i (by simpa using h)
      simpa [putBytes, Nat.add_assoc, Nat.add_comm 1] using this

end Sys2Proof.Machine
end

