-- ==== Sys2Proof/Laws/State.lean ====
section
/-! SUPPORT. What each update of the state leaves alone: one lemma per field per update, and a read of the object just written. -/

namespace Sys2Proof.Machine

/-! ### State.setPort -/

@[simp] theorem setPort_self (s : State) (n : Nat) (v : Port) : (s.setPort n v).port n = v := by
  simp [State.setPort, State.port]
theorem setPort_ne (s : State) {n m : Nat} (v : Port) (h : m ≠ n) : (s.setPort n v).port m = s.port m := by
  simp [State.setPort, State.port, tget_tset_ne _ _ _ h]
@[simp] theorem setPort_win (s : State) (n : Nat) (v : Port) : (s.setPort n v).win = s.win := rfl
@[simp] theorem setPort_fns (s : State) (n : Nat) (v : Port) : (s.setPort n v).fns = s.fns := rfl
@[simp] theorem setPort_tens (s : State) (n : Nat) (v : Port) : (s.setPort n v).tens = s.tens := rfl
@[simp] theorem setPort_parts (s : State) (n : Nat) (v : Port) : (s.setPort n v).parts = s.parts := rfl
@[simp] theorem setPort_rings (s : State) (n : Nat) (v : Port) : (s.setPort n v).rings = s.rings := rfl
@[simp] theorem setPort_mevHeld (s : State) (n : Nat) (v : Port) : (s.setPort n v).mevHeld = s.mevHeld := rfl
@[simp] theorem setPort_mevLost (s : State) (n : Nat) (v : Port) : (s.setPort n v).mevLost = s.mevLost := rfl
@[simp] theorem setPort_mevRun (s : State) (n : Nat) (v : Port) : (s.setPort n v).mevRun = s.mevRun := rfl
@[simp] theorem setPort_mods (s : State) (n : Nat) (v : Port) : (s.setPort n v).mods = s.mods := rfl
@[simp] theorem setPort_isles (s : State) (n : Nat) (v : Port) : (s.setPort n v).isles = s.isles := rfl
@[simp] theorem setPort_cores (s : State) (n : Nat) (v : Port) : (s.setPort n v).cores = s.cores := rfl
@[simp] theorem setPort_chans (s : State) (n : Nat) (v : Port) : (s.setPort n v).chans = s.chans := rfl
@[simp] theorem setPort_cols (s : State) (n : Nat) (v : Port) : (s.setPort n v).cols = s.cols := rfl
@[simp] theorem setPort_badUnits (s : State) (n : Nat) (v : Port) : (s.setPort n v).badUnits = s.badUnits := rfl
@[simp] theorem setPort_unitKeys (s : State) (n : Nat) (v : Port) : (s.setPort n v).unitKeys = s.unitKeys := rfl
@[simp] theorem setPort_fab (s : State) (n : Nat) (v : Port) : (s.setPort n v).fab = s.fab := rfl
@[simp] theorem setPort_sh (s : State) (n : Nat) (v : Port) : (s.setPort n v).sh = s.sh := rfl
@[simp] theorem setPort_reads (s : State) (n : Nat) (v : Port) : (s.setPort n v).reads = s.reads := rfl
@[simp] theorem setPort_nextRead (s : State) (n : Nat) (v : Port) : (s.setPort n v).nextRead = s.nextRead := rfl
@[simp] theorem setPort_trays (s : State) (n : Nat) (v : Port) : (s.setPort n v).trays = s.trays := rfl
@[simp] theorem setPort_flt (s : State) (n : Nat) (v : Port) : (s.setPort n v).flt = s.flt := rfl
@[simp] theorem setPort_colms (s : State) (n : Nat) (v : Port) : (s.setPort n v).colms = s.colms := rfl
@[simp] theorem setPort_keySerial (s : State) (n : Nat) (v : Port) : (s.setPort n v).keySerial = s.keySerial := rfl
@[simp] theorem setPort_keyBank (s : State) (n : Nat) (v : Port) : (s.setPort n v).keyBank = s.keyBank := rfl
@[simp] theorem setPort_keys (s : State) (n : Nat) (v : Port) : (s.setPort n v).keys = s.keys := rfl
@[simp] theorem setPort_boot (s : State) (n : Nat) (v : Port) : (s.setPort n v).boot = s.boot := rfl
@[simp] theorem setPort_fuses (s : State) (n : Nat) (v : Port) : (s.setPort n v).fuses = s.fuses := rfl
@[simp] theorem setPort_pwr (s : State) (n : Nat) (v : Port) : (s.setPort n v).pwr = s.pwr := rfl
@[simp] theorem setPort_therm (s : State) (n : Nat) (v : Port) : (s.setPort n v).therm = s.therm := rfl
@[simp] theorem setPort_sports (s : State) (n : Nat) (v : Port) : (s.setPort n v).sports = s.sports := rfl
@[simp] theorem setPort_pins (s : State) (n : Nat) (v : Port) : (s.setPort n v).pins = s.pins := rfl
@[simp] theorem setPort_pipes (s : State) (n : Nat) (v : Port) : (s.setPort n v).pipes = s.pipes := rfl
@[simp] theorem setPort_intakes (s : State) (n : Nat) (v : Port) : (s.setPort n v).intakes = s.intakes := rfl
@[simp] theorem setPort_stw (s : State) (n : Nat) (v : Port) : (s.setPort n v).stw = s.stw := rfl
@[simp] theorem setPort_upd (s : State) (n : Nat) (v : Port) : (s.setPort n v).upd = s.upd := rfl
@[simp] theorem setPort_store (s : State) (n : Nat) (v : Port) : (s.setPort n v).store = s.store := rfl
@[simp] theorem setPort_out (s : State) (n : Nat) (v : Port) : (s.setPort n v).out = s.out := rfl
@[simp] theorem setPort_freeCtr (s : State) (n : Nat) (v : Port) : (s.setPort n v).freeCtr = s.freeCtr := rfl
@[simp] theorem setPort_pending (s : State) (n : Nat) (v : Port) : (s.setPort n v).pending = s.pending := rfl

/-! ### State.setFn -/

@[simp] theorem setFn_self (s : State) (p f : Nat) (v : Fn) : (s.setFn p f v).fnc p f = v := by
  simp [State.setFn, State.fnc]
@[simp] theorem setFn_win (s : State) (p f : Nat) (v : Fn) : (s.setFn p f v).win = s.win := rfl
@[simp] theorem setFn_ports (s : State) (p f : Nat) (v : Fn) : (s.setFn p f v).ports = s.ports := rfl
@[simp] theorem setFn_tens (s : State) (p f : Nat) (v : Fn) : (s.setFn p f v).tens = s.tens := rfl
@[simp] theorem setFn_parts (s : State) (p f : Nat) (v : Fn) : (s.setFn p f v).parts = s.parts := rfl
@[simp] theorem setFn_rings (s : State) (p f : Nat) (v : Fn) : (s.setFn p f v).rings = s.rings := rfl
@[simp] theorem setFn_mevHeld (s : State) (p f : Nat) (v : Fn) : (s.setFn p f v).mevHeld = s.mevHeld := rfl
@[simp] theorem setFn_mevLost (s : State) (p f : Nat) (v : Fn) : (s.setFn p f v).mevLost = s.mevLost := rfl
@[simp] theorem setFn_mevRun (s : State) (p f : Nat) (v : Fn) : (s.setFn p f v).mevRun = s.mevRun := rfl
@[simp] theorem setFn_mods (s : State) (p f : Nat) (v : Fn) : (s.setFn p f v).mods = s.mods := rfl
@[simp] theorem setFn_isles (s : State) (p f : Nat) (v : Fn) : (s.setFn p f v).isles = s.isles := rfl
@[simp] theorem setFn_cores (s : State) (p f : Nat) (v : Fn) : (s.setFn p f v).cores = s.cores := rfl
@[simp] theorem setFn_chans (s : State) (p f : Nat) (v : Fn) : (s.setFn p f v).chans = s.chans := rfl
@[simp] theorem setFn_cols (s : State) (p f : Nat) (v : Fn) : (s.setFn p f v).cols = s.cols := rfl
@[simp] theorem setFn_badUnits (s : State) (p f : Nat) (v : Fn) : (s.setFn p f v).badUnits = s.badUnits := rfl
@[simp] theorem setFn_unitKeys (s : State) (p f : Nat) (v : Fn) : (s.setFn p f v).unitKeys = s.unitKeys := rfl
@[simp] theorem setFn_fab (s : State) (p f : Nat) (v : Fn) : (s.setFn p f v).fab = s.fab := rfl
@[simp] theorem setFn_sh (s : State) (p f : Nat) (v : Fn) : (s.setFn p f v).sh = s.sh := rfl
@[simp] theorem setFn_reads (s : State) (p f : Nat) (v : Fn) : (s.setFn p f v).reads = s.reads := rfl
@[simp] theorem setFn_nextRead (s : State) (p f : Nat) (v : Fn) : (s.setFn p f v).nextRead = s.nextRead := rfl
@[simp] theorem setFn_trays (s : State) (p f : Nat) (v : Fn) : (s.setFn p f v).trays = s.trays := rfl
@[simp] theorem setFn_flt (s : State) (p f : Nat) (v : Fn) : (s.setFn p f v).flt = s.flt := rfl
@[simp] theorem setFn_colms (s : State) (p f : Nat) (v : Fn) : (s.setFn p f v).colms = s.colms := rfl
@[simp] theorem setFn_keySerial (s : State) (p f : Nat) (v : Fn) : (s.setFn p f v).keySerial = s.keySerial := rfl
@[simp] theorem setFn_keyBank (s : State) (p f : Nat) (v : Fn) : (s.setFn p f v).keyBank = s.keyBank := rfl
@[simp] theorem setFn_keys (s : State) (p f : Nat) (v : Fn) : (s.setFn p f v).keys = s.keys := rfl
@[simp] theorem setFn_boot (s : State) (p f : Nat) (v : Fn) : (s.setFn p f v).boot = s.boot := rfl
@[simp] theorem setFn_fuses (s : State) (p f : Nat) (v : Fn) : (s.setFn p f v).fuses = s.fuses := rfl
@[simp] theorem setFn_pwr (s : State) (p f : Nat) (v : Fn) : (s.setFn p f v).pwr = s.pwr := rfl
@[simp] theorem setFn_therm (s : State) (p f : Nat) (v : Fn) : (s.setFn p f v).therm = s.therm := rfl
@[simp] theorem setFn_sports (s : State) (p f : Nat) (v : Fn) : (s.setFn p f v).sports = s.sports := rfl
@[simp] theorem setFn_pins (s : State) (p f : Nat) (v : Fn) : (s.setFn p f v).pins = s.pins := rfl
@[simp] theorem setFn_pipes (s : State) (p f : Nat) (v : Fn) : (s.setFn p f v).pipes = s.pipes := rfl
@[simp] theorem setFn_intakes (s : State) (p f : Nat) (v : Fn) : (s.setFn p f v).intakes = s.intakes := rfl
@[simp] theorem setFn_stw (s : State) (p f : Nat) (v : Fn) : (s.setFn p f v).stw = s.stw := rfl
@[simp] theorem setFn_upd (s : State) (p f : Nat) (v : Fn) : (s.setFn p f v).upd = s.upd := rfl
@[simp] theorem setFn_store (s : State) (p f : Nat) (v : Fn) : (s.setFn p f v).store = s.store := rfl
@[simp] theorem setFn_out (s : State) (p f : Nat) (v : Fn) : (s.setFn p f v).out = s.out := rfl
@[simp] theorem setFn_freeCtr (s : State) (p f : Nat) (v : Fn) : (s.setFn p f v).freeCtr = s.freeCtr := rfl
@[simp] theorem setFn_pending (s : State) (p f : Nat) (v : Fn) : (s.setFn p f v).pending = s.pending := rfl

/-! ### State.setTen -/

@[simp] theorem setTen_self (s : State) (n : Nat) (v : Ten) : (s.setTen n v).ten n = v := by
  simp [State.setTen, State.ten]
theorem setTen_ne (s : State) {n m : Nat} (v : Ten) (h : m ≠ n) : (s.setTen n v).ten m = s.ten m := by
  simp [State.setTen, State.ten, tget_tset_ne _ _ _ h]
@[simp] theorem setTen_win (s : State) (n : Nat) (v : Ten) : (s.setTen n v).win = s.win := rfl
@[simp] theorem setTen_ports (s : State) (n : Nat) (v : Ten) : (s.setTen n v).ports = s.ports := rfl
@[simp] theorem setTen_fns (s : State) (n : Nat) (v : Ten) : (s.setTen n v).fns = s.fns := rfl
@[simp] theorem setTen_parts (s : State) (n : Nat) (v : Ten) : (s.setTen n v).parts = s.parts := rfl
@[simp] theorem setTen_rings (s : State) (n : Nat) (v : Ten) : (s.setTen n v).rings = s.rings := rfl
@[simp] theorem setTen_mevHeld (s : State) (n : Nat) (v : Ten) : (s.setTen n v).mevHeld = s.mevHeld := rfl
@[simp] theorem setTen_mevLost (s : State) (n : Nat) (v : Ten) : (s.setTen n v).mevLost = s.mevLost := rfl
@[simp] theorem setTen_mevRun (s : State) (n : Nat) (v : Ten) : (s.setTen n v).mevRun = s.mevRun := rfl
@[simp] theorem setTen_mods (s : State) (n : Nat) (v : Ten) : (s.setTen n v).mods = s.mods := rfl
@[simp] theorem setTen_isles (s : State) (n : Nat) (v : Ten) : (s.setTen n v).isles = s.isles := rfl
@[simp] theorem setTen_cores (s : State) (n : Nat) (v : Ten) : (s.setTen n v).cores = s.cores := rfl
@[simp] theorem setTen_chans (s : State) (n : Nat) (v : Ten) : (s.setTen n v).chans = s.chans := rfl
@[simp] theorem setTen_cols (s : State) (n : Nat) (v : Ten) : (s.setTen n v).cols = s.cols := rfl
@[simp] theorem setTen_badUnits (s : State) (n : Nat) (v : Ten) : (s.setTen n v).badUnits = s.badUnits := rfl
@[simp] theorem setTen_unitKeys (s : State) (n : Nat) (v : Ten) : (s.setTen n v).unitKeys = s.unitKeys := rfl
@[simp] theorem setTen_fab (s : State) (n : Nat) (v : Ten) : (s.setTen n v).fab = s.fab := rfl
@[simp] theorem setTen_sh (s : State) (n : Nat) (v : Ten) : (s.setTen n v).sh = s.sh := rfl
@[simp] theorem setTen_reads (s : State) (n : Nat) (v : Ten) : (s.setTen n v).reads = s.reads := rfl
@[simp] theorem setTen_nextRead (s : State) (n : Nat) (v : Ten) : (s.setTen n v).nextRead = s.nextRead := rfl
@[simp] theorem setTen_trays (s : State) (n : Nat) (v : Ten) : (s.setTen n v).trays = s.trays := rfl
@[simp] theorem setTen_flt (s : State) (n : Nat) (v : Ten) : (s.setTen n v).flt = s.flt := rfl
@[simp] theorem setTen_colms (s : State) (n : Nat) (v : Ten) : (s.setTen n v).colms = s.colms := rfl
@[simp] theorem setTen_keySerial (s : State) (n : Nat) (v : Ten) : (s.setTen n v).keySerial = s.keySerial := rfl
@[simp] theorem setTen_keyBank (s : State) (n : Nat) (v : Ten) : (s.setTen n v).keyBank = s.keyBank := rfl
@[simp] theorem setTen_keys (s : State) (n : Nat) (v : Ten) : (s.setTen n v).keys = s.keys := rfl
@[simp] theorem setTen_boot (s : State) (n : Nat) (v : Ten) : (s.setTen n v).boot = s.boot := rfl
@[simp] theorem setTen_fuses (s : State) (n : Nat) (v : Ten) : (s.setTen n v).fuses = s.fuses := rfl
@[simp] theorem setTen_pwr (s : State) (n : Nat) (v : Ten) : (s.setTen n v).pwr = s.pwr := rfl
@[simp] theorem setTen_therm (s : State) (n : Nat) (v : Ten) : (s.setTen n v).therm = s.therm := rfl
@[simp] theorem setTen_sports (s : State) (n : Nat) (v : Ten) : (s.setTen n v).sports = s.sports := rfl
@[simp] theorem setTen_pins (s : State) (n : Nat) (v : Ten) : (s.setTen n v).pins = s.pins := rfl
@[simp] theorem setTen_pipes (s : State) (n : Nat) (v : Ten) : (s.setTen n v).pipes = s.pipes := rfl
@[simp] theorem setTen_intakes (s : State) (n : Nat) (v : Ten) : (s.setTen n v).intakes = s.intakes := rfl
@[simp] theorem setTen_stw (s : State) (n : Nat) (v : Ten) : (s.setTen n v).stw = s.stw := rfl
@[simp] theorem setTen_upd (s : State) (n : Nat) (v : Ten) : (s.setTen n v).upd = s.upd := rfl
@[simp] theorem setTen_store (s : State) (n : Nat) (v : Ten) : (s.setTen n v).store = s.store := rfl
@[simp] theorem setTen_out (s : State) (n : Nat) (v : Ten) : (s.setTen n v).out = s.out := rfl
@[simp] theorem setTen_freeCtr (s : State) (n : Nat) (v : Ten) : (s.setTen n v).freeCtr = s.freeCtr := rfl
@[simp] theorem setTen_pending (s : State) (n : Nat) (v : Ten) : (s.setTen n v).pending = s.pending := rfl

/-! ### State.setPart -/

@[simp] theorem setPart_self (s : State) (n : Nat) (v : Part) : (s.setPart n v).part n = v := by
  simp [State.setPart, State.part]
theorem setPart_ne (s : State) {n m : Nat} (v : Part) (h : m ≠ n) : (s.setPart n v).part m = s.part m := by
  simp [State.setPart, State.part, tget_tset_ne _ _ _ h]
@[simp] theorem setPart_win (s : State) (n : Nat) (v : Part) : (s.setPart n v).win = s.win := rfl
@[simp] theorem setPart_ports (s : State) (n : Nat) (v : Part) : (s.setPart n v).ports = s.ports := rfl
@[simp] theorem setPart_fns (s : State) (n : Nat) (v : Part) : (s.setPart n v).fns = s.fns := rfl
@[simp] theorem setPart_tens (s : State) (n : Nat) (v : Part) : (s.setPart n v).tens = s.tens := rfl
@[simp] theorem setPart_rings (s : State) (n : Nat) (v : Part) : (s.setPart n v).rings = s.rings := rfl
@[simp] theorem setPart_mevHeld (s : State) (n : Nat) (v : Part) : (s.setPart n v).mevHeld = s.mevHeld := rfl
@[simp] theorem setPart_mevLost (s : State) (n : Nat) (v : Part) : (s.setPart n v).mevLost = s.mevLost := rfl
@[simp] theorem setPart_mevRun (s : State) (n : Nat) (v : Part) : (s.setPart n v).mevRun = s.mevRun := rfl
@[simp] theorem setPart_mods (s : State) (n : Nat) (v : Part) : (s.setPart n v).mods = s.mods := rfl
@[simp] theorem setPart_isles (s : State) (n : Nat) (v : Part) : (s.setPart n v).isles = s.isles := rfl
@[simp] theorem setPart_cores (s : State) (n : Nat) (v : Part) : (s.setPart n v).cores = s.cores := rfl
@[simp] theorem setPart_chans (s : State) (n : Nat) (v : Part) : (s.setPart n v).chans = s.chans := rfl
@[simp] theorem setPart_cols (s : State) (n : Nat) (v : Part) : (s.setPart n v).cols = s.cols := rfl
@[simp] theorem setPart_badUnits (s : State) (n : Nat) (v : Part) : (s.setPart n v).badUnits = s.badUnits := rfl
@[simp] theorem setPart_unitKeys (s : State) (n : Nat) (v : Part) : (s.setPart n v).unitKeys = s.unitKeys := rfl
@[simp] theorem setPart_fab (s : State) (n : Nat) (v : Part) : (s.setPart n v).fab = s.fab := rfl
@[simp] theorem setPart_sh (s : State) (n : Nat) (v : Part) : (s.setPart n v).sh = s.sh := rfl
@[simp] theorem setPart_reads (s : State) (n : Nat) (v : Part) : (s.setPart n v).reads = s.reads := rfl
@[simp] theorem setPart_nextRead (s : State) (n : Nat) (v : Part) : (s.setPart n v).nextRead = s.nextRead := rfl
@[simp] theorem setPart_trays (s : State) (n : Nat) (v : Part) : (s.setPart n v).trays = s.trays := rfl
@[simp] theorem setPart_flt (s : State) (n : Nat) (v : Part) : (s.setPart n v).flt = s.flt := rfl
@[simp] theorem setPart_colms (s : State) (n : Nat) (v : Part) : (s.setPart n v).colms = s.colms := rfl
@[simp] theorem setPart_keySerial (s : State) (n : Nat) (v : Part) : (s.setPart n v).keySerial = s.keySerial := rfl
@[simp] theorem setPart_keyBank (s : State) (n : Nat) (v : Part) : (s.setPart n v).keyBank = s.keyBank := rfl
@[simp] theorem setPart_keys (s : State) (n : Nat) (v : Part) : (s.setPart n v).keys = s.keys := rfl
@[simp] theorem setPart_boot (s : State) (n : Nat) (v : Part) : (s.setPart n v).boot = s.boot := rfl
@[simp] theorem setPart_fuses (s : State) (n : Nat) (v : Part) : (s.setPart n v).fuses = s.fuses := rfl
@[simp] theorem setPart_pwr (s : State) (n : Nat) (v : Part) : (s.setPart n v).pwr = s.pwr := rfl
@[simp] theorem setPart_therm (s : State) (n : Nat) (v : Part) : (s.setPart n v).therm = s.therm := rfl
@[simp] theorem setPart_sports (s : State) (n : Nat) (v : Part) : (s.setPart n v).sports = s.sports := rfl
@[simp] theorem setPart_pins (s : State) (n : Nat) (v : Part) : (s.setPart n v).pins = s.pins := rfl
@[simp] theorem setPart_pipes (s : State) (n : Nat) (v : Part) : (s.setPart n v).pipes = s.pipes := rfl
@[simp] theorem setPart_intakes (s : State) (n : Nat) (v : Part) : (s.setPart n v).intakes = s.intakes := rfl
@[simp] theorem setPart_stw (s : State) (n : Nat) (v : Part) : (s.setPart n v).stw = s.stw := rfl
@[simp] theorem setPart_upd (s : State) (n : Nat) (v : Part) : (s.setPart n v).upd = s.upd := rfl
@[simp] theorem setPart_store (s : State) (n : Nat) (v : Part) : (s.setPart n v).store = s.store := rfl
@[simp] theorem setPart_out (s : State) (n : Nat) (v : Part) : (s.setPart n v).out = s.out := rfl
@[simp] theorem setPart_freeCtr (s : State) (n : Nat) (v : Part) : (s.setPart n v).freeCtr = s.freeCtr := rfl
@[simp] theorem setPart_pending (s : State) (n : Nat) (v : Part) : (s.setPart n v).pending = s.pending := rfl

/-! ### State.setRing -/

@[simp] theorem setRing_self (s : State) (n : Nat) (v : Ring) : (s.setRing n v).ring n = v := by
  simp [State.setRing, State.ring]
theorem setRing_ne (s : State) {n m : Nat} (v : Ring) (h : m ≠ n) : (s.setRing n v).ring m = s.ring m := by
  simp [State.setRing, State.ring, tget_tset_ne _ _ _ h]
@[simp] theorem setRing_win (s : State) (n : Nat) (v : Ring) : (s.setRing n v).win = s.win := rfl
@[simp] theorem setRing_ports (s : State) (n : Nat) (v : Ring) : (s.setRing n v).ports = s.ports := rfl
@[simp] theorem setRing_fns (s : State) (n : Nat) (v : Ring) : (s.setRing n v).fns = s.fns := rfl
@[simp] theorem setRing_tens (s : State) (n : Nat) (v : Ring) : (s.setRing n v).tens = s.tens := rfl
@[simp] theorem setRing_parts (s : State) (n : Nat) (v : Ring) : (s.setRing n v).parts = s.parts := rfl
@[simp] theorem setRing_mevHeld (s : State) (n : Nat) (v : Ring) : (s.setRing n v).mevHeld = s.mevHeld := rfl
@[simp] theorem setRing_mevLost (s : State) (n : Nat) (v : Ring) : (s.setRing n v).mevLost = s.mevLost := rfl
@[simp] theorem setRing_mevRun (s : State) (n : Nat) (v : Ring) : (s.setRing n v).mevRun = s.mevRun := rfl
@[simp] theorem setRing_mods (s : State) (n : Nat) (v : Ring) : (s.setRing n v).mods = s.mods := rfl
@[simp] theorem setRing_isles (s : State) (n : Nat) (v : Ring) : (s.setRing n v).isles = s.isles := rfl
@[simp] theorem setRing_cores (s : State) (n : Nat) (v : Ring) : (s.setRing n v).cores = s.cores := rfl
@[simp] theorem setRing_chans (s : State) (n : Nat) (v : Ring) : (s.setRing n v).chans = s.chans := rfl
@[simp] theorem setRing_cols (s : State) (n : Nat) (v : Ring) : (s.setRing n v).cols = s.cols := rfl
@[simp] theorem setRing_badUnits (s : State) (n : Nat) (v : Ring) : (s.setRing n v).badUnits = s.badUnits := rfl
@[simp] theorem setRing_unitKeys (s : State) (n : Nat) (v : Ring) : (s.setRing n v).unitKeys = s.unitKeys := rfl
@[simp] theorem setRing_fab (s : State) (n : Nat) (v : Ring) : (s.setRing n v).fab = s.fab := rfl
@[simp] theorem setRing_sh (s : State) (n : Nat) (v : Ring) : (s.setRing n v).sh = s.sh := rfl
@[simp] theorem setRing_reads (s : State) (n : Nat) (v : Ring) : (s.setRing n v).reads = s.reads := rfl
@[simp] theorem setRing_nextRead (s : State) (n : Nat) (v : Ring) : (s.setRing n v).nextRead = s.nextRead := rfl
@[simp] theorem setRing_trays (s : State) (n : Nat) (v : Ring) : (s.setRing n v).trays = s.trays := rfl
@[simp] theorem setRing_flt (s : State) (n : Nat) (v : Ring) : (s.setRing n v).flt = s.flt := rfl
@[simp] theorem setRing_colms (s : State) (n : Nat) (v : Ring) : (s.setRing n v).colms = s.colms := rfl
@[simp] theorem setRing_keySerial (s : State) (n : Nat) (v : Ring) : (s.setRing n v).keySerial = s.keySerial := rfl
@[simp] theorem setRing_keyBank (s : State) (n : Nat) (v : Ring) : (s.setRing n v).keyBank = s.keyBank := rfl
@[simp] theorem setRing_keys (s : State) (n : Nat) (v : Ring) : (s.setRing n v).keys = s.keys := rfl
@[simp] theorem setRing_boot (s : State) (n : Nat) (v : Ring) : (s.setRing n v).boot = s.boot := rfl
@[simp] theorem setRing_fuses (s : State) (n : Nat) (v : Ring) : (s.setRing n v).fuses = s.fuses := rfl
@[simp] theorem setRing_pwr (s : State) (n : Nat) (v : Ring) : (s.setRing n v).pwr = s.pwr := rfl
@[simp] theorem setRing_therm (s : State) (n : Nat) (v : Ring) : (s.setRing n v).therm = s.therm := rfl
@[simp] theorem setRing_sports (s : State) (n : Nat) (v : Ring) : (s.setRing n v).sports = s.sports := rfl
@[simp] theorem setRing_pins (s : State) (n : Nat) (v : Ring) : (s.setRing n v).pins = s.pins := rfl
@[simp] theorem setRing_pipes (s : State) (n : Nat) (v : Ring) : (s.setRing n v).pipes = s.pipes := rfl
@[simp] theorem setRing_intakes (s : State) (n : Nat) (v : Ring) : (s.setRing n v).intakes = s.intakes := rfl
@[simp] theorem setRing_stw (s : State) (n : Nat) (v : Ring) : (s.setRing n v).stw = s.stw := rfl
@[simp] theorem setRing_upd (s : State) (n : Nat) (v : Ring) : (s.setRing n v).upd = s.upd := rfl
@[simp] theorem setRing_store (s : State) (n : Nat) (v : Ring) : (s.setRing n v).store = s.store := rfl
@[simp] theorem setRing_out (s : State) (n : Nat) (v : Ring) : (s.setRing n v).out = s.out := rfl
@[simp] theorem setRing_freeCtr (s : State) (n : Nat) (v : Ring) : (s.setRing n v).freeCtr = s.freeCtr := rfl
@[simp] theorem setRing_pending (s : State) (n : Nat) (v : Ring) : (s.setRing n v).pending = s.pending := rfl

/-! ### State.setMod -/

@[simp] theorem setMod_self (s : State) (n : Nat) (v : Mod) : (s.setMod n v).mod n = v := by
  simp [State.setMod, State.mod]
theorem setMod_ne (s : State) {n m : Nat} (v : Mod) (h : m ≠ n) : (s.setMod n v).mod m = s.mod m := by
  simp [State.setMod, State.mod, tget_tset_ne _ _ _ h]
@[simp] theorem setMod_win (s : State) (n : Nat) (v : Mod) : (s.setMod n v).win = s.win := rfl
@[simp] theorem setMod_ports (s : State) (n : Nat) (v : Mod) : (s.setMod n v).ports = s.ports := rfl
@[simp] theorem setMod_fns (s : State) (n : Nat) (v : Mod) : (s.setMod n v).fns = s.fns := rfl
@[simp] theorem setMod_tens (s : State) (n : Nat) (v : Mod) : (s.setMod n v).tens = s.tens := rfl
@[simp] theorem setMod_parts (s : State) (n : Nat) (v : Mod) : (s.setMod n v).parts = s.parts := rfl
@[simp] theorem setMod_rings (s : State) (n : Nat) (v : Mod) : (s.setMod n v).rings = s.rings := rfl
@[simp] theorem setMod_mevHeld (s : State) (n : Nat) (v : Mod) : (s.setMod n v).mevHeld = s.mevHeld := rfl
@[simp] theorem setMod_mevLost (s : State) (n : Nat) (v : Mod) : (s.setMod n v).mevLost = s.mevLost := rfl
@[simp] theorem setMod_mevRun (s : State) (n : Nat) (v : Mod) : (s.setMod n v).mevRun = s.mevRun := rfl
@[simp] theorem setMod_isles (s : State) (n : Nat) (v : Mod) : (s.setMod n v).isles = s.isles := rfl
@[simp] theorem setMod_cores (s : State) (n : Nat) (v : Mod) : (s.setMod n v).cores = s.cores := rfl
@[simp] theorem setMod_chans (s : State) (n : Nat) (v : Mod) : (s.setMod n v).chans = s.chans := rfl
@[simp] theorem setMod_cols (s : State) (n : Nat) (v : Mod) : (s.setMod n v).cols = s.cols := rfl
@[simp] theorem setMod_badUnits (s : State) (n : Nat) (v : Mod) : (s.setMod n v).badUnits = s.badUnits := rfl
@[simp] theorem setMod_unitKeys (s : State) (n : Nat) (v : Mod) : (s.setMod n v).unitKeys = s.unitKeys := rfl
@[simp] theorem setMod_fab (s : State) (n : Nat) (v : Mod) : (s.setMod n v).fab = s.fab := rfl
@[simp] theorem setMod_sh (s : State) (n : Nat) (v : Mod) : (s.setMod n v).sh = s.sh := rfl
@[simp] theorem setMod_reads (s : State) (n : Nat) (v : Mod) : (s.setMod n v).reads = s.reads := rfl
@[simp] theorem setMod_nextRead (s : State) (n : Nat) (v : Mod) : (s.setMod n v).nextRead = s.nextRead := rfl
@[simp] theorem setMod_trays (s : State) (n : Nat) (v : Mod) : (s.setMod n v).trays = s.trays := rfl
@[simp] theorem setMod_flt (s : State) (n : Nat) (v : Mod) : (s.setMod n v).flt = s.flt := rfl
@[simp] theorem setMod_colms (s : State) (n : Nat) (v : Mod) : (s.setMod n v).colms = s.colms := rfl
@[simp] theorem setMod_keySerial (s : State) (n : Nat) (v : Mod) : (s.setMod n v).keySerial = s.keySerial := rfl
@[simp] theorem setMod_keyBank (s : State) (n : Nat) (v : Mod) : (s.setMod n v).keyBank = s.keyBank := rfl
@[simp] theorem setMod_keys (s : State) (n : Nat) (v : Mod) : (s.setMod n v).keys = s.keys := rfl
@[simp] theorem setMod_boot (s : State) (n : Nat) (v : Mod) : (s.setMod n v).boot = s.boot := rfl
@[simp] theorem setMod_fuses (s : State) (n : Nat) (v : Mod) : (s.setMod n v).fuses = s.fuses := rfl
@[simp] theorem setMod_pwr (s : State) (n : Nat) (v : Mod) : (s.setMod n v).pwr = s.pwr := rfl
@[simp] theorem setMod_therm (s : State) (n : Nat) (v : Mod) : (s.setMod n v).therm = s.therm := rfl
@[simp] theorem setMod_sports (s : State) (n : Nat) (v : Mod) : (s.setMod n v).sports = s.sports := rfl
@[simp] theorem setMod_pins (s : State) (n : Nat) (v : Mod) : (s.setMod n v).pins = s.pins := rfl
@[simp] theorem setMod_pipes (s : State) (n : Nat) (v : Mod) : (s.setMod n v).pipes = s.pipes := rfl
@[simp] theorem setMod_intakes (s : State) (n : Nat) (v : Mod) : (s.setMod n v).intakes = s.intakes := rfl
@[simp] theorem setMod_stw (s : State) (n : Nat) (v : Mod) : (s.setMod n v).stw = s.stw := rfl
@[simp] theorem setMod_upd (s : State) (n : Nat) (v : Mod) : (s.setMod n v).upd = s.upd := rfl
@[simp] theorem setMod_store (s : State) (n : Nat) (v : Mod) : (s.setMod n v).store = s.store := rfl
@[simp] theorem setMod_out (s : State) (n : Nat) (v : Mod) : (s.setMod n v).out = s.out := rfl
@[simp] theorem setMod_freeCtr (s : State) (n : Nat) (v : Mod) : (s.setMod n v).freeCtr = s.freeCtr := rfl
@[simp] theorem setMod_pending (s : State) (n : Nat) (v : Mod) : (s.setMod n v).pending = s.pending := rfl

/-! ### State.setIsle -/

@[simp] theorem setIsle_self (s : State) (n : Nat) (v : Isle) : (s.setIsle n v).isle n = v := by
  simp [State.setIsle, State.isle]
theorem setIsle_ne (s : State) {n m : Nat} (v : Isle) (h : m ≠ n) : (s.setIsle n v).isle m = s.isle m := by
  simp [State.setIsle, State.isle, tget_tset_ne _ _ _ h]
@[simp] theorem setIsle_win (s : State) (n : Nat) (v : Isle) : (s.setIsle n v).win = s.win := rfl
@[simp] theorem setIsle_ports (s : State) (n : Nat) (v : Isle) : (s.setIsle n v).ports = s.ports := rfl
@[simp] theorem setIsle_fns (s : State) (n : Nat) (v : Isle) : (s.setIsle n v).fns = s.fns := rfl
@[simp] theorem setIsle_tens (s : State) (n : Nat) (v : Isle) : (s.setIsle n v).tens = s.tens := rfl
@[simp] theorem setIsle_parts (s : State) (n : Nat) (v : Isle) : (s.setIsle n v).parts = s.parts := rfl
@[simp] theorem setIsle_rings (s : State) (n : Nat) (v : Isle) : (s.setIsle n v).rings = s.rings := rfl
@[simp] theorem setIsle_mevHeld (s : State) (n : Nat) (v : Isle) : (s.setIsle n v).mevHeld = s.mevHeld := rfl
@[simp] theorem setIsle_mevLost (s : State) (n : Nat) (v : Isle) : (s.setIsle n v).mevLost = s.mevLost := rfl
@[simp] theorem setIsle_mevRun (s : State) (n : Nat) (v : Isle) : (s.setIsle n v).mevRun = s.mevRun := rfl
@[simp] theorem setIsle_mods (s : State) (n : Nat) (v : Isle) : (s.setIsle n v).mods = s.mods := rfl
@[simp] theorem setIsle_cores (s : State) (n : Nat) (v : Isle) : (s.setIsle n v).cores = s.cores := rfl
@[simp] theorem setIsle_chans (s : State) (n : Nat) (v : Isle) : (s.setIsle n v).chans = s.chans := rfl
@[simp] theorem setIsle_cols (s : State) (n : Nat) (v : Isle) : (s.setIsle n v).cols = s.cols := rfl
@[simp] theorem setIsle_badUnits (s : State) (n : Nat) (v : Isle) : (s.setIsle n v).badUnits = s.badUnits := rfl
@[simp] theorem setIsle_unitKeys (s : State) (n : Nat) (v : Isle) : (s.setIsle n v).unitKeys = s.unitKeys := rfl
@[simp] theorem setIsle_fab (s : State) (n : Nat) (v : Isle) : (s.setIsle n v).fab = s.fab := rfl
@[simp] theorem setIsle_sh (s : State) (n : Nat) (v : Isle) : (s.setIsle n v).sh = s.sh := rfl
@[simp] theorem setIsle_reads (s : State) (n : Nat) (v : Isle) : (s.setIsle n v).reads = s.reads := rfl
@[simp] theorem setIsle_nextRead (s : State) (n : Nat) (v : Isle) : (s.setIsle n v).nextRead = s.nextRead := rfl
@[simp] theorem setIsle_trays (s : State) (n : Nat) (v : Isle) : (s.setIsle n v).trays = s.trays := rfl
@[simp] theorem setIsle_flt (s : State) (n : Nat) (v : Isle) : (s.setIsle n v).flt = s.flt := rfl
@[simp] theorem setIsle_colms (s : State) (n : Nat) (v : Isle) : (s.setIsle n v).colms = s.colms := rfl
@[simp] theorem setIsle_keySerial (s : State) (n : Nat) (v : Isle) : (s.setIsle n v).keySerial = s.keySerial := rfl
@[simp] theorem setIsle_keyBank (s : State) (n : Nat) (v : Isle) : (s.setIsle n v).keyBank = s.keyBank := rfl
@[simp] theorem setIsle_keys (s : State) (n : Nat) (v : Isle) : (s.setIsle n v).keys = s.keys := rfl
@[simp] theorem setIsle_boot (s : State) (n : Nat) (v : Isle) : (s.setIsle n v).boot = s.boot := rfl
@[simp] theorem setIsle_fuses (s : State) (n : Nat) (v : Isle) : (s.setIsle n v).fuses = s.fuses := rfl
@[simp] theorem setIsle_pwr (s : State) (n : Nat) (v : Isle) : (s.setIsle n v).pwr = s.pwr := rfl
@[simp] theorem setIsle_therm (s : State) (n : Nat) (v : Isle) : (s.setIsle n v).therm = s.therm := rfl
@[simp] theorem setIsle_sports (s : State) (n : Nat) (v : Isle) : (s.setIsle n v).sports = s.sports := rfl
@[simp] theorem setIsle_pins (s : State) (n : Nat) (v : Isle) : (s.setIsle n v).pins = s.pins := rfl
@[simp] theorem setIsle_pipes (s : State) (n : Nat) (v : Isle) : (s.setIsle n v).pipes = s.pipes := rfl
@[simp] theorem setIsle_intakes (s : State) (n : Nat) (v : Isle) : (s.setIsle n v).intakes = s.intakes := rfl
@[simp] theorem setIsle_stw (s : State) (n : Nat) (v : Isle) : (s.setIsle n v).stw = s.stw := rfl
@[simp] theorem setIsle_upd (s : State) (n : Nat) (v : Isle) : (s.setIsle n v).upd = s.upd := rfl
@[simp] theorem setIsle_store (s : State) (n : Nat) (v : Isle) : (s.setIsle n v).store = s.store := rfl
@[simp] theorem setIsle_out (s : State) (n : Nat) (v : Isle) : (s.setIsle n v).out = s.out := rfl
@[simp] theorem setIsle_freeCtr (s : State) (n : Nat) (v : Isle) : (s.setIsle n v).freeCtr = s.freeCtr := rfl
@[simp] theorem setIsle_pending (s : State) (n : Nat) (v : Isle) : (s.setIsle n v).pending = s.pending := rfl

/-! ### State.setCore -/

@[simp] theorem setCore_self (s : State) (n : Nat) (v : Core) : (s.setCore n v).core n = v := by
  simp [State.setCore, State.core]
theorem setCore_ne (s : State) {n m : Nat} (v : Core) (h : m ≠ n) : (s.setCore n v).core m = s.core m := by
  simp [State.setCore, State.core, tget_tset_ne _ _ _ h]
@[simp] theorem setCore_win (s : State) (n : Nat) (v : Core) : (s.setCore n v).win = s.win := rfl
@[simp] theorem setCore_ports (s : State) (n : Nat) (v : Core) : (s.setCore n v).ports = s.ports := rfl
@[simp] theorem setCore_fns (s : State) (n : Nat) (v : Core) : (s.setCore n v).fns = s.fns := rfl
@[simp] theorem setCore_tens (s : State) (n : Nat) (v : Core) : (s.setCore n v).tens = s.tens := rfl
@[simp] theorem setCore_parts (s : State) (n : Nat) (v : Core) : (s.setCore n v).parts = s.parts := rfl
@[simp] theorem setCore_rings (s : State) (n : Nat) (v : Core) : (s.setCore n v).rings = s.rings := rfl
@[simp] theorem setCore_mevHeld (s : State) (n : Nat) (v : Core) : (s.setCore n v).mevHeld = s.mevHeld := rfl
@[simp] theorem setCore_mevLost (s : State) (n : Nat) (v : Core) : (s.setCore n v).mevLost = s.mevLost := rfl
@[simp] theorem setCore_mevRun (s : State) (n : Nat) (v : Core) : (s.setCore n v).mevRun = s.mevRun := rfl
@[simp] theorem setCore_mods (s : State) (n : Nat) (v : Core) : (s.setCore n v).mods = s.mods := rfl
@[simp] theorem setCore_isles (s : State) (n : Nat) (v : Core) : (s.setCore n v).isles = s.isles := rfl
@[simp] theorem setCore_chans (s : State) (n : Nat) (v : Core) : (s.setCore n v).chans = s.chans := rfl
@[simp] theorem setCore_cols (s : State) (n : Nat) (v : Core) : (s.setCore n v).cols = s.cols := rfl
@[simp] theorem setCore_badUnits (s : State) (n : Nat) (v : Core) : (s.setCore n v).badUnits = s.badUnits := rfl
@[simp] theorem setCore_unitKeys (s : State) (n : Nat) (v : Core) : (s.setCore n v).unitKeys = s.unitKeys := rfl
@[simp] theorem setCore_fab (s : State) (n : Nat) (v : Core) : (s.setCore n v).fab = s.fab := rfl
@[simp] theorem setCore_sh (s : State) (n : Nat) (v : Core) : (s.setCore n v).sh = s.sh := rfl
@[simp] theorem setCore_reads (s : State) (n : Nat) (v : Core) : (s.setCore n v).reads = s.reads := rfl
@[simp] theorem setCore_nextRead (s : State) (n : Nat) (v : Core) : (s.setCore n v).nextRead = s.nextRead := rfl
@[simp] theorem setCore_trays (s : State) (n : Nat) (v : Core) : (s.setCore n v).trays = s.trays := rfl
@[simp] theorem setCore_flt (s : State) (n : Nat) (v : Core) : (s.setCore n v).flt = s.flt := rfl
@[simp] theorem setCore_colms (s : State) (n : Nat) (v : Core) : (s.setCore n v).colms = s.colms := rfl
@[simp] theorem setCore_keySerial (s : State) (n : Nat) (v : Core) : (s.setCore n v).keySerial = s.keySerial := rfl
@[simp] theorem setCore_keyBank (s : State) (n : Nat) (v : Core) : (s.setCore n v).keyBank = s.keyBank := rfl
@[simp] theorem setCore_keys (s : State) (n : Nat) (v : Core) : (s.setCore n v).keys = s.keys := rfl
@[simp] theorem setCore_boot (s : State) (n : Nat) (v : Core) : (s.setCore n v).boot = s.boot := rfl
@[simp] theorem setCore_fuses (s : State) (n : Nat) (v : Core) : (s.setCore n v).fuses = s.fuses := rfl
@[simp] theorem setCore_pwr (s : State) (n : Nat) (v : Core) : (s.setCore n v).pwr = s.pwr := rfl
@[simp] theorem setCore_therm (s : State) (n : Nat) (v : Core) : (s.setCore n v).therm = s.therm := rfl
@[simp] theorem setCore_sports (s : State) (n : Nat) (v : Core) : (s.setCore n v).sports = s.sports := rfl
@[simp] theorem setCore_pins (s : State) (n : Nat) (v : Core) : (s.setCore n v).pins = s.pins := rfl
@[simp] theorem setCore_pipes (s : State) (n : Nat) (v : Core) : (s.setCore n v).pipes = s.pipes := rfl
@[simp] theorem setCore_intakes (s : State) (n : Nat) (v : Core) : (s.setCore n v).intakes = s.intakes := rfl
@[simp] theorem setCore_stw (s : State) (n : Nat) (v : Core) : (s.setCore n v).stw = s.stw := rfl
@[simp] theorem setCore_upd (s : State) (n : Nat) (v : Core) : (s.setCore n v).upd = s.upd := rfl
@[simp] theorem setCore_store (s : State) (n : Nat) (v : Core) : (s.setCore n v).store = s.store := rfl
@[simp] theorem setCore_out (s : State) (n : Nat) (v : Core) : (s.setCore n v).out = s.out := rfl
@[simp] theorem setCore_freeCtr (s : State) (n : Nat) (v : Core) : (s.setCore n v).freeCtr = s.freeCtr := rfl
@[simp] theorem setCore_pending (s : State) (n : Nat) (v : Core) : (s.setCore n v).pending = s.pending := rfl

/-! ### State.setChan -/

@[simp] theorem setChan_self (s : State) (n : Nat) (v : Chan) : (s.setChan n v).chan n = v := by
  simp [State.setChan, State.chan]
theorem setChan_ne (s : State) {n m : Nat} (v : Chan) (h : m ≠ n) : (s.setChan n v).chan m = s.chan m := by
  simp [State.setChan, State.chan, tget_tset_ne _ _ _ h]
@[simp] theorem setChan_win (s : State) (n : Nat) (v : Chan) : (s.setChan n v).win = s.win := rfl
@[simp] theorem setChan_ports (s : State) (n : Nat) (v : Chan) : (s.setChan n v).ports = s.ports := rfl
@[simp] theorem setChan_fns (s : State) (n : Nat) (v : Chan) : (s.setChan n v).fns = s.fns := rfl
@[simp] theorem setChan_tens (s : State) (n : Nat) (v : Chan) : (s.setChan n v).tens = s.tens := rfl
@[simp] theorem setChan_parts (s : State) (n : Nat) (v : Chan) : (s.setChan n v).parts = s.parts := rfl
@[simp] theorem setChan_rings (s : State) (n : Nat) (v : Chan) : (s.setChan n v).rings = s.rings := rfl
@[simp] theorem setChan_mevHeld (s : State) (n : Nat) (v : Chan) : (s.setChan n v).mevHeld = s.mevHeld := rfl
@[simp] theorem setChan_mevLost (s : State) (n : Nat) (v : Chan) : (s.setChan n v).mevLost = s.mevLost := rfl
@[simp] theorem setChan_mevRun (s : State) (n : Nat) (v : Chan) : (s.setChan n v).mevRun = s.mevRun := rfl
@[simp] theorem setChan_mods (s : State) (n : Nat) (v : Chan) : (s.setChan n v).mods = s.mods := rfl
@[simp] theorem setChan_isles (s : State) (n : Nat) (v : Chan) : (s.setChan n v).isles = s.isles := rfl
@[simp] theorem setChan_cores (s : State) (n : Nat) (v : Chan) : (s.setChan n v).cores = s.cores := rfl
@[simp] theorem setChan_cols (s : State) (n : Nat) (v : Chan) : (s.setChan n v).cols = s.cols := rfl
@[simp] theorem setChan_badUnits (s : State) (n : Nat) (v : Chan) : (s.setChan n v).badUnits = s.badUnits := rfl
@[simp] theorem setChan_unitKeys (s : State) (n : Nat) (v : Chan) : (s.setChan n v).unitKeys = s.unitKeys := rfl
@[simp] theorem setChan_fab (s : State) (n : Nat) (v : Chan) : (s.setChan n v).fab = s.fab := rfl
@[simp] theorem setChan_sh (s : State) (n : Nat) (v : Chan) : (s.setChan n v).sh = s.sh := rfl
@[simp] theorem setChan_reads (s : State) (n : Nat) (v : Chan) : (s.setChan n v).reads = s.reads := rfl
@[simp] theorem setChan_nextRead (s : State) (n : Nat) (v : Chan) : (s.setChan n v).nextRead = s.nextRead := rfl
@[simp] theorem setChan_trays (s : State) (n : Nat) (v : Chan) : (s.setChan n v).trays = s.trays := rfl
@[simp] theorem setChan_flt (s : State) (n : Nat) (v : Chan) : (s.setChan n v).flt = s.flt := rfl
@[simp] theorem setChan_colms (s : State) (n : Nat) (v : Chan) : (s.setChan n v).colms = s.colms := rfl
@[simp] theorem setChan_keySerial (s : State) (n : Nat) (v : Chan) : (s.setChan n v).keySerial = s.keySerial := rfl
@[simp] theorem setChan_keyBank (s : State) (n : Nat) (v : Chan) : (s.setChan n v).keyBank = s.keyBank := rfl
@[simp] theorem setChan_keys (s : State) (n : Nat) (v : Chan) : (s.setChan n v).keys = s.keys := rfl
@[simp] theorem setChan_boot (s : State) (n : Nat) (v : Chan) : (s.setChan n v).boot = s.boot := rfl
@[simp] theorem setChan_fuses (s : State) (n : Nat) (v : Chan) : (s.setChan n v).fuses = s.fuses := rfl
@[simp] theorem setChan_pwr (s : State) (n : Nat) (v : Chan) : (s.setChan n v).pwr = s.pwr := rfl
@[simp] theorem setChan_therm (s : State) (n : Nat) (v : Chan) : (s.setChan n v).therm = s.therm := rfl
@[simp] theorem setChan_sports (s : State) (n : Nat) (v : Chan) : (s.setChan n v).sports = s.sports := rfl
@[simp] theorem setChan_pins (s : State) (n : Nat) (v : Chan) : (s.setChan n v).pins = s.pins := rfl
@[simp] theorem setChan_pipes (s : State) (n : Nat) (v : Chan) : (s.setChan n v).pipes = s.pipes := rfl
@[simp] theorem setChan_intakes (s : State) (n : Nat) (v : Chan) : (s.setChan n v).intakes = s.intakes := rfl
@[simp] theorem setChan_stw (s : State) (n : Nat) (v : Chan) : (s.setChan n v).stw = s.stw := rfl
@[simp] theorem setChan_upd (s : State) (n : Nat) (v : Chan) : (s.setChan n v).upd = s.upd := rfl
@[simp] theorem setChan_store (s : State) (n : Nat) (v : Chan) : (s.setChan n v).store = s.store := rfl
@[simp] theorem setChan_out (s : State) (n : Nat) (v : Chan) : (s.setChan n v).out = s.out := rfl
@[simp] theorem setChan_freeCtr (s : State) (n : Nat) (v : Chan) : (s.setChan n v).freeCtr = s.freeCtr := rfl
@[simp] theorem setChan_pending (s : State) (n : Nat) (v : Chan) : (s.setChan n v).pending = s.pending := rfl

/-! ### State.setTray -/

@[simp] theorem setTray_self (s : State) (n : Nat) (v : Tray) : (s.setTray n v).tray n = v := by
  simp [State.setTray, State.tray]
theorem setTray_ne (s : State) {n m : Nat} (v : Tray) (h : m ≠ n) : (s.setTray n v).tray m = s.tray m := by
  simp [State.setTray, State.tray, tget_tset_ne _ _ _ h]
@[simp] theorem setTray_win (s : State) (n : Nat) (v : Tray) : (s.setTray n v).win = s.win := rfl
@[simp] theorem setTray_ports (s : State) (n : Nat) (v : Tray) : (s.setTray n v).ports = s.ports := rfl
@[simp] theorem setTray_fns (s : State) (n : Nat) (v : Tray) : (s.setTray n v).fns = s.fns := rfl
@[simp] theorem setTray_tens (s : State) (n : Nat) (v : Tray) : (s.setTray n v).tens = s.tens := rfl
@[simp] theorem setTray_parts (s : State) (n : Nat) (v : Tray) : (s.setTray n v).parts = s.parts := rfl
@[simp] theorem setTray_rings (s : State) (n : Nat) (v : Tray) : (s.setTray n v).rings = s.rings := rfl
@[simp] theorem setTray_mevHeld (s : State) (n : Nat) (v : Tray) : (s.setTray n v).mevHeld = s.mevHeld := rfl
@[simp] theorem setTray_mevLost (s : State) (n : Nat) (v : Tray) : (s.setTray n v).mevLost = s.mevLost := rfl
@[simp] theorem setTray_mevRun (s : State) (n : Nat) (v : Tray) : (s.setTray n v).mevRun = s.mevRun := rfl
@[simp] theorem setTray_mods (s : State) (n : Nat) (v : Tray) : (s.setTray n v).mods = s.mods := rfl
@[simp] theorem setTray_isles (s : State) (n : Nat) (v : Tray) : (s.setTray n v).isles = s.isles := rfl
@[simp] theorem setTray_cores (s : State) (n : Nat) (v : Tray) : (s.setTray n v).cores = s.cores := rfl
@[simp] theorem setTray_chans (s : State) (n : Nat) (v : Tray) : (s.setTray n v).chans = s.chans := rfl
@[simp] theorem setTray_cols (s : State) (n : Nat) (v : Tray) : (s.setTray n v).cols = s.cols := rfl
@[simp] theorem setTray_badUnits (s : State) (n : Nat) (v : Tray) : (s.setTray n v).badUnits = s.badUnits := rfl
@[simp] theorem setTray_unitKeys (s : State) (n : Nat) (v : Tray) : (s.setTray n v).unitKeys = s.unitKeys := rfl
@[simp] theorem setTray_fab (s : State) (n : Nat) (v : Tray) : (s.setTray n v).fab = s.fab := rfl
@[simp] theorem setTray_sh (s : State) (n : Nat) (v : Tray) : (s.setTray n v).sh = s.sh := rfl
@[simp] theorem setTray_reads (s : State) (n : Nat) (v : Tray) : (s.setTray n v).reads = s.reads := rfl
@[simp] theorem setTray_nextRead (s : State) (n : Nat) (v : Tray) : (s.setTray n v).nextRead = s.nextRead := rfl
@[simp] theorem setTray_flt (s : State) (n : Nat) (v : Tray) : (s.setTray n v).flt = s.flt := rfl
@[simp] theorem setTray_colms (s : State) (n : Nat) (v : Tray) : (s.setTray n v).colms = s.colms := rfl
@[simp] theorem setTray_keySerial (s : State) (n : Nat) (v : Tray) : (s.setTray n v).keySerial = s.keySerial := rfl
@[simp] theorem setTray_keyBank (s : State) (n : Nat) (v : Tray) : (s.setTray n v).keyBank = s.keyBank := rfl
@[simp] theorem setTray_keys (s : State) (n : Nat) (v : Tray) : (s.setTray n v).keys = s.keys := rfl
@[simp] theorem setTray_boot (s : State) (n : Nat) (v : Tray) : (s.setTray n v).boot = s.boot := rfl
@[simp] theorem setTray_fuses (s : State) (n : Nat) (v : Tray) : (s.setTray n v).fuses = s.fuses := rfl
@[simp] theorem setTray_pwr (s : State) (n : Nat) (v : Tray) : (s.setTray n v).pwr = s.pwr := rfl
@[simp] theorem setTray_therm (s : State) (n : Nat) (v : Tray) : (s.setTray n v).therm = s.therm := rfl
@[simp] theorem setTray_sports (s : State) (n : Nat) (v : Tray) : (s.setTray n v).sports = s.sports := rfl
@[simp] theorem setTray_pins (s : State) (n : Nat) (v : Tray) : (s.setTray n v).pins = s.pins := rfl
@[simp] theorem setTray_pipes (s : State) (n : Nat) (v : Tray) : (s.setTray n v).pipes = s.pipes := rfl
@[simp] theorem setTray_intakes (s : State) (n : Nat) (v : Tray) : (s.setTray n v).intakes = s.intakes := rfl
@[simp] theorem setTray_stw (s : State) (n : Nat) (v : Tray) : (s.setTray n v).stw = s.stw := rfl
@[simp] theorem setTray_upd (s : State) (n : Nat) (v : Tray) : (s.setTray n v).upd = s.upd := rfl
@[simp] theorem setTray_store (s : State) (n : Nat) (v : Tray) : (s.setTray n v).store = s.store := rfl
@[simp] theorem setTray_out (s : State) (n : Nat) (v : Tray) : (s.setTray n v).out = s.out := rfl
@[simp] theorem setTray_freeCtr (s : State) (n : Nat) (v : Tray) : (s.setTray n v).freeCtr = s.freeCtr := rfl
@[simp] theorem setTray_pending (s : State) (n : Nat) (v : Tray) : (s.setTray n v).pending = s.pending := rfl

/-! ### State.setColm -/

@[simp] theorem setColm_self (s : State) (n : Nat) (v : Colm) : (s.setColm n v).colm n = v := by
  simp [State.setColm, State.colm]
theorem setColm_ne (s : State) {n m : Nat} (v : Colm) (h : m ≠ n) : (s.setColm n v).colm m = s.colm m := by
  simp [State.setColm, State.colm, tget_tset_ne _ _ _ h]
@[simp] theorem setColm_win (s : State) (n : Nat) (v : Colm) : (s.setColm n v).win = s.win := rfl
@[simp] theorem setColm_ports (s : State) (n : Nat) (v : Colm) : (s.setColm n v).ports = s.ports := rfl
@[simp] theorem setColm_fns (s : State) (n : Nat) (v : Colm) : (s.setColm n v).fns = s.fns := rfl
@[simp] theorem setColm_tens (s : State) (n : Nat) (v : Colm) : (s.setColm n v).tens = s.tens := rfl
@[simp] theorem setColm_parts (s : State) (n : Nat) (v : Colm) : (s.setColm n v).parts = s.parts := rfl
@[simp] theorem setColm_rings (s : State) (n : Nat) (v : Colm) : (s.setColm n v).rings = s.rings := rfl
@[simp] theorem setColm_mevHeld (s : State) (n : Nat) (v : Colm) : (s.setColm n v).mevHeld = s.mevHeld := rfl
@[simp] theorem setColm_mevLost (s : State) (n : Nat) (v : Colm) : (s.setColm n v).mevLost = s.mevLost := rfl
@[simp] theorem setColm_mevRun (s : State) (n : Nat) (v : Colm) : (s.setColm n v).mevRun = s.mevRun := rfl
@[simp] theorem setColm_mods (s : State) (n : Nat) (v : Colm) : (s.setColm n v).mods = s.mods := rfl
@[simp] theorem setColm_isles (s : State) (n : Nat) (v : Colm) : (s.setColm n v).isles = s.isles := rfl
@[simp] theorem setColm_cores (s : State) (n : Nat) (v : Colm) : (s.setColm n v).cores = s.cores := rfl
@[simp] theorem setColm_chans (s : State) (n : Nat) (v : Colm) : (s.setColm n v).chans = s.chans := rfl
@[simp] theorem setColm_cols (s : State) (n : Nat) (v : Colm) : (s.setColm n v).cols = s.cols := rfl
@[simp] theorem setColm_badUnits (s : State) (n : Nat) (v : Colm) : (s.setColm n v).badUnits = s.badUnits := rfl
@[simp] theorem setColm_unitKeys (s : State) (n : Nat) (v : Colm) : (s.setColm n v).unitKeys = s.unitKeys := rfl
@[simp] theorem setColm_fab (s : State) (n : Nat) (v : Colm) : (s.setColm n v).fab = s.fab := rfl
@[simp] theorem setColm_sh (s : State) (n : Nat) (v : Colm) : (s.setColm n v).sh = s.sh := rfl
@[simp] theorem setColm_reads (s : State) (n : Nat) (v : Colm) : (s.setColm n v).reads = s.reads := rfl
@[simp] theorem setColm_nextRead (s : State) (n : Nat) (v : Colm) : (s.setColm n v).nextRead = s.nextRead := rfl
@[simp] theorem setColm_trays (s : State) (n : Nat) (v : Colm) : (s.setColm n v).trays = s.trays := rfl
@[simp] theorem setColm_flt (s : State) (n : Nat) (v : Colm) : (s.setColm n v).flt = s.flt := rfl
@[simp] theorem setColm_keySerial (s : State) (n : Nat) (v : Colm) : (s.setColm n v).keySerial = s.keySerial := rfl
@[simp] theorem setColm_keyBank (s : State) (n : Nat) (v : Colm) : (s.setColm n v).keyBank = s.keyBank := rfl
@[simp] theorem setColm_keys (s : State) (n : Nat) (v : Colm) : (s.setColm n v).keys = s.keys := rfl
@[simp] theorem setColm_boot (s : State) (n : Nat) (v : Colm) : (s.setColm n v).boot = s.boot := rfl
@[simp] theorem setColm_fuses (s : State) (n : Nat) (v : Colm) : (s.setColm n v).fuses = s.fuses := rfl
@[simp] theorem setColm_pwr (s : State) (n : Nat) (v : Colm) : (s.setColm n v).pwr = s.pwr := rfl
@[simp] theorem setColm_therm (s : State) (n : Nat) (v : Colm) : (s.setColm n v).therm = s.therm := rfl
@[simp] theorem setColm_sports (s : State) (n : Nat) (v : Colm) : (s.setColm n v).sports = s.sports := rfl
@[simp] theorem setColm_pins (s : State) (n : Nat) (v : Colm) : (s.setColm n v).pins = s.pins := rfl
@[simp] theorem setColm_pipes (s : State) (n : Nat) (v : Colm) : (s.setColm n v).pipes = s.pipes := rfl
@[simp] theorem setColm_intakes (s : State) (n : Nat) (v : Colm) : (s.setColm n v).intakes = s.intakes := rfl
@[simp] theorem setColm_stw (s : State) (n : Nat) (v : Colm) : (s.setColm n v).stw = s.stw := rfl
@[simp] theorem setColm_upd (s : State) (n : Nat) (v : Colm) : (s.setColm n v).upd = s.upd := rfl
@[simp] theorem setColm_store (s : State) (n : Nat) (v : Colm) : (s.setColm n v).store = s.store := rfl
@[simp] theorem setColm_out (s : State) (n : Nat) (v : Colm) : (s.setColm n v).out = s.out := rfl
@[simp] theorem setColm_freeCtr (s : State) (n : Nat) (v : Colm) : (s.setColm n v).freeCtr = s.freeCtr := rfl
@[simp] theorem setColm_pending (s : State) (n : Nat) (v : Colm) : (s.setColm n v).pending = s.pending := rfl

/-! ### State.setSport -/

@[simp] theorem setSport_self (s : State) (n : Nat) (v : SPort) : (s.setSport n v).sport n = v := by
  simp [State.setSport, State.sport]
theorem setSport_ne (s : State) {n m : Nat} (v : SPort) (h : m ≠ n) : (s.setSport n v).sport m = s.sport m := by
  simp [State.setSport, State.sport, tget_tset_ne _ _ _ h]
@[simp] theorem setSport_win (s : State) (n : Nat) (v : SPort) : (s.setSport n v).win = s.win := rfl
@[simp] theorem setSport_ports (s : State) (n : Nat) (v : SPort) : (s.setSport n v).ports = s.ports := rfl
@[simp] theorem setSport_fns (s : State) (n : Nat) (v : SPort) : (s.setSport n v).fns = s.fns := rfl
@[simp] theorem setSport_tens (s : State) (n : Nat) (v : SPort) : (s.setSport n v).tens = s.tens := rfl
@[simp] theorem setSport_parts (s : State) (n : Nat) (v : SPort) : (s.setSport n v).parts = s.parts := rfl
@[simp] theorem setSport_rings (s : State) (n : Nat) (v : SPort) : (s.setSport n v).rings = s.rings := rfl
@[simp] theorem setSport_mevHeld (s : State) (n : Nat) (v : SPort) : (s.setSport n v).mevHeld = s.mevHeld := rfl
@[simp] theorem setSport_mevLost (s : State) (n : Nat) (v : SPort) : (s.setSport n v).mevLost = s.mevLost := rfl
@[simp] theorem setSport_mevRun (s : State) (n : Nat) (v : SPort) : (s.setSport n v).mevRun = s.mevRun := rfl
@[simp] theorem setSport_mods (s : State) (n : Nat) (v : SPort) : (s.setSport n v).mods = s.mods := rfl
@[simp] theorem setSport_isles (s : State) (n : Nat) (v : SPort) : (s.setSport n v).isles = s.isles := rfl
@[simp] theorem setSport_cores (s : State) (n : Nat) (v : SPort) : (s.setSport n v).cores = s.cores := rfl
@[simp] theorem setSport_chans (s : State) (n : Nat) (v : SPort) : (s.setSport n v).chans = s.chans := rfl
@[simp] theorem setSport_cols (s : State) (n : Nat) (v : SPort) : (s.setSport n v).cols = s.cols := rfl
@[simp] theorem setSport_badUnits (s : State) (n : Nat) (v : SPort) : (s.setSport n v).badUnits = s.badUnits := rfl
@[simp] theorem setSport_unitKeys (s : State) (n : Nat) (v : SPort) : (s.setSport n v).unitKeys = s.unitKeys := rfl
@[simp] theorem setSport_fab (s : State) (n : Nat) (v : SPort) : (s.setSport n v).fab = s.fab := rfl
@[simp] theorem setSport_sh (s : State) (n : Nat) (v : SPort) : (s.setSport n v).sh = s.sh := rfl
@[simp] theorem setSport_reads (s : State) (n : Nat) (v : SPort) : (s.setSport n v).reads = s.reads := rfl
@[simp] theorem setSport_nextRead (s : State) (n : Nat) (v : SPort) : (s.setSport n v).nextRead = s.nextRead := rfl
@[simp] theorem setSport_trays (s : State) (n : Nat) (v : SPort) : (s.setSport n v).trays = s.trays := rfl
@[simp] theorem setSport_flt (s : State) (n : Nat) (v : SPort) : (s.setSport n v).flt = s.flt := rfl
@[simp] theorem setSport_colms (s : State) (n : Nat) (v : SPort) : (s.setSport n v).colms = s.colms := rfl
@[simp] theorem setSport_keySerial (s : State) (n : Nat) (v : SPort) : (s.setSport n v).keySerial = s.keySerial := rfl
@[simp] theorem setSport_keyBank (s : State) (n : Nat) (v : SPort) : (s.setSport n v).keyBank = s.keyBank := rfl
@[simp] theorem setSport_keys (s : State) (n : Nat) (v : SPort) : (s.setSport n v).keys = s.keys := rfl
@[simp] theorem setSport_boot (s : State) (n : Nat) (v : SPort) : (s.setSport n v).boot = s.boot := rfl
@[simp] theorem setSport_fuses (s : State) (n : Nat) (v : SPort) : (s.setSport n v).fuses = s.fuses := rfl
@[simp] theorem setSport_pwr (s : State) (n : Nat) (v : SPort) : (s.setSport n v).pwr = s.pwr := rfl
@[simp] theorem setSport_therm (s : State) (n : Nat) (v : SPort) : (s.setSport n v).therm = s.therm := rfl
@[simp] theorem setSport_pins (s : State) (n : Nat) (v : SPort) : (s.setSport n v).pins = s.pins := rfl
@[simp] theorem setSport_pipes (s : State) (n : Nat) (v : SPort) : (s.setSport n v).pipes = s.pipes := rfl
@[simp] theorem setSport_intakes (s : State) (n : Nat) (v : SPort) : (s.setSport n v).intakes = s.intakes := rfl
@[simp] theorem setSport_stw (s : State) (n : Nat) (v : SPort) : (s.setSport n v).stw = s.stw := rfl
@[simp] theorem setSport_upd (s : State) (n : Nat) (v : SPort) : (s.setSport n v).upd = s.upd := rfl
@[simp] theorem setSport_store (s : State) (n : Nat) (v : SPort) : (s.setSport n v).store = s.store := rfl
@[simp] theorem setSport_out (s : State) (n : Nat) (v : SPort) : (s.setSport n v).out = s.out := rfl
@[simp] theorem setSport_freeCtr (s : State) (n : Nat) (v : SPort) : (s.setSport n v).freeCtr = s.freeCtr := rfl
@[simp] theorem setSport_pending (s : State) (n : Nat) (v : SPort) : (s.setSport n v).pending = s.pending := rfl

/-! ### State.setPin -/

@[simp] theorem setPin_self (s : State) (n : Nat) (v : Pin) : (s.setPin n v).pin n = v := by
  simp [State.setPin, State.pin]
theorem setPin_ne (s : State) {n m : Nat} (v : Pin) (h : m ≠ n) : (s.setPin n v).pin m = s.pin m := by
  simp [State.setPin, State.pin, tget_tset_ne _ _ _ h]
@[simp] theorem setPin_win (s : State) (n : Nat) (v : Pin) : (s.setPin n v).win = s.win := rfl
@[simp] theorem setPin_ports (s : State) (n : Nat) (v : Pin) : (s.setPin n v).ports = s.ports := rfl
@[simp] theorem setPin_fns (s : State) (n : Nat) (v : Pin) : (s.setPin n v).fns = s.fns := rfl
@[simp] theorem setPin_tens (s : State) (n : Nat) (v : Pin) : (s.setPin n v).tens = s.tens := rfl
@[simp] theorem setPin_parts (s : State) (n : Nat) (v : Pin) : (s.setPin n v).parts = s.parts := rfl
@[simp] theorem setPin_rings (s : State) (n : Nat) (v : Pin) : (s.setPin n v).rings = s.rings := rfl
@[simp] theorem setPin_mevHeld (s : State) (n : Nat) (v : Pin) : (s.setPin n v).mevHeld = s.mevHeld := rfl
@[simp] theorem setPin_mevLost (s : State) (n : Nat) (v : Pin) : (s.setPin n v).mevLost = s.mevLost := rfl
@[simp] theorem setPin_mevRun (s : State) (n : Nat) (v : Pin) : (s.setPin n v).mevRun = s.mevRun := rfl
@[simp] theorem setPin_mods (s : State) (n : Nat) (v : Pin) : (s.setPin n v).mods = s.mods := rfl
@[simp] theorem setPin_isles (s : State) (n : Nat) (v : Pin) : (s.setPin n v).isles = s.isles := rfl
@[simp] theorem setPin_cores (s : State) (n : Nat) (v : Pin) : (s.setPin n v).cores = s.cores := rfl
@[simp] theorem setPin_chans (s : State) (n : Nat) (v : Pin) : (s.setPin n v).chans = s.chans := rfl
@[simp] theorem setPin_cols (s : State) (n : Nat) (v : Pin) : (s.setPin n v).cols = s.cols := rfl
@[simp] theorem setPin_badUnits (s : State) (n : Nat) (v : Pin) : (s.setPin n v).badUnits = s.badUnits := rfl
@[simp] theorem setPin_unitKeys (s : State) (n : Nat) (v : Pin) : (s.setPin n v).unitKeys = s.unitKeys := rfl
@[simp] theorem setPin_fab (s : State) (n : Nat) (v : Pin) : (s.setPin n v).fab = s.fab := rfl
@[simp] theorem setPin_sh (s : State) (n : Nat) (v : Pin) : (s.setPin n v).sh = s.sh := rfl
@[simp] theorem setPin_reads (s : State) (n : Nat) (v : Pin) : (s.setPin n v).reads = s.reads := rfl
@[simp] theorem setPin_nextRead (s : State) (n : Nat) (v : Pin) : (s.setPin n v).nextRead = s.nextRead := rfl
@[simp] theorem setPin_trays (s : State) (n : Nat) (v : Pin) : (s.setPin n v).trays = s.trays := rfl
@[simp] theorem setPin_flt (s : State) (n : Nat) (v : Pin) : (s.setPin n v).flt = s.flt := rfl
@[simp] theorem setPin_colms (s : State) (n : Nat) (v : Pin) : (s.setPin n v).colms = s.colms := rfl
@[simp] theorem setPin_keySerial (s : State) (n : Nat) (v : Pin) : (s.setPin n v).keySerial = s.keySerial := rfl
@[simp] theorem setPin_keyBank (s : State) (n : Nat) (v : Pin) : (s.setPin n v).keyBank = s.keyBank := rfl
@[simp] theorem setPin_keys (s : State) (n : Nat) (v : Pin) : (s.setPin n v).keys = s.keys := rfl
@[simp] theorem setPin_boot (s : State) (n : Nat) (v : Pin) : (s.setPin n v).boot = s.boot := rfl
@[simp] theorem setPin_fuses (s : State) (n : Nat) (v : Pin) : (s.setPin n v).fuses = s.fuses := rfl
@[simp] theorem setPin_pwr (s : State) (n : Nat) (v : Pin) : (s.setPin n v).pwr = s.pwr := rfl
@[simp] theorem setPin_therm (s : State) (n : Nat) (v : Pin) : (s.setPin n v).therm = s.therm := rfl
@[simp] theorem setPin_sports (s : State) (n : Nat) (v : Pin) : (s.setPin n v).sports = s.sports := rfl
@[simp] theorem setPin_pipes (s : State) (n : Nat) (v : Pin) : (s.setPin n v).pipes = s.pipes := rfl
@[simp] theorem setPin_intakes (s : State) (n : Nat) (v : Pin) : (s.setPin n v).intakes = s.intakes := rfl
@[simp] theorem setPin_stw (s : State) (n : Nat) (v : Pin) : (s.setPin n v).stw = s.stw := rfl
@[simp] theorem setPin_upd (s : State) (n : Nat) (v : Pin) : (s.setPin n v).upd = s.upd := rfl
@[simp] theorem setPin_store (s : State) (n : Nat) (v : Pin) : (s.setPin n v).store = s.store := rfl
@[simp] theorem setPin_out (s : State) (n : Nat) (v : Pin) : (s.setPin n v).out = s.out := rfl
@[simp] theorem setPin_freeCtr (s : State) (n : Nat) (v : Pin) : (s.setPin n v).freeCtr = s.freeCtr := rfl
@[simp] theorem setPin_pending (s : State) (n : Nat) (v : Pin) : (s.setPin n v).pending = s.pending := rfl

/-! ### State.setPipe -/

@[simp] theorem setPipe_self (s : State) (n : Nat) (v : Pipe) : (s.setPipe n v).pipe n = v := by
  simp [State.setPipe, State.pipe]
theorem setPipe_ne (s : State) {n m : Nat} (v : Pipe) (h : m ≠ n) : (s.setPipe n v).pipe m = s.pipe m := by
  simp [State.setPipe, State.pipe, tget_tset_ne _ _ _ h]
@[simp] theorem setPipe_win (s : State) (n : Nat) (v : Pipe) : (s.setPipe n v).win = s.win := rfl
@[simp] theorem setPipe_ports (s : State) (n : Nat) (v : Pipe) : (s.setPipe n v).ports = s.ports := rfl
@[simp] theorem setPipe_fns (s : State) (n : Nat) (v : Pipe) : (s.setPipe n v).fns = s.fns := rfl
@[simp] theorem setPipe_tens (s : State) (n : Nat) (v : Pipe) : (s.setPipe n v).tens = s.tens := rfl
@[simp] theorem setPipe_parts (s : State) (n : Nat) (v : Pipe) : (s.setPipe n v).parts = s.parts := rfl
@[simp] theorem setPipe_rings (s : State) (n : Nat) (v : Pipe) : (s.setPipe n v).rings = s.rings := rfl
@[simp] theorem setPipe_mevHeld (s : State) (n : Nat) (v : Pipe) : (s.setPipe n v).mevHeld = s.mevHeld := rfl
@[simp] theorem setPipe_mevLost (s : State) (n : Nat) (v : Pipe) : (s.setPipe n v).mevLost = s.mevLost := rfl
@[simp] theorem setPipe_mevRun (s : State) (n : Nat) (v : Pipe) : (s.setPipe n v).mevRun = s.mevRun := rfl
@[simp] theorem setPipe_mods (s : State) (n : Nat) (v : Pipe) : (s.setPipe n v).mods = s.mods := rfl
@[simp] theorem setPipe_isles (s : State) (n : Nat) (v : Pipe) : (s.setPipe n v).isles = s.isles := rfl
@[simp] theorem setPipe_cores (s : State) (n : Nat) (v : Pipe) : (s.setPipe n v).cores = s.cores := rfl
@[simp] theorem setPipe_chans (s : State) (n : Nat) (v : Pipe) : (s.setPipe n v).chans = s.chans := rfl
@[simp] theorem setPipe_cols (s : State) (n : Nat) (v : Pipe) : (s.setPipe n v).cols = s.cols := rfl
@[simp] theorem setPipe_badUnits (s : State) (n : Nat) (v : Pipe) : (s.setPipe n v).badUnits = s.badUnits := rfl
@[simp] theorem setPipe_unitKeys (s : State) (n : Nat) (v : Pipe) : (s.setPipe n v).unitKeys = s.unitKeys := rfl
@[simp] theorem setPipe_fab (s : State) (n : Nat) (v : Pipe) : (s.setPipe n v).fab = s.fab := rfl
@[simp] theorem setPipe_sh (s : State) (n : Nat) (v : Pipe) : (s.setPipe n v).sh = s.sh := rfl
@[simp] theorem setPipe_reads (s : State) (n : Nat) (v : Pipe) : (s.setPipe n v).reads = s.reads := rfl
@[simp] theorem setPipe_nextRead (s : State) (n : Nat) (v : Pipe) : (s.setPipe n v).nextRead = s.nextRead := rfl
@[simp] theorem setPipe_trays (s : State) (n : Nat) (v : Pipe) : (s.setPipe n v).trays = s.trays := rfl
@[simp] theorem setPipe_flt (s : State) (n : Nat) (v : Pipe) : (s.setPipe n v).flt = s.flt := rfl
@[simp] theorem setPipe_colms (s : State) (n : Nat) (v : Pipe) : (s.setPipe n v).colms = s.colms := rfl
@[simp] theorem setPipe_keySerial (s : State) (n : Nat) (v : Pipe) : (s.setPipe n v).keySerial = s.keySerial := rfl
@[simp] theorem setPipe_keyBank (s : State) (n : Nat) (v : Pipe) : (s.setPipe n v).keyBank = s.keyBank := rfl
@[simp] theorem setPipe_keys (s : State) (n : Nat) (v : Pipe) : (s.setPipe n v).keys = s.keys := rfl
@[simp] theorem setPipe_boot (s : State) (n : Nat) (v : Pipe) : (s.setPipe n v).boot = s.boot := rfl
@[simp] theorem setPipe_fuses (s : State) (n : Nat) (v : Pipe) : (s.setPipe n v).fuses = s.fuses := rfl
@[simp] theorem setPipe_pwr (s : State) (n : Nat) (v : Pipe) : (s.setPipe n v).pwr = s.pwr := rfl
@[simp] theorem setPipe_therm (s : State) (n : Nat) (v : Pipe) : (s.setPipe n v).therm = s.therm := rfl
@[simp] theorem setPipe_sports (s : State) (n : Nat) (v : Pipe) : (s.setPipe n v).sports = s.sports := rfl
@[simp] theorem setPipe_pins (s : State) (n : Nat) (v : Pipe) : (s.setPipe n v).pins = s.pins := rfl
@[simp] theorem setPipe_intakes (s : State) (n : Nat) (v : Pipe) : (s.setPipe n v).intakes = s.intakes := rfl
@[simp] theorem setPipe_stw (s : State) (n : Nat) (v : Pipe) : (s.setPipe n v).stw = s.stw := rfl
@[simp] theorem setPipe_upd (s : State) (n : Nat) (v : Pipe) : (s.setPipe n v).upd = s.upd := rfl
@[simp] theorem setPipe_store (s : State) (n : Nat) (v : Pipe) : (s.setPipe n v).store = s.store := rfl
@[simp] theorem setPipe_out (s : State) (n : Nat) (v : Pipe) : (s.setPipe n v).out = s.out := rfl
@[simp] theorem setPipe_freeCtr (s : State) (n : Nat) (v : Pipe) : (s.setPipe n v).freeCtr = s.freeCtr := rfl
@[simp] theorem setPipe_pending (s : State) (n : Nat) (v : Pipe) : (s.setPipe n v).pending = s.pending := rfl

/-! ### State.setIntake -/

@[simp] theorem setIntake_self (s : State) (n : Nat) (v : Intake) : (s.setIntake n v).intake n = v := by
  simp [State.setIntake, State.intake]
theorem setIntake_ne (s : State) {n m : Nat} (v : Intake) (h : m ≠ n) : (s.setIntake n v).intake m = s.intake m := by
  simp [State.setIntake, State.intake, tget_tset_ne _ _ _ h]
@[simp] theorem setIntake_win (s : State) (n : Nat) (v : Intake) : (s.setIntake n v).win = s.win := rfl
@[simp] theorem setIntake_ports (s : State) (n : Nat) (v : Intake) : (s.setIntake n v).ports = s.ports := rfl
@[simp] theorem setIntake_fns (s : State) (n : Nat) (v : Intake) : (s.setIntake n v).fns = s.fns := rfl
@[simp] theorem setIntake_tens (s : State) (n : Nat) (v : Intake) : (s.setIntake n v).tens = s.tens := rfl
@[simp] theorem setIntake_parts (s : State) (n : Nat) (v : Intake) : (s.setIntake n v).parts = s.parts := rfl
@[simp] theorem setIntake_rings (s : State) (n : Nat) (v : Intake) : (s.setIntake n v).rings = s.rings := rfl
@[simp] theorem setIntake_mevHeld (s : State) (n : Nat) (v : Intake) : (s.setIntake n v).mevHeld = s.mevHeld := rfl
@[simp] theorem setIntake_mevLost (s : State) (n : Nat) (v : Intake) : (s.setIntake n v).mevLost = s.mevLost := rfl
@[simp] theorem setIntake_mevRun (s : State) (n : Nat) (v : Intake) : (s.setIntake n v).mevRun = s.mevRun := rfl
@[simp] theorem setIntake_mods (s : State) (n : Nat) (v : Intake) : (s.setIntake n v).mods = s.mods := rfl
@[simp] theorem setIntake_isles (s : State) (n : Nat) (v : Intake) : (s.setIntake n v).isles = s.isles := rfl
@[simp] theorem setIntake_cores (s : State) (n : Nat) (v : Intake) : (s.setIntake n v).cores = s.cores := rfl
@[simp] theorem setIntake_chans (s : State) (n : Nat) (v : Intake) : (s.setIntake n v).chans = s.chans := rfl
@[simp] theorem setIntake_cols (s : State) (n : Nat) (v : Intake) : (s.setIntake n v).cols = s.cols := rfl
@[simp] theorem setIntake_badUnits (s : State) (n : Nat) (v : Intake) : (s.setIntake n v).badUnits = s.badUnits := rfl
@[simp] theorem setIntake_unitKeys (s : State) (n : Nat) (v : Intake) : (s.setIntake n v).unitKeys = s.unitKeys := rfl
@[simp] theorem setIntake_fab (s : State) (n : Nat) (v : Intake) : (s.setIntake n v).fab = s.fab := rfl
@[simp] theorem setIntake_sh (s : State) (n : Nat) (v : Intake) : (s.setIntake n v).sh = s.sh := rfl
@[simp] theorem setIntake_reads (s : State) (n : Nat) (v : Intake) : (s.setIntake n v).reads = s.reads := rfl
@[simp] theorem setIntake_nextRead (s : State) (n : Nat) (v : Intake) : (s.setIntake n v).nextRead = s.nextRead := rfl
@[simp] theorem setIntake_trays (s : State) (n : Nat) (v : Intake) : (s.setIntake n v).trays = s.trays := rfl
@[simp] theorem setIntake_flt (s : State) (n : Nat) (v : Intake) : (s.setIntake n v).flt = s.flt := rfl
@[simp] theorem setIntake_colms (s : State) (n : Nat) (v : Intake) : (s.setIntake n v).colms = s.colms := rfl
@[simp] theorem setIntake_keySerial (s : State) (n : Nat) (v : Intake) : (s.setIntake n v).keySerial = s.keySerial := rfl
@[simp] theorem setIntake_keyBank (s : State) (n : Nat) (v : Intake) : (s.setIntake n v).keyBank = s.keyBank := rfl
@[simp] theorem setIntake_keys (s : State) (n : Nat) (v : Intake) : (s.setIntake n v).keys = s.keys := rfl
@[simp] theorem setIntake_boot (s : State) (n : Nat) (v : Intake) : (s.setIntake n v).boot = s.boot := rfl
@[simp] theorem setIntake_fuses (s : State) (n : Nat) (v : Intake) : (s.setIntake n v).fuses = s.fuses := rfl
@[simp] theorem setIntake_pwr (s : State) (n : Nat) (v : Intake) : (s.setIntake n v).pwr = s.pwr := rfl
@[simp] theorem setIntake_therm (s : State) (n : Nat) (v : Intake) : (s.setIntake n v).therm = s.therm := rfl
@[simp] theorem setIntake_sports (s : State) (n : Nat) (v : Intake) : (s.setIntake n v).sports = s.sports := rfl
@[simp] theorem setIntake_pins (s : State) (n : Nat) (v : Intake) : (s.setIntake n v).pins = s.pins := rfl
@[simp] theorem setIntake_pipes (s : State) (n : Nat) (v : Intake) : (s.setIntake n v).pipes = s.pipes := rfl
@[simp] theorem setIntake_stw (s : State) (n : Nat) (v : Intake) : (s.setIntake n v).stw = s.stw := rfl
@[simp] theorem setIntake_upd (s : State) (n : Nat) (v : Intake) : (s.setIntake n v).upd = s.upd := rfl
@[simp] theorem setIntake_store (s : State) (n : Nat) (v : Intake) : (s.setIntake n v).store = s.store := rfl
@[simp] theorem setIntake_out (s : State) (n : Nat) (v : Intake) : (s.setIntake n v).out = s.out := rfl
@[simp] theorem setIntake_freeCtr (s : State) (n : Nat) (v : Intake) : (s.setIntake n v).freeCtr = s.freeCtr := rfl
@[simp] theorem setIntake_pending (s : State) (n : Nat) (v : Intake) : (s.setIntake n v).pending = s.pending := rfl

/-! ### State.setLink -/

@[simp] theorem setLink_self (s : State) (n : Nat) (v : Link) : (s.setLink n v).link n = v := by
  simp [State.setLink, State.link]
theorem setLink_ne (s : State) {n m : Nat} (v : Link) (h : m ≠ n) : (s.setLink n v).link m = s.link m := by
  simp [State.setLink, State.link, tget_tset_ne _ _ _ h]
@[simp] theorem setLink_win (s : State) (n : Nat) (v : Link) : (s.setLink n v).win = s.win := rfl
@[simp] theorem setLink_ports (s : State) (n : Nat) (v : Link) : (s.setLink n v).ports = s.ports := rfl
@[simp] theorem setLink_fns (s : State) (n : Nat) (v : Link) : (s.setLink n v).fns = s.fns := rfl
@[simp] theorem setLink_tens (s : State) (n : Nat) (v : Link) : (s.setLink n v).tens = s.tens := rfl
@[simp] theorem setLink_parts (s : State) (n : Nat) (v : Link) : (s.setLink n v).parts = s.parts := rfl
@[simp] theorem setLink_rings (s : State) (n : Nat) (v : Link) : (s.setLink n v).rings = s.rings := rfl
@[simp] theorem setLink_mevHeld (s : State) (n : Nat) (v : Link) : (s.setLink n v).mevHeld = s.mevHeld := rfl
@[simp] theorem setLink_mevLost (s : State) (n : Nat) (v : Link) : (s.setLink n v).mevLost = s.mevLost := rfl
@[simp] theorem setLink_mevRun (s : State) (n : Nat) (v : Link) : (s.setLink n v).mevRun = s.mevRun := rfl
@[simp] theorem setLink_mods (s : State) (n : Nat) (v : Link) : (s.setLink n v).mods = s.mods := rfl
@[simp] theorem setLink_isles (s : State) (n : Nat) (v : Link) : (s.setLink n v).isles = s.isles := rfl
@[simp] theorem setLink_cores (s : State) (n : Nat) (v : Link) : (s.setLink n v).cores = s.cores := rfl
@[simp] theorem setLink_chans (s : State) (n : Nat) (v : Link) : (s.setLink n v).chans = s.chans := rfl
@[simp] theorem setLink_cols (s : State) (n : Nat) (v : Link) : (s.setLink n v).cols = s.cols := rfl
@[simp] theorem setLink_badUnits (s : State) (n : Nat) (v : Link) : (s.setLink n v).badUnits = s.badUnits := rfl
@[simp] theorem setLink_unitKeys (s : State) (n : Nat) (v : Link) : (s.setLink n v).unitKeys = s.unitKeys := rfl
@[simp] theorem setLink_sh (s : State) (n : Nat) (v : Link) : (s.setLink n v).sh = s.sh := rfl
@[simp] theorem setLink_reads (s : State) (n : Nat) (v : Link) : (s.setLink n v).reads = s.reads := rfl
@[simp] theorem setLink_nextRead (s : State) (n : Nat) (v : Link) : (s.setLink n v).nextRead = s.nextRead := rfl
@[simp] theorem setLink_trays (s : State) (n : Nat) (v : Link) : (s.setLink n v).trays = s.trays := rfl
@[simp] theorem setLink_flt (s : State) (n : Nat) (v : Link) : (s.setLink n v).flt = s.flt := rfl
@[simp] theorem setLink_colms (s : State) (n : Nat) (v : Link) : (s.setLink n v).colms = s.colms := rfl
@[simp] theorem setLink_keySerial (s : State) (n : Nat) (v : Link) : (s.setLink n v).keySerial = s.keySerial := rfl
@[simp] theorem setLink_keyBank (s : State) (n : Nat) (v : Link) : (s.setLink n v).keyBank = s.keyBank := rfl
@[simp] theorem setLink_keys (s : State) (n : Nat) (v : Link) : (s.setLink n v).keys = s.keys := rfl
@[simp] theorem setLink_boot (s : State) (n : Nat) (v : Link) : (s.setLink n v).boot = s.boot := rfl
@[simp] theorem setLink_fuses (s : State) (n : Nat) (v : Link) : (s.setLink n v).fuses = s.fuses := rfl
@[simp] theorem setLink_pwr (s : State) (n : Nat) (v : Link) : (s.setLink n v).pwr = s.pwr := rfl
@[simp] theorem setLink_therm (s : State) (n : Nat) (v : Link) : (s.setLink n v).therm = s.therm := rfl
@[simp] theorem setLink_sports (s : State) (n : Nat) (v : Link) : (s.setLink n v).sports = s.sports := rfl
@[simp] theorem setLink_pins (s : State) (n : Nat) (v : Link) : (s.setLink n v).pins = s.pins := rfl
@[simp] theorem setLink_pipes (s : State) (n : Nat) (v : Link) : (s.setLink n v).pipes = s.pipes := rfl
@[simp] theorem setLink_intakes (s : State) (n : Nat) (v : Link) : (s.setLink n v).intakes = s.intakes := rfl
@[simp] theorem setLink_stw (s : State) (n : Nat) (v : Link) : (s.setLink n v).stw = s.stw := rfl
@[simp] theorem setLink_upd (s : State) (n : Nat) (v : Link) : (s.setLink n v).upd = s.upd := rfl
@[simp] theorem setLink_store (s : State) (n : Nat) (v : Link) : (s.setLink n v).store = s.store := rfl
@[simp] theorem setLink_out (s : State) (n : Nat) (v : Link) : (s.setLink n v).out = s.out := rfl
@[simp] theorem setLink_freeCtr (s : State) (n : Nat) (v : Link) : (s.setLink n v).freeCtr = s.freeCtr := rfl
@[simp] theorem setLink_pending (s : State) (n : Nat) (v : Link) : (s.setLink n v).pending = s.pending := rfl

/-! ### State.setCtr -/

@[simp] theorem setCtr_self (s : State) (n : Nat) (v : Ctr) : (s.setCtr n v).ctr n = v := by
  simp [State.setCtr, State.ctr]
theorem setCtr_ne (s : State) {n m : Nat} (v : Ctr) (h : m ≠ n) : (s.setCtr n v).ctr m = s.ctr m := by
  simp [State.setCtr, State.ctr, tget_tset_ne _ _ _ h]
@[simp] theorem setCtr_win (s : State) (n : Nat) (v : Ctr) : (s.setCtr n v).win = s.win := rfl
@[simp] theorem setCtr_ports (s : State) (n : Nat) (v : Ctr) : (s.setCtr n v).ports = s.ports := rfl
@[simp] theorem setCtr_fns (s : State) (n : Nat) (v : Ctr) : (s.setCtr n v).fns = s.fns := rfl
@[simp] theorem setCtr_tens (s : State) (n : Nat) (v : Ctr) : (s.setCtr n v).tens = s.tens := rfl
@[simp] theorem setCtr_parts (s : State) (n : Nat) (v : Ctr) : (s.setCtr n v).parts = s.parts := rfl
@[simp] theorem setCtr_rings (s : State) (n : Nat) (v : Ctr) : (s.setCtr n v).rings = s.rings := rfl
@[simp] theorem setCtr_mevHeld (s : State) (n : Nat) (v : Ctr) : (s.setCtr n v).mevHeld = s.mevHeld := rfl
@[simp] theorem setCtr_mevLost (s : State) (n : Nat) (v : Ctr) : (s.setCtr n v).mevLost = s.mevLost := rfl
@[simp] theorem setCtr_mevRun (s : State) (n : Nat) (v : Ctr) : (s.setCtr n v).mevRun = s.mevRun := rfl
@[simp] theorem setCtr_mods (s : State) (n : Nat) (v : Ctr) : (s.setCtr n v).mods = s.mods := rfl
@[simp] theorem setCtr_isles (s : State) (n : Nat) (v : Ctr) : (s.setCtr n v).isles = s.isles := rfl
@[simp] theorem setCtr_cores (s : State) (n : Nat) (v : Ctr) : (s.setCtr n v).cores = s.cores := rfl
@[simp] theorem setCtr_chans (s : State) (n : Nat) (v : Ctr) : (s.setCtr n v).chans = s.chans := rfl
@[simp] theorem setCtr_cols (s : State) (n : Nat) (v : Ctr) : (s.setCtr n v).cols = s.cols := rfl
@[simp] theorem setCtr_badUnits (s : State) (n : Nat) (v : Ctr) : (s.setCtr n v).badUnits = s.badUnits := rfl
@[simp] theorem setCtr_unitKeys (s : State) (n : Nat) (v : Ctr) : (s.setCtr n v).unitKeys = s.unitKeys := rfl
@[simp] theorem setCtr_sh (s : State) (n : Nat) (v : Ctr) : (s.setCtr n v).sh = s.sh := rfl
@[simp] theorem setCtr_reads (s : State) (n : Nat) (v : Ctr) : (s.setCtr n v).reads = s.reads := rfl
@[simp] theorem setCtr_nextRead (s : State) (n : Nat) (v : Ctr) : (s.setCtr n v).nextRead = s.nextRead := rfl
@[simp] theorem setCtr_trays (s : State) (n : Nat) (v : Ctr) : (s.setCtr n v).trays = s.trays := rfl
@[simp] theorem setCtr_flt (s : State) (n : Nat) (v : Ctr) : (s.setCtr n v).flt = s.flt := rfl
@[simp] theorem setCtr_colms (s : State) (n : Nat) (v : Ctr) : (s.setCtr n v).colms = s.colms := rfl
@[simp] theorem setCtr_keySerial (s : State) (n : Nat) (v : Ctr) : (s.setCtr n v).keySerial = s.keySerial := rfl
@[simp] theorem setCtr_keyBank (s : State) (n : Nat) (v : Ctr) : (s.setCtr n v).keyBank = s.keyBank := rfl
@[simp] theorem setCtr_keys (s : State) (n : Nat) (v : Ctr) : (s.setCtr n v).keys = s.keys := rfl
@[simp] theorem setCtr_boot (s : State) (n : Nat) (v : Ctr) : (s.setCtr n v).boot = s.boot := rfl
@[simp] theorem setCtr_fuses (s : State) (n : Nat) (v : Ctr) : (s.setCtr n v).fuses = s.fuses := rfl
@[simp] theorem setCtr_pwr (s : State) (n : Nat) (v : Ctr) : (s.setCtr n v).pwr = s.pwr := rfl
@[simp] theorem setCtr_therm (s : State) (n : Nat) (v : Ctr) : (s.setCtr n v).therm = s.therm := rfl
@[simp] theorem setCtr_sports (s : State) (n : Nat) (v : Ctr) : (s.setCtr n v).sports = s.sports := rfl
@[simp] theorem setCtr_pins (s : State) (n : Nat) (v : Ctr) : (s.setCtr n v).pins = s.pins := rfl
@[simp] theorem setCtr_pipes (s : State) (n : Nat) (v : Ctr) : (s.setCtr n v).pipes = s.pipes := rfl
@[simp] theorem setCtr_intakes (s : State) (n : Nat) (v : Ctr) : (s.setCtr n v).intakes = s.intakes := rfl
@[simp] theorem setCtr_stw (s : State) (n : Nat) (v : Ctr) : (s.setCtr n v).stw = s.stw := rfl
@[simp] theorem setCtr_upd (s : State) (n : Nat) (v : Ctr) : (s.setCtr n v).upd = s.upd := rfl
@[simp] theorem setCtr_store (s : State) (n : Nat) (v : Ctr) : (s.setCtr n v).store = s.store := rfl
@[simp] theorem setCtr_out (s : State) (n : Nat) (v : Ctr) : (s.setCtr n v).out = s.out := rfl
@[simp] theorem setCtr_freeCtr (s : State) (n : Nat) (v : Ctr) : (s.setCtr n v).freeCtr = s.freeCtr := rfl
@[simp] theorem setCtr_pending (s : State) (n : Nat) (v : Ctr) : (s.setCtr n v).pending = s.pending := rfl

/-! ### State.setPwrMod -/

@[simp] theorem setPwrMod_self (s : State) (n : Nat) (v : PwrMod) : (s.setPwrMod n v).pwrMod n = v := by
  simp [State.setPwrMod, State.pwrMod]
theorem setPwrMod_ne (s : State) {n m : Nat} (v : PwrMod) (h : m ≠ n) : (s.setPwrMod n v).pwrMod m = s.pwrMod m := by
  simp [State.setPwrMod, State.pwrMod, tget_tset_ne _ _ _ h]
@[simp] theorem setPwrMod_win (s : State) (n : Nat) (v : PwrMod) : (s.setPwrMod n v).win = s.win := rfl
@[simp] theorem setPwrMod_ports (s : State) (n : Nat) (v : PwrMod) : (s.setPwrMod n v).ports = s.ports := rfl
@[simp] theorem setPwrMod_fns (s : State) (n : Nat) (v : PwrMod) : (s.setPwrMod n v).fns = s.fns := rfl
@[simp] theorem setPwrMod_tens (s : State) (n : Nat) (v : PwrMod) : (s.setPwrMod n v).tens = s.tens := rfl
@[simp] theorem setPwrMod_parts (s : State) (n : Nat) (v : PwrMod) : (s.setPwrMod n v).parts = s.parts := rfl
@[simp] theorem setPwrMod_rings (s : State) (n : Nat) (v : PwrMod) : (s.setPwrMod n v).rings = s.rings := rfl
@[simp] theorem setPwrMod_mevHeld (s : State) (n : Nat) (v : PwrMod) : (s.setPwrMod n v).mevHeld = s.mevHeld := rfl
@[simp] theorem setPwrMod_mevLost (s : State) (n : Nat) (v : PwrMod) : (s.setPwrMod n v).mevLost = s.mevLost := rfl
@[simp] theorem setPwrMod_mevRun (s : State) (n : Nat) (v : PwrMod) : (s.setPwrMod n v).mevRun = s.mevRun := rfl
@[simp] theorem setPwrMod_mods (s : State) (n : Nat) (v : PwrMod) : (s.setPwrMod n v).mods = s.mods := rfl
@[simp] theorem setPwrMod_isles (s : State) (n : Nat) (v : PwrMod) : (s.setPwrMod n v).isles = s.isles := rfl
@[simp] theorem setPwrMod_cores (s : State) (n : Nat) (v : PwrMod) : (s.setPwrMod n v).cores = s.cores := rfl
@[simp] theorem setPwrMod_chans (s : State) (n : Nat) (v : PwrMod) : (s.setPwrMod n v).chans = s.chans := rfl
@[simp] theorem setPwrMod_cols (s : State) (n : Nat) (v : PwrMod) : (s.setPwrMod n v).cols = s.cols := rfl
@[simp] theorem setPwrMod_badUnits (s : State) (n : Nat) (v : PwrMod) : (s.setPwrMod n v).badUnits = s.badUnits := rfl
@[simp] theorem setPwrMod_unitKeys (s : State) (n : Nat) (v : PwrMod) : (s.setPwrMod n v).unitKeys = s.unitKeys := rfl
@[simp] theorem setPwrMod_fab (s : State) (n : Nat) (v : PwrMod) : (s.setPwrMod n v).fab = s.fab := rfl
@[simp] theorem setPwrMod_sh (s : State) (n : Nat) (v : PwrMod) : (s.setPwrMod n v).sh = s.sh := rfl
@[simp] theorem setPwrMod_reads (s : State) (n : Nat) (v : PwrMod) : (s.setPwrMod n v).reads = s.reads := rfl
@[simp] theorem setPwrMod_nextRead (s : State) (n : Nat) (v : PwrMod) : (s.setPwrMod n v).nextRead = s.nextRead := rfl
@[simp] theorem setPwrMod_trays (s : State) (n : Nat) (v : PwrMod) : (s.setPwrMod n v).trays = s.trays := rfl
@[simp] theorem setPwrMod_flt (s : State) (n : Nat) (v : PwrMod) : (s.setPwrMod n v).flt = s.flt := rfl
@[simp] theorem setPwrMod_colms (s : State) (n : Nat) (v : PwrMod) : (s.setPwrMod n v).colms = s.colms := rfl
@[simp] theorem setPwrMod_keySerial (s : State) (n : Nat) (v : PwrMod) : (s.setPwrMod n v).keySerial = s.keySerial := rfl
@[simp] theorem setPwrMod_keyBank (s : State) (n : Nat) (v : PwrMod) : (s.setPwrMod n v).keyBank = s.keyBank := rfl
@[simp] theorem setPwrMod_keys (s : State) (n : Nat) (v : PwrMod) : (s.setPwrMod n v).keys = s.keys := rfl
@[simp] theorem setPwrMod_boot (s : State) (n : Nat) (v : PwrMod) : (s.setPwrMod n v).boot = s.boot := rfl
@[simp] theorem setPwrMod_fuses (s : State) (n : Nat) (v : PwrMod) : (s.setPwrMod n v).fuses = s.fuses := rfl
@[simp] theorem setPwrMod_therm (s : State) (n : Nat) (v : PwrMod) : (s.setPwrMod n v).therm = s.therm := rfl
@[simp] theorem setPwrMod_sports (s : State) (n : Nat) (v : PwrMod) : (s.setPwrMod n v).sports = s.sports := rfl
@[simp] theorem setPwrMod_pins (s : State) (n : Nat) (v : PwrMod) : (s.setPwrMod n v).pins = s.pins := rfl
@[simp] theorem setPwrMod_pipes (s : State) (n : Nat) (v : PwrMod) : (s.setPwrMod n v).pipes = s.pipes := rfl
@[simp] theorem setPwrMod_intakes (s : State) (n : Nat) (v : PwrMod) : (s.setPwrMod n v).intakes = s.intakes := rfl
@[simp] theorem setPwrMod_stw (s : State) (n : Nat) (v : PwrMod) : (s.setPwrMod n v).stw = s.stw := rfl
@[simp] theorem setPwrMod_upd (s : State) (n : Nat) (v : PwrMod) : (s.setPwrMod n v).upd = s.upd := rfl
@[simp] theorem setPwrMod_store (s : State) (n : Nat) (v : PwrMod) : (s.setPwrMod n v).store = s.store := rfl
@[simp] theorem setPwrMod_out (s : State) (n : Nat) (v : PwrMod) : (s.setPwrMod n v).out = s.out := rfl
@[simp] theorem setPwrMod_freeCtr (s : State) (n : Nat) (v : PwrMod) : (s.setPwrMod n v).freeCtr = s.freeCtr := rfl
@[simp] theorem setPwrMod_pending (s : State) (n : Nat) (v : PwrMod) : (s.setPwrMod n v).pending = s.pending := rfl

/-! ### State.setShelf -/

@[simp] theorem setShelf_self (s : State) (n : Nat) (v : Shelf) : (s.setShelf n v).shelf n = v := by
  simp [State.setShelf, State.shelf]
theorem setShelf_ne (s : State) {n m : Nat} (v : Shelf) (h : m ≠ n) : (s.setShelf n v).shelf m = s.shelf m := by
  simp [State.setShelf, State.shelf, tget_tset_ne _ _ _ h]
@[simp] theorem setShelf_win (s : State) (n : Nat) (v : Shelf) : (s.setShelf n v).win = s.win := rfl
@[simp] theorem setShelf_ports (s : State) (n : Nat) (v : Shelf) : (s.setShelf n v).ports = s.ports := rfl
@[simp] theorem setShelf_fns (s : State) (n : Nat) (v : Shelf) : (s.setShelf n v).fns = s.fns := rfl
@[simp] theorem setShelf_tens (s : State) (n : Nat) (v : Shelf) : (s.setShelf n v).tens = s.tens := rfl
@[simp] theorem setShelf_parts (s : State) (n : Nat) (v : Shelf) : (s.setShelf n v).parts = s.parts := rfl
@[simp] theorem setShelf_rings (s : State) (n : Nat) (v : Shelf) : (s.setShelf n v).rings = s.rings := rfl
@[simp] theorem setShelf_mevHeld (s : State) (n : Nat) (v : Shelf) : (s.setShelf n v).mevHeld = s.mevHeld := rfl
@[simp] theorem setShelf_mevLost (s : State) (n : Nat) (v : Shelf) : (s.setShelf n v).mevLost = s.mevLost := rfl
@[simp] theorem setShelf_mevRun (s : State) (n : Nat) (v : Shelf) : (s.setShelf n v).mevRun = s.mevRun := rfl
@[simp] theorem setShelf_mods (s : State) (n : Nat) (v : Shelf) : (s.setShelf n v).mods = s.mods := rfl
@[simp] theorem setShelf_isles (s : State) (n : Nat) (v : Shelf) : (s.setShelf n v).isles = s.isles := rfl
@[simp] theorem setShelf_cores (s : State) (n : Nat) (v : Shelf) : (s.setShelf n v).cores = s.cores := rfl
@[simp] theorem setShelf_chans (s : State) (n : Nat) (v : Shelf) : (s.setShelf n v).chans = s.chans := rfl
@[simp] theorem setShelf_cols (s : State) (n : Nat) (v : Shelf) : (s.setShelf n v).cols = s.cols := rfl
@[simp] theorem setShelf_badUnits (s : State) (n : Nat) (v : Shelf) : (s.setShelf n v).badUnits = s.badUnits := rfl
@[simp] theorem setShelf_unitKeys (s : State) (n : Nat) (v : Shelf) : (s.setShelf n v).unitKeys = s.unitKeys := rfl
@[simp] theorem setShelf_fab (s : State) (n : Nat) (v : Shelf) : (s.setShelf n v).fab = s.fab := rfl
@[simp] theorem setShelf_sh (s : State) (n : Nat) (v : Shelf) : (s.setShelf n v).sh = s.sh := rfl
@[simp] theorem setShelf_reads (s : State) (n : Nat) (v : Shelf) : (s.setShelf n v).reads = s.reads := rfl
@[simp] theorem setShelf_nextRead (s : State) (n : Nat) (v : Shelf) : (s.setShelf n v).nextRead = s.nextRead := rfl
@[simp] theorem setShelf_trays (s : State) (n : Nat) (v : Shelf) : (s.setShelf n v).trays = s.trays := rfl
@[simp] theorem setShelf_flt (s : State) (n : Nat) (v : Shelf) : (s.setShelf n v).flt = s.flt := rfl
@[simp] theorem setShelf_colms (s : State) (n : Nat) (v : Shelf) : (s.setShelf n v).colms = s.colms := rfl
@[simp] theorem setShelf_keySerial (s : State) (n : Nat) (v : Shelf) : (s.setShelf n v).keySerial = s.keySerial := rfl
@[simp] theorem setShelf_keyBank (s : State) (n : Nat) (v : Shelf) : (s.setShelf n v).keyBank = s.keyBank := rfl
@[simp] theorem setShelf_keys (s : State) (n : Nat) (v : Shelf) : (s.setShelf n v).keys = s.keys := rfl
@[simp] theorem setShelf_boot (s : State) (n : Nat) (v : Shelf) : (s.setShelf n v).boot = s.boot := rfl
@[simp] theorem setShelf_fuses (s : State) (n : Nat) (v : Shelf) : (s.setShelf n v).fuses = s.fuses := rfl
@[simp] theorem setShelf_therm (s : State) (n : Nat) (v : Shelf) : (s.setShelf n v).therm = s.therm := rfl
@[simp] theorem setShelf_sports (s : State) (n : Nat) (v : Shelf) : (s.setShelf n v).sports = s.sports := rfl
@[simp] theorem setShelf_pins (s : State) (n : Nat) (v : Shelf) : (s.setShelf n v).pins = s.pins := rfl
@[simp] theorem setShelf_pipes (s : State) (n : Nat) (v : Shelf) : (s.setShelf n v).pipes = s.pipes := rfl
@[simp] theorem setShelf_intakes (s : State) (n : Nat) (v : Shelf) : (s.setShelf n v).intakes = s.intakes := rfl
@[simp] theorem setShelf_stw (s : State) (n : Nat) (v : Shelf) : (s.setShelf n v).stw = s.stw := rfl
@[simp] theorem setShelf_upd (s : State) (n : Nat) (v : Shelf) : (s.setShelf n v).upd = s.upd := rfl
@[simp] theorem setShelf_store (s : State) (n : Nat) (v : Shelf) : (s.setShelf n v).store = s.store := rfl
@[simp] theorem setShelf_out (s : State) (n : Nat) (v : Shelf) : (s.setShelf n v).out = s.out := rfl
@[simp] theorem setShelf_freeCtr (s : State) (n : Nat) (v : Shelf) : (s.setShelf n v).freeCtr = s.freeCtr := rfl
@[simp] theorem setShelf_pending (s : State) (n : Nat) (v : Shelf) : (s.setShelf n v).pending = s.pending := rfl

/-! ### State.setDie -/

@[simp] theorem setDie_self (s : State) (n : Nat) (v : DieTherm) : (s.setDie n v).die n = v := by
  simp [State.setDie, State.die]
theorem setDie_ne (s : State) {n m : Nat} (v : DieTherm) (h : m ≠ n) : (s.setDie n v).die m = s.die m := by
  simp [State.setDie, State.die, tget_tset_ne _ _ _ h]
@[simp] theorem setDie_win (s : State) (n : Nat) (v : DieTherm) : (s.setDie n v).win = s.win := rfl
@[simp] theorem setDie_ports (s : State) (n : Nat) (v : DieTherm) : (s.setDie n v).ports = s.ports := rfl
@[simp] theorem setDie_fns (s : State) (n : Nat) (v : DieTherm) : (s.setDie n v).fns = s.fns := rfl
@[simp] theorem setDie_tens (s : State) (n : Nat) (v : DieTherm) : (s.setDie n v).tens = s.tens := rfl
@[simp] theorem setDie_parts (s : State) (n : Nat) (v : DieTherm) : (s.setDie n v).parts = s.parts := rfl
@[simp] theorem setDie_rings (s : State) (n : Nat) (v : DieTherm) : (s.setDie n v).rings = s.rings := rfl
@[simp] theorem setDie_mevHeld (s : State) (n : Nat) (v : DieTherm) : (s.setDie n v).mevHeld = s.mevHeld := rfl
@[simp] theorem setDie_mevLost (s : State) (n : Nat) (v : DieTherm) : (s.setDie n v).mevLost = s.mevLost := rfl
@[simp] theorem setDie_mevRun (s : State) (n : Nat) (v : DieTherm) : (s.setDie n v).mevRun = s.mevRun := rfl
@[simp] theorem setDie_mods (s : State) (n : Nat) (v : DieTherm) : (s.setDie n v).mods = s.mods := rfl
@[simp] theorem setDie_isles (s : State) (n : Nat) (v : DieTherm) : (s.setDie n v).isles = s.isles := rfl
@[simp] theorem setDie_cores (s : State) (n : Nat) (v : DieTherm) : (s.setDie n v).cores = s.cores := rfl
@[simp] theorem setDie_chans (s : State) (n : Nat) (v : DieTherm) : (s.setDie n v).chans = s.chans := rfl
@[simp] theorem setDie_cols (s : State) (n : Nat) (v : DieTherm) : (s.setDie n v).cols = s.cols := rfl
@[simp] theorem setDie_badUnits (s : State) (n : Nat) (v : DieTherm) : (s.setDie n v).badUnits = s.badUnits := rfl
@[simp] theorem setDie_unitKeys (s : State) (n : Nat) (v : DieTherm) : (s.setDie n v).unitKeys = s.unitKeys := rfl
@[simp] theorem setDie_fab (s : State) (n : Nat) (v : DieTherm) : (s.setDie n v).fab = s.fab := rfl
@[simp] theorem setDie_sh (s : State) (n : Nat) (v : DieTherm) : (s.setDie n v).sh = s.sh := rfl
@[simp] theorem setDie_reads (s : State) (n : Nat) (v : DieTherm) : (s.setDie n v).reads = s.reads := rfl
@[simp] theorem setDie_nextRead (s : State) (n : Nat) (v : DieTherm) : (s.setDie n v).nextRead = s.nextRead := rfl
@[simp] theorem setDie_trays (s : State) (n : Nat) (v : DieTherm) : (s.setDie n v).trays = s.trays := rfl
@[simp] theorem setDie_flt (s : State) (n : Nat) (v : DieTherm) : (s.setDie n v).flt = s.flt := rfl
@[simp] theorem setDie_colms (s : State) (n : Nat) (v : DieTherm) : (s.setDie n v).colms = s.colms := rfl
@[simp] theorem setDie_keySerial (s : State) (n : Nat) (v : DieTherm) : (s.setDie n v).keySerial = s.keySerial := rfl
@[simp] theorem setDie_keyBank (s : State) (n : Nat) (v : DieTherm) : (s.setDie n v).keyBank = s.keyBank := rfl
@[simp] theorem setDie_keys (s : State) (n : Nat) (v : DieTherm) : (s.setDie n v).keys = s.keys := rfl
@[simp] theorem setDie_boot (s : State) (n : Nat) (v : DieTherm) : (s.setDie n v).boot = s.boot := rfl
@[simp] theorem setDie_fuses (s : State) (n : Nat) (v : DieTherm) : (s.setDie n v).fuses = s.fuses := rfl
@[simp] theorem setDie_pwr (s : State) (n : Nat) (v : DieTherm) : (s.setDie n v).pwr = s.pwr := rfl
@[simp] theorem setDie_sports (s : State) (n : Nat) (v : DieTherm) : (s.setDie n v).sports = s.sports := rfl
@[simp] theorem setDie_pins (s : State) (n : Nat) (v : DieTherm) : (s.setDie n v).pins = s.pins := rfl
@[simp] theorem setDie_pipes (s : State) (n : Nat) (v : DieTherm) : (s.setDie n v).pipes = s.pipes := rfl
@[simp] theorem setDie_intakes (s : State) (n : Nat) (v : DieTherm) : (s.setDie n v).intakes = s.intakes := rfl
@[simp] theorem setDie_stw (s : State) (n : Nat) (v : DieTherm) : (s.setDie n v).stw = s.stw := rfl
@[simp] theorem setDie_upd (s : State) (n : Nat) (v : DieTherm) : (s.setDie n v).upd = s.upd := rfl
@[simp] theorem setDie_store (s : State) (n : Nat) (v : DieTherm) : (s.setDie n v).store = s.store := rfl
@[simp] theorem setDie_out (s : State) (n : Nat) (v : DieTherm) : (s.setDie n v).out = s.out := rfl
@[simp] theorem setDie_freeCtr (s : State) (n : Nat) (v : DieTherm) : (s.setDie n v).freeCtr = s.freeCtr := rfl
@[simp] theorem setDie_pending (s : State) (n : Nat) (v : DieTherm) : (s.setDie n v).pending = s.pending := rfl

/-! ### State.setMtherm -/

@[simp] theorem setMtherm_self (s : State) (n : Nat) (v : ModTherm) : (s.setMtherm n v).mtherm n = v := by
  simp [State.setMtherm, State.mtherm]
theorem setMtherm_ne (s : State) {n m : Nat} (v : ModTherm) (h : m ≠ n) : (s.setMtherm n v).mtherm m = s.mtherm m := by
  simp [State.setMtherm, State.mtherm, tget_tset_ne _ _ _ h]
@[simp] theorem setMtherm_win (s : State) (n : Nat) (v : ModTherm) : (s.setMtherm n v).win = s.win := rfl
@[simp] theorem setMtherm_ports (s : State) (n : Nat) (v : ModTherm) : (s.setMtherm n v).ports = s.ports := rfl
@[simp] theorem setMtherm_fns (s : State) (n : Nat) (v : ModTherm) : (s.setMtherm n v).fns = s.fns := rfl
@[simp] theorem setMtherm_tens (s : State) (n : Nat) (v : ModTherm) : (s.setMtherm n v).tens = s.tens := rfl
@[simp] theorem setMtherm_parts (s : State) (n : Nat) (v : ModTherm) : (s.setMtherm n v).parts = s.parts := rfl
@[simp] theorem setMtherm_rings (s : State) (n : Nat) (v : ModTherm) : (s.setMtherm n v).rings = s.rings := rfl
@[simp] theorem setMtherm_mevHeld (s : State) (n : Nat) (v : ModTherm) : (s.setMtherm n v).mevHeld = s.mevHeld := rfl
@[simp] theorem setMtherm_mevLost (s : State) (n : Nat) (v : ModTherm) : (s.setMtherm n v).mevLost = s.mevLost := rfl
@[simp] theorem setMtherm_mevRun (s : State) (n : Nat) (v : ModTherm) : (s.setMtherm n v).mevRun = s.mevRun := rfl
@[simp] theorem setMtherm_mods (s : State) (n : Nat) (v : ModTherm) : (s.setMtherm n v).mods = s.mods := rfl
@[simp] theorem setMtherm_isles (s : State) (n : Nat) (v : ModTherm) : (s.setMtherm n v).isles = s.isles := rfl
@[simp] theorem setMtherm_cores (s : State) (n : Nat) (v : ModTherm) : (s.setMtherm n v).cores = s.cores := rfl
@[simp] theorem setMtherm_chans (s : State) (n : Nat) (v : ModTherm) : (s.setMtherm n v).chans = s.chans := rfl
@[simp] theorem setMtherm_cols (s : State) (n : Nat) (v : ModTherm) : (s.setMtherm n v).cols = s.cols := rfl
@[simp] theorem setMtherm_badUnits (s : State) (n : Nat) (v : ModTherm) : (s.setMtherm n v).badUnits = s.badUnits := rfl
@[simp] theorem setMtherm_unitKeys (s : State) (n : Nat) (v : ModTherm) : (s.setMtherm n v).unitKeys = s.unitKeys := rfl
@[simp] theorem setMtherm_fab (s : State) (n : Nat) (v : ModTherm) : (s.setMtherm n v).fab = s.fab := rfl
@[simp] theorem setMtherm_sh (s : State) (n : Nat) (v : ModTherm) : (s.setMtherm n v).sh = s.sh := rfl
@[simp] theorem setMtherm_reads (s : State) (n : Nat) (v : ModTherm) : (s.setMtherm n v).reads = s.reads := rfl
@[simp] theorem setMtherm_nextRead (s : State) (n : Nat) (v : ModTherm) : (s.setMtherm n v).nextRead = s.nextRead := rfl
@[simp] theorem setMtherm_trays (s : State) (n : Nat) (v : ModTherm) : (s.setMtherm n v).trays = s.trays := rfl
@[simp] theorem setMtherm_flt (s : State) (n : Nat) (v : ModTherm) : (s.setMtherm n v).flt = s.flt := rfl
@[simp] theorem setMtherm_colms (s : State) (n : Nat) (v : ModTherm) : (s.setMtherm n v).colms = s.colms := rfl
@[simp] theorem setMtherm_keySerial (s : State) (n : Nat) (v : ModTherm) : (s.setMtherm n v).keySerial = s.keySerial := rfl
@[simp] theorem setMtherm_keyBank (s : State) (n : Nat) (v : ModTherm) : (s.setMtherm n v).keyBank = s.keyBank := rfl
@[simp] theorem setMtherm_keys (s : State) (n : Nat) (v : ModTherm) : (s.setMtherm n v).keys = s.keys := rfl
@[simp] theorem setMtherm_boot (s : State) (n : Nat) (v : ModTherm) : (s.setMtherm n v).boot = s.boot := rfl
@[simp] theorem setMtherm_fuses (s : State) (n : Nat) (v : ModTherm) : (s.setMtherm n v).fuses = s.fuses := rfl
@[simp] theorem setMtherm_pwr (s : State) (n : Nat) (v : ModTherm) : (s.setMtherm n v).pwr = s.pwr := rfl
@[simp] theorem setMtherm_sports (s : State) (n : Nat) (v : ModTherm) : (s.setMtherm n v).sports = s.sports := rfl
@[simp] theorem setMtherm_pins (s : State) (n : Nat) (v : ModTherm) : (s.setMtherm n v).pins = s.pins := rfl
@[simp] theorem setMtherm_pipes (s : State) (n : Nat) (v : ModTherm) : (s.setMtherm n v).pipes = s.pipes := rfl
@[simp] theorem setMtherm_intakes (s : State) (n : Nat) (v : ModTherm) : (s.setMtherm n v).intakes = s.intakes := rfl
@[simp] theorem setMtherm_stw (s : State) (n : Nat) (v : ModTherm) : (s.setMtherm n v).stw = s.stw := rfl
@[simp] theorem setMtherm_upd (s : State) (n : Nat) (v : ModTherm) : (s.setMtherm n v).upd = s.upd := rfl
@[simp] theorem setMtherm_store (s : State) (n : Nat) (v : ModTherm) : (s.setMtherm n v).store = s.store := rfl
@[simp] theorem setMtherm_out (s : State) (n : Nat) (v : ModTherm) : (s.setMtherm n v).out = s.out := rfl
@[simp] theorem setMtherm_freeCtr (s : State) (n : Nat) (v : ModTherm) : (s.setMtherm n v).freeCtr = s.freeCtr := rfl
@[simp] theorem setMtherm_pending (s : State) (n : Nat) (v : ModTherm) : (s.setMtherm n v).pending = s.pending := rfl

/-! ### State.setTtherm -/

@[simp] theorem setTtherm_self (s : State) (n : Nat) (v : TrayTherm) : (s.setTtherm n v).ttherm n = v := by
  simp [State.setTtherm, State.ttherm]
theorem setTtherm_ne (s : State) {n m : Nat} (v : TrayTherm) (h : m ≠ n) : (s.setTtherm n v).ttherm m = s.ttherm m := by
  simp [State.setTtherm, State.ttherm, tget_tset_ne _ _ _ h]
@[simp] theorem setTtherm_win (s : State) (n : Nat) (v : TrayTherm) : (s.setTtherm n v).win = s.win := rfl
@[simp] theorem setTtherm_ports (s : State) (n : Nat) (v : TrayTherm) : (s.setTtherm n v).ports = s.ports := rfl
@[simp] theorem setTtherm_fns (s : State) (n : Nat) (v : TrayTherm) : (s.setTtherm n v).fns = s.fns := rfl
@[simp] theorem setTtherm_tens (s : State) (n : Nat) (v : TrayTherm) : (s.setTtherm n v).tens = s.tens := rfl
@[simp] theorem setTtherm_parts (s : State) (n : Nat) (v : TrayTherm) : (s.setTtherm n v).parts = s.parts := rfl
@[simp] theorem setTtherm_rings (s : State) (n : Nat) (v : TrayTherm) : (s.setTtherm n v).rings = s.rings := rfl
@[simp] theorem setTtherm_mevHeld (s : State) (n : Nat) (v : TrayTherm) : (s.setTtherm n v).mevHeld = s.mevHeld := rfl
@[simp] theorem setTtherm_mevLost (s : State) (n : Nat) (v : TrayTherm) : (s.setTtherm n v).mevLost = s.mevLost := rfl
@[simp] theorem setTtherm_mevRun (s : State) (n : Nat) (v : TrayTherm) : (s.setTtherm n v).mevRun = s.mevRun := rfl
@[simp] theorem setTtherm_mods (s : State) (n : Nat) (v : TrayTherm) : (s.setTtherm n v).mods = s.mods := rfl
@[simp] theorem setTtherm_isles (s : State) (n : Nat) (v : TrayTherm) : (s.setTtherm n v).isles = s.isles := rfl
@[simp] theorem setTtherm_cores (s : State) (n : Nat) (v : TrayTherm) : (s.setTtherm n v).cores = s.cores := rfl
@[simp] theorem setTtherm_chans (s : State) (n : Nat) (v : TrayTherm) : (s.setTtherm n v).chans = s.chans := rfl
@[simp] theorem setTtherm_cols (s : State) (n : Nat) (v : TrayTherm) : (s.setTtherm n v).cols = s.cols := rfl
@[simp] theorem setTtherm_badUnits (s : State) (n : Nat) (v : TrayTherm) : (s.setTtherm n v).badUnits = s.badUnits := rfl
@[simp] theorem setTtherm_unitKeys (s : State) (n : Nat) (v : TrayTherm) : (s.setTtherm n v).unitKeys = s.unitKeys := rfl
@[simp] theorem setTtherm_fab (s : State) (n : Nat) (v : TrayTherm) : (s.setTtherm n v).fab = s.fab := rfl
@[simp] theorem setTtherm_sh (s : State) (n : Nat) (v : TrayTherm) : (s.setTtherm n v).sh = s.sh := rfl
@[simp] theorem setTtherm_reads (s : State) (n : Nat) (v : TrayTherm) : (s.setTtherm n v).reads = s.reads := rfl
@[simp] theorem setTtherm_nextRead (s : State) (n : Nat) (v : TrayTherm) : (s.setTtherm n v).nextRead = s.nextRead := rfl
@[simp] theorem setTtherm_trays (s : State) (n : Nat) (v : TrayTherm) : (s.setTtherm n v).trays = s.trays := rfl
@[simp] theorem setTtherm_flt (s : State) (n : Nat) (v : TrayTherm) : (s.setTtherm n v).flt = s.flt := rfl
@[simp] theorem setTtherm_colms (s : State) (n : Nat) (v : TrayTherm) : (s.setTtherm n v).colms = s.colms := rfl
@[simp] theorem setTtherm_keySerial (s : State) (n : Nat) (v : TrayTherm) : (s.setTtherm n v).keySerial = s.keySerial := rfl
@[simp] theorem setTtherm_keyBank (s : State) (n : Nat) (v : TrayTherm) : (s.setTtherm n v).keyBank = s.keyBank := rfl
@[simp] theorem setTtherm_keys (s : State) (n : Nat) (v : TrayTherm) : (s.setTtherm n v).keys = s.keys := rfl
@[simp] theorem setTtherm_boot (s : State) (n : Nat) (v : TrayTherm) : (s.setTtherm n v).boot = s.boot := rfl
@[simp] theorem setTtherm_fuses (s : State) (n : Nat) (v : TrayTherm) : (s.setTtherm n v).fuses = s.fuses := rfl
@[simp] theorem setTtherm_pwr (s : State) (n : Nat) (v : TrayTherm) : (s.setTtherm n v).pwr = s.pwr := rfl
@[simp] theorem setTtherm_sports (s : State) (n : Nat) (v : TrayTherm) : (s.setTtherm n v).sports = s.sports := rfl
@[simp] theorem setTtherm_pins (s : State) (n : Nat) (v : TrayTherm) : (s.setTtherm n v).pins = s.pins := rfl
@[simp] theorem setTtherm_pipes (s : State) (n : Nat) (v : TrayTherm) : (s.setTtherm n v).pipes = s.pipes := rfl
@[simp] theorem setTtherm_intakes (s : State) (n : Nat) (v : TrayTherm) : (s.setTtherm n v).intakes = s.intakes := rfl
@[simp] theorem setTtherm_stw (s : State) (n : Nat) (v : TrayTherm) : (s.setTtherm n v).stw = s.stw := rfl
@[simp] theorem setTtherm_upd (s : State) (n : Nat) (v : TrayTherm) : (s.setTtherm n v).upd = s.upd := rfl
@[simp] theorem setTtherm_store (s : State) (n : Nat) (v : TrayTherm) : (s.setTtherm n v).store = s.store := rfl
@[simp] theorem setTtherm_out (s : State) (n : Nat) (v : TrayTherm) : (s.setTtherm n v).out = s.out := rfl
@[simp] theorem setTtherm_freeCtr (s : State) (n : Nat) (v : TrayTherm) : (s.setTtherm n v).freeCtr = s.freeCtr := rfl
@[simp] theorem setTtherm_pending (s : State) (n : Nat) (v : TrayTherm) : (s.setTtherm n v).pending = s.pending := rfl

/-! ### State.setStew -/

@[simp] theorem setStew_self (s : State) (n : Nat) (v : Stew) : (s.setStew n v).stew n = v := by
  simp [State.setStew, State.stew]
theorem setStew_ne (s : State) {n m : Nat} (v : Stew) (h : m ≠ n) : (s.setStew n v).stew m = s.stew m := by
  simp [State.setStew, State.stew, tget_tset_ne _ _ _ h]
@[simp] theorem setStew_win (s : State) (n : Nat) (v : Stew) : (s.setStew n v).win = s.win := rfl
@[simp] theorem setStew_ports (s : State) (n : Nat) (v : Stew) : (s.setStew n v).ports = s.ports := rfl
@[simp] theorem setStew_fns (s : State) (n : Nat) (v : Stew) : (s.setStew n v).fns = s.fns := rfl
@[simp] theorem setStew_tens (s : State) (n : Nat) (v : Stew) : (s.setStew n v).tens = s.tens := rfl
@[simp] theorem setStew_parts (s : State) (n : Nat) (v : Stew) : (s.setStew n v).parts = s.parts := rfl
@[simp] theorem setStew_rings (s : State) (n : Nat) (v : Stew) : (s.setStew n v).rings = s.rings := rfl
@[simp] theorem setStew_mevHeld (s : State) (n : Nat) (v : Stew) : (s.setStew n v).mevHeld = s.mevHeld := rfl
@[simp] theorem setStew_mevLost (s : State) (n : Nat) (v : Stew) : (s.setStew n v).mevLost = s.mevLost := rfl
@[simp] theorem setStew_mevRun (s : State) (n : Nat) (v : Stew) : (s.setStew n v).mevRun = s.mevRun := rfl
@[simp] theorem setStew_mods (s : State) (n : Nat) (v : Stew) : (s.setStew n v).mods = s.mods := rfl
@[simp] theorem setStew_isles (s : State) (n : Nat) (v : Stew) : (s.setStew n v).isles = s.isles := rfl
@[simp] theorem setStew_cores (s : State) (n : Nat) (v : Stew) : (s.setStew n v).cores = s.cores := rfl
@[simp] theorem setStew_chans (s : State) (n : Nat) (v : Stew) : (s.setStew n v).chans = s.chans := rfl
@[simp] theorem setStew_cols (s : State) (n : Nat) (v : Stew) : (s.setStew n v).cols = s.cols := rfl
@[simp] theorem setStew_badUnits (s : State) (n : Nat) (v : Stew) : (s.setStew n v).badUnits = s.badUnits := rfl
@[simp] theorem setStew_unitKeys (s : State) (n : Nat) (v : Stew) : (s.setStew n v).unitKeys = s.unitKeys := rfl
@[simp] theorem setStew_fab (s : State) (n : Nat) (v : Stew) : (s.setStew n v).fab = s.fab := rfl
@[simp] theorem setStew_sh (s : State) (n : Nat) (v : Stew) : (s.setStew n v).sh = s.sh := rfl
@[simp] theorem setStew_reads (s : State) (n : Nat) (v : Stew) : (s.setStew n v).reads = s.reads := rfl
@[simp] theorem setStew_nextRead (s : State) (n : Nat) (v : Stew) : (s.setStew n v).nextRead = s.nextRead := rfl
@[simp] theorem setStew_trays (s : State) (n : Nat) (v : Stew) : (s.setStew n v).trays = s.trays := rfl
@[simp] theorem setStew_flt (s : State) (n : Nat) (v : Stew) : (s.setStew n v).flt = s.flt := rfl
@[simp] theorem setStew_colms (s : State) (n : Nat) (v : Stew) : (s.setStew n v).colms = s.colms := rfl
@[simp] theorem setStew_keySerial (s : State) (n : Nat) (v : Stew) : (s.setStew n v).keySerial = s.keySerial := rfl
@[simp] theorem setStew_keyBank (s : State) (n : Nat) (v : Stew) : (s.setStew n v).keyBank = s.keyBank := rfl
@[simp] theorem setStew_keys (s : State) (n : Nat) (v : Stew) : (s.setStew n v).keys = s.keys := rfl
@[simp] theorem setStew_boot (s : State) (n : Nat) (v : Stew) : (s.setStew n v).boot = s.boot := rfl
@[simp] theorem setStew_fuses (s : State) (n : Nat) (v : Stew) : (s.setStew n v).fuses = s.fuses := rfl
@[simp] theorem setStew_pwr (s : State) (n : Nat) (v : Stew) : (s.setStew n v).pwr = s.pwr := rfl
@[simp] theorem setStew_therm (s : State) (n : Nat) (v : Stew) : (s.setStew n v).therm = s.therm := rfl
@[simp] theorem setStew_sports (s : State) (n : Nat) (v : Stew) : (s.setStew n v).sports = s.sports := rfl
@[simp] theorem setStew_pins (s : State) (n : Nat) (v : Stew) : (s.setStew n v).pins = s.pins := rfl
@[simp] theorem setStew_pipes (s : State) (n : Nat) (v : Stew) : (s.setStew n v).pipes = s.pipes := rfl
@[simp] theorem setStew_intakes (s : State) (n : Nat) (v : Stew) : (s.setStew n v).intakes = s.intakes := rfl
@[simp] theorem setStew_upd (s : State) (n : Nat) (v : Stew) : (s.setStew n v).upd = s.upd := rfl
@[simp] theorem setStew_store (s : State) (n : Nat) (v : Stew) : (s.setStew n v).store = s.store := rfl
@[simp] theorem setStew_out (s : State) (n : Nat) (v : Stew) : (s.setStew n v).out = s.out := rfl
@[simp] theorem setStew_freeCtr (s : State) (n : Nat) (v : Stew) : (s.setStew n v).freeCtr = s.freeCtr := rfl
@[simp] theorem setStew_pending (s : State) (n : Nat) (v : Stew) : (s.setStew n v).pending = s.pending := rfl

/-! ### State.setInst -/

@[simp] theorem setInst_self (s : State) (n : Nat) (v : Inst) : (s.setInst n v).inst n = v := by
  simp [State.setInst, State.inst]
theorem setInst_ne (s : State) {n m : Nat} (v : Inst) (h : m ≠ n) : (s.setInst n v).inst m = s.inst m := by
  simp [State.setInst, State.inst, tget_tset_ne _ _ _ h]
@[simp] theorem setInst_win (s : State) (n : Nat) (v : Inst) : (s.setInst n v).win = s.win := rfl
@[simp] theorem setInst_ports (s : State) (n : Nat) (v : Inst) : (s.setInst n v).ports = s.ports := rfl
@[simp] theorem setInst_fns (s : State) (n : Nat) (v : Inst) : (s.setInst n v).fns = s.fns := rfl
@[simp] theorem setInst_tens (s : State) (n : Nat) (v : Inst) : (s.setInst n v).tens = s.tens := rfl
@[simp] theorem setInst_parts (s : State) (n : Nat) (v : Inst) : (s.setInst n v).parts = s.parts := rfl
@[simp] theorem setInst_rings (s : State) (n : Nat) (v : Inst) : (s.setInst n v).rings = s.rings := rfl
@[simp] theorem setInst_mevHeld (s : State) (n : Nat) (v : Inst) : (s.setInst n v).mevHeld = s.mevHeld := rfl
@[simp] theorem setInst_mevLost (s : State) (n : Nat) (v : Inst) : (s.setInst n v).mevLost = s.mevLost := rfl
@[simp] theorem setInst_mevRun (s : State) (n : Nat) (v : Inst) : (s.setInst n v).mevRun = s.mevRun := rfl
@[simp] theorem setInst_mods (s : State) (n : Nat) (v : Inst) : (s.setInst n v).mods = s.mods := rfl
@[simp] theorem setInst_isles (s : State) (n : Nat) (v : Inst) : (s.setInst n v).isles = s.isles := rfl
@[simp] theorem setInst_cores (s : State) (n : Nat) (v : Inst) : (s.setInst n v).cores = s.cores := rfl
@[simp] theorem setInst_chans (s : State) (n : Nat) (v : Inst) : (s.setInst n v).chans = s.chans := rfl
@[simp] theorem setInst_cols (s : State) (n : Nat) (v : Inst) : (s.setInst n v).cols = s.cols := rfl
@[simp] theorem setInst_badUnits (s : State) (n : Nat) (v : Inst) : (s.setInst n v).badUnits = s.badUnits := rfl
@[simp] theorem setInst_unitKeys (s : State) (n : Nat) (v : Inst) : (s.setInst n v).unitKeys = s.unitKeys := rfl
@[simp] theorem setInst_fab (s : State) (n : Nat) (v : Inst) : (s.setInst n v).fab = s.fab := rfl
@[simp] theorem setInst_sh (s : State) (n : Nat) (v : Inst) : (s.setInst n v).sh = s.sh := rfl
@[simp] theorem setInst_reads (s : State) (n : Nat) (v : Inst) : (s.setInst n v).reads = s.reads := rfl
@[simp] theorem setInst_nextRead (s : State) (n : Nat) (v : Inst) : (s.setInst n v).nextRead = s.nextRead := rfl
@[simp] theorem setInst_trays (s : State) (n : Nat) (v : Inst) : (s.setInst n v).trays = s.trays := rfl
@[simp] theorem setInst_flt (s : State) (n : Nat) (v : Inst) : (s.setInst n v).flt = s.flt := rfl
@[simp] theorem setInst_colms (s : State) (n : Nat) (v : Inst) : (s.setInst n v).colms = s.colms := rfl
@[simp] theorem setInst_keySerial (s : State) (n : Nat) (v : Inst) : (s.setInst n v).keySerial = s.keySerial := rfl
@[simp] theorem setInst_keyBank (s : State) (n : Nat) (v : Inst) : (s.setInst n v).keyBank = s.keyBank := rfl
@[simp] theorem setInst_keys (s : State) (n : Nat) (v : Inst) : (s.setInst n v).keys = s.keys := rfl
@[simp] theorem setInst_boot (s : State) (n : Nat) (v : Inst) : (s.setInst n v).boot = s.boot := rfl
@[simp] theorem setInst_fuses (s : State) (n : Nat) (v : Inst) : (s.setInst n v).fuses = s.fuses := rfl
@[simp] theorem setInst_pwr (s : State) (n : Nat) (v : Inst) : (s.setInst n v).pwr = s.pwr := rfl
@[simp] theorem setInst_therm (s : State) (n : Nat) (v : Inst) : (s.setInst n v).therm = s.therm := rfl
@[simp] theorem setInst_sports (s : State) (n : Nat) (v : Inst) : (s.setInst n v).sports = s.sports := rfl
@[simp] theorem setInst_pins (s : State) (n : Nat) (v : Inst) : (s.setInst n v).pins = s.pins := rfl
@[simp] theorem setInst_pipes (s : State) (n : Nat) (v : Inst) : (s.setInst n v).pipes = s.pipes := rfl
@[simp] theorem setInst_intakes (s : State) (n : Nat) (v : Inst) : (s.setInst n v).intakes = s.intakes := rfl
@[simp] theorem setInst_stw (s : State) (n : Nat) (v : Inst) : (s.setInst n v).stw = s.stw := rfl
@[simp] theorem setInst_store (s : State) (n : Nat) (v : Inst) : (s.setInst n v).store = s.store := rfl
@[simp] theorem setInst_out (s : State) (n : Nat) (v : Inst) : (s.setInst n v).out = s.out := rfl
@[simp] theorem setInst_freeCtr (s : State) (n : Nat) (v : Inst) : (s.setInst n v).freeCtr = s.freeCtr := rfl
@[simp] theorem setInst_pending (s : State) (n : Nat) (v : Inst) : (s.setInst n v).pending = s.pending := rfl

/-! ### emit, ignoreAcc, storeItem -/

@[simp] theorem emit_win (o : Out) (s : State) : (emit o s).win = s.win := rfl
@[simp] theorem emit_ports (o : Out) (s : State) : (emit o s).ports = s.ports := rfl
@[simp] theorem emit_fns (o : Out) (s : State) : (emit o s).fns = s.fns := rfl
@[simp] theorem emit_tens (o : Out) (s : State) : (emit o s).tens = s.tens := rfl
@[simp] theorem emit_parts (o : Out) (s : State) : (emit o s).parts = s.parts := rfl
@[simp] theorem emit_rings (o : Out) (s : State) : (emit o s).rings = s.rings := rfl
@[simp] theorem emit_mevHeld (o : Out) (s : State) : (emit o s).mevHeld = s.mevHeld := rfl
@[simp] theorem emit_mevLost (o : Out) (s : State) : (emit o s).mevLost = s.mevLost := rfl
@[simp] theorem emit_mevRun (o : Out) (s : State) : (emit o s).mevRun = s.mevRun := rfl
@[simp] theorem emit_mods (o : Out) (s : State) : (emit o s).mods = s.mods := rfl
@[simp] theorem emit_isles (o : Out) (s : State) : (emit o s).isles = s.isles := rfl
@[simp] theorem emit_cores (o : Out) (s : State) : (emit o s).cores = s.cores := rfl
@[simp] theorem emit_chans (o : Out) (s : State) : (emit o s).chans = s.chans := rfl
@[simp] theorem emit_cols (o : Out) (s : State) : (emit o s).cols = s.cols := rfl
@[simp] theorem emit_badUnits (o : Out) (s : State) : (emit o s).badUnits = s.badUnits := rfl
@[simp] theorem emit_unitKeys (o : Out) (s : State) : (emit o s).unitKeys = s.unitKeys := rfl
@[simp] theorem emit_fab (o : Out) (s : State) : (emit o s).fab = s.fab := rfl
@[simp] theorem emit_sh (o : Out) (s : State) : (emit o s).sh = s.sh := rfl
@[simp] theorem emit_reads (o : Out) (s : State) : (emit o s).reads = s.reads := rfl
@[simp] theorem emit_nextRead (o : Out) (s : State) : (emit o s).nextRead = s.nextRead := rfl
@[simp] theorem emit_trays (o : Out) (s : State) : (emit o s).trays = s.trays := rfl
@[simp] theorem emit_flt (o : Out) (s : State) : (emit o s).flt = s.flt := rfl
@[simp] theorem emit_colms (o : Out) (s : State) : (emit o s).colms = s.colms := rfl
@[simp] theorem emit_keySerial (o : Out) (s : State) : (emit o s).keySerial = s.keySerial := rfl
@[simp] theorem emit_keyBank (o : Out) (s : State) : (emit o s).keyBank = s.keyBank := rfl
@[simp] theorem emit_keys (o : Out) (s : State) : (emit o s).keys = s.keys := rfl
@[simp] theorem emit_boot (o : Out) (s : State) : (emit o s).boot = s.boot := rfl
@[simp] theorem emit_fuses (o : Out) (s : State) : (emit o s).fuses = s.fuses := rfl
@[simp] theorem emit_pwr (o : Out) (s : State) : (emit o s).pwr = s.pwr := rfl
@[simp] theorem emit_therm (o : Out) (s : State) : (emit o s).therm = s.therm := rfl
@[simp] theorem emit_sports (o : Out) (s : State) : (emit o s).sports = s.sports := rfl
@[simp] theorem emit_pins (o : Out) (s : State) : (emit o s).pins = s.pins := rfl
@[simp] theorem emit_pipes (o : Out) (s : State) : (emit o s).pipes = s.pipes := rfl
@[simp] theorem emit_intakes (o : Out) (s : State) : (emit o s).intakes = s.intakes := rfl
@[simp] theorem emit_stw (o : Out) (s : State) : (emit o s).stw = s.stw := rfl
@[simp] theorem emit_upd (o : Out) (s : State) : (emit o s).upd = s.upd := rfl
@[simp] theorem emit_store (o : Out) (s : State) : (emit o s).store = s.store := rfl
@[simp] theorem emit_freeCtr (o : Out) (s : State) : (emit o s).freeCtr = s.freeCtr := rfl
@[simp] theorem emit_pending (o : Out) (s : State) : (emit o s).pending = s.pending := rfl
@[simp] theorem emit_out (o : Out) (s : State) : (emit o s).out = s.out ++ [o] := rfl
@[simp] theorem ignoreAcc_ports (c p f : Nat) (w : Bool) (a : Nat) (b : Bool) (s : State) : (ignoreAcc c p f w a b s).ports = s.ports := rfl
@[simp] theorem ignoreAcc_fns (c p f : Nat) (w : Bool) (a : Nat) (b : Bool) (s : State) : (ignoreAcc c p f w a b s).fns = s.fns := rfl
@[simp] theorem ignoreAcc_tens (c p f : Nat) (w : Bool) (a : Nat) (b : Bool) (s : State) : (ignoreAcc c p f w a b s).tens = s.tens := rfl
@[simp] theorem ignoreAcc_parts (c p f : Nat) (w : Bool) (a : Nat) (b : Bool) (s : State) : (ignoreAcc c p f w a b s).parts = s.parts := rfl
@[simp] theorem ignoreAcc_rings (c p f : Nat) (w : Bool) (a : Nat) (b : Bool) (s : State) : (ignoreAcc c p f w a b s).rings = s.rings := rfl
@[simp] theorem ignoreAcc_mevHeld (c p f : Nat) (w : Bool) (a : Nat) (b : Bool) (s : State) : (ignoreAcc c p f w a b s).mevHeld = s.mevHeld := rfl
@[simp] theorem ignoreAcc_mevLost (c p f : Nat) (w : Bool) (a : Nat) (b : Bool) (s : State) : (ignoreAcc c p f w a b s).mevLost = s.mevLost := rfl
@[simp] theorem ignoreAcc_mevRun (c p f : Nat) (w : Bool) (a : Nat) (b : Bool) (s : State) : (ignoreAcc c p f w a b s).mevRun = s.mevRun := rfl
@[simp] theorem ignoreAcc_mods (c p f : Nat) (w : Bool) (a : Nat) (b : Bool) (s : State) : (ignoreAcc c p f w a b s).mods = s.mods := rfl
@[simp] theorem ignoreAcc_isles (c p f : Nat) (w : Bool) (a : Nat) (b : Bool) (s : State) : (ignoreAcc c p f w a b s).isles = s.isles := rfl
@[simp] theorem ignoreAcc_cores (c p f : Nat) (w : Bool) (a : Nat) (b : Bool) (s : State) : (ignoreAcc c p f w a b s).cores = s.cores := rfl
@[simp] theorem ignoreAcc_chans (c p f : Nat) (w : Bool) (a : Nat) (b : Bool) (s : State) : (ignoreAcc c p f w a b s).chans = s.chans := rfl
@[simp] theorem ignoreAcc_cols (c p f : Nat) (w : Bool) (a : Nat) (b : Bool) (s : State) : (ignoreAcc c p f w a b s).cols = s.cols := rfl
@[simp] theorem ignoreAcc_badUnits (c p f : Nat) (w : Bool) (a : Nat) (b : Bool) (s : State) : (ignoreAcc c p f w a b s).badUnits = s.badUnits := rfl
@[simp] theorem ignoreAcc_unitKeys (c p f : Nat) (w : Bool) (a : Nat) (b : Bool) (s : State) : (ignoreAcc c p f w a b s).unitKeys = s.unitKeys := rfl
@[simp] theorem ignoreAcc_fab (c p f : Nat) (w : Bool) (a : Nat) (b : Bool) (s : State) : (ignoreAcc c p f w a b s).fab = s.fab := rfl
@[simp] theorem ignoreAcc_sh (c p f : Nat) (w : Bool) (a : Nat) (b : Bool) (s : State) : (ignoreAcc c p f w a b s).sh = s.sh := rfl
@[simp] theorem ignoreAcc_reads (c p f : Nat) (w : Bool) (a : Nat) (b : Bool) (s : State) : (ignoreAcc c p f w a b s).reads = s.reads := rfl
@[simp] theorem ignoreAcc_nextRead (c p f : Nat) (w : Bool) (a : Nat) (b : Bool) (s : State) : (ignoreAcc c p f w a b s).nextRead = s.nextRead := rfl
@[simp] theorem ignoreAcc_trays (c p f : Nat) (w : Bool) (a : Nat) (b : Bool) (s : State) : (ignoreAcc c p f w a b s).trays = s.trays := rfl
@[simp] theorem ignoreAcc_flt (c p f : Nat) (w : Bool) (a : Nat) (b : Bool) (s : State) : (ignoreAcc c p f w a b s).flt = s.flt := rfl
@[simp] theorem ignoreAcc_colms (c p f : Nat) (w : Bool) (a : Nat) (b : Bool) (s : State) : (ignoreAcc c p f w a b s).colms = s.colms := rfl
@[simp] theorem ignoreAcc_keySerial (c p f : Nat) (w : Bool) (a : Nat) (b : Bool) (s : State) : (ignoreAcc c p f w a b s).keySerial = s.keySerial := rfl
@[simp] theorem ignoreAcc_keyBank (c p f : Nat) (w : Bool) (a : Nat) (b : Bool) (s : State) : (ignoreAcc c p f w a b s).keyBank = s.keyBank := rfl
@[simp] theorem ignoreAcc_keys (c p f : Nat) (w : Bool) (a : Nat) (b : Bool) (s : State) : (ignoreAcc c p f w a b s).keys = s.keys := rfl
@[simp] theorem ignoreAcc_boot (c p f : Nat) (w : Bool) (a : Nat) (b : Bool) (s : State) : (ignoreAcc c p f w a b s).boot = s.boot := rfl
@[simp] theorem ignoreAcc_fuses (c p f : Nat) (w : Bool) (a : Nat) (b : Bool) (s : State) : (ignoreAcc c p f w a b s).fuses = s.fuses := rfl
@[simp] theorem ignoreAcc_pwr (c p f : Nat) (w : Bool) (a : Nat) (b : Bool) (s : State) : (ignoreAcc c p f w a b s).pwr = s.pwr := rfl
@[simp] theorem ignoreAcc_therm (c p f : Nat) (w : Bool) (a : Nat) (b : Bool) (s : State) : (ignoreAcc c p f w a b s).therm = s.therm := rfl
@[simp] theorem ignoreAcc_sports (c p f : Nat) (w : Bool) (a : Nat) (b : Bool) (s : State) : (ignoreAcc c p f w a b s).sports = s.sports := rfl
@[simp] theorem ignoreAcc_pins (c p f : Nat) (w : Bool) (a : Nat) (b : Bool) (s : State) : (ignoreAcc c p f w a b s).pins = s.pins := rfl
@[simp] theorem ignoreAcc_pipes (c p f : Nat) (w : Bool) (a : Nat) (b : Bool) (s : State) : (ignoreAcc c p f w a b s).pipes = s.pipes := rfl
@[simp] theorem ignoreAcc_intakes (c p f : Nat) (w : Bool) (a : Nat) (b : Bool) (s : State) : (ignoreAcc c p f w a b s).intakes = s.intakes := rfl
@[simp] theorem ignoreAcc_stw (c p f : Nat) (w : Bool) (a : Nat) (b : Bool) (s : State) : (ignoreAcc c p f w a b s).stw = s.stw := rfl
@[simp] theorem ignoreAcc_upd (c p f : Nat) (w : Bool) (a : Nat) (b : Bool) (s : State) : (ignoreAcc c p f w a b s).upd = s.upd := rfl
@[simp] theorem ignoreAcc_store (c p f : Nat) (w : Bool) (a : Nat) (b : Bool) (s : State) : (ignoreAcc c p f w a b s).store = s.store := rfl
@[simp] theorem ignoreAcc_out (c p f : Nat) (w : Bool) (a : Nat) (b : Bool) (s : State) : (ignoreAcc c p f w a b s).out = s.out := rfl
@[simp] theorem ignoreAcc_freeCtr (c p f : Nat) (w : Bool) (a : Nat) (b : Bool) (s : State) : (ignoreAcc c p f w a b s).freeCtr = s.freeCtr := rfl
@[simp] theorem ignoreAcc_pending (c p f : Nat) (w : Bool) (a : Nat) (b : Bool) (s : State) : (ignoreAcc c p f w a b s).pending = s.pending := rfl
@[simp] theorem storeItem_win (a : Nat) (v : Word) (s : State) : (storeItem a v s).win = s.win := by
  unfold storeItem; split <;> rfl
@[simp] theorem storeItem_ports (a : Nat) (v : Word) (s : State) : (storeItem a v s).ports = s.ports := by
  unfold storeItem; split <;> rfl
@[simp] theorem storeItem_fns (a : Nat) (v : Word) (s : State) : (storeItem a v s).fns = s.fns := by
  unfold storeItem; split <;> rfl
@[simp] theorem storeItem_tens (a : Nat) (v : Word) (s : State) : (storeItem a v s).tens = s.tens := by
  unfold storeItem; split <;> rfl
@[simp] theorem storeItem_parts (a : Nat) (v : Word) (s : State) : (storeItem a v s).parts = s.parts := by
  unfold storeItem; split <;> rfl
@[simp] theorem storeItem_rings (a : Nat) (v : Word) (s : State) : (storeItem a v s).rings = s.rings := by
  unfold storeItem; split <;> rfl
@[simp] theorem storeItem_mevHeld (a : Nat) (v : Word) (s : State) : (storeItem a v s).mevHeld = s.mevHeld := by
  unfold storeItem; split <;> rfl
@[simp] theorem storeItem_mevLost (a : Nat) (v : Word) (s : State) : (storeItem a v s).mevLost = s.mevLost := by
  unfold storeItem; split <;> rfl
@[simp] theorem storeItem_mevRun (a : Nat) (v : Word) (s : State) : (storeItem a v s).mevRun = s.mevRun := by
  unfold storeItem; split <;> rfl
@[simp] theorem storeItem_mods (a : Nat) (v : Word) (s : State) : (storeItem a v s).mods = s.mods := by
  unfold storeItem; split <;> rfl
@[simp] theorem storeItem_isles (a : Nat) (v : Word) (s : State) : (storeItem a v s).isles = s.isles := by
  unfold storeItem; split <;> rfl
@[simp] theorem storeItem_cores (a : Nat) (v : Word) (s : State) : (storeItem a v s).cores = s.cores := by
  unfold storeItem; split <;> rfl
@[simp] theorem storeItem_chans (a : Nat) (v : Word) (s : State) : (storeItem a v s).chans = s.chans := by
  unfold storeItem; split <;> rfl
@[simp] theorem storeItem_cols (a : Nat) (v : Word) (s : State) : (storeItem a v s).cols = s.cols := by
  unfold storeItem; split <;> rfl
@[simp] theorem storeItem_badUnits (a : Nat) (v : Word) (s : State) : (storeItem a v s).badUnits = s.badUnits := by
  unfold storeItem; split <;> rfl
@[simp] theorem storeItem_unitKeys (a : Nat) (v : Word) (s : State) : (storeItem a v s).unitKeys = s.unitKeys := by
  unfold storeItem; split <;> rfl
@[simp] theorem storeItem_fab (a : Nat) (v : Word) (s : State) : (storeItem a v s).fab = s.fab := by
  unfold storeItem; split <;> rfl
@[simp] theorem storeItem_sh (a : Nat) (v : Word) (s : State) : (storeItem a v s).sh = s.sh := by
  unfold storeItem; split <;> rfl
@[simp] theorem storeItem_reads (a : Nat) (v : Word) (s : State) : (storeItem a v s).reads = s.reads := by
  unfold storeItem; split <;> rfl
@[simp] theorem storeItem_nextRead (a : Nat) (v : Word) (s : State) : (storeItem a v s).nextRead = s.nextRead := by
  unfold storeItem; split <;> rfl
@[simp] theorem storeItem_trays (a : Nat) (v : Word) (s : State) : (storeItem a v s).trays = s.trays := by
  unfold storeItem; split <;> rfl
@[simp] theorem storeItem_flt (a : Nat) (v : Word) (s : State) : (storeItem a v s).flt = s.flt := by
  unfold storeItem; split <;> rfl
@[simp] theorem storeItem_colms (a : Nat) (v : Word) (s : State) : (storeItem a v s).colms = s.colms := by
  unfold storeItem; split <;> rfl
@[simp] theorem storeItem_keySerial (a : Nat) (v : Word) (s : State) : (storeItem a v s).keySerial = s.keySerial := by
  unfold storeItem; split <;> rfl
@[simp] theorem storeItem_keyBank (a : Nat) (v : Word) (s : State) : (storeItem a v s).keyBank = s.keyBank := by
  unfold storeItem; split <;> rfl
@[simp] theorem storeItem_keys (a : Nat) (v : Word) (s : State) : (storeItem a v s).keys = s.keys := by
  unfold storeItem; split <;> rfl
@[simp] theorem storeItem_boot (a : Nat) (v : Word) (s : State) : (storeItem a v s).boot = s.boot := by
  unfold storeItem; split <;> rfl
@[simp] theorem storeItem_fuses (a : Nat) (v : Word) (s : State) : (storeItem a v s).fuses = s.fuses := by
  unfold storeItem; split <;> rfl
@[simp] theorem storeItem_therm (a : Nat) (v : Word) (s : State) : (storeItem a v s).therm = s.therm := by
  unfold storeItem; split <;> rfl
@[simp] theorem storeItem_sports (a : Nat) (v : Word) (s : State) : (storeItem a v s).sports = s.sports := by
  unfold storeItem; split <;> rfl
@[simp] theorem storeItem_pins (a : Nat) (v : Word) (s : State) : (storeItem a v s).pins = s.pins := by
  unfold storeItem; split <;> rfl
@[simp] theorem storeItem_pipes (a : Nat) (v : Word) (s : State) : (storeItem a v s).pipes = s.pipes := by
  unfold storeItem; split <;> rfl
@[simp] theorem storeItem_intakes (a : Nat) (v : Word) (s : State) : (storeItem a v s).intakes = s.intakes := by
  unfold storeItem; split <;> rfl
@[simp] theorem storeItem_stw (a : Nat) (v : Word) (s : State) : (storeItem a v s).stw = s.stw := by
  unfold storeItem; split <;> rfl
@[simp] theorem storeItem_upd (a : Nat) (v : Word) (s : State) : (storeItem a v s).upd = s.upd := by
  unfold storeItem; split <;> rfl
@[simp] theorem storeItem_out (a : Nat) (v : Word) (s : State) : (storeItem a v s).out = s.out := by
  unfold storeItem; split <;> rfl
@[simp] theorem storeItem_freeCtr (a : Nat) (v : Word) (s : State) : (storeItem a v s).freeCtr = s.freeCtr := by
  unfold storeItem; split <;> rfl
@[simp] theorem storeItem_pending (a : Nat) (v : Word) (s : State) : (storeItem a v s).pending = s.pending := by
  unfold storeItem; split <;> rfl
/-! ### The log -/

/-- A steward's taking a record changes the stewards' records and the sag manager's count of dropped ones, nothing else. -/
theorem takeRec_frame (c : Nat) (r : LogRec) (s : State) : ∃ w p, takeRec c r s = { s with stw := w, pwr := p } := by
  unfold takeRec
  dsimp only
  split
  · exact ⟨s.stw, s.pwr, rfl⟩
  · split
    · exact ⟨_, s.pwr, rfl⟩
    · split
      · exact ⟨_, s.pwr, rfl⟩
      · exact ⟨_, _, rfl⟩

/-- A log record changes the stewards' records and the sag manager's count of dropped ones, nothing else. -/
theorem logAdd_frame (c k p : Nat) (a : DWord) (b : Word) (d : List Nat) (s : State) :
    ∃ w q, logAdd c k p a b d s = { s with stw := w, pwr := q } := by
  unfold logAdd
  split
  · exact ⟨s.stw, s.pwr, rfl⟩
  · rename_i ch _
    dsimp only
    split
    · exact ⟨_, s.pwr, rfl⟩
    · generalize hl : List.filter (fun d => d != ch) [0, 1, 2] = l
      generalize hr : (LogRec.mk _ _ _ _ _ _ _ _ _) = r
      generalize hs : s.setStew _ _ = s1
      have h1 : ∃ w q, s1 = { s with stw := w, pwr := q } := ⟨_, s.pwr, hs.symm⟩
      have h2 : ∃ w q, takeRec ch r s1 = { s with stw := w, pwr := q } := by
        obtain ⟨w, q, h⟩ := takeRec_frame ch r s1
        obtain ⟨w1, q1, g⟩ := h1
        exact ⟨w, q, by rw [h, g]⟩
      generalize takeRec ch r s1 = s2 at h2
      clear hl hs h1
      induction l generalizing s2 with
      | nil => exact h2
      | cons x t ih =>
        obtain ⟨w, q, g⟩ := h2
        exact ih _ ⟨_, q, by rw [g]; rfl⟩

@[simp] theorem logAdd_win (c k p : Nat) (a : DWord) (b : Word) (d : List Nat) (s : State) :
    (logAdd c k p a b d s).win = s.win := by
  obtain ⟨w, q, h⟩ := logAdd_frame c k p a b d s
  rw [h]
@[simp] theorem logAdd_ports (c k p : Nat) (a : DWord) (b : Word) (d : List Nat) (s : State) :
    (logAdd c k p a b d s).ports = s.ports := by
  obtain ⟨w, q, h⟩ := logAdd_frame c k p a b d s
  rw [h]
@[simp] theorem logAdd_fns (c k p : Nat) (a : DWord) (b : Word) (d : List Nat) (s : State) :
    (logAdd c k p a b d s).fns = s.fns := by
  obtain ⟨w, q, h⟩ := logAdd_frame c k p a b d s
  rw [h]
@[simp] theorem logAdd_tens (c k p : Nat) (a : DWord) (b : Word) (d : List Nat) (s : State) :
    (logAdd c k p a b d s).tens = s.tens := by
  obtain ⟨w, q, h⟩ := logAdd_frame c k p a b d s
  rw [h]
@[simp] theorem logAdd_parts (c k p : Nat) (a : DWord) (b : Word) (d : List Nat) (s : State) :
    (logAdd c k p a b d s).parts = s.parts := by
  obtain ⟨w, q, h⟩ := logAdd_frame c k p a b d s
  rw [h]
@[simp] theorem logAdd_rings (c k p : Nat) (a : DWord) (b : Word) (d : List Nat) (s : State) :
    (logAdd c k p a b d s).rings = s.rings := by
  obtain ⟨w, q, h⟩ := logAdd_frame c k p a b d s
  rw [h]
@[simp] theorem logAdd_mevHeld (c k p : Nat) (a : DWord) (b : Word) (d : List Nat) (s : State) :
    (logAdd c k p a b d s).mevHeld = s.mevHeld := by
  obtain ⟨w, q, h⟩ := logAdd_frame c k p a b d s
  rw [h]
@[simp] theorem logAdd_mevLost (c k p : Nat) (a : DWord) (b : Word) (d : List Nat) (s : State) :
    (logAdd c k p a b d s).mevLost = s.mevLost := by
  obtain ⟨w, q, h⟩ := logAdd_frame c k p a b d s
  rw [h]
@[simp] theorem logAdd_mevRun (c k p : Nat) (a : DWord) (b : Word) (d : List Nat) (s : State) :
    (logAdd c k p a b d s).mevRun = s.mevRun := by
  obtain ⟨w, q, h⟩ := logAdd_frame c k p a b d s
  rw [h]
@[simp] theorem logAdd_mods (c k p : Nat) (a : DWord) (b : Word) (d : List Nat) (s : State) :
    (logAdd c k p a b d s).mods = s.mods := by
  obtain ⟨w, q, h⟩ := logAdd_frame c k p a b d s
  rw [h]
@[simp] theorem logAdd_isles (c k p : Nat) (a : DWord) (b : Word) (d : List Nat) (s : State) :
    (logAdd c k p a b d s).isles = s.isles := by
  obtain ⟨w, q, h⟩ := logAdd_frame c k p a b d s
  rw [h]
@[simp] theorem logAdd_cores (c k p : Nat) (a : DWord) (b : Word) (d : List Nat) (s : State) :
    (logAdd c k p a b d s).cores = s.cores := by
  obtain ⟨w, q, h⟩ := logAdd_frame c k p a b d s
  rw [h]
@[simp] theorem logAdd_chans (c k p : Nat) (a : DWord) (b : Word) (d : List Nat) (s : State) :
    (logAdd c k p a b d s).chans = s.chans := by
  obtain ⟨w, q, h⟩ := logAdd_frame c k p a b d s
  rw [h]
@[simp] theorem logAdd_cols (c k p : Nat) (a : DWord) (b : Word) (d : List Nat) (s : State) :
    (logAdd c k p a b d s).cols = s.cols := by
  obtain ⟨w, q, h⟩ := logAdd_frame c k p a b d s
  rw [h]
@[simp] theorem logAdd_badUnits (c k p : Nat) (a : DWord) (b : Word) (d : List Nat) (s : State) :
    (logAdd c k p a b d s).badUnits = s.badUnits := by
  obtain ⟨w, q, h⟩ := logAdd_frame c k p a b d s
  rw [h]
@[simp] theorem logAdd_unitKeys (c k p : Nat) (a : DWord) (b : Word) (d : List Nat) (s : State) :
    (logAdd c k p a b d s).unitKeys = s.unitKeys := by
  obtain ⟨w, q, h⟩ := logAdd_frame c k p a b d s
  rw [h]
@[simp] theorem logAdd_fab (c k p : Nat) (a : DWord) (b : Word) (d : List Nat) (s : State) :
    (logAdd c k p a b d s).fab = s.fab := by
  obtain ⟨w, q, h⟩ := logAdd_frame c k p a b d s
  rw [h]
@[simp] theorem logAdd_sh (c k p : Nat) (a : DWord) (b : Word) (d : List Nat) (s : State) :
    (logAdd c k p a b d s).sh = s.sh := by
  obtain ⟨w, q, h⟩ := logAdd_frame c k p a b d s
  rw [h]
@[simp] theorem logAdd_reads (c k p : Nat) (a : DWord) (b : Word) (d : List Nat) (s : State) :
    (logAdd c k p a b d s).reads = s.reads := by
  obtain ⟨w, q, h⟩ := logAdd_frame c k p a b d s
  rw [h]
@[simp] theorem logAdd_nextRead (c k p : Nat) (a : DWord) (b : Word) (d : List Nat) (s : State) :
    (logAdd c k p a b d s).nextRead = s.nextRead := by
  obtain ⟨w, q, h⟩ := logAdd_frame c k p a b d s
  rw [h]
@[simp] theorem logAdd_trays (c k p : Nat) (a : DWord) (b : Word) (d : List Nat) (s : State) :
    (logAdd c k p a b d s).trays = s.trays := by
  obtain ⟨w, q, h⟩ := logAdd_frame c k p a b d s
  rw [h]
@[simp] theorem logAdd_flt (c k p : Nat) (a : DWord) (b : Word) (d : List Nat) (s : State) :
    (logAdd c k p a b d s).flt = s.flt := by
  obtain ⟨w, q, h⟩ := logAdd_frame c k p a b d s
  rw [h]
@[simp] theorem logAdd_colms (c k p : Nat) (a : DWord) (b : Word) (d : List Nat) (s : State) :
    (logAdd c k p a b d s).colms = s.colms := by
  obtain ⟨w, q, h⟩ := logAdd_frame c k p a b d s
  rw [h]
@[simp] theorem logAdd_keySerial (c k p : Nat) (a : DWord) (b : Word) (d : List Nat) (s : State) :
    (logAdd c k p a b d s).keySerial = s.keySerial := by
  obtain ⟨w, q, h⟩ := logAdd_frame c k p a b d s
  rw [h]
@[simp] theorem logAdd_keyBank (c k p : Nat) (a : DWord) (b : Word) (d : List Nat) (s : State) :
    (logAdd c k p a b d s).keyBank = s.keyBank := by
  obtain ⟨w, q, h⟩ := logAdd_frame c k p a b d s
  rw [h]
@[simp] theorem logAdd_keys (c k p : Nat) (a : DWord) (b : Word) (d : List Nat) (s : State) :
    (logAdd c k p a b d s).keys = s.keys := by
  obtain ⟨w, q, h⟩ := logAdd_frame c k p a b d s
  rw [h]
@[simp] theorem logAdd_boot (c k p : Nat) (a : DWord) (b : Word) (d : List Nat) (s : State) :
    (logAdd c k p a b d s).boot = s.boot := by
  obtain ⟨w, q, h⟩ := logAdd_frame c k p a b d s
  rw [h]
@[simp] theorem logAdd_fuses (c k p : Nat) (a : DWord) (b : Word) (d : List Nat) (s : State) :
    (logAdd c k p a b d s).fuses = s.fuses := by
  obtain ⟨w, q, h⟩ := logAdd_frame c k p a b d s
  rw [h]
@[simp] theorem logAdd_therm (c k p : Nat) (a : DWord) (b : Word) (d : List Nat) (s : State) :
    (logAdd c k p a b d s).therm = s.therm := by
  obtain ⟨w, q, h⟩ := logAdd_frame c k p a b d s
  rw [h]
@[simp] theorem logAdd_sports (c k p : Nat) (a : DWord) (b : Word) (d : List Nat) (s : State) :
    (logAdd c k p a b d s).sports = s.sports := by
  obtain ⟨w, q, h⟩ := logAdd_frame c k p a b d s
  rw [h]
@[simp] theorem logAdd_pins (c k p : Nat) (a : DWord) (b : Word) (d : List Nat) (s : State) :
    (logAdd c k p a b d s).pins = s.pins := by
  obtain ⟨w, q, h⟩ := logAdd_frame c k p a b d s
  rw [h]
@[simp] theorem logAdd_pipes (c k p : Nat) (a : DWord) (b : Word) (d : List Nat) (s : State) :
    (logAdd c k p a b d s).pipes = s.pipes := by
  obtain ⟨w, q, h⟩ := logAdd_frame c k p a b d s
  rw [h]
@[simp] theorem logAdd_intakes (c k p : Nat) (a : DWord) (b : Word) (d : List Nat) (s : State) :
    (logAdd c k p a b d s).intakes = s.intakes := by
  obtain ⟨w, q, h⟩ := logAdd_frame c k p a b d s
  rw [h]
@[simp] theorem logAdd_upd (c k p : Nat) (a : DWord) (b : Word) (d : List Nat) (s : State) :
    (logAdd c k p a b d s).upd = s.upd := by
  obtain ⟨w, q, h⟩ := logAdd_frame c k p a b d s
  rw [h]
@[simp] theorem logAdd_store (c k p : Nat) (a : DWord) (b : Word) (d : List Nat) (s : State) :
    (logAdd c k p a b d s).store = s.store := by
  obtain ⟨w, q, h⟩ := logAdd_frame c k p a b d s
  rw [h]
@[simp] theorem logAdd_out (c k p : Nat) (a : DWord) (b : Word) (d : List Nat) (s : State) :
    (logAdd c k p a b d s).out = s.out := by
  obtain ⟨w, q, h⟩ := logAdd_frame c k p a b d s
  rw [h]
@[simp] theorem logAdd_freeCtr (c k p : Nat) (a : DWord) (b : Word) (d : List Nat) (s : State) :
    (logAdd c k p a b d s).freeCtr = s.freeCtr := by
  obtain ⟨w, q, h⟩ := logAdd_frame c k p a b d s
  rw [h]
@[simp] theorem logAdd_pending (c k p : Nat) (a : DWord) (b : Word) (d : List Nat) (s : State) :
    (logAdd c k p a b d s).pending = s.pending := by
  obtain ⟨w, q, h⟩ := logAdd_frame c k p a b d s
  rw [h]
@[simp] theorem setupNote_win (p a v : Nat) (s : State) : (setupNote p a v s).win = s.win := by simp [setupNote]
@[simp] theorem setupNote_ports (p a v : Nat) (s : State) : (setupNote p a v s).ports = s.ports := by simp [setupNote]
@[simp] theorem setupNote_fns (p a v : Nat) (s : State) : (setupNote p a v s).fns = s.fns := by simp [setupNote]
@[simp] theorem setupNote_tens (p a v : Nat) (s : State) : (setupNote p a v s).tens = s.tens := by simp [setupNote]
@[simp] theorem setupNote_parts (p a v : Nat) (s : State) : (setupNote p a v s).parts = s.parts := by simp [setupNote]
@[simp] theorem setupNote_rings (p a v : Nat) (s : State) : (setupNote p a v s).rings = s.rings := by simp [setupNote]
@[simp] theorem setupNote_mevHeld (p a v : Nat) (s : State) : (setupNote p a v s).mevHeld = s.mevHeld := by simp [setupNote]
@[simp] theorem setupNote_mevLost (p a v : Nat) (s : State) : (setupNote p a v s).mevLost = s.mevLost := by simp [setupNote]
@[simp] theorem setupNote_mevRun (p a v : Nat) (s : State) : (setupNote p a v s).mevRun = s.mevRun := by simp [setupNote]
@[simp] theorem setupNote_mods (p a v : Nat) (s : State) : (setupNote p a v s).mods = s.mods := by simp [setupNote]
@[simp] theorem setupNote_isles (p a v : Nat) (s : State) : (setupNote p a v s).isles = s.isles := by simp [setupNote]
@[simp] theorem setupNote_cores (p a v : Nat) (s : State) : (setupNote p a v s).cores = s.cores := by simp [setupNote]
@[simp] theorem setupNote_chans (p a v : Nat) (s : State) : (setupNote p a v s).chans = s.chans := by simp [setupNote]
@[simp] theorem setupNote_cols (p a v : Nat) (s : State) : (setupNote p a v s).cols = s.cols := by simp [setupNote]
@[simp] theorem setupNote_badUnits (p a v : Nat) (s : State) : (setupNote p a v s).badUnits = s.badUnits := by simp [setupNote]
@[simp] theorem setupNote_unitKeys (p a v : Nat) (s : State) : (setupNote p a v s).unitKeys = s.unitKeys := by simp [setupNote]
@[simp] theorem setupNote_fab (p a v : Nat) (s : State) : (setupNote p a v s).fab = s.fab := by simp [setupNote]
@[simp] theorem setupNote_sh (p a v : Nat) (s : State) : (setupNote p a v s).sh = s.sh := by simp [setupNote]
@[simp] theorem setupNote_reads (p a v : Nat) (s : State) : (setupNote p a v s).reads = s.reads := by simp [setupNote]
@[simp] theorem setupNote_nextRead (p a v : Nat) (s : State) : (setupNote p a v s).nextRead = s.nextRead := by simp [setupNote]
@[simp] theorem setupNote_trays (p a v : Nat) (s : State) : (setupNote p a v s).trays = s.trays := by simp [setupNote]
@[simp] theorem setupNote_flt (p a v : Nat) (s : State) : (setupNote p a v s).flt = s.flt := by simp [setupNote]
@[simp] theorem setupNote_colms (p a v : Nat) (s : State) : (setupNote p a v s).colms = s.colms := by simp [setupNote]
@[simp] theorem setupNote_keySerial (p a v : Nat) (s : State) : (setupNote p a v s).keySerial = s.keySerial := by simp [setupNote]
@[simp] theorem setupNote_keyBank (p a v : Nat) (s : State) : (setupNote p a v s).keyBank = s.keyBank := by simp [setupNote]
@[simp] theorem setupNote_keys (p a v : Nat) (s : State) : (setupNote p a v s).keys = s.keys := by simp [setupNote]
@[simp] theorem setupNote_boot (p a v : Nat) (s : State) : (setupNote p a v s).boot = s.boot := by simp [setupNote]
@[simp] theorem setupNote_fuses (p a v : Nat) (s : State) : (setupNote p a v s).fuses = s.fuses := by simp [setupNote]
@[simp] theorem setupNote_therm (p a v : Nat) (s : State) : (setupNote p a v s).therm = s.therm := by simp [setupNote]
@[simp] theorem setupNote_sports (p a v : Nat) (s : State) : (setupNote p a v s).sports = s.sports := by simp [setupNote]
@[simp] theorem setupNote_pins (p a v : Nat) (s : State) : (setupNote p a v s).pins = s.pins := by simp [setupNote]
@[simp] theorem setupNote_pipes (p a v : Nat) (s : State) : (setupNote p a v s).pipes = s.pipes := by simp [setupNote]
@[simp] theorem setupNote_intakes (p a v : Nat) (s : State) : (setupNote p a v s).intakes = s.intakes := by simp [setupNote]
@[simp] theorem setupNote_upd (p a v : Nat) (s : State) : (setupNote p a v s).upd = s.upd := by simp [setupNote]
@[simp] theorem setupNote_store (p a v : Nat) (s : State) : (setupNote p a v s).store = s.store := by simp [setupNote]
@[simp] theorem setupNote_out (p a v : Nat) (s : State) : (setupNote p a v s).out = s.out := by simp [setupNote]
@[simp] theorem setupNote_freeCtr (p a v : Nat) (s : State) : (setupNote p a v s).freeCtr = s.freeCtr := by simp [setupNote]
@[simp] theorem setupNote_pending (p a v : Nat) (s : State) : (setupNote p a v s).pending = s.pending := by simp [setupNote]

end Sys2Proof.Machine
end

