-- ==== Sys2Proof/Laws/Log.lean ====
section
/-! SUPPORT. A log record changes the stewards' copies, their RAM ring and the count of dropped records, nothing else. -/

namespace Sys2Proof.Machine

theorem takeRec_logged (c : Nat) (r : LogRec) (s : State) : takeRec c r s = logged s (takeRec c r s) := by
  unfold takeRec
  dsimp only
  split
  · rfl
  · split
    · rfl
    · split
      · rfl
      · rfl

/-- What a log record may change is the same seen from a state that differs only there. -/
theorem logged_logged (a b c : State) (h : b = logged a b) (g : c = logged b c) : c = logged a c := by
  rw [g, h]; rfl

theorem setStew_logged (c : Nat) (v : Stew) (s : State) : s.setStew c v = logged s (s.setStew c v) := rfl

theorem addRam_logged (r : LogRec) (s : State) : addRam r s = logged s (addRam r s) := by
  have h : ∀ (A : List LogRec) (B : Nat), ({ s with stw := { s.stw with ram := A, ramLost := B } } : State) =
      logged s { s with stw := { s.stw with ram := A, ramLost := B } } := fun _ _ => rfl
  exact h _ _

theorem foldl_setStew_logged (f : State → Nat → Stew) (l : List Nat) (s : State) :
    l.foldl (fun a d => a.setStew d (f a d)) s = logged s (l.foldl (fun a d => a.setStew d (f a d)) s) := by
  induction l generalizing s with
  | nil => rfl
  | cons x t ih => exact logged_logged _ _ _ (setStew_logged x _ s) (ih _)

theorem logAdd_logged (c k p : Nat) (a : DWord) (b : Word) (d : List Nat) (s : State) :
    logAdd c k p a b d s = logged s (logAdd c k p a b d s) := by
  unfold logAdd
  split
  · rfl
  · dsimp only
    split
    · exact logged_logged _ _ _ (setStew_logged _ _ s) (addRam_logged _ _)
    · exact logged_logged _ _ _ (logged_logged _ _ _ (setStew_logged _ _ s) (takeRec_logged _ _ _))
        (foldl_setStew_logged (fun a d => { a.stew d with inbox := (a.stew d).inbox ++ [_] }) _ _)

theorem setupNote_logged (p a v : Nat) (s : State) : setupNote p a v s = logged s (setupNote p a v s) := logAdd_logged _ _ _ _ _ _ _

/-- A legal write of a set-up register, where writes take effect: its effect and its log record. -/
theorem regOp_ok (port off val : Nat) (s s' : State) (h : s.takesWrites = true) :
    regOp port off val (.ok s') s = setupNote port off val s' := by simp [regOp, h]

/-- An illegal write of a set-up register is counted, where writes take effect. -/
theorem regOp_error (port off val c : Nat) (s : State) (h : s.takesWrites = true) :
    regOp port off val (.error c) s = illegal c port off s := by simp [regOp, h]

/-- A write that arrives without power or during a restart is lost (R802). -/
theorem regOp_lost (port off val : Nat) (v : Verdict) (s : State) (h : s.takesWrites = false) : regOp port off val v s = s := by
  simp [regOp, h]

/-- The same of a register whose record carries an effective value. -/
theorem regOpEff_ok (port off val : Nat) (eff : State → Nat) (s s' : State) (h : s.takesWrites = true) :
    regOpEff port off val eff (.ok s') s = logAdd 1 0 0 0 0 [port, off, val, eff s'] s' := by simp [regOpEff, h]

theorem regOpEff_lost (port off val : Nat) (eff : State → Nat) (v : Verdict) (s : State) (h : s.takesWrites = false) :
    regOpEff port off val eff v s = s := by simp [regOpEff, h]

theorem regOpEff_error (port off val c : Nat) (eff : State → Nat) (s : State) (h : s.takesWrites = true) :
    regOpEff port off val eff (.error c) s = illegal c port off s := by simp [regOpEff, h]

end Sys2Proof.Machine
end

