-- ==== Sys2Proof/Laws/Mem.lean ====
section
/-! SUPPORT. Column memory keeps its canonical form, and what the time-keeping operations may change. -/

namespace Sys2Proof.Machine

/-! ### Column memory (R104, R216) -/

/-- Making a unit stand under another key changes column memory and the unit's key, nothing else. -/
theorem rekeyUnit_frame (k u : Nat) (s : State) :
    rekeyUnit k u s = { s with cols := (rekeyUnit k u s).cols, unitKeys := (rekeyUnit k u s).unitKeys } := by
  unfold rekeyUnit; dsimp only; split <;> rfl

theorem wf_rekeyUnit (k u : Nat) (s : State) (h : Tab.wf 0 s.cols = true) : Tab.wf 0 (rekeyUnit k u s).cols = true := by
  unfold rekeyUnit; dsimp only; split
  · exact h
  · exact wf_putBytes _ _ _ h

theorem wf_rekeyUnits (k : Nat) (l : List Nat) (s : State) (h : Tab.wf 0 s.cols = true) :
    Tab.wf 0 (l.foldl (fun a u => rekeyUnit k u a) s).cols = true := by
  induction l generalizing s with
  | nil => exact h
  | cons u t ih => exact ih _ (wf_rekeyUnit k u s h)

/-- A write of column bytes keeps the canonical form. -/
theorem wf_putColumn (k key : Nat) (bytes : List Byte) (s : State) (h : Tab.wf 0 s.cols = true) :
    Tab.wf 0 (putColumn k key bytes s).cols = true := wf_putBytes _ _ _ (wf_rekeyUnits k _ s h)

/-- Zeroing a module's columns keeps the canonical form. -/
theorem wf_zeroColumns (k w : Nat) (s : State) (h : Tab.wf 0 s.cols = true) : Tab.wf 0 (zeroColumns k w s).cols = true := by
  have e : (zeroColumns k w s).cols = zeroWhere (fun a => a / 2 ^ 37 == w) s.cols := rfl
  rw [e]; exact wf_zeroWhere _ _ h

/-- A unit read under the key it was written under reads as it was written. -/
theorem colByte_same (s : State) (key : Nat) : s.colByte (s.unitKey (key / 64)) key = tget 0 key s.cols := by
  simp [State.colByte]

/-- A unit that stands under a key is not changed to stand under it. -/
theorem rekeyUnit_same (u : Nat) (s : State) : rekeyUnit (s.unitKey u) u s = s := by simp [rekeyUnit]

/-! ### Time below 0.70 V and waits -/

/-- Following a module's time below 0.70 V changes only the power block. -/
theorem markLow_frame (w : Nat) (s : State) : markLow w s = { s with pwr := (markLow w s).pwr } := by
  unfold markLow; dsimp only; split <;> rfl

theorem markLow_sag (w : Nat) (s : State) : (markLow w s).pwr.sag = s.pwr.sag := by
  unfold markLow; dsimp only; split <;> rfl

theorem markLow_pwrMod_ne (w : Nat) (s : State) {j : Nat} (h : j ≠ w) : (markLow w s).pwrMod j = s.pwrMod j := by
  unfold markLow; dsimp only; split
  · rfl
  · exact setPwrMod_ne s _ h

/-- Following the wait for a cold die changes only the two fields that hold it. -/
theorem markWait_frame (s : State) : markWait s = { s with boot := { s.boot with
    waitFrom := (markWait s).boot.waitFrom, waitSum := (markWait s).boot.waitSum } } := rfl

end Sys2Proof.Machine
end

