-- ==== Sys2Proof/WellFormed.lean ====
section
/-! DEFINITION. Which commands are well formed: those whose operands are within the ranges the spec gives what arrives with them
(widths stand in the types). -/

namespace Sys2Proof

/-- A failed item names a place of the machine (Table 15-2). -/
def BootItem.wf (b : BootItem) : Bool :=
  decide (b.stage ≤ 11) && decide (b.tray < 18) && decide (b.slot < 8) && decide (b.die < 4) && decide (b.isle < 4) &&
    decide (b.pos < 32) && decide (b.cause < 16)

/-- A command is well formed: link speeds and widths of Table 22-3, whole 64-byte blocks of a doorbell page, 18 straps, 8 sensors
of a die, three channels, 256-byte blobs and headers, the modules a tray carries, percentages. -/
def Instr.wf : Instr → Bool
  | .setupRegisterWrite _ _ _ _ => true
  | .pairLoWrite _ _ _ _ => true
  | .pairHiCommit _ _ _ _ => true
  | .rcRegisterRead _ _ _ => true
  | .strapOverrideWrite _ _ => true
  | .pcieConfigWrite _ _ _ => true
  | .nudge _ _ _ _ => true
  | .tenantEnable _ _ => true
  | .tenantDisable _ _ => true
  | .tenantWindDownDone _ => true
  | .partitionEnable _ _ => true
  | .partitionEnableDone _ => true
  | .partitionDisable _ _ => true
  | .partitionCut _ _ => true
  | .partitionWindDownDone _ => true
  | .functionLevelReset _ _ => true
  | .hotReset _ => true
  | .linkDown _ => true
  | .hostLinkUp _ speed width _ => decide (1 ≤ speed.toNat) && decide (speed.toNat ≤ 6) && [1, 2, 4, 8, 16].contains width.toNat
  | .vfDisable _ _ _ => true
  | .busMasterEnableChange _ _ _ => true
  | .flrResetDone _ => true
  | .flrDrainTimeout _ => true
  | .flrScrubDone _ => true
  | .ringEnable _ _ => true
  | .ringDisable _ _ => true
  | .ringWindDownDone _ => true
  | .scanDue _ => true
  | .scanReadComplete _ data => decide (data.length % 64 = 0) && decide (data.length ≤ 1024)
  | .scanFailed _ _ => true
  | .hostReadTimeout _ => true
  | .ringFetchIssue _ => true
  | .ringFetchComplete _ _ => true
  | .ringFetchFailed _ _ => true
  | .dispatcherRound _ _ => true
  | .nop _ => true
  | .waitTally _ => true
  | .settle _ => true
  | .mxGemm _ => true
  | .mxAttn _ => true
  | .vxElt _ => true
  | .vxReduce _ => true
  | .vxCombine _ => true
  | .mvCopy _ => true
  | .fxSend _ => true
  | .fxReduce _ => true
  | .fxAwait _ => true
  | .ixFrame _ => true
  | .commandComplete _ _ => true
  | .tallyWrite _ => true
  | .heldWriteFlush _ => true
  | .waitTallySatisfied _ _ => true
  | .waitTallyTimeout _ _ => true
  | .settleComplete _ _ => true
  | .fxAwaitSatisfied _ _ => true
  | .fxAwaitTimeout _ _ => true
  | .ixFrameTimeout _ _ => true
  | .tableLoadComplete _ _ _ _ => true
  | .mxTileHandover _ _ _ => true
  | .epilogueEnd _ _ _ => true
  | .spilledFollowerStart _ _ => true
  | .vxTileEnd _ _ _ => true
  | .coreFence _ _ _ _ _ => true
  | .coreStallTimeout _ _ _ _ => true
  | .faultCoreFenceOrder _ _ => true
  | .spareColumnCopyDone _ _ _ => true
  | .mvChGo _ _ _ => true
  | .mvChAbort _ _ _ => true
  | .mvTransferComplete _ _ _ _ _ => true
  | .mvWindDownDone _ _ _ _ _ => true
  | .mvDiagEnable _ _ => true
  | .mvDiagActive _ => true
  | .mvDiagDisable _ _ => true
  | .mvDiagExitScrubDone _ => true
  | .packetArrival _ _ => true
  | .landReceived _ => true
  | .nackReceived _ => true
  | .ackTimeout _ => true
  | .duplicateRecordExpiry _ => true
  | .linkTrainingLost _ => true
  | .failedLinkMapUpdate => true
  | .fabLinkFence _ _ => true
  | .fabLinkUnfence _ _ => true
  | .linkRetrainDone _ _ => true
  | .fxReduceFold _ _ _ => true
  | .fabShapeReq _ _ => true
  | .shapePreparationDone => true
  | .shapePreparationFailed _ => true
  | .shapeHoldRelease _ _ => true
  | .soundFault => true
  | .soundCircuitsSet => true
  | .soundCircuitFailed _ => true
  | .soundServiceEnter _ => true
  | .soundServiceLeave _ => true
  | .soundSelfTestDone _ => true
  | .soundExtWrite _ _ _ => true
  | .attnTileStepDispatch _ _ _ _ => true
  | .attnTileStepEnd _ _ _ _ => true
  | .attnChunkForward _ _ _ _ _ => true
  | .attnBufferRelease _ _ _ _ => true
  | .attnStall _ _ _ _ _ => true
  | .cxpCtlWrite _ _ _ => true
  | .discoveryAttempt _ _ => true
  | .discoveryComplete _ rates count _ => decide (rates.length ≤ 4) && decide (1 ≤ count.toNat) && decide (count.toNat ≤ 4)
  | .cxpReconfig _ _ => true
  | .cxpDetach _ _ => true
  | .pocxpFault _ _ => true
  | .imageHeaderArrival _ _ _ _ _ _ _ => true
  | .streamPacketArrival _ _ _ _ _ => true
  | .controlAckArrival _ _ => true
  | .controlPacketTimeout _ => true
  | .eventPacketArrival _ _ _ => true
  | .scannerDetach _ => true
  | .extensionLockLost _ _ => true
  | .frameIdleTimeout _ => true
  | .gcRead _ _ => true
  | .gcWrite _ _ => true
  | .pinConfigWrite _ _ _ _ => true
  | .pinHoldEnd _ _ _ => true
  | .pinInputEdge _ _ _ _ => true
  | .triggerArm _ _ _ => true
  | .trigFire _ _ _ => true
  | .timedTrigger _ => true
  | .scheduledOutputEdge _ _ => true
  | .outputOverload _ m => decide (m.toNat ≤ 16)
  | .outputFaultRetry _ m _ => decide (m.toNat ≤ 16)
  | .trigOverrunReport _ => true
  | .unitTaken _ => true
  | .earlyEndMarkerReport _ => true
  | .unitLastWrite _ => true
  | .pipeEnable _ _ => true
  | .pipeDisable _ _ => true
  | .pipeWindDownDone _ => true
  | .pipeBankWrite _ _ _ => true
  | .bankLoad _ _ _ => true
  | .bankLoadComplete _ _ _ => true
  | .frameDroppedReport _ => true
  | .powerOn straps => straps.length == 18
  | .stageEnd items => items.all BootItem.wf
  | .stageBoundExpiry items => items.all BootItem.wf
  | .calibrationLoopEnd _ _ _ _ => true
  | .coldWaitTimeout _ _ => true
  | .transportSwitch _ => true
  | .bootAck _ => true
  | .restart _ _ => true
  | .displayCycle => true
  | .locateButton => true
  | .lampTest => true
  | .lampTestEnd => true
  | .reArm => true
  | .shelfReport _ good _ _ => decide (good.toNat ≤ 6)
  | .powerOrderHost _ _ _ => true
  | .powerOrderRm _ _ _ => true
  | .moduleCapHostWrite _ _ _ => true
  | .partitionCapHostWrite _ _ _ => true
  | .rackCapHostWrite _ _ => true
  | .redfishPowerLimit _ _ _ => true
  | .railSequenceUpDone _ => true
  | .railSequenceDownDone _ => true
  | .railRampMiss _ => true
  | .railFault _ rail _ => decide (rail.toNat ≤ 4)
  | .coreSupplyStep _ => true
  | .capControllerWindow _ _ => true
  | .powerSpanEnd span trays _ _ => decide (span.toNat < 3) && trays.length == 18
  | .sagSample _ => true
  | .holdTimerExpiry => true
  | .trayUndervoltage _ => true
  | .deferredWriteCommit => true
  | .coolingControlPeriod _ own => own.length == 3
  | .actuatorOrderReceipt _ _ _ => true
  | .pumpStop _ => true
  | .pumpRetry _ => true
  | .pumpRejoin _ => true
  | .trayCoolantSample _ _ _ _ _ => true
  | .reservoirLevelChange lv => decide (lv.toNat ≤ 100)
  | .cduLeakSensed _ => true
  | .junctionSensorSample _ _ readings => readings.length == 8
  | .forecasterUpdate _ => true
  | .comparatorTrip _ _ _ => true
  | .lossOfFlow => true
  | .leakCutoff _ => true
  | .wardenWatchdogExpiry _ => true
  | .cduVoterWatchdog => true
  | .heartbeatPeriod _ => true
  | .heartbeatReceipt claimant _ => decide (claimant.toNat < 3)
  | .switchback _ c => decide (c.toNat < 3)
  | .redfishGet _ row _ => decide (row < 16)
  | .redfishSessionCreate _ _ => true
  | .datetimeSet _ _ => true
  | .ntpStep _ => true
  | .locationIndicatorSet _ _ _ => true
  | .consoleStatus _ => true
  | .consoleLog _ _ => true
  | .consoleLastwords _ => true
  | .wardenStart _ => true
  | .wardenAdoptionDone _ => true
  | .logRecordAppend _ => true
  | .logCopyFailed _ => true
  | .logCopyRebuilt _ => true
  | .patrolScrubPass _ _ _ _ found => decide (found.toNat ≤ 2)
  | .rowRepairDone _ _ _ _ _ => true
  | .commandProcessorStall _ _ => true
  | .moduleRetest _ _ => true
  | .retestComplete _ items => items.all BootItem.wf
  | .trayPrepare _ _ => true
  | .trayReady _ => true
  | .trayCancel _ _ => true
  | .trayRemoval _ => true
  | .trayInsertion t _ slots => slots.length == (if t.val < 12 then 8 else 0) && slots.all (fun x => x.all (fun f => f.record.length == 64))
  | .trayJoinComplete _ items => items.all BootItem.wf
  | .keyLoad _ _ => true
  | .keyBlobJudged blob failed => failed || blob.length == 256
  | .keyForget _ _ => true
  | .rotateWk _ => true
  | .wrappingKeyRotated => true
  | .keySlotWriteTimeout _ => true
  | .keySlotRetryExhausted _ => true
  | .doeDiscovery _ => true
  | .getDigests _ => true
  | .getCertificate _ _ _ _ => true
  | .challenge _ _ _ _ => true
  | .getMeasurements _ _ _ _ => true
  | .spdmUnsupportedRequest _ => true
  | .lidSwitchClose _ _ => true
  | .batteryLow charge => decide (charge.toNat ≤ 100)
  | .whiteoutRearmComplete => true
  | .tiltTrip => true
  | .movingClear _ _ => true
  | .ownerLockSet _ _ => true
  | .updateStart _ => true
  | .redfishUpdatePush _ => true
  | .simpleUpdate _ => true
  | .parcelHeaderJudged header failed => failed || header.length == 256
  | .bodyStaged _ _ => true
  | .installComplete _ => true
  | .instanceSwitch => true
  | .instanceHealthy => true
  | .trialBoundExpiry => true
  | .trialRestart => true
  | .updateResume => true
  | .updateCancel _ => true
  | .updateConfirm _ => true
  | .updateFallback _ => true
  | .fallbackComplete => true
  | .oscillatorFailure => true
  | .keySlotWriteRetry _ _ => true
  | .hostReadCompletion _ _ => true
  | .illegalSetupRead _ _ _ _ _ => true
  | .redfishSessionTimeout _ => true
  | .redfishStandardOperation _ _ => true
  | .battLowCondition charge => decide (charge.toNat ≤ 100)

end Sys2Proof
end

