-- ==== Sys2Proof/Tests/Slice0.lean ====
section
/-! SUPPORT. Tests: ill-formed commands are refused by `Instr.wf`, and for every statement of Certificates/Slice0 a concrete
state and operands meet the hypotheses of each of its clauses together, at boundary values; where it is cheap the test also
shows what the next state holds. Expected values come from the rules of spec/ named at each group. -/

namespace Sys2Proof.Tests

open Sys2Proof Sys2Proof.Machine

set_option Elab.async false

/-! ### Builders -/

/-- The machine after reset. -/
def fresh : State := State.reset

/-- Answers a next state of which `p` holds. -/
def next? (c : Instr) (s : State) (p : State → Bool) : Bool :=
  match exec c s with
  | .next t => p t
  | _ => false

/-- The state after a command. -/
def after (c : Instr) (s : State) : State :=
  match exec c s with
  | .next t => t
  | _ => s

/-- Write a little-endian field of `len` bytes at offset `off` of a command's 64 bytes. -/
def put (off len v : Nat) (b : List Byte) : List Byte := b.take off ++ toLE len v ++ b.drop (off + len)

/-- A command of 64 bytes: opcode, flags byte and fields (offset, length, value). -/
def cmd64 (op flags : Nat) (fields : List (Nat × Nat × Nat)) : List Byte :=
  fields.foldl (fun b f => put f.1 f.2.1 f.2.2 b) (put 0 1 op (put 1 1 flags (List.replicate 64 0)))

/-- Port 0 with its link up and PF0 a bus master with the longest read requests. -/
def linked : State := { fresh with
  ports := [(0, { up := true, speed := 5, width := 16 })]
  fns := [(0, { bme := true, mrrs := 5 })] }

/-- The same with tenant 0 ON through it, so that the machine's own requests go out there (R205). -/
def bound : State := { linked with tens := [(0, { obj := { st := .on } })] }

/-- Tenant 0 ON through PF0 of port 0, its key loaded, partition 0 ON on the modules and box given. -/
def live (mods : List Nat) (box : Box) : State := { linked with
  tens := [(0, { obj := { st := .on }, keyLoaded := true, dbS := 0x10000 })]
  parts := [(0, { obj := { st := .on }, box := some box, mods := mods })]
  mods := mods.map (fun w => (w, { keyTen := 1, bind := some (0, 0) })) }

/-- Ring 5 ON of an engine class on partition 0 of module 0, with commands fetched. -/
def ringOn (eng : Nat) (es : List (List Byte)) : State := { live [0] ⟨0, 0, 0, 1, 1, 1⟩ with
  rings := [(5, { obj := { st := .on }, ctx := { engine := eng, base := 0x100000, taddr := 0x2000 },
                  fetched := es.map (fun b => { idx := 3, bytes := b }) })] }

/-- Ring 5 with one command in progress, sequence number 1. -/
def inProg (eng : Nat) (c : Cmd) : State := { live [0] ⟨0, 0, 0, 1, 1, 1⟩ with
  rings := [(5, { obj := { st := .on }, ctx := { engine := eng, base := 0x100000, taddr := 0x2000 }, disp := 1, cmds := [c] })] }

/-- The same command at tick `tb`. -/
def at_ (tb : Nat) (s : State) : State := { s with win := { s.win with tb := BitVec.ofNat 64 tb } }

/-! ### Well-formed commands: an ill-formed one for each check -/

def badItem : BootItem := { stage := 12, tray := 0, slot := 0, die := 0, isle := 0, pos := 0, cause := 1 }

theorem test_wf_link_speed : (Instr.hostLinkUp 0 0 16 false).wf = false ∧ (Instr.hostLinkUp 0 7 16 false).wf = false := by decide
theorem test_wf_link_width : (Instr.hostLinkUp 0 5 3 false).wf = false ∧ (Instr.hostLinkUp 0 5 16 true).wf = true := by decide
theorem test_wf_scan_blocks : (Instr.scanReadComplete 0 [1]).wf = false ∧ (Instr.scanReadComplete 0 []).wf = true := by decide
theorem test_wf_scan_length : (Instr.scanReadComplete 0 (List.replicate 1088 0)).wf = false := by decide +kernel
theorem test_wf_discovery : (Instr.discoveryComplete 0 [] 0 false).wf = false ∧ (Instr.discoveryComplete 0 [1] 5 false).wf = false ∧
  (Instr.discoveryComplete 0 [1, 1, 1, 1, 1] 4 false).wf = false := by decide
theorem test_wf_overload_pin : (Instr.outputOverload 0 17).wf = false ∧ (Instr.outputOverload 0 16).wf = true := by decide
theorem test_wf_retry_pin : (Instr.outputFaultRetry 0 17 true).wf = false := by decide
theorem test_wf_power_on : (Instr.powerOn []).wf = false ∧ (Instr.powerOn (List.replicate 18 0)).wf = true := by decide
theorem test_wf_stage_end : (Instr.stageEnd [badItem]).wf = false ∧ (Instr.stageEnd []).wf = true := by decide
theorem test_wf_stage_bound : (Instr.stageBoundExpiry [badItem]).wf = false := by decide
theorem test_wf_retest : (Instr.retestComplete 0 [badItem]).wf = false := by decide
theorem test_wf_join : (Instr.trayJoinComplete 0 [badItem]).wf = false := by decide
theorem test_wf_shelf : (Instr.shelfReport 0 7 true 0).wf = false ∧ (Instr.shelfReport 0 6 true 0).wf = true := by decide
theorem test_wf_rail : (Instr.railFault 0 5 0).wf = false ∧ (Instr.railFault 0 4 0).wf = true := by decide
theorem test_wf_span : (Instr.powerSpanEnd 0 [] 0 0).wf = false ∧
  (Instr.powerSpanEnd 3 (List.replicate 18 (0, 0)) 0 0).wf = false := by decide
theorem test_wf_cooling : (Instr.coolingControlPeriod ⟨0, 0, 0, 0, 0⟩ []).wf = false := by decide
theorem test_wf_reservoir : (Instr.reservoirLevelChange 101).wf = false ∧ (Instr.reservoirLevelChange 100).wf = true := by decide
theorem test_wf_sensors : (Instr.junctionSensorSample 0 0 []).wf = false := by decide
theorem test_wf_heartbeat : (Instr.heartbeatReceipt 3 1).wf = false := by decide
theorem test_wf_switchback : (Instr.switchback (.console 0) 3).wf = false := by decide
theorem test_wf_redfish_row : (Instr.redfishGet 0 16 0).wf = false := by decide
theorem test_wf_scrub : (Instr.patrolScrubPass 0 0 0 0 3).wf = false := by decide
theorem test_wf_insertion : (Instr.trayInsertion 0 0 []).wf = false ∧ (Instr.trayInsertion 12 0 []).wf = true := by decide
theorem test_wf_blob : (Instr.keyBlobJudged [] false).wf = false ∧ (Instr.keyBlobJudged [] true).wf = true := by decide
theorem test_wf_parcel : (Instr.parcelHeaderJudged [] false).wf = false := by decide
theorem test_wf_battery : (Instr.batteryLow 101).wf = false ∧ (Instr.battLowCondition 101).wf = false := by decide

/-! ### The queue, the tick, reset and memory (opcode_table.json, R67, logs 1, 2) -/

theorem test_step_runs_front : (match step { fresh with pending := [.lampTest, .locateButton] } with
    | .next t => t.pending.length == 1 && t.stw.lamp == 1
    | _ => false) = true := by decide +kernel

theorem test_tick_hyp : fresh.pending = [] ∧ (match step fresh with | .next t => t.win.tb == 1 | _ => false) = true := by
  decide +kernel

theorem test_canonical_hyp : Tab.wf 0 { fresh with cols := [(5, 1), (2 ^ 43, 7)] }.cols = true ∧
    (match step { fresh with cols := [(5, 1), (2 ^ 43, 7)], pending := [.mvDiagExitScrubDone 0] } with
     | .next t => Tab.wf 0 t.cols | _ => false) = true := by decide +kernel

theorem test_no_command_in_word : decodeTableWord 32 0 = none ∧ (fresh.withFetchWord 32 0) = fresh := by decide +kernel

/-! ### The set-up window (R168, R171–R183, Tables 5-1, 5-5, 22-12, Example 22-1) -/

-- the offsets of Table 5-1 at the first and last word of blocks, at repeats, and outside every block
theorem test_decode_blocks : canon 0x0000000 = some 0 ∧ canon 0x000FFFC = some 0xFFC ∧ canon 0x001FFFC = some 0x1F3FC ∧
    canon 0x0010400 = some 0x10000 ∧ canon 0x013FFFC = some 0x1333FC ∧ canon 0x007FFFC = some 0x7FFFC := by decide +kernel
theorem test_decode_modules : canon 0x1000000 = some 0x1000000 ∧ canon 0x1BFFFFC = some 0x1BFF3FC := by decide +kernel
theorem test_decode_none : canon 0x0140000 = none ∧ canon 0x0FFFFFC = none ∧ canon 0x1C00000 = none := by decide +kernel

theorem test_refused_byte_enables : next? (.setupRegisterWrite 2 0x40028 7 9) fresh (fun t =>
    t.win.ignored == 1 && t.win.ignLast == 0x1021 && t.win.ignAddr == 0x40028) = true := by decide +kernel
theorem test_refused_unaligned : next? (.rcRegisterRead 0 0x40029 15) fresh (fun t =>
    t.win.ignored == 1 && t.win.ignLast == 1 && t.out == [.readCpl 0 0]) = true := by decide +kernel
theorem test_refused_no_block : canon 0x140000 = none ∧
    next? (.illegalSetupRead 1 0 false 0x140000 15) fresh (fun t => t.win.ignLast == 0x12) = true := by decide +kernel
theorem test_refused_nudge : next? (.nudge 3 2 5 15) fresh (fun t => t.win.ignLast == 0x1231 && t.win.ignAddr == 0x80000005) = true := by
  decide +kernel
theorem test_refused_bar4_read : next? (.illegalSetupRead 0 1 true 4 3) fresh (fun t => t.win.ignAddr == 0x80000004) = true := by
  decide +kernel
theorem test_ignored_saturates : ({ fresh with win := { fresh.win with ignored := 0xFFFFFFFF } }).win.ignored = 0xFFFFFFFF ∧
    (ignoreAcc 15 0 0 false (2 ^ 31 - 1) false { fresh with win := { fresh.win with ignored := 0xFFFFFFFF } }).win.ignored =
      0xFFFFFFFF := by decide +kernel

theorem test_write_start : next? (.setupRegisterWrite 0 (BitVec.ofNat 26 (0x40000 + 4095 * 0x40 + 0x28)) 15 7) fresh
    (fun t => (t.ring 4095).start == 7) = true := by decide +kernel
theorem test_write_box : next? (.setupRegisterWrite 0 (BitVec.ofNat 26 (0x30000 + 3 * 0x1000 + 15 * 0x40 + 8)) 15 0xFFFFFFFF) fresh
    (fun t => (t.part 63).boxReg == 0x0F7FFFFF) = true := by decide +kernel
theorem test_write_scan_least : (100 : Nat) % 2 ^ 17 = 100 ∧ next? (.setupRegisterWrite 0 0x20108 15 100) fresh
    (fun t => (t.ten 0).scan == 100) = true := by decide +kernel
theorem test_write_scan_most : next? (.setupRegisterWrite 0 0x2F108 15 100000) fresh (fun t => (t.ten 15).scan == 100000) = true := by
  decide +kernel
theorem test_write_scan_below : next? (.setupRegisterWrite 0 0x20108 15 99) fresh
    (fun t => (t.ten 0).scan == 2500 && t.win.ignLast == 0x1003) = true := by decide +kernel
theorem test_write_scan_above : next? (.setupRegisterWrite 0 0x20108 15 100001) fresh (fun t => t.win.ignLast == 0x1003) = true := by
  decide +kernel

theorem test_pair_commits : next? (.pairHiCommit 0 0x40014 15 1) (after (.pairLoWrite 0 0x40010 15 0xFFFFF000) fresh)
    (fun t => (t.ring 0).base == 0x1FFFFF000 && t.win.latches == []) = true := by decide +kernel
theorem test_pair_refused : next? (.pairHiCommit 0 0x40014 15 1) (after (.pairLoWrite 0 0x40010 15 0xFFFFF001) fresh)
    (fun t => (t.ring 0).base == 0 && t.win.ignLast == 0x1006) = true := by decide +kernel

theorem test_peak_clears : next? (.rcRegisterRead 0 0x108030 15) { fresh with pwr := { fresh.pwr with peak := 77 } }
    (fun t => t.pwr.peak == 0 && t.out == [.readCpl 0 77]) = true := by decide +kernel
theorem test_strap_override : fresh.pwr.sag = 0 ∧ bit (0x5100 : Word) 8 = true ∧ next? (.strapOverrideWrite 0 0x5100) fresh
    (fun t => t.ctlPort == 5) = true := by decide +kernel

theorem test_orders_of_on_objects :
    let s := { (ringOn 0 []) with pipes := [(7, { obj := { st := .on } })] }
    (s.ten 0).obj.st = .on ∧ (s.part 0).obj.st = .on ∧ (s.ring 5).obj.st = .on ∧ (s.pipe 7).obj.st = .on ∧
    next? (.ringEnable 0 5) s (fun t => t.ring 5 == s.ring 5 && t.win == s.win) = true := by decide +kernel
theorem test_orders_of_off_objects : (fresh.ten 15).obj = {} ∧ (fresh.part 63).obj = {} ∧ (fresh.ring 4095).obj = {} ∧
    (fresh.pipe 0).obj = {} ∧ next? (.tenantDisable 0 15) fresh (fun t => t.ten 15 == {} && t.win == fresh.win) = true := by
  decide +kernel

/-! ### Host functions (R204–R210, R788, R789, R817) -/

theorem test_link_up : fresh.bridgeReady 15 = true ∧ next? (.hostLinkUp 15 6 16 true) fresh
    (fun t => (t.port 15).up && (t.port 15).trains == 1) = true := by decide +kernel
theorem test_config_mps : (linked.port 0).up = true ∧ linked.fnExists 0 0 = true ∧
    next? (.pcieConfigWrite 0 0 (.mps 2)) linked (fun t => (t.fnc 0 0).mps == 2) = true := by decide +kernel
theorem test_config_mrrs : next? (.pcieConfigWrite 0 0 (.mrrs 5)) linked (fun t => (t.fnc 0 0).mrrs == 5) = true := by decide +kernel
theorem test_bus_master_off : next? (.busMasterEnableChange 0 0 false) linked (fun t => !(t.fnc 0 0).bme) = true := by decide +kernel
theorem test_vfs : next? (.vfDisable 0 15 true) linked (fun t => t.fnExists 0 15) = true := by decide +kernel
theorem test_resets_hyp : (∀ f, linked.resetTen 0 f = none) ∧ (linked.port 0).up = true ∧
    (after (.vfDisable 0 15 true) linked).fnExists 0 15 = true := ⟨fun _ => rfl, by decide +kernel⟩
theorem test_link_down : next? (.linkDown 0) linked (fun t => !(t.port 0).up && (t.port 0).resets == 1 && t.fnc 0 0 == {}) = true := by
  decide +kernel
theorem test_hot_reset : next? (.hotReset 0) linked (fun t => (t.port 0).up && (t.port 0).resets == 1) = true := by decide +kernel
theorem test_flr_unbound : next? (.functionLevelReset 0 0) linked (fun t => t.fnc 0 0 == {}) = true := by decide +kernel

/-! ### Tenants, partitions and reset sequences (R184–R187, R201–R227, R245, R259) -/

theorem test_tenant_enable : (linked.ten 15).obj.st = .off ∧ linked.tenReady 15 = true ∧
    next? (.tenantEnable 0 15) linked (fun t => (t.ten 15).obj == { st := .on } && (t.ten 15).nextSeq == 1) = true := by decide +kernel
theorem test_tenant_enable_refused :
    let s := { linked with tens := [(0, { obj := { st := .on } })] }
    (s.ten 1).obj.st = .off ∧ s.tenReady 1 = false ∧ next? (.tenantEnable 0 1) s (fun t => t.win.ignLast == 0x1005) = true := by
  decide +kernel
theorem test_tenant_disable : next? (.tenantDisable 0 0) (live [0] ⟨0, 0, 0, 1, 1, 1⟩)
    (fun t => (t.ten 0).obj == { st := .winding } && (t.mod 0).keyTen == 0 && (t.part 0).wind == .cut) = true := by decide +kernel
theorem test_tenant_down :
    let s := { linked with tens := [(0, { obj := { st := .winding }, heldW := [(none, 0, [1])] })] }
    (s.ten 0).obj = { st := .winding } ∧ (s.ten 0).flr = .idle ∧ s.partsOf 0 = [] ∧ s.ringsOfTen 0 = [] ∧
    next? (.tenantWindDownDone 0) s (fun t => (t.ten 0).obj == {} && (t.ten 0).heldW == []) = true := by decide +kernel

/-- Partition 0 OFF with the box of one module, owner 0 ON and keyed. -/
def boxed : State := { live [] ⟨0, 0, 0, 1, 1, 1⟩ with parts := [(0, { boxReg := boxWord ⟨0, 0, 0, 1, 1, 1⟩ 0 })] }

theorem test_part_enable : (boxed.part 0).obj = {} ∧ (boxed.ten (boxOwner (boxed.part 0).boxReg)).obj.st = .on ∧
    boxed.partReady 0 = true ∧
    next? (.partitionEnable 0 0) boxed (fun t => (t.part 0).mods == (boxOf (boxed.part 0).boxReg).mods .s446 &&
      (t.part 0).mods.length == 1 && (t.part 0).mods.all (fun w => (t.mod w).bind == some (0, 0) && (t.mod w).keyTen == 1)) = true := by
  decide +kernel
theorem test_part_enable_no_owner : (fresh.ten (boxOwner (fresh.part 63).boxReg)).obj.parentOk = false ∧
    next? (.partitionEnable 0 63) fresh (fun t => t.win.ignLast == 0x1005) = true := by decide +kernel
theorem test_part_enable_bad_box :
    let s := { boxed with parts := [(0, { boxReg := boxWord ⟨3, 3, 5, 2, 1, 1⟩ 0 })] }
    s.partReady 0 = false ∧ next? (.partitionEnable 0 0) s (fun t => t.win.ignLast == 0x1005) = true := by decide +kernel
theorem test_part_enable_done :
    let s := after (.partitionEnable 0 0) boxed
    (s.part 0).obj.st = .winding ∧ (s.part 0).wind = .enabling ∧
    (∀ w ∈ (s.part 0).mods, (s.mod w).keyRetry = none ∧ s.reloading 3 w = false) ∧
    next? (.partitionEnableDone 0) s (fun t => (t.part 0).obj == { st := .on }) = true := by decide +kernel
theorem test_part_cut : next? (.partitionCut 0 0) (live [7] ⟨0, 0, 0, 1, 1, 1⟩)
    (fun t => (t.part 0).wind == .cut && (t.mod 7).gateClosed) = true := by decide +kernel
theorem test_part_down :
    let s := { (after (.partitionDisable 0 0) (live [7] ⟨0, 0, 0, 1, 1, 1⟩)) with cols := [(6, 1), (7 * 2 ^ 37, 2), (8 * 2 ^ 37, 3)] }
    (s.part 0).obj = { st := .winding } ∧ (s.part 0).wind = .finish ∧ s.partDrained 0 = true ∧
    next? (.partitionWindDownDone 0) s (fun t => (t.part 0).obj == {} && (t.mod 7).bind == none &&
      t.cols == [(6, 1), (8 * 2 ^ 37, 3)]) = true := by decide +kernel

/-- Tenant 1 in the drain step. -/
def draining : State := at_ 200000 { linked with tens := [(1, { obj := { st := .on }, flr := .drain })] }

theorem test_reset_done : (draining.ten 1).flr = .drain ∧ draining.drainCount 1 = 0 ∧
    next? (.flrResetDone 1) draining (fun t => (t.ten 1).flr == .scrub && (t.ten 1).flrCount == 1 && (t.ten 1).flrTb == 200000) = true := by
  decide +kernel
theorem test_drain_timeout :
    let s := { draining with reads := [(0, some { tenant := some 1, port := 0, fn := 0, addr := 0, len := 64, purpose := .scan 0,
                                                  sent := true, tick := 0 })] }
    s.drainCount 1 ≠ 0 ∧ (s.ten 1).flrTick.toNat + 200000 ≤ s.win.tb.toNat ∧
    next? (.flrDrainTimeout 1) s (fun t => (t.ten 1).flrForced && (t.ten 1).flr == .scrub) = true := by decide +kernel
theorem test_reset_scrubbed :
    let s := after (.flrResetDone 1) draining
    (s.ten 1).flr = .scrub ∧ next? (.flrScrubDone 1) s (fun t => (t.ten 1).flr == .idle) = true := by decide +kernel

/-! ### Rings, nudges, scans and fetches (R236–R252, R265, R266, R270) -/

theorem test_ring_enable :
    let s := { live [0] ⟨0, 0, 0, 1, 1, 1⟩ with rings := [(4095, { start := 9, tbase := 4 })] }
    (s.ring 4095).obj = {} ∧ s.ringReady 4095 = true ∧ (s.part (s.ring 4095).bPart).obj.st = .on ∧
    next? (.ringEnable 0 4095) s (fun t => (t.ring 4095).obj == { st := .on } && (t.ring 4095).prod == 9 &&
      (t.ring 4095).tally == 4) = true := by decide +kernel
theorem test_ring_enable_refused : (fresh.ring 0).obj = {} ∧ fresh.ringReady 0 = false ∧
    next? (.ringEnable 0 0) fresh (fun t => t.win.ignLast == 0x1005) = true := by decide +kernel
theorem test_ring_disable : ((ringOn 0 [[]]).ring 5).obj.st = .on ∧ next? (.ringDisable 0 5) (ringOn 0 [[]])
    (fun t => (t.ring 5).obj == { st := .winding } && (t.ring 5).fetched == []) = true := by decide +kernel
theorem test_ring_down :
    let s := { live [0] ⟨0, 0, 0, 1, 1, 1⟩ with rings := [(5, { obj := { st := .winding } })] }
    (s.ring 5).obj = { st := .winding } ∧ (s.ring 5).inProg = [] ∧ (s.ring 5).tallyDue = false ∧
    (s.ten (s.ring 5).ctx.tenant).flr = .idle ∧ next? (.ringWindDownDone 5) s (fun t => (t.ring 5).obj == {}) = true := by
  decide +kernel

/-- Ring 0 ON, 2^4 entries, CONS 0xFFFFFFFE, PROD 0xFFFFFFFF. -/
def scanned : State := { fresh with rings := [(0, { obj := { st := .on }, cons := 0xFFFFFFFE, prod := 0xFFFFFFFF })] }

-- boundary values of R241: d = 0; d = 2^31; one past 2^L ahead of CONS; exactly 2^L ahead of CONS
theorem test_judge_same : (0xFFFFFFFF : Word) - (scanned.ring 0).prod = 0 ∧ ringEvaluate 0 0xFFFFFFFF scanned = scanned := by
  decide +kernel
theorem test_judge_backward : ((0x7FFFFFFF : Word) - (scanned.ring 0).prod).toNat = 0x80000000 ∧
    ((ringEvaluate 0 0x7FFFFFFF scanned).ring 0).lastCause = 2 := by decide +kernel
theorem test_judge_too_far : ((0xF : Word) - (scanned.ring 0).cons).toNat = 17 ∧
    ((ringEvaluate 0 0xF scanned).ring 0).lastCause = 3 ∧ ((ringEvaluate 0 0xF scanned).ring 0).prod = 0xFFFFFFFF := by decide +kernel
theorem test_judge_full : ((0xE : Word) - (scanned.ring 0).cons).toNat = 2 ^ (scanned.ring 0).ctx.log2 ∧
    ((ringEvaluate 0 0xE scanned).ring 0).prod = 0xE := by decide +kernel

theorem test_nudge_unbound : (∀ m, ¬((fresh.ten m).obj.st = .on ∧ (fresh.ten m).bPort = 0 ∧ (fresh.ten m).bFn = 0)) ∧
    next? (.nudge 0 0 0xFFC 15) fresh (fun t => (t.port 0).nudges == 1) = true :=
  ⟨fun m h => absurd h.1 (by show (Life.off = Life.on) → False; decide), by decide +kernel⟩

/-- Partition 0 with ring 5 ON, at a tick that is a multiple of tenant 0's interval of 2,500 ticks. -/
def scanReady : State := at_ 5000 (ringOn 0 [])

theorem test_nudge_bound :
    (∀ m, ((scanReady.ten m).obj.st = .on ∧ (scanReady.ten m).bPort = 0 ∧ (scanReady.ten m).bFn = 0) ↔ m = 0) ∧
    0 ∈ scanReady.partsOf 0 ∧ scanReady.scanning 0 = true ∧ (scanReady.part 0).scan.out = false ∧
    next? (.nudge 0 0 0 15) scanReady (fun t => (t.ten 0).nudges == 1 && (t.part 0).scan.out) = true := by
  refine ⟨fun m => ⟨fun h => ?_, fun h => ?_⟩, by decide +kernel, by decide +kernel, by decide +kernel, by decide +kernel⟩
  · by_cases hm : m = 0
    · exact hm
    · have e : scanReady.ten m = {} := if_neg hm
      rw [e] at h
      exact absurd h.1 (by decide)
  · subst h; decide +kernel

theorem test_scan_due : scanReady.scanning 0 = true ∧ (scanReady.part 0).scan.out = false ∧
    scanReady.win.tb.toNat % (scanReady.ten 0).scan.toNat = 0 ∧ next? (.scanDue 0) scanReady (fun t =>
      t.out == [.hostRead 0 0 0x10000 64] && t.nextRead == 1) = true := by decide +kernel

/-- Its scan sent, at tick 5,000. -/
def scanSent : State := after (.scanDue 0) scanReady

theorem test_scan_ends_hyp : (match scanSent.readFor (fun u => u == .scan 0) with
    | some (id, h) => id == 0 && h.sent && h.len == 64 && h.addr == 0x10000 && h.tenant == some 0
    | none => false) = true := by decide +kernel
theorem test_scan_complete : next? (.scanReadComplete 0 (List.replicate 64 0)) scanSent
    (fun t => (t.ten 0).scans == 1 && !(t.ten 0).dbFault && !(t.part 0).scan.out) = true := by decide +kernel
theorem test_scan_failed : next? (.scanFailed 0 .urca) scanSent (fun t => (t.ten 0).dbFails == 1 && (t.ten 0).dbFault) = true := by
  decide +kernel
theorem test_read_timeout :
    let s := at_ 1005000 scanSent
    (∃ h, tget none 0 s.reads = some h ∧ h.sent = true ∧ h.purpose = .scan 0 ∧ h.tick.toNat + 1000000 ≤ s.win.tb.toNat) ∧
    next? (.hostReadTimeout 0) s (fun t => (t.port 0).cplTimeouts == 1) = true := ⟨⟨_, rfl, by decide +kernel⟩, by decide +kernel⟩

/-- Ring 5 with two entries to fetch, the first the last of its 16. -/
def toFetch : State := { ringOn 0 [] with
  rings := [(5, { obj := { st := .on }, ctx := { base := 0x100000 }, cons := 15, prod := 17 })] }

theorem test_fetch_issue :
    let x := toFetch.ring 5
    x.obj.st = .on ∧ x.fetchWait = false ∧ x.fetched.length + x.asked < 64 ∧ x.asked < (x.prod - x.cons).toNat ∧
    fetchCount x 4096 = 1 ∧ (toFetch.fnc 0 0).mrrsB = 4096 ∧ x.ctx.log2 ≤ 16 ∧
    next? (.ringFetchIssue 5) toFetch (fun t => t.out == [.hostRead 0 0 0x1003C0 64] && (t.ring 5).asked == 1) = true := by
  decide +kernel

/-- Its fetch asked for. -/
def fetching : State := after (.ringFetchIssue 5) toFetch

theorem test_fetch_complete :
    (∃ h, fetching.fetchOf 5 = some (0, h, 1) ∧ h.sent = true ∧ tget none 0 fetching.reads = some h ∧ h.purpose = .fetch 5 1 ∧
      h.len = 64) ∧ (fetching.ring 5).obj.st = .on ∧
    next? (.ringFetchComplete 5 (List.replicate 64 0)) fetching
      (fun t => (t.ring 5).cons == 16 && (t.ring 5).fetched.length == 1) = true := ⟨⟨_, rfl, by decide +kernel⟩, by decide +kernel⟩
theorem test_read_completion : next? (.hostReadCompletion 0 (.data (List.replicate 64 0))) fetching
    (fun t => (t.ring 5).cons == 16 && (t.ring 5).fetched.length == 1) = true := by decide +kernel
theorem test_fetch_failed : next? (.ringFetchFailed 5 .poison) fetching
    (fun t => (t.ring 5).cons == 15 && (t.ring 5).fetchFault && (t.ring 5).fetchWait) = true := by decide +kernel

/-! ### Dispatch: a legal head of each opcode (Tables 8-1 to 8-15, 4-1, R280, R281, R304, R418, R433) -/

/-- The entry `ringOn` fetches. -/
def entry (b : List Byte) : Entry := { idx := 3, bytes := b }

def nopCmd := cmd64 0x00 0 []
def waitCmd := cmd64 0x01 0 [(8, 2, 5), (12, 4, 100), (16, 8, 2)]
def settleCmd := cmd64 0x02 0 [(8, 1, 1)]
def gemmCmd := cmd64 0x10 1 [(8, 8, 0x1000), (16, 8, 0x2000), (24, 8, 0x3000), (40, 4, 1), (44, 4, 1), (48, 2, 1), (50, 2, 1),
  (52, 4, 4), (56, 4, 4)]
def attnCmd := cmd64 0x11 0 [(8, 8, 0), (16, 8, 0x10000), (24, 8, 0x20000), (32, 8, 0x30000), (40, 8, 0x40000), (48, 4, 128),
  (52, 1, 1), (54, 1, 0), (55, 1, 1)]
def eltCmd := cmd64 0x20 0 [(8, 1, 1), (12, 4, 4096), (16, 8, 0), (24, 8, 0x100000), (32, 8, 0x200000), (40, 4, 64), (44, 2, 16),
  (48, 4, 16384), (52, 4, 16384), (56, 4, 16384)]
def reduceCmd := cmd64 0x21 0 [(8, 1, 1), (12, 4, 1), (16, 8, 0), (32, 8, 0x1000), (40, 4, 1), (44, 2, 1), (48, 4, 4), (56, 4, 4)]
def combineCmd := cmd64 0x22 0 [(8, 8, 0), (16, 8, 0x1000), (24, 4, 1), (28, 4, 1)]
def copyCmd := cmd64 0x30 0 [(8, 8, 0), (16, 8, 0x1000), (24, 4, 16), (28, 2, 1), (30, 2, 1), (32, 2, 1), (60, 2, 0x7800), (62, 1, 0x30)]
def sendCmd := cmd64 0x40 0 [(8, 8, 0), (16, 8, 0x1000), (24, 4, 16), (32, 2, 255), (34, 3, 7)]
def fxReduceCmd := cmd64 0x41 0 [(8, 1, 1), (9, 1, 1), (12, 4, 4), (16, 8, 0), (24, 8, 0x1000), (32, 2, 1)]
def awaitCmd := cmd64 0x42 0 [(8, 2, 255), (12, 4, 65536), (16, 4, 9)]
def frameCmd := cmd64 0x50 0 [(8, 8, 0), (16, 4, 64), (20, 4, 4096), (24, 4, 9)]

/-- A recipe of no micro-op at partition address 0x1000, both operands fp32 and multiplied in the first format pair. -/
def gemmOn : State := { ringOn 0 [gemmCmd] with cols := [(0x1002, 0x11)] }
/-- Four modules that span the x axis. -/
def attnOn : State := { ringOn 0 [attnCmd] with
  parts := [(0, { obj := { st := .on }, box := some ⟨0, 0, 0, 4, 1, 1⟩, mods := (Box.mods .s446 ⟨0, 0, 0, 4, 1, 1⟩) })] }
def waitOn : State := ringOn 4 [waitCmd]

theorem test_head_wait : HeadReady waitOn 5 .waitTally (entry waitCmd) [] := by unfold HeadReady HeadServed; decide +kernel
theorem test_head_settle : HeadReady (ringOn 1 [settleCmd]) 5 .settle (entry settleCmd) [] := by unfold HeadReady HeadServed; decide +kernel
theorem test_head_gemm : HeadReady gemmOn 5 .mxGemm (entry gemmCmd) [] := by unfold HeadReady HeadServed; decide +kernel
theorem test_head_attn : HeadReady attnOn 5 .mxAttn (entry attnCmd) [] := by unfold HeadReady HeadServed; decide +kernel
theorem test_head_elt : HeadReady (ringOn 1 [eltCmd]) 5 .vxElt (entry eltCmd) [] := by unfold HeadReady HeadServed; decide +kernel
theorem test_head_reduce : HeadReady (ringOn 1 [reduceCmd]) 5 .vxReduce (entry reduceCmd) [] := by unfold HeadReady HeadServed; decide +kernel
theorem test_head_combine : HeadReady (ringOn 1 [combineCmd]) 5 .vxCombine (entry combineCmd) [] := by unfold HeadReady HeadServed; decide +kernel
theorem test_head_await : HeadReady (ringOn 3 [awaitCmd]) 5 .fxAwait (entry awaitCmd) [] := by unfold HeadReady HeadServed; decide +kernel
theorem test_head_frame : HeadReady (ringOn 4 [frameCmd]) 5 .ixFrame (entry frameCmd) [] := by unfold HeadReady HeadServed; decide +kernel
theorem test_head_nop : HeadReady (ringOn 2 [nopCmd]) 5 .nop (entry nopCmd) [] ∧ ((ringOn 2 [nopCmd]).ring 5).cmds = [] := by
  unfold HeadReady HeadServed; decide +kernel
theorem test_head_copy : HeadReady (ringOn 2 [copyCmd]) 5 .mvCopy (entry copyCmd) [] := by unfold HeadReady HeadServed; decide +kernel
theorem test_head_send : HeadReady (ringOn 3 [sendCmd]) 5 .fxSend (entry sendCmd) [] := by unfold HeadReady HeadServed; decide +kernel
theorem test_head_fx_reduce : HeadReady (ringOn 3 [fxReduceCmd]) 5 .fxReduce (entry fxReduceCmd) [] := by
  unfold HeadReady HeadServed; decide +kernel

theorem test_round : (waitOn.ringIds.filter (fun q => (waitOn.ring q).obj.st == .on && (waitOn.ring q).ctx.part == 0 &&
      (waitOn.ring q).ctx.engine == engCode .ix)) = [5] ∧ 0 < (waitOn.ring 5).ctx.weight ∧
    next? (.dispatcherRound 0 .ix) waitOn (fun t => (t.ring 5).disp == 1 && (t.ring 5).held) = true := by decide +kernel
theorem test_nop_counts : next? (.nop 5) (ringOn 2 [nopCmd]) (fun t => (t.ring 5).tally == 1 && (t.ring 5).tallyDue) = true := by
  decide +kernel
theorem test_copy_runs : next? (.mvCopy 5) (ringOn 2 [copyCmd])
    (fun t => (t.chan (15 * 4 + 3)).obj == { st := .on } && (t.chan (15 * 4 + 3)).owner == some (5, 1)) = true := by decide +kernel

theorem test_illegal_head :
    let s := ringOn 1 [cmd64 0x20 0 []]
    (s.ring 5).held = false ∧ (s.ring 5).cmds = [] ∧ opOf (cmd64 0x20 0 []) = some .vxElt ∧
    headLegal s 5 (entry (cmd64 0x20 0 [])) = false ∧
    next? (.vxElt 5) s (fun t => (t.ring 5).ignored == 1 && (t.ring 5).lastCause == 1 && (t.ring 5).tally == 1) = true := by
  decide +kernel

/-! ### Completion and the tally (R254–R256, R263, R282–R288, R416) -/

/-- A command in progress with the given bytes, sequence number 1, index 3. -/
def running (b : List Byte) : Cmd := { seq := 1, idx := 3, bytes := b, tick := 0, mods := [0], box := some ⟨0, 0, 0, 1, 1, 1⟩ }

/-- `FrontWaits` for a ring whose one command is `c`. -/
theorem front_alone (s : State) (op : Op) (c : Cmd) (h : (s.ring 5).cmds = [c]) (hs : c.seq = 1) (hd : c.done = false)
    (hr : c.rerun = false) (hf : bit c.flags 5 = false) (ho : opOf c.bytes = some op)
    (hp : s.leadPaused (s.ring 5).ctx.part = false) : FrontWaits s 5 1 op c [] :=
  ⟨h, hs, hd, hr, hf, ho, by simp, by simp, hp⟩

def elt1 : Cmd := { running (cmd64 0x20 1 [(8, 1, 1), (12, 4, 1), (40, 4, 1), (44, 2, 1)]) with ended := [0] }

theorem test_complete_hyp : FrontWaits (inProg 1 elt1) 5 1 .vxElt elt1 [] :=
  front_alone _ _ _ rfl rfl rfl rfl (by decide +kernel) (by decide +kernel) (by decide +kernel)
theorem test_complete : workEnded elt1 = true ∧ elt1.spillDue = false ∧ elt1.skipped = false ∧ (inProg 1 elt1).tenCan 0 = true ∧
    recBit elt1.bytes = true ∧ next? (.commandComplete 5 1) (inProg 1 elt1)
      (fun t => (t.ring 5).tally == 1 && t.out == [.hostWrite 0 0 0x1000F0 ([1] ++ List.replicate 15 0)]) = true := by
  decide +kernel

/-- A WAIT_TALLY of ring 5 for its own tally, VALUE 2, TIMEOUT 100. -/
def waits : State := { inProg 4 (running waitCmd) with
  rings := [(5, { obj := { st := .on }, ctx := { engine := 4 }, disp := 1, tally := 2, cmds := [running waitCmd] })] }
theorem test_wait_hyp : FrontWaits waits 5 1 .waitTally (running waitCmd) [] :=
  front_alone _ _ _ rfl rfl rfl rfl (by decide +kernel) (by decide +kernel) (by decide +kernel)
theorem test_wait_satisfied : (waitOf waitCmd).value = 2 ∧ (waitOf waitCmd).ring = 5 ∧
    next? (.waitTallySatisfied 5 1) waits (fun t => (t.ring 5).tally == 3) = true := by decide +kernel
theorem test_wait_timeout : (waitOf waitCmd).timeout = 100 ∧
    next? (.waitTallyTimeout 5 1) (at_ 100 (inProg 4 (running waitCmd))) (fun t => (t.ring 5).tally == 1) = true ∧
    next? (.waitTallyTimeout 5 1) (at_ 99 (inProg 4 (running waitCmd))) (fun t => (t.ring 5).tally == 0) = true := by decide +kernel

def settle1 : Cmd := { running settleCmd with cover := [(5, 0)] }
theorem test_settle_hyp : FrontWaits (inProg 1 settle1) 5 1 .settle settle1 [] :=
  front_alone _ _ _ rfl rfl rfl rfl (by decide +kernel) (by decide +kernel) (by decide +kernel)
theorem test_settle : settleReady (inProg 1 settle1) 5 settle1 = true ∧
    next? (.settleComplete 5 1) (inProg 1 settle1) (fun t => (t.ring 5).tally == 1) = true := by decide +kernel

/-- An FX_AWAIT of counter 255, VALUE 65,536, TIMEOUT 9, with the counter there. -/
def awaits : State := { inProg 3 (running awaitCmd) with fab := { fresh.fab with ctrs := [(255, { count := 65536, cur := [7] })] } }
theorem test_await_hyp : FrontWaits awaits 5 1 .fxAwait (running awaitCmd) [] :=
  front_alone _ _ _ rfl rfl rfl rfl (by decide +kernel) (by decide +kernel) (by decide +kernel)
theorem test_await_satisfied : next? (.fxAwaitSatisfied 5 1) awaits
    (fun t => (t.ctr 255).count == 0 && (t.ctr 255).prev == [7] && (t.ring 5).tally == 1) = true := by decide +kernel
theorem test_await_timeout : next? (.fxAwaitTimeout 5 1) (at_ 9 (inProg 3 (running awaitCmd))) (fun t => (t.ring 5).tally == 1) = true := by
  decide +kernel
theorem test_frame_hyp : FrontWaits (at_ 9 (inProg 4 (running frameCmd))) 5 1 .ixFrame (running frameCmd) [] ∧
    (ixFrOf (running frameCmd).bytes).timeout = 9 :=
  ⟨front_alone _ _ _ rfl rfl rfl rfl (by decide +kernel) (by decide +kernel) (by decide +kernel), by decide +kernel⟩
theorem test_frame_timeout : next? (.ixFrameTimeout 5 1) (at_ 9 (inProg 4 (running frameCmd))) (fun t => (t.ring 5).tally == 1) = true := by
  decide +kernel

theorem test_tally_write :
    let s := { ringOn 0 [] with rings := [(5, { obj := { st := .on }, ctx := { taddr := 0x2000 }, tally := 0x102, tallyDue := true })] }
    (s.ring 5).tallyDue = true ∧ s.tenCan 0 = true ∧ (s.ten 0).heldW = [] ∧ next? (.tallyWrite 5) s
      (fun t => t.out == [.hostWrite 0 0 0x2000 [2, 1, 0, 0, 0, 0, 0, 0]] && !(t.ring 5).tallyDue) = true := by decide +kernel
theorem test_flush :
    let s := { linked with tens := [(15, { obj := { st := .winding }, heldW := [(none, 8, [1])] })] }
    (s.ten 15).obj.st ≠ .off ∧ s.tenCan 15 = true ∧
    next? (.heldWriteFlush 15) s (fun t => (t.ten 15).heldW == [] && t.out == [.hostWrite 0 0 8 [1]]) = true := by decide +kernel

/-! ### Tiles (R146, R150, R151, R302, R419) -/

/-- An MX_GEMM of one tile whose recipe loads one BIAS vector, or none. -/
def gemm1 (load : Bool) : Cmd := { running gemmCmd with
  recipe := if load then put 64 1 0x10 (put 2 1 0x11 (put 0 1 0x10 (List.replicate 256 0))) else put 2 1 0x11 (List.replicate 256 0)
  place := [(0, 0, List.range 16)] }

theorem test_table_load :
    let s := inProg 0 (gemm1 true)
    s.cmd? 5 1 = some (gemm1 true) ∧ (recipeOf (gemm1 true).recipe).loads = true ∧ (gemm1 true).blobs? 0 15 = none ∧
    (gemm1 true).place.any (fun x => x.1 == 0 && x.2.2.contains 15) = true ∧
    next? (.tableLoadComplete 5 1 0 15) s (fun t => (t.ring 5).cmds.any (fun d => d.loaded.any (fun x => x.1 == 15))) = true := by
  decide +kernel
theorem test_handover :
    let s := inProg 0 (gemm1 false)
    let c := gemm1 false
    canHandover s c 0 = true ∧ chainReady s 5 c = true ∧ s.tilePaused (gemmTileAt s c 0).place 5 1 0 = false ∧
    next? (.mxTileHandover 5 1 0) s (fun t => (t.ring 5).cmds.any (fun d => d.handed.any (fun x => x.1 == 0))) = true := by
  decide +kernel
theorem test_epilogue :
    let s := after (.mxTileHandover 5 1 0) (inProg 0 (gemm1 false))
    (s.ring 5).cmds.all (fun d => !d.done && d.handed.any (fun x => x.1 == 0)) = true ∧
    next? (.epilogueEnd 5 1 0) s (fun t => (t.ring 5).cmds.any (fun d => d.ended == [0] && d.handed == [])) = true := by decide +kernel
theorem test_follower :
    let c : Cmd := { gemm1 false with waitSpill := true }
    (inProg 0 c).cmd? 5 1 = some c ∧ (inProg 0 c).inFlight 5 (1 - 1) = false ∧
    next? (.spilledFollowerStart 5 1) (inProg 0 c) (fun t => (t.ring 5).cmds.all (fun d => !d.waitSpill)) = true := by decide +kernel
theorem test_vx_tile :
    let c : Cmd := { running (cmd64 0x20 0 [(8, 1, 0x12), (10, 1, 0x10), (12, 4, 1), (24, 8, 0), (40, 4, 65), (44, 2, 1), (56, 4, 4)]) with
      place := [(0, 0, List.range 16)] }
    (inProg 1 c).cmd? 5 1 = some c ∧ 1 < vxTiles c ∧ ¬ 2 < vxTiles c ∧ c.openTile 1 = true ∧
    (inProg 1 c).tilePaused (vxPlace c 1) 5 1 1 = false ∧ opOf c.bytes = some .vxElt ∧
    next? (.vxTileEnd 5 1 1) (inProg 1 c) (fun t => (t.ring 5).cmds.any (fun d => d.ended == [1])) = true := by decide +kernel
theorem test_fold :
    let c := running fxReduceCmd
    let s := inProg 3 c
    c.done = false ∧ opOf c.bytes = some .fxReduce ∧ 0 < c.mods.length ∧ 0 ∉ c.ended ∧
    (groupOf (c.box.getD ⟨0, 0, 0, 0, 0, 0⟩) (fxRedOf c.bytes).axes c.mods.length 0).length - 1 ≤
      (s.ctr (ctrKey (c.mods.getD 0 0) (fxRedOf c.bytes).counter)).count ∧
    next? (.fxReduceFold 5 1 0) s (fun t => (t.ring 5).cmds.any (fun d => d.ended == [0])) = true := by decide +kernel

/-! ### Fences (R105, R122, R690, R691, R698, R707) -/

theorem test_fence_hyp : fresh.modServing 95 = true ∧ 15 ∈ (fresh.isle (isleKey 95 3 3)).cores ∧
    12 ≤ (fresh.isle (isleKey 95 3 3)).cores.length ∧ (fresh.isle (isleKey 95 3 3)).pos = [] ∧
    (fresh.isle (isleKey 95 3 3)).copying = none ∧ fresh.spareBad (isleKey 95 3 3) = false := by decide +kernel
theorem test_fence : next? (.coreFence 95 3 3 15 5) fresh
    (fun t => (t.isle (isleKey 95 3 3)).pos == [(15, 16)] && t.flt.fenced == 1 && t.flt.spares == 1) = true := by decide +kernel
theorem test_stall :
    let s := { fresh with chans := [((isleKey 95 3 3 * 17 + 15) * 4, { obj := { st := .on } })] }
    s.coreBusy 95 3 3 15 = true ∧ s.paused 95 = false := by decide +kernel
theorem test_fence_order : w32 (95 + 3 * 2 ^ 7 + 3 * 2 ^ 9 + 15 * 2 ^ 11 + 2 ^ 15) = 0xFFDF ∧
    next? (.faultCoreFenceOrder 0 0xFFDF) fresh (fun t => t.flt.lastFence.toNat / 2 ^ 20 == 4) = true := by decide +kernel
theorem test_spare_copied :
    let s := after (.coreFence 95 3 3 15 1) fresh
    (s.isle (isleKey 95 3 3)).copying = some 15 ∧
    next? (.spareColumnCopyDone 95 3 3) s (fun t => (t.isle (isleKey 95 3 3)).colPos == [(15, 16)]) = true := by decide +kernel

/-! ### Column encryption (R104, R216) -/

-- FIPS 197, appendix C.3
theorem test_aes : aesEnc (List.range 32) ((List.range 16).map (· * 17)) =
    [0x8E, 0xA2, 0xB7, 0xCA, 0x51, 0x67, 0x45, 0xBF, 0xEA, 0xFC, 0x49, 0x90, 0x4B, 0x49, 0x60, 0x89] := by decide +kernel
/-- The key and the first 64 bytes of ciphertext of IEEE 1619, vector 10 (data unit 0xFF, plaintext 0, 1, 2, …). -/
def xtsKey : List Nat := (List.range 64).map (fun i =>
  0x27182818284590452353602874713526624977572470936999595749669676273141592653589793238462643383279502884197169399375105820974944592
    / 256 ^ (63 - i) % 256)
def xtsOut : List Nat := (List.range 64).map (fun i =>
  0x1C3B3A102F770386E4836C99E370CF9BEA00803F5E482357A4AE12D414A3E63B5D31E276F8FE4A8D66B317F9AC683F44680A86AC35ADFC3345BEFECB4BB188FD
    / 256 ^ (63 - i) % 256)
theorem test_xts : xtsEnc xtsKey 0xFF (List.range 64) = xtsOut := by decide +kernel
theorem test_xts_back : xtsDec xtsKey 0xFF xtsOut = List.range 64 := by decide +kernel
-- unit 9 of column slot 5 of isle 3, die 2, MOD 1: offset bits [32:12] are 2, [11:8] 5 and [7:6] 1
theorem test_tweak : unitTweak (2 ^ 31 + 2 * 2 ^ 29 + 3 * 2 ^ 27 + 2 * 2 ^ 6 + 5 * 2 ^ 2 + 1) =
    9 + 5 * 2 ^ 23 + 3 * 2 ^ 27 + 2 * 2 ^ 29 + 2 ^ 31 := by decide +kernel
/-- A unit written under key 1 of a bank that holds the key above; its 64 bytes are 0, 1, 2, …; module 0's slot has key 2. -/
def keyed : State := { fresh with
  mods := [(0, { colKey := 1 })], keyBank := [(1, xtsKey.map (BitVec.ofNat 8)), (2, (List.replicate 64 (3 : Byte)))]
  cols := (List.range 63).map (fun i => (i + 1, BitVec.ofNat 8 (i + 1))) }
theorem test_same_key : keyed.colBytes 1 0 64 = (List.range 64).map (BitVec.ofNat 8) := by decide +kernel
-- with no key in the slot a gate would pass the stored bytes: the ciphertext
theorem test_raw : keyed.colBytes 0 0 1 = ((xtsEnc xtsKey 0 (List.range 64)).take 1).map (BitVec.ofNat 8) := by decide +kernel

/-! ### Move channels and diagnostic mode (R327–R344, R798) -/

/-- Module 0 in diagnostic mode. -/
def diag : State := { fresh with
  mods := [(0, { diagEn := true, diagActive := true, keyDiag := true })]
  chans := [(0, { regs := { count := 16, cnt01 := 0x10001, cnt2 := 1 } })] }

theorem test_go : diag.modAnswers 0 1 = true ∧ diag.chanOpen 0 = true ∧ (diag.chan (diag.selChan 0 0)).obj.st = .off ∧
    moveOk (2 ^ 37) (diag.chan (diag.selChan 0 0)).regs.mv = true ∧
    next? (.mvChGo 0 0 0) diag (fun t => (t.chan 0).obj == { st := .on } && (t.chan 0).owner == none) = true := by decide +kernel
def moving : State := after (.mvChGo 0 0 0) diag
theorem test_go_busy : (moving.chan (moving.selChan 0 0)).obj.st = .on ∧
    next? (.mvChGo 0 0 0) moving (fun t => t.win.ignLast == 0x1004) = true := by decide +kernel
theorem test_transfer_done : moving.readsBack (moving.chanKey 0 0 0 0 0) = true ∧ moving.paused 0 = false ∧
    (∀ q, ∀ d ∈ (moving.ring q).cmds, d.rechan = none) ∧
    next? (.mvTransferComplete 0 0 0 0 0) moving (fun t => (t.chan 0).obj == {}) = true :=
  ⟨by decide +kernel, by decide +kernel, fun _ _ h => absurd h (List.not_mem_nil), by decide +kernel⟩
theorem test_channel_down :
    let s := { diag with chans := [(0, { obj := { st := .winding } })] }
    (s.chan (s.chanKey 0 0 0 0 0)).obj = { st := .winding } ∧
    next? (.mvWindDownDone 0 0 0 0 0) s (fun t => (t.chan 0).obj == {}) = true := by decide +kernel

theorem test_diag_enable : fresh.modAnswers 95 0 = true ∧ (fresh.mod 95).diagEn = false ∧ fresh.modServing 95 = true ∧
    fresh.modInPart 95 = false ∧ next? (.mvDiagEnable 0 95) fresh (fun t => (t.mod 95).diagEn) = true := by decide +kernel
theorem test_diag_refused :
    let s := live [0] ⟨0, 0, 0, 1, 1, 1⟩
    (s.mod 0).diagEn = false ∧ s.modInPart 0 = true ∧ s.modAnswers 0 0 = true ∧
    next? (.mvDiagEnable 0 0) s (fun t => t.win.ignLast == 0x1005) = true := by decide +kernel
theorem test_diag_active :
    let s := after (.mvDiagEnable 0 95) fresh
    (s.mod 95).diagEn = true ∧ (s.mod 95).diagActive = false ∧ s.keys.ready = true ∧ s.modServing 95 = true ∧
    (s.mod 95).keyRetry = none ∧ next? (.mvDiagActive 95) s (fun t => (t.mod 95).diagActive && (t.mod 95).keyDiag) = true := by
  decide +kernel
theorem test_diag_leaves : 0 ∈ moving.diagBusy 0 ∧ (moving.chan 0).obj.st ≠ .off ∧ next? (.mvDiagDisable 0 0) diag
    (fun t => !(t.mod 0).diagEn && (t.mod 0).diagActive) = true := by decide +kernel
theorem test_diag_scrub :
    let s := { fresh with mods := [(95, { diagActive := true, keyDiag := true })], cols := [(5, 1), (95 * 2 ^ 37 + 7, 1)] }
    s.diagScrub 95 = true ∧ next? (.mvDiagExitScrubDone 95) s (fun t => !(t.mod 95).diagActive && t.cols == [(5, 1)]) = true := by
  decide +kernel

/-! ### The fabric (R182, R395, R402–R408) -/

/-- A write packet from module 0 to the module at (1, 0, 0), received by module 0's router. -/
def pkt0 : Packet := { pid := 0, dst := ⟨1, 0, 0⟩, src := ⟨0, 0, 0⟩, shape := .s446, calm := false, kind := .write, diag := true,
                       loc := .mod ((winAt .s446 ⟨0, 0, 0⟩).getD 0), tag := 9 }
/-- The fabric holding one packet, kept at its origin. -/
def carrying (p : Packet) : State := { fresh with fab := { fresh.fab with pkts := [p], kept := [{ pkt := p, tick := 0 }], nextPid := 1 } }

theorem test_forward : (carrying pkt0).pkt? 0 = some pkt0 ∧
    (match route (takePkt 0 (carrying pkt0)) pkt0 with | .send _ _ => true | _ => false) = true ∧ pkt0.payload.length ≤ 2048 ∧
    next? (.packetArrival 0 true) (carrying pkt0) (fun t => t.fab.pkts.map (·.loc) == [.mod ((winAt .s446 ⟨1, 0, 0⟩).getD 0)]) = true := by
  decide +kernel
theorem test_retry :
    let p := { pkt0 with calm := true, tries := 6 }
    p.tries < 7 ∧ p.via = none ∧ next? (.packetArrival 0 false) (carrying p)
      (fun t => t.fab.retries == 1 && t.fab.pkts.map (·.tries) == [7]) = true := by decide +kernel
def ackOf (k : PKind) : State := { carrying { pkt0 with pid := 7 } with
  fab := { (carrying { pkt0 with pid := 7 }).fab with pkts := [{ pkt0 with kind := k, dst := ⟨0, 0, 0⟩ }] } }
theorem test_land : ((ackOf .land).ackAt 0 .land).isSome = true ∧
    next? (.landReceived 0) (ackOf .land) (fun t => t.fab.kept.isEmpty && t.fab.pkts.isEmpty) = true := by decide +kernel
theorem test_nack : ((ackOf .nack).ackAt 0 .nack).isSome = true ∧ ((ackOf .nack).fab.kept.find? (fun x => x.pkt.tag == 9)).isSome = true ∧
    next? (.nackReceived 0) (ackOf .nack) (fun t => t.fab.reinj == 1 && t.fab.pkts.map (fun p => (p.calm, p.reinj)) == [(true, true)]) = true := by
  decide +kernel
theorem test_ack_timeout :
    next? (.ackTimeout 9) (at_ 100000 (ackOf .land)) (fun t => t.fab.reinj == 1) = true ∧
    next? (.ackTimeout 9) (at_ 99999 (ackOf .land)) (fun t => t.fab.reinj == 0) = true := by decide +kernel
theorem test_duplicate_expiry :
    let s := { fresh with fab := { fresh.fab with dups := [{ node := .mod 0, src := ⟨0, 0, 0⟩, sdie := 0, sisle := 0, tag := 9, tick := 0 }] } }
    next? (.duplicateRecordExpiry 9) (at_ 400000 s) (fun t => t.fab.dups.isEmpty) = true ∧
    next? (.duplicateRecordExpiry 9) (at_ 399999 s) (fun t => t.fab.dups.length == 1) = true := by decide +kernel

theorem test_training_lost : fresh.linkUp 799 = true ∧
    next? (.linkTrainingLost 0) fresh (fun t => (t.link (linkKey .s446 0)).failed && (t.link (linkKey .s446 0)).reason == 1) = true := by
  decide +kernel
theorem test_map_update : next? .failedLinkMapUpdate (after (.linkTrainingLost 0) fresh)
    (fun t => (t.link (linkKey .s446 0)).inMap && t.fab.mapGen == 1) = true := by decide +kernel
theorem test_link_fence : next? (.fabLinkFence 0 799) fresh (fun t => (t.link (linkKey .s446 799)).fenced) = true := by decide +kernel
theorem test_link_fence_above : next? (.fabLinkFence 0 800) fresh (fun t => t.win.ignLast == 0x1003) = true ∧
    next? (.fabLinkUnfence 0 1023) fresh (fun t => t.win.ignLast == 0x1003) = true := by decide +kernel
theorem test_link_unfence :
    let s := after (.fabLinkFence 0 8) fresh
    (s.link (linkKey .s446 8)).fenced = true ∧ next? (.fabLinkUnfence 0 8) s (fun t => (t.link (linkKey .s446 8)).training) = true := by
  decide +kernel
theorem test_retrain :
    let s := after (.fabLinkUnfence 0 8) (after (.fabLinkFence 0 8) fresh)
    (s.link (linkKey .s446 8)).training = true ∧ s.endsLive 8 = true ∧
    next? (.linkRetrainDone 8 true) s (fun t => t.link (linkKey .s446 8) == {}) = true ∧
    next? (.linkRetrainDone 8 false) s (fun t => (t.link (linkKey .s446 8)).failed) = true := by decide +kernel

/-! ### The shape and the Sound (R367–R383) -/

theorem test_shape_request : fresh.sh.phase = .idle ∧ shapeOf 1 ≠ fresh.sh.shape ∧ fresh.sh.sound = 1 ∧
    next? (.fabShapeReq (.window 0) 1) fresh (fun t => t.sh.phase == .hold && t.sh.target == .s483) = true := by decide +kernel
/-- 16 × 6 in force. -/
def flat : State := { fresh with sh := { fresh.sh with shape := .s166 } }
theorem test_shape_prepares : (shapeOf 0).is3D = true ∧ next? (.fabShapeReq (.window 0) 0) flat (fun t => t.sh.phase == .prep) = true := by
  decide +kernel
theorem test_shape_busy : next? (.fabShapeReq (.window 0) 1) (after (.fabShapeReq (.window 0) 1) fresh)
    (fun t => t.win.ignLast == 0x1004) = true := by decide +kernel
theorem test_shape_prepared :
    let s := after .soundCircuitsSet (after (.fabShapeReq (.window 0) 0) flat)
    s.sh.phase = .prep ∧ s.sh.setting = false ∧ tooManyRings s.sh.ringsFailed = false ∧
    next? .shapePreparationDone s (fun t => t.sh.phase == .hold && t.sh.trained) = true := by decide +kernel
-- five rings are too many, four are not (R374)
theorem test_shape_prep_failed :
    let s := after (.fabShapeReq (.window 0) 0) flat
    tooManyRings ((s.sh.ringsFailed ++ ([0, 1, 2, 3, 4] : List (BitVec 4)).map (·.toNat)).dedup) = true ∧
    tooManyRings ((s.sh.ringsFailed ++ ([0, 1, 2, 3, 3] : List (BitVec 4)).map (·.toNat)).dedup) = false ∧
    next? (.shapePreparationFailed [0, 1, 2, 3, 4]) s (fun t => t.sh.phase == .idle && t.sh.lastCause == 6 && t.sh.shape == .s166) = true := by
  decide +kernel
theorem test_shape_release :
    let s := after (.fabShapeReq (.window 0) 3) fresh
    s.sh.phase = .hold ∧ s.sh.divert = none ∧ tooManyRings ((s.sh.ringsFailed ++ ([] : List (BitVec 4)).map (·.toNat)).dedup) = false ∧
    next? (.shapeHoldRelease [] []) s (fun t => t.sh.shape == .s166 && t.sh.phase == .idle && t.sh.count == 1) = true := by decide +kernel

theorem test_sound_fault : fresh.sh.sound ≠ 0 ∧ next? .soundFault fresh (fun t => t.sh.sound == 3) = true := by decide +kernel
theorem test_sound_set :
    let s := after (.fabShapeReq (.window 0) 2) fresh
    s.sh.setting = true ∧ s.sh.phase ≠ .idle ∧ next? .soundCircuitsSet s (fun t => t.sh.set == 2 && !t.sh.setting) = true := by decide +kernel
theorem test_circuit_failed : tooManyRings ((fresh.sh.ringsFailed ++ [(15 : BitVec 4).toNat]).dedup) = false ∧
    (after (.fabShapeReq (.window 0) 2) fresh).sh.phase = .hold ∧
    next? (.soundCircuitFailed 15) fresh (fun t => t.sh.ringsFailed == [15]) = true := by decide +kernel
theorem test_sound_enter : flat.sh.shape.is3D = false ∧ next? (.soundServiceEnter (.window 0)) flat (fun t => t.sh.sound == 2) = true ∧
    next? (.soundServiceEnter (.window 0)) fresh (fun t => t.sh.phase == .hold && t.sh.enterDue) = true := by decide +kernel
theorem test_sound_leave :
    let s := after (.soundServiceEnter (.window 0)) flat
    s.sh.sound = 2 ∧ s.sh.phase = .idle ∧ next? (.soundServiceLeave (.window 0)) s (fun t => t.sh.selfTest) = true ∧
    next? (.soundSelfTestDone true) (after (.soundServiceLeave (.window 0)) s) (fun t => t.sh.sound == 1) = true ∧
    next? (.soundSelfTestDone false) (after (.soundServiceLeave (.window 0)) s) (fun t => t.sh.sound == 3) = true := by decide +kernel
theorem test_sound_splice : trayAtCol 2 3 = none ∧ trayAtCol 3 3 ≠ none ∧ next? (.soundExtWrite 0 23 0x1E) fresh
    (fun t => tget 0 23 t.sh.ext == 30 && t.stored (0xC0100 + 92) 0 == 30) = true ∧
    next? (.soundExtWrite 0 22 0x1F) fresh (fun t => t.win.ignLast == 0x1003) = true ∧
    next? (.soundExtWrite 0 22 0x0E) (after (.soundExtWrite 0 23 0x1E) fresh) (fun t => t.win.ignLast == 0x1003) = true := by decide +kernel

/-! ### Rotating attention (R439–R442, R448, R454) -/

/-- An MX_ATTN of one query tile on four modules, E = 4, with the progress given for slab 0. -/
def attn (a : AttnSlab) : State := { attnOn with
  rings := [(5, { obj := { st := .on }, disp := 1, cmds := [{ running attnCmd with
    box := some ⟨0, 0, 0, 4, 1, 1⟩, mods := Box.mods .s446 ⟨0, 0, 0, 4, 1, 1⟩, attn := [(0, a)] }] })] }
def slab0 (t : State) : AttnSlab := ((t.ring 5).cmds.head?.map (fun c => c.slab 0)).getD {}

theorem test_attn_hyp : (match (attn {}).waiting 5 1 .mxAttn with
    | some c => c.attE == 4 && c.attRT == 1 && c.mods.length == 4 && c.attGranted 0 1 && !(c.attGranted 0 2) && c.attPresent 0 0 0
    | none => false) = true := by decide +kernel
theorem test_attn_dispatch : next? (.attnTileStepDispatch 5 1 0 0) (attn {}) (fun t => (slab0 t).running.any (fun x => x.1 == 0)) = true := by
  decide +kernel
theorem test_attn_forward : next? (.attnChunkForward 5 1 0 0 0) (attn {}) (fun t => (slab0 t).sent == [attCode 0 0]) = true := by decide +kernel
-- E = 4: the last step that sends is 2, the one step whose buffer is released is 1
theorem test_attn_release : (match (attn { next := [(0, 2)] }).waiting 5 1 .mxAttn with | some c => c.attEnded 0 1 | none => false) = true ∧
    next? (.attnBufferRelease 5 1 0 1) (attn { next := [(0, 2)] }) (fun t => (slab0 t).released == [1]) = true := by decide +kernel
theorem test_attn_stall_chunk :
    next? (.attnStall 5 1 0 3 false) (at_ 1000000 (attn {})) (fun t => (slab0 t).stalls == [6] && (slab0 t).present == [attCode 3 0]) = true ∧
    next? (.attnStall 5 1 0 3 false) (at_ 999999 (attn {})) (fun t => (slab0 t).stalls == []) = true := by decide +kernel
theorem test_attn_stall_buffer :
    next? (.attnStall 5 1 0 2 true) (at_ 1000000 (attn {})) (fun t => (slab0 t).stalls == [5] && (slab0 t).granted == [2]) = true := by
  decide +kernel

theorem test_attn_end_hyp : (match (attn { running := [(0, 0)] }).waiting 5 1 .mxAttn with
    | some c => (c.slab 0).running.any (fun x => x.1 == 0) && (List.range c.attRT).all (fun k => c.attPresent 0 (tget 0 0 (c.slab 0).next) k)
    | none => false) = true := by decide +kernel

/-! ### Scanner ports (R461–R469, R486–R488) -/

theorem test_cxp_ctl : fresh.trayAnswers 15 = true ∧ Fld (0x00123461 : Word) 4 3 = 6 ∧ bit (0x00123461 : Word) 0 = true ∧
    next? (.cxpCtlWrite 0 7 0x00123461) fresh (fun t => (t.sport 7).ctl == 0x00120061) = true := by decide +kernel
theorem test_cxp_ctl_rate : next? (.cxpCtlWrite 0 0 0x71) fresh (fun t => t.win.ignLast == 0x1003 && (t.sport 0).ctl == 0) = true := by
  decide +kernel

/-- Port 7 with a device attached, its streams accepted. -/
def attached : State := { fresh with sports := [(7, { ctl := 0x361, st := 2, connUp := 3, pocOn := 3, conns := 1, stream := 5 })] }
/-- Port 7 in discovery. -/
def discovering : State := { fresh with sports := [(7, { ctl := 0x361, st := 1 })] }

theorem test_reconfig : next? (.cxpReconfig 0 7) attached (fun t => (t.sport 7).st == 1 && (t.sport 7).pocOn == 3) = true := by decide +kernel
theorem test_detach : next? (.cxpDetach 0 7) attached (fun t => (t.sport 7).st == 0 && (t.sport 7).pocOn == 0) = true := by decide +kernel
theorem test_discovery :
    let s := { fresh with sports := [(7, { ctl := 0x361 })] }
    s.intakeOn 7 = true ∧ bit (s.sport 7).ctl 0 = true ∧ (s.sport 7).st ≠ 2 ∧ (s.sport 7).discTick = 0 ∧ (s.sport 7).detTick = 0 ∧
    next? (.discoveryAttempt 7 1) s (fun t => (t.sport 7).st == 1) = true := by decide +kernel
theorem test_discovery_none : (discovering.sport 7).st = 1 ∧ next? (.discoveryComplete 7 [] 0 false) discovering
    (fun t => (t.sport 7).st == 0) = true := by decide +kernel
-- MAXRATE 6 and a device that supports rates 0 and 6: rate 6
theorem test_discovery_one : next? (.discoveryComplete 7 [0x41] 1 false) discovering
    (fun t => (t.sport 7).st == 2 && (t.sport 7).rate == 6 && (t.sport 7).connUp == 1) = true := by decide +kernel
theorem test_poc_fault : (0xA : BitVec 4) &&& (attached.sport 7).pocOn ≠ 0 ∧
    next? (.pocxpFault 7 0xA) attached (fun t => (t.sport 7).pocOn == 1 && (t.sport 7).pocFault == 2) = true := by decide +kernel
theorem test_lock_lost : next? (.scannerDetach 7) attached (fun t => (t.sport 7).st == 0 && (t.sport 7).connUp == 0) = true := by decide +kernel
theorem test_extension_lost : (2 : BitVec 4) &&& (attached.sport 7).connUp &&& 0xE ≠ 0 ∧
    next? (.extensionLockLost 7 2) attached (fun t => (t.sport 7).connLost && (t.sport 7).connUp == 1) = true := by decide +kernel

theorem test_header : attached.intakeOn 7 = true ∧ (attached.sport 7).streams = true ∧ fmtListed false 14 = true ∧
    fmtListed true 14 = false ∧ next? (.imageHeaderArrival 7 5 16384 16384 false 0 14) attached
      (fun t => (t.sport 7).frames == 1 && ((t.sport 7).cur.any (fun f => f.num == 1 && f.w == 16384))) = true := by decide +kernel
/-- A frame of 4 × 2 bytes in progress. -/
def framing : State := after (.imageHeaderArrival 7 5 4 2 false 0 8) attached
theorem test_other_stream : next? (.streamPacketArrival 7 6 true false [1]) attached (fun t => (t.sport 7).other == 1) = true := by decide +kernel
theorem test_packet_grows : lineBytes 4 8 * 2 = 8 ∧ next? (.streamPacketArrival 7 5 true false [1, 2, 3, 4, 5, 6, 7]) framing
    (fun t => (t.sport 7).cur.any (fun f => f.data.length == 7) && (t.sport 7).aborts == 0) = true := by decide +kernel
theorem test_packet_crc : next? (.streamPacketArrival 7 5 false false [1]) framing
    (fun t => (t.sport 7).cur.isNone && (t.sport 7).abortCause == 3 && (t.sport 7).crcErr == 1 && (t.sport 7).abortFrame == 1) = true := by
  decide +kernel
theorem test_frame_idle :
    next? (.frameIdleTimeout 7) (at_ 10000000 framing) (fun t => (t.sport 7).abortCause == 6) = true ∧
    next? (.frameIdleTimeout 7) (at_ 9999999 framing) (fun t => (t.sport 7).aborts == 0) = true := by decide +kernel

theorem test_gc_read : (attached.sport 7).gcBusy = false ∧ next? (.gcRead 0 7) attached (fun t => (t.sport 7).gcBusy &&
    t.out == [.uplink 15 3 [0, 0, 0, 0, 0, 4, 0]]) = true := by decide +kernel
def mailing : State := after (.gcWrite 0 7) attached
theorem test_gc_busy : (mailing.sport 7).gcBusy = true ∧ (mailing.sport 7).gcTries = 1 ∧
    next? (.gcRead 0 7) mailing (fun t => t.win.ignLast == 0x1004) = true := by decide +kernel
theorem test_gc_answers : next? (.controlAckArrival 7 (.ok [])) mailing (fun t => !(t.sport 7).gcBusy && (t.sport 7).gcResult == 0) = true ∧
    next? (.controlAckArrival 7 (.error 9)) mailing (fun t => (t.sport 7).gcResult == 1 && (t.sport 7).gcDev == 9) = true := by decide +kernel
theorem test_gc_resent : next? (.controlPacketTimeout 7) (at_ 20000000 mailing) (fun t => (t.sport 7).gcTries == 2 && (t.sport 7).gcBusy) = true := by
  decide +kernel
theorem test_gc_gives_up :
    let s := at_ 60000000 (after (.controlPacketTimeout 7) (at_ 40000000 (after (.controlPacketTimeout 7) (at_ 20000000 mailing))))
    (s.sport 7).gcTries = 3 ∧ (s.sport 7).gcTick.toNat + 20000000 ≤ s.win.tb.toNat ∧
    next? (.controlPacketTimeout 7) s (fun t => !(t.sport 7).gcBusy && (t.sport 7).gcResult == 2) = true := by decide +kernel
theorem test_event_packet : next? (.eventPacketArrival 7 1 [2]) attached (fun t => t.out.contains (.uplink 15 3 [4])) = true := by decide +kernel

/-! ### Pins and triggers (R471–R484) -/

theorem test_pin_write : BitVec.ofNat 4 (Fld (0x10034 : Word) 0 4) ≠ (15 : BitVec 4) ∧ (fresh.pin (7 * 16 + 15)).hold = 0 ∧
    next? (.pinConfigWrite 0 7 15 0x34) fresh (fun t => (t.pin 127).func == 4 && (t.pin 127).inv && !(t.pin 127).term &&
      (t.pin 127).hold != 0) = true := by decide +kernel
theorem test_pin_refused : next? (.pinConfigWrite 0 7 15 0xF) fresh (fun t => t.win.ignLast == 0x1003) = true := by decide +kernel
theorem test_pin_hold_ends :
    let s := after (.pinConfigWrite 0 7 15 4) fresh
    next? (.pinHoldEnd 7 15 0) (at_ 400 s) (fun t => (t.pin 127).act == 4 && (t.pin 127).hold == 0) = true ∧
    next? (.pinHoldEnd 7 15 3) (at_ 399 s) (fun t => (t.pin 127).act == 0 && (t.pin 127).hold != 0) = true := by decide +kernel
theorem test_pin_perforation :
    let s := { fresh with pins := [(127, { func := 4, act := 4 })] }
    s.intakeOn 7 = true ∧ s.pinDrive 127 = none ∧ (s.pin 127).act = 4 ∧ (s.sport 7).inLvl.getLsbD 3 = false ∧
    next? (.pinInputEdge 7 15 true 0) s (fun t => (t.sport 7).perf == 1 && (t.pin 127).ext) = true := by decide +kernel
theorem test_overload :
    let s := { fresh with pins := [(127, { func := 10, act := 10 })] }
    s.pinDrive 127 ≠ none ∧ next? (.outputOverload 7 15) s (fun t => (t.pin 127).fault) = true ∧
    next? (.outputOverload 7 16) s (fun t => (t.sport 7).fault5v) = true ∧
    next? (.outputFaultRetry 7 15 true) (at_ 1000000 (after (.outputOverload 7 15) s)) (fun t => !(t.pin 127).fault) = true ∧
    next? (.outputFaultRetry 7 15 true) (at_ 999999 (after (.outputOverload 7 15) s)) (fun t => (t.pin 127).fault) = true ∧
    next? (.outputFaultRetry 7 16 true) (at_ 100000000 (after (.outputOverload 7 16) s)) (fun t => !(t.sport 7).fault5v) = true := by decide +kernel

/-- Port 7 armed on the time source, PERIOD 100, PHASE 7. -/
def timed : State := at_ 107 { fresh with sports := [(7, { trigCtl := 4, period := 100, phase := 7, armPeriod := 100, armPhase := 7 })] }
theorem test_arm : Fld (0x31C : Word) 0 3 ≤ 5 ∧ periodOk 4 100 = true ∧ periodOk 4 99 = false ∧
    next? (.triggerArm 0 7 0x31C) timed (fun t => (t.sport 7).trigCtl == 0x31C && (t.sport 7).armPeriod == 100 && (t.sport 7).armPhase == 7) = true := by decide +kernel
theorem test_arm_refused : next? (.triggerArm 0 7 6) timed (fun t => t.win.ignLast == 0x1003) = true ∧
    next? (.triggerArm 0 7 4) fresh (fun t => t.win.ignLast == 0x1003) = true := by decide +kernel
theorem test_fire : Fld (timed.sport 7).trigCtl 0 3 ≠ 0 ∧ (timed.sport 7).firedAt 431 = false ∧
    next? (.trigFire 0 7 3) timed (fun t => (t.sport 7).trigCount == 1 && (t.sport 7).trigTs == 431) = true := by decide +kernel
theorem test_timed : timed.win.tb.toNat % (timed.sport 7).armPeriod.toNat = (timed.sport 7).armPhase.toNat % (timed.sport 7).armPeriod.toNat ∧
    (timed.sport 7).firedAt 428 = false ∧ next? (.timedTrigger 7) timed (fun t => (t.sport 7).trigCount == 1) = true := by decide +kernel
/-- The same port with the rising edge of output 4 due. -/
def edging : State := { timed with sports := [(7, { trigCtl := 4, period := 100, phase := 7, armPeriod := 100, armPhase := 7, sched := [{ due := 428, out := 4, rise := true }] })] }
theorem test_fire_overruns : ((edging.sport 7).sched.any (fun e => decide (e.out < 6))) = true ∧
    next? (.timedTrigger 7) edging (fun t => (t.sport 7).trigCount == 0 && (t.sport 7).overrun == 1) = true := by decide +kernel
theorem test_edge : next? (.scheduledOutputEdge 7 0) edging (fun t => (t.sport 7).outLvl == 16 && (t.sport 7).sched == []) = true ∧
    next? (.scheduledOutputEdge 7 3) (at_ 106 edging) (fun t => (t.sport 7).outLvl == 0) = true := by decide +kernel
theorem test_overrun_report :
    let s := after (.timedTrigger 7) edging
    (s.sport 7).overRun ≠ 0 ∧ (s.sport 7).overTick = 0 ∧
    next? (.trigOverrunReport 7) s (fun t => (t.sport 7).overRun == 0 && (t.sport 7).overTick == 108) = true := by decide +kernel

/-! ### Develop contexts and pipelines (R185, R489, R505–R532) -/

/-- A valid header of a mono frame of 8 × 8 for all planes. -/
def header1 : List Host.Cell := [(0, 1), (4, 7), (6, 7), (8, 7), (40, 2), (42, 2)]
def frame1 : RawFrame := { num := 1, slot := 0, tb := 0, w := 8, h := 8, fmt := { bayer := false, cfa := 0, bits := 8 }, data := [] }
/-- Context 7 ON with a valid bank 0, one unit in its queue. -/
def queued : State := { fresh with pipes := [(7, { obj := { st := .on }, mem := header1, queue := [.unit [frame1] false 0] })] }

theorem test_unit_taken : queued.takes 7 = some 7 ∧ next? (.unitTaken 7) queued
    (fun t => (t.pipe 7).queue == [] && (t.pipe 7).dev.any (fun d => d.ctx == 7)) = true := by decide +kernel
theorem test_unit_ends :
    let s := after (.unitTaken 7) queued
    hEn ((s.pipe 7).header false) 4 = false ∧ s.intakeOn 7 = true ∧ (s.pipe 7).dev.isSome = true ∧
    next? (.unitLastWrite 7) s (fun t => (t.pipe 7).dev.isNone && (t.pipe 7).units == 1) = true := by decide +kernel
theorem test_marker :
    let s := { fresh with pipes := [(7, { obj := { st := .on }, queue := [.marker 3] })] }
    s.intakeOn 7 = true ∧ s.headReady 7 = true ∧ next? (.earlyEndMarkerReport 7) s (fun t => (t.pipe 7).queue == []) = true := by
  decide +kernel
theorem test_drop_report :
    let s := { fresh with pipes := [(7, { dropRun := 1 })] }
    (s.pipe 7).dropTick = 0 ∧ next? (.frameDroppedReport 7) s (fun t => (t.pipe 7).dropRun == 0 && (t.pipe 7).dropTick == 1) = true := by
  decide +kernel

/-- Context 7 OFF with a valid bank 0 and 1, formatter 0 bound to no ring. -/
def defined : State := { fresh with pipes := [(7, { mem := header1 ++ header1.map (fun c => (c.1 + 2 ^ 32, c.2)), loadLen := 64,
                                                    loadDst := 0xFFFFFFC0 })] }
theorem test_pipe_enable : headerOk ((defined.pipe 7).header false) ((defined.pipe 7).binds.map (·.1)) = true ∧
    (∀ c ∈ (defined.pipe 7).binds, (defined.ring c.2).obj.st = .on ∧ (defined.ring c.2).ctx.engine = Eng.code .ix ∧
      defined.ringTaken 7 c.1 c.2 = false) ∧ defined.reloading 4 7 = false ∧
    next? (.pipeEnable 0 7) defined (fun t => (t.pipe 7).obj == { st := .on }) = true := by decide +kernel
theorem test_pipe_refused : headerOk ((fresh.pipe 0).header false) ((fresh.pipe 0).binds.map (·.1)) = false ∧
    next? (.pipeEnable 0 0) fresh (fun t => t.win.ignLast == 0x1005) = true := by decide +kernel
theorem test_pipe_disable : queued.pipeWorks 7 = false ∧ next? (.pipeDisable 0 7) queued (fun t => (t.pipe 7).obj == {}) = true := by
  decide +kernel
theorem test_pipe_winds :
    let s := after (.pipeDisable 0 7) (after (.unitTaken 7) queued)
    (s.pipe 7).obj = { st := .winding } ∧ (s.pipe 7).dev.isSome = true := by decide +kernel
theorem test_pipe_down :
    let s := { fresh with pipes := [(7, { obj := { st := .winding } })] }
    s.pipeWorks 7 = false ∧ next? (.pipeWindDownDone 7) s (fun t => (t.pipe 7).obj == {}) = true := by decide +kernel
theorem test_bank_switch : (defined.pipe 7).bankOk true = true ∧ (defined.pipe 7).loadBusy = false ∧
    next? (.pipeBankWrite 0 7 1) defined (fun t => (t.pipe 7).bank && (t.pipe 7).gen == 1) = true := by decide +kernel
def loading : State := after (.bankLoad 0 7 true) { defined with ports := linked.ports, fns := linked.fns, tens := bound.tens }
theorem test_load : (defined.pipe 7).loadDst.toNat + (defined.pipe 7).loadLen.toNat ≤ 2 ^ 32 ∧ (defined.pipe 7).bank ≠ true ∧
    (loading.pipe 7).loadBusy = true ∧ loading.out = [.hostRead 0 0 0 64] := by decide +kernel
theorem test_load_done : (match loading.readFor (fun u => u == .bank 15 3) with | some g => g.2.sent | none => false) = true ∧
    (loading.pipe 7).loadDone = 0 ∧ (loading.pipe 7).runLen = 64 ∧
    next? (.bankLoadComplete 7 (List.replicate 64 9) false) loading (fun t => (t.pipe 7).loadResult == 0 && !(t.pipe 7).loadBusy &&
      tget 0 (2 ^ 33 - 1) (t.pipe 7).mem == 9) = true := by decide +kernel

/-! ### Reset, bring-up and the panel (R184, R545–R555, R628, R660, R675, R738, R767, R782) -/

theorem test_reset : fresh.boot.stage = 11 ∧ fresh.boot.st = 1 ∧ (fresh.mod 95).state = 1 ∧ (fresh.ten 0).obj = {} ∧ fresh.stw.epoch = 1 := by
  decide +kernel

/-- The machine without power. -/
def dark : State := { fresh with boot := { fresh.boot with powered := false } }
/-- Bring-up in stage n. -/
def stage (n : Nat) : State := { fresh with boot := { fresh.boot with stage := n, st := 0 } }

theorem test_power_on : dark.boot.powered = false ∧ next? (.powerOn (List.replicate 18 0)) dark
    (fun t => t.boot.powered && t.boot.stage == 0 && t.boot.st == 0) = true := by decide +kernel
theorem test_stage_passes : (stage 0).stageRuns = true ∧ (stage 0).stageDone = true ∧
    next? (.stageEnd []) (stage 0) (fun t => t.boot.stage == 1 && (tget {} 0 t.boot.reports).result == 1) = true := by decide +kernel
theorem test_stage_last : (stage 11).stageRuns = true ∧ next? (.stageEnd []) (stage 11) (fun t => t.boot.st == 1) = true := by decide +kernel
theorem test_stage_stops :
    let s := { stage 3 with fuses := { fresh.fuses with split := true } }
    s.stageRuns = true ∧ s.stageDone = true ∧ (stageWork 3 s.boot.found s).stop = true ∧ next? (.stageEnd []) s (fun t => t.boot.st == 2) = true := by
  decide +kernel
theorem test_stage_held :
    let s := { stage 2 with upd := { fresh.upd with switch := true } }
    s.stageRuns = true ∧ (stageWork 2 s.boot.found s).stop = false ∧ next? (.stageEnd []) s (fun t => t.boot.held && t.boot.stage == 2) = true := by
  decide +kernel
theorem test_bound_other : stageBound 0 = 1000000000 ∧ (at_ 1000000000 (stage 0)).boot.began.toNat + stageBound 0 ≤ (at_ 1000000000 (stage 0)).win.tb.toNat ∧
    next? (.stageBoundExpiry []) (at_ 1000000000 (stage 0)) (fun t => t.boot.stage == 1) = true ∧
    next? (.stageBoundExpiry []) (at_ 999999999 (stage 0)) (fun t => t.boot.stage == 0) = true := by decide +kernel
theorem test_bound_rails :
    let s := at_ 200000000 { stage 3 with pwr := { fresh.pwr with mods := [(95, { obj := {}, rising := true })] } }
    s.stageRuns = true ∧ s.stageDone = false ∧ next? (.stageBoundExpiry []) s (fun t =>
      (tget {} 3 t.boot.reports).items == 1 && (t.mod 95).state == 2) = true := by decide +kernel

-- 1 ms / (N × 4096): N = 2 gives 122,071 ps, above the field; N = 100,000 gives 3 ps (R551)
theorem test_calibration : (stage 4).stageRuns = true ∧ (stage 4).modAlive 95 = true ∧
    next? (.calibrationLoopEnd 95 3 true 100000) (stage 4) (fun t => tget 0 383 t.boot.cal == 0x30000) = true ∧
    next? (.calibrationLoopEnd 95 3 false 2) (stage 4) (fun t => tget 0 383 t.boot.cal == 65535) = true := by decide +kernel
theorem test_cold_wait :
    let s := at_ 60000000000 { stage 4 with therm := { fresh.therm with dies := [(383, { cold := true })] } }
    (s.die 383).cold = true ∧ s.boot.began.toNat + 60000000000 ≤ s.win.tb.toNat ∧ s.stageRuns = true ∧ s.modAlive 95 = true ∧
    next? (.coldWaitTimeout 95 3) s (fun t => t.boot.found == [itemAt 4 11 7 3 0 0 3]) = true := by decide +kernel
theorem test_switch_clears :
    let s := { stage 2 with boot := { (stage 2).boot with held := true }, upd := { fresh.upd with switch := true } }
    s.boot.held = true ∧ next? (.transportSwitch false) s (fun t => t.boot.stage == 3 && !t.boot.held) = true := by decide +kernel
theorem test_switch_set : fresh.boot.held = false ∧ next? (.transportSwitch true) fresh (fun t => t.upd.switch) = true := by decide +kernel
theorem test_boot_ack : fresh.majority = true ∧
    next? (.bootAck (.window 0)) { fresh with boot := { fresh.boot with codes := [0xD4] } } (fun t => t.boot.codes == []) = true ∧
    next? (.bootAck (.mgmt (.console 0))) { fresh with boot := { fresh.boot with codes := [0xD4] } } (fun t => t.boot.codes == []) = true := by
  decide +kernel
theorem test_restart : Fld (0xA96 : Word) 0 16 = 0xA96 ∧ next? (.restart (.window 0) 0xA96) { fresh with cols := [(1, 1)] }
    (fun t => t.boot.stage == 2 && t.boot.st == 0 && t.cols == []) = true := by decide +kernel
theorem test_restart_value : next? (.restart (.window 0) 0xA97) fresh (fun t => t.win.ignLast == 0x1003) = true := by decide +kernel

/-- Two of the three steward channels failed. -/
def lonely : State := { fresh with stw := { fresh.stw with chans := [(1, { st := 3 }), (2, { st := 3 })] } }
theorem test_restart_minority : lonely.majority = false ∧ lonely.boot.powered = true ∧
    next? (.restart (.window 0) 0xA96) lonely (fun t => t.win.ignLast == 0x1005) = true := by decide +kernel
theorem test_restart_managed : next? (.restart (.mgmt (.redfish 1)) 0) fresh (fun t => t.boot.stage == 2) = true := by decide +kernel
theorem test_oscillators : fresh.win.osc = 0 ∧ fresh.win.oscFailed = 0 ∧
    next? .oscillatorFailure fresh (fun t => t.win.osc == 1 && t.win.tb == 0) = true ∧
    next? .oscillatorFailure (after .oscillatorFailure fresh) (fun t => t.win.osc == 2 && t.win.oscFailed == 3) = true ∧
    (after .oscillatorFailure fresh).win.oscFailed = 1 := by decide +kernel

theorem test_display : fresh.topCodes ≠ [] ∧ next? .displayCycle fresh (fun t => t.stw.shown == 0x4F4B) = true := by decide +kernel
theorem test_lamp : fresh.stw.lamp = 0 ∧ next? .lampTest fresh (fun t => t.stw.lamp == 1) = true ∧
    next? .locateButton fresh (fun t => t.stw.panelLocate) = true := by decide +kernel
theorem test_lamp_ends :
    let s := after .lampTest fresh
    s.stw.lamp ≠ 0 ∧ next? .locateButton s (fun t => t.stw.lampLocate && !t.stw.panelLocate) = true ∧
    next? .lampTestEnd (at_ 300000000 s) (fun t => t.stw.lamp == 0) = true ∧
    next? .lampTestEnd (at_ 299999999 s) (fun t => t.stw.lamp == 1) = true := by decide +kernel
theorem test_location : fresh.served = true ∧ fresh.majority = true ∧
    next? (.locationIndicatorSet 0 (.tray 17) true) fresh (fun t => t.stw.rmTrays == 0x20000) = true ∧
    next? (.locationIndicatorSet 0 (.module 95) true) fresh (fun t => t.stw.rmMods == [95]) = true ∧
    next? (.locationIndicatorSet 0 .rack true) fresh (fun t => t.stw.rmRack) = true := by decide +kernel
/-- In whiteout with every lid open for 10 s, flow good for 10 s. -/
def white : State := at_ 1000000000 { fresh with
  keys := { fresh.keys with white := true, ready := false, wkgen := 0, openTick := 1 }
  therm := { fresh.therm with flowLost := true, resCut := true, reservoir := 11 } }
theorem test_re_arm : white.lidsEnded = true ∧ white.therm.goodFlow ≠ 0 ∧ white.therm.goodFlow - 1 + 1000000000 ≤ white.win.tb.toNat ∧
    next? .reArm white (fun t => t.keys.rearming && !t.therm.flowLost && !t.therm.resCut) = true := by decide +kernel
theorem test_re_arm_not : 
    let s := { white with keys := fresh.keys, therm := { white.therm with goodFlow := 0, reservoir := 10 } }
    s.keys.white = false ∧ next? .reArm s (fun t => t.therm.flowLost && t.therm.resCut && t.keys == s.keys) = true := by decide +kernel

/-! ### Caps, orders, rails and sag (R198, R570–R595, R736) -/

theorem test_cap_module : Fld (560 : Word) 0 11 = 560 ∧ next? (.moduleCapHostWrite 0 95 560) fresh
    (fun t => (t.pwrMod 95).capHost == 560 && t.stored (pwrModOff 95 + 8) 0 == 560) = true ∧
    next? (.moduleCapHostWrite 0 95 559) fresh (fun t => t.win.ignLast == 0x1003) = true := by decide +kernel
theorem test_cap_partition : next? (.partitionCapHostWrite 0 63 560) fresh (fun t => tget 0 63 t.pwr.partHost == 560) = true ∧
    next? (.partitionCapHostWrite 0 63 1) fresh (fun t => t.win.ignLast == 0x1003) = true := by decide +kernel
theorem test_cap_rack : next? (.rackCapHostWrite 0 65510) fresh (fun t => t.pwr.rackHost == 65510) = true ∧
    next? (.rackCapHostWrite 0 65509) fresh (fun t => t.win.ignLast == 0x1003) = true := by decide +kernel
theorem test_order_host : (fresh.pwrMod 95).obj.st = .on ∧ fresh.wardenRuns 11 = true ∧
    next? (.powerOrderHost 0 95 2) fresh (fun t => (t.pwrMod 95).host == 2 && (t.pwrMod 95).obj.st == .winding) = true ∧
    next? (.powerOrderHost 0 95 3) fresh (fun t => t.win.ignLast == 0x1003) = true := by decide +kernel
theorem test_caps_rm : capLegal (.module 95) 2047 = true ∧ capLegal (.module 95) 2048 = false ∧ capLegal (.partition 63) 559 = false ∧
    capLegal .rack 262143 = true ∧
    next? (.redfishPowerLimit 1 (.partition 63) 560) fresh (fun t => tget 0 63 t.pwr.partRm == 560) = true ∧
    next? (.redfishPowerLimit 1 .rack 65509) fresh (fun t => t.out == [.answer 1 400 []]) = true := by decide +kernel
theorem test_order_rm : next? (.powerOrderRm 1 95 1) fresh (fun t => (t.pwrMod 95).rm == 1 && t.out == [.answer 1 200 [1]]) = true ∧
    next? (.powerOrderRm 1 95 3) fresh (fun t => t.out == [.answer 1 400 []]) = true := by decide +kernel
-- 18 rectifiers give 135,000 W, of which 0.95 stands above the A96-X's 127,000 W; 17 give 121,125 W, below it (R570)
theorem test_shelf : next? (.shelfReport 3 0 true 5) fresh (fun t => (t.shelf 3).good == 0 && t.pwr.auto == 0) = true ∧
    next? (.shelfReport 2 5 true 5) (after (.shelfReport 3 0 true 5) fresh) (fun t => t.pwr.auto == 121125) = true := by
  decide +kernel

/-- Module 95 with its power as given, others ON. -/
def powerOf (p : PwrMod) : State := { fresh with pwr := { fresh.pwr with mods := [(95, p)] } }
theorem test_rails_up : next? (.railSequenceUpDone 95) (powerOf { obj := {}, rising := true })
    (fun t => (t.pwrMod 95).obj == { st := .on } && !(t.pwrMod 95).rising) = true ∧
    next? (.railRampMiss 95) (powerOf { obj := {}, rising := true }) (fun t => (t.mod 95).stage == 3 && (t.mod 95).cause == 2) = true := by
  decide +kernel
theorem test_rails_down :
    let s := { powerOf { obj := { st := .winding, pending := true } } with cols := [(94 * 2 ^ 37, 1), (95 * 2 ^ 37, 1)] }
    (s.pwrMod 95).obj.pending = true ∧ s.canRise 95 = true ∧
    next? (.railSequenceDownDone 95) s (fun t => (t.pwrMod 95).rising && t.cols == [(94 * 2 ^ 37, 1)]) = true := by decide +kernel
theorem test_rail_fault : next? (.railFault 95 4 900) fresh (fun t => (t.mod 95).cause == 1 && (t.pwrMod 95).obj.st == .winding) = true := by
  decide +kernel
-- the target is 920; from 915 the step stops at it, from 935 it falls by 10, and not before 2,000 ticks have passed
theorem test_supply_step :
    (powerOf { vset := 915 }).vTarget 95 = 920 ∧
    next? (.coreSupplyStep 95) (powerOf { vset := 915 }) (fun t => (t.pwrMod 95).vset == 920) = true ∧
    next? (.coreSupplyStep 95) (powerOf { vset := 935 }) (fun t => (t.pwrMod 95).vset == 925) = true ∧
    next? (.coreSupplyStep 95) (at_ 2000 (powerOf { vset := 900, vtick := 1 })) (fun t => (t.pwrMod 95).vset == 910) = true ∧
    next? (.coreSupplyStep 95) (at_ 1999 (powerOf { vset := 900, vtick := 1 })) (fun t => (t.pwrMod 95).vset == 900) = true := by
  decide +kernel
-- the cap is 1,200 W: a window above it, one below 0.95 of it after nine others, and one between
theorem test_cap_windows : (fresh.capEff 95).1 = 1200 ∧
    next? (.capControllerWindow 95 1201) (powerOf { ctrl := 800, low := 10 }) (fun t => (t.pwrMod 95).ctrl == 790) = true ∧
    next? (.capControllerWindow 95 1139) (powerOf { ctrl := 800, low := 9 }) (fun t => (t.pwrMod 95).ctrl == 810) = true ∧
    next? (.capControllerWindow 95 1139) (powerOf { ctrl := 800, low := 8 }) (fun t => (t.pwrMod 95).ctrl == 800) = true ∧
    next? (.capControllerWindow 95 1200) (powerOf { ctrl := 800, low := 10 }) (fun t => (t.pwrMod 95).ctrl == 800) = true := by decide +kernel
theorem test_spans : (List.replicate 18 ((5, 6) : BitVec 14 × BitVec 14)).length = 18 ∧ fresh.wardenRuns 17 = true ∧
    next? (.powerSpanEnd 0 (List.replicate 18 (5, 6)) 10 200) fresh (fun t => t.pwr.avg1 == 100 && t.pwr.peak == 200 && (t.tray 17).avg1 == 5) = true := by
  decide +kernel

/-- The machine at a sag level. -/
def sagAt (n : Nat) : State := { fresh with pwr := { fresh.pwr with sag := n } }
-- Table 16-4 at its boundaries
theorem test_sag_from_0 : next? (.sagSample 47000) fresh (fun t => t.pwr.sag == 0) = true ∧
    next? (.sagSample 46999) fresh (fun t => t.pwr.sag == 1) = true ∧ next? (.sagSample 43999) fresh (fun t => t.pwr.sag == 2) = true := by
  decide +kernel
theorem test_sag_from_1 : next? (.sagSample 47499) (sagAt 1) (fun t => t.pwr.sag == 1) = true ∧
    next? (.sagSample 47500) (sagAt 1) (fun t => t.pwr.sag == 0) = true ∧ next? (.sagSample 44000) (sagAt 1) (fun t => t.pwr.sag == 1) = true := by
  decide +kernel
theorem test_sag_from_2 : next? (.sagSample 44499) (sagAt 2) (fun t => t.pwr.sag == 2) = true ∧
    next? (.sagSample 44500) (sagAt 2) (fun t => t.pwr.sag == 1) = true ∧ next? (.sagSample 54000) (sagAt 3) (fun t => t.pwr.sag == 3) = true := by
  decide +kernel
theorem test_sag_hold : next? (.sagSample 40999) fresh (fun t => t.pwr.below == 1) = true ∧
    next? (.sagSample 41000) (after (.sagSample 40999) fresh) (fun t => t.pwr.below == 0) = true := by decide +kernel
theorem test_hold_expires :
    let s := { fresh with pwr := { fresh.pwr with below := 1, sag := 2, battery := 20, items := [(4, some 9)] } }
    Tab.wf none s.pwr.items = true ∧
    next? .holdTimerExpiry (at_ 2000000 s) (fun t => !t.boot.powered && t.pwr.sag == 3 && tget none 4 t.store == some 9) = true ∧
    next? .holdTimerExpiry (at_ 1999999 s) (fun t => t.boot.powered) = true := by decide +kernel
theorem test_undervoltage : (fresh.tray 11).contactor = true ∧ fresh.modServing 95 = true ∧
    next? (.trayUndervoltage 11) fresh (fun t => !(t.tray 11).contactor && (t.pwrMod 95).safety && (t.mod 95).cause == 3) = true := by
  decide +kernel
theorem test_deferred : next? .deferredWriteCommit { fresh with pwr := { fresh.pwr with items := [(4, some 9)], image := 1 } }
      (fun t => t.pwr.items == [] && t.pwr.image == 0 && tget none 4 t.store == some 9) = true ∧
    next? .deferredWriteCommit { sagAt 1 with pwr := { (sagAt 1).pwr with image := 1 } } (fun t => t.pwr.image == 1) = true := by decide +kernel
theorem test_battery : next? (.battLowCondition 19) fresh (fun t => t.pwr.battery == 19) = true ∧
    next? (.batteryLow 19) fresh (fun t => t.keys.battTold) = true ∧
    next? (.batteryLow 20) (after (.batteryLow 19) fresh) (fun t => !t.keys.battTold) = true := by decide +kernel

/-! ### Cooling and heat (R609–R632, R649–R651) -/

/-- Readings of the CDU. -/
def cdu1 : CduRead := ⟨100, 120, 60, 70, 216⟩
theorem test_control_period : fresh.stw.cool = 1 ∧ (fresh.stew 1).up = true ∧
    next? (.coolingControlPeriod cdu1 [(0, 0), (29, 101), (0, 0)]) fresh (fun t => t.stw.coolOrder == (30, 100)) = true ∧
    next? (.coolingControlPeriod cdu1 [(0, 0), (101, 7), (0, 0)]) fresh (fun t => t.stw.coolOrder == (100, 7)) = true := by decide +kernel
theorem test_no_authority : 3 ≤ ({ fresh with stw := { fresh.stw with cool := 3 } }).stw.cool ∧
    next? (.coolingControlPeriod cdu1 [(0, 0), (0, 0), (0, 0)]) { fresh with stw := { fresh.stw with cool := 3 } }
      (fun t => t.stw.coolOrder == (30, 50)) = true := by decide +kernel

/-- Channels A and B order 40 % of pump 0, C 90 %. -/
def ordered : State := { fresh with stw := { fresh.stw with chans := [(0, { order := (40, 50) }), (1, { order := (40, 50) }), (2, { order := (90, 50) })] } }
theorem test_vote : (∃ v, agreed (([0, 1, 2].filter (fun c => (7 : BitVec 3).toNat.testBit c && !(ordered.disq c))).map (fun c => ordered.orderOf 0 c 0)) = some v) ∧
    next? (.actuatorOrderReceipt 0 7 0) ordered (fun t => t.applied 0 == 40) = true := ⟨⟨40, by decide +kernel⟩, by decide +kernel⟩
theorem test_vote_contactor : next? (.actuatorOrderReceipt 7 7 0) ordered (fun t => t.applied 7 == 0) = true := by decide +kernel
/-- A and C differ and B is not heard: none agree. -/
def apart : State := { ordered with stw := { ordered.stw with noAgree := [(0, 1)] } }
theorem test_vote_none : agreed (([0, 1, 2].filter (fun c => (5 : BitVec 3).toNat.testBit c && !(apart.disq c))).map (fun c => apart.orderOf 0 c 0)) = none ∧
    tget 0 0 apart.stw.noAgree ≠ 0 ∧
    next? (.actuatorOrderReceipt 0 5 0) (at_ 10000000 apart) (fun t => t.applied 0 == 90) = true ∧
    next? (.actuatorOrderReceipt 0 5 0) (at_ 9999999 apart) (fun t => t.applied 0 == 30) = true ∧
    next? (.actuatorOrderReceipt 0 5 0) ordered (fun t => t.applied 0 == 30) = true := by decide +kernel
theorem test_pumps : fresh.therm.fault0 = false ∧ fresh.therm.fault1 = false ∧
    next? (.pumpStop 0) fresh (fun t => t.therm.fault0 && t.therm.spd0 == 0 && t.therm.spd1 == 100) = true ∧
    next? (.pumpStop 1) fresh (fun t => t.therm.fault1 && t.therm.spd1 == 0 && t.therm.spd0 == 100) = true := by decide +kernel
theorem test_pump_retry :
    let s := after (.pumpStop 0) fresh
    let s1 := after (.pumpStop 1) fresh
    s.therm.fault0 = true ∧ s1.therm.fault1 = true ∧
    next? (.pumpRetry 0) (at_ 6000000000 s) (fun t => t.therm.spd0 == 30) = true ∧
    next? (.pumpRetry 0) (at_ 5999999999 s) (fun t => t.therm.spd0 == 0) = true ∧
    next? (.pumpRetry 1) (at_ 6000000000 s1) (fun t => t.therm.spd1 == 30) = true ∧
    next? (.pumpRejoin 0) s (fun t => !t.therm.fault0 && t.therm.spd1 == 100) = true ∧
    next? (.pumpRejoin 1) s1 (fun t => !t.therm.fault1) = true := by decide +kernel
/-- The machine with no module fitted. -/
def bare : State := { fresh with mods := (List.range 96).map (fun w => (w, { state := 0 })) }
/-- With no tray but the Sound's. -/
def lone : State := { bare with trays := (List.range 16).map (fun t => (t, { svc := .absent, contactor := false })) }
theorem test_reservoir : next? (.reservoirLevelChange 9) lone (fun t => t.therm.resCut && !(t.tray 16).contactor && (t.ttherm 16).valve == 0) = true ∧
    next? (.reservoirLevelChange 10) fresh (fun t => !t.therm.resCut && (t.tray 16).contactor) = true := by decide +kernel
theorem test_cdu_leak : next? (.cduLeakSensed true) fresh (fun t => t.therm.cduLeak) = true := by decide +kernel
theorem test_cdu_watchdog :
    let s := { fresh with stw := { fresh.stw with chans := [(1, { st := 3 }), (2, { st := 3 })] } }
    s.therm.forced = false ∧ s.majority = false ∧ fresh.majority = true ∧
    next? .cduVoterWatchdog s (fun t => t.therm.forced && t.therm.spd0 == 100 && t.therm.cduValve == 100) = true := by decide +kernel

-- the inlet alarm begins above 32 °C (128 quarters) and ends at 31 °C (124)
theorem test_inlet : next? (.trayCoolantSample 17 128 0 0 false) fresh (fun t => !(t.ttherm 17).inletHigh) = true ∧
    next? (.trayCoolantSample 17 129 0 0 true) fresh (fun t => (t.ttherm 17).inletHigh && (t.ttherm 17).leak) = true ∧
    next? (.trayCoolantSample 17 125 0 0 false) (after (.trayCoolantSample 17 129 0 0 false) fresh) (fun t => (t.ttherm 17).inletHigh) = true ∧
    next? (.trayCoolantSample 17 124 0 0 false) (after (.trayCoolantSample 17 129 0 0 false) fresh) (fun t => !(t.ttherm 17).inletHigh) = true := by
  decide +kernel
-- a die is cold below −10 °C (−40 quarters)
theorem test_sensors : fresh.auxUp 95 = true ∧ (List.replicate 8 (some (0 : BitVec 12))).length = 8 ∧
    next? (.junctionSensorSample 95 3 (some (BitVec.ofInt 12 (-41)) :: List.replicate 7 none)) fresh
      (fun t => (t.die 383).cold && (t.die 383).sensors.getD 0 none == some (-41) && (t.die 383).sensors.getD 7 none == none) = true ∧
    next? (.junctionSensorSample 95 3 (some (BitVec.ofInt 12 (-40)) :: List.replicate 7 none)) fresh (fun t => !(t.die 383).cold) = true := by
  decide +kernel
theorem test_forecast_hyp : fresh.auxUp 95 = true ∧ (fresh.mtherm 95).last ≠ fresh.win.tb.toNat / 25000 + 1 := by decide +kernel
theorem test_comparator : fresh.modServing 95 = true ∧ (fresh.tray 16).contactor = true ∧
    next? (.comparatorTrip 11 7 3) fresh (fun t => (t.die 383).tripped && (t.pwrMod 95).safety && (t.mod 95).cause == 2) = true ∧
    next? (.comparatorTrip 16 0 0) fresh (fun t => (t.ttherm 16).ot && !(t.tray 16).contactor) = true := by decide +kernel
theorem test_flow_loss :
    let s := at_ 500000000 { lone with therm := { fresh.therm with cduFlow := 42, lowFlow := 1 } }
    s.therm.lowFlow ≠ 0 ∧ s.therm.lowFlow - 1 + 500000000 ≤ s.win.tb.toNat ∧ s.therm.flowLost = false ∧
    (at_ 499999999 s).win.tb.toNat < s.therm.lowFlow - 1 + 500000000 ∧
    next? .lossOfFlow (at_ 499999999 s) (fun t => !t.therm.flowLost) = true := by decide +kernel
theorem test_leak : (fresh.ttherm 11).leakCut = false ∧ (fresh.tray 11).svc ≠ .absent ∧
    next? (.leakCutoff 11) fresh (fun t => (t.ttherm 11).leakCut && (t.pwrMod 95).safety && !(t.tray 11).contactor) = true := by decide +kernel
theorem test_watchdog : fresh.wardenRuns 11 = true ∧
    next? (.wardenWatchdogExpiry 11) fresh (fun t => !(t.wardenRuns 11) && (t.ttherm 11).forced && (t.pwrMod 95).capLatch == some (fresh.capEff 95)) = true := by
  decide +kernel

/-! ### Stewards, the log and management (R589, R653–R673, R680) -/

/-- Channel A has missed four periods on both paths. -/
def missing : State := { fresh with stw := { fresh.stw with chans := [(0, { missE := 4, missS := 4 })] } }
theorem test_heartbeats : missing.stw.period ≠ missing.win.tb.toNat / 2000000 + 1 ∧ missing.stw.spokes = 0 ∧
    (missing.stew 0).up = true ∧ (missing.stew 1).alarmE = false ∧ (missing.stew 2).alarmS = false ∧
    next? (.heartbeatPeriod 0x36) missing (fun t => (t.stew 0).st == 3 && (t.stew 1).st == 1 && t.stw.spokes == 1 && t.stw.epoch == 2) = true := by
  decide +kernel
theorem test_claims : fresh.stw.spokes = 0 ∧ fresh.stw.epoch = 1 ∧
    next? (.heartbeatReceipt 2 2) fresh (fun t => t.stw.spokes == 2 && t.stw.epoch == 2) = true ∧
    next? (.heartbeatReceipt 2 0) fresh (fun t => t.stw.spokes == 0 && t.stw.epoch == 1) = true ∧
    next? (.heartbeatReceipt 2 1) fresh (fun t => t.stw.spokes == 0) = true := by decide +kernel
theorem test_switchback : (fresh.stew 2).st = 1 ∧
    next? (.switchback (.console 0) 2) fresh (fun t => t.stw.spokes == 2 && t.stw.epoch == 2) = true ∧
    next? (.switchback (.console 0) 0) fresh (fun t => t.stw.spokes == 0 && t.stw.epoch == 1) = true := by decide +kernel
theorem test_adoption :
    let s := after (.wardenWatchdogExpiry 11) fresh
    s.wardenRuns 11 = false ∧ 11 ∉ s.stw.adopting ∧ (s.tray 11).svc = .inService ∧ (s.tray 11).contactor = true ∧
    next? (.wardenStart 11) s (fun t => t.stw.adopting == [11]) = true ∧
    next? (.wardenAdoptionDone 11) (after (.wardenStart 11) s) (fun t => t.wardenRuns 11 && !(t.ttherm 11).forced && (t.pwrMod 95).capLatch == none) = true := by
  decide +kernel

def rec1 : LogRec := { tb := 0, lsn := 1, chan := 0, cls := 1, code := 2, place := 3, arg0 := 4, arg1 := 5, data := [] }
/-- A record waits at channel C. -/
def inboxed : State := { fresh with stw := { fresh.stw with chans := [(2, { inbox := [rec1] })] } }
theorem test_append : (inboxed.stew 2).copyOk = true ∧ (inboxed.stew 2).deferred = [] ∧
    next? (.logRecordAppend 2) inboxed (fun t => (t.stew 2).copy == [rec1] && (t.stew 2).inbox == []) = true ∧
    next? (.logRecordAppend 2) { inboxed with pwr := { inboxed.pwr with sag := 1 } } (fun t => (t.stew 2).deferred == [rec1]) = true := by
  decide +kernel
theorem test_copy_failed : (fresh.stew 2).copyOk = true ∧ (∃ d, d < 3 ∧ d ≠ 2 ∧ (fresh.stew d).copyOk = true) ∧
    next? (.logCopyFailed 2) fresh (fun t => !(t.stew 2).copyOk && t.stw.gaps == 1 && !t.stw.unavail) = true :=
  ⟨by decide +kernel, ⟨0, by decide +kernel⟩, by decide +kernel⟩
/-- Only channel A's copy works. -/
def oneCopy : State := after (.logCopyFailed 2) (after (.logCopyFailed 1) fresh)
theorem test_log_lost : (∀ d, d < 3 → d ≠ 0 → (oneCopy.stew d).copyOk = false) ∧
    next? (.logCopyFailed 0) oneCopy (fun t => t.stw.unavail && (tget none 17 t.stw.words).isSome) = true := by
  refine ⟨fun d h1 h2 => ?_, by decide +kernel⟩
  obtain rfl | rfl : d = 1 ∨ d = 2 := by omega
  · decide +kernel
  · decide +kernel
theorem test_log_rebuilt :
    let s := after (.logCopyFailed 0) oneCopy
    (s.stew 1).copyOk = false ∧ s.stw.unavail = true ∧
    next? (.logCopyRebuilt 1) s (fun t => (t.stew 1).copyOk && !t.stw.unavail && t.stw.ram == []) = true ∧
    next? (.logCopyRebuilt 1) oneCopy (fun t => (t.stew 1).copyOk && t.stw.ram == oneCopy.stw.ram) = true := by decide +kernel
theorem test_console : fresh.served = true ∧ fresh.stw.accounts.any (fun x => x.1 == 0) = true ∧ fresh.stw.accounts.any (fun x => x.1 == 1) = false ∧
    next? (.consoleStatus 0) fresh (fun t => t.out.length == 1) = true ∧ next? (.consoleLog 0 (some 1)) fresh (fun t => t.out.length == 1) = true ∧
    next? (.consoleLastwords 0) fresh (fun t => t.out.length == 1) = true ∧
    next? (.consoleStatus 1) fresh (fun t => t.out == [.answer (2 ^ 32 + 1) 1 []]) = true := by decide +kernel

theorem test_get : fresh.resource 6 95 ≠ none ∧ fresh.resource 6 96 = none ∧
    next? (.redfishGet 0 6 96) fresh (fun t => t.out == [.answer 0 404 []]) = true := by decide +kernel
theorem test_session : fresh.stw.accounts.find? (fun x => x.1 == 0 && x.2.1 == 0) = some (0, 0, 2) ∧
    fresh.stw.accounts.find? (fun x => x.1 == 0 && x.2.1 == 1) = none ∧
    next? (.redfishSessionCreate 0 0) fresh (fun t => t.stw.sessions.length == 1 && t.stw.nextSess == 2) = true ∧
    next? (.redfishSessionCreate 0 1) fresh (fun t => t.out == [.answer 1 401 []]) = true := by decide +kernel
theorem test_sessions_full :
    let s := { fresh with stw := { fresh.stw with sessions := List.replicate 16 { id := 9, account := 0, role := 2, tick := 0 } } }
    16 ≤ s.stw.sessions.length ∧ next? (.redfishSessionCreate 0 0) s (fun t => t.out == [.answer 1 503 []]) = true := by decide +kernel
theorem test_accounts : (∀ x ∈ fresh.stw.accounts, x.1 ≠ 7) ∧ (∃ x ∈ fresh.stw.accounts, x.1 = 0) ∧
    next? (.redfishStandardOperation 1 (.accountCreate 7 3 2)) fresh (fun t => t.stw.accounts == [(0, 0, 2), (7, 3, 2)]) = true ∧
    next? (.redfishStandardOperation 1 (.accountDelete 0)) fresh (fun t => t.stw.accounts == []) = true := by decide +kernel
/-- A session and a subscription. -/
def visited : State := { fresh with stw := { fresh.stw with
  sessions := [{ id := 4, account := 0, role := 2, tick := 0 }], subs := [(4, 1)], clock := some (0, 0) } }
theorem test_standard : (∃ x ∈ visited.stw.sessions, x.id = 4) ∧ (∃ x ∈ visited.stw.subs, x.1 = 4) ∧ (∀ x ∈ visited.stw.subs, x.1 ≠ 5) ∧
    next? (.redfishStandardOperation 4 (.sessionDelete 4)) visited (fun t => t.stw.sessions == []) = true ∧
    next? (.redfishStandardOperation 4 (.sessionTimeout 60)) visited (fun t => t.stw.sessTimeout == 60) = true ∧
    next? (.redfishStandardOperation 4 (.subscribe 5 6)) visited (fun t => t.stw.subs == [(4, 1), (5, 6)]) = true ∧
    next? (.redfishStandardOperation 4 (.unsubscribe 4)) visited (fun t => t.stw.subs == []) = true := by decide +kernel
theorem test_datetime : next? (.datetimeSet 4 99) visited (fun t => t.stw.clock == some (0, 99)) = true ∧
    next? (.datetimeSet 4 99) lonely (fun t => t.stw.clock == none && t.out == [.answer 4 503 []]) = true := by decide +kernel
theorem test_ntp : next? (.ntpStep 1000000000) visited (fun t => t.stw.clock == some (0, 0)) = true ∧
    next? (.ntpStep 1000000001) visited (fun t => t.stw.clock == some (0, 1000000001)) = true ∧
    next? (.ntpStep 1) fresh (fun t => t.stw.clock == some (0, 1)) = true := by decide +kernel
theorem test_session_ends : next? (.redfishSessionTimeout 4) (at_ (1800 * 100000000) visited) (fun t => t.stw.sessions == []) = true ∧
    next? (.redfishSessionTimeout 4) (at_ (1800 * 100000000 - 1) visited) (fun t => t.stw.sessions.length == 1) = true := by decide +kernel

/-! ### Repair and trays (R560, R575, R695–R706) -/

theorem test_scrub : fresh.modServing (isleKey 95 3 3 / 16) = true ∧ fresh.badUnits.contains (unitKey (isleKey 95 3 3) (2 ^ 27 - 1)) = false ∧
    next? (.patrolScrubPass 95 3 3 (BitVec.allOnes 27) 2) fresh (fun t => t.flt.colUe == 1 && t.badUnits.length == 1) = true ∧
    next? (.patrolScrubPass 95 3 3 (BitVec.allOnes 27) 1) fresh (fun t => t.flt.colCe == 1 && t.badUnits == []) = true := by decide +kernel
theorem test_row_repaired :
    let s := after (.patrolScrubPass 95 3 3 (BitVec.allOnes 27) 2) fresh
    65535 ∈ (s.colm (s.colOf (isleKey 95 3 3) 15)).copying ∧
    next? (.rowRepairDone 95 3 3 15 65535) s (fun t => t.flt.rowRepairs == 1 && (t.isle (isleKey 95 3 3)).repaired == 1) = true := by decide +kernel
theorem test_processor_stall : next? (.commandProcessorStall 95 3) fresh (fun t => (t.mod 95).cause == 6 && (t.pwrMod 95).obj.st != .on) = true := by
  decide +kernel
/-- Module 95 out of service by a stall. -/
def stalled : State := after (.commandProcessorStall 95 3) fresh
theorem test_retest : Fld (0x15F : Word) 0 7 = 95 ∧ bit (0x15F : Word) 8 = true ∧ (stalled.mod 95).state = 2 ∧ stalled.modInPart 95 = false ∧
    (stalled.mod 95).notByRetest = false ∧ (stalled.mod 95).retest = false ∧ (stalled.pwrMod 95).obj.st ≠ .off ∧
    next? (.moduleRetest 0 0x15F) stalled (fun t => (t.mod 95).retest && (t.pwrMod 95).obj == { st := .winding, pending := true }) = true := by decide +kernel
theorem test_retest_refused : next? (.moduleRetest 0 0x15F) fresh (fun t => t.win.ignLast == 0x1005) = true ∧
    next? (.moduleRetest 0 0x160) fresh (fun t => t.win.ignLast == 0x1003) = true := by decide +kernel
/-- Its rails up again, the tests running. -/
def retesting : State := after (.railSequenceUpDone 95) (after (.railSequenceDownDone 95) (after (.moduleRetest 0 0x15F) stalled))
theorem test_retest_passes : (retesting.pwrMod 95).testing = true ∧ (testModule 95 [] retesting).1 = none ∧ retesting.ordersOn 95 = true ∧
    next? (.retestComplete 95 []) retesting (fun t => (t.mod 95).state == 1 && !(t.mod 95).retest) = true := by decide +kernel
def calItem : BootItem := { stage := 4, tray := 11, slot := 7, die := 0, isle := 0, pos := 0, cause := 1 }
theorem test_retest_fails : (testModule 95 [calItem] retesting).1 = some (4, 1) ∧
    next? (.retestComplete 95 [calItem]) retesting (fun t => (t.mod 95).state == 2 && (t.mod 95).stage == 4 && (t.mod 95).cause == 1) = true := by
  decide +kernel

theorem test_prepare_refused : next? (.trayPrepare 0 16) fresh (fun t => t.win.ignLast == 0x1003) = true ∧ fresh.prepareBad 12 = true ∧
    next? (.trayPrepare 0 12) fresh (fun t => t.win.ignLast == 0x1005) = true := by decide +kernel
theorem test_prepare : fresh.prepareBad 11 = false ∧ next? (.trayPrepare 0 11) fresh (fun t => (t.tray 11).svc == .preparing &&
    (t.mod 95).cause == 8 && (t.link (linkKey .s446 767)).fenced) = true := by decide +kernel
/-- The last compute tray prepared: its modules down, its links fenced and in the map. -/
def prepared : State := { fresh with
  trays := [(11, { svc := .preparing })]
  pwr := { fresh.pwr with mods := (trayMods 11).map (fun w => (w, { obj := {} })) }
  fab := { fresh.fab with links := (trayPorts 11).map (fun l => (linkKey .s446 l, { fenced := true, inMap := true })) } }
theorem test_cancel : next? (.trayCancel 0 11) prepared (fun t => (t.tray 11).svc == .joining) = true ∧ (fresh.tray 17).svc = .inService := by decide +kernel
theorem test_ready : prepared.trayReloads 11 = false ∧
    (∀ w ∈ trayMods 11, (prepared.pwrMod w).obj.st = .off ∧ (prepared.pwrMod w).rising = false) ∧
    (∀ l ∈ trayPorts 11, (prepared.link (linkKey prepared.sh.shape l)).inMap = true) ∧
    next? (.trayReady 11) prepared (fun t => (t.tray 11).svc == .ready && !(t.tray 11).contactor) = true := by decide +kernel
theorem test_removal : (fresh.tray 16).svc ≠ .absent ∧ next? (.trayRemoval 11) fresh (fun t => (t.tray 11).svc == .absent && (t.mod 95).state == 0) = true := by
  decide +kernel
/-- Tray 11 absent. -/
def removed : State := after (.trayRemoval 11) fresh
theorem test_insertion :
    let f : ModFuse := { fuse := 0x039804B0, serial := 7, record := [] }
    (removed.tray 11).svc = .absent ∧ Fld (0 : Word) 5 3 = trayType 11 ∧ Fld (0x20 : Word) 5 3 ≠ trayType 11 ∧
    next? (.trayInsertion 11 0 ([some f] ++ List.replicate 7 none)) removed (fun t => (t.tray 11).svc == .joining && (t.mod 88).state == 2 &&
      (t.mod 95).state == 0 && t.modFuse 88 == 0x039804B0) = true ∧
    next? (.trayInsertion 11 0x20 (List.replicate 8 none)) removed (fun t => (t.tray 11).mismatch) = true := by decide +kernel
theorem test_join :
    let s := { fresh with trays := [(16, { svc := .joining })] }
    s.boot.st ≠ 0 ∧ (∀ w ∈ trayMods 16, (s.pwrMod w).rising = false) ∧
    next? (.trayJoinComplete 16 []) s (fun t => (t.tray 16).svc == .inService && t.wardenRuns 16) = true ∧
    next? (.trayJoinComplete 16 []) { fresh with trays := [(16, { svc := .joining, badType := some 1 })] } (fun t => (t.tray 16).svc == .failed) = true := by
  decide +kernel

/-! ### Keys and attestation (R722–R732) -/

/-- The key service busy with a load for tenant 3. -/
def keyBusy : State := after (.keyLoad 0 3) bound
theorem test_key_load : linked.keys.busy = false ∧ linked.keys.white = false ∧ linked.keys.ready = true ∧
    (linked.partsOf 3).any (fun p => (linked.part p).obj.st == .on) = false ∧ keyBusy.keys.busy = true ∧ keyBusy.out = [.hostRead 0 0 0 256] := by
  decide +kernel
theorem test_key_busy : next? (.keyLoad 0 3) keyBusy (fun t => t.win.ignLast == 0x1004) = true ∧
    next? (.keyForget 0 3) keyBusy (fun t => t.win.ignLast == 0x1004) = true ∧
    next? (.rotateWk 0) keyBusy (fun t => t.win.ignLast == 0x1005) = true := by decide +kernel
theorem test_key_refused : ((live [0] ⟨0, 0, 0, 1, 1, 1⟩).partsOf 0).any (fun p => ((live [0] ⟨0, 0, 0, 1, 1, 1⟩).part p).obj.st == .on) = true ∧
    next? (.keyLoad 0 0) (live [0] ⟨0, 0, 0, 1, 1, 1⟩) (fun t => t.win.ignLast == 0x1005) = true ∧
    next? (.keyForget 0 0) white (fun t => t.win.ignLast == 0x1005) = true := by decide +kernel
theorem test_key_forget : next? (.keyForget 0 1) { linked with tens := [(1, { keyLoaded := true, keyGen := 255 })] }
    (fun t => !(t.ten 1).keyLoaded && (t.ten 1).keyGen == 0) = true := by decide +kernel
theorem test_blob_hyp : (match keyBusy.readFor (fun u => u == .blob) with | some g => g.2.sent | none => false) = true ∧
    keyBusy.blobResult 3 (List.replicate 256 0) = 1 ∧
    next? (.keyBlobJudged [] true) keyBusy (fun t => t.keys.result == 6 && !t.keys.busy) = true ∧
    next? (.keyBlobJudged (List.replicate 256 0) false) keyBusy (fun t => t.keys.result == 1) = true := by decide +kernel
theorem test_rotation :
    next? .wrappingKeyRotated (after (.rotateWk 0) fresh) (fun t => t.keys.wkgen == 2 && !t.keys.rotating) = true := by decide +kernel
/-- A slot write to module 95 not acknowledged. -/
def slotting : State := after (.keySlotWriteTimeout 95) (after (.mvDiagEnable 0 95) fresh)
theorem test_slot_timeout : (after (.mvDiagEnable 0 95) fresh).slotWrites 95 = true ∧ (slotting.mod 95).keyRetry = some 0 ∧
    next? (.keySlotWriteRetry 95 true) (at_ 100000 slotting) (fun t => (t.mod 95).keyRetry == none) = true ∧
    next? (.keySlotWriteRetry 95 true) (at_ 99999 slotting) (fun t => (t.mod 95).keyRetry == some 0) = true := by decide +kernel
theorem test_slot_exhausted : slotting.modServing 95 = true ∧
    next? (.keySlotRetryExhausted 95) (at_ 2000000 slotting) (fun t => (t.mod 95).cause == 11) = true ∧
    next? (.keySlotRetryExhausted 95) (at_ 1999999 slotting) (fun t => (t.mod 95).state == 1) = true := by decide +kernel

theorem test_mailbox : fresh.mailbox 15 = true ∧ (stage 10).mailbox 15 = false ∧
    next? (.doeDiscovery 15) fresh (fun t => t.out == [.answer (2 ^ 33 + 15) 0 [1, 0, 1, 1]]) = true ∧
    next? (.getCertificate 15 1 0 0) fresh (fun t => t.out == [.answer (2 ^ 33 + 15) 0x7F [7]]) = true ∧
    next? (.challenge 15 15 0 0) fresh (fun t => t.out == [.answer (2 ^ 33 + 15) 0x7F [7]]) = true := by decide +kernel
theorem test_measurements : (fresh.measured 10).isSome = true ∧ (fresh.measured 255).isSome = true ∧ fresh.measured 11 = none ∧ fresh.measured 0 = none ∧
    next? (.getMeasurements 0 11 true 5) fresh (fun t => t.out == [.answer (2 ^ 33) 0x7F [7]]) = true := by decide +kernel

/-! ### Whiteout, the tilt latch, the owner's lock (R734–R740, R753, R767, R768) -/

theorem test_lid : fresh.lidSensed 17 = true ∧ fresh.keys.white = false ∧
    next? (.lidSwitchClose 17 true) { bare with tens := [(15, { keyLoaded := true })] }
      (fun t => t.keys.white && !t.keys.ready && t.keys.wkgen == 0 && t.keys.lids == 0x20000 && t.keys.count == 1 && !(t.ten 15).keyLoaded) = true := by
  decide +kernel
theorem test_lid_again : white.keys.white = true ∧ next? (.lidSwitchClose 0 true) white (fun t => t.keys.lids == 1 && t.keys.openTick == 0) = true ∧
    next? (.lidSwitchClose 0 false) (after (.lidSwitchClose 0 true) white) (fun t => t.keys.closed == 0 && t.keys.white) = true := by decide +kernel
theorem test_rearmed :
    let s := after .reArm white
    s.keys.rearming = true ∧ s.railsUp 95 = true ∧
    next? .whiteoutRearmComplete s (fun t => !t.keys.white && t.keys.ready && t.keys.wkgen == 2 && (t.mod 95).keyTransport) = true := by decide +kernel
theorem test_tilt : next? .tiltTrip fresh (fun t => t.upd.tilt && t.upd.still == 1) = true := by decide +kernel
def tilted : State := after .tiltTrip fresh
theorem test_moving_clear : (at_ 6000000000 tilted).sensorStill = true ∧ (at_ 5999999999 tilted).sensorStill = false ∧ tilted.upd.tilt = true ∧
    next? (.movingClear (.window 0) false) (at_ 6000000000 tilted) (fun t => !t.upd.tilt) = true ∧
    next? (.movingClear (.window 0) false) (at_ 5999999999 tilted) (fun t => t.win.ignLast == 0x1005) = true ∧
    next? (.movingClear (.mgmt (.console 0)) true) (at_ 6000000000 tilted) (fun t => !t.upd.tilt && t.upd.attitude == 1) = true ∧
    next? (.movingClear (.mgmt (.console 0)) true) (at_ 5999999999 tilted) (fun t => t.upd.tilt) = true := by decide +kernel
theorem test_lock : fresh.mgmtRole (.console 0) = some 2 ∧ fresh.mgmtRole (.console 1) ≠ some 2 ∧
    next? (.ownerLockSet (.console 0) true) fresh (fun t => t.upd.lock) = true ∧
    next? (.ownerLockSet (.console 1) true) fresh (fun t => !t.upd.lock) = true := by decide +kernel

/-! ### Field update (R750–R777) -/

theorem test_start : bound.upd.phase = 0 ∧ bound.updRefused = none ∧
    next? (.updateStart 0) bound (fun t => t.upd.phase == 1 && t.out == [.hostRead 0 0 0 256]) = true := by decide +kernel
def headering : State := after (.updateStart 0) bound
theorem test_start_busy : headering.upd.phase ≠ 0 ∧ next? (.updateStart 0) headering (fun t => t.win.ignLast == 0x1004) = true := by decide +kernel
theorem test_start_refused : lonely.updRefused = some 7 ∧ next? (.updateStart 0) lonely (fun t => t.upd.cause == 7 && t.upd.phase == 0) = true ∧
    next? (.redfishUpdatePush 1) lonely (fun t => t.out == [.answer 1 503 [7]]) = true ∧
    next? (.simpleUpdate 1) lonely (fun t => t.upd.cause == 7) = true := by decide +kernel
theorem test_push : fresh.updRefused = none ∧ next? (.redfishUpdatePush 1) fresh (fun t => t.upd.phase == 1 && t.upd.path == 1 && t.out == []) = true ∧
    next? (.simpleUpdate 1) fresh (fun t => t.upd.path == 2 && t.out == [.answer 1 202 []]) = true := by decide +kernel

/-- A header of the stewards' firmware, VERSION 2.0, a body of 1,024 bytes, that works with every running version. -/
def parcel1 : List Byte :=
  [(0, 4, 0x4C435250), (4, 1, 1), (5, 1, 1), (6, 2, 0xA9), (8, 4, 0x02000000), (12, 2, 1), (14, 2, 1), (20, 4, 1024), (36, 4, 0xFFFFFFFF),
   (44, 4, 0xFFFFFFFF), (52, 4, 0xFFFFFFFF), (60, 4, 0xFFFFFFFF), (68, 4, 0xFFFFFFFF), (76, 4, 0xFFFFFFFF), (84, 4, 0xFFFFFFFF)].foldl
    (fun b f => put f.1 f.2.1 f.2.2 b) (List.replicate 256 0)
/-- A push in phase 1. -/
def pushed : State := after (.redfishUpdatePush 1) fresh
theorem test_header_fails : pushed.upd.phase = 1 ∧ pushed.upd.path ≠ 0 ∧ hdrComp (List.replicate 256 0) ≠ 1 ∧
    pushed.hdrCause (List.replicate 256 0) = some 8 ∧
    next? (.parcelHeaderJudged (List.replicate 256 0) false) pushed (fun t => t.upd.phase == 0 && t.upd.cause == 8) = true := by decide +kernel
-- whether a signature verifies is not fixed by the model: where it does, the header passes every check
theorem test_header_passes (h : Config.parcelSigned parcel1 0 = true) : pushed.hdrCause parcel1 = none := by
  have e : pushed.hdrCause parcel1 = if !(Config.parcelSigned parcel1 0) then some 11 else none := by
    unfold State.hdrCause
    have h1 : hdrForm parcel1 = true := by decide +kernel
    have h2 : (fieldAt parcel1 6 2 != 0xA9 || hdrComp parcel1 == 0) = false := by decide +kernel
    have h3 : pushed.upd.fuses.getLsbD (hdrKey parcel1) = false := by decide +kernel
    have h4 : hdrKey parcel1 = 0 := by decide +kernel
    have h5 : pushed.compatible parcel1 = true := by decide +kernel
    have h6 : ¬(hdrLength parcel1 < 1024 || 134217728 < hdrLength parcel1) = true := by decide +kernel
    rw [h1, h2, h3, h4, h5, if_neg h6]
    simp
  rw [e, h]
  rfl
theorem test_header_hyp : parcel1.length = 256 ∧ hdrComp parcel1 = 1 ∧ (∀ c, c < 3 → (pushed.stew c).st = 1) := by decide +kernel

/-- An update of the stewards in phase n with that header, delivered by a push. -/
def updating (n : Nat) : State := { fresh with upd := { fresh.upd with phase := n, comp := 1, header := parcel1, path := 1 } }
theorem test_body : (updating 2).updPaused = false ∧ ([0, 1, 2].filter (fun c => (3 : BitVec 3).getLsbD c && (updating 2).chanUp c)).length = 2 ∧
    next? (.bodyStaged 3 false) (updating 2) (fun t => t.upd.phase == 3) = true ∧
    next? (.bodyStaged 1 false) (updating 2) (fun t => t.upd.phase == 0 && t.upd.cause == 15) = true ∧
    next? (.bodyStaged 3 true) (updating 2) (fun t => t.upd.phase == 0 && t.upd.cause == 19) = true := by decide +kernel
theorem test_update_cancel : next? (.updateCancel (.window 0)) (updating 1) (fun t => t.upd.phase == 0 && t.upd.cause == 18) = true ∧
    next? (.updateCancel (.window 0)) (updating 3) (fun t => t.upd.phase == 0 && t.upd.cause == 18) = true ∧
    next? (.updateCancel (.window 0)) (updating 4) (fun t => t.win.ignLast == 0x1005) = true := by decide +kernel
theorem test_install : (updating 3).updPaused = false ∧ (updating 3).instHere 1 2 = true ∧
    next? (.installComplete []) (updating 3) (fun t => t.upd.phase == 4 && (t.inst 130).written &&
      (t.inst 130).other == some (0x02000000, 1, 1, 0)) = true := by decide +kernel
/-- Installed; the first instance switched. -/
def installed : State := after (.installComplete []) (updating 3)
def switched : State := after .instanceSwitch installed
theorem test_switch : installed.upd.inst = none ∧ installed.updPaused = false ∧ installed.upd.failDue = none ∧
    (installed.nextSwitch installed.toSwitch).isSome = true ∧
    (match installed.nextSwitch installed.toSwitch, switched.upd.inst with
     | some i, some x => x.1 == instKey 1 i && (switched.inst x.1).trial && (switched.inst x.1).run == 0x02000000
     | _, _ => false) = true := by decide +kernel
/-- The same with the channel healthy again. -/
def back1 : State := (switched.setStew 0 { switched.stew 0 with st := 1 }).setStew 1 { switched.stew 1 with st := 1 } |>.setStew 2
  { switched.stew 2 with st := 1 }
theorem test_healthy : (match back1.upd.inst with | some x => back1.healthReady (x.1 / 128) (x.1 % 128) | none => false) = true ∧
    next? .instanceHealthy back1 (fun t => t.upd.inst == none) = true := by decide +kernel
theorem test_trial_expiry :
    switched.upd.phase = 4 ∧ (match switched.upd.inst with | some x => (switched.inst x.1).trial && x.2 == 0 && x.1 / 128 == 1 | none => false) = true ∧
    switched.updPaused = false ∧
    next? .trialBoundExpiry (at_ 12000000000 switched) (fun t => t.upd.phase == 6 && t.upd.inst == none) = true ∧
    next? .trialBoundExpiry (at_ 11999999999 switched) (fun t => t.upd.phase == 4) = true ∧
    next? .trialRestart switched (fun t => t.upd.phase == 6) = true := by decide +kernel
theorem test_trial_in_pause :
    let s := { switched with pwr := { switched.pwr with image := 1 } }
    s.updPaused = true ∧ s.boot.stage = 11 ∧ next? .trialRestart s (fun t => t.upd.phase == 4 && t.upd.failDue.isSome) = true := by decide +kernel
theorem test_resume :
    let s := { updating 4 with upd := { (updating 4).upd with failDue := some 128 } }
    s.updPaused = false ∧ next? .updateResume s (fun t => t.upd.phase == 6 && t.upd.failed == some 128) = true := by decide +kernel
theorem test_fallback_switch :
    let s := { updating 6 with upd := { (updating 6).upd with insts := [(130, { switched := true, trial := true, run := 2, other := some (1, 1, 1, 0) })] } }
    s.upd.inst = none ∧ s.keys.white = false ∧ s.nextSwitch s.toReturn = some 2 ∧
    next? .instanceSwitch s (fun t => (t.inst 130).run == 1 && !(t.inst 130).trial && t.upd.returned == 1) = true := by decide +kernel
theorem test_fallback_ends : (updating 6).toReturn = [] ∧ next? .fallbackComplete (updating 6) (fun t => t.upd.phase == 0) = true := by decide +kernel
theorem test_confirm : next? (.updateConfirm (.console 0)) (updating 5) (fun t => t.upd.phase == 0 && tget 0 1 t.upd.conf == 0x02000000) = true ∧
    next? (.updateConfirm (.console 0)) (updating 4) (fun t => t.upd.phase == 4) = true := by decide +kernel
theorem test_fallback : next? (.updateFallback (.console 0)) (updating 4) (fun t => t.upd.phase == 6) = true ∧
    next? (.updateFallback (.console 0)) (updating 5) (fun t => t.upd.phase == 6) = true ∧
    next? (.updateFallback (.redfish 1)) (updating 3) (fun t => t.upd.phase == 3 && t.out == [.answer 1 409 []]) = true ∧
    next? (.updateFallback (.redfish 1)) (updating 6) (fun t => t.upd.phase == 6) = true := by decide +kernel


/-- The record of a cap carries the effective cap (R585, Table 18-3): a cap of 1,300 W leaves 1,200 W. -/
theorem test_cap_record : next? (.moduleCapHostWrite 3 95 1300) fresh
    (fun t => (t.stew 0).copy.map LogRec.data == [[3, pwrModOff 95 + 8, 1300, 1200]]) = true := by decide +kernel

/-- A late-fault record held for tenant 2 goes with its module and is counted (R348, R699). -/
theorem test_late_dropped :
    let e : Event := { code := 0x0201, tenant := 2, machine := false, part := none, ring := none, detail := 0, tb := 0,
                       arg0 := 0, arg1 := 0, home := some 40 }
    next? (.commandProcessorStall 40 1) (fresh.setTen 2 { fresh.ten 2 with held := [e, { e with home := some 41 }] })
      (fun t => (t.ten 2).held.length == 1 && t.flt.lateDropped == 1) = true := by decide +kernel

/-- Answers the same state. -/
def stays (c : Instr) (s : State) : Bool := next? c s (fun t => t == s)

/-! ### Clauses beside the common case: host functions and tenants (R204–R208, R219, R227, R228, R788, R789) -/

theorem test_link_up_bridge_down :
    let s := { fresh with trays := [(portTray 0, { svc := .absent })] }
    s.bridgeReady 0 = false ∧ stays (.hostLinkUp 0 5 16 false) s = true := by decide +kernel
theorem test_config_beyond : stays (.pcieConfigWrite 0 0 (.mps 3)) linked = true ∧
    stays (.pcieConfigWrite 0 0 (.mrrs 6)) linked = true := by decide +kernel
theorem test_config_absent : linked.fnExists 0 1 = false ∧ (fresh.port 0).up = false ∧
    stays (.pcieConfigWrite 0 1 (.mps 0)) linked = true ∧ stays (.busMasterEnableChange 0 0 true) fresh = true := by
  decide +kernel
theorem test_sriov_pf_only :
    let s := after (.vfDisable 0 15 true) linked
    next? (.pcieConfigWrite 0 0 (.sriov 3 true)) linked (fun t => t.fnExists 0 3 && !t.fnExists 0 4) = true ∧
    s.fnExists 0 15 = true ∧ stays (.pcieConfigWrite 0 15 (.sriov 0 false)) s = true := by decide +kernel

/-- Tenant 0 ON through VF 15 of port 0, with partition 0 ON on module 7. -/
def vfBound : State := { live [7] ⟨0, 0, 0, 1, 1, 1⟩ with
  ports := [(0, { up := true, speed := 5, width := 16, numVfs := 15, vfEn := true })]
  fns := [(15, { bme := true, mrrs := 5 })]
  tens := [(0, { obj := { st := .on }, bound := 0xF0 })] }

theorem test_vf_stops : vfBound.fnExists 0 15 = true ∧ vfBound.resetTen 0 15 = some 0 ∧ 0 ∈ vfBound.partsOf 0 ∧
    next? (.vfDisable 0 14 true) vfBound (fun t => !t.fnExists 0 15 && t.fnc 0 15 == {} && (t.ten 0).flr == .drain) = true := by
  decide +kernel
theorem test_link_down_bound : (vfBound.port 0).up = true ∧ next? (.linkDown 0) vfBound (fun t =>
    (t.ten 0).flr == .drain && !(t.ten 0).flrCfg && (t.ten 0).obj == { st := .on } && (t.part 0).obj.st == .winding &&
    (t.part 0).wind == .reset && t.fnc 0 15 == {}) = true := by decide +kernel
theorem test_hot_reset_bound : next? (.hotReset 0) vfBound (fun t => (t.ten 0).flr == .drain && !(t.port 0).vfEn) = true := by
  decide +kernel
theorem test_flr_bound : vfBound.flrRunning 0 15 = false ∧ next? (.functionLevelReset 0 15) vfBound (fun t =>
    (t.ten 0).flr == .drain && (t.ten 0).flrCfg && t.fnc 0 15 == vfBound.fnc 0 15 && t.ports == vfBound.ports) = true := by
  decide +kernel
theorem test_flr_pf0 : vfBound.flrRunning 0 0 = false ∧ vfBound.resetTen 0 0 = none ∧ next? (.functionLevelReset 0 0) vfBound (fun t =>
    !(t.port 0).vfEn && t.fnc 0 15 == {} && (t.ten 0).flr == .drain && !(t.ten 0).flrCfg) = true := by decide +kernel
theorem test_flr_running :
    let s := after (.functionLevelReset 0 15) vfBound
    s.flrRunning 0 15 = true ∧ stays (.functionLevelReset 0 15) s = true := by decide +kernel
theorem test_flr_unbound_vf : (after (.vfDisable 0 15 true) linked).resetTen 0 15 = none ∧
    (after (.vfDisable 0 15 true) linked).flrRunning 0 15 = false := by decide +kernel
theorem test_resets_down : stays (.linkDown 1) linked = true ∧ stays (.hotReset 1) linked = true := by decide +kernel

/-- Tenant 0 WINDING, with PENDING or not. -/
def winds (p : Bool) : State := { linked with tens := [(0, { obj := { st := .winding, pending := p } })] }

theorem test_tenant_pending : next? (.tenantEnable 0 0) (winds false) (fun t => (t.ten 0).obj.pending && (t.ten 0).obj.st == .winding) = true ∧
    next? (.tenantDisable 0 0) (winds true) (fun t => (t.ten 0).obj == { st := .winding }) = true := by decide +kernel
theorem test_tenant_down_pending : (winds true).tenReady 0 = true ∧ (winds true).partsOf 0 = [] ∧ (winds true).ringsOfTen 0 = [] ∧
    next? (.tenantWindDownDone 0) (winds true) (fun t => (t.ten 0).obj == { st := .on }) = true := by decide +kernel
theorem test_part_enable_waits :
    let s := { boxed with tens := [(0, { obj := { st := .on }, flr := .drain, keyLoaded := true })] }
    (s.ten 0).obj.parentOk = true ∧ s.partReady 0 = true ∧
    next? (.partitionEnable 0 0) s (fun t => (t.part 0).obj == { st := .off, pending := true }) = true := by decide +kernel
theorem test_part_enable_waits_winding :
    let s := { boxed with tens := [(0, { obj := { st := .winding, pending := true }, keyLoaded := true })] }
    (s.ten 0).obj.parentOk = true ∧ s.partReady 0 = true ∧
    next? (.partitionEnable 0 0) s (fun t => (t.part 0).obj == { st := .off, pending := true }) = true := by decide +kernel
theorem test_part_enable_stored :
    let s := after (.partitionEnable 0 0) boxed
    s.pwr.sag = 0 ∧ (∀ w ∈ (s.part 0).mods, (s.mod w).keyRetry = none ∧ s.reloading 3 w = false ∧ s.paused w = false) ∧
    next? (.partitionEnableDone 0) s (fun t => tget none (partItem 0) t.store == some (boxed.part 0).boxReg) = true := by decide +kernel
theorem test_part_down_awake :
    (after (.partitionDisable 0 0) (live [7] ⟨0, 0, 0, 1, 1, 1⟩)).partAwake 0 = true ∧
    (after (.partitionCut 0 0) (live [7] ⟨0, 0, 0, 1, 1, 1⟩)).partAwake 0 = true := by decide +kernel
theorem test_drain_up_time : (draining.ten 1).flrTick.toNat + 200000 ≤ draining.upTimeAll := by decide +kernel
theorem test_reset_scrubbed_part :
    let s := after (.flrResetDone 0) (after (.functionLevelReset 0 15) vfBound)
    (s.ten 0).flr = .scrub ∧ 0 ∈ s.partsOf 0 ∧ (s.part 0).wind = .reset ∧ (s.part 0).obj.pending = false ∧
    (∀ p ∈ s.partsOf 0, (s.part p).wind = .reset → s.partAwake p = true) ∧
    next? (.flrScrubDone 0) s (fun t => (t.part 0).obj == {} && (t.ten 0).flr == .idle) = true := by decide +kernel
theorem test_ring_enable_waits :
    let s := after (.partitionEnable 0 0) boxed
    (s.ring 4095).obj = {} ∧ (s.part (s.ring 4095).bPart).obj.st ≠ .on ∧ s.ringReady 4095 = true ∧
    next? (.ringEnable 0 4095) s (fun t => (t.ring 4095).obj == { st := .off, pending := true }) = true := by decide +kernel

/-! ### Scans and fetches below 0.70 V and after a timeout (R246, R265, R272, R238) -/

theorem test_scan_hyp : scanReady.leadPaused 0 = false ∧ scanReady.win.tb.toNat % scanReady.scanNow 0 = 0 ∧
    scanSent.leadPaused 0 = false ∧ toFetch.leadPaused 0 = false ∧ fetching.leadPaused 0 = false ∧
    (toFetch.ring 5).tallyDue = false := by decide +kernel
theorem test_scan_failed_timeout :
    let s := at_ 1005000 scanSent
    (∃ h, s.readFor (fun u => u == .scan 0) = some (0, h) ∧ tget none 0 s.reads = some h ∧ h.sent = true ∧
      h.tick.toNat + 1000000 ≤ s.win.tb.toNat) ∧
    next? (.scanFailed 0 .timeout) s (fun t => (t.ten 0).dbFault) = true ∧
    next? (.hostReadTimeout 0) s (fun t => (t.ten 0).dbFault && (t.ten 0).scans == 1) = true :=
  ⟨⟨_, rfl, by decide +kernel⟩, by decide +kernel⟩
theorem test_fetch_failed_timeout :
    let s := at_ 1000000 fetching
    (∃ h, s.fetchOf 5 = some (0, h, 1) ∧ h.sent = true ∧ h.tick.toNat + 1000000 ≤ s.win.tb.toNat) ∧
    next? (.ringFetchFailed 5 .timeout) s (fun t => (t.ring 5).fetchFault) = true := ⟨⟨_, rfl, by decide +kernel⟩, by decide +kernel⟩

/-! ### Clauses beside the common case: heads, tiles, fences, channels (R280, R697, R302, R690, R713, R818) -/

/-- An illegal head of an engine class: a WAIT_TALLY names a ring of another tenant, a VX_ELT has no row, and so on. -/
def illegalHead (eng : Nat) (b : List Byte) : State := { ringOn eng [b] with
  rings := [(5, { obj := { st := .on }, ctx := { engine := eng, base := 0x100000, taddr := 0x2000 },
                  fetched := [{ idx := 3, bytes := b }] }), (9, { bind := 1 })] }
def badWait := cmd64 0x01 0 [(8, 2, 9)]
theorem test_illegal_wait : HeadServed (illegalHead 4 badWait) 5 .waitTally (entry badWait) [] ∧
    JudgedLegal (illegalHead 4 badWait) 5 (entry badWait) = false ∧ ((illegalHead 4 badWait).ring 5).cmds = [] := by
  unfold HeadServed JudgedLegal; decide +kernel
/-- Every opcode of an engine class with a body of zeros, and IX_FRAME on a ring of another class, is illegal. -/
def badHeads : List (Op × Nat × Nat) := [(.mxGemm, 0, 0x10), (.mxAttn, 0, 0x11), (.vxElt, 1, 0x20), (.vxReduce, 1, 0x21),
  (.vxCombine, 1, 0x22), (.mvCopy, 2, 0x30), (.fxSend, 3, 0x40), (.fxReduce, 3, 0x41), (.fxAwait, 3, 0x42), (.ixFrame, 0, 0x50)]
theorem test_illegal_heads : ∀ x ∈ badHeads,
    HeadServed (illegalHead x.2.1 (cmd64 x.2.2 0 [])) 5 x.1 (entry (cmd64 x.2.2 0 [])) [] ∧
    JudgedLegal (illegalHead x.2.1 (cmd64 x.2.2 0 [])) 5 (entry (cmd64 x.2.2 0 [])) = false := by
  unfold HeadServed JudgedLegal; decide +kernel
theorem test_illegal_ends : next? (.ixFrame 5) (illegalHead 0 (cmd64 0x50 0 [])) (fun t => (t.ring 5).lastCause == 1) = true ∧
    next? (.waitTally 5) (illegalHead 4 badWait) (fun t => (t.ring 5).ignored == 1 && (t.ring 5).tally == 1) = true := by decide +kernel
theorem test_next_unpoisoned : NextUnpoisoned (ringOn 4 [waitCmd, nopCmd]) 5 [entry nopCmd] := by
  unfold NextUnpoisoned; decide +kernel
theorem test_fx_hyp : ∀ c ∈ ((ringOn 3 [sendCmd]).ring 5).cmds, c.seq ≠ ((ringOn 3 [sendCmd]).ring 5).disp + 1 := by decide +kernel
theorem test_complete_heads : ((inProg 1 elt1).ten 0).heldW = [] ∧ ((inProg 1 elt1).ring 5).fetched = [] := by decide +kernel

theorem test_tally_hyp :
    let s := { ringOn 0 [] with rings := [(5, { obj := { st := .on }, ctx := { taddr := 0x2000 }, tally := 0x102, tallyDue := true })] }
    s.leadPaused 0 = false ∧ (s.ten 0).held = [] ∧ (s.ten 0).heldLost = 0 := by decide +kernel
theorem test_tile_hyps :
    (inProg 0 (gemm1 true)).paused (placeOf (gemm1 true).mods 0).w = false ∧
    (recipeOf (gemm1 false).recipe).heldIn = false ∧
    (inProg 0 (gemm1 false)).paused (gemmTileAt (inProg 0 (gemm1 false)) (gemm1 false) 0).place.w = false ∧
    (let s := after (.mxTileHandover 5 1 0) (inProg 0 (gemm1 false))
     (s.ring 5).cmds.all (fun c => (c.handed.find? (fun x => (gemmTileAt s c x.1).key == (gemmTileAt s c 0).key)).map (·.1) == some 0)) ∧
    (let c : Cmd := { gemm1 false with waitSpill := true }
     (inProg 0 c).writesFly 5 (1 - 1) = false ∧ (∀ d ∈ ((inProg 0 c).ring 5).cmds, d.rerun = false ∨ d.done = true) ∧
     (inProg 0 c).leadPaused 0 = false) ∧
    vxEarlier { running (cmd64 0x20 0 [(8, 1, 0x12), (10, 1, 0x10), (12, 4, 1), (24, 8, 0), (40, 4, 65), (44, 2, 1), (56, 4, 4)]) with
      place := [(0, 0, List.range 16)] } 1 = false ∧
    (inProg 3 (running fxReduceCmd)).leadPaused 0 = false ∧ (inProg 3 (running fxReduceCmd)).paused 0 = false := by decide +kernel

/-- The machine with module `w`'s core supply at 620 mV. -/
def crawl (w : Nat) (s : State) : State := { s with pwr := { s.pwr with mods := [(w, { vset := 620 })] } }

theorem test_fence_awake : fresh.paused 95 = false := by decide +kernel
theorem test_fence_due : (crawl 95 fresh).paused 95 = true ∧ (crawl 95 fresh).modServing 95 = true ∧
    15 ∈ ((crawl 95 fresh).isle (isleKey 95 3 3)).cores ∧ next? (.coreFence 95 3 3 15 1) (crawl 95 fresh)
      (fun t => (t.mod 95).fenceDue.length == 1 && t.flt.fenced == 0) = true := by decide +kernel
theorem test_move_hyp : (moving.chan (moving.chanKey 0 0 0 0 0)).run.mv.sspace ≠ 2 ∧ (moving.core 0).badWords = [] ∧
    moving.paused (placeOfCore 0).w = false := by decide +kernel
theorem test_channel_down_hyp :
    let s := { diag with chans := [(0, { obj := { st := .winding } })] }
    s.paused (placeOfCore 0).w = false ∧ ∀ q, ∀ d ∈ (s.ring q).cmds, d.rechan = none :=
  ⟨by decide +kernel, fun _ _ h => absurd h (List.not_mem_nil)⟩

/-! ### Clauses beside the common case: packets (R392, R395, R402–R406, R384) -/

theorem test_forward_hyp : (carrying pkt0).pktWaits pkt0 = false ∧ pkt0.kind ≠ .reserved ∧ pkt0.len ≤ 2048 ∧ pkt0.calm = false ∧
    (match route (takePkt 0 (carrying pkt0)) ((takePkt 0 (carrying pkt0)).inShape pkt0) with | .send _ _ => true | _ => false) = true ∧
    (match route (takePkt 0 (carrying pkt0)) ((takePkt 0 (carrying pkt0)).inShape { pkt0 with poison := true }) with
      | .send _ _ => true | _ => false) = true ∧
    next? (.packetArrival 0 false) (carrying pkt0) (fun t => t.fab.pkts.map (·.poison) == [true]) = true := by decide +kernel
/-- The same packet as calm class, whole. -/
def calm0 : Packet := { { pkt0 with calm := true } with ecrc := ({ pkt0 with calm := true } : Packet).crc }
theorem test_forward_calm : calm0.calm = true ∧ calm0.whole = true ∧ (carrying calm0).pktWaits calm0 = false ∧
    (match route (takePkt 0 (carrying calm0)) ((takePkt 0 (carrying calm0)).inShape calm0) with | .send _ _ => true | _ => false) = true ∧
    next? (.packetArrival 0 true) (carrying calm0) (fun t => t.fab.pkts.map (·.loc) == [.mod ((winAt .s446 ⟨1, 0, 0⟩).getD 0)]) = true := by
  decide +kernel
theorem test_ecrc_retry :
    let p := { calm0 with ecrc := calm0.ecrc ^^^ 1 }
    p.whole = false ∧ p.tries < 7 ∧ p.via = none ∧
    next? (.packetArrival 0 true) (carrying p) (fun t => t.fab.retries == 1 && t.fab.pkts.map (·.tries) == [1]) = true := by
  decide +kernel
theorem test_packet_waits :
    (match pkt0.loc with | .mod w => (crawl w (carrying pkt0)).pktWaits pkt0 && stays (.packetArrival 0 true) (crawl w (carrying pkt0))
                         | .tray _ => false) = true := by decide +kernel
theorem test_give_up :
    let s := { ackOf .nack with fab := { (ackOf .nack).fab with kept := (ackOf .nack).fab.kept.map (fun k => { k with again := true }) } }
    (s.fab.kept.find? (fun x => x.pkt.tag == 9)).any (·.again) = true ∧ (s.ackAt 0 .nack).isSome = true ∧
    next? (.nackReceived 0) s (fun t => t.fab.giveups == 1) = true ∧
    next? (.ackTimeout 9) (at_ 100000 s) (fun t => t.fab.giveups == 1) = true ∧
    ((at_ 100000 s).originTime pkt0).toNat = 100000 := by decide +kernel

/-! ### Clauses beside the common case: shapes and the Sound (R373–R384) -/

/-- The machine with a hold on, and module 5 below 0.70 V. -/
def heldShape (d : Option Nat) : State := { fresh with sh := { fresh.sh with phase := .hold, target := .s483, divert := d } }
theorem test_shape_no_sound :
    let s := { flat with sh := { flat.sh with sound := 2 } }
    (shapeOf 0).is3D = true ∧ s.sh.phase = .idle ∧ next? (.fabShapeReq (.window 0) 0) s (fun t => t.win.ignLast == 0x1005) = true := by
  decide +kernel
theorem test_shape_same : shapeOf 0 = fresh.sh.shape ∧ next? (.fabShapeReq (.window 0) 0) fresh (fun t => t.sh == fresh.sh) = true := by
  decide +kernel
theorem test_release_diverted : (heldShape (some 3)).anyPaused = false ∧ (heldShape (some 3)).sh.divert ≠ none ∧
    next? (.shapeHoldRelease [] []) (heldShape (some 3)) (fun t => t.sh.shape == .s166 && t.sh.phase == .idle && t.sh.count == 1) = true := by
  decide +kernel
theorem test_release_too_many :
    let s := { heldShape none with sh := { (heldShape none).sh with ringsFailed := [0, 1, 2, 3, 31] } }
    s.sh.target.is3D = true ∧ tooManyRings ((s.sh.ringsFailed ++ ([] : List (BitVec 8)).map (fun c => s.ringOfPort s.circuitShape c.toNat)).dedup) = true ∧
    next? (.shapeHoldRelease [] []) s (fun t => t.sh.shape == .s166) = true := by decide +kernel
theorem test_release_waits :
    let s := { heldShape none with pwr := { fresh.pwr with mods := [(5, { obj := { st := .on }, vset := 690 })] } }
    s.anyPaused = true ∧ stays (.shapeHoldRelease [] []) s = true := by decide +kernel
theorem test_enter_in_prep :
    let s := after (.fabShapeReq (.window 0) 0) flat
    s.sh.phase = .prep ∧ next? (.soundServiceEnter (.window 0)) s (fun t => t.sh.phase == .idle && t.sh.sound == 2) = true := by decide +kernel
theorem test_enter_in_hold : (heldShape none).sh.target.is3D = true ∧
    next? (.soundServiceEnter (.window 0)) (heldShape none) (fun t => t.win.ignLast == 0x1004) = true ∧
    (let s := after (.fabShapeReq (.window 0) 3) fresh
     s.sh.phase = .hold ∧ s.sh.target.is3D = false ∧
     next? (.soundServiceEnter (.window 0)) s (fun t => t.sh.enterDue && t.sh.phase == .hold) = true) := by decide +kernel
theorem test_leave_hyp :
    let s := after (.soundServiceEnter (.window 0)) flat
    s.heldOff 16 = false ∧ (s.tray 16).svc ≠ .absent ∧ fresh.sh.sound = 1 ∧
    next? (.soundServiceLeave (.window 0)) fresh (fun t => t.sh == fresh.sh) = true := by decide +kernel
theorem test_circuits_hyp :
    let s := after (.fabShapeReq (.window 0) 2) fresh
    s.sh.setCols = [] ∧ s.sh.setting = true := by decide +kernel
theorem test_splice_hyp : trayAtCol (Fld (0x1E : Word) 0 2) (Fld (0x1E : Word) 2 2) = none ∧
    (∀ d ∈ fresh.extOn, ¬(d ≠ 23 ∧ (tget 0 d fresh.sh.ext).toNat % 16 = Fld (0x1E : Word) 0 4)) ∧
    (let s := after (.soundExtWrite 0 23 0x1E) fresh
     ∃ d ∈ s.extOn, d ≠ 22 ∧ (tget 0 d s.sh.ext).toNat % 16 = Fld (0x0E : Word) 0 4) := by decide +kernel

/-! ### Clauses beside the common case: attention below 0.70 V (R450) -/

theorem test_attn_hyp2 : (match (attn {}).attn? 5 1 with
    | some c => !((attn {}).slabPaused c 0) && (at_ 1000000 (attn {})).slabWait c 0 0 == 1000000 && c.attPresent 0 1 0 == false
    | none => false) = true := by decide +kernel
theorem test_attn_chunk : next? (.attnChunkForward 5 1 0 1 0) (attn { present := [attCode 1 0], sent := [attCode 0 0] })
    (fun t => (slab0 t).sent.contains (attCode 1 0)) = true := by decide +kernel
theorem test_attn_paused :
    let s := { attn {} with pwr := { fresh.pwr with mods := (Box.mods .s446 ⟨0, 0, 0, 4, 1, 1⟩).map (fun w => (w, { vset := 620 })) } }
    (match s.attn? 5 1 with | some c => s.slabPaused c 0 && s.slabPaused c 63 | none => false) = true ∧
    stays (.attnChunkForward 5 1 0 0 0) s = true ∧ stays (.attnTileStepDispatch 5 1 0 0) s = true := by decide +kernel

/-! ### Clauses beside the common case: scanner ports, the mailbox, pins (R461–R488) -/

theorem test_cxp_stop : Fld (0x60 : Word) 4 3 ≠ 7 ∧ bit (0x60 : Word) 0 = false ∧
    next? (.cxpCtlWrite 0 7 0x60) framing (fun t => (t.sport 7).cur.isNone && (t.sport 7).ctl == 0x60) = true := by decide +kernel
theorem test_discovery_refused : next? (.discoveryComplete 7 [0x41] 1 true) discovering (fun t => (t.sport 7).st == 3) = true := by
  decide +kernel
theorem test_packet_long : (framing.sport 7).cur.isSome = true ∧
    next? (.streamPacketArrival 7 5 true true [1]) framing (fun t => (t.sport 7).cur.isNone && (t.sport 7).abortCause == 4) = true := by
  decide +kernel
theorem test_packet_crc_other : (6 : BitVec 8) ≠ (framing.sport 7).stream ∧ next? (.streamPacketArrival 7 6 false false [1]) framing
    (fun t => (t.sport 7).cur.isSome && (t.sport 7).crcErr == 1) = true := by decide +kernel
theorem test_gc_no_device : (fresh.sport 7).st ≠ 2 ∧ next? (.gcRead 0 7) fresh (fun t => (t.sport 7).gcResult == 3) = true ∧
    next? (.gcWrite 0 7) fresh (fun t => (t.sport 7).gcResult == 3) = true := by decide +kernel
theorem test_gc_bad_crc : mailing.intakeOn 7 = true ∧ (mailing.sport 7).gcTries < 3 ∧
    next? (.controlAckArrival 7 .badCrc) mailing (fun t => (t.sport 7).gcTries == 2 && (t.sport 7).crcErr == 1 && (t.sport 7).gcBusy) = true ∧
    (let s := after (.controlAckArrival 7 .badCrc) (after (.controlAckArrival 7 .badCrc) mailing)
     (s.sport 7).gcTries = 3 ∧ next? (.controlAckArrival 7 .badCrc) s (fun t => (t.sport 7).gcResult == 4 && !(t.sport 7).gcBusy) = true) := by
  decide +kernel
theorem test_pin_in_hold :
    let s := after (.pinConfigWrite 0 7 15 4) fresh
    (s.pin 127).hold ≠ 0 ∧ next? (.pinConfigWrite 0 7 15 5) s (fun t => t.win.ignLast == 0x1004) = true ∧
    s.win.tb.toNat * 4 + 3 < (s.pin 127).hold - 1 + 1600 ∧
    next? (.pinInputEdge 7 15 true 3) s (fun t => (t.pin 127).ext && (t.pin 127).hold != 0) = true := by decide +kernel
theorem test_fault_again :
    let s := at_ 100000000 (after (.outputOverload 7 16) { fresh with pins := [(127, { func := 10, act := 10 })] })
    (s.sport 7).fault5v = true ∧ next? (.outputFaultRetry 7 16 false) s (fun t => (t.sport 7).fault5v && (t.sport 7).fault5Tick == 100000000) = true ∧
    (let u := at_ 1000000 (after (.outputOverload 7 15) { fresh with pins := [(127, { func := 10, act := 10 })] })
     (u.pin 127).fault = true ∧ next? (.outputFaultRetry 7 15 false) u (fun t => (t.pin 127).fault && (t.pin 127).faultTick == 1000000) = true) := by
  decide +kernel

/-! ### Clauses beside the common case: bring-up and the panel (R50, R51, R54, R545–R565) -/

theorem test_stage_gone :
    let s := { stage 1 with boot := { (stage 1).boot with gone := [11] } }
    s.stageRuns = true ∧ s.stageDone = true ∧
    next? (.stageEnd []) s (fun t => (tget {} 1 t.boot.reports).items == 1) = true := by decide +kernel
theorem test_bound_hyp : stageBound 0 ≤ (at_ 1000000000 (stage 0)).stageTicks ∧
    stageBound 3 ≤ (at_ 200000000 (stage 3)).stageTicks := by decide +kernel
theorem test_cold_running :
    let s := at_ 60000000000 { fresh with therm := { fresh.therm with dies := [(383, { cold := true })] }
                                          pwr := { fresh.pwr with mods := [(95, { testing := true, testFrom := 1 })] } }
    s.boot.st = 1 ∧ (s.pwrMod 95).testing = true ∧ s.paused 95 = false ∧ (s.die (95 * 4 + 3)).cold = true ∧
    (s.pwrMod 95).testFrom - 1 + 60000000000 ≤ s.win.tb.toNat ∧
    next? (.coldWaitTimeout 95 3) s (fun t => (t.mod 95).stage == 4 && (t.mod 95).cause == 3 && (t.mod 95).state == 2) = true := by
  decide +kernel
theorem test_display_dwell :
    let s := after .displayCycle fresh
    s.stw.shownTick = 1 ∧ stays .displayCycle (at_ 199999999 s) = true ∧
    next? .displayCycle (at_ 200000000 s) (fun t => t.stw.shownTick == 200000001) = true ∧ s.display ∈ s.topCodes := by decide +kernel
theorem test_both_pressed :
    let s := after .locateButton fresh
    s.stw.lamp = 0 ∧ s.stw.locTick = 1 ∧ s.stw.panelLocate = true ∧
    next? .lampTest s (fun t => !t.stw.panelLocate && t.stw.lampLocate && t.stw.lamp == 1) = true ∧
    stays .lampTest (after .lampTest fresh) = true := by decide +kernel

/-! ### Clauses beside the common case: rails, cooling, modules, trays (R571, R572, R598, R609, R615, R700, R704, R705) -/

theorem test_rails_up_low : next? (.railSequenceUpDone 95) (powerOf { obj := {}, rising := true, vset := 620 })
    (fun t => (t.pwrMod 95).lowFrom == 1) = true := by decide +kernel
theorem test_rails_down_off :
    let s := powerOf { obj := { st := .winding } }
    (s.pwrMod 95).rising = false ∧ next? (.railSequenceDownDone 95) s (fun t => (t.pwrMod 95).obj == {}) = true ∧
    next? (.railSequenceDownDone 95) (powerOf { obj := { st := .winding, pending := true } })
      (fun t => (t.pwrMod 95).obj == { st := .winding, pending := true } && (t.pwrMod 95).rising) = true := by decide +kernel
-- link I/O is 1,200 mV within 3 % (Table 16-1): 900 mV is outside, and a rail at its nominal is no fault
theorem test_rail_window : fresh.auxUp 95 = true ∧ fresh.railOut 95 4 900 = true ∧ fresh.railOut 95 0 (fresh.railNominal 95 0) = false ∧
    stays (.railFault 95 0 (BitVec.ofNat 16 (fresh.railNominal 95 0))) fresh = true := by decide +kernel
-- crossing 0.70 V upward with nothing due
theorem test_supply_crosses : (powerOf { vset := 695 }).vTarget 95 = 920 ∧ ((powerOf { vset := 695 }).mod 95).fenceDue = [] ∧
    next? (.coreSupplyStep 95) (powerOf { vset := 695 }) (fun t => (t.pwrMod 95).vset == 705) = true := by decide +kernel
theorem test_cooling_faulted :
    let s := after (.pumpStop 0) fresh
    next? (.coolingControlPeriod cdu1 [(40, 5), (40, 5), (40, 5)]) s (fun t => t.stw.coolOrder == (100, 5)) = true := by decide +kernel
theorem test_vote_stopped :
    let s := { ordered with therm := { fresh.therm with fault0 := true, spd0 := 0, spd1 := 100 } }
    next? (.actuatorOrderReceipt 0 7 0) s (fun t => t.therm.spd0 == 0 && t.therm.spd1 == 100) = true := by decide +kernel
theorem test_vote_closes :
    let s := { fresh with trays := [(0, { contactor := false })] }
    (∃ v, agreed (([0, 1, 2].filter (fun c => (7 : BitVec 3).toNat.testBit c && !(s.disq c))).map (fun c => s.orderOf 7 c 7)) = some v ∧ v ≠ 0) ∧
    s.heldOff 0 = false ∧ (s.tray 0).svc ≠ .absent ∧ (s.tray 0).svc ≠ .ready ∧
    next? (.actuatorOrderReceipt 7 7 7) s (fun t => t.applied 7 == 1) = true := ⟨⟨1, by decide +kernel⟩, by decide +kernel⟩
theorem test_vote_none_hyp : apart.therm.forced = false ∧ (∀ c, c < 3 → apart.disq c = false) ∧
    2 ≤ (([0, 1, 2].filter (fun c => (5 : BitVec 3).toNat.testBit c && !(apart.disq c))).map (fun c => apart.orderOf 0 c 0)).length := by
  refine ⟨by decide +kernel, fun c h => ?_, by decide +kernel⟩
  obtain rfl | rfl | rfl : c = 0 ∨ c = 1 ∨ c = 2 := by omega
  all_goals decide +kernel
theorem test_watchdog_idle : fresh.majority = true ∧ stays .cduVoterWatchdog fresh = true := by decide +kernel
theorem test_stall_hyp : fresh.paused 95 = false := by decide +kernel
theorem test_retest_rises :
    let s := after (.railSequenceDownDone 95) stalled
    (s.mod 95).state = 2 ∧ (s.pwrMod 95).obj.st = .off ∧ (s.pwrMod 95).rising = false ∧ (s.pwrMod 95).testing = false ∧ s.canRise 95 = true ∧
    (s.mod 95).notByRetest = false ∧ s.modInPart 95 = false ∧
    next? (.moduleRetest 0 0x15F) s (fun t => (t.pwrMod 95).rising && (t.mod 95).retest) = true := by decide +kernel
theorem test_retest_end_hyp : retesting.paused 95 = false ∧ retesting.coldMod 95 = false := by decide +kernel
theorem test_join_fails :
    let s := { fresh with trays := [(11, { svc := .joining })] }
    let b : BootItem := { stage := 2, tray := 11, slot := 0, die := 0, isle := 0, pos := 0, cause := 2 }
    (∀ w ∈ trayMods 11, (s.pwrMod w).rising = false ∧ ((s.pwrMod w).obj.st = .on → s.paused w = false ∧ s.coldMod w = false)) ∧
    next? (.trayJoinComplete 11 [b]) s (fun t => (t.tray 11).svc == .failed) = true := by decide +kernel
theorem test_join_mismatch :
    let s := { fresh with trays := [(16, { svc := .joining, badType := some 1 })] }
    (s.tray 16).mismatch = true ∧
    next? (.trayJoinComplete 16 []) s (fun t => (t.tray 16).svc == .failed && (t.tray 16).strapsRead && t.wardenRuns 16) = true := by decide +kernel

/-! ### Clauses beside the common case: whiteout and trials (R735, R765) -/

theorem test_lid_stale : (({ bare with store := [(keyItem 15, some 7)] } : State).stored (keyItem 15) 0) = 7 ∧
    next? (.lidSwitchClose 17 true) { bare with store := [(keyItem 15, some 7)] } (fun t => t.keys.stale.contains 7) = true := by
  decide +kernel
/-- Installed, the first instance's own fuses revoking the image's key. -/
def revoked : State := match installed.nextSwitch installed.toSwitch with
  | some i => installed.setInst (instKey 1 i) { installed.inst (instKey 1 i) with fuses := 15 }
  | none => installed
theorem test_switch_revoked : revoked.upd.phase = 4 ∧ revoked.updPaused = false ∧ revoked.upd.failDue = none ∧
    (match revoked.nextSwitch revoked.toSwitch with
     | some i => (swapSlots (revoked.inst (instKey 1 i))).fuses.getLsbD (swapSlots (revoked.inst (instKey 1 i))).keyId.toNat &&
        next? .instanceSwitch revoked (fun t => t.upd.phase == 6 && t.upd.failed == some (instKey 1 i) && t.upd.inst.isNone)
     | none => false) = true := by decide +kernel

/-! ### Clauses beside the common case: restart, pumps, the log and the battery (R609, R670, R684, R736, R768, R802) -/

/-- A restart runs. -/
def restarting : State := { fresh with boot := { fresh.boot with again := true, st := 0, stage := 4 } }
theorem test_restart_deaf : restarting.takesWrites = false ∧ stays (.setupRegisterWrite 0 0 3 1) restarting = true ∧
    stays (.illegalSetupRead 0 0 true 1 15) restarting = true ∧ stays (.nudge 0 0 0 3) restarting = true := by decide +kernel
theorem test_both_pumps :
    let s := after (.pumpStop 1) (after (.pumpStop 0) fresh)
    s.therm.fault0 = true ∧ s.therm.fault1 = true ∧ s.therm.spd0 = 0 ∧
    next? (.pumpStop 0) (after (.pumpRetry 0) (at_ 6000000000 s)) (fun t => t.therm.spd0 == 0 && t.therm.spd1 == 0) = true := by
  decide +kernel
theorem test_copy_due :
    let s := { fresh with pwr := { fresh.pwr with sag := 1 } }
    let s1 := after (.logCopyFailed 2) s
    (s.stew 2).copyOk = true ∧ (s1.stew 2).failDue = true ∧ (s1.stew 2).copyOk = true ∧
    next? .deferredWriteCommit { s1 with pwr := { s1.pwr with sag := 0 } } (fun t => !(t.stew 2).copyOk && !(t.stew 2).failDue) = true := by
  decide +kernel
theorem test_log_order : (([{ rec1 with tb := 5 }, { rec1 with tb := 3, lsn := 9 }, { rec1 with tb := 3, lsn := 2 }] : List LogRec).foldr
    insertRec []).map (fun r => (r.tb.toNat, r.lsn.toNat)) = [(3, 2), (3, 9), (5, rec1.lsn.toNat)] := by decide +kernel
theorem test_battery_dead : dark.boot.powered = false ∧ (17 : Nat) < 18 ∧
    next? (.batteryLow 0) dark (fun t => t.keys.storeLost && !(t.lidSensed 17)) = true ∧
    next? (.batteryLow 0) fresh (fun t => !t.keys.storeLost && t.lidSensed 17) = true := by decide +kernel
theorem test_moving_minority : lonely.majority = false ∧
    next? (.movingClear (.mgmt (.redfish 1)) true) lonely (fun t => t.upd == lonely.upd && t.out == [.answer 1 503 []]) = true := by
  decide +kernel
theorem test_storm_pause :
    next? (.wardenWatchdogExpiry 11) { fresh with therm := { fresh.therm with dies := [(383, { level := 3 })] } }
      (fun t => (t.die 383).pause && (t.mtherm 95).pauses == 1 && !(t.die 382).pause) = true := by decide +kernel

end Sys2Proof.Tests
end

section
/-! PROOFS. A strap override that moves the control host: the machine-level events held for the old control tenant go to the
machine queue (R190, R275). The commands' frame of O9 leaves them where they were, which refutes it. -/

namespace Sys2Proof.Machine

open Sys2Proof

/-! ### The machine queue takes over a tenant's machine-level events (R263, R275) -/

/-- Machine-level events that the queue has room for stand behind those already held, in order. -/
theorem foldl_holdMachine_mevHeld (es : List Event) (s : State) (h : s.mevHeld.length + es.length ≤ 256) :
    (es.foldl (fun a e => holdMachine e a) s).mevHeld = s.mevHeld ++ es := by
  induction es generalizing s with
  | nil => simp
  | cons e es ih =>
    rw [List.length_cons] at h
    have hq : (holdMachine e s).mevHeld = s.mevHeld ++ [e] := by
      rw [holdMachine, if_pos (by omega)]
    rw [List.foldl_cons, ih _ (by rw [hq, List.length_append, List.length_singleton]; omega), hq, List.append_assoc,
      List.singleton_append]

/-- The old control tenant is no longer it: its machine-level events join the machine queue. -/
theorem rehostEvents_mevHeld_of_ne (n : Nat) (s : State) (hne : s.ctlTenant ≠ some n)
    (hroom : s.mevHeld.length + ((s.ten n).held.filter (fun e => e.machine)).length ≤ 256) :
    (rehostEvents (some n) s).mevHeld = s.mevHeld ++ (s.ten n).held.filter (fun e => e.machine) := by
  simp only [rehostEvents, if_neg hne]
  exact foldl_holdMachine_mevHeld _ _ hroom

/-! ### MACH_STRAP_OVR (R190) -/

/-- A mode change point changes intake trays only. -/
theorem modePoint_frame (t : Nat) (s : State) : ∃ i, modePoint t s = { s with intakes := i } := by
  unfold modePoint; split
  · exact ⟨_, rfl⟩
  · exact ⟨s.intakes, rfl⟩

/-- Storing an item changes the store and the power state only. -/
theorem storeItem_frame (off : Nat) (v : Word) (s : State) :
    ∃ st p, storeItem off v s = { s with store := st, pwr := p } := by
  unfold storeItem; split
  · exact ⟨_, _, rfl⟩
  · exact ⟨s.store, _, rfl⟩

/-- The window's MACH_STRAP_OVR as a write of it leaves it. -/
def State.withStraps (val : Word) (s : State) : State := { s with win := { s.win with strapOvr := val &&& 0x000FF1F3 } }

/-- Before held events are moved, an override write changes MACH_STRAP_OVR, the store, the power state and the intake trays only. -/
theorem strapOvr_eq (val : Word) (s : State) :
    ∃ st p i, strapOvr val s = rehostEvents s.ctlTenant { s.withStraps val with store := st, pwr := p, intakes := i } := by
  obtain ⟨st, p, hstore⟩ := storeItem_frame 0x280 (val &&& 0x000FF1F3) (s.withStraps val)
  obtain ⟨i, h14⟩ := modePoint_frame 14 { s.withStraps val with store := st, pwr := p }
  obtain ⟨j, h15⟩ := modePoint_frame 15 { s.withStraps val with store := st, pwr := p, intakes := i }
  refine ⟨st, p, j, congrArg (rehostEvents s.ctlTenant) ?_⟩
  calc modePoint 15 (modePoint 14 (storeItem 0x280 (val &&& 0x000FF1F3) (s.withStraps val)))
      = modePoint 15 { s.withStraps val with store := st, pwr := p, intakes := i } := by rw [hstore, h14]
    _ = _ := h15

/-- An override write that takes control from tenant `n` queues the machine-level events held for it. -/
theorem strapOvr_mevHeld_of_rehost (val : Word) (s : State) (n : Nat) (hold : s.ctlTenant = some n)
    (hnew : (s.withStraps val).ctlTenant ≠ some n)
    (hroom : s.mevHeld.length + ((s.ten n).held.filter (fun e => e.machine)).length ≤ 256) :
    (strapOvr val s).mevHeld = s.mevHeld ++ (s.ten n).held.filter (fun e => e.machine) := by
  obtain ⟨st, p, i, h⟩ := strapOvr_eq val s
  rw [h, hold]
  exact rehostEvents_mevHeld_of_ne n _ hnew hroom

/-- STRAP_OVERRIDE_WRITE, where writes take effect: the override and its log record (R177). -/
theorem exec_strapOverrideWrite (port : BitVec 4) (val : Word) (s : State) (h : s.takesWrites = true) :
    exec (.strapOverrideWrite port val) s =
      .next (logAdd 1 0 0 0 0 [port.toNat, 0x280, val.toNat, (strapOvr val s).strapEff.toNat] (strapOvr val s)) :=
  congrArg Host.Outcome.next (regOpEff_ok _ _ _ _ _ _ h)

/-! ### O9 -/

/-- The machine two commands after reset: tenant 0, bound to PF0 of port 0, is enabled and so the control tenant; then pump 0
stops, and as that function may not write to its host yet (R205), the pump's event is held for the tenant (R263). -/
def pumpStoppedUnderControlTenant : State :=
  match core.run 2 { State.reset with pending := [.tenantEnable 0 0, .pumpStop 0] } with
  | .next s => s
  | _ => State.reset

/-- There the override CTLHOST = 1 takes control from tenant 0, which holds a machine-level event, and the machine queue has
room for it. -/
theorem override_rehosts_pumpStoppedUnderControlTenant :
    pumpStoppedUnderControlTenant.takesWrites = true ∧ pumpStoppedUnderControlTenant.ctlTenant = some 0 ∧
    (pumpStoppedUnderControlTenant.withStraps 0x1100).ctlTenant ≠ some 0 ∧
    (pumpStoppedUnderControlTenant.ten 0).held.filter (fun e => e.machine) ≠ [] ∧
    pumpStoppedUnderControlTenant.mevHeld.length +
      ((pumpStoppedUnderControlTenant.ten 0).held.filter (fun e => e.machine)).length ≤ 256 := by
  decide

/-- Refutes O9: its frame of the override write leaves the events that tenants and the machine hold as they were. In a state
reached from reset the control tenant 0 holds a machine-level event; the override CTLHOST = 1 leaves the machine without a
control tenant, and the event moves to the machine queue (R275). -/
theorem not_peakReadReturnsAndClears : ¬ Obligations.PeakReadReturnsAndClears := by
  unfold Obligations.PeakReadReturnsAndClears
  intro h
  obtain ⟨hw, hold, hnew, hheld, hroom⟩ := override_rehosts_pumpStoppedUnderControlTenant
  obtain ⟨-, -, t, hexec, -, -, -, hframe⟩ := h pumpStoppedUnderControlTenant 0 0x1100 hw
  have hsame : t.mevHeld = pumpStoppedUnderControlTenant.mevHeld := (congrArg State.mevHeld hframe :)
  rw [exec_strapOverrideWrite 0 0x1100 _ hw] at hexec
  rw [← Host.Outcome.next.inj hexec, logAdd_mevHeld, strapOvr_mevHeld_of_rehost 0x1100 _ 0 hold hnew hroom] at hsame
  exact hheld (List.append_right_eq_self.1 hsame)

end Sys2Proof.Machine
end

section
/-! PROOFS. What the RE-ARM key's conditions are judged by: operations that end commands, wind down partitions, and lower and
raise modules and trays leave it as it is. -/

namespace Sys2Proof.Machine

open Sys2Proof

/-! ### The view of the RE-ARM key (R628, R738) -/

/-- What a turn of the RE-ARM key is judged by, and the machine-wide latches it re-arms. -/
def State.rearmView (s : State) : KeyS × Boot × Win × Bool × Bool :=
  (s.keys, s.boot, s.win, s.therm.resCut, s.therm.flowLost)

/-- A fold of operations that keep the view of the state they carry keeps it. -/
theorem foldl_carries_rearmView {α β : Type} (p : β → State) (f : β → α → β)
    (hf : ∀ b x, (p (f b x)).rearmView = (p b).rearmView) (l : List α) (b : β) : (p (l.foldl f b)).rearmView = (p b).rearmView := by
  induction l generalizing b with
  | nil => rfl
  | cons x t ih => rw [List.foldl_cons, ih, hf]

/-- The same of a fold over states. -/
@[simp] theorem foldl_rearmView {α : Type} (f : State → α → State) (hf : ∀ a x, (f a x).rearmView = a.rearmView)
    (l : List α) (s : State) : (l.foldl f s).rearmView = s.rearmView := foldl_carries_rearmView id f hf l s

@[simp] theorem setTen_rearmView (s : State) (n : Nat) (v : Ten) : (s.setTen n v).rearmView = s.rearmView := rfl
@[simp] theorem setPart_rearmView (s : State) (n : Nat) (v : Part) : (s.setPart n v).rearmView = s.rearmView := rfl
@[simp] theorem setRing_rearmView (s : State) (n : Nat) (v : Ring) : (s.setRing n v).rearmView = s.rearmView := rfl
@[simp] theorem setMod_rearmView (s : State) (n : Nat) (v : Mod) : (s.setMod n v).rearmView = s.rearmView := rfl
@[simp] theorem setIsle_rearmView (s : State) (n : Nat) (v : Isle) : (s.setIsle n v).rearmView = s.rearmView := rfl
@[simp] theorem setChan_rearmView (s : State) (n : Nat) (v : Chan) : (s.setChan n v).rearmView = s.rearmView := rfl
@[simp] theorem setTray_rearmView (s : State) (n : Nat) (v : Tray) : (s.setTray n v).rearmView = s.rearmView := rfl
@[simp] theorem setPipe_rearmView (s : State) (n : Nat) (v : Pipe) : (s.setPipe n v).rearmView = s.rearmView := rfl
@[simp] theorem setPwrMod_rearmView (s : State) (n : Nat) (v : PwrMod) : (s.setPwrMod n v).rearmView = s.rearmView := rfl
@[simp] theorem setMtherm_rearmView (s : State) (n : Nat) (v : ModTherm) : (s.setMtherm n v).rearmView = s.rearmView := rfl
@[simp] theorem setTtherm_rearmView (s : State) (n : Nat) (v : TrayTherm) : (s.setTtherm n v).rearmView = s.rearmView := rfl
@[simp] theorem logAdd_rearmView (c k p : Nat) (a : DWord) (b : Word) (d : List Nat) (s : State) :
    (logAdd c k p a b d s).rearmView = s.rearmView := by simp [State.rearmView]

/-! Events (R262, R263). -/

@[simp] theorem deliver_rearmView (n : Nat) (e : Event) (s : State) : (deliver n e s).rearmView = s.rearmView := by
  unfold deliver holdEvent; dsimp only
  split
  · rfl
  · split
    · rfl
    · split <;> rfl

@[simp] theorem holdMachine_rearmView (e : Event) (s : State) : (holdMachine e s).rearmView = s.rearmView := by
  unfold holdMachine; split <;> rfl

@[simp] theorem machineEvent_rearmView (c n d : Nat) (p : Option (BitVec 6)) (a : DWord) (b : Word) (s : State) :
    (machineEvent c n d p a b s).rearmView = s.rearmView := by
  unfold machineEvent; dsimp only
  split
  · split <;> simp
  · simp

/-! Packets and links. -/

@[simp] theorem inject_rearmView (p : Packet) (s : State) : (inject p s).rearmView = s.rearmView := rfl

@[simp] theorem onLink_rearmView (l : Nat) (f : Link → Link) (s : State) : (onLink l f s).rearmView = s.rearmView := by
  unfold onLink; dsimp only; split <;> rfl

@[simp] theorem failLink_rearmView (l r : Nat) (s : State) : (failLink l r s).rearmView = s.rearmView :=
  onLink_rearmView _ _ _

/-! Move channels that are stopped: the writes already issued (R340). -/

@[simp] theorem rekeyUnit_rearmView (k u : Nat) (s : State) : (rekeyUnit k u s).rearmView = s.rearmView := by
  unfold rekeyUnit; dsimp only; split <;> rfl

@[simp] theorem putColumn_rearmView (k key : Nat) (b : List Byte) (s : State) : (putColumn k key b s).rearmView = s.rearmView :=
  foldl_rearmView _ (fun a u => rekeyUnit_rearmView k u a) _ s

@[simp] theorem countRefused_rearmView (w : Nat) (s : State) : (countRefused w s).rearmView = s.rearmView := by
  unfold countRefused; split <;> rfl

@[simp] theorem gateWrite_rearmView (who : Who) (w key : Nat) (b : List Byte) (s : State) :
    (gateWrite who w key b s).2.rearmView = s.rearmView := by
  unfold gateWrite
  split
  · rfl
  · split
    · rfl
    · split
      · simp
      · split
        · rfl
        · exact putColumn_rearmView _ _ _ _

@[simp] theorem lateFault_rearmView (who : Who) (h : Option Nat) (c l a : Nat) (s : State) :
    (lateFault who h c l a s).rearmView = s.rearmView := by
  unfold lateFault; dsimp only; split <;> simp

@[simp] theorem srcFault_rearmView (who : Who) (c l a : Nat) (s : State) :
    (srcFault who c l a s).rearmView = s.rearmView := by
  unfold srcFault; split <;> simp

@[simp] theorem landWrite_rearmView (who : Who) (w key a : Nat) (b : List Byte) (s : State) :
    (landWrite who w key a b s).2.rearmView = s.rearmView := by
  unfold landWrite; dsimp only; split <;> simp

@[simp] theorem postWrite_rearmView (who : Who) (m : List Nat) (src : Place) (f : Bool) (a : Nat) (b : List Byte) (s : State) :
    (postWrite who m src f a b s).rearmView = s.rearmView := by
  unfold postWrite; dsimp only; split <;> simp

@[simp] theorem readPart_rearmView (key : Nat) (m : List Nat) (a l : Nat) (s : State) :
    (readPart key m a l s).2.rearmView = s.rearmView := by
  unfold readPart chanSrcFault; dsimp only
  split
  · simp
  · split
    · simp
    · split
      · exact srcFault_rearmView _ _ _ _ _
      · rfl

theorem readRun_rearmView (key : Nat) (m : List Nat) (src n : Nat) (s : State) :
    (readRun key m src n s).2.2.rearmView = s.rearmView := by
  unfold readRun; dsimp only
  split
  · refine foldl_carries_rearmView (Prod.snd ∘ Prod.snd) _ (fun b x => ?_) _ _
    split
    · rfl
    · exact readPart_rearmView _ _ _ _ _
  · rfl
  · rfl

theorem writeRun_rearmView (key : Nat) (m : List Nat) (l : List (Nat × List Byte)) (s : State) :
    (writeRun key m l s).rearmView = s.rearmView := by
  refine foldl_rearmView _ (fun a x => ?_) _ _
  split
  · exact foldl_rearmView _ (fun _ _ => postWrite_rearmView _ _ _ _ _ _ _) _ _
  · exact foldl_rearmView _ (fun _ _ => inject_rearmView _ _) _ _
  · rfl

theorem runTransfer_rearmView (key : Nat) (l : List (Nat × Nat)) (s : State) :
    (runTransfer key l s).rearmView = s.rearmView := by
  refine foldl_carries_rearmView Prod.snd _ (fun b x => ?_) _ _
  exact (writeRun_rearmView _ _ _ _).trans (readRun_rearmView _ _ _ _ _)

@[simp] theorem dropReads_rearmView (q : HRead → Bool) (s : State) : (dropReads q s).rearmView = s.rearmView := rfl

@[simp] theorem abortChan_rearmView (key : Nat) (s : State) : (abortChan key s).rearmView = s.rearmView := by
  unfold abortChan; dsimp only
  split
  · rfl
  · exact runTransfer_rearmView _ _ _
  · rfl

/-! Commands of a ring that end (R282, R313), and rings and partitions that wind down (R223, R239). -/

@[simp] theorem modCmd_rearmView (r : Nat) (q : DWord) (f : Cmd → Cmd) (s : State) : (modCmd r q f s).rearmView = s.rearmView := rfl

@[simp] theorem hostPost_rearmView (n : Nat) (o : Option (Nat × DWord)) (a : DWord) (b : List Byte) (s : State) :
    (hostPost n o a b s).rearmView = s.rearmView := by
  unfold hostPost; dsimp only; split <;> rfl

@[simp] theorem recipePoisonEvent_rearmView (r : Nat) (e : Entry) (s : State) :
    (recipePoisonEvent r e s).rearmView = s.rearmView := by
  unfold recipePoisonEvent; dsimp only
  split
  · exact deliver_rearmView _ _ _
  · rfl

@[simp] theorem noteHead_rearmView (r : Nat) (s : State) : (noteHead r s).rearmView = s.rearmView := by
  unfold noteHead; dsimp only
  split
  · rfl
  · split <;> simp

@[simp] theorem advanceTally_rearmView (r : Nat) (s : State) : (advanceTally r s).rearmView = s.rearmView := by
  unfold advanceTally; dsimp only; split <;> rfl

@[simp] theorem complete_rearmView (r : Nat) (q : DWord) (f i : Word) (s : State) :
    (complete r q f i s).rearmView = s.rearmView := by
  unfold complete
  split
  · rfl
  · dsimp only
    split
    · rfl
    · rw [noteHead_rearmView, advanceTally_rearmView]
      split <;> split <;> simp

@[simp] theorem completeCut_rearmView (r : Nat) (q : DWord) (s : State) : (completeCut r q s).rearmView = s.rearmView := by
  simp [completeCut]

@[simp] theorem streamUnbound_rearmView (r : Nat) (s : State) : (streamUnbound r s).rearmView = s.rearmView := by
  refine foldl_rearmView _ (fun a k => ?_) _ _
  dsimp only
  split
  · rfl
  · simp

@[simp] theorem windRing_rearmView (w : Bool) (r : Nat) (s : State) : (windRing w r s).rearmView = s.rearmView := by
  unfold windRing forgetScan; dsimp only
  split
  · split <;> simp
  · rfl

@[simp] theorem clearPendingRings_rearmView (p : Nat) (s : State) : (clearPendingRings p s).rearmView = s.rearmView :=
  foldl_rearmView _ (fun _ _ => setRing_rearmView _ _ _) _ _

@[simp] theorem cutCommands_rearmView (p : Nat) (s : State) : (cutCommands p s).rearmView = s.rearmView := by
  refine foldl_rearmView _ (fun a r => foldl_rearmView _ (fun b c => ?_) _ _) _ _
  split <;> simp

@[simp] theorem closeGates_rearmView (m : List Nat) (s : State) : (closeGates m s).rearmView = s.rearmView :=
  foldl_rearmView _ (fun _ _ => setMod_rearmView _ _ _) _ _

@[simp] theorem eraseSlots_rearmView (n : Nat) (m : List Nat) (s : State) : (eraseSlots n m s).rearmView = s.rearmView :=
  foldl_rearmView _ (fun _ _ => setMod_rearmView _ _ _) _ _

@[simp] theorem unbind_rearmView (m : List Nat) (s : State) : (unbind m s).rearmView = s.rearmView :=
  foldl_rearmView _ (fun _ _ => setMod_rearmView _ _ _) _ _

@[simp] theorem stopPart_rearmView (p : Nat) (c : Bool) (s : State) : (stopPart p c s).rearmView = s.rearmView := by
  unfold stopPart; dsimp only; split <;> simp

@[simp] theorem windPart_rearmView (p : Nat) (h : Wind) (l : Bool) (s : State) : (windPart p h l s).rearmView = s.rearmView := by
  unfold windPart; dsimp only
  split
  · split <;> simp
  · simp
  · split
    · split <;> simp [cancelEnable]
    · split
      · rw [stopPart_rearmView]; split <;> simp
      · simp

/-! Modules and trays that are lowered and raised (R575, R628, R699). -/

@[simp] theorem markLow_rearmView (w : Nat) (s : State) : (markLow w s).rearmView = s.rearmView := by
  rw [markLow_frame]; rfl

@[simp] theorem lowerMod_rearmView (w : Nat) (s : State) : (lowerMod w s).rearmView = s.rearmView := by
  unfold lowerMod; dsimp only; split <;> simp

@[simp] theorem startRise_rearmView (w : Nat) (s : State) : (startRise w s).rearmView = s.rearmView := by
  unfold startRise; split <;> simp

@[simp] theorem endDiag_rearmView (w : Nat) (s : State) : (endDiag w s).rearmView = s.rearmView := rfl

@[simp] theorem dropModPackets_rearmView (w : Nat) (s : State) : (dropModPackets w s).rearmView = s.rearmView := rfl

@[simp] theorem dropLate_rearmView (w : Nat) (s : State) : (dropLate w s).rearmView = s.rearmView := by
  unfold dropLate; dsimp only
  split
  · rfl
  · exact foldl_rearmView _ (fun _ _ => setTen_rearmView _ _ _) _ _

@[simp] theorem losePart_rearmView (p w c : Nat) (s : State) : (losePart p w c s).rearmView = s.rearmView := by
  simp [losePart]

@[simp] theorem loseModule_rearmView (w c : Nat) (s : State) : (loseModule w c s).rearmView = s.rearmView := by
  unfold loseModule; dsimp only
  split
  · rw [lowerMod_rearmView, machineEvent_rearmView, foldl_rearmView _ (fun _ _ => setIsle_rearmView _ _ _)]
    simp
  · simp

@[simp] theorem applyOrder_rearmView (w : Nat) (s : State) : (applyOrder w s).rearmView = s.rearmView := by
  unfold applyOrder; dsimp only
  split
  · rfl
  · split
    · split
      · rfl
      · split <;> simp
      · simp
    · split
      · simp
      · split <;> simp
      · split <;> simp

@[simp] theorem setSvc_rearmView (t : Nat) (v : TraySvc) (s : State) : (setSvc t v s).rearmView = s.rearmView := by
  unfold setSvc; split <;> simp

@[simp] theorem startJoin_rearmView (t : Nat) (s : State) : (startJoin t s).rearmView = s.rearmView := by
  unfold startJoin
  split
  · simp
  · dsimp only
    have hready : ∀ b c : Bool, (setSvc t .joining ((if c then s.setTtherm t { s.ttherm t with valve := 100 } else s).setTray t
        { (if c then s.setTtherm t { s.ttherm t with valve := 100 } else s).tray t with
          contactor := b, strapsRead := b })).rearmView = s.rearmView := by
      intro b c; cases c <;> simp
    split
    · exact hready _ _
    · refine (foldl_rearmView _ (fun a w => ?_) _ _).trans (hready _ _)
      split
      · rfl
      · split
        · split <;> simp
        · simp
        · rfl

@[simp] theorem joinWaiting_rearmView (s : State) : (joinWaiting s).rearmView = s.rearmView := by simp [joinWaiting]

@[simp] theorem raiseTrays_rearmView (s : State) : (raiseTrays s).rearmView = s.rearmView := by simp [raiseTrays]

@[simp] theorem clearSafety_rearmView (s : State) : (clearSafety s).rearmView = s.rearmView :=
  foldl_rearmView _ (fun _ _ => setPwrMod_rearmView _ _ _) _ _

@[simp] theorem limitEvent_rearmView (c : Nat) (a s : State) : (limitEvent c a s).rearmView = s.rearmView := by
  unfold limitEvent; dsimp only; split <;> simp

@[simp] theorem rearmRecs_rearmView (a b : State) : (rearmRecs a b).rearmView = b.rearmView := by simp [rearmRecs]

end Sys2Proof.Machine
end

section
/-! PROOFS. The front panel (O45): the RE-ARM key, the code display, the LOCATE and LAMP TEST buttons, and the rack manager's
requests for lights. -/

namespace Sys2Proof.Machine

open Sys2Proof

/-! ### RE_ARM (R54, R628, R738) -/

theorem exec_reArm (s : State) : exec .reArm s = .next (reArm s) := rfl

/-- Of what the key's turn is judged by, re-arming the safety actions changes the two machine-wide latches. -/
theorem rearmConds_rearmView (s : State) : (rearmConds s).rearmView =
    (s.keys, s.boot, s.win, s.therm.resCut && decide (s.therm.reservoir ≤ 10),
      s.therm.flowLost && !(s.therm.goodFlow != 0 && decide (s.therm.goodFlow - 1 + 1000000000 ≤ s.win.tb.toNat))) := rfl

/-- With power, a turn of the key ends with the key service's part of it, from a state that the rest of the turn has left with
the view of `rearmConds`. -/
theorem reArm_ends_in_startRearm (s : State) (h : s.boot.powered = true) :
    ∃ u, reArm s = startRearm u ∧ u.rearmView = (rearmConds s).rearmView := by
  rw [reArm, if_pos h]
  exact ⟨_, rfl, by simp⟩

theorem startRearm_therm (s : State) : (startRearm s).therm = s.therm := by
  unfold startRearm; split <;> rfl

theorem startRearm_keys_of_not_white (s : State) (h : s.keys.white = false) : (startRearm s).keys = s.keys := by
  simp [startRearm, h]

/-- The key service's re-arm starts with the condition ended and bring-up complete (R738). -/
theorem startRearm_starts (s : State) (hwhite : s.keys.white = true) (hended : s.lidsEnded = true)
    (hpower : s.boot.powered = true) (hstage : s.boot.stage = 11) (hst : s.boot.st = 1) :
    (startRearm s).keys.rearming = true := by
  simp [startRearm, hwhite, hended, hpower, hstage, hst]

theorem lidsEnded_congr {s t : State} (hkeys : t.keys = s.keys) (hwin : t.win = s.win) : t.lidsEnded = s.lidsEnded := by
  rw [State.lidsEnded, State.lidsEnded, hkeys, hwin]

/-- What a turn of the RE-ARM key does with the machine-wide latches and the whiteout. -/
theorem runs_reArm (s : State) (hpower : s.boot.powered = true) : Runs .reArm s (fun t =>
    t.therm.resCut = (s.therm.resCut && decide (s.therm.reservoir ≤ 10)) ∧
    (s.therm.goodFlow ≠ 0 → s.therm.goodFlow - 1 + 1000000000 ≤ s.win.tb.toNat → t.therm.flowLost = false) ∧
    (s.therm.goodFlow = 0 → t.therm.flowLost = s.therm.flowLost) ∧
    (s.keys.white = true → s.lidsEnded = true → s.boot.stage = 11 → s.boot.st = 1 → t.keys.rearming = true) ∧
    (s.keys.white = false → t.keys = s.keys)) := by
  obtain ⟨u, hturn, hview⟩ := reArm_ends_in_startRearm s hpower
  rw [rearmConds_rearmView] at hview
  simp only [State.rearmView, Prod.mk.injEq] at hview
  obtain ⟨hkeys, hboot, hwin, hres, hflow⟩ := hview
  refine ⟨startRearm u, (exec_reArm s).trans (congrArg _ hturn), ?_⟩
  simp only [startRearm_therm]
  refine ⟨hres, fun hgood hlong => ?_, fun hnone => ?_, fun hwhite hended hstage hst => ?_, fun hwhite => ?_⟩
  · simp [hflow, hgood, hlong]
  · simp [hflow, hnone]
  · rw [← hkeys] at hwhite
    rw [← lidsEnded_congr hkeys hwin] at hended
    rw [← hboot] at hpower hstage hst
    exact startRearm_starts u hwhite hended hpower hstage hst
  · rw [startRearm_keys_of_not_white u (hkeys ▸ hwhite), hkeys]

/-! ### The code display (R51) -/

theorem exec_displayCycle (s : State) : exec .displayCycle s = .next (displayCycle s) := rfl

/-- The order of arrival holds exactly the active codes. -/
theorem mem_arrivals (s : State) (c : Nat) : c ∈ s.arrivals ↔ c ∈ s.allCodes ∨ c ∈ s.classCodes 7 := by
  simp only [State.arrivals, List.mem_append, List.mem_filter, List.contains_iff_mem, Bool.not_eq_true',
    ← Bool.not_eq_true]
  tauto

/-- The codes of the most severe class present are active. -/
theorem active_of_mem_topCodes (s : State) (c : Nat) (h : c ∈ s.topCodes) : c ∈ s.allCodes ∨ c ∈ s.classCodes 7 := by
  unfold State.topCodes at h
  cases hfind : ([1, 2, 3, 4, 5, 6, 7].map s.classCodes).find? (fun l => !l.isEmpty) with
  | none =>
    rw [hfind] at h
    exact absurd h List.not_mem_nil
  | some l =>
    rw [hfind, Option.getD_some] at h
    have hclass : l ∈ [1, 2, 3, 4, 5, 6].map s.classCodes ++ [s.classCodes 7] := List.mem_of_find?_eq_some hfind
    rcases List.mem_append.1 hclass with hl | hl
    · exact .inl (List.mem_flatten_of_mem hl h)
    · exact .inr (List.mem_singleton.1 hl ▸ h)

/-- The codes that take turns are those of the most severe class present. -/
theorem mem_turnCodes (s : State) (c : Nat) : c ∈ s.turnCodes ↔ c ∈ s.topCodes := by
  rw [State.turnCodes, List.mem_filter, List.contains_iff_mem, mem_arrivals]
  exact and_iff_right_of_imp (active_of_mem_topCodes s c)

theorem turnCodes_ne_nil (s : State) (h : s.topCodes ≠ []) : s.turnCodes ≠ [] := by
  obtain ⟨c, hc⟩ := List.exists_mem_of_ne_nil _ h
  exact List.ne_nil_of_mem ((mem_turnCodes s c).2 hc)

theorem head?_getD_mem {l : List Nat} (h : l ≠ []) : l.head?.getD 0 ∈ l := by
  rw [List.head?_eq_some_head h]
  exact List.head_mem h

theorem display_mem_topCodes (s : State) (h : s.topCodes ≠ []) : s.display ∈ s.topCodes := by
  rw [← mem_turnCodes]
  unfold State.display
  split
  next hshown => exact List.contains_iff_mem.1 hshown
  next => exact head?_getD_mem (turnCodes_ne_nil s h)

/-- DISPLAY_CYCLE after 2 s gives the turn to a code of the most severe class present. -/
theorem runs_displayCycle_due (s : State)
    (hdue : s.stw.shownTick = 0 ∨ s.stw.shownTick - 1 + 200000000 ≤ s.win.tb.toNat) : Runs .displayCycle s (fun t =>
      t = { s with stw := { s.stw with active := t.stw.active, shown := t.stw.shown, shownTick := s.win.tb.toNat + 1 } } ∧
      (s.topCodes ≠ [] → t.stw.shown ∈ s.topCodes) ∧ ∀ c, c ∈ t.stw.active ↔ c ∈ s.allCodes ∨ c ∈ s.classCodes 7) := by
  refine ⟨_, exec_displayCycle s, ?_⟩
  rw [displayCycle, if_pos hdue]
  refine ⟨rfl, fun htop => ?_, mem_arrivals s⟩
  have hturn := turnCodes_ne_nil s htop
  rw [← mem_turnCodes]
  dsimp only
  split
  · exact List.mem_rotate.1 (head?_getD_mem (by rwa [ne_eq, List.rotate_eq_nil_iff]))
  · exact head?_getD_mem hturn

theorem runs_displayCycle_early (s : State) (hshown : s.stw.shownTick ≠ 0)
    (hearly : s.win.tb.toNat < s.stw.shownTick - 1 + 200000000) : Runs .displayCycle s (fun t => t = s) :=
  ⟨_, exec_displayCycle s, if_neg (by omega)⟩

/-! ### LOCATE and LAMP TEST (R54, R675) -/

theorem exec_locateButton (s : State) : exec .locateButton s = .next (locateButton s) := rfl
theorem exec_lampTest (s : State) : exec .lampTest s = .next (lampTest s) := rfl
theorem exec_lampTestEnd (s : State) : exec .lampTestEnd s = .next (lampEnd s) := rfl

/-- With no lamp test running, LOCATE toggles at once, and a lamp test takes back a toggle of the same tick. -/
theorem runs_buttons_no_lamp (s : State) (hlamp : s.stw.lamp = 0) :
    let now := s.win.tb.toNat + 1
    Runs .locateButton s (fun t => t = { s with stw := { s.stw with
      panelLocate := !s.stw.panelLocate, locTick := if s.stw.locTick = now then 0 else now } }) ∧
    (s.stw.locTick ≠ now → Runs .lampTest s (fun t => t = { s with stw := { s.stw with lamp := now } })) ∧
    (s.stw.locTick = now → Runs .lampTest s (fun t => t = { s with stw := { s.stw with
      lamp := now, locTick := 0, panelLocate := !s.stw.panelLocate, lampLocate := !s.stw.lampLocate } })) := by
  refine ⟨⟨_, exec_locateButton s, ?_⟩, fun halone => ⟨_, exec_lampTest s, ?_⟩, fun htogether => ⟨_, exec_lampTest s, ?_⟩⟩
  · exact if_neg (not_not.2 hlamp)
  · exact (if_neg (not_not.2 hlamp)).trans (if_neg halone)
  · exact (if_neg (not_not.2 hlamp)).trans (if_pos htogether)

/-- While a lamp test runs, LOCATE waits for its end, which comes after 3 s. -/
theorem runs_buttons_lamp (s : State) (hlamp : s.stw.lamp ≠ 0) :
    Runs .lampTest s (fun t => t = s) ∧
    Runs .locateButton s (fun t => t = { s with stw := { s.stw with lampLocate := !s.stw.lampLocate } }) ∧
    (s.stw.lamp - 1 + 300000000 ≤ s.win.tb.toNat → Runs .lampTestEnd s (fun t =>
      t = { s with stw := { s.stw with lamp := 0, lampLocate := false, panelLocate := s.stw.panelLocate ^^ s.stw.lampLocate } })) ∧
    (s.win.tb.toNat < s.stw.lamp - 1 + 300000000 → Runs .lampTestEnd s (fun t => t = s)) := by
  refine ⟨⟨_, exec_lampTest s, if_pos hlamp⟩, ⟨_, exec_locateButton s, if_pos hlamp⟩,
    fun hend => ⟨_, exec_lampTestEnd s, ?_⟩, fun hearly => ⟨_, exec_lampTestEnd s, if_neg (by omega)⟩⟩
  have htoggle : (if s.stw.lampLocate then !s.stw.panelLocate else s.stw.panelLocate) =
      (s.stw.panelLocate ^^ s.stw.lampLocate) := by
    cases s.stw.lampLocate <;> simp
  rw [lampEnd, if_pos ⟨hlamp, hend⟩, htoggle]

/-! ### LocationIndicatorActive (R675) -/

/-- A session of a service that stands with a majority: the request is set and answered. -/
theorem rfWrite_served (session : Nat) (f : State → State) (s : State) (hserved : s.served = true) (hmaj : s.majority = true) :
    rfWrite session f s = f s := by
  simp [rfWrite, hserved, hmaj]

theorem exec_locationIndicatorSet (session : Nat) (g : LocTarget) (on : Bool) (s : State) :
    exec (.locationIndicatorSet session g on) s = .next (locateSet session g on s) := rfl

/-- A tray's place among the requests. -/
theorem getLsbD_trayBit (u : Fin 18) (j : Nat) : (BitVec.ofNat 18 (2 ^ u.val)).getLsbD j = decide (j = u.val) := by
  have hu := u.isLt
  rw [BitVec.getLsbD_ofNat, Nat.testBit_two_pow, ← Bool.decide_and]
  exact decide_eq_decide.2 (by omega)

/-- Setting or clearing one request for a tray's light leaves the others. -/
theorem getLsbD_trayRequest (x : BitVec 18) (u : Fin 18) (on : Bool) (j : Nat) :
    (if on then x ||| BitVec.ofNat 18 (2 ^ u.val) else x &&& ~~~(BitVec.ofNat 18 (2 ^ u.val))).getLsbD j =
      if j = u.val then on else x.getLsbD j := by
  cases on with
  | true =>
    rw [if_pos rfl, BitVec.getLsbD_or, getLsbD_trayBit]
    split <;> simp [*]
  | false =>
    rw [if_neg Bool.false_ne_true, BitVec.getLsbD_and, BitVec.getLsbD_not, getLsbD_trayBit]
    split
    next hj => simp [hj]
    next hj => simpa [hj] using fun hx => BitVec.lt_of_getLsbD hx

/-- Setting or clearing one request for a module's light leaves the others. -/
theorem mem_moduleRequest (l : List Nat) (w : Nat) (on : Bool) (j : Nat) :
    j ∈ (if on then l.filter (fun x => x != w) ++ [w] else l.filter (fun x => x != w)) ↔
      if j = w then on = true else j ∈ l := by
  cases on <;> by_cases hj : j = w <;> simp [hj]

/-- The rack manager's requests in `s` as `t` has them, and what an answer to it changes (R661): the frame of
LOCATION_INDICATOR_SET. -/
def requested (s t : State) : State :=
  { answered s t with stw := { (answered s t).stw with
    rmRack := t.stw.rmRack, rmTrays := t.stw.rmTrays, rmMods := t.stw.rmMods } }

section
variable {s : State} (hserved : s.served = true) (hmaj : s.majority = true) (session : Nat) (on : Bool)
include hserved hmaj

theorem runs_locationIndicatorSet_rack : Runs (.locationIndicatorSet session .rack on) s (fun t =>
    t = requested s t ∧ t.stw.rmRack = on ∧ t.stw.rmTrays = s.stw.rmTrays ∧ t.stw.rmMods = s.stw.rmMods) := by
  refine ⟨_, exec_locationIndicatorSet session .rack on s, ?_⟩
  rw [locateSet, rfWrite_served _ _ _ hserved hmaj]
  exact ⟨rfl, rfl, rfl, rfl⟩

theorem runs_locationIndicatorSet_tray (u : Fin 18) : Runs (.locationIndicatorSet session (.tray u) on) s (fun t =>
    t = requested s t ∧ t.stw.rmRack = s.stw.rmRack ∧ t.stw.rmMods = s.stw.rmMods ∧ t.stw.rmTrays.getLsbD u.val = on ∧
    ∀ j, j ≠ u.val → t.stw.rmTrays.getLsbD j = s.stw.rmTrays.getLsbD j) := by
  refine ⟨_, exec_locationIndicatorSet session (.tray u) on s, ?_⟩
  rw [locateSet, rfWrite_served _ _ _ hserved hmaj]
  have hbits := getLsbD_trayRequest s.stw.rmTrays u on
  exact ⟨rfl, rfl, rfl, (hbits u.val).trans (if_pos rfl), fun j hj => (hbits j).trans (if_neg hj)⟩

theorem runs_locationIndicatorSet_module (w : Fin 96) : Runs (.locationIndicatorSet session (.module w) on) s (fun t =>
    t = requested s t ∧ t.stw.rmRack = s.stw.rmRack ∧ t.stw.rmTrays = s.stw.rmTrays ∧ (w.val ∈ t.stw.rmMods ↔ on = true) ∧
    ∀ j, j ≠ w.val → (j ∈ t.stw.rmMods ↔ j ∈ s.stw.rmMods)) := by
  refine ⟨_, exec_locationIndicatorSet session (.module w) on s, ?_⟩
  rw [locateSet, rfWrite_served _ _ _ hserved hmaj]
  have hmods := mem_moduleRequest s.stw.rmMods w on
  exact ⟨rfl, rfl, rfl, (hmods w.val).trans (by rw [if_pos rfl]), fun j hj => (hmods j).trans (by rw [if_neg hj])⟩

end

/-! ### O45 -/

/-- Settles O45: the display's turn lies in the order of arrival, which holds every active code; the buttons and requests by the
branches of their operations; and no other part of a turn of the key touches the view its own conditions are judged by. -/
theorem panelShowsAndLocates : Obligations.PanelShowsAndLocates := by
  unfold Obligations.PanelShowsAndLocates
  intro s
  exact ⟨display_mem_topCodes s, runs_displayCycle_due s, runs_displayCycle_early s, runs_buttons_no_lamp s,
    runs_buttons_lamp s,
    fun hserved hmaj session on => ⟨runs_locationIndicatorSet_rack hserved hmaj session on,
      runs_locationIndicatorSet_tray hserved hmaj session on, runs_locationIndicatorSet_module hserved hmaj session on⟩,
    runs_reArm s⟩

end Sys2Proof.Machine
end

section
/-! PROOFS. A step on an empty queue (O2): one tick of the timebase, and the order of arrival of the panel's codes. -/

namespace Sys2Proof.Machine

open Sys2Proof

/-! ### One tick (R67, R13, R51) -/

/-- A step on an empty queue is a tick. -/
theorem step_of_pending_nil (s : State) (h : s.pending = []) : step s = .next (tick s) := by
  unfold step
  split
  next hcons => exact absurd (h.symm.trans hcons) (List.cons_ne_nil _ _).symm
  next => rfl

/-- A tick counts the timebase and notes the codes' order of arrival, which the timebase has no part in. -/
theorem tick_eq (s : State) :
    tick s = { s with win := { s.win with tb := s.win.tb + 1 }, stw := { s.stw with active := s.arrivals } } := rfl

/-- The codes noted before and still active stay first and in their order (R51). -/
theorem kept_prefix_arrivals (s : State) :
    s.stw.active.filter (fun c => (s.allCodes ++ s.classCodes 7).contains c) <+: s.arrivals :=
  List.prefix_append _ _

/-- Settles O2: the step is a tick, and the order of arrival it notes holds exactly the active codes, those noted before first. -/
theorem emptyQueueLetsOneTickPass : Obligations.EmptyQueueLetsOneTickPass := by
  unfold Obligations.EmptyQueueLetsOneTickPass
  intro s hempty
  refine ⟨tick s, step_of_pending_nil s hempty, ?_⟩
  rw [tick_eq]
  exact ⟨rfl, mem_arrivals s, kept_prefix_arrivals s⟩

end Sys2Proof.Machine
end

section
/-! PROOFS. What a machine-level event and an answer to management may change: the frames `told` and `answered` (R262, R263,
R661). -/

namespace Sys2Proof.Machine

open Sys2Proof

/-! ### Frames -/

/-- What a log record may change, an event may. -/
theorem told_of_logged {s t : State} (h : t = logged s t) : t = told s t := by
  rw [h]; rfl

theorem told_trans {a b c : State} (h : b = told a b) (g : c = told b c) : c = told a c := by
  rw [g, h]; rfl

/-- What an event may change, an answer may. -/
theorem answered_of_told {s t : State} (h : t = told s t) : t = answered s t := by
  rw [h]; rfl

theorem answered_trans {a b c : State} (h : b = answered a b) (g : c = answered b c) : c = answered a c := by
  rw [g, h]; rfl

/-! ### Events (R262, R263) -/

theorem deliver_told (n : Nat) (e : Event) (s : State) : deliver n e s = told s (deliver n e s) := by
  unfold deliver holdEvent
  dsimp only
  split
  · rfl
  · split
    · rfl
    · split <;> rfl

theorem holdMachine_told (e : Event) (s : State) : holdMachine e s = told s (holdMachine e s) := by
  unfold holdMachine
  split <;> rfl

/-- A machine-level event changes its log record, the events held, and what the control tenant is written. -/
theorem machineEvent_told (c n d : Nat) (p : Option (BitVec 6)) (a : DWord) (b : Word) (s : State) :
    machineEvent c n d p a b s = told s (machineEvent c n d p a b s) := by
  unfold machineEvent
  dsimp only
  have hlog := told_of_logged (logAdd_logged 0 c (eventPlace c d) a b [d] s)
  split
  · split
    · exact told_trans hlog (deliver_told _ _ _)
    · exact told_trans hlog (holdMachine_told _ _)
  · exact told_trans hlog (holdMachine_told _ _)

/-! ### Answers (R659, R661) -/

theorem rfAnswer_answered (n c : Nat) (l : List Nat) (s : State) : rfAnswer n c l s = answered s (rfAnswer n c l s) := rfl

theorem answerM_answered (m : Mgmt) (h c : Nat) (l : List Nat) (s : State) :
    answerM m h c l s = answered s (answerM m h c l s) := by
  cases m with
  | redfish n => exact rfAnswer_answered _ _ _ _
  | console a => rfl

/-- A legal order of management, with a majority: its effect, its log record and the answer (R659, R661). -/
theorem bySource_mgmt_ok (m : Mgmt) (off val : Nat) (s s' : State) (h : s.majority = true) :
    bySource (.mgmt m) off val (.ok s') s = answerM m 200 0 [] (logAdd 1 0 17 0 0 [mgmtNum m, off, val, val] s') := by
  simp [bySource, h]

end Sys2Proof.Machine
end

section
/-! PROOFS. Bring-up and what goes with it (O44): calibration and cold dies in stage 4, the transport hold, BOOT_ACK, restart, and
the oscillators of the timebase. -/

namespace Sys2Proof.Machine

open Sys2Proof

/-! ### Calibration (R551) -/

theorem exec_calibrationLoopEnd (w : Fin 96) (d : BitVec 2) (ceil : Bool) (n : BitVec 17) (s : State) :
    exec (.calibrationLoopEnd w d ceil n) s = .next (calibrate w.val d.toNat ceil n.toNat s) := rfl

/-- MOD_CAL_d with `ps` recorded for its setpoint (Table 15-6). -/
def calWord (ceil : Bool) (v : Word) (ps : Nat) : Word :=
  if ceil then w32 (Fld v 0 16 + ps * 2 ^ 16) else w32 (ps + Fld v 16 16 * 2 ^ 16)

theorem Fld_w32_pair_low {a : Nat} (b : Nat) (ha : a < 65536) : Fld (w32 (a + b * 2 ^ 16)) 0 16 = a := by
  simp only [Fld, bitsAt, w32, BitVec.toNat_ofNat]
  omega

theorem Fld_w32_pair_high {a b : Nat} (ha : a < 65536) (hb : b < 65536) : Fld (w32 (a + b * 2 ^ 16)) 16 16 = b := by
  simp only [Fld, bitsAt, w32, BitVec.toNat_ofNat]
  omega

theorem Fld_16_lt (v : Word) (lo : Nat) : Fld v lo 16 < 65536 := Nat.mod_lt _ (by decide)

/-- The setpoint's own field holds the time recorded. -/
theorem Fld_calWord_own (ceil : Bool) (v : Word) {ps : Nat} (h : ps < 65536) :
    Fld (calWord ceil v ps) (if ceil then 16 else 0) 16 = ps := by
  cases ceil with
  | true => exact Fld_w32_pair_high (Fld_16_lt v 0) h
  | false => exact Fld_w32_pair_low _ h

/-- The other setpoint's field stays. -/
theorem Fld_calWord_other (ceil : Bool) (v : Word) {ps : Nat} (h : ps < 65536) :
    Fld (calWord ceil v ps) (if ceil then 0 else 16) 16 = Fld v (if ceil then 0 else 16) 16 := by
  cases ceil with
  | true => exact Fld_w32_pair_low _ (Fld_16_lt v 0)
  | false => exact Fld_w32_pair_high h (Fld_16_lt v 16)

/-- A time measured fits the register (log 75). -/
theorem transitPs_lt (n : Nat) : transitPs n < 65536 := by
  unfold transitPs
  split <;> omega

theorem transitPs_of_ne_zero {n : Nat} (h : n ≠ 0) :
    transitPs n = min 65535 ((1000000000 + n * 4096 - 1) / (n * 4096)) := if_neg h

/-- In stage 4, on a die that does not wait, a loop's end writes the die's MOD_CAL_d and may find an item. -/
theorem calibrate_eq (w d : Nat) (ceil : Bool) (n : Nat) (s : State) (hruns : s.stageRuns = true) (hstage : s.boot.stage = 4)
    (halive : s.modAlive w = true) (hwarm : (s.die (w * 4 + d)).cold = false) :
    ∃ found, calibrate w d ceil n s = { s with boot := { s.boot with
      cal := tset 0 (w * 4 + d) (calWord ceil (tget 0 (w * 4 + d) s.boot.cal) (transitPs n)) s.boot.cal, found := found } } :=
  ⟨_, if_pos (by simp [hruns, hstage, halive, hwarm])⟩

theorem runs_calibrationLoopEnd (s : State) (w : Fin 96) (d : BitVec 2) (ceil : Bool) (n : BitVec 17)
    (hruns : s.stageRuns = true) (hstage : s.boot.stage = 4) (halive : s.modAlive w.val = true) (hn : n ≠ 0)
    (hwarm : (s.die (w.val * 4 + d.toNat)).cold = false) :
    let k := w.val * 4 + d.toNat
    Runs (.calibrationLoopEnd w d ceil n) s (fun t => t = { s with boot := t.boot } ∧
      Fld (tget 0 k t.boot.cal) (if ceil then 16 else 0) 16 =
        min 65535 ((1000000000 + n.toNat * 4096 - 1) / (n.toNat * 4096)) ∧
      Fld (tget 0 k t.boot.cal) (if ceil then 0 else 16) 16 = Fld (tget 0 k s.boot.cal) (if ceil then 0 else 16) 16 ∧
      ∀ j, j ≠ k → tget 0 j t.boot.cal = tget 0 j s.boot.cal) := by
  obtain ⟨found, hcal⟩ := calibrate_eq w.val d.toNat ceil n.toNat s hruns hstage halive hwarm
  have hn' : n.toNat ≠ 0 := fun h => hn (BitVec.eq_of_toNat_eq h)
  refine ⟨_, exec_calibrationLoopEnd w d ceil n s, ?_⟩
  rw [hcal]
  dsimp only
  rw [tget_tset_self, Fld_calWord_own _ _ (transitPs_lt _), Fld_calWord_other _ _ (transitPs_lt _), transitPs_of_ne_zero hn']
  exact ⟨rfl, rfl, rfl, fun j hj => tget_tset_ne 0 _ _ hj⟩

/-! ### A cold die (R554) -/

theorem exec_coldWaitTimeout (w : Fin 96) (d : BitVec 2) (s : State) :
    exec (.coldWaitTimeout w d) s = .next (coldTimeout w.val d.toNat s) := rfl

/-- In stage 4 a die still cold 10 minutes after it began is an item with cause 3. -/
theorem runs_coldWaitTimeout_stage (s : State) (w : Fin 96) (d : BitVec 2) (hruns : s.stageRuns = true)
    (hstage : s.boot.stage = 4) (halive : s.modAlive w.val = true) (hcold : (s.die (w.val * 4 + d.toNat)).cold = true)
    (hlong : s.boot.began.toNat + 60000000000 ≤ s.win.tb.toNat)
    (hnew : itemAt 4 (w.val / 8) (w.val % 8) d.toNat 0 0 3 ∉ s.boot.found) :
    Runs (.coldWaitTimeout w d) s (fun t =>
      t.boot.found = s.boot.found ++ [itemAt 4 (w.val / 8) (w.val % 8) d.toNat 0 0 3] ∧
      t = { s with boot := { s.boot with found := t.boot.found, waitFrom := t.boot.waitFrom, waitSum := t.boot.waitSum } }) := by
  have heq : coldTimeout w.val d.toNat s = markWait { s with boot := { s.boot with
      found := s.boot.found ++ [itemAt 4 (w.val / 8) (w.val % 8) d.toNat 0 0 3] } } :=
    if_pos (by simp [hruns, hstage, halive, hcold, hlong, hnew])
  refine ⟨_, exec_coldWaitTimeout w d s, ?_⟩
  rw [heq]
  exact ⟨rfl, markWait_frame _⟩

/-- Lowering a module changes its own power and what the machine's time below 0.70 V counts. -/
theorem lowerMod_frame (w : Nat) (s : State) : lowerMod w s = { s with pwr := (lowerMod w s).pwr } := by
  unfold lowerMod
  dsimp only
  split
  · rw [markLow_frame]; rfl
  · rfl

theorem lowerMod_pwrMod_ne (w : Nat) (s : State) {j : Nat} (h : j ≠ w) : (lowerMod w s).pwrMod j = s.pwrMod j := by
  unfold lowerMod
  dsimp only
  split
  · rw [markLow_pwrMod_ne _ _ h, setPwrMod_ne _ _ h]
  · rfl

/-- Following the time below 0.70 V ends no test. -/
theorem markLow_testing (w : Nat) (s : State) : ((markLow w s).pwrMod w).testing = (s.pwrMod w).testing := by
  unfold markLow
  dsimp only
  split
  · rfl
  · simp [State.pwrMod, State.setPwrMod]

/-- A module that is lowered is not under test. -/
theorem lowerMod_testing (w : Nat) (s : State) : ((lowerMod w s).pwrMod w).testing = false := by
  unfold lowerMod
  dsimp only
  split
  next => rw [markLow_testing, setPwrMod_self]
  next hidle =>
    rw [Bool.or_eq_true, not_or] at hidle
    exact Bool.eq_false_of_not_eq_true hidle.2

/-- The tests leave a module out: its place and cause, its rails lowered, and nothing else. -/
theorem failTests_frame (w stage cause : Nat) (s : State) :
    failTests w stage cause s = { s with mods := (failTests w stage cause s).mods, pwr := (failTests w stage cause s).pwr } := by
  unfold failTests
  rw [lowerMod_frame]
  rfl

theorem failTests_mod_self (w stage cause : Nat) (s : State) : (failTests w stage cause s).mod w =
    { s.mod w with state := 2, stage := BitVec.ofNat 4 stage, cause := BitVec.ofNat 4 cause, retest := false } := by
  unfold failTests
  rw [lowerMod_frame]
  exact setMod_self s w _

theorem failTests_mod_ne (w stage cause : Nat) (s : State) {j : Nat} (h : j ≠ w) :
    (failTests w stage cause s).mod j = s.mod j := by
  unfold failTests
  rw [lowerMod_frame]
  exact setMod_ne s _ h

theorem failTests_testing (w stage cause : Nat) (s : State) : ((failTests w stage cause s).pwrMod w).testing = false :=
  lowerMod_testing w _

theorem failTests_pwrMod_ne (w stage cause : Nat) (s : State) {j : Nat} (h : j ≠ w) :
    (failTests w stage cause s).pwrMod j = s.pwrMod j := lowerMod_pwrMod_ne w _ h

/-- A module's own report of its tests is a log record. -/
theorem stageLog_logged (p r : Nat) (l : List BootItem) (s : State) : stageLog p r l s = logged s (stageLog p r l s) :=
  logAdd_logged _ _ _ _ _ _ _

theorem stageLog_mod (p r : Nat) (l : List BootItem) (s : State) (j : Nat) : (stageLog p r l s).mod j = s.mod j :=
  (congrArg (State.mod · j) (stageLog_logged p r l s) :)

theorem stageLog_pwrMod (p r : Nat) (l : List BootItem) (s : State) (j : Nat) : (stageLog p r l s).pwrMod j = s.pwrMod j :=
  (congrArg (State.pwrMod · j) (stageLog_logged p r l s) :)

/-- A module that tests itself in the running machine goes out when a die is still cold 10 minutes after its tests began. -/
theorem runs_coldWaitTimeout_tests (s : State) (w : Fin 96) (d : BitVec 2) (hst : s.boot.st = 1)
    (htests : (s.pwrMod w.val).testing = true) (hup : s.paused w.val = false)
    (hcold : (s.die (w.val * 4 + d.toNat)).cold = true) (hlong : (s.pwrMod w.val).testFrom - 1 + 60000000000 ≤ s.win.tb.toNat) :
    Runs (.coldWaitTimeout w d) s (fun t => (t.mod w.val).state = 2 ∧ (t.mod w.val).stage = 4 ∧ (t.mod w.val).cause = 3 ∧
      (t.pwrMod w.val).testing = false ∧ ∀ j, j ≠ w.val → t.mod j = s.mod j ∧ t.pwrMod j = s.pwrMod j) := by
  have hnostage : s.stageRuns = false := by simp [State.stageRuns, hst]
  have heq : coldTimeout w.val d.toNat s = failTests w.val 4 3 (stageLog (w.val / 8 + w.val % 8 * 32) (4 + 3 * 16)
      [itemAt 4 (w.val / 8) (w.val % 8) d.toNat 0 0 3] s) :=
    (if_neg (by simp [hnostage])).trans (if_pos (by simp [hst, htests, hup, hcold, hlong]))
  refine ⟨_, exec_coldWaitTimeout w d s, ?_⟩
  rw [heq]
  beta_reduce
  rw [failTests_mod_self]
  exact ⟨rfl, rfl, rfl, failTests_testing _ _ _ _, fun j hj =>
    ⟨(failTests_mod_ne _ _ _ _ hj).trans (stageLog_mod _ _ _ _ _),
      (failTests_pwrMod_ne _ _ _ _ hj).trans (stageLog_pwrMod _ _ _ _ _)⟩⟩

/-! ### The beginning of a stage (R546, R555, R572) -/

/-- The state as stage n begins, before contactors close or rails rise. -/
def stageBegun (n : Nat) (s : State) : State :=
  markWait { s with boot := { s.boot with
    stage := n, began := s.win.tb, beganUp := w64 s.upTimeAll, waitFrom := 0, waitSum := 0, found := [], gone := [], held := false } }

/-- Stage 3 raises the rails of an accepted module, and leaves others out. -/
def raiseAccepted (s : State) (w : Nat) : State :=
  if (s.mod w).stage != 0 then s
  else match s.fuseCause w with
    | some c => failTests w 3 c s
    | none => if s.ordersOn w then startRise w s else s.setMod w { s.mod w with stage := 15, cause := 7 }

/-- Stage 2 closes the contactor of a tray in service that no safety action holds off. -/
def closeContactor (s : State) (t : Nat) : State :=
  if (s.tray t).svc = .inService then
    let up := t == 17 || !(s.heldOff t)
    (s.setTtherm t { s.ttherm t with valve := if up then 100 else 0 }).setTray t { s.tray t with contactor := up }
  else s

theorem beginStage_two (s : State) : beginStage 2 s = (List.range 18).foldl closeContactor (stageBegun 2 s) := rfl

theorem beginStage_three (s : State) : beginStage 3 s =
    if (stageBegun 3 s).fuses.split then stageBegun 3 s else (List.range 96).foldl raiseAccepted (stageBegun 3 s) := rfl

theorem startRise_frame (w : Nat) (s : State) :
    startRise w s = { s with pwr := (startRise w s).pwr, therm := (startRise w s).therm } := by
  unfold startRise
  dsimp only
  split <;> rfl

theorem raiseAccepted_frame (s : State) (w : Nat) : raiseAccepted s w =
    { s with mods := (raiseAccepted s w).mods, pwr := (raiseAccepted s w).pwr, therm := (raiseAccepted s w).therm } := by
  unfold raiseAccepted
  split
  · rfl
  · split
    · rw [failTests_frame]
    · split
      · rw [startRise_frame]
      · rfl

theorem closeContactor_frame (s : State) (t : Nat) :
    closeContactor s t = { s with trays := (closeContactor s t).trays, therm := (closeContactor s t).therm } := by
  unfold closeContactor
  dsimp only
  split <;> rfl

/-- Rails that rise leave the boot block and the update as they were. -/
theorem foldl_raiseAccepted_boot_upd (l : List Nat) (s : State) :
    (l.foldl raiseAccepted s).boot = s.boot ∧ (l.foldl raiseAccepted s).upd = s.upd :=
  List.foldlRecOn l raiseAccepted (motive := fun a => a.boot = s.boot ∧ a.upd = s.upd) ⟨rfl, rfl⟩
    fun a ⟨hboot, hupd⟩ w _ => by
      rw [raiseAccepted_frame]
      exact ⟨hboot, hupd⟩

/-- Contactors that close leave the boot block, partitions, rings and columns as they were. -/
theorem foldl_closeContactor_keeps (l : List Nat) (s : State) :
    let t := l.foldl closeContactor s
    t.boot = s.boot ∧ t.parts = s.parts ∧ t.rings = s.rings ∧ t.cols = s.cols :=
  List.foldlRecOn l closeContactor (motive := fun a => a.boot = s.boot ∧ a.parts = s.parts ∧ a.rings = s.rings ∧ a.cols = s.cols)
    ⟨rfl, rfl, rfl, rfl⟩ fun a ⟨hboot, hparts, hrings, hcols⟩ t _ => by
      rw [closeContactor_frame]
      exact ⟨hboot, hparts, hrings, hcols⟩

theorem beginStage_three_boot_upd (s : State) :
    (beginStage 3 s).boot = (stageBegun 3 s).boot ∧ (beginStage 3 s).upd = s.upd := by
  rw [beginStage_three]
  split
  · exact ⟨rfl, rfl⟩
  · exact foldl_raiseAccepted_boot_upd _ (stageBegun 3 s)

/-! ### The transport switch (R555, R767) -/

theorem exec_transportSwitch (on : Bool) (s : State) : exec (.transportSwitch on) s = .next (transportSwitch on s) := rfl

/-- What MOVING's begin or end changes is an event's. -/
theorem movingEvent_told (a s : State) : movingEvent a s = told s (movingEvent a s) := by
  unfold movingEvent
  split
  · rfl
  · exact machineEvent_told _ _ _ _ _ _ _

/-- The condition set, and MOVING with it: the switch before a hold is looked at. -/
def switchSet (on : Bool) (s : State) : State := movingEvent s { s with upd := { s.upd with switch := on } }

theorem switchSet_eq (on : Bool) (s : State) :
    switchSet on s = { told s (switchSet on s) with upd := { s.upd with switch := on } } := movingEvent_told _ _

theorem switchSet_upd (on : Bool) (s : State) : (switchSet on s).upd = { s.upd with switch := on } :=
  (congrArg State.upd (switchSet_eq on s) :)

theorem switchSet_boot (on : Bool) (s : State) : (switchSet on s).boot = s.boot :=
  (congrArg State.boot (switchSet_eq on s) :)

/-- Cleared while bring-up is held, the switch ends the hold: bring-up resumes at stage 3. -/
theorem transportSwitch_eq (on : Bool) (s : State) : transportSwitch on s =
    if s.boot.held && !on then beginStage 3 (switchSet on s) else switchSet on s := by
  rw [← switchSet_boot on s]
  rfl

theorem runs_transportSwitch (s : State) (on : Bool) : Runs (.transportSwitch on) s (fun t =>
    t.upd.switch = on ∧ t.upd.tilt = s.upd.tilt ∧
    (s.boot.held = true → on = false → t.boot.stage = 3 ∧ t.boot.held = false) ∧
    (s.boot.held = false ∨ on = true → t = { told s t with upd := { s.upd with switch := on } })) := by
  refine ⟨_, exec_transportSwitch on s, ?_⟩
  rw [transportSwitch_eq]
  split
  next hends =>
    obtain ⟨hboot, hupd⟩ := beginStage_three_boot_upd (switchSet on s)
    rw [hupd, hboot, switchSet_upd]
    refine ⟨rfl, rfl, fun _ _ => ⟨rfl, rfl⟩, fun hstays => ?_⟩
    rcases hstays with hfree | hon
    · simp [hfree] at hends
    · simp [hon] at hends
  next hstays =>
    rw [switchSet_upd]
    refine ⟨rfl, rfl, fun hheld hoff => ?_, fun _ => switchSet_eq on s⟩
    simp [hheld, hoff] at hstays

/-! ### BOOT_ACK (R550) -/

theorem exec_bootAck (src : Source) (s : State) :
    exec (.bootAck src) s = .next (bySource src 0x110008 1 (.ok (ackCodes s)) s) := rfl

theorem runs_bootAck_window (s : State) (port : BitVec 4) (h : s.takesWrites = true) : Runs (.bootAck (.window port)) s (fun t =>
    t = { logged s t with boot := { s.boot with codes := [] } }) := by
  refine ⟨_, exec_bootAck (.window port) s, ?_⟩
  rw [bySource, regOp_ok _ _ _ _ _ h]
  exact setupNote_logged _ _ _ (ackCodes s)

theorem runs_bootAck_mgmt (s : State) (m : Mgmt) (h : s.majority = true) : Runs (.bootAck (.mgmt m)) s (fun t =>
    t = { answered s t with boot := { s.boot with codes := [] } }) := by
  refine ⟨_, exec_bootAck (.mgmt m) s, ?_⟩
  rw [bySource_mgmt_ok _ _ _ _ _ h]
  have hlog := answered_of_told (told_of_logged (logAdd_logged 1 0 17 0 0 [mgmtNum m, 0x110008, 1, 1] (ackCodes s)))
  exact answered_trans hlog (answerM_answered m 200 0 [] _)

/-! ### Restart (R660, R773) -/

theorem exec_restart (src : Source) (val : Word) (s : State) : exec (.restart src val) s = .next (restartOrder src val s) := rfl

/-- What a restart order is judged by once it has taken effect: the boot block, partitions, rings and columns. -/
def State.bootView (s : State) : Boot × Tab Part × Tab Ring × Tab Byte := (s.boot, s.parts, s.rings, s.cols)

@[simp] theorem machineEvent_bootView (c n d : Nat) (p : Option (BitVec 6)) (a : DWord) (b : Word) (s : State) :
    (machineEvent c n d p a b s).bootView = s.bootView := by
  rw [machineEvent_told]; rfl

@[simp] theorem abortEvent_bootView (c : Nat) (s : State) : (abortEvent c s).bootView = s.bootView :=
  machineEvent_bootView _ _ _ _ _ _ _

@[simp] theorem updAnswer_bootView (c : Nat) (s : State) : (updAnswer c s).bootView = s.bootView := by
  unfold updAnswer
  split <;> rfl

@[simp] theorem clearSlots_bootView (s : State) : (clearSlots s).bootView = s.bootView := by
  refine List.foldlRecOn (instList s.upd.comp) _ (motive := fun a : State => a.bootView = s.bootView) rfl fun a ha i _ => ?_
  dsimp only
  split
  · exact ha
  · exact ha

@[simp] theorem updIdle_bootView (s : State) : (updIdle s).bootView = s.bootView := rfl

/-- The end of an update, or of its instances' bounds, has no part in what bring-up finds. -/
@[simp] theorem updBreak_bootView (c : Nat) (s : State) : (updBreak c s).bootView = s.bootView := by
  unfold updBreak abortUpdate
  dsimp only
  split
  · rw [updIdle_bootView]
    split <;> simp
  · rfl

/-- A restart has taken effect: stage 2 runs, and every partition, ring and column is empty. What columns hold then is the model's
choice (log 96). -/
def Restarted (t : State) : Prop :=
  t.boot.powered = true ∧ t.boot.stage = 2 ∧ t.boot.st = 0 ∧ t.parts = [] ∧ t.rings = [] ∧ t.cols = []

/-- What an answer may change leaves a restart in effect. -/
theorem Restarted.answered {s t : State} (hs : Restarted s) (h : t = answered s t) : Restarted t := by
  rw [h]; exact hs

/-- Stage 2 begun on a powered machine that bring-up has emptied is a restart in effect. -/
theorem beginStage_two_restarted (s : State) (hpower : s.boot.powered = true) (hst : s.boot.st = 0) (hparts : s.parts = [])
    (hrings : s.rings = []) (hcols : s.cols = []) : Restarted (beginStage 2 s) := by
  obtain ⟨kboot, kparts, krings, kcols⟩ := foldl_closeContactor_keeps (List.range 18) (stageBegun 2 s)
  rw [beginStage_two, Restarted, kboot, kparts, krings, kcols]
  exact ⟨hpower, rfl, hst, hparts, hrings, hcols⟩

theorem restart_restarted (s : State) : Restarted (restart s) := by
  unfold restart
  dsimp only
  generalize s.partIds.foldl (fun a p => windPart p .cut false a) s = s1
  have hview := updBreak_bootView 20 (anew false s1)
  simp only [State.bootView, Prod.mk.injEq] at hview
  obtain ⟨hboot, hparts, hrings, hcols⟩ := hview
  exact beginStage_two_restarted _ (congrArg Boot.powered hboot) (congrArg Boot.st hboot) hparts hrings hcols

theorem restartReg_wrong_value (val : Word) (s : State) (h : Fld val 0 16 ≠ 0xA96) : restartReg val s = .error 3 := if_pos h

theorem restartReg_no_majority (val : Word) (s : State) (h : Fld val 0 16 = 0xA96) (hm : s.majority = false) :
    restartReg val s = .error 5 := by
  simp [restartReg, h, hm]

theorem restartReg_ok (val : Word) (s : State) (h : Fld val 0 16 = 0xA96) (hm : s.majority = true) :
    restartReg val s = .ok (restart s) := by
  simp [restartReg, h, hm]

/-- MACH_RESTART from the window: another value, or no majority, is ignored (Table 5-2). -/
theorem runs_restart_window (s : State) (port : BitVec 4) (val : Word) (hw : s.takesWrites = true) :
    (Fld val 0 16 ≠ 0xA96 → Runs (.restart (.window port) val) s (fun t => t = ignoreAcc 3 port.toNat 0 true 0x410 false s)) ∧
    (Fld val 0 16 = 0xA96 → s.majority = false → Runs (.restart (.window port) val) s (fun t =>
      t = ignoreAcc 5 port.toNat 0 true 0x410 false s)) ∧
    (Fld val 0 16 = 0xA96 → s.majority = true → Runs (.restart (.window port) val) s Restarted) := by
  refine ⟨fun hval => ⟨_, exec_restart (.window port) val s, ?_⟩, fun hval hmaj => ⟨_, exec_restart (.window port) val s, ?_⟩,
    fun hval hmaj => ⟨_, exec_restart (.window port) val s, ?_⟩⟩
  · rw [restartOrder, restartReg_wrong_value val s hval, regOp_error _ _ _ _ _ hw, illegal]
  · rw [restartOrder, restartReg_no_majority val s hval hmaj, regOp_error _ _ _ _ _ hw, illegal]
  · rw [restartOrder, restartReg_ok val s hval hmaj, regOp_ok _ _ _ _ _ hw]
    exact (restart_restarted s).answered (answered_of_told (told_of_logged (setupNote_logged _ _ _ _)))

theorem runs_restart_mgmt (s : State) (m : Mgmt) (val : Word) (hmaj : s.majority = true) :
    Runs (.restart (.mgmt m) val) s Restarted := by
  refine ⟨_, exec_restart (.mgmt m) val s, ?_⟩
  rw [restartOrder, hmaj]
  exact (restart_restarted _).answered (answerM_answered m 200 0 [] _)

/-! ### The oscillators (R69) -/

theorem exec_oscillatorFailure (s : State) : exec .oscillatorFailure s = .next (oscFails s) := rfl

/-- The sources that have failed once the active crystal has. -/
def State.oscBad (s : State) : BitVec 2 := s.win.oscFailed ||| (if s.win.osc = 0 then 1 else 2)

/-- The source that takes over: the other crystal, or the internal oscillator once both have failed. -/
def State.oscNext (s : State) : BitVec 2 := if s.oscBad = 3 then 2 else if s.win.osc = 0 then 1 else 0

/-- The active crystal's failure changes the source in use, the sources failed, and what an event may. -/
theorem oscFails_eq (s : State) (h : s.win.osc ≠ 2) :
    oscFails s = { told s (oscFails s) with win := { s.win with osc := s.oscNext, oscFailed := s.oscBad } } := by
  rw [oscFails, if_neg h]
  exact machineEvent_told _ _ _ _ _ _ { s with win := { s.win with osc := s.oscNext, oscFailed := s.oscBad } }

theorem runs_oscillatorFailure (s : State) (h : s.win.osc ≠ 2) : Runs .oscillatorFailure s (fun t =>
    t = { told s t with win := { s.win with osc := t.win.osc, oscFailed := t.win.oscFailed } } ∧
    (s.win.osc = 0 → s.win.oscFailed = 0 → t.win.osc = 1) ∧ (s.win.osc = 1 → s.win.oscFailed = 1 → t.win.osc = 2)) := by
  have hwin : (oscFails s).win = { s.win with osc := s.oscNext, oscFailed := s.oscBad } := congrArg State.win (oscFails_eq s h)
  refine ⟨_, exec_oscillatorFailure s, ?_⟩
  beta_reduce
  rw [hwin]
  refine ⟨oscFails_eq s h, fun hosc hbad => ?_, fun hosc hbad => ?_⟩
  · simp [State.oscNext, State.oscBad, hosc, hbad]
  · simp [State.oscNext, State.oscBad, hosc, hbad]

/-! ### O44 -/

/-- Settles O44: each clause by the branch its operation takes, with the frame of the event, record or answer it ends in; a restart
by the empty tables that `anew` gives, which the end of an update and the closing of contactors leave alone. -/
theorem calibrationHoldRestartAndOscillators : Obligations.CalibrationHoldRestartAndOscillators := by
  unfold Obligations.CalibrationHoldRestartAndOscillators
  exact ⟨fun s w d ceil n hruns hstage halive =>
      ⟨runs_calibrationLoopEnd s w d ceil n hruns hstage halive, runs_coldWaitTimeout_stage s w d hruns hstage halive⟩,
    runs_coldWaitTimeout_tests, runs_transportSwitch, runs_bootAck_window, runs_bootAck_mgmt, runs_restart_window,
    runs_restart_mgmt, runs_oscillatorFailure⟩

end Sys2Proof.Machine
end

section
/-! PROOFS. What a command's work leaves of the commands that rings have dispatched: writes, sends and counts leave them as they
are, and a command's own change reads back with the poisoned units noted in it. -/

namespace Sys2Proof.Machine

/-! ### Rings keep their dispatched commands -/

/-- The commands each ring has dispatched and not yet counted (R255). -/
def State.dispatched (s : State) : Nat → List Cmd := fun q => (s.ring q).cmds

theorem cmd?_of_dispatched {s t : State} (h : t.dispatched = s.dispatched) (r : Nat) (seq : DWord) :
    t.cmd? r seq = s.cmd? r seq := congrArg (List.find? _) (congrFun h r)

/-- A fold of operations that keep a view of the state keeps it. -/
theorem foldl_keeps {α γ : Type} (v : State → γ) (f : State → α → State) (hf : ∀ a x, v (f a x) = v a) (l : List α)
    (s : State) : v (l.foldl f s) = v s :=
  l.foldlRecOn f (motive := fun a => v a = v s) rfl (fun a ha x _ => (hf a x).trans ha)

@[simp] theorem setCore_dispatched (s : State) (n : Nat) (v : Core) : (s.setCore n v).dispatched = s.dispatched := rfl

theorem setRing_dispatched (s : State) (n : Nat) (v : Ring) (h : v.cmds = (s.ring n).cmds) :
    (s.setRing n v).dispatched = s.dispatched := by
  funext q
  by_cases hq : q = n
  · rw [hq, State.dispatched, setRing_self]; exact h
  · rw [State.dispatched, setRing_ne _ _ hq]; rfl

@[simp] theorem deliver_dispatched (n : Nat) (e : Event) (s : State) : (deliver n e s).dispatched = s.dispatched := by
  rw [deliver_told]; rfl

@[simp] theorem writeScratch_dispatched (s : State) (k a : Nat) (b : List Byte) :
    (s.writeScratch k a b).dispatched = s.dispatched := rfl

@[simp] theorem foldl_writeScratch_dispatched {α : Type} (key : Nat) (pos : α → Nat) (b : α → List Byte) (l : List α)
    (s : State) : (l.foldl (fun a x => a.writeScratch key (pos x) (b x)) s).dispatched = s.dispatched :=
  foldl_keeps State.dispatched _ (fun _ _ => writeScratch_dispatched _ _ _ _) l s

@[simp] theorem rearm_dispatched (w i : Nat) (s : State) : (rearm w i s).dispatched = s.dispatched := rfl

@[simp] theorem inject_dispatched (p : Packet) (s : State) : (inject p s).dispatched = s.dispatched := rfl

@[simp] theorem countRefused_dispatched (w : Nat) (s : State) : (countRefused w s).dispatched = s.dispatched := by
  unfold countRefused; split <;> rfl

@[simp] theorem rekeyUnit_dispatched (k u : Nat) (s : State) : (rekeyUnit k u s).dispatched = s.dispatched := by
  rw [rekeyUnit_frame]; rfl

@[simp] theorem putColumn_dispatched (k key : Nat) (b : List Byte) (s : State) :
    (putColumn k key b s).dispatched = s.dispatched :=
  foldl_keeps State.dispatched _ (fun a u => rekeyUnit_dispatched k u a) _ s

@[simp] theorem gateWrite_dispatched (who : Who) (w key : Nat) (b : List Byte) (s : State) :
    (gateWrite who w key b s).2.dispatched = s.dispatched := by
  unfold gateWrite
  split
  · rfl
  · split
    · rfl
    · split
      · exact countRefused_dispatched w s
      · split
        · rfl
        · exact putColumn_dispatched _ _ _ _

@[simp] theorem lateFault_dispatched (who : Who) (h : Option Nat) (c l a : Nat) (s : State) :
    (lateFault who h c l a s).dispatched = s.dispatched := by
  unfold lateFault
  dsimp only
  split
  · rfl
  · rw [deliver_dispatched]
    exact setRing_dispatched _ _ _ rfl

@[simp] theorem landWrite_dispatched (who : Who) (w key a : Nat) (b : List Byte) (s : State) :
    (landWrite who w key a b s).2.dispatched = s.dispatched := by
  unfold landWrite
  dsimp only
  split <;> simp

@[simp] theorem postWrite_dispatched (who : Who) (m : List Nat) (src : Place) (f : Bool) (a : Nat) (b : List Byte) (s : State) :
    (postWrite who m src f a b s).dispatched = s.dispatched := by
  unfold postWrite
  dsimp only
  split <;> simp

@[simp] theorem postAll_dispatched (who : Who) (m : List Nat) (src : Place) (f : Bool) (ws : List (Nat × List Byte)) (s : State) :
    (postAll who m src f ws s).dispatched = s.dispatched :=
  foldl_keeps State.dispatched _ (fun a _ => postWrite_dispatched who m src f _ _ a) _ s

@[simp] theorem contribute_dispatched (who : Who) (src dst : Place) (k q n : Nat) (l : List (Nat × List Byte)) (s : State) :
    (contribute who src dst k q n l s).dispatched = s.dispatched :=
  foldl_keeps State.dispatched _ (fun a _ => inject_dispatched _ a) _ s

@[simp] theorem sendTile_dispatched (r : Nat) (c : Cmd) (a : TileAt) (t : Nat) (u : Mu) (ws : List (Nat × List Byte)) (s : State) :
    (sendTile r c a t u ws s).dispatched = s.dispatched := by
  unfold sendTile
  dsimp only
  split
  · rfl
  · split
    · rfl
    · exact contribute_dispatched _ _ _ _ _ _ _ _

/-! ### A command's own change -/

theorem modCmd_cmd? {s : State} {r : Nat} {seq : DWord} {c : Cmd} (f : Cmd → Cmd) (hf : ∀ d, (f d).seq = d.seq)
    (h : s.cmd? r seq = some c) : (modCmd r seq f s).cmd? r seq = some (f c) := by
  have hkeep : (fun d : Cmd => d.seq == seq) ∘ (fun d => if d.seq = seq then f d else d) = fun d => d.seq == seq := by
    funext d
    by_cases hd : d.seq = seq <;> simp [hd, hf]
  have hseq : c.seq = seq := by simpa using List.find?_some h
  have hfind : (s.ring r).cmds.find? (fun d => d.seq == seq) = some c := h
  rw [State.cmd?, modCmd, setRing_self, List.find?_map, hkeep, hfind, Option.map_some, if_pos hseq]

/-- Poisoned units met by a command's reads are noted in the command, and nothing else of it changes (R697). -/
theorem reportPoison_cmd? (r : Nat) (seq : DWord) (m : List Nat) (l : List (Nat × Nat)) {s : State} {c : Cmd}
    (h : s.cmd? r seq = some c) : ∃ p, (reportPoison r seq m l s).cmd? r seq = some { c with poisoned := p } := by
  unfold reportPoison
  split
  · exact ⟨_, h⟩
  · dsimp only
    refine s.badUnits.foldlRecOn _ (motive := fun a : State => ∃ p, a.cmd? r seq = some { c with poisoned := p }) ⟨_, h⟩ ?_
    rintro a ⟨p, ha⟩ u -
    split
    · exact ⟨p, ha⟩
    · have hcount : State.cmd? { a with flt := { a.flt with poisonReads := satInc a.flt.poisonReads } } r seq =
          some { c with poisoned := p } := ha
      rw [hcount]
      dsimp only
      split
      · exact ⟨p, hcount⟩
      · exact ⟨_, modCmd_cmd? (c := { c with poisoned := p }) _ (fun _ => rfl)
          ((cmd?_of_dispatched (deliver_dispatched _ _ _) r seq).trans hcount)⟩

theorem reportPoison_cols (r : Nat) (seq : DWord) (m : List Nat) (l : List (Nat × Nat)) (s : State) :
    (reportPoison r seq m l s).cols = s.cols := by
  unfold reportPoison
  split
  · rfl
  · refine foldl_keeps State.cols _ (fun a u => ?_) _ s
    dsimp only
    split
    · rfl
    · split
      · split
        · rfl
        · rw [modCmd, setRing_cols, deliver_told]; rfl
      · rfl

theorem modCmd_cols (r : Nat) (seq : DWord) (f : Cmd → Cmd) (s : State) : (modCmd r seq f s).cols = s.cols := rfl

theorem countRefused_cols (w : Nat) (s : State) : (countRefused w s).cols = s.cols := by
  unfold countRefused; split <;> rfl

/-- Counting the refused requests of a load keeps whatever counting one does. -/
theorem countReads_keeps {γ : Type} (v : State → γ) (hv : ∀ w a, v (countRefused w a) = v a) (m : List Nat)
    (l : List (Nat × Nat)) (s : State) : v (countReads m l s) = v s := by
  refine foldl_keeps v _ (fun a x => foldl_keeps v _ (fun b q => ?_) _ a) l s
  dsimp only
  split
  · rfl
  · exact hv _ b

/-- A command's own change, with the poisoned units its reads met noted in it: the end of each piece of its work (R697). -/
theorem reportPoison_modCmd_cmd? {s a : State} {r : Nat} {seq : DWord} {c : Cmd} (m : List Nat) (l : List (Nat × Nat))
    (f : Cmd → Cmd) (hf : ∀ d, (f d).seq = d.seq) (hc : s.cmd? r seq = some c) (ha : a.dispatched = s.dispatched) :
    ∃ p, (reportPoison r seq m l (modCmd r seq f a)).cmd? r seq = some { f c with poisoned := p } :=
  reportPoison_cmd? r seq m l (modCmd_cmd? f hf ((cmd?_of_dispatched ha r seq).trans hc))

/-- A row tile, or a member of a reduction, is noted among the pieces that have ended (R282). -/
theorem pieceEnd_cmd? {s a : State} {r : Nat} {seq : DWord} {c : Cmd} (m : List Nat) (l : List (Nat × Nat)) (i : Nat) (fl : Word)
    (hc : s.cmd? r seq = some c) (ha : a.dispatched = s.dispatched) :
    ∃ d, (reportPoison r seq m l
      (modCmd r seq (fun d => { d with ended := d.ended ++ [i], flags := d.flags ||| fl }) a)).cmd? r seq = some d ∧ i ∈ d.ended := by
  obtain ⟨p, hp⟩ := reportPoison_modCmd_cmd? m l (fun d => { d with ended := d.ended ++ [i], flags := d.flags ||| fl })
    (fun _ => rfl) hc ha
  exact ⟨_, hp, by simp⟩

end Sys2Proof.Machine
end

section
/-! PROOFS. The pieces of a command's work (O26): table loads, handovers, epilogues, spilled followers, row tiles and the fold of
FX_REDUCE. -/

namespace Sys2Proof.Machine

/-! ### Table loads (R146) -/

theorem exec_tableLoadComplete (s : State) (r : BitVec 12) (seq : DWord) (g : Nat) (core : BitVec 4) :
    exec (.tableLoadComplete r seq g core) s = .next (tableLoad r.toNat seq g core.toNat s) := rfl

/-- The writes of a table load (the tables of LUT1, that of LUT3, then the vectors) keep what no change of a core touches. -/
theorem tableRegion_keeps {γ : Type} (v : State → γ) (hv : ∀ a k x, v (State.setCore a k x) = v a) (key : Nat)
    (l1 : List (List Byte × Nat)) (l3 : List (List Byte)) (vec : List Byte) (s : State) :
    let s2 := l3.foldl (fun a b => a.writeScratch key 0x380000 b)
      (l1.foldl (fun a x => a.writeScratch key (0x3F0000 + x.2 * 16384) x.1) s)
    v (if vec.isEmpty then s2 else s2.writeScratch key 0x3C8000 vec) = v s := by
  intro s2
  have h2 : v s2 = v s := (foldl_keeps v _ (fun _ _ => hv _ _ _) _ _).trans (foldl_keeps v _ (fun _ _ => hv _ _ _) _ _)
  split
  · exact h2
  · exact (hv _ _ _).trans h2

theorem runs_tableLoadComplete (s : State) (r : BitVec 12) (seq : DWord) (c : Cmd) (isle : Nat) (core : BitVec 4)
    (hc : s.cmd? r.toNat seq = some c) (hrun : c.done = false) (hop : opOf c.bytes = some .mxGemm)
    (hloads : (recipeOf c.recipe).loads = true) (hnew : c.blobs? isle core.toNat = none)
    (hup : s.paused (placeOf c.mods isle).w = false)
    (hplace : c.place.any (fun x => x.1 == isle && x.2.2.contains core.toNat) = true) :
    Runs (.tableLoadComplete r seq isle core) s (fun t =>
      ∃ d, t.cmd? r.toNat seq = some d ∧ d.loaded.any (fun x => x.1 == isle * 16 + core.toNat) = true ∧ t.cols = s.cols) := by
  refine ⟨_, exec_tableLoadComplete s r seq isle core, ?_⟩
  unfold tableLoad
  rw [hc]
  dsimp only
  rw [hplace, if_neg (by simp [hrun, hop, hloads, hnew, hup]), countReads_keeps State.cols countRefused_cols, reportPoison_cols,
    modCmd_cols, cmd?_of_dispatched (countReads_keeps State.dispatched countRefused_dispatched _ _ _)]
  refine (reportPoison_modCmd_cmd? _ _ _ ?_ hc ?_).elim (fun p hp => ⟨_, hp, ?_, ?_⟩)
  · exact fun _ => rfl
  · exact tableRegion_keeps State.dispatched setCore_dispatched _ _ _ _ s
  · simp
  · exact tableRegion_keeps State.cols (fun _ _ _ => rfl) _ _ _ _ s

/-! ### Handovers (R117, R150, R151) -/

theorem exec_mxTileHandover (s : State) (r : BitVec 12) (seq : DWord) (t : Nat) :
    exec (.mxTileHandover r seq t) s = .next (mxHandover r.toNat seq t s) := rfl

/-- No uncorrectable word in a core's scratch, none in any part of it. -/
theorem scratchBad_of_none (s : State) (key a len : Nat) (h : (s.core key).badWords = []) : s.scratchBad key a len = false := by
  rw [State.scratchBad, h]; rfl

theorem runs_mxTileHandover (s : State) (r : BitVec 12) (seq : DWord) (c : Cmd) (tile : Nat)
    (hc : s.cmd? r.toNat seq = some c) (hcan : canHandover s c tile = true) (hchain : chainReady s r.toNat c = true)
    (hgood : (recipeOf c.recipe).heldIn = false ∨ (s.core (gemmTileAt s c tile).key).badWords = [])
    (hup : s.tilePaused (gemmTileAt s c tile).place r.toNat seq tile = false) :
    Runs (.mxTileHandover r seq tile) s (fun t =>
      ∃ d, t.cmd? r.toNat seq = some d ∧ d.handed.any (fun x => x.1 == tile) = true ∧ t.cols = s.cols) := by
  refine ⟨_, exec_mxTileHandover s r seq tile, ?_⟩
  have hread : ∀ o : Option (Nat × Nat), ((recipeOf c.recipe).heldIn &&
      o.elim false (fun p => s.scratchBad (gemmTileAt s c tile).key p.1 p.2)) = false := by
    intro o
    rcases hgood with hout | hwords
    · rw [hout, Bool.false_and]
    · cases o <;> simp [scratchBad_of_none _ _ _ _ hwords]
  unfold mxHandover
  rw [hc]
  dsimp only
  rw [if_neg (by simp [hcan, hchain, hup]), if_neg (by rw [hread]; exact Bool.false_ne_true), reportPoison_cols, modCmd_cols]
  refine (reportPoison_modCmd_cmd? _ _ _ ?_ hc ?_).elim (fun p hp => ⟨_, hp, ?_, rfl⟩)
  · exact fun _ => rfl
  · exact setCore_dispatched s _ _
  · simp

/-! ### Epilogues (R149, R150) -/

theorem exec_epilogueEnd (s : State) (r : BitVec 12) (seq : DWord) (t : Nat) :
    exec (.epilogueEnd r seq t) s = .next (mxEpilogue r.toNat seq t s) := rfl

theorem runs_epilogueEnd (s : State) (r : BitVec 12) (seq : DWord) (c : Cmd) (tile : Nat)
    (hc : s.cmd? r.toNat seq = some c) (hrun : c.done = false) (hup : s.paused (gemmTileAt s c tile).place.w = false)
    (hfirst : (c.handed.find? (fun x => (gemmTileAt s c x.1).key == (gemmTileAt s c tile).key)).map (·.1) = some tile) :
    Runs (.epilogueEnd r seq tile) s (fun t =>
      ∃ d, t.cmd? r.toNat seq = some d ∧ tile ∈ d.ended ∧ d.handed.any (fun x => x.1 == tile) = false) := by
  refine ⟨_, exec_epilogueEnd s r seq tile, ?_⟩
  obtain ⟨x, hx, hxt⟩ := Option.map_eq_some_iff.1 hfirst
  obtain ⟨⟨u, acc, fb⟩, hy⟩ := Option.isSome_iff_exists.1
    (List.find?_isSome.2 ⟨x, List.mem_of_find?_eq_some hx, beq_iff_eq.2 hxt⟩ : (c.handed.find? (fun h => h.1 == tile)).isSome)
  unfold mxEpilogue
  rw [hc]
  dsimp only
  rw [hy]
  dsimp only
  rw [if_neg (by simp [hrun, hup, hx, hxt])]
  refine (reportPoison_modCmd_cmd? _ _ _ ?_ hc ?_).elim (fun p hp => ⟨_, hp, ?_, ?_⟩)
  · exact fun _ => rfl
  · split <;> simp
  · simp
  · simp

/-! ### Spilled followers (R151) -/

theorem exec_spilledFollowerStart (s : State) (r : BitVec 12) (seq : DWord) :
    exec (.spilledFollowerStart r seq) s = .next (spillStart r.toNat seq s) := rfl

theorem runs_spilledFollowerStart (s : State) (r : BitVec 12) (seq : DWord) (c : Cmd) (hc : s.cmd? r.toNat seq = some c)
    (hwait : c.waitSpill = true) (hfly : s.writesFly r.toNat (seq - 1) = false)
    (hrerun : ∀ d ∈ (s.ring r.toNat).cmds, d.rerun = false ∨ d.done = true)
    (hup : s.leadPaused (s.ring r.toNat).ctx.part = false) :
    Runs (.spilledFollowerStart r seq) s (fun t =>
      ∃ d, t.cmd? r.toNat seq = some d ∧ d = { c with waitSpill := false } ∧ t = { s with rings := t.rings }) := by
  refine ⟨_, exec_spilledFollowerStart s r seq, ?_⟩
  have hnone : (s.ring r.toNat).cmds.any (fun d => d.rerun && !d.done) = false := by
    rw [List.any_eq_false]
    intro d hd
    rcases hrerun d hd with h | h <;> simp [h]
  unfold spillStart
  rw [hc]
  dsimp only
  rw [if_pos (by simp only [hwait, hfly, hnone, hup]; rfl)]
  exact ⟨_, modCmd_cmd? _ (fun _ => rfl) hc, rfl, rfl⟩

/-! ### Row tiles (R302) -/

theorem exec_vxTileEnd (s : State) (r : BitVec 12) (seq : DWord) (t : Nat) :
    exec (.vxTileEnd r seq t) s = .next (vxEnd r.toNat seq t s) := rfl

theorem runs_vxTileEnd (s : State) (r : BitVec 12) (seq : DWord) (c : Cmd) (tile : Nat) (hc : s.cmd? r.toNat seq = some c)
    (hrun : c.done = false) (htile : tile < vxTiles c) (hopen : c.openTile tile = true) (hturn : vxEarlier c tile = false)
    (hup : s.tilePaused (vxPlace c tile) r.toNat seq tile = false)
    (hop : opOf c.bytes = some .vxElt ∨ opOf c.bytes = some .vxReduce ∨ opOf c.bytes = some .vxCombine) :
    Runs (.vxTileEnd r seq tile) s (fun t => ∃ d, t.cmd? r.toNat seq = some d ∧ tile ∈ d.ended) := by
  refine ⟨_, exec_vxTileEnd s r seq tile, ?_⟩
  unfold vxEnd
  rw [hc]
  dsimp only
  rw [if_neg (by simp [hrun, htile, hopen, hturn, hup])]
  rcases hop with h | h | h
  · simp only [h]
    exact pieceEnd_cmd? _ _ _ _ hc (postAll_dispatched _ _ _ _ _ _)
  · simp only [h]
    exact pieceEnd_cmd? _ _ _ _ hc (postAll_dispatched _ _ _ _ _ _)
  · simp only [h]
    rw [cmd?_of_dispatched (countReads_keeps State.dispatched countRefused_dispatched _ _ _)]
    exact pieceEnd_cmd? _ _ _ _ hc (postAll_dispatched _ _ _ _ _ _)

/-! ### The fold of FX_REDUCE (R419) -/

theorem exec_fxReduceFold (s : State) (r : BitVec 12) (seq : DWord) (m : Nat) :
    exec (.fxReduceFold r seq m) s = .next (reduceFold r.toNat seq m s) := rfl

theorem waiting_eq_some {s : State} {r : Nat} {seq : DWord} {op : Op} {c : Cmd} (hc : s.cmd? r seq = some c)
    (hrun : c.done = false) (hop : opOf c.bytes = some op) (hup : s.leadPaused (s.ring r).ctx.part = false) :
    s.waiting r seq op = some c := by
  simp [State.waiting, hc, hrun, hop, hup]

theorem runs_fxReduceFold (s : State) (r : BitVec 12) (seq : DWord) (c : Cmd) (m : Nat) (hc : s.cmd? r.toNat seq = some c)
    (hrun : c.done = false) (hop : opOf c.bytes = some .fxReduce) (hm : m < c.mods.length) (hopen : m ∉ c.ended)
    (hlead : s.leadPaused (s.ring r.toNat).ctx.part = false) (hup : s.paused (c.mods.getD m 0) = false)
    (hall : (groupOf (c.box.getD ⟨0, 0, 0, 0, 0, 0⟩) (fxRedOf c.bytes).axes c.mods.length m).length - 1 ≤
      (s.ctr (ctrKey (c.mods.getD m 0) (fxRedOf c.bytes).counter)).count) :
    Runs (.fxReduceFold r seq m) s (fun t => ∃ d, t.cmd? r.toNat seq = some d ∧ m ∈ d.ended) := by
  refine ⟨_, exec_fxReduceFold s r seq m, ?_⟩
  unfold reduceFold
  rw [waiting_eq_some hc hrun hop hlead]
  dsimp only
  rw [if_neg (by rw [hup]; exact Bool.false_ne_true), if_pos ⟨hm, by simpa using hopen, hall⟩]
  exact pieceEnd_cmd? _ _ _ _ hc (by rw [rearm_dispatched, postAll_dispatched])

/-! ### O26 -/

/-- Settles O26: each piece of work passes its guards, and ends in the command's own change, which the frame of the writes, sends
and counts before it and of the poisoned units noted after it leaves in place. -/
theorem tileWorkAdvances : Obligations.TileWorkAdvances := by
  unfold Obligations.TileWorkAdvances
  intro s r seq c tile isle m core hc
  exact ⟨runs_tableLoadComplete s r seq c isle core hc, runs_mxTileHandover s r seq c tile hc, runs_epilogueEnd s r seq c tile hc,
    runs_spilledFollowerStart s r seq c hc, runs_vxTileEnd s r seq c tile hc, runs_fxReduceFold s r seq c m hc⟩

end Sys2Proof.Machine
end

section
/-! PROOFS. Fences below 0.70 V (O27): at which module one becomes due. -/

namespace Sys2Proof.Machine

theorem exec_coreFence (s : State) (w : Fin 96) (die isle : BitVec 2) (core cause : BitVec 4) :
    exec (.coreFence w die isle core cause) s = .next (if cause = 1 ∨ cause = 2 ∨ cause = 5 then
      detectedFault w.val die.toNat isle.toNat core.toNat cause.toNat s else s) := rfl

/-- Below 0.70 V a detected fault only makes the fence due (R713). -/
theorem detectedFault_paused (w die isle c cause : Nat) (s : State) (hserves : s.modServing w = true)
    (hcore : c ∈ (s.isle (isleKey w die isle)).cores) (hlow : s.paused w = true) :
    detectedFault w die isle c cause s = fenceDue (s.coreKey (isleKey w die isle) c) cause s := by
  simp [detectedFault, hserves, hcore, hlow]

/-- A fence becomes due at the module that the core's key names, and at no other. -/
theorem fenceDue_mod_ne (key cause : Nat) (s : State) {v : Nat} (h : v ≠ key / 17 / 16) :
    (fenceDue key cause s).mod v = s.mod v := by
  unfold fenceDue
  dsimp only
  split
  · rfl
  · exact setMod_ne s _ h

/-- Module 0 below 0.70 V, with the built position of a core of its first isle recorded as 272: past the 17 positions of each of
the module's 16 isles, so that the core's key is one of module 1. -/
def positionPastModule : State := { State.reset with
  isles := [(0, { pos := [(0, 272)] })]
  pwr := { State.reset.pwr with mods := [(0, { vset := 620 })] } }

/-- Refutes O27: its second clause bounds no core's built position. The model itself writes no other position than 16 into that
table, but the statement is of every state; where the position recorded for a core lies past its module's, `fenceDue` notes the
fence at another module, and none is due at the core's own. -/
theorem not_fencesMoveTheNumberToTheSpare : ¬ Obligations.FencesMoveTheNumberToTheSpare := by
  unfold Obligations.FencesMoveTheNumberToTheSpare
  intro h
  obtain ⟨-, hdue, -⟩ := h positionPastModule 0 0 0 0 1 0 0
  have hserves : positionPastModule.modServing 0 = true := by decide
  have hcore : 0 ∈ (positionPastModule.isle (isleKey 0 0 0)).cores := by decide
  have hlow : positionPastModule.paused 0 = true := by decide
  have hkey : positionPastModule.coreKey (isleKey 0 0 0) 0 = 272 := by decide
  obtain ⟨t, ht, -, hne⟩ := hdue hserves hcore hlow (.inl rfl)
  rw [exec_coreFence, if_pos (.inl rfl)] at ht
  have hstate : detectedFault 0 0 0 0 1 positionPastModule = t := Host.Outcome.next.inj ht
  rw [← hstate, detectedFault_paused 0 0 0 0 1 _ hserves hcore hlow, hkey] at hne
  exact hne (congrArg Mod.fenceDue (fenceDue_mod_ne 272 1 positionPastModule (by decide)))

end Sys2Proof.Machine
end

section
/-! PROOFS. The set-up window (O5, O6, O7, O8): where an offset leads, which accesses are refused, and what a legal write of a stored
register and of a pair's halves does. -/

namespace Sys2Proof.Machine

open Sys2Proof

/-! ### Decoding (R168) -/

/-- Of blocks that follow one another, the one that contains an offset is found. -/
theorem find?_block_of_contains {l : List Block} (hl : l.Pairwise (fun x y => x.base + x.size ≤ y.base)) {b : Block} (hb : b ∈ l)
    {a : Nat} (hlo : b.base ≤ a) (hhi : a < b.base + b.size) :
    l.find? (fun c => decide (c.base ≤ a) && decide (a < c.base + c.size)) = some b := by
  induction l with
  | nil => cases hb
  | cons c l ih =>
    rw [List.pairwise_cons] at hl
    obtain ⟨hc, hl⟩ := hl
    rcases List.mem_cons.1 hb with rfl | hb
    · exact List.find?_cons_of_pos (by simp [hlo, hhi])
    · have := hc b hb
      rw [List.find?_cons_of_neg (by simp; omega), ih hl hb]

theorem blocks_disjoint : blocks.Pairwise (fun x y => x.base + x.size ≤ y.base) := by decide

/-- R168, with the block's own numbers of pages and words. -/
theorem canon_of_mem {b : Block} (hb : b ∈ blocks) {a : Nat} (hlo : b.base ≤ a) (hhi : a < b.base + b.size) :
    canon a = some (b.base + (a - b.base) / 4096 % b.pages * 4096 + a / 4 % b.words * 4) := by
  rw [canon, find?_block_of_contains blocks_disjoint hb hlo hhi]
  rfl

/-- Table 5-1 as the statement O5 lists it: base, size, pages and word mask, but for the MOD block. -/
def table51 : List (Nat × Nat × Nat × Nat) := [
  (0x0000000, 0x10000, 1, 0x3FF), (0x0010000, 0x10000, 16, 0xFF), (0x0020000, 0x10000, 16, 0xFF),
  (0x0030000, 0x10000, 4, 0xFF), (0x0040000, 0x40000, 64, 0x3FF), (0x0080000, 0x20000, 16, 0xFF),
  (0x00A0000, 0x10000, 2, 0xFF), (0x00B0000, 0x10000, 16, 0xFF), (0x00C0000, 0x10000, 4, 0xFF),
  (0x00D0000, 0x20000, 32, 0xFF), (0x00F0000, 0x10000, 8, 0x3FF), (0x0100000, 0x10000, 8, 0x3FF),
  (0x0110000, 0x10000, 1, 0xFF), (0x0120000, 0x10000, 2, 0xFF), (0x0130000, 0x10000, 4, 0xFF)]

/-- Its blocks are the model's, and their pages and words are powers of two, so that a mask takes a remainder. -/
theorem table51_blocks : ∀ t ∈ table51, (⟨t.1, t.2.1, t.2.2.1, t.2.2.2 + 1⟩ : Block) ∈ blocks ∧
    (∃ i < 7, t.2.2.1 = 2 ^ i) ∧ ∃ j < 11, t.2.2.2 + 1 = 2 ^ j := by decide

theorem and_mask_eq_mod {m k : Nat} (h : m + 1 = 2 ^ k) (x : Nat) : x &&& m = x % (m + 1) := by
  rw [h, ← Nat.and_two_pow_sub_one_eq_mod, ← h, Nat.add_sub_cancel]

theorem canon_of_table51 {base size pages mask a : Nat} (ht : (base, size, pages, mask) ∈ table51) (hlo : base ≤ a)
    (hhi : a < base + size) :
    canon a = some (base + (((a - base) >>> 12) &&& (pages - 1)) * 4096 + ((a >>> 2) &&& mask) * 4) := by
  obtain ⟨hb, ⟨i, -, hi⟩, j, -, hj⟩ := table51_blocks _ ht
  dsimp only at hb hi hj
  rw [canon_of_mem hb hlo hhi, and_mask_eq_mod hj, hi, Nat.and_two_pow_sub_one_eq_mod, Nat.shiftRight_eq_div_pow,
    Nat.shiftRight_eq_div_pow]

theorem canon_mod_window {a : Nat} (hlo : 0x1000000 ≤ a) (hhi : a < 0x1C00000) :
    canon a = some (0x1000000 + ((a - 0x1000000) >>> 17) * 0x20000 + (((a - 0x1000000) >>> 12) &&& 0x1F) * 4096 +
      ((a >>> 2) &&& 0xFF) * 4) := by
  have hb : (⟨0x1000000, 0xC00000, 3072, 256⟩ : Block) ∈ blocks := by decide
  rw [canon_of_mem hb hlo hhi, and_mask_eq_mod (k := 8) rfl, and_mask_eq_mod (k := 5) rfl, Nat.shiftRight_eq_div_pow,
    Nat.shiftRight_eq_div_pow, Nat.shiftRight_eq_div_pow]
  congr 1
  dsimp only
  omega

theorem canon_outside {a : Nat} (h : (0x0140000 ≤ a ∧ a < 0x1000000) ∨ 0x1C00000 ≤ a) : canon a = none := by
  have houtside : ∀ b ∈ blocks, b.base + b.size ≤ 0x0140000 ∨ 0x1000000 ≤ b.base ∧ b.base + b.size ≤ 0x1C00000 := by decide
  rw [canon, List.find?_eq_none.2, Option.map_none]
  intro b hb
  have := houtside b hb
  simp
  omega

/-- Settles O5: each block's pages and words are powers of two, so that R168's masks take the remainders of `canon`. -/
theorem windowOffsetDecodesAsTable51 : Obligations.WindowOffsetDecodesAsTable51 :=
  ⟨fun _ _ _ _ _ ht hlo hhi => canon_of_table51 ht hlo hhi, fun _ hlo hhi => canon_mod_window hlo hhi,
    fun _ h => canon_outside h⟩

/-! ### Commands of the window -/

theorem exec_setupRegisterWrite (port : BitVec 4) (off : BitVec 26) (be : BitVec 4) (val : Word) (s : State) :
    exec (.setupRegisterWrite port off be val) s = .next (setupWrite port.toNat off.toNat be.toNat val s) := rfl

theorem exec_pairLoWrite (port : BitVec 4) (off : BitVec 26) (be : BitVec 4) (val : Word) (s : State) :
    exec (.pairLoWrite port off be val) s = .next (setupWrite port.toNat off.toNat be.toNat val s) := rfl

theorem exec_pairHiCommit (port : BitVec 4) (off : BitVec 26) (be : BitVec 4) (val : Word) (s : State) :
    exec (.pairHiCommit port off be val) s = .next (setupWrite port.toNat off.toNat be.toNat val s) := rfl

theorem exec_rcRegisterRead (port : BitVec 4) (off : BitVec 26) (be : BitVec 4) (s : State) :
    exec (.rcRegisterRead port off be) s = .next (setupRead port.toNat off.toNat be.toNat s) := rfl

theorem exec_illegalSetupRead (port fn : BitVec 4) (nudge : Bool) (off : BitVec 26) (be : BitVec 4) (s : State) :
    exec (.illegalSetupRead port fn nudge off be) s = .next (if nudge then
      nudgeRead port.toNat fn.toNat (off.toNat % 4096) be.toNat s else setupRead port.toNat off.toNat be.toNat s) := rfl

theorem exec_nudge (port fn : BitVec 4) (off : BitVec 12) (be : BitVec 4) (s : State) :
    exec (.nudge port fn off be) s = .next (nudgeWrite port.toNat fn.toNat off.toNat be.toNat s) := rfl

/-! ### Refused accesses (R171, R172, R182, R802) -/

theorem takesWrites_eq_false (s : State) (h : s.boot.again = true ∨ s.boot.powered = false) : s.takesWrites = false := by
  rcases h with h | h <;> simp [State.takesWrites, h]

section
variable {s : State} (h : s.takesWrites = false) (port fn off be : Nat)
include h

theorem setupWrite_lost (val : Word) : setupWrite port off be val s = s := by simp [setupWrite, h]

theorem setupRead_lost : setupRead port off be s = s := by simp [setupRead, h]

theorem nudgeRead_lost : nudgeRead port fn off be s = s := by simp [nudgeRead, h]

theorem nudgeWrite_lost : nudgeWrite port fn off be s = s := by simp [nudgeWrite, h]

end

section
variable {s : State} (h : s.takesWrites = true) (port fn : Nat) {off be : Nat}
include h

theorem setupWrite_subword (val : Word) (hsub : be ≠ 15 ∨ off % 4 ≠ 0) :
    setupWrite port off be val s = ignoreAcc 1 port 0 true off false s := by
  rw [setupWrite, h, if_pos hsub]; rfl

theorem setupRead_subword (hsub : be ≠ 15 ∨ off % 4 ≠ 0) :
    setupRead port off be s = emit (.readCpl port 0) (ignoreAcc 1 port 0 false off false s) := by
  rw [setupRead, h, if_pos hsub]; rfl

theorem nudgeWrite_subword (hsub : be ≠ 15 ∨ off % 4 ≠ 0) :
    nudgeWrite port fn off be s = ignoreAcc 1 port fn true off true s := by
  rw [nudgeWrite, h, if_neg (by simp), if_pos (by simpa using hsub)]

theorem nudgeRead_subword (hsub : be ≠ 15 ∨ off % 4 ≠ 0) :
    nudgeRead port fn off be s = emit (.readCpl port 0) (ignoreAcc 1 port fn false off true s) := by
  rw [nudgeRead, h, if_pos hsub]; rfl

theorem setupWrite_outside (val : Word) (hal : off % 4 = 0) (hout : canon off = none) :
    setupWrite port off 15 val s = ignoreAcc 2 port 0 true off false s := by
  rw [setupWrite, h, if_neg (by simp), if_neg (by simp [hal]), hout]; rfl

theorem setupRead_outside (hal : off % 4 = 0) (hout : canon off = none) :
    setupRead port off 15 s = emit (.readCpl port 0) (ignoreAcc 2 port 0 false off false s) := by
  rw [setupRead, h, if_neg (by simp), if_neg (by simp [hal]), hout]

end

/-- The record of an illegal access (Tables 5-2, 5-7) is all that it changes. -/
theorem ignoreAcc_record (cause port fn : Nat) (wr bar : Bool) (a : Nat) (s : State) :
    let t := ignoreAcc cause port fn wr a bar s
    t.win.ignored = (if s.win.ignored = 0xFFFFFFFF then 0xFFFFFFFF else s.win.ignored + 1) ∧
    t.win.ignLast = w32 (cause + port * 2 ^ 4 + fn * 2 ^ 8 + (if wr then 2 ^ 12 else 0)) ∧
    t.win.ignAddr = w32 (a + (if bar then 2 ^ 31 else 0)) ∧
    t = { s with win := { s.win with ignored := t.win.ignored, ignLast := t.win.ignLast, ignAddr := t.win.ignAddr } } := by
  refine ⟨?_, by cases wr <;> rfl, by cases bar <;> rfl, rfl⟩
  have hones : (0xFFFFFFFF : Word) = BitVec.allOnes 32 := by decide
  rw [hones]
  change satInc s.win.ignored = _
  unfold satInc
  split
  next hall => exact hall
  next hall => rfl

/-- Byte enables or an offset that make an access sub-word, as numbers. -/
theorem subword_toNat {w : Nat} {be : BitVec 4} {off : BitVec w} (h : be ≠ 15 ∨ off.toNat % 4 ≠ 0) :
    be.toNat ≠ 15 ∨ off.toNat % 4 ≠ 0 := h.imp_left fun hne heq => hne (BitVec.eq_of_toNat_eq heq)

/-- Settles O6: the branches of a BAR0 access and of a nudge page's, by what refuses it, and the record it leaves. -/
theorem refusedAccessesAreCounted : Obligations.RefusedAccessesAreCounted := by
  unfold Obligations.RefusedAccessesAreCounted
  intro s port fn off noff be val
  refine ⟨fun hlost => ?_, fun h => ⟨fun hsub => ?_, fun hbe hal hout => ?_, fun hsub => ?_,
    fun cause bar wr a _ _ => ignoreAcc_record cause port.toNat fn.toNat wr bar a s⟩⟩
  · have h := takesWrites_eq_false s hlost
    refine ⟨⟨_, exec_setupRegisterWrite .., setupWrite_lost h ..⟩, ⟨_, exec_pairLoWrite .., setupWrite_lost h ..⟩,
      ⟨_, exec_pairHiCommit .., setupWrite_lost h ..⟩, ⟨_, exec_rcRegisterRead .., setupRead_lost h ..⟩,
      fun bar => ⟨_, exec_illegalSetupRead .., ?_⟩, ⟨_, exec_nudge .., nudgeWrite_lost h ..⟩⟩
    cases bar with
    | true => exact nudgeRead_lost h ..
    | false => exact setupRead_lost h ..
  · have hsub := subword_toNat hsub
    exact ⟨⟨_, exec_setupRegisterWrite .., setupWrite_subword h _ _ hsub⟩, ⟨_, exec_pairLoWrite .., setupWrite_subword h _ _ hsub⟩,
      ⟨_, exec_pairHiCommit .., setupWrite_subword h _ _ hsub⟩, ⟨_, exec_rcRegisterRead .., setupRead_subword h _ hsub⟩,
      ⟨_, exec_illegalSetupRead .., setupRead_subword h _ hsub⟩⟩
  · subst hbe
    exact ⟨⟨_, exec_setupRegisterWrite .., setupWrite_outside h _ _ hal hout⟩,
      ⟨_, exec_illegalSetupRead .., setupRead_outside h _ hal hout⟩⟩
  · have hsub := subword_toNat hsub
    have hoff : (noff.setWidth 26).toNat % 4096 = noff.toNat := by
      have := noff.isLt
      rw [BitVec.toNat_setWidth]
      omega
    refine ⟨⟨_, exec_nudge .., nudgeWrite_subword h _ _ hsub⟩, ⟨_, exec_illegalSetupRead .., ?_⟩⟩
    rw [if_pos rfl, hoff, nudgeRead_subword h _ _ hsub]
    rfl

/-! ### A legal write of a register (R171, R173, R177) -/

section
variable {s : State} (h : s.takesWrites = true) (port : Nat) {off c : Nat} (val : Word) (hal : off % 4 = 0)
  (hc : canon off = some c) (hans : s.answersWrite (regAt c) = true)
include h hal hc hans

/-- A register that is no half of a pair, and records no effective value, is judged by its own rule. -/
theorem setupWrite_reg (hlo : s.pairOf (regAt c) = none) (hhi : s.pairOf (regAt (c - 4)) = none) (heff : effOf (regAt c) = none) :
    setupWrite port off 15 val s = regOp port off val.toNat (writeReg (regAt c) val s) s := by
  simp [setupWrite, h, hal, hc, hans, hlo, hhi, heff]

/-- A pair's LO loads its latch. -/
theorem setupWrite_lo {v : DWord} (hlo : s.pairOf (regAt c) = some v) :
    setupWrite port off 15 val s = setupNote port off val.toNat (setLatch c (some val) s) := by
  simp [setupWrite, h, hal, hc, hans, hlo, regOp_ok]

/-- A pair's HI commits it. -/
theorem setupWrite_hi {v : DWord} (hlo : s.pairOf (regAt c) = none) (hhi : s.pairOf (regAt (c - 4)) = some v) :
    setupWrite port off 15 val s = pairHi (c - 4) port off val v s := by
  simp [setupWrite, h, hal, hc, hans, hlo, hhi]

end

/-! ### Offsets of rings, partitions and tenants (R202, R203, R236) -/

theorem canon_ring {r o : Nat} (hr : r < 4096) (ho : o < 0x40) (hal : o % 4 = 0) :
    canon (0x40000 + r * 0x40 + o) = some (0x40000 + r * 0x40 + o) := by
  have hb : (⟨0x40000, 0x40000, 64, 1024⟩ : Block) ∈ blocks := by decide
  rw [canon_of_mem hb (by dsimp only; omega) (by dsimp only; omega)]
  refine congrArg some ?_
  dsimp only
  omega

theorem regAt_ring {r o : Nat} (hr : r < 4096) (ho : o < 0x40) : regAt (0x40000 + r * 0x40 + o) = .ring r o := by
  have hq : (0x40000 + r * 0x40 + o - 0x40000) / 0x40 = r := by omega
  have hm : (0x40000 + r * 0x40 + o) % 0x40 = o := by omega
  rw [regAt, if_neg (by omega), if_neg (by omega), if_neg (by omega), if_neg (by omega), if_pos (by omega), hq, hm]

theorem canon_part {p o : Nat} (hp : p < 64) (ho : o < 0x40) (hal : o % 4 = 0) :
    canon (0x30000 + p / 16 * 0x1000 + p % 16 * 0x40 + o) = some (0x30000 + p / 16 * 0x1000 + p % 16 * 0x40 + o) := by
  have hb : (⟨0x30000, 0x10000, 4, 256⟩ : Block) ∈ blocks := by decide
  rw [canon_of_mem hb (by dsimp only; omega) (by dsimp only; omega)]
  refine congrArg some ?_
  dsimp only
  omega

theorem regAt_part {p o : Nat} (hp : p < 64) (ho : o < 0x40) :
    regAt (0x30000 + p / 16 * 0x1000 + p % 16 * 0x40 + o) = .part p o := by
  have hq : (0x30000 + p / 16 * 0x1000 + p % 16 * 0x40 + o) / 4096 % 16 * 16 +
      (0x30000 + p / 16 * 0x1000 + p % 16 * 0x40 + o) % 4096 / 0x40 = p := by omega
  have hm : (0x30000 + p / 16 * 0x1000 + p % 16 * 0x40 + o) % 4096 % 0x40 = o := by omega
  rw [regAt, if_neg (by omega), if_neg (by omega), if_neg (by omega), if_pos (by omega), hq, hm]

theorem canon_ten {n o : Nat} (hn : n < 16) (ho : o < 0x400) (hal : o % 4 = 0) :
    canon (0x20000 + n * 0x1000 + o) = some (0x20000 + n * 0x1000 + o) := by
  have hb : (⟨0x20000, 0x10000, 16, 256⟩ : Block) ∈ blocks := by decide
  rw [canon_of_mem hb (by dsimp only; omega) (by dsimp only; omega)]
  refine congrArg some ?_
  dsimp only
  omega

theorem regAt_ten {n o : Nat} (hn : n < 16) (ho : o < 0x1000) : regAt (0x20000 + n * 0x1000 + o) = .ten n o := by
  have hq : (0x20000 + n * 0x1000 + o) / 4096 % 16 = n := by omega
  have hm : (0x20000 + n * 0x1000 + o) % 4096 = o := by omega
  rw [regAt, if_neg (by omega), if_neg (by omega), if_pos (by omega), hq, hm]

/-! ### A log record leaves every object as it is -/

@[simp] theorem setupNote_ring (p a v : Nat) (s : State) (q : Nat) : (setupNote p a v s).ring q = s.ring q := by
  simp only [State.ring, setupNote_rings]
@[simp] theorem setupNote_part (p a v : Nat) (s : State) (q : Nat) : (setupNote p a v s).part q = s.part q := by
  simp only [State.part, setupNote_parts]
@[simp] theorem setupNote_ten (p a v : Nat) (s : State) (q : Nat) : (setupNote p a v s).ten q = s.ten q := by
  simp only [State.ten, setupNote_tens]
@[simp] theorem setupNote_mod (p a v : Nat) (s : State) (q : Nat) : (setupNote p a v s).mod q = s.mod q := by
  simp only [State.mod, setupNote_mods]
@[simp] theorem setupNote_pipe (p a v : Nat) (s : State) (q : Nat) : (setupNote p a v s).pipe q = s.pipe q := by
  simp only [State.pipe, setupNote_pipes]
@[simp] theorem setupNote_link (p a v : Nat) (s : State) (q : Nat) : (setupNote p a v s).link q = s.link q := by
  simp only [State.link, setupNote_fab]

theorem setupNote_setRing_frame (p a v r : Nat) (x : Ring) (s : State) :
    setupNote p a v (s.setRing r x) = { logged s (setupNote p a v (s.setRing r x)) with
      rings := (setupNote p a v (s.setRing r x)).rings } := by rw [setupNote_logged]; rfl

theorem setupNote_setPart_frame (p a v r : Nat) (x : Part) (s : State) :
    setupNote p a v (s.setPart r x) = { logged s (setupNote p a v (s.setPart r x)) with
      parts := (setupNote p a v (s.setPart r x)).parts } := by rw [setupNote_logged]; rfl

theorem setupNote_setTen_frame (p a v n : Nat) (x : Ten) (s : State) :
    setupNote p a v (s.setTen n x) = { logged s (setupNote p a v (s.setTen n x)) with
      tens := (setupNote p a v (s.setTen n x)).tens } := by rw [setupNote_logged]; rfl

theorem setupNote_setPipe_frame (p a v k : Nat) (x : Pipe) (s : State) :
    setupNote p a v (s.setPipe k x) = { logged s (setupNote p a v (s.setPipe k x)) with
      pipes := (setupNote p a v (s.setPipe k x)).pipes } := by rw [setupNote_logged]; rfl

theorem toNat_offset {n : Nat} (h : n < 2 ^ 26) : (BitVec.ofNat 26 n).toNat = n := by
  rw [BitVec.toNat_ofNat, Nat.mod_eq_of_lt h]

/-- The byte enables of a full-word access (R171). -/
theorem toNat_fullWord : (15 : BitVec 4).toNat = 15 := rfl

/-! ### RING_r_START, PART_p_BOX, TEN_n_SCAN (R211, R236, R245) -/

section
variable {s : State} (h : s.takesWrites = true) (port : Nat) (val : Word)
include h

theorem setupWrite_ring_start {r : Nat} (hr : r < 4096) : setupWrite port (0x40000 + r * 0x40 + 0x28) 15 val s =
    setupNote port (0x40000 + r * 0x40 + 0x28) val.toNat (s.setRing r { s.ring r with start := val }) := by
  have hreg := regAt_ring hr (o := 0x28) (by decide)
  have hbefore : regAt (0x40000 + r * 0x40 + 0x28 - 4) = .ring r 0x24 := regAt_ring hr (by decide)
  rw [setupWrite_reg h port val (by omega) (canon_ring hr (by decide) (by decide)) (by rw [hreg]; rfl) (by rw [hreg]; rfl)
    (by rw [hbefore]; rfl) (by rw [hreg]; rfl), hreg]
  exact regOp_ok _ _ _ _ _ h

theorem setupWrite_part_box {p : Nat} (hp : p < 64) : setupWrite port (0x30000 + p / 16 * 0x1000 + p % 16 * 0x40 + 8) 15 val s =
    setupNote port (0x30000 + p / 16 * 0x1000 + p % 16 * 0x40 + 8) val.toNat
      (s.setPart p { s.part p with boxReg := val &&& 0x0F7FFFFF }) := by
  have hreg := regAt_part hp (o := 8) (by decide)
  have hbefore : regAt (0x30000 + p / 16 * 0x1000 + p % 16 * 0x40 + 8 - 4) = .part p 4 := regAt_part hp (by decide)
  rw [setupWrite_reg h port val (by omega) (canon_part hp (by decide) (by decide)) (by rw [hreg]; rfl) (by rw [hreg]; rfl)
    (by rw [hbefore]; rfl) (by rw [hreg]; rfl), hreg]
  exact regOp_ok _ _ _ _ _ h

theorem setupWrite_ten_scan {n : Nat} (hn : n < 16) : setupWrite port (0x20000 + n * 0x1000 + 0x108) 15 val s =
    regOp port (0x20000 + n * 0x1000 + 0x108) val.toNat (writeTen n 0x108 val s) s := by
  have hreg := regAt_ten hn (o := 0x108) (by decide)
  have hbefore : regAt (0x20000 + n * 0x1000 + 0x108 - 4) = .ten n 0x104 := regAt_ten hn (by decide)
  rw [setupWrite_reg h port val (by omega) (canon_ten hn (by decide) (by decide)) (by rw [hreg]; rfl) (by rw [hreg]; rfl)
    (by rw [hbefore]; rfl) (by rw [hreg]; rfl), hreg]
  rfl

end

/-- A tenant with a new scan interval, which is in force from the next tick (R246). -/
def Ten.withScan (t : Ten) (v now : Nat) : Ten :=
  { t with scan := BitVec.ofNat 17 v, scanWas := if t.scanTick = now then t.scanWas else t.scan, scanTick := now }

theorem Fld_17 (val : Word) : Fld val 0 17 = val.toNat % 2 ^ 17 := by simp [Fld, bitsAt]

theorem writeTen_scan_legal (n : Nat) (val : Word) (s : State) (hlo : 100 ≤ val.toNat % 2 ^ 17) (hhi : val.toNat % 2 ^ 17 ≤ 100000) :
    writeTen n 0x108 val s = .ok (s.setTen n ((s.ten n).withScan (val.toNat % 2 ^ 17) (s.win.tb.toNat + 1))) := by
  rw [← Fld_17] at hlo hhi ⊢
  exact if_pos ⟨hlo, hhi⟩

theorem writeTen_scan_illegal (n : Nat) (val : Word) (s : State) (hout : val.toNat % 2 ^ 17 < 100 ∨ 100000 < val.toNat % 2 ^ 17) :
    writeTen n 0x108 val s = .error 3 := by
  rw [← Fld_17] at hout
  exact if_neg (by omega)

/-- Until the next tick the interval in force stays what it was. -/
theorem scanNow_withScan {s t : State} {n v : Nat} (htb : t.win.tb = s.win.tb)
    (ht : t.ten n = (s.ten n).withScan v (s.win.tb.toNat + 1)) : t.scanNow n = s.scanNow n := by
  unfold State.scanNow
  rw [ht, htb]
  dsimp only [Ten.withScan]
  rw [if_pos rfl]
  split <;> rfl

/-- Settles O7: the canonical offset of each register, its own judgement, and the frame of the log record. -/
theorem registerWritesTakeEffect : Obligations.RegisterWritesTakeEffect := by
  unfold Obligations.RegisterWritesTakeEffect
  intro s port val h
  refine ⟨fun r => ⟨_, exec_setupRegisterWrite .., ?_⟩, fun p => ⟨_, exec_setupRegisterWrite .., ?_⟩,
    fun n => ⟨fun hlo hhi => ⟨_, exec_setupRegisterWrite .., ?_⟩, fun hout => ⟨_, exec_setupRegisterWrite .., ?_⟩⟩⟩
  · have hr := r.isLt
    rw [toNat_offset (by omega), toNat_fullWord, setupWrite_ring_start h _ _ hr]
    exact ⟨setupNote_setRing_frame .., by simp, fun q hq => by rw [setupNote_ring, setRing_ne _ _ hq]⟩
  · have hp := p.isLt
    rw [toNat_offset (by omega), toNat_fullWord, setupWrite_part_box h _ _ hp]
    exact ⟨setupNote_setPart_frame .., by simp, fun q hq => by rw [setupNote_part, setPart_ne _ _ hq]⟩
  · have hn := n.isLt
    rw [toNat_offset (by omega), toNat_fullWord, setupWrite_ten_scan h _ _ hn,
      writeTen_scan_legal _ _ _ hlo hhi, regOp_ok _ _ _ _ _ h]
    have hself : (setupNote port.toNat (0x20000 + n.toNat * 0x1000 + 0x108) val.toNat (s.setTen n.toNat
        ((s.ten n.toNat).withScan (val.toNat % 2 ^ 17) (s.win.tb.toNat + 1)))).ten n.toNat = _ :=
      (setupNote_ten ..).trans (setTen_self ..)
    exact ⟨setupNote_setTen_frame .., by rw [hself]; rfl, scanNow_withScan (by simp) hself,
      fun m hm => by rw [setupNote_ten, setTen_ne _ _ hm]⟩
  · have hn := n.isLt
    rw [toNat_offset (by omega), toNat_fullWord, setupWrite_ten_scan h _ _ hn,
      writeTen_scan_illegal _ _ _ hout, regOp_error _ _ _ _ _ h]
    rfl

/-! ### RING_r_BASE (R174, R175, R176) -/

/-- The value that a write of a pair's HI makes of its latch, or of the committed LO. -/
def State.pairValue (s : State) (c : Nat) (val : Word) (old : DWord) : DWord :=
  join64 val ((tget none c s.win.latches).getD (lo32 old))

@[simp] theorem setLatch_latch_self (c : Nat) (v : Option Word) (s : State) : tget none c (setLatch c v s).win.latches = v :=
  tget_tset_self _ _ _ _

theorem setLatch_latch_ne (c : Nat) (v : Option Word) (s : State) {k : Nat} (hk : k ≠ c) :
    tget none k (setLatch c v s).win.latches = tget none k s.win.latches := tget_tset_ne _ _ _ hk

theorem pairHi_commit (c port off : Nat) (val : Word) (old : DWord) (s : State) (h : s.takesWrites = true)
    (hal : (s.pairValue c val old).toNat % pairAlign (regAt c) = 0) :
    pairHi c port off val old s = setupNote port off val.toNat (setPair (regAt c) (s.pairValue c val old) (setLatch c none s)) :=
  (if_pos hal).trans (regOp_ok _ _ _ _ _ h)

theorem pairHi_misaligned (c port off : Nat) (val : Word) (old : DWord) (s : State)
    (hal : (s.pairValue c val old).toNat % pairAlign (regAt c) ≠ 0) :
    pairHi c port off val old s = illegal 6 port off (setLatch c none s) := if_neg hal

section
variable {s : State} (h : s.takesWrites = true) (port : Nat) (val : Word) {r : Nat} (hr : r < 4096)
include h hr

theorem setupWrite_ring_baseLo : setupWrite port (0x40000 + r * 0x40 + 0x10) 15 val s =
    setupNote port (0x40000 + r * 0x40 + 0x10) val.toNat (setLatch (0x40000 + r * 0x40 + 0x10) (some val) s) := by
  have hreg := regAt_ring hr (o := 0x10) (by decide)
  exact setupWrite_lo h port val (by omega) (canon_ring hr (by decide) (by decide)) (by rw [hreg]; rfl) (v := (s.ring r).base)
    (by rw [hreg]; rfl)

theorem setupWrite_ring_baseHi : setupWrite port (0x40000 + r * 0x40 + 0x10 + 4) 15 val s =
    pairHi (0x40000 + r * 0x40 + 0x10) port (0x40000 + r * 0x40 + 0x10 + 4) val (s.ring r).base s := by
  have hlo := regAt_ring hr (o := 0x10) (by decide)
  have hreg : regAt (0x40000 + r * 0x40 + 0x10 + 4) = .ring r 0x14 := regAt_ring hr (by decide)
  have hc : canon (0x40000 + r * 0x40 + 0x10 + 4) = some (0x40000 + r * 0x40 + 0x10 + 4) :=
    canon_ring hr (o := 0x14) (by decide) (by decide)
  exact setupWrite_hi h port val (by omega) hc (by rw [hreg]; rfl) (by rw [hreg]; rfl)
    (by rw [Nat.add_sub_cancel, hlo]; rfl)

end

/-- Settles O8: a write of the pair's LO loads the latch, one of its HI is judged whole. -/
theorem pairsCommitWhole : Obligations.PairsCommitWhole := by
  unfold Obligations.PairsCommitWhole
  intro s port r val h
  have hr := r.isLt
  have hreg := regAt_ring hr (o := 0x10) (by decide)
  have halign : pairAlign (regAt (0x40000 + r.toNat * 0x40 + 0x10)) = 4096 := by rw [hreg]; rfl
  refine ⟨⟨_, exec_pairLoWrite .., ?_⟩, fun hal => ⟨_, exec_pairHiCommit .., ?_⟩, fun hal => ⟨_, exec_pairHiCommit .., ?_⟩⟩
  · rw [toNat_offset (by omega), toNat_fullWord, setupWrite_ring_baseLo h _ _ hr]
    refine ⟨by rw [setupNote_logged]; rfl, by simp, fun k hk => ?_⟩
    rw [setupNote_win, setLatch_latch_ne _ _ _ hk]
  · rw [toNat_offset (by omega), toNat_fullWord, setupWrite_ring_baseHi h _ _ hr,
      pairHi_commit _ _ _ _ _ _ h (by rw [halign]; exact hal), hreg]
    refine ⟨by rw [setupNote_logged]; rfl, ?_, fun q hq => ?_, ?_, fun k hk => ?_⟩
    · rw [setupNote_ring]
      exact setRing_self _ _ _
    · rw [setupNote_ring]
      exact setRing_ne _ _ hq
    · rw [setupNote_win]
      exact setLatch_latch_self _ _ _
    · rw [setupNote_win]
      exact setLatch_latch_ne _ _ _ hk
  · rw [toNat_offset (by omega), toNat_fullWord, setupWrite_ring_baseHi h _ _ hr,
      pairHi_misaligned _ _ _ _ _ _ (by rw [halign]; exact hal)]
    exact ⟨rfl, rfl, rfl, rfl, setLatch_latch_self _ _ _, rfl⟩

end Sys2Proof.Machine
end

section
/-! PROOFS. The state after reset (O42), and life-cycle orders that have no effect (O10). -/

namespace Sys2Proof.Machine

open Sys2Proof

/-- Settles O42: an object that no table of the reset state lists holds its default record. -/
theorem resetLeavesEveryObjectOff : Obligations.ResetLeavesEveryObjectOff := by
  refine ⟨rfl, rfl, rfl, rfl, rfl, rfl, fun n => ?_, rfl, rfl, rfl, rfl, rfl, rfl, rfl, rfl⟩
  exact ⟨rfl, rfl, rfl, rfl, rfl, rfl, rfl, rfl, rfl, rfl⟩

/-! ### Orders that change nothing (R183) -/

theorem exec_tenantEnable (port n : BitVec 4) (s : State) :
    exec (.tenantEnable port n) s = .next (regOp port.toNat (tenOff n.toNat) 1 (tenantEnable n.toNat s) s) := rfl
theorem exec_tenantDisable (port n : BitVec 4) (s : State) :
    exec (.tenantDisable port n) s = .next (regOp port.toNat (tenOff n.toNat) 2 (tenantDisable n.toNat s) s) := rfl
theorem exec_partitionEnable (port : BitVec 4) (p : BitVec 6) (s : State) :
    exec (.partitionEnable port p) s = .next (regOp port.toNat (partOff p.toNat) 1 (partitionEnable p.toNat s) s) := rfl
theorem exec_partitionDisable (port : BitVec 4) (p : BitVec 6) (s : State) :
    exec (.partitionDisable port p) s =
      .next (regOp port.toNat (partOff p.toNat) 2 (.ok (windPart p.toNat .finish false s)) s) := rfl
theorem exec_partitionCut (port : BitVec 4) (p : BitVec 6) (s : State) :
    exec (.partitionCut port p) s = .next (regOp port.toNat (partOff p.toNat) 6 (.ok (windPart p.toNat .cut false s)) s) := rfl
theorem exec_ringEnable (port : BitVec 4) (r : BitVec 12) (s : State) :
    exec (.ringEnable port r) s = .next (regOp port.toNat (ringOff r.toNat) 1 (ringEnable r.toNat s) s) := rfl
theorem exec_ringDisable (port : BitVec 4) (r : BitVec 12) (s : State) :
    exec (.ringDisable port r) s = .next (regOp port.toNat (ringOff r.toNat) 2 (ringDisable r.toNat s) s) := rfl
theorem exec_pipeEnable (port : BitVec 4) (k : Fin 8) (s : State) :
    exec (.pipeEnable port k) s =
      .next (trayOp (portIntake k.val) port.toNat (ctxPage k.val) 1 (pipeEnable k.val s) s) := rfl
theorem exec_pipeDisable (port : BitVec 4) (k : Fin 8) (s : State) :
    exec (.pipeDisable port k) s =
      .next (trayOp (portIntake k.val) port.toNat (ctxPage k.val) 2 (pipeDisable k.val s) s) := rfl

/-- A command that is a register write whose verdict is a state: the state it gives, recorded. -/
theorem runs_of_regOp_ok {c : Instr} {s u : State} {P : State → Prop} {port off val : Nat} (h : s.takesWrites = true) {v : Verdict}
    (hexec : exec c s = .next (regOp port off val v s)) (hv : v = .ok u) (hP : P (setupNote port off val u)) : Runs c s P :=
  ⟨_, hexec, by rw [hv, regOp_ok _ _ _ _ _ h]; exact hP⟩

theorem runs_of_regOp_error {c : Instr} {s : State} {P : State → Prop} {port off val cause : Nat} (h : s.takesWrites = true)
    {v : Verdict} (hexec : exec c s = .next (regOp port off val v s)) (hv : v = .error cause)
    (hP : P (ignoreAcc cause port 0 true off false s)) : Runs c s P :=
  ⟨_, hexec, by rw [hv, regOp_error _ _ _ _ _ h]; exact hP⟩

theorem trayOp_answered {t port off val : Nat} {v : Verdict} {s : State} (h : s.trayAnswers t = true) :
    trayOp t port off val v s = regOp port off val v s := if_pos h

theorem tenantEnable_on {n : Nat} {s : State} (h : (s.ten n).obj.st = .on) : tenantEnable n s = .ok s := by
  simp [tenantEnable, h]
theorem tenantDisable_off {n : Nat} {s : State} (h : (s.ten n).obj.st = .off) : tenantDisable n s = .ok s := by
  simp [tenantDisable, h]
theorem partitionEnable_on {p : Nat} {s : State} (h : (s.part p).obj.st = .on) : partitionEnable p s = .ok s := by
  simp [partitionEnable, h]
theorem windPart_off {p : Nat} {how : Wind} {lost : Bool} {s : State} (h : (s.part p).obj = {}) : windPart p how lost s = s := by
  simp [windPart, h]
theorem ringEnable_on {r : Nat} {s : State} (h : (s.ring r).obj.st = .on) : ringEnable r s = .ok s := by
  simp [ringEnable, h]
theorem ringDisable_off {r : Nat} {s : State} (h : (s.ring r).obj = {}) : ringDisable r s = .ok (s.setRing r (s.ring r)) := by
  simp only [ringDisable, h]
  rw [← h]
theorem pipeEnable_on {k : Nat} {s : State} (h : (s.pipe k).obj.st = .on) : pipeEnable k s = .ok s := if_pos (.inl h)
theorem pipeDisable_off {k : Nat} {s : State} (h : (s.pipe k).obj = {}) : pipeDisable k s = .ok (s.setPipe k (s.pipe k)) := by
  simp only [pipeDisable, h]
  rw [← h]

theorem setRing_ring_self (s : State) (r q : Nat) : (s.setRing r (s.ring r)).ring q = s.ring q := by
  by_cases hq : q = r
  · rw [hq, setRing_self]
  · rw [setRing_ne s _ hq]

theorem setPipe_pipe_self (s : State) (k j : Nat) : (s.setPipe k (s.pipe k)).pipe j = s.pipe j := by
  by_cases hj : j = k
  · rw [hj, setPipe_self]
  · rw [setPipe_ne s _ hj]

/-- On a page that answers a context's order is recorded; on another nothing happens (R786): either way nothing else changes. -/
theorem runs_of_trayOp_ok {c : Instr} {s u : State} {P : State → Prop} {t port off val : Nat} (h : s.takesWrites = true) {v : Verdict}
    (hexec : exec c s = .next (trayOp t port off val v s)) (hv : v = .ok u) (hP : P (setupNote port off val u)) (hP' : P s) :
    Runs c s P := by
  refine ⟨_, hexec, ?_⟩
  unfold trayOp
  split
  · rw [hv, regOp_ok _ _ _ _ _ h]; exact hP
  · exact hP'

/-- Settles O10: each order's verdict is the state as it was, or with the object written back as it stood. -/
theorem lifeCycleOrdersWithoutEffect : Obligations.LifeCycleOrdersWithoutEffect := by
  unfold Obligations.LifeCycleOrdersWithoutEffect
  intro s port h
  refine ⟨fun n => ⟨fun hon => ?_, fun hoff => ?_⟩, fun p => ⟨fun hon => ?_, fun hoff => ?_, fun hoff => ?_⟩,
    fun r => ⟨fun hon => ?_, fun hoff => ?_⟩, fun k => ⟨fun hon => ?_, fun hoff => ?_⟩⟩
  · exact runs_of_regOp_ok h (exec_tenantEnable ..) (tenantEnable_on hon) (setupNote_logged ..)
  · exact runs_of_regOp_ok h (exec_tenantDisable ..) (tenantDisable_off (by rw [hoff])) (setupNote_logged ..)
  · exact runs_of_regOp_ok h (exec_partitionEnable ..) (partitionEnable_on hon) (setupNote_logged ..)
  · exact runs_of_regOp_ok h (exec_partitionDisable ..) (congrArg Except.ok (windPart_off hoff)) (setupNote_logged ..)
  · exact runs_of_regOp_ok h (exec_partitionCut ..) (congrArg Except.ok (windPart_off hoff)) (setupNote_logged ..)
  · exact runs_of_regOp_ok h (exec_ringEnable ..) (ringEnable_on hon) (setupNote_logged ..)
  · exact runs_of_regOp_ok h (exec_ringDisable ..) (ringDisable_off hoff)
      ⟨setupNote_setRing_frame .., fun q => by rw [setupNote_ring, setRing_ring_self]⟩
  · exact runs_of_trayOp_ok h (exec_pipeEnable ..) (pipeEnable_on hon) (setupNote_logged ..) rfl
  · exact runs_of_trayOp_ok h (exec_pipeDisable ..) (pipeDisable_off hoff)
      ⟨setupNote_setPipe_frame .., fun j => by rw [setupNote_pipe, setPipe_pipe_self]⟩ ⟨rfl, fun _ => rfl⟩

end Sys2Proof.Machine
end

section
/-! PROOFS. What operations that end commands and report faults leave of life-cycle objects: no tenant, partition or ring changes its STATE,
no ring what it has fetched, and no module anything. -/

namespace Sys2Proof.Machine

open Sys2Proof

/-! ### The view -/

/-- Of tenants their STATE and PENDING; of partitions these, how they wind down, and their modules; of rings these, what is
fetched, CONS, and the last sequence number; and the modules. -/
def State.lifeView (s : State) :
    (Nat → Obj) × (Nat → Obj × Wind × List Nat) × (Nat → Obj × List Entry × Word × DWord) × Tab Mod :=
  (fun n => (s.ten n).obj, fun p => ((s.part p).obj, (s.part p).wind, (s.part p).mods),
    fun r => ((s.ring r).obj, (s.ring r).fetched, (s.ring r).cons, (s.ring r).disp), s.mods)

section
variable {s t : State} (h : t.lifeView = s.lifeView)
include h

theorem lifeView_ten (n : Nat) : (t.ten n).obj = (s.ten n).obj := congrFun (congrArg Prod.fst h) n

theorem lifeView_part (p : Nat) : (t.part p).obj = (s.part p).obj ∧ (t.part p).wind = (s.part p).wind ∧
    (t.part p).mods = (s.part p).mods := by
  simpa [State.lifeView] using congrFun (congrArg (·.2.1) h) p

theorem lifeView_ring (r : Nat) : (t.ring r).obj = (s.ring r).obj ∧ (t.ring r).fetched = (s.ring r).fetched ∧
    (t.ring r).cons = (s.ring r).cons ∧ (t.ring r).disp = (s.ring r).disp := by
  simpa [State.lifeView] using congrFun (congrArg (·.2.2.1) h) r

theorem lifeView_mods : t.mods = s.mods := congrArg (·.2.2.2) h

end

/-- States with the same tables of partitions, rings and modules, whose tenants have the same STATE and PENDING, are seen the
same. -/
theorem lifeView_congr {s t : State} (htens : ∀ n, (t.ten n).obj = (s.ten n).obj) (hparts : t.parts = s.parts)
    (hrings : t.rings = s.rings) (hmods : t.mods = s.mods) : t.lifeView = s.lifeView := by
  simp only [State.lifeView, State.part, State.ring, hparts, hrings, hmods, htens]

/-- A fold of operations that keep a view of the state they carry keeps it. -/
theorem foldl_carries {α β γ : Type} (v : State → γ) (p : β → State) (f : β → α → β) (hf : ∀ b x, v (p (f b x)) = v (p b))
    (l : List α) (b : β) : v (p (l.foldl f b)) = v (p b) := by
  induction l generalizing b with
  | nil => rfl
  | cons x l ih => rw [List.foldl_cons, ih, hf]

/-! ### Updates of one object -/

theorem setTen_lifeView {s : State} {n : Nat} {v : Ten} (h : v.obj = (s.ten n).obj) : (s.setTen n v).lifeView = s.lifeView := by
  refine lifeView_congr (fun m => ?_) rfl rfl rfl
  by_cases hm : m = n
  · rw [hm, setTen_self, h]
  · rw [setTen_ne s v hm]

theorem setPart_lifeView {s : State} {p : Nat} {v : Part} (hobj : v.obj = (s.part p).obj) (hwind : v.wind = (s.part p).wind)
    (hmods : v.mods = (s.part p).mods) : (s.setPart p v).lifeView = s.lifeView := by
  have hparts : ∀ q, (((s.setPart p v).part q).obj, ((s.setPart p v).part q).wind, ((s.setPart p v).part q).mods) =
      ((s.part q).obj, (s.part q).wind, (s.part q).mods) := by
    intro q
    by_cases hq : q = p
    · rw [hq, setPart_self, hobj, hwind, hmods]
    · rw [setPart_ne s v hq]
  simp only [State.lifeView, hparts]
  rfl

theorem setRing_lifeView {s : State} {r : Nat} {v : Ring} (hobj : v.obj = (s.ring r).obj) (hfetched : v.fetched = (s.ring r).fetched)
    (hcons : v.cons = (s.ring r).cons) (hdisp : v.disp = (s.ring r).disp) : (s.setRing r v).lifeView = s.lifeView := by
  have hrings : ∀ q, (((s.setRing r v).ring q).obj, ((s.setRing r v).ring q).fetched, ((s.setRing r v).ring q).cons,
      ((s.setRing r v).ring q).disp) = ((s.ring q).obj, (s.ring q).fetched, (s.ring q).cons, (s.ring q).disp) := by
    intro q
    by_cases hq : q = r
    · rw [hq, setRing_self, hobj, hfetched, hcons, hdisp]
    · rw [setRing_ne s v hq]
  simp only [State.lifeView, hrings]
  rfl

@[simp] theorem setChan_lifeView (s : State) (n : Nat) (v : Chan) : (s.setChan n v).lifeView = s.lifeView := rfl
@[simp] theorem setPipe_lifeView (s : State) (n : Nat) (v : Pipe) : (s.setPipe n v).lifeView = s.lifeView := rfl
@[simp] theorem setCore_lifeView (s : State) (n : Nat) (v : Core) : (s.setCore n v).lifeView = s.lifeView := rfl

/-! ### Events (R262, R263) -/

@[simp] theorem logAdd_lifeView (c k p : Nat) (a : DWord) (b : Word) (d : List Nat) (s : State) :
    (logAdd c k p a b d s).lifeView = s.lifeView :=
  lifeView_congr (fun n => by simp only [State.ten, logAdd_tens]) (by simp) (by simp) (by simp)

@[simp] theorem deliver_lifeView (n : Nat) (e : Event) (s : State) : (deliver n e s).lifeView = s.lifeView := by
  unfold deliver holdEvent; dsimp only
  split
  · exact setTen_lifeView rfl
  · split
    · exact setTen_lifeView rfl
    · split <;> exact setTen_lifeView rfl

@[simp] theorem holdMachine_lifeView (e : Event) (s : State) : (holdMachine e s).lifeView = s.lifeView := by
  unfold holdMachine; split <;> rfl

@[simp] theorem machineEvent_lifeView (c n d : Nat) (p : Option (BitVec 6)) (a : DWord) (b : Word) (s : State) :
    (machineEvent c n d p a b s).lifeView = s.lifeView := by
  unfold machineEvent; dsimp only
  split
  · split <;> simp
  · simp

/-! ### Column writes and packets -/

@[simp] theorem inject_lifeView (p : Packet) (s : State) : (inject p s).lifeView = s.lifeView := rfl

@[simp] theorem rekeyUnit_lifeView (k u : Nat) (s : State) : (rekeyUnit k u s).lifeView = s.lifeView := by
  rw [rekeyUnit_frame]; rfl

@[simp] theorem putColumn_lifeView (k key : Nat) (b : List Byte) (s : State) : (putColumn k key b s).lifeView = s.lifeView :=
  foldl_keeps State.lifeView _ (fun a u => rekeyUnit_lifeView k u a) _ s

@[simp] theorem countRefused_lifeView (w : Nat) (s : State) : (countRefused w s).lifeView = s.lifeView := by
  unfold countRefused
  split
  · exact setPart_lifeView rfl rfl rfl
  · rfl

@[simp] theorem gateWrite_lifeView (who : Who) (w key : Nat) (b : List Byte) (s : State) :
    (gateWrite who w key b s).2.lifeView = s.lifeView := by
  unfold gateWrite
  split
  · rfl
  · split
    · rfl
    · split
      · simp
      · split
        · rfl
        · exact putColumn_lifeView _ _ _ _

@[simp] theorem lateFault_lifeView (who : Who) (h : Option Nat) (c l a : Nat) (s : State) :
    (lateFault who h c l a s).lifeView = s.lifeView := by
  unfold lateFault; dsimp only
  split
  · rfl
  · exact (deliver_lifeView _ _ _).trans (setRing_lifeView rfl rfl rfl rfl)

@[simp] theorem srcFault_lifeView (who : Who) (c l a : Nat) (s : State) : (srcFault who c l a s).lifeView = s.lifeView := by
  unfold srcFault; split <;> simp

@[simp] theorem landWrite_lifeView (who : Who) (w key a : Nat) (b : List Byte) (s : State) :
    (landWrite who w key a b s).2.lifeView = s.lifeView := by
  unfold landWrite; dsimp only; split <;> simp

@[simp] theorem postWrite_lifeView (who : Who) (m : List Nat) (src : Place) (f : Bool) (a : Nat) (b : List Byte) (s : State) :
    (postWrite who m src f a b s).lifeView = s.lifeView := by
  unfold postWrite; dsimp only; split <;> simp

@[simp] theorem contribute_lifeView (who : Who) (src dst : Place) (k q n : Nat) (l : List (Nat × List Byte)) (s : State) :
    (contribute who src dst k q n l s).lifeView = s.lifeView :=
  foldl_keeps State.lifeView _ (fun _ _ => inject_lifeView _ _) _ _

/-! ### Move channels that are stopped (R340) -/

@[simp] theorem readPart_lifeView (key : Nat) (m : List Nat) (a l : Nat) (s : State) :
    (readPart key m a l s).2.lifeView = s.lifeView := by
  unfold readPart chanSrcFault; dsimp only
  split
  · simp
  · split
    · simp
    · split
      · exact srcFault_lifeView _ _ _ _ _
      · rfl

theorem readRun_lifeView (key : Nat) (m : List Nat) (src n : Nat) (s : State) :
    (readRun key m src n s).2.2.lifeView = s.lifeView := by
  unfold readRun; dsimp only
  split
  · refine foldl_carries State.lifeView (Prod.snd ∘ Prod.snd) _ (fun b x => ?_) _ _
    split
    · rfl
    · exact readPart_lifeView _ _ _ _ _
  · rfl
  · rfl

theorem writeRun_lifeView (key : Nat) (m : List Nat) (l : List (Nat × List Byte)) (s : State) :
    (writeRun key m l s).lifeView = s.lifeView := by
  refine foldl_keeps State.lifeView _ (fun a x => ?_) _ _
  split
  · exact foldl_keeps State.lifeView _ (fun _ _ => postWrite_lifeView _ _ _ _ _ _ _) _ _
  · exact foldl_keeps State.lifeView _ (fun _ _ => inject_lifeView _ _) _ _
  · rfl

theorem runTransfer_lifeView (key : Nat) (l : List (Nat × Nat)) (s : State) : (runTransfer key l s).lifeView = s.lifeView := by
  refine foldl_carries State.lifeView Prod.snd _ (fun b x => ?_) _ _
  exact (writeRun_lifeView _ _ _ _).trans (readRun_lifeView _ _ _ _ _)

@[simp] theorem dropReads_lifeView (q : HRead → Bool) (s : State) : (dropReads q s).lifeView = s.lifeView := rfl

@[simp] theorem abortChan_lifeView (key : Nat) (s : State) : (abortChan key s).lifeView = s.lifeView := by
  unfold abortChan; dsimp only
  split
  · rfl
  · exact runTransfer_lifeView _ _ _
  · rfl

/-! ### Commands of a ring that end (R282, R313) -/

@[simp] theorem modCmd_lifeView (r : Nat) (q : DWord) (f : Cmd → Cmd) (s : State) : (modCmd r q f s).lifeView = s.lifeView :=
  setRing_lifeView rfl rfl rfl rfl

@[simp] theorem hostPost_lifeView (n : Nat) (o : Option (Nat × DWord)) (a : DWord) (b : List Byte) (s : State) :
    (hostPost n o a b s).lifeView = s.lifeView := by
  unfold hostPost; dsimp only
  split
  · rfl
  · exact setTen_lifeView rfl

@[simp] theorem recipePoisonEvent_lifeView (r : Nat) (e : Entry) (s : State) :
    (recipePoisonEvent r e s).lifeView = s.lifeView := by
  unfold recipePoisonEvent; dsimp only
  split
  · exact deliver_lifeView _ _ _
  · rfl

@[simp] theorem noteHead_lifeView (r : Nat) (s : State) : (noteHead r s).lifeView = s.lifeView := by
  unfold noteHead; dsimp only
  split
  · rfl
  · split
    · exact (recipePoisonEvent_lifeView _ _ _).trans (setRing_lifeView rfl rfl rfl rfl)
    · rfl

@[simp] theorem advanceTally_lifeView (r : Nat) (s : State) : (advanceTally r s).lifeView = s.lifeView := by
  unfold advanceTally; dsimp only
  split
  · rfl
  · exact setRing_lifeView rfl rfl rfl rfl

@[simp] theorem complete_lifeView (r : Nat) (q : DWord) (f i : Word) (s : State) : (complete r q f i s).lifeView = s.lifeView := by
  unfold complete
  split
  · rfl
  · dsimp only
    split
    · rfl
    · rw [noteHead_lifeView, advanceTally_lifeView]
      split <;> split <;> simp

@[simp] theorem completeCut_lifeView (r : Nat) (q : DWord) (s : State) : (completeCut r q s).lifeView = s.lifeView := by
  simp [completeCut]

@[simp] theorem streamUnbound_lifeView (r : Nat) (s : State) : (streamUnbound r s).lifeView = s.lifeView := by
  refine foldl_keeps State.lifeView _ (fun a k => ?_) _ _
  dsimp only
  split
  · rfl
  · exact foldl_keeps State.lifeView _ (fun _ _ => by simp) _ _

@[simp] theorem cutCommands_lifeView (p : Nat) (s : State) : (cutCommands p s).lifeView = s.lifeView := by
  refine foldl_keeps State.lifeView _ (fun a r => foldl_keeps State.lifeView _ (fun b c => ?_) _ _) _ _
  split
  · exact foldl_keeps State.lifeView _ (fun _ _ => abortChan_lifeView _ _) _ _
  · simp

end Sys2Proof.Machine
end

section
/-! PROOFS. The life cycle of a ring (O17). -/

namespace Sys2Proof.Machine

open Sys2Proof

theorem exec_ringWindDownDone (r : BitVec 12) (s : State) : exec (.ringWindDownDone r) s = .next (ringDown r.toNat s) := rfl

/-! ### A tally write (R256, R263, R271) -/

/-- A tally write changes at most whether one is due or held, and what goes out to the host. -/
theorem postTally_cases (r : Nat) (s : State) : postTally r s = s ∨ ∃ due held o,
    postTally r s = { s.setRing r { s.ring r with tallyDue := due, tallyHeld := held } with out := o } := by
  unfold postTally
  dsimp only
  split
  · right
    split
    · exact ⟨_, _, _, rfl⟩
    · split <;> exact ⟨_, _, s.out, rfl⟩
  · exact .inl rfl

theorem postTally_frame (r : Nat) (s : State) :
    postTally r s = { s with rings := (postTally r s).rings, out := (postTally r s).out } := by
  obtain h | ⟨due, held, o, h⟩ := postTally_cases r s <;> rw [h]
  rfl

theorem postTally_ring_self (r : Nat) (s : State) : ∃ due held,
    (postTally r s).ring r = { s.ring r with tallyDue := due, tallyHeld := held } := by
  obtain h | ⟨due, held, o, h⟩ := postTally_cases r s <;> rw [h]
  · exact ⟨_, _, rfl⟩
  · exact ⟨due, held, setRing_self s r _⟩

theorem postTally_ring_ne (r : Nat) (s : State) {q : Nat} (hq : q ≠ r) : (postTally r s).ring q = s.ring q := by
  obtain h | ⟨due, held, o, h⟩ := postTally_cases r s <;> rw [h]
  exact setRing_ne s _ hq

/-! ### A ring's enable (R237, R238) -/

/-- The context that an enable samples (Table 7-1). -/
def Ring.sampled (x : Ring) : RCtx :=
  { tenant := x.bTenant, part := x.bPart, engine := x.bEngine, slot := x.bSlot, weight := x.bWeight, log2 := x.size.toNat,
    base := x.base, taddr := x.taddr, tbase := x.tbase, start := x.start }

theorem startRing_frame (r : Nat) (s : State) :
    startRing r s = { s with rings := (startRing r s).rings, out := (startRing r s).out } := by
  unfold startRing
  rw [postTally_frame]
  rfl

theorem startRing_ring_ne (r : Nat) (s : State) {q : Nat} (hq : q ≠ r) : (startRing r s).ring q = s.ring q := by
  unfold startRing
  rw [postTally_ring_ne _ _ hq, setRing_ne s _ hq]

theorem startRing_ring_self (r : Nat) (s : State) :
    ((startRing r s).ring r).obj = { st := .on } ∧ ((startRing r s).ring r).cons = (s.ring r).start ∧
    ((startRing r s).ring r).prod = (s.ring r).start ∧ ((startRing r s).ring r).tally = (s.ring r).tbase ∧
    ((startRing r s).ring r).cmds = [] ∧ ((startRing r s).ring r).ctx = (s.ring r).sampled := by
  unfold startRing
  obtain ⟨due, held, h⟩ := postTally_ring_self r (s.setRing r _)
  rw [h, setRing_self]
  exact ⟨rfl, rfl, rfl, rfl, rfl, rfl⟩

section
variable {s : State} {r : Nat} (hobj : (s.ring r).obj = {})
include hobj

theorem ringEnable_starts (hready : s.ringReady r = true) (hon : (s.part (s.ring r).bPart).obj.st = .on) :
    ringEnable r s = .ok (startRing r s) := by
  simp [ringEnable, hobj, hready, hon]

theorem ringEnable_waits (hready : s.ringReady r = true) (hon : (s.part (s.ring r).bPart).obj.st ≠ .on) :
    ringEnable r s = .ok (s.setRing r { s.ring r with obj := { st := .off, pending := true } }) := by
  simp [ringEnable, hobj, hready, hon]

theorem ringEnable_refused (hready : s.ringReady r = false) : ringEnable r s = .error 5 := by
  simp [ringEnable, hobj, hready]

end

/-! ### A ring's wind-down (R239) -/

/-- A ring as it enters WINDING. -/
def Ring.wound (x : Ring) : Ring := { x with obj := { st := .winding }, fetched := [], asked := 0, headTick := none }

@[simp] theorem forgetScan_lifeView (r p : Nat) (s : State) : (forgetScan r p s).lifeView = s.lifeView :=
  setPart_lifeView rfl rfl rfl

/-- Beside the ring's own record, its wind-down only ends commands. -/
theorem windRing_lifeView (waits : Bool) (r : Nat) (s : State) (h : (s.ring r).obj.st = .on) :
    (windRing waits r s).lifeView = (s.setRing r (s.ring r).wound).lifeView := by
  have hstop : ∀ q : HRead → Bool, (streamUnbound r (dropReads q (forgetScan r (s.ring r).ctx.part
      (s.setRing r (s.ring r).wound)))).lifeView = (s.setRing r (s.ring r).wound).lifeView := fun q => by
    rw [streamUnbound_lifeView, dropReads_lifeView, forgetScan_lifeView]
  unfold windRing
  dsimp only
  rw [if_pos h]
  split
  · exact (foldl_keeps State.lifeView _ (fun _ _ => complete_lifeView _ _ _ _ _) _ _).trans (hstop _)
  · exact hstop _

theorem windRing_of_not_on (waits : Bool) (r : Nat) (s : State) (h : (s.ring r).obj.st ≠ .on) : windRing waits r s = s := if_neg h

theorem ringDisable_on {r : Nat} {s : State} (h : (s.ring r).obj.st = .on) : ringDisable r s = .ok (windRing true r s) := by
  simp [ringDisable, h]

/-- A drained ring without PENDING goes OFF. -/
theorem ringDown_drained {r : Nat} {s : State} (hobj : (s.ring r).obj = { st := .winding }) (hdone : (s.ring r).inProg = [])
    (htally : (s.ring r).tallyDue = false) (hflr : (s.ten (s.ring r).ctx.tenant).flr = .idle) :
    ringDown r s = s.setRing r { s.ring r with obj := {} } := by
  simp [ringDown, endRing, hobj, hdone, htally, hflr]

/-- Settles O17: the verdicts of an enable, the context that its start samples, and what a wind-down leaves of the ring. -/
theorem ringLifeCycle : Obligations.RingLifeCycle := by
  unfold Obligations.RingLifeCycle
  intro s port r
  refine ⟨fun h hobj hready hon => ?_, fun h hobj hready hon => ?_, fun h hobj hready => ?_, fun h hon => ?_,
    fun hobj hdone htally hflr => ⟨_, exec_ringWindDownDone r s, ringDown_drained hobj hdone htally hflr⟩⟩
  · refine runs_of_regOp_ok h (exec_ringEnable ..) (ringEnable_starts hobj hready hon) ?_
    obtain ⟨hst, hcons, hprod, htally, hcmds, hctx⟩ := startRing_ring_self r.toNat s
    rw [setupNote_ring]
    refine ⟨hst, hcons, hprod, htally, hcmds, hctx, fun q hq => ?_, ?_⟩
    · rw [setupNote_ring, startRing_ring_ne _ _ hq]
    · rw [setupNote_logged, startRing_frame]
      rfl
  · exact runs_of_regOp_ok h (exec_ringEnable ..) (ringEnable_waits hobj hready hon)
      ⟨by rw [setupNote_ring, setRing_self], fun q hq => by rw [setupNote_ring, setRing_ne _ _ hq], setupNote_setRing_frame ..⟩
  · exact runs_of_regOp_error h (exec_ringEnable ..) (ringEnable_refused hobj hready) rfl
  · refine runs_of_regOp_ok h (exec_ringDisable ..) (ringDisable_on hon) ?_
    obtain ⟨hst, hfetched, hcons, -⟩ := lifeView_ring (windRing_lifeView true r.toNat s hon) r.toNat
    rw [setRing_self] at hst hfetched hcons
    rw [setupNote_ring]
    exact ⟨hst, hfetched, hcons⟩

end Sys2Proof.Machine
end

section
/-! PROOFS. Links (O31): they fail, are fenced and unfenced, enter the failed-link map and return to service. -/

namespace Sys2Proof.Machine

open Sys2Proof

theorem exec_linkTrainingLost (l : Fin 800) (s : State) : exec (.linkTrainingLost l) s = .next (trainingLost l.val s) := rfl
theorem exec_failedLinkMapUpdate (s : State) : exec .failedLinkMapUpdate s = .next (mapUpdate s) := rfl
theorem exec_fabLinkFence (port : BitVec 4) (l : BitVec 10) (s : State) :
    exec (.fabLinkFence port l) s = .next (regOp port.toNat 0xB0040 (l.toNat + 0x1000) (linkFence l.toNat s) s) := rfl
theorem exec_fabLinkUnfence (port : BitVec 4) (l : BitVec 10) (s : State) :
    exec (.fabLinkUnfence port l) s = .next (regOp port.toNat 0xB0040 (l.toNat + 0x2000) (linkUnfence l.toNat s) s) := rfl
theorem exec_linkRetrainDone (l : Fin 800) (ok : Bool) (s : State) :
    exec (.linkRetrainDone l ok) s = .next (retrainDone l.val ok s) := rfl

/-! ### Both ports of a link (R407) -/

theorem onLink_frame (l : Nat) (f : Link → Link) (s : State) :
    onLink l f s = { s with fab := { s.fab with links := (onLink l f s).fab.links } } := by
  unfold onLink
  dsimp only
  split <;> rfl

/-- A change that does nothing more when made again is made once of a port's own record, whichever port is at the far end. -/
theorem onLink_link_self (l : Nat) (f : Link → Link) (s : State) (hf : ∀ k, f (f k) = f k) :
    (onLink l f s).link (linkKey s.sh.shape l) = f (s.link (linkKey s.sh.shape l)) := by
  unfold onLink
  dsimp only
  split
  next m _ =>
    by_cases hm : linkKey s.sh.shape l = linkKey s.sh.shape m
    · rw [← hm, setLink_self, setLink_self, hf]
    · rw [setLink_ne _ _ hm, setLink_self]
  next => exact setLink_self ..

/-! ### Failure, FENCE and UNFENCE (R407, R408) -/

theorem failLink_link_self (l reason : Nat) (s : State) (hwhole : (s.link (linkKey s.sh.shape l)).failed = false) :
    ((failLink l reason s).link (linkKey s.sh.shape l)).failed = true ∧
    ((failLink l reason s).link (linkKey s.sh.shape l)).reason = reason := by
  unfold failLink
  rw [onLink_link_self _ _ _ (fun k => by cases hk : k.failed <;> simp [hk]), if_neg (by simp [hwhole])]
  exact ⟨rfl, rfl⟩

theorem linkUp_failed {l : Nat} {s : State} (h : s.linkUp l = true) : (s.link (linkKey s.sh.shape l)).failed = false := by
  unfold State.linkUp at h
  simp only [Bool.and_eq_true, Bool.not_eq_true', Bool.or_eq_false_iff] at h
  obtain ⟨⟨hfailed, -⟩, -⟩ := h
  exact hfailed

theorem runs_linkTrainingLost (s : State) (l : Fin 800) (hup : s.linkUp l.val = true) : Runs (.linkTrainingLost l) s (fun t =>
    (t.link (linkKey s.sh.shape l.val)).failed = true ∧ (t.link (linkKey s.sh.shape l.val)).reason = 1 ∧
    t = { s with fab := { s.fab with links := t.fab.links } }) := by
  refine ⟨_, exec_linkTrainingLost l s, ?_⟩
  rw [trainingLost, if_pos hup]
  obtain ⟨hfailed, hreason⟩ := failLink_link_self l.val 1 s (linkUp_failed hup)
  exact ⟨hfailed, hreason, onLink_frame ..⟩

theorem setupNote_onLink_frame (p a v l : Nat) (f : Link → Link) (s : State) : setupNote p a v (onLink l f s) =
    { logged s (setupNote p a v (onLink l f s)) with
      fab := { s.fab with links := (setupNote p a v (onLink l f s)).fab.links } } := by
  rw [setupNote_logged, onLink_frame]
  rfl

theorem runs_fabLinkFence (s : State) (port : BitVec 4) (b : BitVec 10) (h : s.takesWrites = true) (hb : b.toNat < 800) :
    Runs (.fabLinkFence port b) s (fun t => (t.link (linkKey s.sh.shape b.toNat)).fenced = true ∧
      t = { logged s t with fab := { s.fab with links := t.fab.links } }) := by
  refine runs_of_regOp_ok h (exec_fabLinkFence ..) (if_neg (by omega)) ⟨?_, setupNote_onLink_frame ..⟩
  rw [setupNote_link, onLink_link_self _ _ _ (fun k => by cases hk : k.fenced <;> simp [hk])]
  split
  next hfenced => exact hfenced
  next => rfl

theorem runs_fabLinkUnfence (s : State) (port : BitVec 4) (b : BitVec 10) (h : s.takesWrites = true) (hb : b.toNat < 800)
    (hout : (s.link (linkKey s.sh.shape b.toNat)).failed = true ∨ (s.link (linkKey s.sh.shape b.toNat)).fenced = true) :
    Runs (.fabLinkUnfence port b) s (fun t => (t.link (linkKey s.sh.shape b.toNat)).training = true ∧
      t = { logged s t with fab := { s.fab with links := t.fab.links } }) := by
  refine runs_of_regOp_ok h (exec_fabLinkUnfence ..) (if_neg (by omega)) ⟨?_, setupNote_onLink_frame ..⟩
  rw [setupNote_link, onLink_link_self _ _ _ (fun k => by cases hk : k.failed <;> cases hk' : k.fenced <;> simp [hk, hk']),
    if_pos (by simpa using hout)]

theorem linkFence_above {l : Nat} (s : State) (h : 800 ≤ l) : linkFence l s = .error 3 := if_pos h
theorem linkUnfence_above {l : Nat} (s : State) (h : 800 ≤ l) : linkUnfence l s = .error 3 := if_pos h

/-! ### The failed-link map (R407) -/

/-- A key that a table reads otherwise than unlisted stands in it with what it reads. -/
theorem mem_of_tget_ne {α : Type} {d : α} {k : Nat} {t : Tab α} (h : tget d k t ≠ d) : (k, tget d k t) ∈ t := by
  induction t with
  | nil => exact absurd rfl h
  | cons p t ih =>
    obtain ⟨j, v⟩ := p
    by_cases hj : k = j
    · rw [tget, if_pos hj, hj]
      exact List.mem_cons_self
    · rw [tget, if_neg hj] at h ⊢
      exact List.mem_cons_of_mem _ (ih h)

theorem machineEvent_link (c n d : Nat) (p : Option (BitVec 6)) (a : DWord) (b : Word) (s : State) (q : Nat) :
    (machineEvent c n d p a b s).link q = s.link q := (congrArg (State.link · q) (machineEvent_told c n d p a b s) :)

/-- A link comes into the map, or stays as it was. -/
theorem setLink_inMap_cases (s : State) (m q : Nat) : ∃ b, (s.setLink m { s.link m with inMap := true }).link q =
    { s.link q with inMap := (s.link q).inMap || b } ∧ (q = m → b = true) := by
  by_cases hq : q = m
  · subst hq
    exact ⟨true, by rw [setLink_self, Bool.or_true], fun _ => rfl⟩
  · exact ⟨false, by rw [setLink_ne _ _ hq, Bool.or_false], fun h => absurd h hq⟩

/-- One link's change reaches the map: no record changes but by coming into it, and the link's own does if it is out of use. -/
theorem mapLink_link (key : Nat) (s : State) (q : Nat) : ∃ b, (mapLink key s).link q =
    { s.link q with inMap := (s.link q).inMap || b } ∧
    (q = key → (s.link q).failed = true ∨ (s.link q).fenced = true → (s.link q).inMap = true ∨ b = true) := by
  unfold mapLink
  dsimp only
  split
  · rw [machineEvent_link]
    obtain ⟨b, hb, hkey⟩ := setLink_inMap_cases { s with fab := { s.fab with mapGen := s.fab.mapGen + 1 } } key q
    split
    next m _ =>
      obtain ⟨c, hc, -⟩ := setLink_inMap_cases (State.setLink { s with fab := { s.fab with mapGen := s.fab.mapGen + 1 } } key
        { s.link key with inMap := true }) (linkKey s.sh.shape m) q
      refine ⟨b || c, hc.trans ?_, fun hq _ => .inr (by rw [hkey hq, Bool.true_or])⟩
      rw [← Bool.or_assoc]
      exact congrArg (fun k : Link => { k with inMap := k.inMap || c }) hb
    next => exact ⟨b, hb, fun hq _ => .inr (hkey hq)⟩
  next hmapped =>
    refine ⟨false, by rw [Bool.or_false], fun hq hout => .inl ?_⟩
    subst hq
    rcases hout with hout | hout <;> simpa [hout] using hmapped

/-- Once every link out of use has been gone through, the map holds it. -/
theorem foldl_mapLink_inMap (q : Nat) (l : List Nat) (s : State) (hq : q ∈ l ∨ (s.link q).inMap = true)
    (hout : (s.link q).failed = true ∨ (s.link q).fenced = true) :
    ((l.foldl (fun a k => mapLink k a) s).link q).inMap = true := by
  induction l generalizing s with
  | nil => simpa using hq
  | cons k l ih =>
    obtain ⟨b, hb, hkey⟩ := mapLink_link k s q
    refine ih (mapLink k s) ?_ (by rw [hb]; exact hout)
    rw [hb]
    rcases hq with hq | hq
    · rcases List.mem_cons.1 hq with rfl | hq
      · rcases hkey rfl hout with h | h <;> simp [h]
      · exact .inl hq
    · exact .inr (by rw [hq, Bool.true_or])

theorem runs_failedLinkMapUpdate (s : State) : Runs .failedLinkMapUpdate s (fun t =>
    ∀ q, (s.link q).failed = true ∨ (s.link q).fenced = true → (t.link q).inMap = true) := by
  refine ⟨_, exec_failedLinkMapUpdate s, fun q hout => foldl_mapLink_inMap q _ s (.inl ?_) hout⟩
  have hlisted : s.link q ≠ {} := by
    intro hunlisted
    simp [hunlisted] at hout
  exact List.mem_map_of_mem (mem_of_tget_ne hlisted)

/-! ### Return to service (R408) -/

/-- A link's record as it returns to service. -/
def Link.restored (k : Link) : Link :=
  { k with failed := false, fenced := false, training := false, inMap := false, reason := 0, recent := [] }

/-- The Sound once a circuit over which a link has trained is failed no more (R408). -/
def State.relit (s : State) (l : Nat) : State :=
  let dark := s.sh.dark.filter (fun p => soundPort l != some p && (portFar s l).elim true (fun m => soundPort m != some p))
  if dark.length = s.sh.dark.length then s
  else { s with sh := { s.sh with
    dark := dark, ringsFailed := s.sh.ringsFailed.filter (fun r => dark.any (fun p => s.ringOfPort s.sh.shape p == r)) } }

theorem relit_shape (s : State) (l : Nat) : (s.relit l).sh.shape = s.sh.shape := by
  unfold State.relit
  dsimp only
  split <;> rfl

/-- Of the links, a return to service changes both ports' records. -/
theorem restoreLink_link (l : Nat) (s : State) (q : Nat) :
    (restoreLink l s).link q = (onLink l Link.restored (s.relit l)).link q := machineEvent_link ..

theorem restoreLink_link_self (l : Nat) (s : State) :
    ∃ k : Link, (restoreLink l s).link (linkKey s.sh.shape l) = k.restored :=
  ⟨_, by rw [restoreLink_link, ← relit_shape s l, onLink_link_self l Link.restored _ (fun _ => rfl)]⟩

theorem retrainDone_false {l : Nat} {s : State} (h : (s.link (linkKey s.sh.shape l)).training = true) :
    ((retrainDone l false s).link (linkKey s.sh.shape l)).failed = true ∧
    ((retrainDone l false s).link (linkKey s.sh.shape l)).training = false := by
  rw [retrainDone, if_pos h, Bool.false_and, if_neg (by simp)]
  have hfailed := onLink_link_self l (fun k => { k with failed := true, fenced := false, training := false }) s (fun _ => rfl)
  exact ⟨congrArg Link.failed hfailed, congrArg Link.training hfailed⟩

/-- Settles O31: every change of a link is one of both its ports' records, which does nothing more when made again. -/
theorem linksFailFenceAndReturn : Obligations.LinksFailFenceAndReturn := by
  unfold Obligations.LinksFailFenceAndReturn
  intro s port l b
  refine ⟨runs_linkTrainingLost s l, runs_failedLinkMapUpdate s,
    fun h hb => ⟨runs_fabLinkFence s port b h hb, runs_fabLinkUnfence s port b h hb⟩,
    fun h hb => ⟨runs_of_regOp_error h (exec_fabLinkFence ..) (linkFence_above s hb) rfl,
      runs_of_regOp_error h (exec_fabLinkUnfence ..) (linkUnfence_above s hb) rfl⟩,
    fun htrain hlive => ⟨_, exec_linkRetrainDone .., ?_⟩, fun htrain => ⟨_, exec_linkRetrainDone .., retrainDone_false htrain⟩⟩
  rw [retrainDone, if_pos htrain, if_pos (by rw [hlive]; rfl)]
  obtain ⟨k, hk⟩ := restoreLink_link_self l.val s
  rw [hk]
  exact ⟨rfl, rfl, rfl, rfl⟩

end Sys2Proof.Machine
end

section
/-! PROOFS. Develop contexts (O41): enable, disable, wind-down, bank switch and bank load. -/

namespace Sys2Proof.Machine

open Sys2Proof

theorem exec_pipeBankWrite (port : BitVec 4) (k : Fin 8) (val : Word) (s : State) : exec (.pipeBankWrite port k val) s =
    .next (trayOp (portIntake k.val) port.toNat (ctxPage k.val + 8) val.toNat (bankWrite k.val (bit val 0) s) s) := rfl
theorem exec_bankLoad (port : BitVec 4) (k : Fin 8) (bank : Bool) (s : State) : exec (.bankLoad port k bank) s =
    .next (trayOp (portIntake k.val) port.toNat (ctxPage k.val + 0x20) (1 + 2 * b2n bank) (bankGo k.val bank s) s) := rfl
theorem exec_pipeWindDownDone (k : Fin 8) (s : State) : exec (.pipeWindDownDone k) s = .next (pipeDown k.val s) := rfl
theorem exec_bankLoadComplete (k : Fin 8) (data : List Byte) (failed : Bool) (s : State) :
    exec (.bankLoadComplete k data failed) s = .next (bankLoaded k.val data failed s) := rfl

section
variable {c : Instr} {s : State} {P : State → Prop} {t port off val : Nat} {v : Verdict} (h : s.takesWrites = true)
  (hans : s.trayAnswers t = true) (hexec : exec c s = .next (trayOp t port off val v s))
include h hans hexec

/-- On a page that answers, a context's order is a register write. -/
theorem runs_of_answered_ok {u : State} (hv : v = .ok u) (hP : P (setupNote port off val u)) : Runs c s P :=
  runs_of_regOp_ok h (hexec.trans (congrArg Host.Outcome.next (trayOp_answered hans))) hv hP

theorem runs_of_answered_error {cause : Nat} (hv : v = .error cause) (hP : P (ignoreAcc cause port 0 true off false s)) : Runs c s P :=
  runs_of_regOp_error h (hexec.trans (congrArg Host.Outcome.next (trayOp_answered hans))) hv hP

end

/-! ### Formation of units leaves (R508) -/

/-- The STATE and bindings of contexts and what stands in their banks; and the rings. -/
def State.ctxView (s : State) : (Nat → Obj × List (Nat × Nat) × Tab Byte) × Tab Ring :=
  (fun k => ((s.pipe k).obj, (s.pipe k).bound, (s.pipe k).mem), s.rings)

theorem ctxView_pipe {s t : State} (h : t.ctxView = s.ctxView) (k : Nat) :
    (t.pipe k).obj = (s.pipe k).obj ∧ (t.pipe k).bound = (s.pipe k).bound ∧ (t.pipe k).mem = (s.pipe k).mem := by
  simpa [State.ctxView] using congrFun (congrArg Prod.fst h) k

theorem ctxView_ring {s t : State} (h : t.ctxView = s.ctxView) (r : Nat) : t.ring r = s.ring r := by
  have hrings : t.rings = s.rings := congrArg Prod.snd h
  simp only [State.ring, hrings]

theorem setPipe_ctxView {s : State} {k : Nat} {v : Pipe} (hobj : v.obj = (s.pipe k).obj) (hbound : v.bound = (s.pipe k).bound)
    (hmem : v.mem = (s.pipe k).mem) : (s.setPipe k v).ctxView = s.ctxView := by
  have hpipes : ∀ j, (((s.setPipe k v).pipe j).obj, ((s.setPipe k v).pipe j).bound, ((s.setPipe k v).pipe j).mem) =
      ((s.pipe j).obj, (s.pipe j).bound, (s.pipe j).mem) := by
    intro j
    by_cases hj : j = k
    · rw [hj, setPipe_self, hobj, hbound, hmem]
    · rw [setPipe_ne s v hj]
  simp only [State.ctxView, hpipes]
  rfl

theorem machineEvent_ctxView (c n d : Nat) (p : Option (BitVec 6)) (a : DWord) (b : Word) (s : State) :
    (machineEvent c n d p a b s).ctxView = s.ctxView := (congrArg State.ctxView (machineEvent_told c n d p a b s) :)

theorem discardUnit_ctxView (k cause : Nat) (n : Word) (s : State) : (discardUnit k cause n s).ctxView = s.ctxView :=
  (machineEvent_ctxView ..).trans (setPipe_ctxView rfl rfl rfl)

theorem joinUnit_ctxView (k : Nat) (f : RawFrame) (s : State) : (joinUnit k f s).ctxView = s.ctxView := by
  unfold joinUnit
  dsimp only
  split
  · exact discardUnit_ctxView ..
  · split <;> exact setPipe_ctxView rfl rfl rfl

theorem beginUnit_ctxView (k : Nat) (f : RawFrame) (s : State) : (beginUnit k f s).ctxView = s.ctxView := by
  unfold beginUnit
  dsimp only
  rw [joinUnit_ctxView]
  split <;> exact setPipe_ctxView rfl rfl rfl

theorem mismatch_ctxView (k cause : Nat) (f : RawFrame) (s : State) : (mismatch k cause f s).ctxView = s.ctxView := by
  unfold mismatch
  dsimp only
  split
  · rw [beginUnit_ctxView, discardUnit_ctxView]
  · exact discardUnit_ctxView ..

theorem formFrame_ctxView (k : Nat) (f : RawFrame) (s : State) : (formFrame k f s).ctxView = s.ctxView := by
  unfold formFrame
  dsimp only
  split
  · exact setPipe_ctxView rfl rfl rfl
  · split
    · split
      · exact beginUnit_ctxView ..
      · split
        · rfl
        · exact discardUnit_ctxView ..
    · split
      · exact mismatch_ctxView ..
      · split
        · exact joinUnit_ctxView ..
        · exact mismatch_ctxView ..

theorem landMarker_ctxView (k : Nat) (n : Word) (s : State) : (landMarker k n s).ctxView = s.ctxView := by
  unfold landMarker
  dsimp only
  split
  · exact setPipe_ctxView rfl rfl rfl
  · refine (setPipe_ctxView ?_ ?_ ?_).trans (discardUnit_ctxView ..) <;> rfl

theorem reformItem_ctxView (k : Nat) (q : QItem) (s : State) : (reformItem k q s).ctxView = s.ctxView := by
  cases q with
  | frame f => exact formFrame_ctxView ..
  | marker n => exact landMarker_ctxView ..
  | unit fs b g => exact setPipe_ctxView rfl rfl rfl

theorem reform_ctxView (k : Nat) (s : State) : (reform k s).ctxView = s.ctxView :=
  (foldl_keeps State.ctxView _ (fun a q => reformItem_ctxView k q a) _ _).trans (setPipe_ctxView rfl rfl rfl)

/-! ### Enable (R528, R530) -/

/-- A context's record as its enable samples it. -/
def Pipe.enabled (x : Pipe) : Pipe := { x with obj := { st := .on }, bound := x.binds, stopped := [] }

/-- With every ring that it names ON, an enable stops no formatter: beside its own record it forms units anew. -/
theorem startPipe_eq_reform (k : Nat) (s : State) (hrings : ∀ c ∈ (s.pipe k).binds, (s.ring c.2).obj.st = .on) :
    startPipe k s = reform k (s.setPipe k (s.pipe k).enabled) := by
  refine List.foldlRecOn (s.pipe k).binds _ (motive := fun a => a = reform k (s.setPipe k (s.pipe k).enabled)) rfl ?_
  intro a ha c hc
  have hring : a.ring c.2 = s.ring c.2 := by
    rw [ha, ctxView_ring (reform_ctxView ..)]
    rfl
  rw [if_pos (by rw [hring, hrings c hc]; rfl), ha]

theorem pipeEnable_ok {k : Nat} {s : State} (hobj : (s.pipe k).obj = {})
    (hheader : headerOk ((s.pipe k).header (s.pipe k).bank) ((s.pipe k).binds.map (·.1)) = true)
    (hrings : ∀ c ∈ (s.pipe k).binds, (s.ring c.2).obj.st = .on ∧ (s.ring c.2).ctx.engine = Eng.code .ix ∧
      s.ringTaken k c.1 c.2 = false) (hload : s.reloading 4 k = false) :
    pipeEnable k s = .ok (startPipe k s) := by
  have hfit : (s.pipe k).binds.any (fun b => (s.ring b.2).obj.st != .on || (s.ring b.2).ctx.engine != Eng.code .ix ||
      s.ringTaken k b.1 b.2) = false := by
    rw [List.any_eq_false]
    intro c hc
    obtain ⟨hon, hix, htaken⟩ := hrings c hc
    simp [hon, hix, htaken]
  rw [pipeEnable, if_neg (by simp [hobj]), if_neg (by simp [hheader, hfit]), if_pos (by simp [hobj, hload])]

theorem pipeEnable_badHeader {k : Nat} {s : State} (hobj : (s.pipe k).obj = {})
    (hheader : headerOk ((s.pipe k).header (s.pipe k).bank) ((s.pipe k).binds.map (·.1)) = false) :
    pipeEnable k s = .error 5 := by
  rw [pipeEnable, if_neg (by simp [hobj]), if_pos (by simp [hheader])]

/-! ### Disable and wind-down (R531, R537) -/

theorem modePoint_pipe (t : Nat) (s : State) (j : Nat) : (modePoint t s).pipe j = s.pipe j := by
  obtain ⟨i, h⟩ := modePoint_frame t s
  rw [h]
  rfl

theorem pipeOff_pipe_self (k : Nat) (s : State) : ((pipeOff k s).pipe k).obj = {} ∧ ((pipeOff k s).pipe k).mem = (s.pipe k).mem := by
  rw [pipeOff, modePoint_pipe, setPipe_self]
  exact ⟨rfl, rfl⟩

/-- A load that stops changes its own state only. -/
theorem stopLoad_pipe (k : Nat) (s : State) (j : Nat) : ((stopLoad k s).pipe j).dev = (s.pipe j).dev ∧
    ((stopLoad k s).pipe j).mem = (s.pipe j).mem := by
  unfold stopLoad
  dsimp only
  split
  · by_cases hj : j = k
    · subst hj
      have hself : ∀ (q : HRead → Bool) (v : Pipe), (dropReads q (s.setPipe j v)).pipe j = v := fun _ v => setPipe_self s j v
      rw [hself]
      exact ⟨rfl, rfl⟩
    · have hne : ∀ (q : HRead → Bool) (v : Pipe), (dropReads q (s.setPipe k v)).pipe j = s.pipe j := fun _ v => setPipe_ne s v hj
      rw [hne]
      exact ⟨rfl, rfl⟩
  · exact ⟨rfl, rfl⟩

theorem pipeWorks_congr {s t : State} (h : ∀ j, (t.pipe j).dev = (s.pipe j).dev) (k : Nat) : t.pipeWorks k = s.pipeWorks k := by
  simp only [State.pipeWorks, h]

/-- A disable from ON winds the context down while a unit of it is in development (R531). -/
theorem pipeDisable_on {k : Nat} {s : State} (h : (s.pipe k).obj.st = .on) : ∃ u, pipeDisable k s = .ok u ∧
    (u.pipe k).obj = { st := if s.pipeWorks k then .winding else .off } ∧ (u.pipe k).mem = (s.pipe k).mem := by
  have hdisable : ∀ s1 : State, (∀ j, (s1.pipe j).dev = (s.pipe j).dev ∧ (s1.pipe j).mem = (s.pipe j).mem) →
      let u := if s1.pipeWorks k then s1.setPipe k { s1.pipe k with obj := { st := .winding } } else pipeOff k s1
      (u.pipe k).obj = { st := if s.pipeWorks k then .winding else .off } ∧ (u.pipe k).mem = (s.pipe k).mem := by
    intro s1 hs1
    rw [pipeWorks_congr (fun j => (hs1 j).1)]
    dsimp only
    split
    · rw [setPipe_self]
      exact ⟨rfl, (hs1 k).2⟩
    · obtain ⟨hoff, hmem⟩ := pipeOff_pipe_self k s1
      exact ⟨hoff, hmem.trans (hs1 k).2⟩
  refine ⟨_, by simp only [pipeDisable, h]; rfl, hdisable _ ?_⟩
  split
  · exact stopLoad_pipe k s
  · exact fun _ => ⟨rfl, rfl⟩

theorem pipeDown_ends {k : Nat} {s : State} (hobj : (s.pipe k).obj = { st := .winding }) (hworks : s.pipeWorks k = false) :
    pipeDown k s = pipeOff k s := by
  simp [pipeDown, hobj, hworks]

/-! ### Banks (R525, R527) -/

theorem bankWrite_switches {k : Nat} {b : Bool} {s : State} (hoff : (s.pipe k).obj.st = .off) (hother : b ≠ (s.pipe k).bank)
    (hvalid : (s.pipe k).bankOk b = true) (hidle : (s.pipe k).loadBusy = false) :
    bankWrite k b s = .ok (s.setPipe k { s.pipe k with bank := b, req := b, gen := (s.pipe k).gen + 1 }) := by
  simp [bankWrite, hoff, hother, hvalid, hidle]

/-- A host read of the machine's own is outstanding under the next number; it leaves every context as it is. -/
theorem ctlRead_reads (a : DWord) (len : Nat) (pu : RdPurpose) (s : State) : (ctlRead a len pu s).reads =
    tset none s.nextRead (some {
      tenant := none, port := s.ctlPort, fn := 0, addr := a, len := len, purpose := pu, sent := s.ctlCan, tick := s.win.tb })
      s.reads := by
  unfold ctlRead
  dsimp only
  split <;> rfl

theorem ctlRead_pipe (a : DWord) (len : Nat) (pu : RdPurpose) (s : State) (j : Nat) : (ctlRead a len pu s).pipe j = s.pipe j := by
  unfold ctlRead
  dsimp only
  split <;> rfl

/-- A context's record as a load into bank `b` starts. -/
def Pipe.loading (x : Pipe) (b : Bool) : Pipe :=
  { x with loadBusy := true, loadBank := b, runSrc := x.loadSrc, runDst := x.loadDst.toNat, runLen := x.loadLen.toNat, loadDone := 0 }

theorem bankGo_starts {k : Nat} {b : Bool} {s : State} (hlen : (s.pipe k).loadLen ≠ 0)
    (hfits : (s.pipe k).loadDst.toNat + (s.pipe k).loadLen.toNat ≤ 2 ^ 32) (hidle : (s.pipe k).loadBusy = false)
    (hother : b ≠ (s.pipe k).bank) : bankGo k b s =
      .ok (ctlRead (s.pipe k).loadSrc (s.pipe k).loadLen.toNat (.bank (portIntake k) (k % 4)) (s.setPipe k ((s.pipe k).loading b))) := by
  have hlen' : (s.pipe k).loadLen.toNat ≠ 0 := fun h => hlen (BitVec.eq_of_toNat_eq h)
  rw [bankGo, if_neg (by omega), if_neg (by simp [hidle]), if_neg (by simp [hother])]
  rfl

/-- A context's record once all the bytes of its load have come. -/
def Pipe.loaded (x : Pipe) (data : List Byte) : Pipe :=
  { x with
    mem := putBytes x.mem (b2n x.loadBank * 2 ^ 32 + x.runDst) data, loadDone := data.length, loadBusy := false, loadResult := 0 }

/-- The first bytes of a load fill its bank from its first address. -/
theorem bankFill_first {k : Nat} {data : List Byte} {s : State} (hfirst : (s.pipe k).loadDone = 0)
    (hlen : data.length = (s.pipe k).runLen) : bankFill k data s = s.setPipe k { s.pipe k with
      mem := putBytes (s.pipe k).mem (b2n (s.pipe k).loadBank * 2 ^ 32 + (s.pipe k).runDst) data, loadDone := data.length } := by
  have htake : data.take ((s.pipe k).runLen - 0) = data := List.take_of_length_le (by omega)
  simp only [bankFill, hfirst, htake, Nat.add_zero, Nat.zero_add]

theorem bankLoaded_whole {k id : Nat} {h : HRead} {data : List Byte} {s : State}
    (hread : s.readFor (fun u => u == .bank (portIntake k) (k % 4)) = some (id, h)) (hbusy : (s.pipe k).loadBusy = true)
    (hsent : h.sent = true) (hfirst : (s.pipe k).loadDone = 0) (hlen : data.length = (s.pipe k).runLen) :
    ∃ u : State, (∀ j, j ≠ k → u.pipe j = s.pipe j) ∧ bankLoaded k data false s = u.setPipe k ((s.pipe k).loaded data) := by
  have hall : (!false && (s.pipe k).loadDone + data.length != (s.pipe k).runLen) = false := by simp [hfirst, hlen]
  have hfill : bankFill k data (endRead id s) = _ := bankFill_first (s := endRead id s) hfirst hlen
  refine ⟨bankFill k data (endRead id s), fun j hj => ?_, ?_⟩
  · rw [hfill]
    exact setPipe_ne (endRead id s) _ hj
  · unfold bankLoaded
    dsimp only
    rw [hread]
    dsimp only
    rw [hbusy, hsent, hall, if_neg (by decide), if_neg (by decide), hfill, setPipe_self]
    rfl

theorem runs_bankLoadComplete (s : State) (k : Fin 8) (id : Nat) (h : HRead) (data : List Byte)
    (hread : s.readFor (fun u => u == .bank (14 + k.val / 4) (k.val % 4)) = some (id, h)) (hbusy : (s.pipe k.val).loadBusy = true)
    (hsent : h.sent = true) (hfirst : (s.pipe k.val).loadDone = 0) (hlen : data.length = (s.pipe k.val).runLen) :
    let x := s.pipe k.val
    Runs (.bankLoadComplete k data false) s (fun t => (t.pipe k.val).loadBusy = false ∧ (t.pipe k.val).loadResult = 0 ∧
      (∀ i, i < data.length → tget 0 (b2n x.loadBank * 2 ^ 32 + x.runDst + i) (t.pipe k.val).mem = data.getD i 0) ∧
      (∀ a, a < b2n x.loadBank * 2 ^ 32 + x.runDst ∨ b2n x.loadBank * 2 ^ 32 + x.runDst + data.length ≤ a →
        tget 0 a (t.pipe k.val).mem = tget 0 a x.mem) ∧ ∀ j, j ≠ k.val → t.pipe j = s.pipe j) := by
  obtain ⟨u, hother, hloaded⟩ := bankLoaded_whole hread hbusy hsent hfirst hlen
  refine ⟨_, exec_bankLoadComplete k data false s, ?_⟩
  rw [hloaded]
  dsimp only
  rw [setPipe_self]
  refine ⟨rfl, rfl, fun i hi => ?_, fun a ha => tget_putBytes_out _ _ _ _ ha, fun j hj => ?_⟩
  · exact (tget_putBytes_in _ _ _ _ hi).trans (List.getD_eq_getElem _ _ hi).symm
  · rw [setPipe_ne _ _ hj, hother j hj]

/-! ### O41 -/

section
variable {s : State} (h : s.takesWrites = true) (port : BitVec 4) (k : Fin 8) (hans : s.trayAnswers (14 + k.val / 4) = true)
include h hans

theorem runs_pipeEnable (hobj : (s.pipe k.val).obj = {})
    (hheader : headerOk ((s.pipe k.val).header (s.pipe k.val).bank) ((s.pipe k.val).binds.map (·.1)) = true)
    (hrings : ∀ c ∈ (s.pipe k.val).binds, (s.ring c.2).obj.st = .on ∧ (s.ring c.2).ctx.engine = Eng.code .ix ∧
      s.ringTaken k.val c.1 c.2 = false) (hload : s.reloading 4 k.val = false) :
    Runs (.pipeEnable port k) s (fun t => (t.pipe k.val).obj = { st := .on } ∧ (t.pipe k.val).bound = (s.pipe k.val).binds ∧
      (t.pipe k.val).mem = (s.pipe k.val).mem) := by
  refine runs_of_answered_ok h hans (exec_pipeEnable ..) (pipeEnable_ok hobj hheader hrings hload) ?_
  rw [setupNote_pipe, startPipe_eq_reform _ _ (fun c hc => (hrings c hc).1)]
  simpa [Pipe.enabled] using ctxView_pipe (reform_ctxView k.val (s.setPipe k.val (s.pipe k.val).enabled)) k.val

theorem runs_pipeDisable (hon : (s.pipe k.val).obj.st = .on) : Runs (.pipeDisable port k) s (fun t =>
    (t.pipe k.val).obj = { st := if s.pipeWorks k.val then .winding else .off } ∧ (t.pipe k.val).mem = (s.pipe k.val).mem) := by
  obtain ⟨u, hu, hobj, hmem⟩ := pipeDisable_on hon
  refine runs_of_answered_ok h hans (exec_pipeDisable ..) hu ?_
  rw [setupNote_pipe]
  exact ⟨hobj, hmem⟩

theorem runs_pipeBankWrite (val : Word) (hoff : (s.pipe k.val).obj.st = .off) (hother : bit val 0 ≠ (s.pipe k.val).bank)
    (hvalid : (s.pipe k.val).bankOk (bit val 0) = true) (hidle : (s.pipe k.val).loadBusy = false) :
    Runs (.pipeBankWrite port k val) s (fun t =>
      t.pipe k.val = { s.pipe k.val with bank := bit val 0, req := bit val 0, gen := (s.pipe k.val).gen + 1 } ∧
      (∀ j, j ≠ k.val → t.pipe j = s.pipe j) ∧ t = { logged s t with pipes := t.pipes }) :=
  runs_of_answered_ok h hans (exec_pipeBankWrite ..) (bankWrite_switches hoff hother hvalid hidle)
    ⟨by rw [setupNote_pipe, setPipe_self], fun j hj => by rw [setupNote_pipe, setPipe_ne _ _ hj], setupNote_setPipe_frame ..⟩

theorem runs_bankLoad (b : Bool) (hlen : (s.pipe k.val).loadLen ≠ 0)
    (hfits : (s.pipe k.val).loadDst.toNat + (s.pipe k.val).loadLen.toNat ≤ 2 ^ 32) (hidle : (s.pipe k.val).loadBusy = false)
    (hother : b ≠ (s.pipe k.val).bank) : Runs (.bankLoad port k b) s (fun t =>
      (t.pipe k.val).loadBusy = true ∧ (t.pipe k.val).loadBank = b ∧ (t.pipe k.val).loadDone = 0 ∧
      tget none s.nextRead t.reads = some {
        tenant := none, port := s.ctlPort, fn := 0, addr := (s.pipe k.val).loadSrc, len := (s.pipe k.val).loadLen.toNat,
        purpose := .bank (14 + k.val / 4) (k.val % 4), sent := s.ctlCan, tick := s.win.tb } ∧
      ∀ j, j ≠ k.val → t.pipe j = s.pipe j) := by
  refine runs_of_answered_ok h hans (exec_bankLoad ..) (bankGo_starts hlen hfits hidle hother) ?_
  rw [setupNote_pipe, ctlRead_pipe, setPipe_self, setupNote_reads, ctlRead_reads]
  refine ⟨rfl, rfl, rfl, tget_tset_self .., fun j hj => ?_⟩
  rw [setupNote_pipe, ctlRead_pipe, setPipe_ne _ _ hj]

end

/-- Settles O41: an order's verdict, and what of the context it leaves; units that form anew at an enable change neither its STATE
nor its banks. -/
theorem contextsAreEnabledAndLoaded : Obligations.ContextsAreEnabledAndLoaded := by
  unfold Obligations.ContextsAreEnabledAndLoaded
  intro s port k val b
  refine ⟨fun h hans => ⟨runs_pipeEnable h port k hans, fun hobj hheader => ?_, runs_pipeDisable h port k hans,
    runs_pipeBankWrite h port k hans val, runs_bankLoad h port k hans b⟩, fun hobj hworks => ?_, runs_bankLoadComplete s k⟩
  · exact runs_of_answered_error h hans (exec_pipeEnable ..) (pipeEnable_badHeader hobj hheader) rfl
  · refine ⟨_, exec_pipeWindDownDone k s, ?_⟩
    rw [pipeDown_ends hobj hworks]
    exact (pipeOff_pipe_self k.val s).1

end Sys2Proof.Machine
end

section
/-! PROOFS. The life cycle of a tenant (O13). -/

namespace Sys2Proof.Machine

open Sys2Proof

theorem exec_tenantWindDownDone (n : BitVec 4) (s : State) : exec (.tenantWindDownDone n) s = .next (tenantDown n.toNat s) := rfl

/-! ### Module keys and bindings that a fold over modules changes -/

/-- What a fold over modules makes of a field that each step changes at its own module, to no further effect when repeated. -/
theorem foldl_mod_field {β : Type} (φ : Mod → β) (γ : β → β) (hγ : ∀ b, γ (γ b) = γ b) (f : State → Nat → State)
    (hself : ∀ a w, φ ((f a w).mod w) = γ (φ (a.mod w))) (hne : ∀ a w v, v ≠ w → φ ((f a w).mod v) = φ (a.mod v))
    (l : List Nat) (s : State) (w : Nat) :
    φ ((l.foldl f s).mod w) = if w ∈ l then γ (φ (s.mod w)) else φ (s.mod w) := by
  induction l generalizing s with
  | nil => rfl
  | cons x l ih =>
    rw [List.foldl_cons, ih]
    by_cases hw : w = x
    · subst hw
      rw [hself, if_pos List.mem_cons_self]
      split
      · exact hγ _
      · rfl
    · rw [hne _ _ _ hw]
      simp only [List.mem_cons, hw, false_or]

/-- A slot's mask of a tenant holds it no more once erased. -/
def eraseBit (n : Nat) (b : BitVec 16) : BitVec 16 := b &&& ~~~(BitVec.ofNat 16 (2 ^ n))

theorem eraseBit_idem (n : Nat) (b : BitVec 16) : eraseBit n (eraseBit n b) = eraseBit n b := by
  rw [eraseBit, eraseBit, BitVec.and_assoc, BitVec.and_self]

theorem getLsbD_eraseBit {n : Nat} (hn : n < 16) (b : BitVec 16) : (eraseBit n b).getLsbD n = false := by
  have hbit : (BitVec.ofNat 16 (2 ^ n)).getLsbD n = true := by
    rw [BitVec.getLsbD_ofNat, Nat.testBit_two_pow_self, Bool.and_true]
    exact decide_eq_true hn
  rw [eraseBit, BitVec.getLsbD_and, BitVec.getLsbD_not, hbit]
  simp

theorem eraseSlots_keyTen (n : Nat) (l : List Nat) (s : State) (w : Nat) :
    ((eraseSlots n l s).mod w).keyTen = if w ∈ l then eraseBit n (s.mod w).keyTen else (s.mod w).keyTen :=
  foldl_mod_field Mod.keyTen (eraseBit n) (eraseBit_idem n) _ (fun a w => by rw [setMod_self]; rfl)
    (fun a w v hv => by rw [setMod_ne _ _ hv]) l s w

/-- Erased wherever a slot holds it, a tenant's key stands in no slot. -/
theorem eraseSlots_everywhere {n : Nat} (hn : n < 16) (s : State) (w : Nat) :
    ((eraseSlots n ((s.mods.filter (fun m => m.2.keyTen.getLsbD n)).map (·.1)) s).mod w).keyTen.getLsbD n = false := by
  rw [eraseSlots_keyTen]
  split
  · exact getLsbD_eraseBit hn _
  next hw =>
    by_contra hset
    rw [Bool.not_eq_false] at hset
    have hlisted : s.mod w ≠ {} := by
      intro hunlisted
      simp [hunlisted] at hset
    exact hw (List.mem_map_of_mem (List.mem_filter.2 ⟨mem_of_tget_ne hlisted, hset⟩))

/-! ### What stays of the tenants when partitions start and wind down -/

/-- A view that no update of a partition, ring or module and no zeroing of scratch touches is kept by the start of an enable. -/
theorem startEnable_keeps {γ : Type} (v : State → γ) (hpart : ∀ a p x, v (State.setPart a p x) = v a)
    (hring : ∀ a r x, v (State.setRing a r x) = v a) (hmod : ∀ a w x, v (State.setMod a w x) = v a)
    (hscratch : ∀ a w, v (zeroScratch w a) = v a) (p : Nat) (s : State) : v (startEnable p s) = v s := by
  unfold startEnable
  dsimp only
  split
  · exact (foldl_keeps v _ (fun a w => (hscratch _ w).trans (hmod _ _ _)) _ _).trans (hpart _ _ _)
  · exact (foldl_keeps v _ (fun a r => hring _ _ _) _ _).trans (hpart _ _ _)

/-- Tables and blocks that the starts of partition enables leave as they are. -/
theorem startEnables_tens (l : List Nat) (s : State) : (l.foldl (fun a p => startEnable p a) s).tens = s.tens :=
  foldl_keeps State.tens _ (fun a p => startEnable_keeps State.tens (fun _ _ _ => rfl) (fun _ _ _ => rfl) (fun _ _ _ => rfl)
    (fun _ _ => rfl) p a) l s

theorem startEnables_win (l : List Nat) (s : State) : (l.foldl (fun a p => startEnable p a) s).win = s.win :=
  foldl_keeps State.win _ (fun a p => startEnable_keeps State.win (fun _ _ _ => rfl) (fun _ _ _ => rfl) (fun _ _ _ => rfl)
    (fun _ _ => rfl) p a) l s

/-! ### Enable (R186, R208, R245, R259) -/

/-- A tenant's record as its enable samples it. -/
def Ten.started (t : Ten) : Ten :=
  { t with obj := { st := .on }, bound := t.bind, dbS := t.db, evtS := t.evt, evtSizeS := t.evtSize, evtK := 0, nextSeq := 1 }

/-- Of the tenants, an enable changes its own. -/
theorem startTen_ten (n : Nat) (s : State) (m : Nat) : (startTen n s).ten m = (s.setTen n (s.ten n).started).ten m := by
  have htens : (startTen n s).tens = (s.setTen n (s.ten n).started).tens := startEnables_tens _ _
  simp only [State.ten, htens]

theorem startTen_win (n : Nat) (s : State) : (startTen n s).win = s.win := startEnables_win _ _

theorem tenantEnable_starts {n : Nat} {s : State} (hoff : (s.ten n).obj.st = .off) (hready : s.tenReady n = true) :
    tenantEnable n s = .ok (startTen n s) := by
  simp [tenantEnable, hoff, hready]

theorem tenantEnable_refused {n : Nat} {s : State} (hoff : (s.ten n).obj.st = .off) (hready : s.tenReady n = false) :
    tenantEnable n s = .error 5 := by
  simp [tenantEnable, hoff, hready]

theorem tenantEnable_latched {n : Nat} {s : State} (hobj : (s.ten n).obj = { st := .winding }) (hready : s.tenReady n = true) :
    tenantEnable n s = .ok (s.setTen n { s.ten n with obj := { st := .winding, pending := true } }) := by
  simp [tenantEnable, hobj, hready]

/-! ### Disable (R209) -/

/-- STATE and PENDING of the tenants. -/
def State.tenObjs (s : State) : Nat → Obj := fun n => (s.ten n).obj

theorem setMod_tenObjs (s : State) (w : Nat) (x : Mod) : (s.setMod w x).tenObjs = s.tenObjs := rfl
theorem setRing_tenObjs (s : State) (r : Nat) (x : Ring) : (s.setRing r x).tenObjs = s.tenObjs := rfl

theorem tenObjs_of_lifeView {s t : State} (h : t.lifeView = s.lifeView) : t.tenObjs = s.tenObjs := congrArg Prod.fst h

theorem windRing_tenObjs (waits : Bool) (r : Nat) (s : State) : (windRing waits r s).tenObjs = s.tenObjs := by
  by_cases hon : (s.ring r).obj.st = .on
  · exact (tenObjs_of_lifeView (windRing_lifeView waits r s hon)).trans (setRing_tenObjs ..)
  · rw [windRing_of_not_on waits r s hon]

theorem closeGates_tenObjs (l : List Nat) (s : State) : (closeGates l s).tenObjs = s.tenObjs :=
  foldl_keeps State.tenObjs _ (fun _ _ => setMod_tenObjs ..) _ _

theorem eraseSlots_tenObjs (n : Nat) (l : List Nat) (s : State) : (eraseSlots n l s).tenObjs = s.tenObjs :=
  foldl_keeps State.tenObjs _ (fun _ _ => setMod_tenObjs ..) _ _

theorem unbind_tenObjs (l : List Nat) (s : State) : (unbind l s).tenObjs = s.tenObjs :=
  foldl_keeps State.tenObjs _ (fun _ _ => setMod_tenObjs ..) _ _

theorem clearPendingRings_tenObjs (p : Nat) (s : State) : (clearPendingRings p s).tenObjs = s.tenObjs :=
  foldl_keeps State.tenObjs _ (fun _ _ => setRing_tenObjs ..) _ _

theorem stopPart_tenObjs (p : Nat) (cut : Bool) (s : State) : (stopPart p cut s).tenObjs = s.tenObjs := by
  have hrings : ∀ l : List Nat, (l.foldl (fun a r => windRing (!cut) r a) s).tenObjs = s.tenObjs := fun l =>
    foldl_keeps State.tenObjs _ (fun a r => windRing_tenObjs _ r a) l s
  unfold stopPart
  dsimp only
  split
  · rw [closeGates_tenObjs, tenObjs_of_lifeView (cutCommands_lifeView ..), hrings]
  · exact hrings _

theorem cancelEnable_tenObjs (p : Nat) (s : State) : (cancelEnable p s).tenObjs = s.tenObjs :=
  (clearPendingRings_tenObjs ..).trans ((unbind_tenObjs ..).trans (eraseSlots_tenObjs ..))

theorem windPart_tenObjs (p : Nat) (how : Wind) (lost : Bool) (s : State) : (windPart p how lost s).tenObjs = s.tenObjs := by
  unfold windPart
  dsimp only
  split
  · split
    · exact clearPendingRings_tenObjs ..
    · rfl
  · exact (stopPart_tenObjs ..).trans (clearPendingRings_tenObjs ..)
  · split
    · split
      · exact eraseSlots_tenObjs ..
      · exact cancelEnable_tenObjs ..
    · split
      · rw [stopPart_tenObjs]
        split
        · rfl
        · exact clearPendingRings_tenObjs ..
      · exact clearPendingRings_tenObjs ..

theorem dropEphemeral_frame (n : Nat) (s : State) : dropEphemeral n s = { s with tens := (dropEphemeral n s).tens } := by
  unfold dropEphemeral
  dsimp only
  split <;> rfl

theorem dropEphemeral_obj (n : Nat) (s : State) : ((dropEphemeral n s).ten n).obj = (s.ten n).obj := by
  unfold dropEphemeral
  dsimp only
  split
  · rw [setTen_self]
  · rfl

/-- A tenant as the ends of its partitions and rings begin leaves STATE WINDING alone, and no module keeps its key. -/
theorem windTen_winds {n : Nat} (hn : n < 16) (s : State) : ((windTen n s).ten n).obj = { st := .winding } ∧
    ∀ w, ((windTen n s).mod w).keyTen.getLsbD n = false := by
  have hend : ∃ u : State, u.tenObjs = (s.setTen n { s.ten n with obj := { st := .winding } }).tenObjs ∧ windTen n s =
      dropEphemeral n (eraseSlots n ((u.mods.filter (fun m => m.2.keyTen.getLsbD n)).map (·.1)) u) :=
    ⟨_, (foldl_keeps State.tenObjs _ (fun a r => windRing_tenObjs true r a) _ _).trans
      (foldl_keeps State.tenObjs _ (fun a p => windPart_tenObjs p .cut false a) _ _), rfl⟩
  obtain ⟨u, hobjs, hwind⟩ := hend
  rw [hwind]
  refine ⟨?_, fun w => ?_⟩
  · rw [dropEphemeral_obj]
    calc (eraseSlots n _ u).tenObjs n = u.tenObjs n := by rw [eraseSlots_tenObjs]
      _ = _ := by rw [hobjs, State.tenObjs, setTen_self]
  · rw [dropEphemeral_frame]
    exact eraseSlots_everywhere hn u w

theorem tenantDisable_on {n : Nat} {s : State} (hon : (s.ten n).obj.st = .on) : tenantDisable n s = .ok (windTen n s) := by
  simp [tenantDisable, hon]

theorem tenantDisable_winding {n : Nat} {s : State} (hw : (s.ten n).obj.st = .winding) :
    tenantDisable n s = .ok (clearPendingParts n (s.setTen n { s.ten n with obj := { st := .winding } })) := by
  simp [tenantDisable, hw]

/-! ### The end of a wind-down (R209, R275) -/

/-- `t` differs from `s` in partitions and rings only. -/
def PartsRings (s t : State) : Prop := t = { s with parts := t.parts, rings := t.rings }

theorem PartsRings.trans {a b c : State} (h : PartsRings a b) (g : PartsRings b c) : PartsRings a c := by
  unfold PartsRings at *
  rw [g, h]

theorem setRing_partsRings (s : State) (r : Nat) (x : Ring) : PartsRings s (s.setRing r x) := rfl
theorem setPart_partsRings (s : State) (p : Nat) (x : Part) : PartsRings s (s.setPart p x) := rfl

theorem foldl_partsRings {α : Type} (f : State → α → State) (hf : ∀ a x, PartsRings a (f a x)) (l : List α) (s : State) :
    PartsRings s (l.foldl f s) :=
  l.foldlRecOn f (motive := PartsRings s) rfl (fun a ha x _ => ha.trans (hf a x))

theorem clearPendingRings_partsRings (p : Nat) (s : State) : PartsRings s (clearPendingRings p s) :=
  foldl_partsRings _ (fun _ _ => setRing_partsRings ..) _ _

theorem clearPendingParts_partsRings (n : Nat) (s : State) : PartsRings s (clearPendingParts n s) :=
  foldl_partsRings _ (fun _ _ => (setPart_partsRings ..).trans (clearPendingRings_partsRings ..)) _ _

/-- A tenant's reads are dropped, and of its partitions the scans that waited for them. -/
theorem dropTenReads_partsRings (n : Nat) (s : State) :
    PartsRings (dropReads (fun h => h.tenant == some n) s) (dropTenReads n s) := by
  refine foldl_partsRings _ (fun a p => ?_) _ _
  split <;> rfl

theorem dropReads_readsOf (n : Nat) (s : State) : (dropReads (fun h => h.tenant == some n) s).readsOf n = [] := by
  rw [State.readsOf, List.filterMap_eq_nil_iff]
  intro x hx
  obtain ⟨id, h⟩ := x
  obtain ⟨-, hkept⟩ := List.mem_filter.1 hx
  cases h with
  | none => rfl
  | some r => simpa using hkept

/-- A tenant's record once its wind-down has ended. -/
def Ten.ended (t : Ten) : Ten :=
  { t with obj := {}, evtLost := satAdd t.evtLost t.held.length, held := [], heldLost := 0, heldW := [] }

/-- Nothing is left that a tenant's wind-down waits for (R209). -/
def State.tenDrained (s : State) (n : Nat) : Prop :=
  (s.ten n).flr = .idle ∧ (s.partsOf n).all (fun p => (s.part p).obj.st == .off) = true ∧ (s.ringsOfTen n).isEmpty = true

theorem tenDrained_of {n : Nat} {s : State} (hflr : (s.ten n).flr = .idle) (hparts : ∀ p ∈ s.partsOf n, (s.part p).obj.st = .off)
    (hrings : s.ringsOfTen n = []) : s.tenDrained n :=
  ⟨hflr, List.all_eq_true.2 (fun p hp => by rw [hparts p hp]; rfl), by rw [hrings]; rfl⟩

theorem tenantDown_ends {n : Nat} {s : State} (hobj : (s.ten n).obj = { st := .winding }) (hdrained : s.tenDrained n) :
    PartsRings (dropReads (fun h => h.tenant == some n) (s.setTen n (s.ten n).ended)) (tenantDown n s) := by
  have hdown : tenantDown n s = clearPendingParts n (dropTenReads n (s.setTen n (s.ten n).ended)) := by
    unfold tenantDown
    dsimp only
    rw [if_pos ⟨by rw [hobj], hdrained⟩, if_neg (by simp [hobj])]
    rfl
  rw [hdown]
  exact (dropTenReads_partsRings ..).trans (clearPendingParts_partsRings ..)

theorem tenantDown_restarts {n : Nat} {s : State} (hobj : (s.ten n).obj = { st := .winding, pending := true })
    (hready : s.tenReady n = true) (hdrained : s.tenDrained n) : tenantDown n s = startTen n s := by
  unfold tenantDown
  dsimp only
  rw [if_pos ⟨by rw [hobj], hdrained⟩, if_pos (by simp [hobj, hready])]

theorem runs_tenantWindDownDone (s : State) (n : BitVec 4) (hobj : (s.ten n.toNat).obj = { st := .winding })
    (hdrained : s.tenDrained n.toNat) : Runs (.tenantWindDownDone n) s (fun t =>
      (t.ten n.toNat).obj = {} ∧ (t.ten n.toNat).held = [] ∧ (t.ten n.toNat).heldW = [] ∧
      t.readsOf n.toNat = [] ∧ (∀ m, m ≠ n.toNat → t.ten m = s.ten m) ∧
      t = { s with tens := t.tens, reads := t.reads, parts := t.parts, rings := t.rings }) := by
  refine ⟨_, exec_tenantWindDownDone n s, ?_⟩
  have hframe := tenantDown_ends hobj hdrained
  have hten : ∀ m, (tenantDown n.toNat s).ten m = (s.setTen n.toNat (s.ten n.toNat).ended).ten m := fun m =>
    (congrArg (State.ten · m) hframe :)
  have hreads := dropReads_readsOf n.toNat (s.setTen n.toNat (s.ten n.toNat).ended)
  dsimp only
  rw [hten, setTen_self]
  refine ⟨rfl, rfl, rfl, ?_, fun m hm => by rw [hten, setTen_ne _ _ hm], ?_⟩
  · rw [hframe]
    exact hreads
  · rw [hframe]
    rfl

/-- Settles O13: an enable samples, partitions that start with it change no tenant; a disable ends with the erasure of the key from
every slot that holds it; and a wind-down's end drops the tenant's reads and clears what waits on it. -/
theorem tenantLifeCycle : Obligations.TenantLifeCycle := by
  unfold Obligations.TenantLifeCycle
  intro s port n
  refine ⟨fun h hoff hready => ?_, fun h hoff hready => ?_, fun h hon => ?_, fun hobj hflr hparts hrings => ?_,
    fun hobj hflr hready hparts hrings => ?_, fun h hobj hready => ?_, fun h hw => ?_⟩
  · refine runs_of_regOp_ok h (exec_tenantEnable ..) (tenantEnable_starts hoff hready) ?_
    rw [setupNote_ten, startTen_ten, setTen_self, setupNote_win, startTen_win]
    exact ⟨rfl, rfl, rfl, rfl, rfl, rfl, rfl, fun m hm => by rw [setupNote_ten, startTen_ten, setTen_ne _ _ hm], rfl⟩
  · exact runs_of_regOp_error h (exec_tenantEnable ..) (tenantEnable_refused hoff hready) rfl
  · refine runs_of_regOp_ok h (exec_tenantDisable ..) (tenantDisable_on hon) ?_
    obtain ⟨hobj, hkeys⟩ := windTen_winds n.isLt s
    exact ⟨by rw [setupNote_ten, hobj], fun w => by rw [setupNote_mod, hkeys]⟩
  · exact runs_tenantWindDownDone s n hobj (tenDrained_of hflr hparts hrings)
  · refine ⟨_, exec_tenantWindDownDone n s, ?_⟩
    rw [tenantDown_restarts hobj hready (tenDrained_of hflr hparts hrings)]
    dsimp only
    rw [startTen_ten, setTen_self]
    exact ⟨rfl, rfl, fun m hm => by rw [startTen_ten, setTen_ne _ _ hm]⟩
  · exact runs_of_regOp_ok h (exec_tenantEnable ..) (tenantEnable_latched hobj hready)
      ⟨by rw [setupNote_ten, setTen_self], setupNote_setTen_frame ..⟩
  · refine runs_of_regOp_ok h (exec_tenantDisable ..) (tenantDisable_winding hw) ?_
    have hten : ∀ m, (clearPendingParts n.toNat (s.setTen n.toNat { s.ten n.toNat with obj := { st := .winding } })).ten m =
        (s.setTen n.toNat { s.ten n.toNat with obj := { st := .winding } }).ten m := fun m =>
      (congrArg (State.ten · m) (clearPendingParts_partsRings ..) :)
    rw [setupNote_ten, hten, setTen_self]
    exact ⟨rfl, fun m hm => by rw [setupNote_ten, hten, setTen_ne _ _ hm]⟩

end Sys2Proof.Machine
end

section
/-! PROOFS. The enable of a partition (O14). -/

namespace Sys2Proof.Machine

open Sys2Proof

theorem exec_partitionEnableDone (p : BitVec 6) (s : State) : exec (.partitionEnableDone p) s = .next (finishEnable p.toNat s) := rfl

/-! ### What an enable's start does (R212) -/

theorem boxOwner_lt (v : Word) : boxOwner v < 16 := Nat.mod_lt _ (by decide)

/-- One module of the box is bound and keyed, and its scratch zeroed. -/
def bindModule (n p key : Nat) (s : State) (w : Nat) : State :=
  zeroScratch w (s.setMod w { s.mod w with
    keyTen := (s.mod w).keyTen ||| BitVec.ofNat 16 (2 ^ n), slotKeys := tset 0 n key (s.mod w).slotKeys
    bind := some (n, p), gateClosed := false, keyRetry := none })

theorem bindModule_mod_self (n p key : Nat) (s : State) (w : Nat) : (bindModule n p key s w).mod w = { s.mod w with
    keyTen := (s.mod w).keyTen ||| BitVec.ofNat 16 (2 ^ n), slotKeys := tset 0 n key (s.mod w).slotKeys
    bind := some (n, p), gateClosed := false, keyRetry := none } := setMod_self s w _

theorem bindModule_mod_ne (n p key : Nat) (s : State) {w v : Nat} (h : v ≠ w) : (bindModule n p key s w).mod v = s.mod v :=
  setMod_ne s _ h

theorem bindModule_parts (n p key : Nat) (s : State) (w : Nat) : (bindModule n p key s w).parts = s.parts := rfl

theorem bindModule_rings (n p key : Nat) (s : State) (w : Nat) : (bindModule n p key s w).rings = s.rings := rfl

theorem getLsbD_or_slot {n : Nat} (hn : n < 16) (b : BitVec 16) : (b ||| BitVec.ofNat 16 (2 ^ n)).getLsbD n = true := by
  rw [BitVec.getLsbD_or, BitVec.getLsbD_ofNat, Nat.testBit_two_pow_self, decide_eq_true hn]
  exact Bool.or_true _

/-- Every module of the box is bound to the owner and the partition, with the owner's key in its slot. -/
theorem foldl_bindModule_mod {n : Nat} (hn : n < 16) (p key : Nat) (l : List Nat) (s : State) {w : Nat} (hw : w ∈ l) :
    ((l.foldl (bindModule n p key) s).mod w).bind = some (n, p) ∧ ((l.foldl (bindModule n p key) s).mod w).keyTen.getLsbD n = true := by
  have hbind := foldl_mod_field Mod.bind (fun _ => some (n, p)) (fun _ => rfl) (bindModule n p key)
    (fun a w => by rw [bindModule_mod_self]) (fun a w v hv => by rw [bindModule_mod_ne _ _ _ _ hv]) l s w
  have hkey := foldl_mod_field (fun m => m.keyTen.getLsbD n) (fun _ => true) (fun _ => rfl) (bindModule n p key)
    (fun a w => by rw [bindModule_mod_self]; exact getLsbD_or_slot hn _) (fun a w v hv => by rw [bindModule_mod_ne _ _ _ _ hv]) l s w
  rw [if_pos hw] at hbind hkey
  exact ⟨hbind, hkey⟩

/-- A partition's record as its enable samples it and its steps run. -/
def Part.enabling (x : Part) (sh : Shape) : Part :=
  { x with
    obj := { st := .winding, pending := true }, wind := .enabling, box := some (boxOf x.boxReg), owner := boxOwner x.boxReg
    mods := (boxOf x.boxReg).mods sh, scrub := false }

theorem startEnable_ready {p : Nat} {s : State} (hready : s.partReady p = true) : startEnable p s =
    ((boxOf (s.part p).boxReg).mods s.sh.shape).foldl
      (bindModule (boxOwner (s.part p).boxReg) p (s.ten (boxOwner (s.part p).boxReg)).keyId)
      (s.setPart p ((s.part p).enabling s.sh.shape)) := if_pos hready

theorem startEnable_part {p : Nat} {s : State} (hready : s.partReady p = true) (q : Nat) :
    (startEnable p s).part q = (s.setPart p ((s.part p).enabling s.sh.shape)).part q := by
  have hparts : (startEnable p s).parts = (s.setPart p ((s.part p).enabling s.sh.shape)).parts := by
    rw [startEnable_ready hready]
    exact foldl_keeps State.parts _ (bindModule_parts _ _ _) _ _
  simp only [State.part, hparts]

theorem startEnable_tens (p : Nat) (s : State) : (startEnable p s).tens = s.tens :=
  startEnable_keeps State.tens (fun _ _ _ => rfl) (fun _ _ _ => rfl) (fun _ _ _ => rfl) (fun _ _ => rfl) p s

theorem startEnable_rings {p : Nat} {s : State} (hready : s.partReady p = true) : (startEnable p s).rings = s.rings := by
  rw [startEnable_ready hready]
  exact foldl_keeps State.rings _ (bindModule_rings _ _ _) _ _

/-! ### The verdict of an enable (R185, R187, R222) -/

section
variable {p : Nat} {s : State} (hobj : (s.part p).obj = {})
include hobj

theorem partitionEnable_starts (hon : (s.ten (boxOwner (s.part p).boxReg)).obj.st = .on)
    (hidle : (s.ten (boxOwner (s.part p).boxReg)).flr = .idle) (hready : s.partReady p = true) :
    partitionEnable p s = .ok (startEnable p s) := by
  simp [partitionEnable, hobj, hon, hidle, hready, Obj.parentOk]

theorem partitionEnable_waits (hown : (s.ten (boxOwner (s.part p).boxReg)).obj.parentOk = true) (hready : s.partReady p = true)
    (hnot : ¬((s.ten (boxOwner (s.part p).boxReg)).obj.st = .on ∧ (s.ten (boxOwner (s.part p).boxReg)).flr = .idle)) :
    partitionEnable p s = .ok (s.setPart p { s.part p with obj := { st := .off, pending := true } }) := by
  simp only [partitionEnable, hobj, hown, hready, if_neg hnot]
  rfl

theorem partitionEnable_refused
    (hno : (s.ten (boxOwner (s.part p).boxReg)).obj.parentOk = false ∨ s.partReady p = false) :
    partitionEnable p s = .error 5 := by
  rcases hno with hno | hno <;> simp [partitionEnable, hobj, hno]

end

/-! ### The end of an enable (R212, R234) -/

theorem startPendingRings_parts (p : Nat) (s : State) : (startPendingRings p s).parts = s.parts :=
  foldl_keeps State.parts _ (fun a r => by rw [startRing_frame]) _ _

theorem startPendingRings_store (p : Nat) (s : State) : (startPendingRings p s).store = s.store :=
  foldl_keeps State.store _ (fun a r => by rw [startRing_frame]) _ _

/-- While no sag is in force a stored item takes its value at once (R198). -/
theorem storeItem_store_self (off : Nat) (v : Word) (s : State) (hsag : s.pwr.sag = 0) :
    tget none off (storeItem off v s).store = some v := by
  rw [storeItem, if_pos hsag]
  exact tget_tset_self _ _ _ _

/-- A partition with its counters cleared as its last module has finished the steps of its enable. -/
theorem finishEnable_ends {p : Nat} {s : State} (hst : (s.part p).obj.st = .winding) (hwind : (s.part p).wind = .enabling)
    (hmods : ∀ w ∈ (s.part p).mods, (s.mod w).keyRetry = none ∧ s.reloading 3 w = false ∧ s.paused w = false) :
    finishEnable p s = startPendingRings p (storeItem (partItem p) (s.part p).boxReg
      (clearCounters (s.part p).mods (s.setPart p { s.part p with obj := { st := .on }, wind := .none }))) := by
  refine if_pos ⟨hst, hwind, List.all_eq_true.2 (fun w hw => ?_)⟩
  obtain ⟨hretry, hload, hup⟩ := hmods w hw
  simp [hretry, hload, hup]

theorem finishEnable_part {p : Nat} {s : State} (hst : (s.part p).obj.st = .winding) (hwind : (s.part p).wind = .enabling)
    (hmods : ∀ w ∈ (s.part p).mods, (s.mod w).keyRetry = none ∧ s.reloading 3 w = false ∧ s.paused w = false) (q : Nat) :
    (finishEnable p s).part q = (s.setPart p { s.part p with obj := { st := .on }, wind := .none }).part q := by
  simp only [State.part, finishEnable_ends hst hwind hmods, startPendingRings_parts, storeItem_parts]
  rfl

/-- Settles O14: the verdicts of an enable; its start, module by module; and its end. -/
theorem partitionEnableBindsItsModules : Obligations.PartitionEnableBindsItsModules := by
  unfold Obligations.PartitionEnableBindsItsModules
  intro s port p
  refine ⟨fun h hobj hon hidle hready => ?_, fun h hobj hown hready hnot => ?_, fun h hobj hno => ?_,
    fun hst hwind hmods => ⟨_, exec_partitionEnableDone p s, ?_⟩⟩
  · refine runs_of_regOp_ok h (exec_partitionEnable ..) (partitionEnable_starts hobj hon hidle hready) ?_
    rw [setupNote_part, startEnable_part hready, setPart_self, setupNote_tens, startEnable_tens, setupNote_rings,
      startEnable_rings hready]
    refine ⟨rfl, rfl, rfl, rfl, rfl, fun w hw => ?_, fun q hq => ?_, rfl, rfl⟩
    · rw [setupNote_mod, startEnable_ready hready]
      exact foldl_bindModule_mod (boxOwner_lt _) _ _ _ _ hw
    · rw [setupNote_part, startEnable_part hready, setPart_ne _ _ hq]
  · exact runs_of_regOp_ok h (exec_partitionEnable ..) (partitionEnable_waits hobj hown hready hnot)
      ⟨by rw [setupNote_part, setPart_self], setupNote_setPart_frame .., fun q hq => by rw [setupNote_part, setPart_ne _ _ hq]⟩
  · exact runs_of_regOp_error h (exec_partitionEnable ..) (partitionEnable_refused hobj hno) rfl
  · dsimp only
    rw [finishEnable_part hst hwind hmods, setPart_self]
    refine ⟨rfl, rfl, fun hsag => ?_, fun q hq => ?_⟩
    · rw [finishEnable_ends hst hwind hmods, startPendingRings_store]
      exact storeItem_store_self _ _ _ hsag
    · rw [finishEnable_part hst hwind hmods, setPart_ne _ _ hq]

end Sys2Proof.Machine
end

section
/-! PROOFS. The disable, cut and wind-down of a partition (O15). -/

namespace Sys2Proof.Machine

open Sys2Proof

theorem exec_partitionWindDownDone (p : BitVec 6) (s : State) :
    exec (.partitionWindDownDone p) s = .next (partWindDone p.toNat s) := rfl

/-! ### What stays of a partition as its rings stop -/

/-- STATE, PENDING, wind-down and modules of the partitions. -/
def State.partObjs (s : State) : Nat → Obj × Wind × List Nat := fun p => ((s.part p).obj, (s.part p).wind, (s.part p).mods)

theorem setRing_partObjs (s : State) (r : Nat) (x : Ring) : (s.setRing r x).partObjs = s.partObjs := rfl
theorem setMod_partObjs (s : State) (w : Nat) (x : Mod) : (s.setMod w x).partObjs = s.partObjs := rfl

theorem partObjs_of_lifeView {s t : State} (h : t.lifeView = s.lifeView) : t.partObjs = s.partObjs := congrArg (·.2.1) h

theorem windRing_partObjs (waits : Bool) (r : Nat) (s : State) : (windRing waits r s).partObjs = s.partObjs := by
  by_cases hon : (s.ring r).obj.st = .on
  · exact (partObjs_of_lifeView (windRing_lifeView waits r s hon)).trans (setRing_partObjs ..)
  · rw [windRing_of_not_on waits r s hon]

theorem closeGates_partObjs (l : List Nat) (s : State) : (closeGates l s).partObjs = s.partObjs :=
  foldl_keeps State.partObjs _ (fun _ _ => setMod_partObjs ..) _ _

theorem clearPendingRings_partObjs (p : Nat) (s : State) : (clearPendingRings p s).partObjs = s.partObjs :=
  foldl_keeps State.partObjs _ (fun _ _ => setRing_partObjs ..) _ _

theorem stopPart_partObjs (p : Nat) (cut : Bool) (s : State) : (stopPart p cut s).partObjs = s.partObjs := by
  have hrings : ∀ l : List Nat, (l.foldl (fun a r => windRing (!cut) r a) s).partObjs = s.partObjs := fun l =>
    foldl_keeps State.partObjs _ (fun a r => windRing_partObjs _ r a) l s
  unfold stopPart
  dsimp only
  split
  · rw [closeGates_partObjs, partObjs_of_lifeView (cutCommands_lifeView ..), hrings]
  · exact hrings _

theorem closeGates_gateClosed (l : List Nat) (s : State) {w : Nat} (hw : w ∈ l) : ((closeGates l s).mod w).gateClosed = true := by
  have h := foldl_mod_field Mod.gateClosed (fun _ => true) (fun _ => rfl)
    (fun a w => a.setMod w { a.mod w with gateClosed := true }) (fun a w => by rw [setMod_self])
    (fun a w v hv => by rw [setMod_ne _ _ hv]) l s w
  rwa [if_pos hw] at h

theorem stopPart_cut_gates (p : Nat) (s : State) {w : Nat} (hw : w ∈ (s.part p).mods) :
    ((stopPart p true s).mod w).gateClosed = true := closeGates_gateClosed _ _ hw

/-- The record of a partition as it begins to wind down. -/
def Part.wound (x : Part) (how : Wind) (scanRead : Bool) : Part :=
  { x with obj := { st := .winding }, wind := how, lost := false, scan := { out := scanRead } }

theorem windPart_on {p : Nat} {how : Wind} {s : State} (hon : (s.part p).obj.st = .on) : windPart p how false s =
    stopPart p (how != .finish) (clearPendingRings p (s.setPart p ((s.part p).wound how (s.scanRead p)))) := by
  unfold windPart
  simp only [hon]
  rfl

theorem windPart_on_part {p : Nat} {how : Wind} {s : State} (hon : (s.part p).obj.st = .on) :
    ((windPart p how false s).part p).obj = { st := .winding } ∧ ((windPart p how false s).part p).wind = how ∧
    ((windPart p how false s).part p).mods = (s.part p).mods := by
  have h : (windPart p how false s).partObjs p = (s.setPart p ((s.part p).wound how (s.scanRead p))).partObjs p := by
    rw [windPart_on hon, stopPart_partObjs, clearPendingRings_partObjs]
  simpa [State.partObjs, Part.wound] using h

theorem windPart_cut_gates {p : Nat} {s : State} (hon : (s.part p).obj.st = .on) {w : Nat} (hw : w ∈ (s.part p).mods) :
    ((windPart p .cut false s).mod w).gateClosed = true := by
  have hmods : ((clearPendingRings p (s.setPart p ((s.part p).wound .cut (s.scanRead p)))).part p).mods = (s.part p).mods := by
    have h := congrFun (clearPendingRings_partObjs p (s.setPart p ((s.part p).wound .cut (s.scanRead p)))) p
    simp only [State.partObjs, setPart_self, Prod.mk.injEq] at h
    obtain ⟨-, -, hmods⟩ := h
    exact hmods
  rw [windPart_on hon]
  exact stopPart_cut_gates _ _ (hmods ▸ hw)

/-! ### The scrub of a wind-down (R223, Table 6-6 steps 7 to 9) -/

theorem tget_zeroWhere (q : Nat → Bool) (m : Tab Byte) (a : Nat) : tget 0 a (zeroWhere q m) = if q a then 0 else tget 0 a m := by
  induction m with
  | nil => simp [zeroWhere, tget]
  | cons c m ih =>
    simp only [zeroWhere, List.filter_cons] at ih ⊢
    by_cases ha : a = c.1
    · subst ha
      by_cases hq : q c.1 = true <;> simp_all [tget]
    · by_cases hq : q c.1 = true <;> simpa [tget, ha, hq] using ih

/-- The step of a scrub at one module: scratch and columns written to zero, the columns under a key. -/
def scrubMod (key : Nat → Nat) (s : State) (w : Nat) : State := zeroScratch w (zeroColumns (key w) w s)

theorem scrubMod_mod_self (key : Nat → Nat) (s : State) (w : Nat) : (scrubMod key s w).mod w = { s.mod w with colKey := key w } :=
  setMod_self s w _

theorem scrubMod_mod_ne (key : Nat → Nat) (s : State) {w v : Nat} (h : v ≠ w) : (scrubMod key s w).mod v = s.mod v :=
  setMod_ne s _ h

theorem scrubMod_cols (key : Nat → Nat) (s : State) (w a : Nat) :
    tget 0 a (scrubMod key s w).cols = if a / 2 ^ 37 = w then 0 else tget 0 a s.cols := by
  refine (tget_zeroWhere (fun a => a / 2 ^ 37 == w) s.cols a).trans ?_
  simp only [beq_iff_eq]

theorem foldl_scrubMod_cols (key : Nat → Nat) (l : List Nat) (s : State) (a : Nat) :
    tget 0 a (l.foldl (scrubMod key) s).cols = if a / 2 ^ 37 ∈ l then 0 else tget 0 a s.cols := by
  induction l generalizing s with
  | nil => rfl
  | cons w l ih =>
    rw [List.foldl_cons, ih, scrubMod_cols]
    simp only [List.mem_cons]
    by_cases hw : a / 2 ^ 37 = w
    · rw [if_pos hw, ite_self, if_pos (.inl hw)]
    · simp only [hw, false_or, if_false]

theorem foldl_scrubMod_colKey (key : Nat → Nat) (l : List Nat) (s : State) (w : Nat) :
    ((l.foldl (scrubMod key) s).mod w).colKey = if w ∈ l then key w else (s.mod w).colKey := by
  induction l generalizing s with
  | nil => rfl
  | cons v l ih =>
    rw [List.foldl_cons, ih]
    by_cases hw : w = v
    · subst hw
      simp [scrubMod_mod_self]
    · simp [scrubMod_mod_ne _ _ hw, hw]

theorem foldl_scrubMod_keyTen (key : Nat → Nat) (l : List Nat) (s : State) (w : Nat) :
    ((l.foldl (scrubMod key) s).mod w).keyTen = (s.mod w).keyTen := by
  refine foldl_keeps (fun a => (a.mod w).keyTen) (scrubMod key) (fun a v => ?_) l s
  by_cases hw : w = v
  · rw [hw, scrubMod_mod_self]
  · rw [scrubMod_mod_ne _ _ hw]

/-- The release of one module. -/
def releaseMod (s : State) (w : Nat) : State := s.setMod w { s.mod w with bind := none, gateClosed := false }

theorem unbind_cols (l : List Nat) (s : State) : (unbind l s).cols = s.cols := foldl_keeps State.cols releaseMod (fun _ _ => rfl) l s

theorem unbind_released (l : List Nat) (s : State) {w : Nat} (hw : w ∈ l) :
    ((unbind l s).mod w).bind = none ∧ ((unbind l s).mod w).gateClosed = false := by
  have h := foldl_mod_field (fun m => (m.bind, m.gateClosed)) (fun _ => (none, false)) (fun _ => rfl) releaseMod
    (fun a w => by rw [releaseMod, setMod_self]) (fun a w v hv => by rw [releaseMod, setMod_ne _ _ hv]) l s w
  rw [if_pos hw] at h
  exact ⟨congrArg Prod.fst h, congrArg Prod.snd h⟩

theorem unbind_keys (l : List Nat) (s : State) (w : Nat) :
    ((unbind l s).mod w).keyTen = (s.mod w).keyTen ∧ ((unbind l s).mod w).colKey = (s.mod w).colKey := by
  have h := foldl_mod_field (fun m => (m.keyTen, m.colKey)) id (fun _ => rfl) releaseMod
    (fun a w => by rw [releaseMod, setMod_self]; rfl) (fun a w v hv => by rw [releaseMod, setMod_ne _ _ hv]) l s w
  rw [id, ite_self] at h
  exact ⟨congrArg Prod.fst h, congrArg Prod.snd h⟩

theorem eraseSlots_cols (n : Nat) (l : List Nat) (s : State) : (eraseSlots n l s).cols = s.cols :=
  foldl_keeps State.cols _ (fun _ _ => setMod_cols ..) l s

theorem scrubPart_eq (p : Nat) (s : State) : scrubPart p s = unbind (s.part p).mods ((s.part p).mods.foldl
    (scrubMod (fun w => s.slotKey w false (s.part p).owner)) (eraseSlots (s.part p).owner (s.part p).mods s)) := rfl

/-- A view that no update of a module and no zeroing touches is kept by a scrub. -/
theorem scrubPart_keeps {γ : Type} (v : State → γ) (hmod : ∀ a w x, v (State.setMod a w x) = v a)
    (hscrub : ∀ a key w, v (scrubMod key a w) = v a) (p : Nat) (s : State) : v (scrubPart p s) = v s := by
  rw [scrubPart_eq]
  refine (foldl_keeps v _ (fun _ _ => hmod _ _ _) _ _).trans ?_
  refine (foldl_keeps v _ (fun _ _ => hscrub _ _ _) _ _).trans ?_
  exact foldl_keeps v _ (fun _ _ => hmod _ _ _) _ _

theorem scrubPart_parts (p : Nat) (s : State) : (scrubPart p s).parts = s.parts :=
  scrubPart_keeps State.parts (fun _ _ _ => rfl) (fun _ _ _ => rfl) p s
theorem scrubPart_tens (p : Nat) (s : State) : (scrubPart p s).tens = s.tens :=
  scrubPart_keeps State.tens (fun _ _ _ => rfl) (fun _ _ _ => rfl) p s
theorem scrubPart_rings (p : Nat) (s : State) : (scrubPart p s).rings = s.rings :=
  scrubPart_keeps State.rings (fun _ _ _ => rfl) (fun _ _ _ => rfl) p s

theorem scrubPart_cols (p : Nat) (s : State) (a : Nat) :
    tget 0 a (scrubPart p s).cols = if a / 2 ^ 37 ∈ (s.part p).mods then 0 else tget 0 a s.cols := by
  rw [scrubPart_eq, unbind_cols, foldl_scrubMod_cols, eraseSlots_cols]

/-- A module of the partition after the scrub: released, without the owner's key, its columns under the key it had. -/
theorem scrubPart_mod (p : Nat) (s : State) {w : Nat} (hw : w ∈ (s.part p).mods) :
    ((scrubPart p s).mod w).bind = none ∧ ((scrubPart p s).mod w).gateClosed = false ∧
    ((s.part p).owner < 16 → ((scrubPart p s).mod w).keyTen.getLsbD (s.part p).owner = false) ∧
    ((scrubPart p s).mod w).colKey = s.slotKey w false (s.part p).owner := by
  rw [scrubPart_eq]
  obtain ⟨hbind, hgate⟩ := unbind_released (s.part p).mods ((s.part p).mods.foldl
    (scrubMod (fun w => s.slotKey w false (s.part p).owner)) (eraseSlots (s.part p).owner (s.part p).mods s)) hw
  refine ⟨hbind, hgate, fun hown => ?_, ?_⟩
  · rw [(unbind_keys _ _ w).1, foldl_scrubMod_keyTen, eraseSlots_keyTen, if_pos hw]
    exact getLsbD_eraseBit hown _
  · rw [(unbind_keys _ _ w).2, foldl_scrubMod_colKey, if_pos hw]

/-! ### The end of a wind-down -/

/-- A drained wind-down without PENDING scrubs the partition and leaves it OFF without modules. -/
theorem partWindDone_ends {p : Nat} {s : State} (hobj : (s.part p).obj = { st := .winding })
    (hwind : (s.part p).wind = .finish ∨ (s.part p).wind = .cut) (hdrained : s.partDrained p = true) (hawake : s.partAwake p = true) :
    partWindDone p s = (storeItem (partItem p) 0 (scrubPart p s)).setPart p { s.part p with
      obj := {}, wind := .none, box := none, mods := [], scrub := false } := by
  have hst : (s.part p).obj.st = .winding := by rw [hobj]
  have hpart : (storeItem (partItem p) 0 (scrubPart p s)).part p = s.part p := by
    simp only [State.part, storeItem_parts, scrubPart_parts]
  unfold partWindDone endPart
  dsimp only
  rw [if_pos ⟨hst, hwind, hdrained, hawake⟩, hpart, hobj]
  rfl

/-- Settles O15: what the stop of its rings keeps of a partition, the gates a cut closes, and the scrub module by module. -/
theorem partitionDisableAndCut : Obligations.PartitionDisableAndCut := by
  unfold Obligations.PartitionDisableAndCut
  intro s port p
  refine ⟨fun h hon => ⟨?_, ?_⟩, fun hobj hwind hdrained hawake => ⟨_, exec_partitionWindDownDone p s, ?_⟩⟩
  · refine runs_of_regOp_ok h (exec_partitionDisable ..) rfl ?_
    rw [setupNote_part]
    exact windPart_on_part hon
  · refine runs_of_regOp_ok h (exec_partitionCut ..) rfl ?_
    rw [setupNote_part]
    obtain ⟨hst, hcut, hmods⟩ := windPart_on_part (how := .cut) hon
    refine ⟨hst, hcut, hmods, fun w hw => ?_⟩
    rw [setupNote_mod]
    exact windPart_cut_gates hon hw
  · dsimp only
    rw [partWindDone_ends hobj hwind hdrained hawake, setPart_self]
    obtain ⟨st, pw, hstore⟩ := storeItem_frame (partItem p.toNat) 0 (scrubPart p.toNat s)
    rw [hstore]
    refine ⟨rfl, rfl, rfl, fun q hq => ?_, fun w hw => ?_, fun a ha => ?_, scrubPart_tens _ _, scrubPart_rings _ _⟩
    · rw [setPart_ne _ _ hq]
      simp only [State.part, scrubPart_parts]
    · obtain ⟨hbind, hgate, hkey, hcol⟩ := scrubPart_mod p.toNat s hw
      refine ⟨hbind, hgate, hkey, hcol, fun a => (scrubPart_cols _ _ _).trans (if_pos ?_)⟩
      rwa [Nat.mul_comm, Nat.mul_add_div (by decide), Nat.div_eq_of_lt (Nat.mod_lt _ (by decide)), Nat.add_zero]
    · exact (scrubPart_cols _ _ _).trans (if_neg ha)

end Sys2Proof.Machine
end

section
/-! PROOFS. The head of a ring (O23): a NOP, an MV_COPY and the FX sends at their dispatch, and an illegal head. -/

namespace Sys2Proof.Machine

open Sys2Proof

/-! ### A head that is noted (R280, R286) -/

theorem recipePoisonEvent_frame (r : Nat) (e : Entry) (s : State) :
    recipePoisonEvent r e s = { told s (recipePoisonEvent r e s) with flt := (recipePoisonEvent r e s).flt } := by
  unfold recipePoisonEvent
  dsimp only
  split
  · rw [deliver_told]
    rfl
  · rfl

/-- To note a head changes beside its ring only what an event changes, and a count of poisoned reads. -/
theorem noteHead_frame (r : Nat) (s : State) :
    noteHead r s = { told s (noteHead r s) with rings := (noteHead r s).rings, flt := (noteHead r s).flt } := by
  unfold noteHead
  dsimp only
  split
  · rfl
  · split
    · rw [recipePoisonEvent_frame]
      rfl
    · rfl

theorem noteHead_cols (r : Nat) (s : State) : (noteHead r s).cols = s.cols := by rw [noteHead_frame]; rfl
theorem noteHead_chan (r : Nat) (s : State) (k : Nat) : (noteHead r s).chan k = s.chan k := by rw [noteHead_frame]; rfl
theorem noteHead_part (r : Nat) (s : State) (p : Nat) : (noteHead r s).part p = s.part p := by rw [noteHead_frame]; rfl
theorem noteHead_leadPaused (r : Nat) (s : State) (p : Nat) : (noteHead r s).leadPaused p = s.leadPaused p := by
  rw [noteHead_frame]; rfl
theorem noteHead_mvChan (r : Nat) (s : State) (l : List Nat) (m : Mv) : (noteHead r s).mvChan l m = s.mvChan l m := by
  rw [noteHead_frame]; rfl

/-- A ring with its head noted and judged. -/
def Ring.noted (x : Ring) (tick : Option DWord) (ok : Bool) (rc : List Byte) : Ring :=
  { x with headTick := tick, headOk := ok, headRc := rc }

theorem recipePoisonEvent_ring (r : Nat) (e : Entry) (s : State) (q : Nat) : (recipePoisonEvent r e s).ring q = s.ring q := by
  rw [recipePoisonEvent_frame]; rfl

theorem noteHead_ring_ne (r : Nat) (s : State) {q : Nat} (hq : q ≠ r) : (noteHead r s).ring q = s.ring q := by
  unfold noteHead
  dsimp only
  split
  · rfl
  · split
    · rw [recipePoisonEvent_ring, setRing_ne _ _ hq]
    · rfl

theorem noteHead_ring_self (r : Nat) (s : State) : ∃ tick ok rc, (noteHead r s).ring r = (s.ring r).noted tick ok rc := by
  unfold noteHead
  dsimp only
  split
  · exact ⟨_, _, _, rfl⟩
  · split
    · exact ⟨_, _, _, by rw [recipePoisonEvent_ring, setRing_self]; rfl⟩
    · exact ⟨_, _, _, rfl⟩

/-! ### Serving a head (R280, R281, R181) -/

section
variable {s : State} {r : Nat} {op : Op} {e : Entry} {rest : List Entry} (h : HeadServed s r op e rest)
include h

theorem noteHead_headOk : ((noteHead r s).ring r).headOk = JudgedLegal s r e := by
  obtain ⟨hfetched, -, -, hheld, -, -⟩ := h
  unfold noteHead JudgedLegal
  simp only [hfetched, hheld, Bool.not_false, Bool.and_true]
  split
  · rw [recipePoisonEvent_ring, setRing_self]
  · rfl

theorem headOp_of_served : s.headOp r = some op := by
  obtain ⟨hfetched, -, -, -, hop, -⟩ := h
  simpa [State.headOp, hfetched] using hop

/-- Noted, the head may be served: nothing stops its ring. -/
theorem noteHead_served : ((noteHead r s).ring r).fetched = e :: rest ∧
    (((noteHead r s).ring r).obj.st != .on || ((noteHead r s).part ((noteHead r s).ring r).ctx.part).obj.st != .on ||
      ((noteHead r s).ring r).held || (noteHead r s).leadPaused ((noteHead r s).ring r).ctx.part) = false := by
  obtain ⟨hfetched, hon, hpart, hheld, -, hlead⟩ := h
  obtain ⟨tick, ok, rc, hring⟩ := noteHead_ring_self r s
  have hheld' : ((s.ring r).noted tick ok rc).held = false := hheld
  rw [hring, noteHead_part, noteHead_leadPaused, hheld']
  simp [Ring.noted, hfetched, hon, hpart, hlead]

/-- A head judged illegal is skipped. -/
theorem serveOp_skips (hbad : JudgedLegal s r e = false) : serveOp op r s = skipHead r e (noteHead r s) := by
  obtain ⟨hfetched, hgo⟩ := noteHead_served h
  have hok : ((noteHead r s).ring r).headOk = false := (noteHead_headOk h).trans hbad
  rw [serveOp, if_pos (headOp_of_served h), serveHead]
  simp only [hfetched, hgo, hok]
  rfl

end

/-- A ready head is dispatched, what its opcode starts is done, and the next head is noted. -/
theorem serveOp_dispatches {s : State} {r : Nat} {op : Op} {e : Entry} {rest : List Entry} (h : HeadReady s r op e rest) :
    serveOp op r s = noteHead r (startOp op r (dispatchHead r e op (noteHead r s)).1 (dispatchHead r e op (noteHead r s)).2) := by
  obtain ⟨hserved, hlegal, hcan⟩ := h
  obtain ⟨hfetched, hgo⟩ := noteHead_served hserved
  have hok : ((noteHead r s).ring r).headOk = true := (noteHead_headOk hserved).trans hlegal
  have ⟨_, _, _, _, hop, _⟩ := hserved
  rw [serveOp, if_pos (headOp_of_served hserved), serveHead]
  simp only [hfetched, hgo, hok, hop, hcan]
  rfl

/-! ### The head as it is taken (R240, R309) -/

/-- A ring whose head has been taken as dispatched, by an opcode that continues no chain. -/
def Ring.taken (x : Ring) (c : Cmd) : Ring :=
  { x with fetched := x.fetched.drop 1, disp := x.disp + 1, headTick := none, cmds := x.cmds ++ [c], chainCut := false,
           prev := none, prevChain := [] }

/-- A command just dispatched for ring `x`, from entry `e`, on the modules `mods`. -/
structure Fresh (x : Ring) (e : Entry) (mods : List Nat) (c : Cmd) : Prop where
  seq : c.seq = x.disp + 1
  idx : c.idx = e.idx
  bytes : c.bytes = e.bytes
  done : c.done = false
  mods : c.mods = mods
  flags : c.flags = 0
  rerun : c.rerun = false

/-- The dispatch of an opcode that deals no tiles changes its ring only. -/
theorem dispatchHead_taken (r : Nat) (e : Entry) (s : State) {op : Op} (hop : op ∈ [Op.nop, .mvCopy, .fxSend, .fxReduce]) :
    (dispatchHead r e op s).2 = s.setRing r ((s.ring r).taken (dispatchHead r e op s).1) ∧
    Fresh (s.ring r) e (s.part (s.ring r).ctx.part).mods (dispatchHead r e op s).1 := by
  simp only [List.mem_cons, List.not_mem_nil, or_false] at hop
  obtain rfl | rfl | rfl | rfl := hop
  · exact ⟨rfl, rfl, rfl, rfl, rfl, rfl, rfl, rfl⟩
  · exact ⟨rfl, rfl, rfl, rfl, rfl, rfl, rfl, rfl⟩
  · exact ⟨rfl, rfl, rfl, rfl, rfl, rfl, rfl, rfl⟩
  · exact ⟨rfl, rfl, rfl, rfl, rfl, rfl, rfl, rfl⟩

/-- The state in which a ready head of such an opcode starts its work: its command `c` the youngest of its ring. -/
structure Started (s u : State) (r : Nat) (e : Entry) (c : Cmd) : Prop where
  fresh : Fresh (s.ring r) e (s.part (s.ring r).ctx.part).mods c
  ring : ∃ tick ok rc, u.ring r = ((s.ring r).noted tick ok rc).taken c
  other : ∀ q, q ≠ r → u.ring q = s.ring q
  cols : u.cols = s.cols
  chan : ∀ k, u.chan k = s.chan k
  mvChan : ∀ l m, u.mvChan l m = s.mvChan l m
  mods : u.mods = s.mods

theorem exists_started {s : State} {r : Nat} {op : Op} {e : Entry} {rest : List Entry} (h : HeadReady s r op e rest)
    (hop : op ∈ [Op.nop, .mvCopy, .fxSend, .fxReduce]) :
    ∃ u c, Started s u r e c ∧ serveOp op r s = noteHead r (startOp op r c u) := by
  obtain ⟨htaken, hfresh⟩ := dispatchHead_taken r e (noteHead r s) hop
  obtain ⟨tick, ok, rc, hring⟩ := noteHead_ring_self r s
  rw [hring, noteHead_part] at hfresh
  refine ⟨(dispatchHead r e op (noteHead r s)).2, (dispatchHead r e op (noteHead r s)).1,
    ⟨⟨hfresh.seq, hfresh.idx, hfresh.bytes, hfresh.done, hfresh.mods, hfresh.flags, hfresh.rerun⟩, ⟨tick, ok, rc, ?_⟩,
      fun q hq => ?_, ?_, fun k => ?_, fun l m => ?_, ?_⟩, serveOp_dispatches h⟩
  · rw [htaken, setRing_self, hring]
  · rw [htaken, setRing_ne _ _ hq, noteHead_ring_ne _ _ hq]
  · rw [htaken]
    exact noteHead_cols r s
  · rw [htaken]
    exact noteHead_chan r s k
  · rw [htaken]
    exact noteHead_mvChan r s l m
  · rw [htaken]
    exact (setRing_mods ..).trans (lifeView_mods (noteHead_lifeView r s))

section
variable {s u t : State} {r : Nat} {e : Entry} {rest : List Entry} {c : Cmd}

/-- What keeps the life-cycle view of the state a command starts in keeps the head dispatched. -/
theorem Started.dispatched (h : Started s u r e c) (hfetched : (s.ring r).fetched = e :: rest) (ht : t.lifeView = u.lifeView) :
    Dispatched s t r rest := by
  obtain ⟨hobj, hfet, -, hdisp⟩ := lifeView_ring ht r
  obtain ⟨tick, ok, rc, hring⟩ := h.ring
  rw [hring] at hobj hfet hdisp
  exact ⟨hdisp, hfet.trans (by simp [Ring.taken, Ring.noted, hfetched]), hobj⟩

theorem Started.inProgress (h : Started s u r e c) : InProgress s u r e := by
  obtain ⟨tick, ok, rc, hring⟩ := h.ring
  exact ⟨c, by rw [hring]; rfl, h.fresh.seq, h.fresh.idx, h.fresh.bytes, h.fresh.done, h.fresh.mods⟩

end

/-! ### What keeps a command in progress -/

theorem inProgress_of_cmds {s t t' : State} {r : Nat} {e : Entry} (h : (t'.ring r).cmds = (t.ring r).cmds) (hp : InProgress s t r e) :
    InProgress s t' r e := by
  unfold InProgress at hp ⊢
  rwa [h]

theorem inProgress_of_dispatched {s t t' : State} {r : Nat} {e : Entry} (h : t'.dispatched = t.dispatched)
    (hp : InProgress s t r e) : InProgress s t' r e := inProgress_of_cmds (congrFun h r) hp

theorem noteHead_inProgress {s t : State} {r : Nat} {e : Entry} (hp : InProgress s t r e) : InProgress s (noteHead r t) r e := by
  obtain ⟨tick, ok, rc, hring⟩ := noteHead_ring_self r t
  exact inProgress_of_cmds (by rw [hring]; rfl) hp

/-- No earlier command of the ring has the number the next one is to have. -/
def FreshSeq (s : State) (r : Nat) : Prop := ∀ c ∈ (s.ring r).cmds, c.seq ≠ (s.ring r).disp + 1

/-- A note in the youngest command leaves it in progress. -/
theorem modCmd_poisoned_inProgress {s t : State} {r : Nat} {e : Entry} (hseq : FreshSeq s r) (p : Cmd → List Nat)
    (hp : InProgress s t r e) : InProgress s (modCmd r ((s.ring r).disp + 1) (fun c => { c with poisoned := p c }) t) r e := by
  obtain ⟨c, hcmds, hc, hidx, hbytes, hdone, hmods⟩ := hp
  refine ⟨{ c with poisoned := p c }, ?_, hc, hidx, hbytes, hdone, hmods⟩
  have hold : (s.ring r).cmds.map (fun d => if d.seq = (s.ring r).disp + 1 then { d with poisoned := p d } else d) =
      (s.ring r).cmds := by
    refine (List.map_congr_left (fun d hd => if_neg (hseq d hd))).trans (List.map_id' _)
  rw [modCmd, setRing_self]
  simp only [hcmds, List.map_append, hold, List.map_cons, List.map_nil, if_pos hc]

theorem reportPoison_inProgress {s t : State} {r : Nat} {e : Entry} (hseq : FreshSeq s r) (m : List Nat) (l : List (Nat × Nat))
    (hp : InProgress s t r e) : InProgress s (reportPoison r ((s.ring r).disp + 1) m l t) r e := by
  unfold reportPoison
  split
  · exact hp
  · dsimp only
    refine t.badUnits.foldlRecOn _ (motive := fun a => InProgress s a r e) hp (fun a ha v _ => ?_)
    split
    · exact ha
    · split
      · split
        · exact ha
        · exact modCmd_poisoned_inProgress hseq _ (inProgress_of_dispatched (deliver_dispatched _ _ _) ha)
      · exact ha

theorem reportPoison_lifeView (r : Nat) (seq : DWord) (m : List Nat) (l : List (Nat × Nat)) (s : State) :
    (reportPoison r seq m l s).lifeView = s.lifeView := by
  unfold reportPoison
  split
  · rfl
  · refine foldl_keeps State.lifeView _ (fun a v => ?_) _ s
    dsimp only
    split
    · rfl
    · split
      · split
        · rfl
        · exact (modCmd_lifeView _ _ _ _).trans (deliver_lifeView _ _ _)
      · rfl

/-! ### FX_SEND and FX_REDUCE at dispatch (R417, R419) -/

theorem startSend_lifeView (r : Nat) (c : Cmd) (s : State) : (startSend r c s).lifeView = s.lifeView := by
  unfold startSend
  dsimp only
  split
  · rfl
  · exact (reportPoison_lifeView _ _ _ _ _).trans (contribute_lifeView _ _ _ _ _ _ _ _)

theorem startSend_inProgress {s t : State} {r : Nat} {e : Entry} {c : Cmd} (hseq : FreshSeq s r) (hc : c.seq = (s.ring r).disp + 1)
    (hp : InProgress s t r e) : InProgress s (startSend r c t) r e := by
  unfold startSend
  dsimp only
  split
  · exact hp
  · rw [hc]
    exact reportPoison_inProgress hseq _ _ (inProgress_of_dispatched (contribute_dispatched _ _ _ _ _ _ _ _) hp)

/-- A view that no landing write and no contribution changes is kept by what a member of FX_REDUCE writes and sends. -/
theorem reduceMember_keeps {γ : Type} (v : State → γ) (hland : ∀ who w key a b x, v (landWrite who w key a b x).2 = v x)
    (hsend : ∀ who src dst k q n l x, v (contribute who src dst k q n l x) = v x) (r : Nat) (c : Cmd) (m : Nat) (s : State) :
    ∃ a l, reduceMember r c m s = reportPoison r c.seq c.mods l a ∧ v a = v s :=
  ⟨_, _, rfl, (foldl_keeps v _ (fun _ _ => hsend _ _ _ _ _ _ _ _) _ _).trans (foldl_keeps v _ (fun _ _ => hland _ _ _ _ _ _) _ _)⟩

theorem reduceMember_lifeView (r : Nat) (c : Cmd) (m : Nat) (s : State) : (reduceMember r c m s).lifeView = s.lifeView := by
  obtain ⟨a, l, hm, ha⟩ := reduceMember_keeps State.lifeView landWrite_lifeView contribute_lifeView r c m s
  rw [hm, reportPoison_lifeView, ha]

theorem reduceMember_inProgress {s t : State} {r : Nat} {e : Entry} {c : Cmd} (hseq : FreshSeq s r) (hc : c.seq = (s.ring r).disp + 1)
    (m : Nat) (hp : InProgress s t r e) : InProgress s (reduceMember r c m t) r e := by
  obtain ⟨a, l, hm, ha⟩ := reduceMember_keeps State.dispatched landWrite_dispatched contribute_dispatched r c m t
  rw [hm, hc]
  exact reportPoison_inProgress hseq _ _ (inProgress_of_dispatched ha hp)

theorem startOp_fx {s u : State} {r : Nat} {e : Entry} {c : Cmd} (hseq : FreshSeq s r) (h : Started s u r e c) {op : Op}
    (hop : op = .fxSend ∨ op = .fxReduce) : (startOp op r c u).lifeView = u.lifeView ∧ InProgress s (startOp op r c u) r e := by
  obtain rfl | rfl := hop
  · exact ⟨startSend_lifeView r c u, startSend_inProgress hseq h.fresh.seq h.inProgress⟩
  · exact ⟨foldl_keeps State.lifeView _ (fun a m => reduceMember_lifeView r c m a) _ _,
      (List.range c.mods.length).foldlRecOn _ (motive := fun a => InProgress s a r e) h.inProgress
        (fun _ ha m _ => reduceMember_inProgress hseq h.fresh.seq m ha)⟩

/-- A ready FX_SEND or FX_REDUCE is dispatched, in progress, and changes no module's record. -/
theorem serveOp_fx {s : State} {r : Nat} {e : Entry} {rest : List Entry} (hseq : FreshSeq s r) {op : Op}
    (hop : op = .fxSend ∨ op = .fxReduce) (h : HeadReady s r op e rest) :
    Dispatched s (serveOp op r s) r rest ∧ InProgress s (serveOp op r s) r e ∧ (serveOp op r s).mods = s.mods := by
  obtain ⟨u, c, hstart, hserve⟩ := exists_started h (by obtain rfl | rfl := hop <;> decide)
  obtain ⟨hview, hprog⟩ := startOp_fx hseq hstart hop
  have hlife : (serveOp op r s).lifeView = u.lifeView := by rw [hserve, noteHead_lifeView, hview]
  refine ⟨hstart.dispatched h.1.1 hlife, ?_, (lifeView_mods hlife).trans hstart.mods⟩
  rw [hserve]
  exact noteHead_inProgress hprog

/-! ### MV_COPY at dispatch (R339) -/

/-- Objects, rings, columns and channels: a channel that asks for its reads changes none of another. -/
def State.moveView (s : State) := (s.lifeView, s.rings, s.cols, s.chans)

theorem chanAsk_moveView (k i a l : Nat) (s : State) : (chanAsk k i a l s).moveView = s.moveView := rfl

theorem chanRead_moveView (k i a l : Nat) (s : State) : (chanRead k i a l s).moveView = s.moveView := by
  unfold chanRead
  dsimp only
  split <;> rfl

theorem askReads_cases (k : Nat) (s : State) : askReads k s = s ∨ ∃ (a : State) (n : Nat), a.moveView = s.moveView ∧
    askReads k s = a.setChan k { s.chan k with asked := n } := by
  unfold askReads
  dsimp only
  split
  · refine .inr ⟨_, _, foldl_keeps State.moveView _ (fun a p => ?_) _ s, rfl⟩
    split
    · exact chanAsk_moveView ..
    · exact chanRead_moveView ..
  · exact .inl rfl

/-- A channel as GO samples its registers, `n` reads of it asked for. -/
def Chan.going (x : Chan) (owner : Option (Nat × DWord)) (gen n : Nat) : Chan :=
  { x with obj := { st := .on }, run := x.regs, fenceEnd := false, late := 0, srcf := 0, owner := owner, got := [], asked := n,
           gen := gen }

theorem startChan_moves (k : Nat) (o : Option (Nat × DWord)) (s : State) :
    (startChan k o s).lifeView = s.lifeView ∧ (startChan k o s).rings = s.rings ∧ (startChan k o s).cols = s.cols ∧
    (∃ n, (startChan k o s).chan k = (s.chan k).going o s.fab.nextPid n) ∧ ∀ j, j ≠ k → (startChan k o s).chan j = s.chan j := by
  have hgo : startChan k o s = askReads k (s.setChan k ((s.chan k).going o s.fab.nextPid 0)) := rfl
  rw [hgo]
  obtain hask | ⟨a, n, ha, hask⟩ := askReads_cases k (s.setChan k ((s.chan k).going o s.fab.nextPid 0)) <;> rw [hask]
  · exact ⟨setChan_lifeView .., rfl, rfl, ⟨0, setChan_self ..⟩, fun j hj => setChan_ne _ _ hj⟩
  · obtain ⟨hlife, hrings, hcols, hchans⟩ : a.lifeView = s.lifeView ∧ a.rings = s.rings ∧ a.cols = s.cols ∧
        a.chans = (s.setChan k ((s.chan k).going o s.fab.nextPid 0)).chans := by
      simpa [State.moveView] using ha
    refine ⟨(setChan_lifeView ..).trans hlife, hrings, hcols, ⟨n, ?_⟩, fun j hj => ?_⟩
    · rw [setChan_self, setChan_self]
      rfl
    · rw [setChan_ne _ _ hj, State.chan, hchans]
      exact setChan_ne s _ hj

/-- A ready MV_COPY is dispatched, in progress, and its channel is ON with the registers its body gives. -/
theorem serveOp_mvCopy {s : State} {r : Nat} {e : Entry} {rest : List Entry} (h : HeadReady s r .mvCopy e rest) {k : Nat}
    (hk : s.mvChan (s.part (s.ring r).ctx.part).mods (mvOf e.bytes) = k) :
    Dispatched s (serveOp .mvCopy r s) r rest ∧ InProgress s (serveOp .mvCopy r s) r e ∧
    ((serveOp .mvCopy r s).chan k).obj = { st := .on } ∧ ((serveOp .mvCopy r s).chan k).owner = some (r, (s.ring r).disp + 1) ∧
    ((serveOp .mvCopy r s).chan k).run = (mvOf e.bytes).regs ∧ (∀ j, j ≠ k → (serveOp .mvCopy r s).chan j = s.chan j) ∧
    (∀ q, q ≠ r → (serveOp .mvCopy r s).ring q = s.ring q) ∧ (serveOp .mvCopy r s).cols = s.cols := by
  obtain ⟨u, c, hstart, hserve⟩ := exists_started h (by decide)
  have hgo : startOp .mvCopy r c u =
      startChan k (some (r, (s.ring r).disp + 1)) (u.setChan k { u.chan k with regs := (mvOf e.bytes).regs }) := by
    simp only [startOp, hstart.mvChan, hstart.fresh.mods, hstart.fresh.seq, hstart.fresh.bytes, hk]
  obtain ⟨hlife, hrings, hcols, ⟨n, hchan⟩, hother⟩ := startChan_moves k (some (r, (s.ring r).disp + 1))
    (u.setChan k { u.chan k with regs := (mvOf e.bytes).regs })
  rw [setChan_self] at hchan
  rw [← hgo] at hlife hrings hcols hchan hother
  have hring : ∀ q, (startOp .mvCopy r c u).ring q = u.ring q := fun q => by
    rw [State.ring, hrings]
    rfl
  rw [hserve, noteHead_chan, noteHead_cols, hchan]
  refine ⟨hstart.dispatched h.1.1 ((noteHead_lifeView ..).trans hlife),
    noteHead_inProgress (inProgress_of_cmds (congrArg Ring.cmds (hring r)) hstart.inProgress), rfl, rfl, rfl,
    fun j hj => ?_, fun q hq => ?_, hcols.trans hstart.cols⟩
  · rw [noteHead_chan, hother j hj, setChan_ne _ _ hj, hstart.chan]
  · rw [noteHead_ring_ne _ _ hq, hring, hstart.other q hq]

/-! ### A command that the tally counts at once (R255) -/

/-- A ring whose only command is complete counts it. -/
def Ring.counted (x : Ring) : Ring := { x with cmds := [], tally := x.tally + 1, tallyDue := true }

theorem advanceTally_single {s : State} {r : Nat} {c : Cmd} (hcmds : (s.ring r).cmds = [c]) (hdone : c.done = true)
    (hrerun : c.rerun = false) : advanceTally r s = s.setRing r (s.ring r).counted := by
  simp [advanceTally, hcmds, hdone, hrerun, Ring.counted, w64]

theorem hostPost_rings (n : Nat) (o : Option (Nat × DWord)) (a : DWord) (b : List Byte) (s : State) :
    (hostPost n o a b s).rings = s.rings := by
  unfold hostPost
  dsimp only
  split <;> rfl

theorem hostPost_cols (n : Nat) (o : Option (Nat × DWord)) (a : DWord) (b : List Byte) (s : State) :
    (hostPost n o a b s).cols = s.cols := by
  unfold hostPost
  dsimp only
  split <;> rfl

/-- The completion, without flags, of the only command of a ring: its record goes out or not, and the tally counts it. -/
theorem complete_only {s : State} {r : Nat} {c : Cmd} (hcmds : (s.ring r).cmds = [c]) (hdone : c.done = false) (hflags : c.flags = 0)
    (hrerun : c.rerun = false) : ∃ (v : State) (d : Cmd), d.done = true ∧ d.rerun = false ∧
      v.rings = (s.setRing r { s.ring r with cmds := [d] }).rings ∧ v.cols = s.cols ∧
      complete r c.seq 0 0 s = noteHead r (advanceTally r v) := by
  have hfind : s.cmd? r c.seq = some c := by simp [State.cmd?, hcmds]
  have hquiet : (bit (c.flags ||| 0) 5 && !c.rerun) = false := by rw [hflags]; rfl
  have hmod : modCmd r c.seq (fun _ => { c with done := true, flags := c.flags ||| 0, info := 0 }) s =
      s.setRing r { s.ring r with cmds := [{ c with done := true, flags := c.flags ||| 0, info := 0 }] } := by
    simp [modCmd, hcmds]
  unfold complete
  simp only [hfind, hdone, hquiet, hmod, Bool.false_eq_true, if_false]
  refine ⟨_, { c with done := true, flags := c.flags ||| 0, info := 0 }, rfl, hrerun, ?_, ?_, rfl⟩
  · split
    · exact hostPost_rings ..
    · rfl
  · split
    · exact (hostPost_cols ..).trans (setRing_cols ..)
    · rfl

/-- A ready NOP on a ring with no command in progress is dispatched, complete and counted. -/
theorem serveOp_nop {s : State} {r : Nat} {e : Entry} {rest : List Entry} (h : HeadReady s r .nop e rest) (hnone : (s.ring r).cmds = []) :
    Dispatched s (serveOp .nop r s) r rest ∧ ((serveOp .nop r s).ring r).cmds = [] ∧
    ((serveOp .nop r s).ring r).tally = (s.ring r).tally + 1 ∧ ((serveOp .nop r s).ring r).tallyDue = true ∧
    (∀ q, q ≠ r → (serveOp .nop r s).ring q = s.ring q) ∧ (serveOp .nop r s).cols = s.cols := by
  obtain ⟨u, c, hstart, hserve⟩ := exists_started h (by decide)
  obtain ⟨tick, ok, rc, hring⟩ := hstart.ring
  have hcmds : (u.ring r).cmds = [c] := by simp [hring, Ring.taken, Ring.noted, hnone]
  obtain ⟨v, d, hd, hrerun, hrings, hcols, hcomplete⟩ :=
    complete_only hcmds hstart.fresh.done hstart.fresh.flags hstart.fresh.rerun
  have hlife : (serveOp .nop r s).lifeView = u.lifeView := by
    rw [hserve, noteHead_lifeView]
    exact complete_lifeView ..
  have hself : v.ring r = { u.ring r with cmds := [d] } := by rw [State.ring, hrings]; exact setRing_self ..
  have hne : ∀ q, q ≠ r → v.ring q = u.ring q := fun q hq => by rw [State.ring, hrings]; exact setRing_ne _ _ hq
  have hend : serveOp .nop r s = noteHead r (noteHead r (v.setRing r (v.ring r).counted)) := by
    rw [hserve, ← advanceTally_single (by rw [hself]) hd hrerun, ← hcomplete]
    rfl
  refine ⟨hstart.dispatched h.1.1 hlife, ?_⟩
  rw [hend, noteHead_cols, noteHead_cols]
  obtain ⟨tick', ok', rc', hnote'⟩ := noteHead_ring_self r (v.setRing r (v.ring r).counted)
  obtain ⟨tick'', ok'', rc'', hnote⟩ := noteHead_ring_self r (noteHead r (v.setRing r (v.ring r).counted))
  rw [hnote, hnote', setRing_self, hself, hring]
  refine ⟨rfl, rfl, rfl, fun q hq => ?_, hcols.trans hstart.cols⟩
  rw [noteHead_ring_ne _ _ hq, noteHead_ring_ne _ _ hq, setRing_ne _ _ hq, hne q hq, hstart.other q hq]

/-- A ring whose illegal head is passed over, the command `c` standing for it. -/
def Ring.skipping (x : Ring) (e : Entry) (c : Cmd) : Ring :=
  { x with fetched := x.fetched.drop 1, disp := x.disp + 1, headTick := none, prev := none, prevChain := [],
           chainCut := x.inChain e, ignored := satInc x.ignored, lastCause := 1, cmds := x.cmds ++ [c] }

theorem skipHead_eq (r : Nat) (e : Entry) (s : State) : ∃ c : Cmd, c.done = true ∧ c.rerun = false ∧
    skipHead r e s = noteHead r (advanceTally r (s.setRing r ((s.ring r).skipping e c))) := ⟨_, rfl, rfl, rfl⟩

/-- An illegal head of a ring with no command in progress is skipped, and the tally passes it. -/
theorem serveOp_illegal {s : State} {r : Nat} {op : Op} {e : Entry} {rest : List Entry} (h : HeadServed s r op e rest)
    (hbad : JudgedLegal s r e = false) (hnone : (s.ring r).cmds = []) :
    Dispatched s (serveOp op r s) r rest ∧ ((serveOp op r s).ring r).ignored = satInc (s.ring r).ignored ∧
    ((serveOp op r s).ring r).lastCause = 1 ∧ ((serveOp op r s).ring r).tally = (s.ring r).tally + 1 ∧
    ∀ q, q ≠ r → (serveOp op r s).ring q = s.ring q := by
  obtain ⟨tick, ok, rc, hring⟩ := noteHead_ring_self r s
  obtain ⟨c, hdone, hrerun, hskip⟩ := skipHead_eq r e (noteHead r s)
  have hcmds : (((noteHead r s).setRing r (((noteHead r s).ring r).skipping e c)).ring r).cmds = [c] := by
    simp [hring, Ring.skipping, Ring.noted, hnone]
  rw [serveOp_skips h hbad, hskip, advanceTally_single hcmds hdone hrerun, setRing_self, hring]
  obtain ⟨tick', ok', rc', hnote⟩ := noteHead_ring_self r (((noteHead r s).setRing r
    (((s.ring r).noted tick ok rc).skipping e c)).setRing r (((s.ring r).noted tick ok rc).skipping e c).counted)
  refine ⟨?_, ?_, ?_, ?_, fun q hq => ?_⟩
  · unfold Dispatched
    rw [hnote, setRing_self]
    exact ⟨rfl, congrArg (List.drop 1) h.1, rfl⟩
  · rw [hnote, setRing_self]
    rfl
  · rw [hnote, setRing_self]
    rfl
  · rw [hnote, setRing_self]
    rfl
  · rw [noteHead_ring_ne _ _ hq, setRing_ne _ _ hq, setRing_ne _ _ hq, noteHead_ring_ne _ _ hq]

/-! ### The commands of the table -/

/-- The commands that serve a head of their opcode, NOP and SETTLE apart. -/
theorem exec_serves (r : BitVec 12) (s : State) {op : Op} {c : Instr}
    (h : (op, c) ∈ [(Op.waitTally, Instr.waitTally r), (.mxGemm, .mxGemm r), (.mxAttn, .mxAttn r), (.vxElt, .vxElt r),
      (.vxReduce, .vxReduce r), (.vxCombine, .vxCombine r), (.mvCopy, .mvCopy r), (.fxSend, .fxSend r), (.fxReduce, .fxReduce r),
      (.fxAwait, .fxAwait r), (.ixFrame, .ixFrame r)]) : exec c s = .next (serveOp op r.toNat s) := by
  simp only [List.mem_cons, List.not_mem_nil, or_false, Prod.mk.injEq] at h
  obtain ⟨rfl, rfl⟩ | ⟨rfl, rfl⟩ | ⟨rfl, rfl⟩ | ⟨rfl, rfl⟩ | ⟨rfl, rfl⟩ | ⟨rfl, rfl⟩ | ⟨rfl, rfl⟩ | ⟨rfl, rfl⟩ | ⟨rfl, rfl⟩ |
    ⟨rfl, rfl⟩ | ⟨rfl, rfl⟩ := h <;> rfl

theorem exec_nop (r : BitVec 12) (s : State) : exec (.nop r) s = .next (serveOp .nop r.toNat s) := rfl

/-- Settles O23: a ready head is taken by `dispatchHead` and started by its opcode, an illegal one is skipped. -/
theorem nopCopyAndSendsAtDispatch : Obligations.NopCopyAndSendsAtDispatch := by
  unfold Obligations.NopCopyAndSendsAtDispatch
  intro s r e rest
  refine ⟨fun h hnone => ⟨_, exec_nop r s, serveOp_nop h hnone⟩, fun h => ⟨_, exec_serves r s (by simp), serveOp_mvCopy h rfl⟩,
    fun hseq => ⟨fun h => ⟨_, exec_serves r s (by simp), serveOp_fx hseq (.inl rfl) h⟩,
      fun h => ⟨_, exec_serves r s (by simp), serveOp_fx hseq (.inr rfl) h⟩⟩,
    fun op c hmem h hbad hnone => ⟨_, exec_serves r s hmem, serveOp_illegal h hbad hnone⟩⟩

end Sys2Proof.Machine
end

section
/-! PROOFS. What the end of commands and channels leaves: of the tenants all but their events and posted writes, and every table
and block that packets, columns, partitions, rings, channels and host reads are not part of. -/

namespace Sys2Proof.Machine

open Sys2Proof

/-! ### The view -/

/-- A tenant's record apart from the events and posted writes it is owed (R205, R259, R263). -/
def Ten.besideEvents (t : Ten) : Ten :=
  { t with evtK := 0, nextSeq := 0, evtWritten := 0, evtLost := 0, held := [], heldLost := 0, heldW := [] }

/-- The tenants apart from their events and posted writes, and the state without what commands work on and events are noted in. -/
def State.restView (s : State) : (Nat → Ten) × State :=
  (fun n => (s.ten n).besideEvents, { s with
    tens := [], parts := [], rings := [], cores := [], chans := [], cols := [], unitKeys := [], badUnits := [], fab := {}, flt := {}
    reads := [], nextRead := 0, out := [], freeCtr := 0, mevHeld := [], mevLost := 0, mevRun := 0
    stw := { s.stw with chans := [], ram := [], ramLost := 0 }, pwr := { s.pwr with dropped := 0 } })

section
variable {s t : State} (h : t.restView = s.restView)
include h

theorem restView_ten (n : Nat) : (t.ten n).besideEvents = (s.ten n).besideEvents := congrFun (congrArg Prod.fst h) n

theorem restView_win : t.win = s.win := congrArg (·.2.win) h

end

/-! ### Updates -/

theorem setTen_restView {s : State} {n : Nat} {v : Ten} (h : v.besideEvents = (s.ten n).besideEvents) :
    (s.setTen n v).restView = s.restView := by
  have htens : ∀ m, ((s.setTen n v).ten m).besideEvents = (s.ten m).besideEvents := by
    intro m
    by_cases hm : m = n
    · rw [hm, setTen_self, h]
    · rw [setTen_ne s v hm]
  simp only [State.restView, htens]
  rfl

@[simp] theorem setPart_restView (s : State) (p : Nat) (v : Part) : (s.setPart p v).restView = s.restView := rfl
@[simp] theorem setRing_restView (s : State) (r : Nat) (v : Ring) : (s.setRing r v).restView = s.restView := rfl
@[simp] theorem setChan_restView (s : State) (k : Nat) (v : Chan) : (s.setChan k v).restView = s.restView := rfl
@[simp] theorem inject_restView (p : Packet) (s : State) : (inject p s).restView = s.restView := rfl
@[simp] theorem dropReads_restView (q : HRead → Bool) (s : State) : (dropReads q s).restView = s.restView := rfl
@[simp] theorem modCmd_restView (r : Nat) (q : DWord) (f : Cmd → Cmd) (s : State) : (modCmd r q f s).restView = s.restView := rfl

/-! ### Events and posted writes (R205, R262, R263) -/

theorem logAdd_restView (c k p : Nat) (a : DWord) (b : Word) (d : List Nat) (s : State) :
    (logAdd c k p a b d s).restView = s.restView := by
  rw [logAdd_logged]
  rfl

@[simp] theorem deliver_restView (n : Nat) (e : Event) (s : State) : (deliver n e s).restView = s.restView := by
  unfold deliver holdEvent; dsimp only
  split
  · exact setTen_restView rfl
  · split
    · exact setTen_restView rfl
    · split <;> exact setTen_restView rfl

@[simp] theorem holdMachine_restView (e : Event) (s : State) : (holdMachine e s).restView = s.restView := by
  unfold holdMachine; split <;> rfl

theorem machineEvent_restView (c n d : Nat) (p : Option (BitVec 6)) (a : DWord) (b : Word) (s : State) :
    (machineEvent c n d p a b s).restView = s.restView := by
  unfold machineEvent; dsimp only
  split
  · split <;> simp [logAdd_restView]
  · simp [logAdd_restView]

@[simp] theorem hostPost_restView (n : Nat) (o : Option (Nat × DWord)) (a : DWord) (b : List Byte) (s : State) :
    (hostPost n o a b s).restView = s.restView := by
  unfold hostPost; dsimp only
  split
  · rfl
  · exact setTen_restView rfl

/-! ### Column writes (R215, R216) -/

@[simp] theorem putColumn_restView (k key : Nat) (b : List Byte) (s : State) : (putColumn k key b s).restView = s.restView :=
  foldl_keeps State.restView _ (fun a u => by rw [rekeyUnit_frame]; rfl) _ s

@[simp] theorem countRefused_restView (w : Nat) (s : State) : (countRefused w s).restView = s.restView := by
  unfold countRefused; split <;> rfl

@[simp] theorem gateWrite_restView (who : Who) (w key : Nat) (b : List Byte) (s : State) :
    (gateWrite who w key b s).2.restView = s.restView := by
  unfold gateWrite
  split
  · rfl
  · split
    · rfl
    · split
      · simp
      · split
        · rfl
        · exact putColumn_restView _ _ _ _

@[simp] theorem lateFault_restView (who : Who) (h : Option Nat) (c l a : Nat) (s : State) :
    (lateFault who h c l a s).restView = s.restView := by
  unfold lateFault; dsimp only; split <;> simp

@[simp] theorem srcFault_restView (who : Who) (c l a : Nat) (s : State) : (srcFault who c l a s).restView = s.restView := by
  unfold srcFault; split <;> simp

@[simp] theorem postWrite_restView (who : Who) (m : List Nat) (src : Place) (f : Bool) (a : Nat) (b : List Byte) (s : State) :
    (postWrite who m src f a b s).restView = s.restView := by
  unfold postWrite landWrite; dsimp only
  split
  · split <;> simp
  · simp

/-! ### Move channels (R338, R340) -/

theorem readPart_restView (key : Nat) (m : List Nat) (a l : Nat) (s : State) : (readPart key m a l s).2.restView = s.restView := by
  unfold readPart chanSrcFault; dsimp only
  split
  · simp
  · split
    · simp
    · split
      · exact srcFault_restView ..
      · rfl

theorem readRun_restView (key : Nat) (m : List Nat) (src n : Nat) (s : State) :
    (readRun key m src n s).2.2.restView = s.restView := by
  unfold readRun; dsimp only
  split
  · refine foldl_carries State.restView (Prod.snd ∘ Prod.snd) _ (fun b x => ?_) _ _
    split
    · rfl
    · exact readPart_restView ..
  · rfl
  · rfl

theorem writeRun_restView (key : Nat) (m : List Nat) (l : List (Nat × List Byte)) (s : State) :
    (writeRun key m l s).restView = s.restView := by
  refine foldl_keeps State.restView _ (fun a x => ?_) _ _
  split
  · exact foldl_keeps State.restView _ (fun _ _ => postWrite_restView ..) _ _
  · exact foldl_keeps State.restView _ (fun _ _ => inject_restView ..) _ _
  · rfl

@[simp] theorem abortChan_restView (key : Nat) (s : State) : (abortChan key s).restView = s.restView := by
  unfold abortChan; dsimp only
  split
  · rfl
  · exact foldl_carries State.restView Prod.snd _ (fun b x => (writeRun_restView ..).trans (readRun_restView ..)) _ _
  · rfl

theorem chanRead_restView (k i a l : Nat) (s : State) : (chanRead k i a l s).restView = s.restView := by
  unfold chanRead; dsimp only; split <;> rfl

@[simp] theorem startChan_restView (k : Nat) (o : Option (Nat × DWord)) (s : State) : (startChan k o s).restView = s.restView := by
  unfold startChan askReads; dsimp only
  split
  · refine (foldl_keeps State.restView _ (fun a x => ?_) _ _ :)
    split
    · exact inject_restView ..
    · exact chanRead_restView ..
  · rfl

@[simp] theorem wakeChan_restView (k : Nat) (s : State) : (wakeChan k s).restView = s.restView := by
  unfold wakeChan
  split
  · rfl
  · split <;> simp

/-! ### Commands of a ring that end (R282, R313) -/

@[simp] theorem noteHead_restView (r : Nat) (s : State) : (noteHead r s).restView = s.restView := by
  unfold noteHead recipePoisonEvent; dsimp only
  split
  · rfl
  · split
    · split
      · exact deliver_restView ..
      · rfl
    · rfl

@[simp] theorem advanceTally_restView (r : Nat) (s : State) : (advanceTally r s).restView = s.restView := by
  unfold advanceTally; dsimp only; split <;> rfl

@[simp] theorem completeCut_restView (r : Nat) (q : DWord) (s : State) : (completeCut r q s).restView = s.restView := by
  unfold completeCut complete
  split
  · rfl
  · dsimp only
    split
    · rfl
    · rw [noteHead_restView, advanceTally_restView]
      split <;> split <;> simp

/-- The end of a stopped channel completes its command, and starts the channel for what waits for it. -/
theorem endAbort_restView (key : Nat) (s : State) : (endAbort key s).restView = s.restView := by
  unfold endAbort; dsimp only
  split
  · split
    · split
      · rw [startChan_restView]
        split <;> simp
      · split <;> simp
    · rw [wakeChan_restView]
      split <;> simp
  · rfl

end Sys2Proof.Machine
end

section
/-! PROOFS. The end of a reset sequence (O16): reset done, the drain's timeout, and the scrub. -/

namespace Sys2Proof.Machine

open Sys2Proof

theorem exec_flrResetDone (n : BitVec 4) (s : State) : exec (.flrResetDone n) s = .next (flrDone n.toNat s) := rfl
theorem exec_flrDrainTimeout (n : BitVec 4) (s : State) : exec (.flrDrainTimeout n) s = .next (flrTimeout n.toNat s) := rfl
theorem exec_flrScrubDone (n : BitVec 4) (s : State) : exec (.flrScrubDone n) s = .next (scrubDone n.toNat s) := rfl

theorem ten_of_tens {s t : State} (h : t.tens = s.tens) (n : Nat) : t.ten n = s.ten n := by rw [State.ten, h]; rfl
theorem part_of_parts {s t : State} (h : t.parts = s.parts) (p : Nat) : t.part p = s.part p := by rw [State.part, h]; rfl

theorem partsOf_of_parts {s t : State} (h : t.parts = s.parts) (n : Nat) : t.partsOf n = s.partsOf n :=
  calc t.partsOf n = ({ s with parts := t.parts } : State).partsOf n := rfl
    _ = s.partsOf n := by rw [h]

/-! ### Reset done (Table 6-6 steps 6 and 7) -/

/-- What a tenant's registers tell of its resets, with its STATE and PENDING (R202, R219, R220). -/
def Ten.resetRegs (t : Ten) : FlrPhase × Word × DWord × Bool × Obj := (t.flr, t.flrCount, t.flrTb, t.flrForced, t.obj)

theorem resetRegs_of_besideEvents {t u : Ten} (h : t.besideEvents = u.besideEvents) : t.resetRegs = u.resetRegs :=
  (congrArg Ten.resetRegs h :)

/-- A tenant's record with a fresh key (Table 6-6 step 7). -/
def Ten.rekeyed (t : Ten) (id : Nat) : Ten := { t with keyLoaded := true, keyEph := true, keyGen := t.keyGen + 1, keyId := id }

theorem freshKey_tens (n : Nat) (s : State) (h : s.keys.ready = true) :
    (freshKey n s).tens = (s.setTen n ((s.ten n).rekeyed (s.keySerial + 1))).tens := by
  unfold freshKey
  dsimp only
  rw [if_pos h, storeItem_tens]
  exact foldl_keeps State.tens _ (fun _ _ => setMod_tens ..) _ _

theorem freshKey_resetRegs (n : Nat) (s : State) : ((freshKey n s).ten n).resetRegs = (s.ten n).resetRegs := by
  by_cases h : s.keys.ready = true
  · rw [ten_of_tens (freshKey_tens n s h), setTen_self]
    rfl
  · rw [freshKey, if_neg h]

theorem resetDone_resetRegs (n : Nat) (forced : Bool) (s : State) :
    ((resetDone n forced s).ten n).resetRegs = (.scrub, (s.ten n).flrCount + 1, s.win.tb, forced, (s.ten n).obj) := by
  have hevent : ∀ (c m d : Nat) (q : Option (BitVec 6)) (b : DWord) (g : Word) (a : State),
      ((machineEvent c m d q b g a).ten n).resetRegs = (a.ten n).resetRegs := fun c m d q b g a =>
    resetRegs_of_besideEvents (restView_ten (machineEvent_restView c m d q b g a) n)
  have hscrub : ∀ (l : List Nat) (a : State),
      (l.foldl (fun b p => b.setPart p { b.part p with scrub := true }) a).tens = a.tens := fun l a =>
    foldl_keeps State.tens _ (fun _ _ => setPart_tens ..) l a
  unfold resetDone
  dsimp only
  split
  · rw [ten_of_tens (hscrub ..)]
    refine (freshKey_resetRegs ..).trans ?_
    rw [hevent, setTen_self]
    rfl
  · rw [hevent, setTen_self]
    rfl

/-! ### Items that are discarded (R220) -/

theorem dropTenReads_restView (n : Nat) (s : State) : (dropTenReads n s).restView = s.restView := by
  refine (foldl_keeps State.restView _ (fun a p => ?_) _ _).trans (dropReads_restView ..)
  split
  · exact setPart_restView ..
  · rfl

theorem discardItems_restView (n : Nat) (s : State) : (discardItems n s).restView = s.restView := by
  refine (foldl_keeps State.restView _ (fun a c => ?_) _ _).trans (dropTenReads_restView n s)
  rw [endAbort_restView, abortChan_restView]

theorem discardItems_resetRegs (n : Nat) (s : State) : ((discardItems n s).ten n).resetRegs = (s.ten n).resetRegs :=
  resetRegs_of_besideEvents (restView_ten (discardItems_restView n s) n)

/-! ### The end of the scrub (Table 6-6 steps 8 and 9) -/

/-- The end of a ring's wind-down changes rings and what goes out to the host only. -/
theorem endRing_frame (r : Nat) (s : State) : endRing r s = { s with rings := (endRing r s).rings, out := (endRing r s).out } := by
  unfold endRing
  dsimp only
  split
  · split
    · rw [startRing_frame]
      rfl
    · rfl
  · rfl

theorem clearPendingRings_keeps {γ : Type} (v : State → γ) (hring : ∀ a r x, v (State.setRing a r x) = v a) (p : Nat)
    (s : State) : v (clearPendingRings p s) = v s := foldl_keeps v _ (fun _ _ => hring ..) _ _

/-- The start of a partition's enable changes no other partition. -/
theorem startEnable_part_ne (p : Nat) (s : State) {q : Nat} (hq : q ≠ p) : (startEnable p s).part q = s.part q := by
  by_cases hready : s.partReady p = true
  · rw [startEnable_part hready, setPart_ne _ _ hq]
  · unfold startEnable
    dsimp only
    rw [if_neg hready]
    exact (clearPendingRings_keeps (State.part · q) (fun _ _ _ => rfl) p _).trans (setPart_ne s _ hq)

/-- A view that neither a scrub nor the partition's own record, its start and its waiting rings touch is kept by its end. -/
theorem endPart_keeps {γ : Type} (v : State → γ) (p : Nat) (hstore : ∀ off w a, v (storeItem off w a) = v a)
    (hscrub : ∀ a, v (scrubPart p a) = v a) (hpart : ∀ a x, v (State.setPart a p x) = v a)
    (hstart : ∀ a, v (startEnable p a) = v a) (hring : ∀ a r x, v (State.setRing a r x) = v a) (s : State) :
    v (endPart p s) = v s := by
  have hoff : ∀ x, v ((storeItem (partItem p) 0 (scrubPart p s)).setPart p x) = v s := fun x => by
    rw [hpart, hstore, hscrub]
  unfold endPart
  dsimp only
  split
  · split
    · rw [hstart, hoff]
    · split
      · rw [hoff]
      · rw [clearPendingRings_keeps v hring, hpart, hoff]
  · rw [hoff]

theorem endPart_tens (p : Nat) (s : State) : (endPart p s).tens = s.tens :=
  endPart_keeps State.tens p storeItem_tens (scrubPart_tens p) (fun _ _ => rfl) (startEnable_tens p) (fun _ _ _ => rfl) s

theorem endPart_part_ne (p : Nat) (s : State) {q : Nat} (hq : q ≠ p) : (endPart p s).part q = s.part q :=
  endPart_keeps (State.part · q) p (fun _ _ _ => part_of_parts (storeItem_parts ..) q)
    (fun _ => part_of_parts (scrubPart_parts ..) q) (fun a x => setPart_ne a x hq) (fun a => startEnable_part_ne p a hq)
    (fun _ _ _ => rfl) s

/-- A partition that is not to be enabled again ends OFF. -/
theorem endPart_obj {p : Nat} {s : State} (h : (s.part p).obj.pending = false) : ((endPart p s).part p).obj = {} := by
  unfold endPart
  dsimp only
  rw [h, if_neg (by decide), setPart_self]

/-- No partition's end makes another wait to be enabled. -/
theorem endPart_pending {p : Nat} {s : State} (q : Nat) (h : (s.part p).obj.pending = false) :
    ((endPart q s).part p).obj.pending = false := by
  by_cases hq : p = q
  · rw [← hq, endPart_obj h]
  · rw [endPart_part_ne q s hq, h]

theorem foldl_part_ne {f : State → Nat → State} (hf : ∀ a p q, q ≠ p → (f a p).part q = a.part q) {q : Nat} (l : List Nat)
    (s : State) (hq : q ∉ l) : (l.foldl f s).part q = s.part q :=
  l.foldlRecOn f (motive := fun a => a.part q = s.part q) rfl
    (fun a ha p hp => (hf a p q (fun he => hq (he.symm ▸ hp))).trans ha)

theorem endParts_obj {p : Nat} (l : List Nat) (s : State) (hp : p ∈ l) (h : (s.part p).obj.pending = false) :
    ((l.foldl (fun a q => endPart q a) s).part p).obj = {} := by
  induction l generalizing s with
  | nil => cases hp
  | cons q l ih =>
    rw [List.foldl_cons]
    by_cases hl : p ∈ l
    · exact ih _ hl (endPart_pending q h)
    · obtain rfl : p = q := (List.mem_cons.1 hp).resolve_right hl
      rw [foldl_part_ne (fun a q _ => endPart_part_ne q a) l _ hl, endPart_obj h]

/-- The rings of a tenant that have nothing in progress end. -/
def endRings (n : Nat) (s : State) : State :=
  (s.ringsOfTen n).foldl (fun a r => if (a.ring r).inProg.isEmpty then endRing r a else a) s

theorem endRings_keeps {γ : Type} (v : State → γ) (hv : ∀ (a : State) r o, v { a with rings := r, out := o } = v a) (n : Nat)
    (s : State) : v (endRings n s) = v s := by
  refine foldl_keeps v _ (fun a r => ?_) _ _
  split
  · rw [endRing_frame, hv]
  · rfl

/-- The partitions of a tenant that its reset sequence cut end. -/
def endCutParts (n : Nat) (s : State) : State :=
  ((s.partsOf n).filter (fun p => (s.part p).wind == .reset)).foldl (fun a p => endPart p a) s

theorem endCutParts_tens (n : Nat) (s : State) : (endCutParts n s).tens = s.tens :=
  foldl_keeps State.tens _ (fun a p => endPart_tens p a) _ _

/-- The state in which a tenant's sequence is over, and the rings and partitions that it cut have ended. -/
def cutEnded (n : Nat) (s : State) : State := endCutParts n (endRings n (s.setTen n { s.ten n with flr := .idle }))

/-- Where the scrub of a sequence ends, its partitions end, and then those partitions start that wait to be enabled. -/
theorem scrubDone_ends {n : Nat} {s : State} (hflr : (s.ten n).flr = .scrub)
    (hawake : ∀ p ∈ s.partsOf n, (s.part p).wind = .reset → s.partAwake p = true) : ∃ l : List Nat,
    (∀ p ∈ l, ((cutEnded n s).part p).obj.pending = true) ∧ scrubDone n s = l.foldl (fun a p => startEnable p a) (cutEnded n s) := by
  have hall : ((s.partsOf n).filter (fun p => (s.part p).wind == .reset)).all s.partAwake = true := by
    rw [List.all_eq_true]
    intro p hp
    obtain ⟨hof, hcut⟩ := List.mem_filter.1 hp
    exact hawake p hof (beq_iff_eq.1 hcut)
  unfold scrubDone
  dsimp only
  rw [if_pos ⟨hflr, hall⟩]
  split
  · refine ⟨_, fun p hp => ?_, rfl⟩
    obtain ⟨-, hlatched⟩ := List.mem_filter.1 hp
    obtain ⟨-, hpend⟩ := Bool.and_eq_true_iff.1 hlatched
    exact hpend
  · exact ⟨[], by simp, rfl⟩

theorem scrubDone_ten {n : Nat} {s : State} (hflr : (s.ten n).flr = .scrub)
    (hawake : ∀ p ∈ s.partsOf n, (s.part p).wind = .reset → s.partAwake p = true) :
    (scrubDone n s).ten n = { s.ten n with flr := .idle } := by
  obtain ⟨l, -, hends⟩ := scrubDone_ends hflr hawake
  have htens : (scrubDone n s).tens = (s.setTen n { s.ten n with flr := .idle }).tens := by
    rw [hends, startEnables_tens, cutEnded, endCutParts_tens]
    exact endRings_keeps State.tens (fun _ _ _ => rfl) n _
  rw [ten_of_tens htens, setTen_self]

theorem cutEnded_part {n p : Nat} {s : State} (hp : p ∈ s.partsOf n) (hcut : (s.part p).wind = .reset)
    (hpend : (s.part p).obj.pending = false) : ((cutEnded n s).part p).obj = {} := by
  have hparts : (endRings n (s.setTen n { s.ten n with flr := .idle })).parts = s.parts :=
    endRings_keeps State.parts (fun _ _ _ => rfl) n _
  refine endParts_obj _ _ (List.mem_filter.2 ⟨?_, ?_⟩) (by rw [part_of_parts hparts, hpend])
  · rwa [partsOf_of_parts hparts]
  · rw [part_of_parts hparts, hcut]
    rfl

theorem scrubDone_part {n : Nat} {s : State} (hflr : (s.ten n).flr = .scrub)
    (hawake : ∀ p ∈ s.partsOf n, (s.part p).wind = .reset → s.partAwake p = true) {p : Nat} (hp : p ∈ s.partsOf n)
    (hcut : (s.part p).wind = .reset) (hpend : (s.part p).obj.pending = false) : ((scrubDone n s).part p).obj = {} := by
  obtain ⟨l, hl, hends⟩ := scrubDone_ends hflr hawake
  have hoff := cutEnded_part hp hcut hpend
  rw [hends, foldl_part_ne (fun a p _ => startEnable_part_ne p a) l _ (fun hpl => ?_), hoff]
  have hwaits := hl p hpl
  rw [hoff] at hwaits
  cases hwaits

/-! ### O16 -/

/-- Settles O16: reset done writes the tenant's reset registers whatever has been discarded before it; the end of the scrub ends
each partition that the sequence cut, and starts none of them that is not to be enabled again. -/
theorem resetSequenceEnds : Obligations.ResetSequenceEnds := by
  unfold Obligations.ResetSequenceEnds
  intro s n
  refine ⟨fun hdrain hnone => ⟨_, exec_flrResetDone n s, ?_⟩, fun hdrain hsome htime => ⟨_, exec_flrDrainTimeout n s, ?_⟩,
    fun hscrub hawake => ⟨_, exec_flrScrubDone n s, ?_⟩⟩
  · have hregs := resetDone_resetRegs n.toNat false s
    simp only [Ten.resetRegs, Prod.mk.injEq] at hregs
    dsimp only
    rwa [flrDone, if_pos ⟨hdrain, hnone⟩]
  · have hregs := resetDone_resetRegs n.toNat true (discardItems n.toNat s)
    have hbefore := discardItems_resetRegs n.toNat s
    simp only [Ten.resetRegs, Prod.mk.injEq] at hregs hbefore
    obtain ⟨-, hcount, -, -, -⟩ := hbefore
    obtain ⟨hflr, hcnt, htb, hforced, -⟩ := hregs
    rw [hcount] at hcnt
    rw [restView_win (discardItems_restView n.toNat s)] at htb
    dsimp only
    rw [flrTimeout, if_pos ⟨hdrain, hsome, htime⟩]
    exact ⟨hflr, hcnt, htb, hforced⟩
  · dsimp only
    rw [scrubDone_ten hscrub hawake]
    exact ⟨rfl, rfl, fun p hp hcut hpend => scrubDone_part hscrub hawake hp hcut hpend⟩

end Sys2Proof.Machine
end

section
/-! PROOFS. Nudges and due scans (O19). -/

namespace Sys2Proof.Machine

open Sys2Proof

theorem exec_scanDue (p : BitVec 6) (s : State) : exec (.scanDue p) s = .next (scanDue p.toNat s) := rfl

/-! ### What scans change -/

/-- A partition's record apart from its scan. -/
def Part.besideScan (x : Part) : Part := { x with scan := {} }

/-- The partitions apart from their scans, and the state without partitions and host reads. -/
def State.scanlessView (s : State) : (Nat → Part) × State :=
  (fun p => (s.part p).besideScan, { s with parts := [], reads := [], nextRead := 0, out := [] })

section
variable {s t : State} (h : t.scanlessView = s.scanlessView)
include h

theorem scanlessView_part (p : Nat) : (t.part p).besideScan = (s.part p).besideScan := congrFun (congrArg Prod.fst h) p

theorem scanlessView_tens : t.tens = s.tens := congrArg (·.2.tens) h
theorem scanlessView_ports : t.ports = s.ports := congrArg (·.2.ports) h
theorem scanlessView_rings : t.rings = s.rings := congrArg (·.2.rings) h

theorem scanlessView_scanning (p : Nat) : t.scanning p = s.scanning p := by
  have hobj : (t.part p).obj = (s.part p).obj := (congrArg Part.obj (scanlessView_part h p) :)
  have howner : (t.part p).owner = (s.part p).owner := (congrArg Part.owner (scanlessView_part h p) :)
  simp only [State.scanning, State.onRings, State.ringIds, State.ring, State.ten, scanlessView_rings h, scanlessView_tens h, hobj,
    howner]

theorem scanlessView_leadPaused (p : Nat) : t.leadPaused p = s.leadPaused p := by
  have hmods : (t.part p).mods = (s.part p).mods := (congrArg Part.mods (scanlessView_part h p) :)
  have hpwr : t.pwr = s.pwr := congrArg (·.2.pwr) h
  rw [State.leadPaused, State.paused, State.pwrMod, hmods, hpwr]
  rfl

end

theorem setPart_scanlessView (s : State) (p : Nat) (sc : Scan) :
    (s.setPart p { s.part p with scan := sc }).scanlessView = s.scanlessView := by
  have hparts : ∀ q, ((s.setPart p { s.part p with scan := sc }).part q).besideScan = (s.part q).besideScan := by
    intro q
    by_cases hq : q = p
    · rw [hq, setPart_self]
      rfl
    · rw [setPart_ne _ _ hq]
  simp only [State.scanlessView, hparts]
  rfl

/-! ### A tenant's host read (R205) -/

/-- The read that a tenant asks for now. -/
def State.readNow (s : State) (n : Nat) (addr : DWord) (len : Nat) (pu : RdPurpose) : HRead :=
  { tenant := some n, port := (s.ten n).bPort, fn := (s.ten n).bFn, addr := addr, len := len, purpose := pu, sent := s.tenCan n
    tick := s.win.tb }

/-- A tenant's read takes the next number; beside it only what goes out to the host changes. -/
theorem tenRead_frame (n : Nat) (addr : DWord) (len : Nat) (pu : RdPurpose) (s : State) : tenRead n addr len pu s = { s with
    reads := tset none s.nextRead (some (s.readNow n addr len pu)) s.reads, nextRead := s.nextRead + 1
    out := (tenRead n addr len pu s).out } := by
  unfold tenRead
  dsimp only
  split <;> rfl

/-! ### The start of a scan (R247) -/

/-- A partition's record with a scan outstanding that delivers to `rings`. -/
def Part.scans (x : Part) (rings : List Nat) : Part := { x with scan := { x.scan with out := true, rings := rings } }

theorem startScan_frame (p : Nat) (s : State) : startScan p s = { s.setPart p ((s.part p).scans (s.onRings p)) with
    reads := tset none s.nextRead (some (s.readNow (s.part p).owner (s.ten (s.part p).owner).dbS (s.scanLen p) (.scan p))) s.reads
    nextRead := s.nextRead + 1, out := (startScan p s).out } := tenRead_frame ..

theorem startScan_part_self (p : Nat) (s : State) : (startScan p s).part p = (s.part p).scans (s.onRings p) := by
  rw [startScan_frame]
  exact setPart_self s p _

theorem startScan_part_ne (p : Nat) (s : State) {q : Nat} (hq : q ≠ p) : (startScan p s).part q = s.part q := by
  rw [startScan_frame]
  exact setPart_ne s _ hq

theorem startScan_scanlessView (p : Nat) (s : State) : (startScan p s).scanlessView = s.scanlessView := by
  rw [startScan_frame]
  exact setPart_scanlessView s p _

/-! ### Nudges (R248) -/

/-- A nudge changes at its partition the scan only. -/
theorem nudgePart_scanlessView (p : Nat) (s : State) : (nudgePart p s).scanlessView = s.scanlessView := by
  unfold nudgePart
  dsimp only
  split
  · rfl
  · split
    · exact setPart_scanlessView ..
    · split
      · exact startScan_scanlessView ..
      · split
        · split
          · exact setPart_scanlessView ..
          · rfl
        · rfl

theorem nudgePart_part_ne (p : Nat) (s : State) {q : Nat} (hq : q ≠ p) : (nudgePart p s).part q = s.part q := by
  unfold nudgePart
  dsimp only
  split
  · rfl
  · split
    · exact setPart_ne _ _ hq
    · split
      · exact startScan_part_ne _ _ hq
      · split
        · split
          · exact setPart_ne _ _ hq
          · rfl
        · rfl

/-- After its nudge a scanning partition at 0.70 V has a scan outstanding. -/
theorem nudgePart_out {p : Nat} {s : State} (hscan : s.scanning p = true) (hlead : s.leadPaused p = false) :
    ((nudgePart p s).part p).scan.out = true := by
  unfold nudgePart
  dsimp only
  split
  next hwith =>
    simp only [hscan, Bool.not_true, Bool.false_or, Bool.and_eq_true] at hwith
    obtain ⟨hout, -⟩ := hwith
    exact hout
  next =>
    rw [if_neg (by rw [hlead]; decide)]
    split
    next =>
      rw [startScan_part_self]
      rfl
    next hout =>
      rw [Bool.not_eq_true', Bool.not_eq_false] at hout
      split
      · split
        · rw [setPart_self]
          exact hout
        · exact hout
      · exact hout

theorem nudgeParts_out {p : Nat} (l : List Nat) (s : State) (hp : p ∈ l) (hscan : s.scanning p = true)
    (hlead : s.leadPaused p = false) : ((l.foldl (fun a q => nudgePart q a) s).part p).scan.out = true := by
  induction l generalizing s with
  | nil => cases hp
  | cons q l ih =>
    rw [List.foldl_cons]
    by_cases hl : p ∈ l
    · exact ih _ hl (by rw [scanlessView_scanning (nudgePart_scanlessView q s), hscan])
        (by rw [scanlessView_leadPaused (nudgePart_scanlessView q s), hlead])
    · obtain rfl : p = q := (List.mem_cons.1 hp).resolve_right hl
      rw [foldl_part_ne (fun a q _ => nudgePart_part_ne q a) l _ hl, nudgePart_out hscan hlead]

/-! ### A write to a nudge page (R207) -/

/-- The tenant whose ON binding names a function, where there is one. -/
def State.nudgedTen (s : State) (port fn : Nat) : Option Nat :=
  s.tenIds.find? (fun n => (s.ten n).obj.st == .on && (s.ten n).bPort == port && (s.ten n).bFn == fn)

section
variable {s : State} {port fn : Nat}

theorem nudgedTen_none (h : ∀ m, ¬((s.ten m).obj.st = .on ∧ (s.ten m).bPort = port ∧ (s.ten m).bFn = fn)) :
    s.nudgedTen port fn = none := by
  rw [State.nudgedTen, List.find?_eq_none]
  intro m _ hm
  simp only [Bool.and_eq_true, beq_iff_eq] at hm
  obtain ⟨⟨hon, hport⟩, hfn⟩ := hm
  exact h m ⟨hon, hport, hfn⟩

theorem nudgedTen_some {n : Nat} (h : ∀ m, ((s.ten m).obj.st = .on ∧ (s.ten m).bPort = port ∧ (s.ten m).bFn = fn) ↔ m = n) :
    s.nudgedTen port fn = some n := by
  obtain ⟨hon, hport, hfn⟩ := (h n).2 rfl
  have hlisted : n ∈ s.tenIds := by
    have hne : s.ten n ≠ {} := by
      intro hd
      rw [hd] at hon
      cases hon
    exact List.mem_map_of_mem (mem_of_tget_ne hne)
  cases hfind : s.nudgedTen port fn with
  | none =>
    have hnot := List.find?_eq_none.1 hfind n hlisted
    simp [hon, hport, hfn] at hnot
  | some m =>
    have hm := List.find?_some hfind
    simp only [Bool.and_eq_true, beq_iff_eq] at hm
    obtain ⟨⟨hmon, hmport⟩, hmfn⟩ := hm
    rw [(h m).1 ⟨hmon, hmport, hmfn⟩]

/-- A nudge as its port has counted it. -/
def State.portNudged (s : State) (port : Nat) : State := s.setPort port { s.port port with nudges := (s.port port).nudges + 1 }

/-- The nudge as the tenant has counted it too. -/
def State.tenNudged (s : State) (port n : Nat) : State :=
  (s.portNudged port).setTen n { s.ten n with nudges := (s.ten n).nudges + 1 }

theorem nudgeWrite_unbound {off : Nat} (hw : s.takesWrites = true) (hoff : off % 4 = 0) (hnone : s.nudgedTen port fn = none) :
    nudgeWrite port fn off 15 s = s.portNudged port := by
  unfold nudgeWrite
  dsimp only
  rw [if_neg (by simp [hw]), if_neg (by simp [hoff])]
  split
  · rfl
  next n hsome => cases hnone.symm.trans hsome

theorem nudgeWrite_bound {off n : Nat} (hw : s.takesWrites = true) (hoff : off % 4 = 0) (hsome : s.nudgedTen port fn = some n) :
    nudgeWrite port fn off 15 s = (((s.tenNudged port n).partsOf n).filter (fun p => (s.part p).obj.st == .on)).foldl
      (fun a p => nudgePart p a) (s.tenNudged port n) := by
  unfold nudgeWrite
  dsimp only
  rw [if_neg (by simp [hw]), if_neg (by simp [hoff])]
  split
  next hnone => cases hsome.symm.trans hnone
  next m hm =>
    obtain rfl : n = m := Option.some.inj (hsome.symm.trans hm)
    rfl

end

theorem nudgeParts_scanlessView (l : List Nat) (s : State) :
    (l.foldl (fun a p => nudgePart p a) s).scanlessView = s.scanlessView :=
  foldl_keeps State.scanlessView _ (fun a p => nudgePart_scanlessView p a) l s

theorem scanning_on {p : Nat} {s : State} (h : s.scanning p = true) : (s.part p).obj.st = .on := by
  simp only [State.scanning, Bool.and_eq_true, beq_iff_eq] at h
  obtain ⟨⟨hon, -⟩, -⟩ := h
  exact hon

/-- A tenant that counts a nudge leaves its partitions scanning. -/
theorem tenNudged_scanning (s : State) (port n p : Nat) : (s.tenNudged port n).scanning p = s.scanning p := by
  have hflr : ∀ m, ((s.tenNudged port n).ten m).flr = (s.ten m).flr := by
    intro m
    by_cases hm : m = n
    · rw [hm, State.tenNudged, setTen_self]
    · rw [State.tenNudged, setTen_ne _ _ hm]
      rfl
  simp only [State.scanning, hflr]
  rfl

/-- A nudge for a tenant, of which `p` is a scanning partition at 0.70 V. -/
theorem nudgeWrite_scans {s : State} {port fn off n p : Nat} (hw : s.takesWrites = true) (hoff : off % 4 = 0)
    (hsome : s.nudgedTen port fn = some n) (hp : p ∈ s.partsOf n) (hscan : s.scanning p = true) (hlead : s.leadPaused p = false) :
    (nudgeWrite port fn off 15 s).scanlessView = (s.tenNudged port n).scanlessView ∧
    ((nudgeWrite port fn off 15 s).part p).scan.out = true := by
  rw [nudgeWrite_bound hw hoff hsome]
  refine ⟨nudgeParts_scanlessView .., nudgeParts_out _ _ (List.mem_filter.2 ⟨?_, ?_⟩) ?_ hlead⟩
  · rwa [partsOf_of_parts (s := s) (t := s.tenNudged port n) rfl]
  · rw [scanning_on hscan]
    rfl
  · rw [tenNudged_scanning, hscan]

/-! ### A due scan (R246) -/

/-- A partition whose due scan starts at this tick. -/
def State.scanDueNow (s : State) (p : Nat) : State :=
  s.setPart p { s.part p with scan := { (s.part p).scan with due := s.win.tb.toNat + 1 } }

theorem scanDue_starts {p : Nat} {s : State} (hscan : s.scanning p = true) (hout : (s.part p).scan.out = false)
    (hlead : s.leadPaused p = false) (hdue : s.win.tb.toNat % s.scanNow (s.part p).owner = 0) :
    scanDue p s = startScan p (s.scanDueNow p) := by
  simp [scanDue, hscan, hout, hlead, hdue, State.scanDueNow]

theorem scanDueNow_part_self (s : State) (p : Nat) : (s.scanDueNow p).part p =
    { s.part p with scan := { (s.part p).scan with due := s.win.tb.toNat + 1 } } := setPart_self ..

/-- A due scan is the partition's, and one read of its owner's doorbell page. -/
theorem startScan_due (p : Nat) (s : State) : ∃ t, startScan p (s.scanDueNow p) = t ∧
    t = { s with parts := t.parts, reads := t.reads, nextRead := s.nextRead + 1, out := t.out } ∧
    (t.part p).scan.out = true ∧ (t.part p).scan.rings = s.onRings p ∧ (∀ q, q ≠ p → t.part q = s.part q) ∧
    tget none s.nextRead t.reads =
      some (s.readNow (s.part p).owner (s.ten (s.part p).owner).dbS (s.scanLen p) (.scan p)) := by
  refine ⟨_, rfl, ?_, ?_, ?_, fun q hq => ?_, ?_⟩
  · rw [startScan_frame]
    rfl
  · rw [startScan_part_self]
    rfl
  · rw [startScan_part_self]
    rfl
  · rw [startScan_part_ne _ _ hq, State.scanDueNow, setPart_ne _ _ hq]
  · rw [startScan_frame]
    refine (tget_tset_self ..).trans ?_
    rw [scanDueNow_part_self]
    rfl

/-! ### O19 -/

/-- Settles O19: a nudge's tenant by its ON binding, and its effect on the partition's scan, whichever other partitions the nudge
reaches; a due scan by the frame of its start. -/
theorem nudgesAndDueScansStartScans : Obligations.NudgesAndDueScansStartScans := by
  unfold Obligations.NudgesAndDueScansStartScans
  intro s port fn off
  refine ⟨fun hw hoff hnone => ⟨_, exec_nudge .., nudgeWrite_unbound hw hoff (nudgedTen_none hnone)⟩,
    fun n p hw hoff hten hp hscan _ hlead => ⟨_, exec_nudge .., ?_⟩, fun p => ?_⟩
  · obtain ⟨hview, hout⟩ := nudgeWrite_scans hw hoff (nudgedTen_some hten) hp hscan hlead
    have hten := ten_of_tens (scanlessView_tens hview)
    dsimp only
    rw [toNat_fullWord, hten, State.tenNudged, setTen_self, State.port, scanlessView_ports hview, scanlessView_rings hview]
    refine ⟨congrArg Port.nudges (setPort_self s _ _), rfl, hout, fun m hm => ?_, rfl⟩
    rw [hten, State.tenNudged, setTen_ne _ _ hm]
    rfl
  · intro n hscan hout hlead hdue
    obtain ⟨t, ht, hscans⟩ := startScan_due p.toNat s
    exact ⟨t, by rw [exec_scanDue, scanDue_starts hscan hout hlead hdue, ht], hscans⟩

end Sys2Proof.Machine
end

section
/-! PROOFS. Virtual functions that stop existing (O11): which tenant's reset sequence starts. -/

namespace Sys2Proof.Machine

theorem exec_vfDisable (port nv : BitVec 4) (en : Bool) (s : State) (hup : (s.port port.toNat).up = true) :
    exec (.vfDisable port nv en) s = .next (setSriov port.toNat nv en s) := congrArg Host.Outcome.next (if_pos hup)

/-- Port 0 with its link up and two virtual functions. Tenant 1 is bound to the first, and tenants 3 and 2 both to the second;
the table lists tenant 3 before tenant 2. In tenant 1's partition runs a ring of tenant 2, whose command is to write a record. -/
def tenantsOutOfOrder : State := { State.reset with
  ports := [(0, { up := true, numVfs := 2, vfEn := true })]
  tens := [(1, { obj := { st := .on }, bound := 0x10 }), (3, { obj := { st := .on }, bound := 0x20 }),
           (2, { obj := { st := .on }, bound := 0x20 })]
  parts := [(0, { obj := { st := .on }, box := some ⟨0, 0, 0, 1, 1, 1⟩, owner := 1 })]
  rings := [(0, { obj := { st := .on }, ctx := { tenant := 2 }, cmds := [{ seq := 1, idx := 0, bytes := [0, 1], tick := 0 }] })] }

/-- There the second virtual function is tenant 3's, and stops existing with VF Enable. -/
theorem tenantsOutOfOrder_vfs : (tenantsOutOfOrder.port 0).up = true ∧ tenantsOutOfOrder.fnExists 0 2 = true ∧
    tenantsOutOfOrder.resetTen 0 2 = some 3 ∧ (setSriov 0 0 false tenantsOutOfOrder).fnExists 0 2 = false := by
  decide

/-- The reset of tenant 1 cuts the command, whose record tenant 2 is to hold: written to the table anew, tenant 2 stands before
tenant 3, and so the second function's reset finds tenant 2. -/
theorem tenantsOutOfOrder_missed : ((setSriov 0 0 false tenantsOutOfOrder).ten 3).flr = .idle := by
  decide

/-- Refutes O11: its clause of VF Enable and NumVFs is of every state, and gives a function that stops existing the tenant that was
bound to it before any other function's reset. The model itself keeps its table of tenants in rising order and binds a function
to one tenant, so that it finds the same tenant at the function's turn; in a state with the table out of order it does not. -/
theorem not_hostFunctionsAreConfigured : ¬ Obligations.HostFunctionsAreConfigured := by
  unfold Obligations.HostFunctionsAreConfigured
  intro h
  obtain ⟨hup, hexists, hbound, hgone⟩ := tenantsOutOfOrder_vfs
  obtain ⟨-, -, hvf, -⟩ := h tenantsOutOfOrder 0 0
  obtain ⟨t, ht, -, -, hreset, -⟩ := hvf 0 false hup
  rw [exec_vfDisable 0 0 false _ hup] at ht
  obtain rfl : setSriov 0 0 false tenantsOutOfOrder = t := Host.Outcome.next.inj ht
  obtain ⟨-, hstarts⟩ := hreset 2 hexists hgone
  rcases hstarts 3 hbound with hdrain | hdrain <;> rw [tenantsOutOfOrder_missed] at hdrain <;> cases hdrain

end Sys2Proof.Machine
end

section
/-! PROOFS. The value that a doorbell scan delivers to a ring (O18). -/

namespace Sys2Proof.Machine

section
variable {s : State} {r : Nat} {w : Word}

theorem ringEvaluate_zero (h : w - (s.ring r).prod = 0) : ringEvaluate r w s = s := if_pos h

/-- A value half the range or more ahead of PROD is a backward one. -/
theorem ringEvaluate_backward (hne : w - (s.ring r).prod ≠ 0) (hback : 0x80000000 ≤ (w - (s.ring r).prod).toNat) :
    ringEvaluate r w s = s.setRing r { s.ring r with ignored := satInc (s.ring r).ignored, lastCause := 2 } :=
  (if_neg hne).trans (if_pos hback)

theorem ringEvaluate_beyond (hne : w - (s.ring r).prod ≠ 0) (hahead : (w - (s.ring r).prod).toNat < 0x80000000)
    (hfull : 2 ^ (s.ring r).ctx.log2 < (w - (s.ring r).cons).toNat) :
    ringEvaluate r w s = s.setRing r { s.ring r with ignored := satInc (s.ring r).ignored, lastCause := 3 } :=
  (if_neg hne).trans ((if_neg (Nat.not_le.2 hahead)).trans (if_pos hfull))

theorem ringEvaluate_advances (hne : w - (s.ring r).prod ≠ 0) (hahead : (w - (s.ring r).prod).toNat < 0x80000000)
    (hfits : (w - (s.ring r).cons).toNat ≤ 2 ^ (s.ring r).ctx.log2) :
    ringEvaluate r w s = s.setRing r { s.ring r with prod := w } :=
  (if_neg hne).trans ((if_neg (Nat.not_le.2 hahead)).trans (if_neg (Nat.not_lt.2 hfits)))

end

/-- Whatever a ring makes of a value, it writes its own record only. -/
theorem ringEvaluate_cases (r : Nat) (w : Word) (s : State) :
    ringEvaluate r w s = s ∨ ∃ x, ringEvaluate r w s = s.setRing r x := by
  unfold ringEvaluate
  dsimp only
  split
  · exact .inl rfl
  · split
    · exact .inr ⟨_, rfl⟩
    · split <;> exact .inr ⟨_, rfl⟩

theorem ringEvaluate_ring_ne (r : Nat) (w : Word) (s : State) {q : Nat} (hq : q ≠ r) : (ringEvaluate r w s).ring q = s.ring q := by
  obtain h | ⟨x, h⟩ := ringEvaluate_cases r w s <;> rw [h]
  exact setRing_ne s x hq

/-- Settles O18: the branches of the comparison, in order. -/
theorem ringJudgesScannedValue : Obligations.RingJudgesScannedValue := by
  unfold Obligations.RingJudgesScannedValue
  intro s r w
  exact ⟨ringEvaluate_zero, ringEvaluate_backward, ringEvaluate_beyond, ringEvaluate_advances,
    fun _ hq => ringEvaluate_ring_ne r w s hq⟩

end Sys2Proof.Machine
end

section
/-! PROOFS. The end of a doorbell scan (O20): what the tenant counts of it, and the port of a timeout. -/

namespace Sys2Proof.Machine

open Sys2Proof

theorem exec_scanReadComplete (p : BitVec 6) (data : List Byte) (s : State) :
    exec (.scanReadComplete p data) s = .next (scanDone p.toNat data s) := rfl
theorem exec_scanFailed (p : BitVec 6) (f : HostFail) (s : State) : exec (.scanFailed p f) s = .next (scanFail p.toNat f s) := rfl
theorem exec_hostReadTimeout (id : Nat) (s : State) : exec (.hostReadTimeout id) s = .next (readEnds id (.fail .timeout) s) := rfl

/-! ### Reads that end (R265) -/

theorem readFor_purpose {s : State} {q : RdPurpose → Bool} {id : Nat} {h : HRead} (hread : s.readFor q = some (id, h)) :
    q h.purpose = true := by
  obtain ⟨x, -, hx⟩ := List.exists_of_findSome?_eq_some hread
  obtain ⟨g, -, hg⟩ := Option.bind_eq_some_iff.1 hx
  split at hg
  next hq =>
    obtain ⟨-, rfl⟩ := Prod.mk.inj (Option.some.inj hg)
    exact hq
  next => cases hg

theorem mayFail_of {s : State} {h : HRead} {f : HostFail} (hsent : h.sent = true)
    (hlate : f ≠ .timeout ∨ h.tick.toNat + 1000000 ≤ s.win.tb.toNat) : s.mayFail h f = true := by
  simpa [State.mayFail, hsent] using hlate

/-- The failure of a read that is a scan's, named by its number, is that of the scan. -/
theorem readEnds_scanFails {s : State} {id p : Nat} {h : HRead} {f : HostFail} (hget : tget none id s.reads = some h)
    (hscan : h.purpose = .scan p) (hmay : s.mayFail h f = true) : readEnds id (.fail f) s = scanFail p f s := by
  simp [readEnds, hget, State.mayEnd, HRead.fits, hmay, hscan]

/-- A failure is noted at its port only (R788). -/
theorem portFail_frame (port : Nat) (f : HostFail) (s : State) :
    portFail port f s = { s with ports := (portFail port f s).ports } := by
  cases f <;> rfl

/-! ### What a scan leaves at its end (R247, R248, R266) -/

/-- A view that neither a ring's record, nor the partition's, nor the start of a scan touches is kept after a scan. -/
theorem afterScan_keeps {γ : Type} (v : State → γ) (p : Nat) (hring : ∀ a r x, v (State.setRing a r x) = v a)
    (hpart : ∀ a x, v (State.setPart a p x) = v a) (hstart : ∀ a, v (startScan p a) = v a) (s : State) :
    v (afterScan p s) = v s := by
  have hretry : ∀ l : List Nat, v (l.foldl (fun a r => a.setRing r { a.ring r with fetchWait := false }) s) = v s := fun l =>
    foldl_keeps v _ (fun _ _ => hring ..) l s
  unfold afterScan
  dsimp only
  split
  · split
    · rw [hpart, hpart, hretry]
    · rw [hstart, hpart, hretry]
  · rw [hpart, hretry]

theorem startScan_ports (p : Nat) (s : State) : (startScan p s).ports = s.ports := by rw [startScan_frame]; rfl
theorem startScan_tens (p : Nat) (s : State) : (startScan p s).tens = s.tens := by rw [startScan_frame]; rfl

theorem afterScan_tens (p : Nat) (s : State) : (afterScan p s).tens = s.tens :=
  afterScan_keeps State.tens p setRing_tens (fun a => setPart_tens a p) (startScan_tens p) s

theorem afterScan_ports (p : Nat) (s : State) : (afterScan p s).ports = s.ports :=
  afterScan_keeps State.ports p setRing_ports (fun a => setPart_ports a p) (startScan_ports p) s

theorem ringEvaluate_tens (r : Nat) (w : Word) (s : State) : (ringEvaluate r w s).tens = s.tens := by
  obtain h | ⟨x, h⟩ := ringEvaluate_cases r w s <;> rw [h]
  exact setRing_tens ..

/-! ### The tenant's counts (R245, R265) -/

theorem deliver_ten_ne (n : Nat) (e : Event) (s : State) {m : Nat} (hm : m ≠ n) : (deliver n e s).ten m = s.ten m := by
  unfold deliver holdEvent
  dsimp only
  split
  · exact setTen_ne _ _ hm
  · split
    · exact setTen_ne _ _ hm
    · split <;> exact setTen_ne _ _ hm

/-- Tenant `n`'s record is `x` but for events and posted writes, and the other tenants are as in `s`. -/
structure TenIs (s t : State) (n : Nat) (x : Ten) : Prop where
  self : (t.ten n).besideEvents = x.besideEvents
  other : ∀ m, m ≠ n → t.ten m = s.ten m

theorem setTen_tenIs (s : State) (n : Nat) (x : Ten) : TenIs s (s.setTen n x) n x :=
  ⟨by rw [setTen_self], fun _ hm => setTen_ne s x hm⟩

section
variable {s t u : State} {n : Nat} {x : Ten}

theorem TenIs.deliver (h : TenIs s t n x) (e : Event) : TenIs s (deliver n e t) n x :=
  ⟨(restView_ten (deliver_restView n e t) n).trans h.self, fun m hm => (deliver_ten_ne n e t hm).trans (h.other m hm)⟩

theorem TenIs.of_tens (h : TenIs s t n x) (hu : u.tens = t.tens) : TenIs s u n x :=
  ⟨by rw [ten_of_tens hu, h.self], fun m hm => by rw [ten_of_tens hu, h.other m hm]⟩

theorem TenIs.from_tens (h : TenIs t u n x) (ht : t.tens = s.tens) : TenIs s u n x :=
  ⟨h.self, fun m hm => (h.other m hm).trans (ten_of_tens ht m)⟩

/-- The doorbell's registers of a tenant: SCANS, DB_STATUS.FAULT and DB_FAILS. -/
def Ten.scanRegs (t : Ten) : Word × Bool × Word := (t.scans, t.dbFault, t.dbFails)

theorem TenIs.scanRegs (h : TenIs s t n x) : (t.ten n).scanRegs = x.scanRegs := (congrArg Ten.scanRegs h.self :)

end

/-- A tenant's record after a scan that brought its bytes. -/
def Ten.scanned (t : Ten) : Ten := { t with scans := t.scans + 1, dbFault := false, dbRun := 0 }

/-- A tenant's record after a scan that failed, the last of a run of `run`. -/
def Ten.unscanned (t : Ten) (run : Word) : Ten :=
  { t with scans := t.scans + 1, dbFails := satInc t.dbFails, dbFault := true, dbRun := run }

section
variable {s : State} {p id n : Nat} {h : HRead} (hread : s.readFor (fun u => u == .scan p) = some (id, h))
  (hn : h.tenant.getD 0 = n)
include hread hn

theorem scanDone_tenIs {data : List Byte} (hsent : h.sent = true) (hlen : data.length = h.len) (hlead : s.leadPaused p = false) :
    TenIs s (scanDone p data s) n (s.ten n).scanned := by
  have hcounted : TenIs s ((endRead id s).setTen n (s.ten n).scanned) n (s.ten n).scanned :=
    (setTen_tenIs (endRead id s) n _).from_tens rfl
  unfold scanDone
  simp only [hread, hn, hsent, hlen, hlead, Bool.not_true, bne_self_eq_false, Bool.or_self, Bool.false_eq_true, if_false]
  refine TenIs.of_tens (t := if _ then _ else _) ?_
    ((afterScan_tens ..).trans (foldl_keeps State.tens _ (fun a r => ringEvaluate_tens _ _ a) _ _))
  split
  · exact hcounted.deliver _
  · exact hcounted

theorem scanFail_frame {f : HostFail} (hmay : s.mayFail h f = true) :
    (∃ run, TenIs s (scanFail p f s) n ((s.ten n).unscanned run)) ∧ (scanFail p f s).ports = (portFail h.port f s).ports := by
  have htens : (endRead id (portFail h.port f s)).tens = s.tens := by
    rw [portFail_frame]
    rfl
  have hcounted : ∀ run, TenIs s ((endRead id (portFail h.port f s)).setTen n ((s.ten n).unscanned run)) n
      ((s.ten n).unscanned run) := fun _ => (setTen_tenIs ..).from_tens htens
  unfold scanFail
  simp only [hread, hn, hmay, Bool.not_true, Bool.false_eq_true, if_false, ten_of_tens htens]
  constructor
  · split
    · exact ⟨_, (hcounted _).of_tens (afterScan_tens ..)⟩
    · exact ⟨_, ((hcounted _).deliver _).of_tens (afterScan_tens ..)⟩
  · rw [afterScan_ports]
    split
    · rfl
    · rw [deliver_told]
      rfl

end

/-- Settles O20: the tenant's record as a scan's end counts it, which no event and no later scan changes; a timeout of the read
is the failure of its scan, noted at the port. -/
theorem scansEndCounted : Obligations.ScansEndCounted := by
  unfold Obligations.ScansEndCounted
  intro s p id h n hread hsent
  refine ⟨fun data hlen hlead => ⟨_, exec_scanReadComplete p data s, ?_⟩, fun f hlate => ⟨_, exec_scanFailed p f s, ?_⟩,
    fun hget hlate => ⟨_, exec_hostReadTimeout id s, ?_⟩⟩
  · have hends := scanDone_tenIs hread rfl hsent hlen hlead
    obtain ⟨hscans, hfault, hfails⟩ : _ ∧ _ ∧ _ := by simpa [Ten.scanRegs] using hends.scanRegs
    exact ⟨hscans, hfault, hfails, hends.other⟩
  · obtain ⟨⟨run, hends⟩, -⟩ := scanFail_frame hread rfl (mayFail_of hsent hlate)
    obtain ⟨hscans, hfault, hfails⟩ : _ ∧ _ ∧ _ := by simpa [Ten.scanRegs] using hends.scanRegs
    exact ⟨hscans, hfault, hfails, hends.other⟩
  · have hmay := mayFail_of (f := .timeout) hsent (.inr hlate)
    obtain ⟨⟨run, hends⟩, hports⟩ := scanFail_frame hread rfl hmay
    obtain ⟨hscans, hfault, -⟩ : _ ∧ _ ∧ _ := by simpa [Ten.scanRegs] using hends.scanRegs
    dsimp only
    rw [readEnds_scanFails hget (beq_iff_eq.1 (readFor_purpose hread)) hmay]
    have hport : ∀ q, (scanFail p.toNat .timeout s).port q = (portFail h.port .timeout s).port q := fun q => by
      rw [State.port, hports]
      rfl
    simp only [hport]
    exact ⟨congrArg Port.cplTimeouts (setPort_self s _ _), fun q hq => setPort_ne s _ hq, hscans, hfault⟩

end Sys2Proof.Machine
end

section
/-! PROOFS. The fetches of a ring (O21): what a read asks for, the entries it brings, and its failure. -/

namespace Sys2Proof.Machine

open Sys2Proof

theorem exec_ringFetchIssue (r : BitVec 12) (s : State) : exec (.ringFetchIssue r) s = .next (fetchIssue r.toNat s) := rfl
theorem exec_ringFetchComplete (r : BitVec 12) (data : List Byte) (s : State) :
    exec (.ringFetchComplete r data) s = .next (fetchDone r.toNat data s) := rfl
theorem exec_ringFetchFailed (r : BitVec 12) (f : HostFail) (s : State) :
    exec (.ringFetchFailed r f) s = .next (fetchFail r.toNat f s) := rfl
theorem exec_hostReadCompletion (id : Nat) (res : HostRes) (s : State) :
    exec (.hostReadCompletion id res) s = .next (readEnds id res s) := rfl

theorem ring_of_rings {s t : State} (h : t.rings = s.rings) (q : Nat) : t.ring q = s.ring q := by rw [State.ring, h]; rfl

theorem deliver_rings (n : Nat) (e : Event) (s : State) : (deliver n e s).rings = s.rings := by rw [deliver_told]; rfl

/-! ### What a fetch asks for (R251) -/

/-- Slot of the next entry to ask for. -/
def Ring.askSlot (x : Ring) : Nat := (x.cons.toNat + x.asked) % 2 ^ x.ctx.log2

/-- The ring's size divides the range of its indices, so that indices that wrap name the same slots. -/
theorem askSlot_eq {x : Ring} (hsize : x.ctx.log2 ≤ 16) : (x.cons.toNat + x.asked) % 2 ^ 32 % 2 ^ x.ctx.log2 = x.askSlot :=
  Nat.mod_mod_of_dvd _ (Nat.pow_dvd_pow 2 (by omega))

/-- One read asks for at most 1,024 bytes, at most Max Read Request Size, and does not cross the ring's end. -/
theorem fetchCount_bounds {x : Ring} (mrrs : Nat) (hsize : x.ctx.log2 ≤ 16) :
    64 * fetchCount x mrrs ≤ 1024 ∧ 64 * fetchCount x mrrs ≤ mrrs ∧ x.askSlot + fetchCount x mrrs ≤ 2 ^ x.ctx.log2 := by
  have hslot : x.askSlot < 2 ^ x.ctx.log2 := Nat.mod_lt _ (Nat.two_pow_pos _)
  simp only [fetchCount, List.foldl_cons, List.foldl_nil, askSlot_eq hsize]
  omega

/-- A ring that may fetch asks for its next entries in one read. -/
theorem fetchIssue_reads {s : State} {r k : Nat} (hon : (s.ring r).obj.st = .on) (hwait : (s.ring r).fetchWait = false)
    (hroom : (s.ring r).fetched.length + (s.ring r).asked < 64)
    (hmore : (s.ring r).asked < ((s.ring r).prod - (s.ring r).cons).toNat)
    (hk : fetchCount (s.ring r) (s.fnc (s.ten (s.ring r).ctx.tenant).bPort (s.ten (s.ring r).ctx.tenant).bFn).mrrsB = k)
    (hpos : 0 < k) (htbase : (s.ring r).tallyDue = false ∨ (s.ring r).disp ≠ (s.ring r).ctx.tbase)
    (hlead : s.leadPaused (s.ring r).ctx.part = false) :
    fetchIssue r s = tenRead (s.ring r).ctx.tenant (w64 ((s.ring r).ctx.base.toNat + (s.ring r).askSlot * 64)) (64 * k)
      (.fetch r k) (s.setRing r { s.ring r with asked := (s.ring r).asked + k }) := by
  have hwritten : ((s.ring r).tallyDue && (s.ring r).disp == (s.ring r).ctx.tbase) = false := by
    obtain h | h := htbase <;> simp [h]
  simp only [fetchIssue, hk, hon, hwait, hwritten, hlead, hroom, hmore, hpos]
  rfl

/-! ### The end of a fetch (R251, R266) -/

/-- The entries that `j` times 64 bytes are, from index `first`. -/
def entriesFrom (first : Word) (j : Nat) (data : List Byte) : List Entry :=
  (List.range j).map (fun a => { idx := first + w32 a, bytes := (data.drop (64 * a)).take 64 })

/-- A ring that has fetched `j` entries more. -/
def Ring.joined (x : Ring) (j : Nat) (data : List Byte) : Ring :=
  { x with cons := x.cons + w32 j, fetched := x.fetched ++ entriesFrom x.cons j data, asked := x.asked - j, fetchFault := false }

/-- A ring whose fetch has failed: it waits for a later scan and asks again from CONS. -/
def Ring.refused (x : Ring) : Ring := { x with asked := 0, fetchFault := true, fetchWait := true }

section
variable {s : State} {r id j : Nat} {h : HRead} (hfetch : s.fetchOf r = some (id, h, j)) (hon : (s.ring r).obj.st = .on)
include hfetch hon

theorem fetchDone_joins {data : List Byte} (hsent : h.sent = true) (hlen : data.length = 64 * j)
    (hlead : s.leadPaused (s.ring r).ctx.part = false) :
    ∃ u, u.rings = (s.setRing r ((s.ring r).joined j data)).rings ∧ fetchDone r data s = noteHead r u := by
  have hon' : ((endRead id s).ring r).obj.st = .on := hon
  unfold fetchDone
  simp only [hfetch, hsent, hlen, hlead, hon', Bool.not_true, bne_self_eq_false, Bool.or_self, Bool.false_eq_true, if_false]
  refine ⟨_, ?_, rfl⟩
  split
  · exact deliver_rings ..
  · rfl

theorem fetchFail_rings {f : HostFail} (hmay : s.mayFail h f = true) :
    (fetchFail r f s).rings = (s.setRing r (s.ring r).refused).rings := by
  have hrings : ∀ q : HRead → Bool, (dropReads q (portFail h.port f s)).rings = s.rings := fun q => by
    rw [portFail_frame]
    rfl
  unfold fetchFail
  simp only [hfetch, hmay, hon, Bool.not_true, bne_self_eq_false, Bool.false_eq_true, if_false, ring_of_rings (hrings _)]
  have hset : ∀ q : HRead → Bool, ((dropReads q (portFail h.port f s)).setRing r (s.ring r).refused).rings =
      (s.setRing r (s.ring r).refused).rings := fun q => congrArg (tset _ _ _) (hrings q)
  split
  · exact hset _
  · exact (deliver_rings ..).trans (hset _)

/-- A fetch's data join the entries fetched, and CONS passes them. -/
theorem fetchDone_ring {data : List Byte} (hsent : h.sent = true) (hlen : data.length = 64 * j)
    (hlead : s.leadPaused (s.ring r).ctx.part = false) :
    (∃ tick ok rc, (fetchDone r data s).ring r = ((s.ring r).joined j data).noted tick ok rc) ∧
    ∀ q, q ≠ r → (fetchDone r data s).ring q = s.ring q := by
  obtain ⟨u, hrings, hdone⟩ := fetchDone_joins hfetch hon hsent hlen hlead
  obtain ⟨tick, ok, rc, hring⟩ := noteHead_ring_self r u
  rw [hdone]
  refine ⟨⟨tick, ok, rc, ?_⟩, fun q hq => ?_⟩
  · rw [hring, ring_of_rings hrings, setRing_self]
  · rw [noteHead_ring_ne _ _ hq, ring_of_rings hrings, setRing_ne _ _ hq]

end

/-- The data of a read that is a ring's fetch, named by its number, are those of the fetch. -/
theorem readEnds_fetchDone {s : State} {id r j : Nat} {h : HRead} {data : List Byte} (hget : tget none id s.reads = some h)
    (hpurpose : h.purpose = .fetch r j) (hsent : h.sent = true) (hlen : data.length = h.len) :
    readEnds id (.data data) s = fetchDone r data s := by
  simp [readEnds, hget, State.mayEnd, HRead.fits, hsent, hlen, hpurpose]

/-- Settles O21: the one read of `fetchIssue_reads` within the bounds of `fetchCount_bounds`; the ring its data join; the ring
its failure leaves waiting. -/
theorem ringsFetchInOrder : Obligations.RingsFetchInOrder := by
  unfold Obligations.RingsFetchInOrder
  intro s r x n k i
  refine ⟨fun hon hwait hroom hmore hpos hsize htbase hlead => ⟨_, exec_ringFetchIssue r s, ?_⟩,
    fun id h j hfetch hsent hon => ⟨fun data hlen hlead => ?_, fun f hlate => ⟨_, exec_ringFetchFailed r f s, ?_⟩⟩⟩
  · obtain ⟨hbig, hmrrs, hwrap⟩ := fetchCount_bounds (s.fnc (s.ten n).bPort (s.ten n).bFn).mrrsB hsize
    rw [fetchIssue_reads hon hwait hroom hmore rfl hpos htbase hlead, tenRead_frame]
    exact ⟨hbig, hmrrs, hwrap, setRing_self .., fun q hq => setRing_ne s _ hq, rfl, tget_tset_self ..⟩
  · obtain ⟨⟨tick, ok, rc, hself⟩, hother⟩ := fetchDone_ring hfetch hon hsent hlen hlead
    refine ⟨⟨_, exec_ringFetchComplete r data s, ?_⟩,
      fun hget hpurpose hfull => ⟨_, exec_hostReadCompletion id _ s, ?_⟩⟩
    · dsimp only
      rw [hself]
      exact ⟨rfl, rfl, rfl, rfl, hother⟩
    · rw [readEnds_fetchDone hget hpurpose hsent (hlen.trans hfull.symm)]
      dsimp only
      rw [hself]
      exact ⟨rfl, by simp [Ring.noted, Ring.joined, entriesFrom, x]⟩
  · have hring := ring_of_rings (fetchFail_rings hfetch hon (mayFail_of hsent hlate))
    simp only [hring, setRing_self]
    exact ⟨rfl, rfl, rfl, rfl, fun q hq => setRing_ne s _ hq⟩

end Sys2Proof.Machine
end

section
/-! PROOFS. The dispatch of the commands that only wait or deal tiles (O22), and a dispatcher round. -/

namespace Sys2Proof.Machine

open Sys2Proof

/-! ### Poisoned recipes (R697) -/

theorem recipePoison_none_of_op {s : State} {m : List Nat} {b : List Byte} (h : opOf b ≠ some .mxGemm) :
    s.recipePoison m b = none := by
  simp [State.recipePoison, recipeAddr, h]

/-- A legal command has no recipe in a poisoned unit. -/
theorem recipePoison_none_of_legal {s : State} {r : Nat} {e : Entry} (h : headLegal s r e = true) :
    s.recipePoison (s.part (s.ring r).ctx.part).mods e.bytes = none := by
  by_cases hop : opOf e.bytes = some .mxGemm
  · simp only [headLegal, hop, Bool.and_eq_true, Option.isNone_iff_eq_none] at h
    obtain ⟨-, hpoison, -⟩ := h
    exact hpoison
  · exact recipePoison_none_of_op hop

theorem recipePoisonEvent_none {s : State} {r : Nat} {e : Entry}
    (h : s.recipePoison (s.part (s.ring r).ctx.part).mods e.bytes = none) : recipePoisonEvent r e s = s := by
  unfold recipePoisonEvent
  dsimp only
  rw [h]
  split
  next hsome => cases hsome
  next => rfl

/-- A head that becomes head with its recipe in no poisoned unit is noted in its ring only. -/
theorem noteHead_quiet {s : State} {r : Nat} (h : (s.ring r).headTick = none → ∀ e ∈ (s.ring r).fetched.head?,
    s.recipePoison (s.part (s.ring r).ctx.part).mods e.bytes = none) :
    noteHead r s = { s with rings := (noteHead r s).rings } := by
  unfold noteHead
  dsimp only
  split
  · rfl
  next e rest hfetched =>
    split
    next hnew =>
      rw [Bool.and_eq_true, Option.isNone_iff_eq_none] at hnew
      obtain ⟨htick, -⟩ := hnew
      have hpoison := h htick e (by rw [hfetched]; rfl)
      rw [recipePoisonEvent_none (by rw [setRing_self]; exact hpoison)]
      rfl
    · rfl

/-- A head judged legal is noted so. -/
theorem noteHead_of_legal {s : State} {r : Nat} {e : Entry} {rest : List Entry} (hfetched : (s.ring r).fetched = e :: rest)
    (hlegal : JudgedLegal s r e = true) : noteHead r s = { s with rings := (noteHead r s).rings } := by
  refine noteHead_quiet (fun htick d hd => ?_)
  rw [hfetched] at hd
  obtain rfl : e = d := Option.some.inj hd
  rw [JudgedLegal, htick] at hlegal
  exact recipePoison_none_of_legal hlegal

/-! ### The head as any opcode takes it (R240, R281) -/

theorem foldl_setIsle_frame {α : Type} (g : α → Nat) (f : State → α → Isle) (l : List α) (s : State) :
    ∃ isles, l.foldl (fun a x => a.setIsle (g x) (f a x)) s = { s with isles := isles } := by
  refine l.foldlRecOn _ (motive := fun a : State => ∃ isles, a = { s with isles := isles }) ⟨_, rfl⟩ (fun a ha x _ => ?_)
  obtain ⟨isles, rfl⟩ := ha
  exact ⟨_, rfl⟩

/-- Key of the isle that a placement names. -/
def dealtIsle (mods : List Nat) (q : Nat × Nat × List Nat) : Nat :=
  isleKey (placeOf mods q.1).w (placeOf mods q.1).die (placeOf mods q.1).isle

/-- An isle that has been dealt tiles, of a held chain or not (R117, R152). -/
def Isle.dealtTiles (x : Isle) (held : Bool) : Isle := { x with dealt := true, wasPinned := x.wasPinned || held }

/-- Taken, a head is its ring's youngest command; beside the ring only isles change, whose tiles are dealt. -/
theorem dispatchHead_frame (r : Nat) (e : Entry) (op : Op) (s : State) : ∃ isles prev chain, (dispatchHead r e op s).2 =
    { s with isles := isles }.setRing r { (s.ring r).taken (dispatchHead r e op s).1 with prev := prev, prevChain := chain } := by
  obtain ⟨isles, hisles⟩ := foldl_setIsle_frame (dealtIsle (s.part (s.ring r).ctx.part).mods) (fun a q =>
    (a.isle (dealtIsle (s.part (s.ring r).ctx.part).mods q)).dealtTiles
      (op == .mxGemm && (recipeOf (s.ring r).headRc).chain == 2)) (dispatchHead r e op s).1.place s
  refine ⟨isles, ?_⟩
  rw [← hisles]
  exact ⟨_, _, rfl⟩

theorem dispatchHead_cmd (r : Nat) (e : Entry) (op : Op) (s : State) :
    (dispatchHead r e op s).1.seq = (s.ring r).disp + 1 ∧ (dispatchHead r e op s).1.idx = e.idx ∧
    (dispatchHead r e op s).1.bytes = e.bytes ∧ (dispatchHead r e op s).1.done = false ∧
    (dispatchHead r e op s).1.mods = (s.part (s.ring r).ctx.part).mods := ⟨rfl, rfl, rfl, rfl, rfl⟩

/-! ### Opcodes that start nothing but their tiles and waits -/

/-- The opcodes that do something at their dispatch beyond being in progress, the counters of MX_ATTN apart. -/
def Op.acts : Op → Bool
  | .nop | .mvCopy | .fxSend | .fxReduce => true
  | _ => false

theorem startOp_frame {op : Op} (hop : op.acts = false) (r : Nat) (c : Cmd) (s : State) :
    startOp op r c s = { s with fab := (startOp op r c s).fab } := by
  cases op with
  | nop | mvCopy | fxSend | fxReduce => cases hop
  | waitTally | settle | mxGemm | mxAttn | vxElt | vxReduce | vxCombine | fxAwait | ixFrame => rfl

theorem startOp_rings {op : Op} (hop : op.acts = false) (r : Nat) (c : Cmd) (s : State) : (startOp op r c s).rings = s.rings := by
  rw [startOp_frame hop]

/-- What a dispatch of such an opcode leaves alone: the other rings, partitions, columns, the window, modules, and, unless the
next head's recipe is poisoned, tenants and what goes out to hosts. -/
def Quiet (s t : State) (r : Nat) (rest : List Entry) : Prop :=
  (∀ q, q ≠ r → t.ring q = s.ring q) ∧ t.parts = s.parts ∧ t.cols = s.cols ∧ t.win = s.win ∧ t.mods = s.mods ∧
  (NextUnpoisoned s r rest → t.tens = s.tens ∧ t.out = s.out)

/-- The state in which a ready head of such an opcode has been taken: its command `c` is the youngest of its ring, and beside
rings only isles and counters differ. -/
structure Dealt (s u : State) (r : Nat) (e : Entry) (c : Cmd) : Prop where
  frame : u = { s with rings := u.rings, isles := u.isles, fab := u.fab }
  ring : ∃ tick ok rc prev chain, u.ring r = { ((s.ring r).noted tick ok rc).taken c with prev := prev, prevChain := chain }
  other : ∀ q, q ≠ r → u.ring q = s.ring q
  seq : c.seq = (s.ring r).disp + 1
  idx : c.idx = e.idx
  bytes : c.bytes = e.bytes
  done : c.done = false
  mods : c.mods = (s.part (s.ring r).ctx.part).mods

theorem exists_dealt {s : State} {r : Nat} {op : Op} {e : Entry} {rest : List Entry} (h : HeadReady s r op e rest)
    (hop : op.acts = false) : ∃ u c, Dealt s u r e c ∧ serveOp op r s = noteHead r u := by
  have ⟨⟨hfetched, _⟩, hlegal, _⟩ := h
  have hnoted := noteHead_of_legal hfetched hlegal
  obtain ⟨tick, ok, rc, hring⟩ := noteHead_ring_self r s
  obtain ⟨isles, prev, chain, htaken⟩ := dispatchHead_frame r e op (noteHead r s)
  obtain ⟨hseq, hidx, hbytes, hdone, hmods⟩ := dispatchHead_cmd r e op (noteHead r s)
  have hrings := ring_of_rings
    (startOp_rings hop r (dispatchHead r e op (noteHead r s)).1 (dispatchHead r e op (noteHead r s)).2)
  rw [hring, noteHead_part] at hmods
  rw [hring] at hseq htaken
  refine ⟨_, _, ⟨?_, ⟨tick, ok, rc, prev, chain, ?_⟩, fun q hq => ?_, hseq, hidx, hbytes, hdone, hmods⟩,
    serveOp_dispatches h⟩
  · rw [startOp_frame hop, htaken, hnoted]
    rfl
  · rw [hrings, htaken, setRing_self]
  · rw [hrings, htaken, setRing_ne _ _ hq]
    exact noteHead_ring_ne r s hq

section
variable {s u : State} {r : Nat} {e : Entry} {rest : List Entry} {c : Cmd} (h : Dealt s u r e c)
include h

theorem Dealt.inProgress : InProgress s u r e := by
  obtain ⟨tick, ok, rc, prev, chain, hring⟩ := h.ring
  exact ⟨c, by rw [hring]; rfl, h.seq, h.idx, h.bytes, h.done, h.mods⟩

theorem Dealt.dispatched (hfetched : (s.ring r).fetched = e :: rest) : Dispatched s u r rest := by
  obtain ⟨tick, ok, rc, prev, chain, hring⟩ := h.ring
  unfold Dispatched
  rw [hring]
  exact ⟨rfl, congrArg (List.drop 1) hfetched, rfl⟩

theorem Dealt.ctx : (u.ring r).ctx = (s.ring r).ctx := by
  obtain ⟨tick, ok, rc, prev, chain, hring⟩ := h.ring
  rw [hring]
  rfl

/-- To note the next head touches no more than its dispatch may. -/
theorem Dealt.quiet (hfetched : (u.ring r).fetched = rest) : Quiet s (noteHead r u) r rest := by
  have hframe : noteHead r u = { told s (noteHead r u) with
      rings := (noteHead r u).rings, isles := (noteHead r u).isles, fab := (noteHead r u).fab, flt := (noteHead r u).flt } := by
    rw [noteHead_frame, h.frame]
    rfl
  refine ⟨fun q hq => ?_, (congrArg State.parts hframe :), (congrArg State.cols hframe :), (congrArg State.win hframe :),
    (congrArg State.mods hframe :), fun hnext => ?_⟩
  · rw [noteHead_ring_ne _ _ hq, h.other q hq]
  · have hclean : ∀ d ∈ (u.ring r).fetched.head?, u.recipePoison (u.part (u.ring r).ctx.part).mods d.bytes = none := by
      rw [hfetched, h.ctx, h.frame]
      exact hnext
    rw [noteHead_quiet (fun _ => hclean), h.frame]
    exact ⟨rfl, rfl⟩

end

theorem noteHead_dispatched {s t : State} {r : Nat} {rest : List Entry} (h : Dispatched s t r rest) :
    Dispatched s (noteHead r t) r rest := by
  obtain ⟨hobj, hfetched, -, hdisp⟩ := lifeView_ring (noteHead_lifeView r t) r
  unfold Dispatched
  rwa [hobj, hfetched, hdisp]

section
variable {s : State} {r : Nat} {op : Op} {e : Entry} {rest : List Entry} (h : HeadReady s r op e rest)
include h

/-- A ready head of such an opcode is dispatched and in progress, and nothing else happens. -/
theorem serveOp_waits (hop : op.acts = false) : Dispatched s (serveOp op r s) r rest ∧ InProgress s (serveOp op r s) r e ∧
    Quiet s (serveOp op r s) r rest := by
  obtain ⟨u, c, hdealt, hserve⟩ := exists_dealt h hop
  have ⟨⟨hfetched, _⟩, _⟩ := h
  have hdispatched := hdealt.dispatched hfetched
  have ⟨_, hrest, _⟩ := hdispatched
  rw [hserve]
  exact ⟨noteHead_dispatched hdispatched, noteHead_inProgress hdealt.inProgress, hdealt.quiet hrest⟩

/-! ### A dispatcher round (R252) -/

theorem serveHead_dispatches : serveHead r s = (.dispatched, serveOp op r s) := by
  obtain ⟨hserved, hlegal, hcan⟩ := h
  obtain ⟨hfetched, hgo⟩ := noteHead_served hserved
  have hok : ((noteHead r s).ring r).headOk = true := (noteHead_headOk hserved).trans hlegal
  have ⟨_, _, _, _, hop, _⟩ := hserved
  rw [serveOp, if_pos (headOp_of_served hserved), serveHead]
  simp only [hfetched, hgo, hok, hop, hcan]
  rfl

end

theorem serveRing_of_none_fetched {s : State} {r : Nat} (h : (s.ring r).fetched = []) (f k : Nat) : serveRing f k r s = s := by
  have hnote : noteHead r s = s := by simp only [noteHead, h]
  have hstays : serveHead r s = (.stays, s) := by simp only [serveHead, hnote, h]
  match f, k with
  | 0, _ => rw [serveRing]
  | _ + 1, 0 => rw [serveRing]
  | _ + 1, _ + 1 => rw [serveRing, hstays]

/-- A ring with one ready command fetched has served it in its turn. -/
theorem serveRing_single {s : State} {r : Nat} {op : Op} {e : Entry} (h : HeadReady s r op e []) (hop : op.acts = false) {f k : Nat}
    (hf : 0 < f) (hk : 0 < k) : serveRing f k r s = serveOp op r s := by
  obtain ⟨⟨-, hfetched, -⟩, -, -⟩ := serveOp_waits h hop
  obtain ⟨f, rfl⟩ := Nat.exists_eq_add_one.2 hf
  obtain ⟨k, rfl⟩ := Nat.exists_eq_add_one.2 hk
  rw [serveRing, serveHead_dispatches h]
  exact serveRing_of_none_fetched hfetched f k

theorem exec_settle (r : BitVec 12) (s : State) : exec (.settle r) s = .next (serveOp .settle r.toNat s) := rfl
theorem exec_dispatcherRound (p : BitVec 6) (g : EngClass) (s : State) :
    exec (.dispatcherRound p g) s = .next (dispatcherServe p.toNat (engCode g) s) := rfl

/-- The rings that a dispatcher round serves, in increasing number. -/
def State.ringsServed (s : State) (p eng : Nat) : List Nat :=
  s.ringIds.filter (fun q => (s.ring q).obj.st == .on && (s.ring q).ctx.part == p && (s.ring q).ctx.engine == eng)

theorem dispatcherServe_alone {s : State} {p eng r : Nat} (h : s.ringsServed p eng = [r]) : dispatcherServe p eng s =
    serveRing (2 * ((s.ring r).fetched.length + 1)) (s.ring r).ctx.weight r s :=
  congrArg (List.foldl _ s) h

/-- Settles O22: each of the nine opcodes by `serveOp_waits`; the round serves its only ring once. -/
theorem ringCommandsAreDispatched : Obligations.RingCommandsAreDispatched := by
  unfold Obligations.RingCommandsAreDispatched
  intro s r e rest quiet
  have hserves : ∀ {op c}, exec c s = .next (serveOp op r.toNat s) → op.acts = false → HeadReady s r.toNat op e rest →
      Runs c s (fun t => Dispatched s t r.toNat rest ∧ InProgress s t r.toNat e ∧ quiet t) :=
    fun hexec hop h => ⟨_, hexec, serveOp_waits h hop⟩
  refine ⟨hserves (exec_serves r s (by simp)) rfl, hserves (exec_settle r s) rfl, hserves (exec_serves r s (by simp)) rfl,
    hserves (exec_serves r s (by simp)) rfl, hserves (exec_serves r s (by simp)) rfl, hserves (exec_serves r s (by simp)) rfl,
    hserves (exec_serves r s (by simp)) rfl, hserves (exec_serves r s (by simp)) rfl, hserves (exec_serves r s (by simp)) rfl,
    fun p g h halone hweight => ⟨_, exec_dispatcherRound p g s, ?_⟩⟩
  rw [dispatcherServe_alone halone, serveRing_single h rfl (by omega) hweight]
  obtain ⟨hdispatched, hprogress, hother, hparts, hcols, hwin, hmods, hquiet⟩ := serveOp_waits h rfl
  exact ⟨hdispatched, hprogress, hother, hparts, hcols, hwin, hmods, fun _ => hquiet (fun d hd => nomatch hd)⟩

end Sys2Proof.Machine
end

section
/-! PROOFS. The front command of a ring completes (O24): its record, the tally that counts it, and each command that waits. -/

namespace Sys2Proof.Machine

open Sys2Proof

theorem exec_commandComplete (r : BitVec 12) (q : DWord) (s : State) :
    exec (.commandComplete r q) s = .next (commandDone r.toNat q s) := rfl
theorem exec_waitTallySatisfied (r : BitVec 12) (q : DWord) (s : State) :
    exec (.waitTallySatisfied r q) s = .next (waitSatisfied r.toNat q s) := rfl
theorem exec_waitTallyTimeout (r : BitVec 12) (q : DWord) (s : State) :
    exec (.waitTallyTimeout r q) s = .next (waitTimeout r.toNat q s) := rfl
theorem exec_settleComplete (r : BitVec 12) (q : DWord) (s : State) :
    exec (.settleComplete r q) s = .next (settleDone r.toNat q s) := rfl
theorem exec_fxAwaitSatisfied (r : BitVec 12) (q : DWord) (s : State) :
    exec (.fxAwaitSatisfied r q) s = .next (awaitSatisfied r.toNat q s) := rfl
theorem exec_fxAwaitTimeout (r : BitVec 12) (q : DWord) (s : State) :
    exec (.fxAwaitTimeout r q) s = .next (awaitTimeout r.toNat q s) := rfl
theorem exec_ixFrameTimeout (r : BitVec 12) (q : DWord) (s : State) :
    exec (.ixFrameTimeout r q) s = .next (frameTimeout r.toNat q s) := rfl

/-! ### What a completion leaves alone -/

/-- A view that no event, no ring's record, no posted write and no noting of a head touches is kept by a completion. -/
theorem complete_keeps {γ : Type} (v : State → γ) (hevent : ∀ n e a, v (deliver n e a) = v a)
    (hring : ∀ a r x, v (State.setRing a r x) = v a) (hpost : ∀ n o w b a, v (hostPost n o w b a) = v a)
    (hnote : ∀ r a, v (noteHead r a) = v a) (r : Nat) (q : DWord) (fl i : Word) (s : State) : v (complete r q fl i s) = v s := by
  have htally : ∀ a, v (advanceTally r a) = v a := fun a => by
    unfold advanceTally
    dsimp only
    split
    · rfl
    · exact hring ..
  have hmod : ∀ f a, v (modCmd r q f a) = v a := fun _ _ => hring ..
  unfold complete
  split
  · rfl
  · dsimp only
    split
    · rfl
    · rw [hnote, htally]
      split
      · rw [hpost, hmod]
        split
        · exact hevent ..
        · rfl
      · rw [hmod]
        split
        · exact hevent ..
        · rfl

theorem hostPost_fab (n : Nat) (o : Option (Nat × DWord)) (a : DWord) (b : List Byte) (s : State) :
    (hostPost n o a b s).fab = s.fab := by
  unfold hostPost
  dsimp only
  split <;> rfl

theorem noteHead_fab (r : Nat) (s : State) : (noteHead r s).fab = s.fab := by rw [noteHead_frame]; rfl
theorem deliver_fab (n : Nat) (e : Event) (s : State) : (deliver n e s).fab = s.fab := by rw [deliver_told]; rfl
theorem deliver_cols (n : Nat) (e : Event) (s : State) : (deliver n e s).cols = s.cols := by rw [deliver_told]; rfl

theorem complete_fab (r : Nat) (q : DWord) (fl i : Word) (s : State) : (complete r q fl i s).fab = s.fab :=
  complete_keeps State.fab deliver_fab setRing_fab hostPost_fab noteHead_fab r q fl i s

theorem complete_cols (r : Nat) (q : DWord) (fl i : Word) (s : State) : (complete r q fl i s).cols = s.cols :=
  complete_keeps State.cols deliver_cols setRing_cols hostPost_cols noteHead_cols r q fl i s

/-! ### The completion of the front command (R255, R282, R283) -/

/-- A command that has completed. -/
def Cmd.finished (c : Cmd) (fl i : Word) : Cmd := { c with done := true, flags := c.flags ||| fl, info := i }

/-- A ring whose front command has completed, the commands `rest` behind it. -/
def Ring.completed (x : Ring) (d : Cmd) (rest : List Cmd) : Ring := { x with cmds := d :: rest }

/-- A ring that has counted its front command, the next one being in progress. -/
def Ring.retired (x : Ring) (rest : List Cmd) : Ring := { x with cmds := rest, tally := x.tally + 1, tallyDue := true }

/-- The state in which ring `r`'s front command is complete as `d`, its record posted or held where it writes one. -/
def State.recorded (s : State) (r : Nat) (d : Cmd) (rest : List Cmd) : State :=
  let u := s.setRing r ((s.ring r).completed d rest)
  if recBit d.bytes && !d.skipped && !d.rerun then
    hostPost (s.ring r).ctx.tenant none (recordAddr (s.ring r) d) (recordBytes d) u
  else u

theorem recorded_rings (s : State) (r : Nat) (d : Cmd) (rest : List Cmd) :
    (s.recorded r d rest).rings = (s.setRing r ((s.ring r).completed d rest)).rings := by
  unfold State.recorded
  dsimp only
  split
  · exact hostPost_rings ..
  · rfl

theorem hostPost_posts {s : State} {n : Nat} (hcan : s.tenCan n = true) (hheld : (s.ten n).heldW = []) (o : Option (Nat × DWord))
    (a : DWord) (b : List Byte) : hostPost n o a b s = tenWrite n a b s := by
  simp [hostPost, hcan, hheld]

theorem recorded_out {s : State} {r n : Nat} (hn : (s.ring r).ctx.tenant = n) (hcan : s.tenCan n = true)
    (hheld : (s.ten n).heldW = []) {d : Cmd} (hskip : d.skipped = false) (hrerun : d.rerun = false)
    (rest : List Cmd) :
    (s.recorded r d rest).out = s.out ++
      (if recBit d.bytes then [.hostWrite (s.ten n).bPort (s.ten n).bFn (recordAddr (s.ring r) d) (recordBytes d)] else []) := by
  unfold State.recorded
  dsimp only
  rw [hskip, hrerun, hn, Bool.not_false, Bool.and_true, Bool.and_true]
  split
  · rw [hostPost_posts (s := s.setRing r ((s.ring r).completed d rest)) hcan hheld]
    rfl
  · rw [List.append_nil]
    rfl

/-- The tally passes a complete front command and stops at the next one. -/
theorem advanceTally_front {s : State} {r : Nat} {d : Cmd} {rest : List Cmd} (hcmds : (s.ring r).cmds = d :: rest)
    (hdone : d.done = true) (hrerun : d.rerun = false) (hnext : ∀ c ∈ rest.head?, c.done = false) :
    advanceTally r s = s.setRing r ((s.ring r).retired rest) := by
  have hrest : rest.takeWhile (fun c => c.done) = [] := by
    cases rest with
    | nil => rfl
    | cons c cs => simp [hnext c (by simp)]
  simp [advanceTally, hcmds, hdone, hrest, hrerun, Ring.retired, w64]

theorem bit_or (a b : Word) (i : Nat) : bit (a ||| b) i = (bit a i || bit b i) := by
  simp [bit]

section
variable {s : State} {r : Nat} {seq : DWord} {op : Op} {c : Cmd} {rest : List Cmd} (h : FrontWaits s r seq op c rest)
include h

theorem cmd?_of_front : s.cmd? r seq = some c := by
  obtain ⟨hcmds, hseq, -⟩ := h
  simp [State.cmd?, hcmds, hseq]

theorem waiting_of_front : s.waiting r seq op = some c := by
  have hcmd := cmd?_of_front h
  obtain ⟨-, -, hdone, -, -, hop, -, -, hlead⟩ := h
  simp [State.waiting, hcmd, hdone, hop, hlead]

/-- Completed with flags that refuse no replay, the front command is recorded and counted. -/
theorem complete_front {fl : Word} (hfl : bit fl 5 = false) (i : Word) :
    complete r seq fl i s = noteHead r (advanceTally r (s.recorded r (c.finished fl i) rest)) := by
  have hcmd := cmd?_of_front h
  obtain ⟨hcmds, hseq, hdone, hrerun, hflags, -, hrest, -, -⟩ := h
  have hquiet : (bit (c.flags ||| fl) 5 && !c.rerun) = false := by rw [bit_or, hflags, hfl]; rfl
  have hbehind : rest.map (fun d => if d.seq = seq then c.finished fl i else d) = rest :=
    (List.map_congr_left (fun d hd => if_neg (hrest d hd))).trans (List.map_id' _)
  have hmod : modCmd r seq (fun _ => { c with done := true, flags := c.flags ||| fl, info := i }) s =
      s.setRing r ((s.ring r).completed (c.finished fl i) rest) := by
    rw [modCmd, hcmds, List.map_cons, if_pos hseq]
    exact congrArg (fun l => s.setRing r ((s.ring r).completed (c.finished fl i) l)) hbehind
  unfold complete
  simp only [hcmd, hdone, hquiet, Bool.false_eq_true, if_false]
  rw [hmod]
  rfl

theorem complete_front_ring {fl : Word} (hfl : bit fl 5 = false) (i : Word) :
    complete r seq fl i s = noteHead r ((s.recorded r (c.finished fl i) rest).setRing r ((s.ring r).retired rest)) := by
  have hself : (s.recorded r (c.finished fl i) rest).ring r = (s.ring r).completed (c.finished fl i) rest := by
    rw [ring_of_rings (recorded_rings ..), setRing_self]
  have ⟨_, _, _, hrerun, _, _, _, hnext, _⟩ := h
  rw [complete_front h hfl, advanceTally_front (d := c.finished fl i) (by rw [hself]; rfl) rfl hrerun hnext, hself]
  rfl

theorem complete_retires {fl : Word} (hfl : bit fl 5 = false) (i : Word) : Retires s (complete r seq fl i s) r rest := by
  rw [complete_front_ring h hfl]
  obtain ⟨tick, ok, rc, hring⟩ := noteHead_ring_self r
    ((s.recorded r (c.finished fl i) rest).setRing r ((s.ring r).retired rest))
  rw [setRing_self] at hring
  unfold Retires
  rw [hring]
  refine ⟨rfl, rfl, rfl, fun q hq => ?_⟩
  rw [noteHead_ring_ne _ _ hq, setRing_ne _ _ hq, ring_of_rings (recorded_rings ..), setRing_ne _ _ hq]

/-- With no next head to judge, all that a completion without flags sends out is the command's record. -/
theorem complete_out {n : Nat} (hn : (s.ring r).ctx.tenant = n) (hcan : s.tenCan n = true) (hheld : (s.ten n).heldW = [])
    (hskip : c.skipped = false) (hhead : (s.ring r).fetched = [] ∨ (s.ring r).headTick ≠ none) :
    (complete r seq 0 c.info s).out = s.out ++
      (if recBit c.bytes then [.hostWrite (s.ten n).bPort (s.ten n).bFn (recordAddr (s.ring r) c) (recordBytes c)] else []) := by
  have hrecord : recordBytes (c.finished 0 c.info) = recordBytes c := by simp [recordBytes, Cmd.finished]
  have hnoted : ∀ a : State, noteHead r (a.setRing r ((s.ring r).retired rest)) = a.setRing r ((s.ring r).retired rest) := by
    intro a
    unfold noteHead
    dsimp only
    rw [setRing_self]
    split
    · rfl
    next e l hfetched =>
      rw [if_neg]
      obtain hnone | htick := hhead
      · cases hnone.symm.trans hfetched
      · simp [Ring.retired, htick]
  have ⟨_, _, _, hrerun, _⟩ := h
  rw [complete_front_ring h rfl, hnoted, setRing_out, recorded_out (d := c.finished 0 c.info) hn hcan hheld hskip hrerun, hrecord]
  rfl

/-! ### Each way to complete (R282, R286, R288, R308, R416) -/

theorem commandDone_front (hended : workEnded c = true) (hspill : c.spillDue = false) :
    commandDone r seq s = complete r seq 0 c.info s := by
  have hcmd := cmd?_of_front h
  obtain ⟨-, -, hdone, -, -, -, -, -, hlead⟩ := h
  simp [commandDone, hcmd, hended, hdone, hlead, hspill]

end

section
variable {s : State} {r : Nat} {seq : DWord} {c : Cmd} {rest : List Cmd}

theorem expired_of {timeout : Nat} (hlimit : timeout ≠ 0) (hlate : c.tick.toNat + timeout ≤ s.win.tb.toNat) :
    expired s c timeout = true := by
  simp [expired, hlimit, hlate]

theorem waitSatisfied_front (h : FrontWaits s r seq .waitTally c rest)
    (hreached : (waitOf c.bytes).value ≤ (s.ring (waitOf c.bytes).ring).tally.toNat) :
    waitSatisfied r seq s = complete r seq 0 (waitInfo s c) s := by
  simp [waitSatisfied, waiting_of_front h, hreached]

theorem waitTimeout_front (h : FrontWaits s r seq .waitTally c rest) (hlate : expired s c (waitOf c.bytes).timeout = true) :
    waitTimeout r seq s = complete r seq 0x200 (waitInfo s c) s := by
  simp [waitTimeout, waiting_of_front h, hlate]

theorem settleDone_front (h : FrontWaits s r seq .settle c rest) (hready : settleReady s r c = true) :
    settleDone r seq s = complete r seq (if settleFaults s r c = 0 then 0 else 0x100)
      (w32 (min (settleFaults s r c) 0xFFFFFFFF)) s := by
  simp [settleDone, waiting_of_front h, hready]

theorem awaitSatisfied_front (h : FrontWaits s r seq .fxAwait c rest)
    (hreached : (fxAwOf c.bytes).value ≤ (s.ctr (ctrKey (awaitCtr c).1 (awaitCtr c).2)).count) :
    awaitSatisfied r seq s = complete r seq 0 0 (rearm (awaitCtr c).1 (awaitCtr c).2 s) := by
  simp [awaitSatisfied, waiting_of_front h, hreached]

theorem awaitTimeout_front (h : FrontWaits s r seq .fxAwait c rest) (hlate : expired s c (fxAwOf c.bytes).timeout = true) :
    awaitTimeout r seq s = complete r seq 0x200 0 s := by
  simp [awaitTimeout, waiting_of_front h, hlate]

theorem frameTimeout_front (h : FrontWaits s r seq .ixFrame c rest) (hbegun : c.begun = false)
    (hlate : expired s c (ixFrOf c.bytes).timeout = true) : frameTimeout r seq s = complete r seq 0x200 0 s := by
  simp [frameTimeout, waiting_of_front h, hbegun, hlate]

end

theorem frontWaits_rearm {s : State} {r : Nat} {seq : DWord} {op : Op} {c : Cmd} {rest : List Cmd}
    (h : FrontWaits s r seq op c rest) (w i : Nat) : FrontWaits (rearm w i s) r seq op c rest := h

theorem rearm_ctr (w i : Nat) (s : State) :
    (rearm w i s).ctr (ctrKey w i) = { count := 0, cur := [], prev := (s.ctr (ctrKey w i)).cur } := setCtr_self ..

theorem complete_ctr (r : Nat) (q : DWord) (fl i : Word) (s : State) (k : Nat) : (complete r q fl i s).ctr k = s.ctr k := by
  rw [State.ctr, complete_fab]
  rfl

/-- Settles O24: whatever ends the front command's wait, it completes with flags of its own, and the tally counts it. -/
theorem completionAdvancesTheTally : Obligations.CompletionAdvancesTheTally := by
  unfold Obligations.CompletionAdvancesTheTally
  intro s r seq op c rest h n
  refine ⟨fun hended hspill => ⟨_, exec_commandComplete r seq s, ?_⟩,
    fun hop hreached => ⟨_, exec_waitTallySatisfied r seq s, ?_⟩,
    fun hop hlimit hlate => ⟨_, exec_waitTallyTimeout r seq s, ?_⟩,
    fun hop hready => ⟨_, exec_settleComplete r seq s, ?_⟩,
    fun hop hreached => ⟨_, exec_fxAwaitSatisfied r seq s, ?_⟩,
    fun hop hlimit hlate => ⟨_, exec_fxAwaitTimeout r seq s, ?_⟩,
    fun hop hbegun hlimit hlate => ⟨_, exec_ixFrameTimeout r seq s, ?_⟩⟩
  · have ⟨_, hseq, _⟩ := h
    rw [commandDone_front h hended hspill]
    refine ⟨complete_retires h rfl _, fun hskip hcan hheld hhead => ?_⟩
    rw [complete_out h rfl hcan hheld hskip hhead, recordBytes, hseq]
  · subst hop
    rw [waitSatisfied_front h hreached]
    exact complete_retires h rfl _
  · subst hop
    rw [waitTimeout_front h (expired_of hlimit hlate)]
    exact complete_retires h rfl _
  · subst hop
    rw [settleDone_front h hready]
    exact complete_retires h (by split <;> rfl) _
  · subst hop
    rw [awaitSatisfied_front h hreached]
    refine ⟨complete_retires (frontWaits_rearm h _ _) rfl _, ?_, ?_⟩
    · rw [complete_ctr, rearm_ctr]
    · rw [complete_ctr, rearm_ctr]
  · subst hop
    rw [awaitTimeout_front h (expired_of hlimit hlate)]
    exact ⟨complete_retires h rfl _, complete_fab ..⟩
  · subst hop
    rw [frameTimeout_front h hbegun (expired_of hlimit hlate)]
    exact ⟨complete_retires h rfl _, complete_cols ..⟩

end Sys2Proof.Machine
end

section
/-! PROOFS. Tally writes and what a tenant's function has kept waiting (O25). -/

namespace Sys2Proof.Machine

open Sys2Proof

theorem exec_tallyWrite (r : BitVec 12) (s : State) : exec (.tallyWrite r) s = .next (postTally r.toNat s) := rfl
theorem exec_heldWriteFlush (n : BitVec 4) (s : State) :
    exec (.heldWriteFlush n) s = .next (flushCtl (flushHeld n.toNat s)) := rfl

/-- A due tally goes out where the function can take it and nothing waits before it. -/
theorem postTally_posts {s : State} {r n : Nat} (hn : (s.ring r).ctx.tenant = n) (hdue : (s.ring r).tallyDue = true)
    (hlead : s.leadPaused (s.ring r).ctx.part = false) (hcan : s.tenCan n = true) (hheldW : (s.ten n).heldW = [])
    (hheld : (s.ten n).held = []) (hlost : (s.ten n).heldLost = 0) :
    postTally r s = tenWrite n (s.ring r).ctx.taddr (toLE 8 (s.ring r).tally.toNat)
      (s.setRing r { s.ring r with tallyDue := false, tallyHeld := false }) := by
  simp [postTally, hn, hdue, hlead, hcan, hheldW, hheld, hlost]

/-! ### What a flush leaves waiting (R263) -/

/-- Tenant `n` has no write and no event waiting, and every other tenant is as in `s`. -/
structure Flushed (s t : State) (n : Nat) : Prop where
  heldW : (t.ten n).heldW = []
  held : (t.ten n).held = []
  other : ∀ m, m ≠ n → t.ten m = s.ten m

section
variable {s t : State} {n : Nat} (h : Flushed s t n)
include h

theorem Flushed.of_tens {u : State} (hu : u.tens = t.tens) : Flushed s u n where
  heldW := by rw [ten_of_tens hu, h.heldW]
  held := by rw [ten_of_tens hu, h.held]
  other m hm := by rw [ten_of_tens hu, h.other m hm]

theorem Flushed.setTen {x : Ten} (hheldW : x.heldW = []) (hheld : x.held = []) : Flushed s (t.setTen n x) n where
  heldW := by rw [setTen_self, hheldW]
  held := by rw [setTen_self, hheld]
  other m hm := by rw [setTen_ne _ _ hm, h.other m hm]

/-- An event written to the tenant's ring leaves nothing of its waiting. -/
theorem Flushed.writeEvent (e : Event) : Flushed s (writeEvent n e t) n :=
  (h.of_tens (u := tenWrite n _ _ (tenWrite n _ _ t)) rfl).setTen h.heldW h.held

theorem Flushed.writeEvents (l : List Event) : Flushed s (l.foldl (fun a e => Machine.writeEvent n e a) t) n :=
  l.foldlRecOn _ (motive := fun a => Flushed s a n) h (fun _ ha e _ => ha.writeEvent e)

end

/-- The held events are taken off their queue before they are written. -/
theorem flushEvents_flushed {s t : State} {n : Nat} (hheldW : (t.ten n).heldW = []) (hother : ∀ m, m ≠ n → t.ten m = s.ten m) :
    Flushed s (flushEvents n t) n := by
  have htaken : Flushed s (t.setTen n { t.ten n with held := [] }) n :=
    ⟨by rw [setTen_self, hheldW], by rw [setTen_self], fun m hm => by rw [setTen_ne _ _ hm, hother m hm]⟩
  have hwritten := htaken.writeEvents (t.ten n).held
  unfold flushEvents
  dsimp only
  split
  · exact hwritten
  · refine Flushed.writeEvent (hwritten.setTen ?_ ?_) _
    · exact hwritten.heldW
    · exact hwritten.held

theorem flushMachine_flushed {s t : State} {n : Nat} (h : Flushed s t n) : Flushed s (flushMachine n t) n := by
  have hwritten := (h.of_tens (u := { t with mevHeld := [] }) rfl).writeEvents t.mevHeld
  unfold flushMachine
  dsimp only
  split
  · exact hwritten
  · refine Flushed.writeEvent (hwritten.of_tens ?_) _
    rfl

theorem postTally_tens (r : Nat) (s : State) : (postTally r s).tens = s.tens := by rw [postTally_frame]

theorem flushHeld_flushed {s : State} {n : Nat} (hst : (s.ten n).obj.st ≠ .off) (hcan : s.tenCan n = true) :
    Flushed s (flushHeld n s) n := by
  have hposted : ∀ (l : List (Option (Nat × DWord) × DWord × List Byte)) (a : State),
      (l.foldl (fun b h => tenWrite n h.2.1 h.2.2 b) a).tens = a.tens := fun l a =>
    foldl_keeps State.tens _ (fun _ _ => emit_tens ..) l a
  have hevents : Flushed s (flushEvents n ((s.ten n).heldW.foldl (fun a h => tenWrite n h.2.1 h.2.2 a)
      (s.setTen n { s.ten n with heldW := [] }))) n :=
    flushEvents_flushed (by rw [ten_of_tens (hposted ..), setTen_self])
      (fun m hm => by rw [ten_of_tens (hposted ..), setTen_ne _ _ hm])
  unfold flushHeld
  dsimp only
  rw [if_pos (by simp [hst, hcan])]
  refine Flushed.of_tens (t := if _ then _ else _) ?_ (foldl_keeps State.tens _ (fun a r => postTally_tens r a) _ _)
  split
  · exact flushMachine_flushed hevents
  · exact hevents

theorem flushCtl_tens (s : State) : (flushCtl s).tens = s.tens := by
  unfold flushCtl
  split
  · exact foldl_keeps State.tens _ (fun _ _ => emit_tens ..) _ _
  · rfl

/-- Settles O25: the tally's one write, and the queues that a flush empties before it writes what stood in them. -/
theorem tallyAndHeldWritesGoOut : Obligations.TallyAndHeldWritesGoOut := by
  unfold Obligations.TallyAndHeldWritesGoOut
  intro s r n
  refine ⟨fun hdue hlead hcan hheldW hheld hlost => ⟨_, exec_tallyWrite r s, ?_⟩,
    fun hst hcan => ⟨_, exec_heldWriteFlush n s, ?_⟩⟩
  · dsimp only
    rw [postTally_posts rfl hdue hlead hcan hheldW hheld hlost]
    exact ⟨rfl, setRing_self .., fun q hq => setRing_ne s _ hq⟩
  · obtain ⟨hheldW, hheld, hother⟩ := (flushHeld_flushed hst hcan).of_tens (flushCtl_tens _)
    exact ⟨hheldW, hheld, hother⟩

end Sys2Proof.Machine
end

section
/-! PROOFS. Move channels that run, are stopped and end (O28). -/

namespace Sys2Proof.Machine

open Sys2Proof

theorem exec_mvChGo (port : BitVec 4) (w : Fin 96) (n : BitVec 2) (s : State) : exec (.mvChGo port w n) s =
    .next (modOp w.val 1 port.toNat (modOff w.val + 0x1078 + 0x40 * n.toNat) 1 (chanGo w.val n.toNat s) s) := rfl
theorem exec_mvChAbort (port : BitVec 4) (w : Fin 96) (n : BitVec 2) (s : State) : exec (.mvChAbort port w n) s =
    .next (modOp w.val 1 port.toNat (modOff w.val + 0x1078 + 0x40 * n.toNat) 2 (chanAbort w.val n.toNat s) s) := rfl
theorem exec_mvTransferComplete (w : Fin 96) (die isle : BitVec 2) (core : BitVec 4) (n : BitVec 2) (s : State) :
    exec (.mvTransferComplete w die isle core n) s =
      .next (finishChan (s.chanKey w.val die.toNat isle.toNat core.toNat n.toNat) s) := rfl
theorem exec_mvWindDownDone (w : Fin 96) (die isle : BitVec 2) (core : BitVec 4) (n : BitVec 2) (s : State) :
    exec (.mvWindDownDone w die isle core n) s =
      .next (endAbort (s.chanKey w.val die.toNat isle.toNat core.toNat n.toNat) s) := rfl

@[simp] theorem setupNote_chan (p a v : Nat) (s : State) (k : Nat) : (setupNote p a v s).chan k = s.chan k := by
  simp only [State.chan, setupNote_chans]

section
variable {c : Instr} {s : State} {P : State → Prop} {w page port off val : Nat} {v : Verdict} (h : s.takesWrites = true)
  (hans : s.modAnswers w page = true) (hexec : exec c s = .next (modOp w page port off val v s))
include h hans hexec

/-- On a page of a MOD window that answers, an order is a register write (R798). -/
theorem runs_of_modOp_ok {u : State} (hv : v = .ok u) (hP : P (setupNote port off val u)) : Runs c s P :=
  runs_of_regOp_ok h (hexec.trans (congrArg Host.Outcome.next (if_pos hans))) hv hP

theorem runs_of_modOp_error {cause : Nat} (hv : v = .error cause) (hP : P (ignoreAcc cause port 0 true off false s)) : Runs c s P :=
  runs_of_regOp_error h (hexec.trans (congrArg Host.Outcome.next (if_pos hans))) hv hP

end

/-! ### What a channel's transfer leaves alone (R343, R345, R349) -/

/-- Every channel but one, and the commands of the rings. -/
def State.besideChan (s : State) (key : Nat) : (Nat → Chan) × (Nat → List Cmd) :=
  (fun i => if i = key then {} else s.chan i, s.dispatched)

theorem besideChan_congr {s t : State} (key : Nat) (hchans : t.chans = s.chans) (hdisp : t.dispatched = s.dispatched) :
    t.besideChan key = s.besideChan key := by
  simp only [State.besideChan, State.chan, hchans, hdisp]

theorem besideChan_chan {s t : State} {key i : Nat} (h : t.besideChan key = s.besideChan key) (hi : i ≠ key) :
    t.chan i = s.chan i := by
  simpa [State.besideChan, hi] using congrFun (congrArg Prod.fst h) i

theorem besideChan_dispatched {s t : State} {key : Nat} (h : t.besideChan key = s.besideChan key) :
    t.dispatched = s.dispatched := congrArg Prod.snd h

theorem setChan_besideChan (s : State) (key : Nat) (v : Chan) : (s.setChan key v).besideChan key = s.besideChan key := by
  refine Prod.ext (funext fun i => ?_) rfl
  by_cases hi : i = key
  · simp only [State.besideChan, if_pos hi]
  · simp only [State.besideChan, if_neg hi, setChan_ne s v hi]

theorem inject_besideChan (key : Nat) (p : Packet) (s : State) : (inject p s).besideChan key = s.besideChan key := rfl

theorem deliver_chans (n : Nat) (e : Event) (s : State) : (deliver n e s).chans = s.chans := by rw [deliver_told]; rfl

theorem countRefused_chans (w : Nat) (s : State) : (countRefused w s).chans = s.chans := by
  unfold countRefused
  split <;> rfl

theorem putColumn_chans (k key : Nat) (b : List Byte) (s : State) : (putColumn k key b s).chans = s.chans :=
  foldl_keeps State.chans _ (fun a u => by rw [rekeyUnit_frame]) _ s

theorem gateWrite_chans (who : Who) (w key : Nat) (b : List Byte) (s : State) : (gateWrite who w key b s).2.chans = s.chans := by
  unfold gateWrite
  split
  · rfl
  · split
    · rfl
    · split
      · exact countRefused_chans w s
      · split
        · rfl
        · exact putColumn_chans ..

/-- A diagnostic transfer names its own channel, where its faults are counted (R343). -/
theorem chanWho_ring {s : State} {key : Nat} (h : (s.chanWho key).diag = true) : (s.chanWho key).ring = key := by
  unfold State.chanWho at h ⊢
  dsimp only at h ⊢
  split at h
  · cases h
  · rfl

section
variable {who : Who} {key : Nat} (hwho : who.diag = true → who.ring = key)
include hwho

theorem srcFault_besideChan (c l a : Nat) (s : State) : (srcFault who c l a s).besideChan key = s.besideChan key := by
  unfold srcFault
  split
  next hdiag =>
    rw [hwho hdiag]
    exact setChan_besideChan ..
  next => exact besideChan_congr key (deliver_chans ..) (deliver_dispatched ..)

theorem lateFault_besideChan (h : Option Nat) (c l a : Nat) (s : State) :
    (lateFault who h c l a s).besideChan key = s.besideChan key := by
  by_cases hdiag : who.diag = true
  · rw [lateFault, if_pos hdiag, hwho hdiag]
    exact setChan_besideChan ..
  · refine besideChan_congr key ?_ (lateFault_dispatched ..)
    rw [lateFault, if_neg hdiag, deliver_chans]
    rfl

theorem postWrite_besideChan (m : List Nat) (src : Place) (f : Bool) (a : Nat) (b : List Byte) (s : State) :
    (postWrite who m src f a b s).besideChan key = s.besideChan key := by
  have hgate : ∀ w k, (gateWrite who w k b s).2.besideChan key = s.besideChan key := fun w k =>
    besideChan_congr key (gateWrite_chans ..) (gateWrite_dispatched ..)
  unfold postWrite landWrite
  dsimp only
  split
  · split
    · exact (lateFault_besideChan hwho ..).trans (hgate ..)
    · exact hgate ..
  · rfl

end

theorem readPart_besideChan (key : Nat) (m : List Nat) (a l : Nat) (s : State) :
    (readPart key m a l s).2.besideChan key = s.besideChan key := by
  unfold readPart chanSrcFault
  dsimp only
  split
  · exact srcFault_besideChan chanWho_ring ..
  · split
    · exact besideChan_congr key (countRefused_chans ..) (countRefused_dispatched ..)
    · split
      · exact srcFault_besideChan (s := { s with flt := _ }) chanWho_ring ..
      · rfl

theorem readRun_besideChan (key : Nat) (m : List Nat) (src n : Nat) (s : State) :
    (readRun key m src n s).2.2.besideChan key = s.besideChan key := by
  unfold readRun
  dsimp only
  split
  · refine foldl_carries (State.besideChan · key) (Prod.snd ∘ Prod.snd) _ (fun b x => ?_) _ _
    split
    · rfl
    · exact readPart_besideChan ..
  · rfl
  · rfl

theorem writeRun_besideChan (key : Nat) (m : List Nat) (l : List (Nat × List Byte)) (s : State) :
    (writeRun key m l s).besideChan key = s.besideChan key := by
  refine foldl_keeps (State.besideChan · key) _ (fun a x => ?_) _ _
  split
  · exact foldl_keeps (State.besideChan · key) _ (fun _ _ => postWrite_besideChan chanWho_ring ..) _ _
  · exact foldl_keeps (State.besideChan · key) _ (fun _ _ => inject_besideChan ..) _ _
  · rfl

theorem runTransfer_besideChan (key : Nat) (l : List (Nat × Nat)) (s : State) :
    (runTransfer key l s).besideChan key = s.besideChan key :=
  foldl_carries (State.besideChan · key) Prod.snd _
    (fun _ _ => (writeRun_besideChan ..).trans (readRun_besideChan ..)) _ _

/-! ### GO and ABORT (R339, R340) -/

section
variable {w n : Nat} {s : State} (hopen : s.chanOpen w = true)
include hopen

theorem chanGo_off (hoff : (s.chan (s.selChan w n)).obj.st = .off) (hlegal : moveOk (2 ^ 37) (s.chan (s.selChan w n)).regs.mv = true) :
    chanGo w n s = .ok (startChan (s.selChan w n) none s) := by
  simp only [chanGo, hopen, hoff, hlegal]
  rfl

theorem chanGo_on (hon : (s.chan (s.selChan w n)).obj.st = .on) : chanGo w n s = .error 4 := by
  simp [chanGo, hopen, hon]

theorem chanAbort_open : chanAbort w n s = .ok (abortChan (s.selChan w n) s) := by simp [chanAbort, hopen]

end

theorem abortChan_on {key : Nat} {s : State} (hon : (s.chan key).obj.st = .on) : abortChan key s =
    dropChanReads key ((writeIssued key s).setChan key { (writeIssued key s).chan key with obj := { st := .winding } }) := by
  simp only [abortChan, hon]

theorem abortChan_winding {key : Nat} {s : State} (hwind : (s.chan key).obj.st = .winding) :
    abortChan key s = s.setChan key { s.chan key with obj := { st := .winding } } := by
  simp only [abortChan, hwind]

/-- ABORT winds down a channel that is not OFF. -/
theorem abortChan_obj {key : Nat} {s : State} (hbusy : (s.chan key).obj.st ≠ .off) :
    ((abortChan key s).chan key).obj = { st := .winding } := by
  cases hst : (s.chan key).obj.st with
  | off => exact absurd hst hbusy
  | on =>
    rw [abortChan_on hst]
    exact congrArg Chan.obj (setChan_self ..)
  | winding =>
    rw [abortChan_winding hst]
    exact congrArg Chan.obj (setChan_self ..)

/-- ABORT concerns one channel, the writes it had issued none. -/
theorem abortChan_besideChan (key : Nat) (s : State) : (abortChan key s).besideChan key = s.besideChan key := by
  unfold abortChan
  dsimp only
  split
  · rfl
  · exact (setChan_besideChan ..).trans (runTransfer_besideChan ..)
  · exact setChan_besideChan ..

/-- Of the reads that stay outstanding none is the channel's. -/
theorem dropChanReads_reads {key q : Nat} {p : HRead} {s : State} (h : (q, some p) ∈ (dropChanReads key s).reads) (i : Nat) :
    p.purpose ≠ .move key i := by
  intro hp
  have hkeep := (List.mem_filter.1 h).2
  simp [hp] at hkeep

/-! ### A command that completes wakes no channel (R305, R311) -/

/-- No dispatched command waits for a channel. -/
def State.noneRechan (s : State) : Prop := ∀ q, ∀ d ∈ s.dispatched q, d.rechan = none

theorem noneRechan_of_dispatched {s t : State} (h : s.noneRechan) (heq : t.dispatched = s.dispatched) : t.noneRechan := by
  rwa [State.noneRechan, heq]

theorem noneRechan_setRing {s : State} (h : s.noneRechan) (r : Nat) {x : Ring} (hx : ∀ d ∈ x.cmds, d.rechan = none) :
    (s.setRing r x).noneRechan := by
  intro q
  by_cases hq : q = r
  · rw [hq, State.dispatched, setRing_self]
    exact hx
  · rw [State.dispatched, setRing_ne s x hq]
    exact h q

theorem noneRechan_modCmd {s : State} (h : s.noneRechan) (r : Nat) (q : DWord) {f : Cmd → Cmd}
    (hf : ∀ d, d.rechan = none → (f d).rechan = none) : (modCmd r q f s).noneRechan := by
  refine noneRechan_setRing h r fun d hd => ?_
  obtain ⟨c, hc, rfl⟩ := List.mem_map.1 hd
  split
  · exact hf c (h r c hc)
  · exact h r c hc

theorem noneRechan_advanceTally {s : State} (h : s.noneRechan) (r : Nat) : (advanceTally r s).noneRechan := by
  unfold advanceTally
  dsimp only
  split
  · exact h
  · exact noneRechan_setRing h r fun d hd => h r d (List.mem_of_mem_drop hd)

theorem dispatched_of_rings {s t : State} (h : t.rings = s.rings) : t.dispatched = s.dispatched :=
  funext fun q => congrArg Ring.cmds (ring_of_rings h q)

theorem noteHead_cmds (r : Nat) (s : State) : (noteHead r s).dispatched = s.dispatched := by
  funext q
  by_cases hq : q = r
  · obtain ⟨tick, ok, rc, h⟩ := noteHead_ring_self r s
    rw [hq, State.dispatched, h]
    rfl
  · rw [State.dispatched, noteHead_ring_ne r s hq]
    rfl

theorem noneRechan_complete {s : State} (h : s.noneRechan) (r : Nat) (q : DWord) (fl i : Word) :
    (complete r q fl i s).noneRechan := by
  unfold complete
  split
  · exact h
  next c hc =>
    have hrechan : c.rechan = none := h r c (List.mem_of_find?_eq_some hc)
    dsimp only
    split
    · exact h
    · refine noneRechan_of_dispatched (noneRechan_advanceTally ?_ r) (noteHead_cmds ..)
      have hevent : ∀ (b : Bool) (n : Nat) (e : Event), (if b then deliver n e s else s).noneRechan := fun b n e => by
        split
        · exact noneRechan_of_dispatched h (deliver_dispatched ..)
        · exact h
      have hdone := fun b n e => noneRechan_modCmd (hevent b n e) r q
        (f := fun _ => { c with done := true, flags := c.flags ||| fl, info := i }) fun _ _ => hrechan
      split
      · exact noneRechan_of_dispatched (hdone _ _ _) (dispatched_of_rings (hostPost_rings ..))
      · exact hdone _ _ _

theorem noneRechan_completeCut {s : State} (h : s.noneRechan) (r : Nat) (q : DWord) : (completeCut r q s).noneRechan :=
  noneRechan_complete (noneRechan_modCmd h r q (f := fun c => { c with flags := 0 }) fun _ hd => hd) r q 0x80 0

theorem hostPost_chans (n : Nat) (o : Option (Nat × DWord)) (a : DWord) (b : List Byte) (s : State) :
    (hostPost n o a b s).chans = s.chans := by
  unfold hostPost
  dsimp only
  split <;> rfl

theorem noteHead_chans (r : Nat) (s : State) : (noteHead r s).chans = s.chans := by rw [noteHead_frame]; rfl

theorem complete_chans (r : Nat) (q : DWord) (fl i : Word) (s : State) : (complete r q fl i s).chans = s.chans :=
  complete_keeps State.chans deliver_chans setRing_chans hostPost_chans noteHead_chans r q fl i s

theorem completeCut_chans (r : Nat) (q : DWord) (s : State) : (completeCut r q s).chans = s.chans := complete_chans ..

theorem wakeChan_none {s : State} (h : s.noneRechan) (key : Nat) : wakeChan key s = s := by
  have hnone : s.ringIds.findSome? (fun r =>
      ((s.ring r).cmds.find? (fun c => !c.done && c.rechan == some key)).map (fun c => (r, c))) = none := by
    refine List.findSome?_eq_none_iff.2 fun r _ => ?_
    rw [Option.map_eq_none_iff, List.find?_eq_none]
    intro c hc
    rw [h r c hc]
    simp
  unfold wakeChan
  rw [hnone]
  exact ite_self s

/-! ### The ends of a channel (R340, R344) -/

/-- A channel whose transfer has ended: OFF, with no owner and nothing asked for. -/
def Chan.ended (x : Chan) : Chan := { x with obj := {}, owner := none, got := [], asked := 0 }

/-- The end of the command that a channel ran leaves the channel as it is, where no command waits for one. -/
theorem wakeChan_chan {s t : State} {key : Nat} {x : Chan} (ht : t.noneRechan) (hchans : t.chans = (s.setChan key x).chans) :
    (wakeChan key t).chan key = x := by
  rw [wakeChan_none ht, State.chan, hchans]
  exact setChan_self s key x

theorem endAbort_ends {key : Nat} {s : State} (hnone : s.noneRechan) (hwind : (s.chan key).obj = { st := .winding }) :
    (endAbort key s).chan key = (s.chan key).ended := by
  have hset : (s.setChan key (s.chan key).ended).noneRechan := hnone
  unfold endAbort
  dsimp only
  rw [hwind, if_pos (by decide), if_neg (by decide)]
  split
  · exact wakeChan_chan (noneRechan_completeCut hset _ _) (completeCut_chans ..)
  · exact wakeChan_chan hset rfl

theorem finishChan_ends {key : Nat} {s : State} (hnone : s.noneRechan) (hon : (s.chan key).obj.st = .on)
    (hback : s.readsBack key = true) (hup : s.paused (placeOfCore (key / 4)).w = false)
    (hgood : (s.chan key).run.mv.sspace ≠ 2 ∨ (s.core (key / 4)).badWords = []) :
    ∃ x : Chan, (finishChan key s).chan key = x.ended := by
  have hset : ((runTransfer key (s.chan key).run.mv.runs s).setChan key
      ((runTransfer key (s.chan key).run.mv.runs s).chan key).ended).noneRechan :=
    noneRechan_of_dispatched (t := runTransfer ..) hnone (besideChan_dispatched (runTransfer_besideChan ..))
  refine ⟨(runTransfer key (s.chan key).run.mv.runs s).chan key, ?_⟩
  unfold finishChan
  dsimp only
  rw [if_neg (by rcases hgood with h | h <;> simp [h]), if_pos (by simp [hon, hback, hup])]
  split
  · exact wakeChan_chan (noneRechan_complete hset _ _ _ _) (complete_chans ..)
  · exact wakeChan_chan hset rfl

/-! ### O28 -/

/-- Settles O28: each order by the state of the channel it meets; a channel's writes and the end of its command leave the
other channels alone and let no command wait. -/
theorem moveChannelsRunAndStop : Obligations.MoveChannelsRunAndStop := by
  unfold Obligations.MoveChannelsRunAndStop
  intro s port core w die isle n k j off
  refine ⟨fun h hans hopen => ⟨fun hoff hlegal => ?_, fun hon => ⟨?_, ?_⟩⟩,
    fun hnone => ⟨fun hon hback hup hgood => ⟨_, exec_mvTransferComplete .., ?_⟩,
      fun hwind => ⟨_, exec_mvWindDownDone .., ?_⟩⟩⟩
  · refine runs_of_modOp_ok h hans (exec_mvChGo ..) (chanGo_off hopen hoff hlegal) ?_
    obtain ⟨-, -, hcols, ⟨m, hchan⟩, hother⟩ := startChan_moves k none s
    simp only [setupNote_chan, setupNote_cols]
    rw [hchan]
    exact ⟨rfl, rfl, rfl, hother, hcols⟩
  · exact runs_of_modOp_error h hans (exec_mvChGo ..) (chanGo_on hopen hon) rfl
  · refine runs_of_modOp_ok h hans (exec_mvChAbort ..) (chanAbort_open hopen) ?_
    simp only [setupNote_chan, setupNote_reads]
    refine ⟨abortChan_obj (by rw [hon]; decide), fun q p hp => ?_, fun i hi => besideChan_chan (abortChan_besideChan k s) hi⟩
    rw [abortChan_on hon] at hp
    exact dropChanReads_reads hp
  · obtain ⟨x, hx⟩ := finishChan_ends hnone hon hback hup hgood
    rw [hx]
    exact ⟨rfl, rfl⟩
  · dsimp only
    rw [endAbort_ends hnone hwind]
    exact ⟨rfl, rfl⟩

end Sys2Proof.Machine
end

section
/-! PROOFS. Diagnostic mode is entered and left (O29). -/

namespace Sys2Proof.Machine

open Sys2Proof

theorem exec_mvDiagEnable (port : BitVec 4) (w : Fin 96) (s : State) : exec (.mvDiagEnable port w) s =
    .next (modOp w.val 0 port.toNat (modOff w.val + 0x1000) 1 (diagEnable w.val s) s) := rfl
theorem exec_mvDiagDisable (port : BitVec 4) (w : Fin 96) (s : State) : exec (.mvDiagDisable port w) s =
    .next (modOp w.val 0 port.toNat (modOff w.val + 0x1000) 0 (diagDisable w.val s) s) := rfl
theorem exec_mvDiagActive (w : Fin 96) (s : State) : exec (.mvDiagActive w) s = .next (diagActive w.val s) := rfl
theorem exec_mvDiagExitScrubDone (w : Fin 96) (s : State) : exec (.mvDiagExitScrubDone w) s = .next (diagExit w.val s) := rfl

/-! ### The order (R341) -/

section
variable {w : Nat} {s : State} (hidle : (s.mod w).diagEn = false)
include hidle

theorem diagEnable_ordered (hserving : s.modServing w = true) (hfree : s.modInPart w = false) :
    diagEnable w s = .ok (s.setMod w { s.mod w with diagEn := true }) := by
  simp [diagEnable, hidle, hserving, hfree]

theorem diagEnable_refused (hbusy : s.modServing w = false ∨ s.modInPart w = true) : diagEnable w s = .error 5 := by
  rcases hbusy with h | h <;> simp [diagEnable, hidle, h]

end

theorem setupNote_setMod_frame (p a v w : Nat) (x : Mod) (s : State) :
    setupNote p a v (s.setMod w x) = { logged s (setupNote p a v (s.setMod w x)) with
      mods := (setupNote p a v (s.setMod w x)).mods } := by rw [setupNote_logged]; rfl

/-! ### The binding (R341) -/

/-- A module as the diagnostic binding leaves it, with the key of a name. -/
def Mod.diagBound (m : Mod) (key : Nat) : Mod :=
  { m with diagActive := true, keyDiag := true, diagKey := key, bind := none, gateClosed := false }

theorem diagActive_binds {w : Nat} {s : State} (hen : (s.mod w).diagEn = true) (hidle : (s.mod w).diagActive = false)
    (hkeys : s.keys.ready = true) (hserving : s.modServing w = true) (hslot : (s.mod w).keyRetry = none) :
    diagActive w s = { zeroScratch w (s.setMod w ((s.mod w).diagBound (s.keySerial + 1))) with keySerial := s.keySerial + 1 } :=
  if_pos (by simp [hen, hidle, hkeys, hserving, hslot])

/-! ### The end of the mode (R342) -/

theorem diagDisable_ordered {w : Nat} {s : State} (hen : (s.mod w).diagEn = true) : diagDisable w s =
    .ok ((s.diagBusy w).foldl (fun a k => abortChan k a) (s.setMod w { s.mod w with diagEn := false })) := if_pos hen

theorem abortChans_mod (l : List Nat) (s : State) (w : Nat) : (l.foldl (fun a k => abortChan k a) s).mod w = s.mod w :=
  foldl_keeps (State.mod · w) _ (fun a k => by rw [State.mod, lifeView_mods (abortChan_lifeView k a)]; rfl) l s

/-- A channel that winds down goes on doing so, whatever channels are aborted. -/
theorem abortChans_winding {k : Nat} (l : List Nat) {s : State} (h : (s.chan k).obj = { st := .winding }) :
    ((l.foldl (fun a i => abortChan i a) s).chan k).obj = { st := .winding } := by
  refine l.foldlRecOn (fun a i => abortChan i a) (motive := fun a => (State.chan a k).obj = { st := .winding }) h fun a ha i _ => ?_
  by_cases hk : k = i
  · rw [← hk]
    exact abortChan_obj (by rw [ha]; decide)
  · rw [besideChan_chan (abortChan_besideChan i a) hk, ha]

/-- Every busy channel of a list of channels to abort winds down. -/
theorem abortChans_obj {k : Nat} (l : List Nat) {s : State} (hk : k ∈ l) (hbusy : (s.chan k).obj.st ≠ .off) :
    ((l.foldl (fun a i => abortChan i a) s).chan k).obj = { st := .winding } := by
  induction l generalizing s with
  | nil => cases hk
  | cons i l ih =>
    rw [List.foldl_cons]
    by_cases hi : k = i
    · rw [← hi]
      exact abortChans_winding l (abortChan_obj hbusy)
    · refine ih ((List.mem_cons.1 hk).resolve_left hi) ?_
      rwa [besideChan_chan (abortChan_besideChan i s) hi]

/-- A module as the exit scrub leaves it, before its columns stand under the key they were zeroed with. -/
def Mod.diagLeft (m : Mod) : Mod := { m with diagActive := false, keyDiag := false, diagKey := 0 }

theorem diagExit_scrubs {w : Nat} {s : State} (h : s.diagScrub w = true) :
    diagExit w s = scrubMod (fun _ => (s.mod w).diagKey) (s.setMod w (s.mod w).diagLeft) w := if_pos h

/-! ### O29 -/

/-- Settles O29: the order as it is judged, the binding under a fresh key, the aborts, and the scrub of the module's columns. -/
theorem diagnosticModeEntersAndLeaves : Obligations.DiagnosticModeEntersAndLeaves := by
  unfold Obligations.DiagnosticModeEntersAndLeaves
  intro s port w
  refine ⟨fun h hans => ⟨fun hidle hserving hfree => ?_, fun hidle hbusy => ?_, fun hen => ?_⟩,
    fun hen hidle hkeys hserving hslot => ⟨_, exec_mvDiagActive .., ?_⟩, fun hscrub => ⟨_, exec_mvDiagExitScrubDone .., ?_⟩⟩
  · refine runs_of_modOp_ok h hans (exec_mvDiagEnable ..) (diagEnable_ordered hidle hserving hfree) ?_
    simp only [setupNote_mod, setMod_self]
    exact ⟨trivial, fun v hv => setMod_ne s _ hv, setupNote_setMod_frame ..⟩
  · exact runs_of_modOp_error h hans (exec_mvDiagEnable ..) (diagEnable_refused hidle hbusy) rfl
  · refine runs_of_modOp_ok h hans (exec_mvDiagDisable ..) (diagDisable_ordered hen) ?_
    simp only [setupNote_mod, setupNote_chan, abortChans_mod, setMod_self]
    exact ⟨trivial, trivial, fun k hk hbusy => abortChans_obj _ hk hbusy⟩
  · rw [diagActive_binds hen hidle hkeys hserving hslot]
    exact ⟨setMod_self .., rfl, fun v hv => setMod_ne s _ hv, rfl⟩
  · dsimp only
    rw [diagExit_scrubs hscrub, scrubMod_mod_self, setMod_self]
    refine ⟨rfl, rfl, rfl, fun a => ?_, fun a ha => ?_⟩
    · rw [scrubMod_cols, if_pos (by omega)]
    · rw [scrubMod_cols, if_neg ha]
      rfl

end Sys2Proof.Machine
end

section
/-! PROOFS. Shape changes (O32): orders, preparation, and what a release gives the fabric. -/

namespace Sys2Proof.Machine

open Sys2Proof

theorem exec_fabShapeReq_window (port : BitVec 4) (sh : BitVec 2) (s : State) : exec (.fabShapeReq (.window port) sh) s =
    .next (regOp port.toNat 0xB0004 sh.toNat (shapeRequest (shapeOf sh.toNat) s) s) := rfl
theorem exec_shapePreparationDone (s : State) : exec .shapePreparationDone s = .next (prepDone s) := rfl
theorem exec_shapePreparationFailed (circuits : List (BitVec 8)) (s : State) :
    exec (.shapePreparationFailed circuits) s = .next (prepFailed (circuits.map (·.toNat)) s) := rfl
theorem exec_shapeHoldRelease (seams : List (Fin 800)) (circuits : List (BitVec 8)) (s : State) :
    exec (.shapeHoldRelease seams circuits) s = .next (release3 (seams.map (·.val)) (circuits.map (·.toNat)) s) := rfl

/-! ### What the loss of a partition leaves alone (R223, R229) -/

section
variable {γ : Type} (v : State → γ) (hrest : ∀ {a b : State}, b.restView = a.restView → v b = v a)
  (hmod : ∀ a w x, v (State.setMod a w x) = v a) (hpipe : ∀ a k x, v (State.setPipe a k x) = v a)

include hrest hpipe in
/-- A view of what neither commands nor events nor a pipeline's record are part of is kept as an output stream loses its ring. -/
theorem streamUnbound_keeps (r : Nat) (s : State) : v (streamUnbound r s) = v s := by
  refine foldl_keeps v _ (fun a k => ?_) _ _
  dsimp only
  split
  · rfl
  · exact foldl_keeps v _ (fun _ _ => (hrest (machineEvent_restView ..)).trans (hpipe ..)) _ _

include hrest hpipe in
/-- Such a view is kept as a ring enters WINDING. -/
theorem windRing_keeps (waits : Bool) (r : Nat) (s : State) : v (windRing waits r s) = v s := by
  have hstop : ∀ a : State, a.restView = s.restView → v (streamUnbound r a) = v s := fun a ha =>
    (streamUnbound_keeps v hrest hpipe r a).trans (hrest ha)
  unfold windRing forgetScan
  dsimp only
  split
  · split
    · exact (hrest (foldl_keeps State.restView _ (fun _ _ => complete_keeps State.restView deliver_restView setRing_restView
        hostPost_restView noteHead_restView ..) _ _)).trans (hstop _ rfl)
    · exact hstop _ rfl
  · rfl

theorem cutCommands_restView (p : Nat) (s : State) : (cutCommands p s).restView = s.restView := by
  refine foldl_keeps State.restView _ (fun a r => foldl_keeps State.restView _ (fun b c => ?_) _ _) _ _
  split
  · exact foldl_keeps State.restView _ (fun _ _ => abortChan_restView ..) _ _
  · exact completeCut_restView ..

include hrest hmod hpipe in
/-- A view that no module's record is part of either is kept as a partition's rings stop. -/
theorem stopPart_keeps (p : Nat) (cut : Bool) (s : State) : v (stopPart p cut s) = v s := by
  have hrings : ∀ l : List Nat, v (l.foldl (fun a r => windRing (!cut) r a) s) = v s := fun l =>
    foldl_keeps v _ (fun a r => windRing_keeps v hrest hpipe _ r a) l s
  unfold stopPart
  dsimp only
  split
  · exact (foldl_keeps v _ (fun _ _ => hmod ..) _ _).trans ((hrest (cutCommands_restView ..)).trans (hrings _))
  · exact hrings _

include hrest hmod in
/-- Such a view is kept by the end of an enable. -/
theorem cancelEnable_keeps (p : Nat) (s : State) : v (cancelEnable p s) = v s :=
  calc v (cancelEnable p s)
      = v (unbind (s.part p).mods (eraseSlots (s.part p).owner (s.part p).mods s)) :=
        hrest ((clearPendingRings_keeps State.restView setRing_restView ..).trans (setPart_restView ..))
    _ = v s := (foldl_keeps v _ (fun _ _ => hmod ..) _ _).trans (foldl_keeps v _ (fun _ _ => hmod ..) _ _)

include hrest hmod hpipe in
/-- Such a view is kept as a partition winds down. -/
theorem windPart_keeps (p : Nat) (how : Wind) (lost : Bool) (s : State) : v (windPart p how lost s) = v s := by
  have hclear : ∀ a, v (clearPendingRings p a) = v a := fun a =>
    hrest (clearPendingRings_keeps State.restView setRing_restView p a)
  have hpart : ∀ a x, v (State.setPart a p x) = v a := fun a x => hrest (setPart_restView a p x)
  have hstop : ∀ a, v (stopPart p (how != .finish) a) = v a := stopPart_keeps v hrest hmod hpipe p _
  unfold windPart
  dsimp only
  split
  · split
    · exact (hclear _).trans (hpart ..)
    · rfl
  · exact (hstop _).trans ((hclear _).trans (hpart ..))
  · split
    · split
      · exact (hpart ..).trans (foldl_keeps v _ (fun _ _ => hmod ..) _ _)
      · exact cancelEnable_keeps v hrest hmod p s
    · split
      · rw [hstop, hpart]
        split
        · rfl
        · exact hclear s
      · exact (hclear _).trans (hpart ..)

include hrest hmod hpipe in
/-- Such a view is kept as a release judges a partition (R230). -/
theorem judgePart_keeps (old new_ : Shape) (p : Nat) (mods : List Nat) (s : State) :
    v (judgePart old new_ p mods s).2 = v s := by
  unfold judgePart losePart
  dsimp only
  split
  · exact hrest ((deliver_restView ..).trans (setPart_restView ..))
  · exact (hrest (deliver_restView ..)).trans (windPart_keeps v hrest hmod hpipe ..)

end

/-! ### Orders (R378) -/

/-- An order that changes the shape's and the Sound's record only: the record it leaves, and the log record beside it. -/
theorem runs_of_shapeOrder {c : Instr} {s : State} {P : State → Prop} {port off val : Nat} {v : Verdict} {x : ShapeSt}
    (h : s.takesWrites = true) (hexec : exec c s = .next (regOp port off val v s)) (hv : v = .ok { s with sh := x })
    (hP : ∀ t : State, t.sh = x → t = { logged s t with sh := t.sh } → P t) : Runs c s P :=
  runs_of_regOp_ok h hexec hv (hP _ (setupNote_sh ..) (by rw [setupNote_logged]; rfl))

section
variable {s : State} {target : Shape}

theorem shapeRequest_busy (hbusy : s.sh.phase ≠ .idle) : shapeRequest target s = .error 4 := by
  simp [shapeRequest, State.shapeBusy, hbusy]

theorem shapeRequest_same (hidle : s.sh.phase = .idle) (hsame : target = s.sh.shape) : shapeRequest target s = .ok s := by
  simp [shapeRequest, State.shapeBusy, hidle, hsame]

theorem shapeRequest_unready (hidle : s.sh.phase = .idle) (hnew : target ≠ s.sh.shape) (h3D : target.is3D = true)
    (hsound : s.sh.sound ≠ 1) : shapeRequest target s = .error 5 := by
  rw [shapeRequest, if_neg (by simp [State.shapeBusy, hidle]), if_neg hnew, if_pos ⟨h3D, hsound⟩]

theorem shapeRequest_begins (hidle : s.sh.phase = .idle) (hnew : target ≠ s.sh.shape)
    (hready : target.is3D = false ∨ s.sh.sound = 1) : shapeRequest target s = .ok (beginChange target 1 s) := by
  have hlegal : ¬(target.is3D = true ∧ s.sh.sound ≠ 1) := by
    rintro ⟨h3D, hsound⟩
    rcases hready with hflat | hin
    · simp [hflat] at h3D
    · exact hsound hin
  rw [shapeRequest, if_neg (by simp [State.shapeBusy, hidle]), if_neg hnew, if_neg hlegal]

end

/-! ### Preparation (R374, R376) -/

/-- The z rings of the circuits that have failed once `circuits` are found failed too (R367). -/
theorem darken_ringsFailed (circuits : List (BitVec 8)) (s : State) : (darken (circuits.map (·.toNat)) s).sh.ringsFailed =
    (s.sh.ringsFailed ++ circuits.map (fun c => s.ringOfPort s.circuitShape c.toNat)).dedup := by
  rw [darken, List.map_map]
  rfl

theorem prepFailed_abandons {circuits : List Nat} {s : State} (hprep : s.sh.phase = .prep)
    (hmany : tooManyRings (darken circuits s).sh.ringsFailed = true) : prepFailed circuits s = abandonOrder 6 (darken circuits s) :=
  if_pos ⟨hprep, hmany⟩

/-! ### Release (R373, R376) -/

/-- What a release settles: the shape in force, that no change is under way, how many there have been, when, and the window. -/
def State.releaseView (s : State) : Shape × ShPhase × Word × DWord × Win :=
  (s.sh.shape, s.sh.phase, s.sh.count, s.sh.relTb, s.win)

/-- The shape a release gives the fabric, circuits on the z rings `failed` having failed (R376). -/
def State.releasedShape (s : State) (failed : List Nat) : Shape :=
  if s.sh.divert.isSome || (s.sh.target.is3D && tooManyRings failed) then .s166 else s.sh.target

theorem releaseView_of_restView {s t : State} (h : t.restView = s.restView) : t.releaseView = s.releaseView :=
  congrArg (fun x => x.2.releaseView) h

theorem failLink_releaseView (l reason : Nat) (s : State) : (failLink l reason s).releaseView = s.releaseView := by
  rw [failLink, onLink_frame]
  rfl

/-- A release: beside the shape's record, it fails links, judges partitions and raises events. -/
theorem release3_releaseView (seams circuits : List Nat) {s : State} (hhold : s.sh.phase = .hold) (hawake : s.anyPaused = false) :
    (release3 seams circuits s).releaseView =
      (s.releasedShape (darken circuits s).sh.ringsFailed, .idle, s.sh.count + 1, s.win.tb, s.win) := by
  unfold release3
  rw [if_pos ⟨hhold, hawake⟩]
  refine (releaseView_of_restView (machineEvent_restView ..)).trans ?_
  refine (foldl_carries State.releaseView (fun a : List Nat × List Nat × State => a.2.2) _ (fun a p => ?_) _ _).trans
    (foldl_keeps State.releaseView _ (fun a q => failLink_releaseView q 1 a) _ _)
  dsimp only
  generalize hjudged : judgePart _ _ p.1 p.2 a.2.2 = q
  have hkept : q.2.releaseView = a.2.2.releaseView := by
    rw [← hjudged]
    exact judgePart_keeps State.releaseView releaseView_of_restView (fun _ _ _ => rfl) (fun _ _ _ => rfl) ..
  split <;> exact hkept

theorem release3_paused (seams circuits : List Nat) {s : State} (hpaused : s.anyPaused = true) : release3 seams circuits s = s :=
  if_neg (by simp [hpaused])

/-- A release that ends the hold gives the fabric the shape `sh`, where that is what R376 chooses. -/
theorem runs_shapeHoldRelease {s : State} (seams : List (Fin 800)) (circuits : List (BitVec 8)) (hhold : s.sh.phase = .hold)
    (hawake : s.anyPaused = false) {sh : Shape}
    (hsh : s.releasedShape (s.sh.ringsFailed ++ circuits.map (fun c => s.ringOfPort s.circuitShape c.toNat)).dedup = sh) :
    Runs (.shapeHoldRelease seams circuits) s (fun t =>
      t.sh.shape = sh ∧ t.sh.phase = .idle ∧ t.sh.count = s.sh.count + 1 ∧ t.sh.relTb = s.win.tb ∧ t.win = s.win) := by
  have hview := release3_releaseView (seams.map (·.val)) (circuits.map (·.toNat)) hhold hawake
  rw [darken_ringsFailed, hsh] at hview
  simp only [State.releaseView, Prod.mk.injEq] at hview
  exact ⟨_, exec_shapeHoldRelease .., hview⟩

theorem releasedShape_target {s : State} {failed : List Nat} (hdivert : s.sh.divert = none)
    (hwhole : s.sh.target.is3D = false ∨ tooManyRings failed = false) : s.releasedShape failed = s.sh.target := by
  rcases hwhole with h | h <;> simp [State.releasedShape, hdivert, h]

theorem releasedShape_flat {s : State} {failed : List Nat}
    (h : s.sh.divert ≠ none ∨ (s.sh.target.is3D = true ∧ tooManyRings failed = true)) : s.releasedShape failed = .s166 := by
  refine if_pos ?_
  rcases h with hdivert | ⟨h3D, hmany⟩
  · rw [Option.isSome_iff_ne_none.2 hdivert, Bool.true_or]
  · rw [h3D, hmany, Bool.and_self, Bool.or_true]

/-- Settles O32: the verdicts of an order, the ends of a preparation, and the shape a release chooses, which nothing that follows it
changes. -/
theorem shapeChangesPrepareHoldAndRelease : Obligations.ShapeChangesPrepareHoldAndRelease := by
  unfold Obligations.ShapeChangesPrepareHoldAndRelease
  intro s port sh circuits seams
  refine ⟨fun h hidle hnew => ⟨fun hready => ?_, fun h3D hsound => ?_⟩, fun h hidle hsame => ?_, fun h hbusy => ?_,
    fun hprep hset hfew => ⟨_, exec_shapePreparationDone s, if_pos ⟨hprep, hset, hfew⟩⟩, fun hprep hmany => ?_,
    fun hhold hawake => ⟨fun hdivert hwhole => ?_, fun hflat => ?_⟩,
    fun hpaused => ⟨_, exec_shapeHoldRelease .., release3_paused _ _ hpaused⟩⟩
  · refine runs_of_shapeOrder h (exec_fabShapeReq_window ..) (shapeRequest_begins hidle hnew hready) (fun t hsh hframe => ?_)
    rw [hsh] at hframe ⊢
    exact ⟨by simp, rfl, rfl, hframe⟩
  · exact runs_of_regOp_error h (exec_fabShapeReq_window ..) (shapeRequest_unready hidle hnew h3D hsound) rfl
  · exact runs_of_regOp_ok h (exec_fabShapeReq_window ..) (shapeRequest_same hidle hsame) (setupNote_logged ..)
  · exact runs_of_regOp_error h (exec_fabShapeReq_window ..) (shapeRequest_busy hbusy) rfl
  · refine ⟨_, exec_shapePreparationFailed .., ?_⟩
    rw [prepFailed_abandons hprep (by rw [darken_ringsFailed]; exact hmany)]
    exact ⟨rfl, rfl, rfl, rfl⟩
  · exact runs_shapeHoldRelease seams circuits hhold hawake (releasedShape_target hdivert hwhole)
  · exact runs_shapeHoldRelease seams circuits hhold hawake (releasedShape_flat hflat)

end Sys2Proof.Machine
end

section
/-! PROOFS. The Sound (O33): faults, circuits, service orders and external splices. -/

namespace Sys2Proof.Machine

open Sys2Proof

theorem exec_soundFault (s : State) : exec .soundFault s = .next (soundFails s) := rfl
theorem exec_soundCircuitsSet (s : State) : exec .soundCircuitsSet s = .next (circuitsSet s) := rfl
theorem exec_soundCircuitFailed (circuit : BitVec 8) (s : State) :
    exec (.soundCircuitFailed circuit) s = .next (circuitFailed circuit.toNat s) := rfl
theorem exec_soundServiceEnter_window (port : BitVec 4) (s : State) : exec (.soundServiceEnter (.window port)) s =
    .next (regOp port.toNat 0xC0004 1 (soundEnter s) s) := rfl
theorem exec_soundServiceLeave_window (port : BitVec 4) (s : State) : exec (.soundServiceLeave (.window port)) s =
    .next (regOp port.toNat 0xC0004 2 (soundLeave s) s) := rfl
theorem exec_soundSelfTestDone (ok : Bool) (s : State) : exec (.soundSelfTestDone ok) s = .next (selfTestDone ok s) := rfl
theorem exec_soundExtWrite (port : BitVec 4) (e : Fin 24) (val : Word) (s : State) : exec (.soundExtWrite port e val) s =
    .next (regOp port.toNat (0xC0100 + 4 * e.val) val.toNat (extWrite e.val val s) s) := rfl

/-! ### Faults of the Sound and of its circuits (R367, R375) -/

/-- A trigger abandons, diverts or begins a change: the shape in force, the Sound and the failed circuits stay. -/
theorem trigger_frame (cause : Nat) (s : State) : trigger cause s = { s with sh := { (trigger cause s).sh with
    shape := s.sh.shape, sound := s.sh.sound, selfTest := s.sh.selfTest, dark := s.sh.dark, ringsFailed := s.sh.ringsFailed } } := by
  unfold trigger
  split
  · split <;> rfl
  · rfl
  · split <;> rfl

theorem soundFails_fitted {s : State} (hfitted : s.sh.sound ≠ 0) :
    soundFails s = trigger 2 { s with sh := { s.sh with sound := 3, selfTest := false } } := if_neg hfitted

/-- Whether or not a failed circuit is one too many, it is noted, and of the state only the shape's record changes. -/
theorem circuitFailed_frame (circuit : Nat) (s : State) : circuitFailed circuit s = { s with sh := { (circuitFailed circuit s).sh with
    shape := s.sh.shape, dark := (darken [circuit] s).sh.dark, ringsFailed := (darken [circuit] s).sh.ringsFailed } } := by
  unfold circuitFailed
  dsimp only
  split
  · rw [trigger_frame]
    rfl
  · rfl

theorem mem_darken_dark (circuit : Nat) (s : State) : circuit ∈ (darken [circuit] s).sh.dark := by simp [darken]

theorem mem_darken_ringsFailed (circuit : Nat) (s : State) :
    s.ringOfPort s.circuitShape circuit ∈ (darken [circuit] s).sh.ringsFailed := by simp [darken]

/-! ### Circuits being set (R367, R368, R372) -/

/-- The shape's and the Sound's record apart from the failed circuits. -/
def State.shBesideDark (s : State) : ShapeSt := { s.sh with dark := [], ringsFailed := [] }

theorem relit_shBesideDark (s : State) (l : Nat) : (s.relit l).shBesideDark = s.shBesideDark := by
  unfold State.relit
  dsimp only
  split <;> rfl

/-- A link's return to service lights its circuit again, and changes nothing else of the Sound (R408). -/
theorem restoreLink_shBesideDark (l : Nat) (s : State) : (restoreLink l s).shBesideDark = s.shBesideDark := by
  refine Eq.trans ?_ (relit_shBesideDark s l)
  have hsh : (restoreLink l s).sh = (onLink l Link.restored (s.relit l)).sh := (congrArg State.sh (machineEvent_told ..) :)
  rw [onLink_frame] at hsh
  rw [State.shBesideDark, hsh]
  rfl

theorem joinEnds_shBesideDark (c : Nat) (s : State) : (joinEnds c s).shBesideDark = s.shBesideDark := by
  unfold joinEnds
  dsimp only
  split
  · split
    · exact restoreLink_shBesideDark ..
    · rfl
  · rfl

/-- The shape's and the Sound's record once the circuits being set are set. -/
def State.shSet (s : State) : ShapeSt :=
  { s.sh with
    setting := false, setCols := []
    set := if s.sh.phase = .idle then s.sh.set else BitVec.ofNat 2 s.sh.target.code
    extActive := if s.sh.phase = .idle ∧ s.sh.shape = .s446 then s.extOn else s.sh.extActive }

theorem circuitsSet_setting {s : State} (hsetting : s.sh.setting = true) :
    circuitsSet s = s.sh.setCols.foldl (fun a c => joinEnds c a) { s with sh := s.shSet } := if_pos hsetting

theorem circuitsSet_shBesideDark {s : State} (hsetting : s.sh.setting = true) :
    (circuitsSet s).shBesideDark = { s.shSet with dark := [], ringsFailed := [] } := by
  rw [circuitsSet_setting hsetting]
  exact foldl_keeps State.shBesideDark _ (fun a c => joinEnds_shBesideDark c a) _ _

theorem runs_soundCircuitsSet (s : State) (hsetting : s.sh.setting = true) : Runs .soundCircuitsSet s (fun t =>
    t.sh.setting = false ∧ (s.sh.phase ≠ .idle → t.sh.set = BitVec.ofNat 2 s.sh.target.code) ∧ t.sh.shape = s.sh.shape ∧
    (s.sh.setCols = [] → t = { s with sh := t.sh })) := by
  have hview := circuitsSet_shBesideDark hsetting
  have hset : (circuitsSet s).sh.set = s.shSet.set := (congrArg ShapeSt.set hview :)
  refine ⟨_, exec_soundCircuitsSet s, (congrArg ShapeSt.setting hview :), fun hbusy => ?_, (congrArg ShapeSt.shape hview :),
    fun hnone => ?_⟩
  · exact hset.trans (if_neg hbusy)
  · rw [circuitsSet_setting hsetting, hnone]
    rfl

/-! ### Service (R379, R382) -/

section
variable {s : State}

theorem soundEnter_flat (hidle : s.sh.phase = .idle) (hflat : s.sh.shape.is3D = false) :
    soundEnter s = .ok { s with sh := { s.sh with sound := 2, selfTest := false } } := by
  simp [soundEnter, hidle, hflat]

theorem soundEnter_3D (hidle : s.sh.phase = .idle) (h3D : s.sh.shape.is3D = true) :
    soundEnter s = .ok { s with sh := { (beginChange .s166 5 s).sh with enterDue := true } } := by
  simp only [soundEnter, hidle, h3D, if_true]
  rfl

theorem soundEnter_prep (hprep : s.sh.phase = .prep) :
    soundEnter s = .ok { s with sh := { (abandonOrder 5 s).sh with sound := 2, selfTest := false } } := by
  simp only [soundEnter, hprep]
  rfl

theorem soundEnter_hold_3D (hhold : s.sh.phase = .hold) (h3D : s.sh.target.is3D = true) : soundEnter s = .error 4 := by
  simp [soundEnter, hhold, h3D]

theorem soundEnter_hold_flat (hhold : s.sh.phase = .hold) (hflat : s.sh.target.is3D = false) :
    soundEnter s = .ok { s with sh := { s.sh with enterDue := true } } := by
  simp [soundEnter, hhold, hflat]

/-- The change that ENTER begins from a 3D shape holds at once (R373). -/
theorem beginChange_phase_of_3D (h3D : s.sh.shape.is3D = true) (target : Shape) (cause : Nat) :
    (beginChange target cause s).sh.phase = .hold := by
  refine if_neg (fun hflat => ?_)
  rw [eq_of_beq hflat] at h3D
  cases h3D

theorem soundLeave_starts (hout : s.sh.sound = 2 ∨ s.sh.sound = 3) (hheld : s.heldOff 16 = false) (hin : (s.tray 16).svc ≠ .absent) :
    soundLeave s = .ok { s.setTray 16 { s.tray 16 with contactor := true } with sh := { s.sh with selfTest := true } } := by
  obtain ⟨⟨⟨hleak, hot⟩, hres⟩, hflow⟩ : (((s.ttherm 16).leakCut = false ∧ (s.ttherm 16).ot = false) ∧ s.therm.resCut = false) ∧
      s.therm.flowLost = false := by
    simpa [State.heldOff] using hheld
  have hpresent : ((s.tray 16).svc == .absent) = false := beq_eq_false_iff_ne.2 hin
  rw [soundLeave, if_pos hout]
  simp [hleak, hot, hres, hflow, hpresent]

theorem setupNote_tray (p a v : Nat) (s : State) (u : Nat) : (setupNote p a v s).tray u = s.tray u := by
  rw [State.tray, setupNote_trays]
  rfl

theorem runs_soundServiceLeave (port : BitVec 4) (h : s.takesWrites = true) (hout : s.sh.sound = 2 ∨ s.sh.sound = 3)
    (hheld : s.heldOff 16 = false) (hin : (s.tray 16).svc ≠ .absent) : Runs (.soundServiceLeave (.window port)) s (fun t =>
      t.sh = { s.sh with selfTest := true } ∧ (t.tray 16).contactor = true ∧ (∀ u, u ≠ 16 → t.tray u = s.tray u) ∧
      t = { logged s t with sh := t.sh, trays := t.trays }) := by
  refine runs_of_regOp_ok h (exec_soundServiceLeave_window ..) (soundLeave_starts hout hheld hin)
    ⟨setupNote_sh .., ?_, fun u hu => ?_, by rw [setupNote_logged]; rfl⟩
  · rw [setupNote_tray]
    exact congrArg Tray.contactor (setTray_self ..)
  · rw [setupNote_tray]
    exact setTray_ne s _ hu

theorem soundLeave_in (hin : s.sh.sound = 0 ∨ s.sh.sound = 1) : soundLeave s = .ok s := by
  refine if_neg ?_
  rcases hin with h | h <;> rw [h] <;> decide

theorem selfTestDone_running (ok : Bool) (hrun : s.sh.selfTest = true) : selfTestDone ok s = { s with sh :=
    if ok then { s.sh with selfTest := false, sound := 1, set := 3, trained := false, ringsFailed := [] }
    else { s.sh with selfTest := false, sound := 3 } } := if_pos hrun

end

/-! ### External splices (R368, R378) -/

/-- The Sound begins to change a splice's circuits: of the state only what it is setting changes. -/
theorem changeSplices_frame (cols : List Nat) (s : State) : changeSplices cols s = { s with sh := { s.sh with
    setting := (changeSplices cols s).sh.setting, setCols := (changeSplices cols s).sh.setCols } } := by
  unfold changeSplices
  split <;> rfl

theorem Fld_low5 (val : Word) : Fld val 0 5 = val.toNat % 32 := by simp [Fld, bitsAt]

/-- SOUND_EXT_e names a column that an attached tray or another enabled external splice uses. -/
def State.spliceUsed (s : State) (e : Nat) (val : Word) : Prop :=
  trayAtCol (Fld val 0 2) (Fld val 2 2) ≠ none ∨ ∃ d ∈ s.extOn, d ≠ e ∧ (tget 0 d s.sh.ext).toNat % 16 = Fld val 0 4

theorem spliceUsed_iff (s : State) (e : Nat) (val : Word) : s.spliceUsed e val ↔
    ((trayAtCol (Fld val 0 2) (Fld val 2 2)).isSome ||
      s.extOn.any (fun d => d != e && decide ((tget 0 d s.sh.ext).toNat % 16 = Fld val 0 4))) = true := by
  simp [State.spliceUsed, Option.isSome_iff_ne_none]

theorem extWrite_used {e : Nat} {val : Word} {s : State} (hused : s.spliceUsed e val) : extWrite e val s = .error 3 :=
  if_pos ((spliceUsed_iff s e val).1 hused)

/-- A legal write stores the item, and changes the splices' record and what the Sound is setting. -/
theorem extWrite_free {e : Nat} {val : Word} {s : State} (hfree : ¬s.spliceUsed e val) : ∃ setting cols, extWrite e val s =
    .ok (storeItem (0xC0100 + 4 * e) (w32 (val.toNat % 32)) { s with sh := { s.sh with
      ext := tset 0 e (BitVec.ofNat 5 (val.toNat % 32)) s.sh.ext, setting := setting, setCols := cols } }) := by
  unfold extWrite
  dsimp only
  rw [if_neg (fun hused => hfree ((spliceUsed_iff s e val).2 hused)), Fld_low5]
  split
  · rw [changeSplices_frame]
    exact ⟨_, _, rfl⟩
  · exact ⟨_, _, rfl⟩

theorem runs_soundExtWrite (s : State) (port : BitVec 4) (e : Fin 24) (val : Word) (h : s.takesWrites = true)
    (hfree : ¬s.spliceUsed e.val val) : Runs (.soundExtWrite port e val) s (fun t =>
      tget 0 e.val t.sh.ext = BitVec.ofNat 5 (val.toNat % 32) ∧ (∀ d, d ≠ e.val → tget 0 d t.sh.ext = tget 0 d s.sh.ext) ∧
      (s.pwr.sag = 0 → tget none (0xC0100 + 4 * e.val) t.store = some (w32 (val.toNat % 32)))) := by
  obtain ⟨setting, cols, hok⟩ := extWrite_free hfree
  refine runs_of_regOp_ok h (exec_soundExtWrite ..) hok ?_
  rw [setupNote_sh, setupNote_store, storeItem_sh]
  exact ⟨tget_tset_self .., fun d hd => tget_tset_ne _ _ _ hd, fun hsag => storeItem_store_self _ _ _ hsag⟩

/-- Settles O33: what a trigger leaves of the Sound, the circuits set, each service order by the phase it comes in, and a splice's
write. -/
theorem soundFollowsItsOrders : Obligations.SoundFollowsItsOrders := by
  unfold Obligations.SoundFollowsItsOrders
  intro s port circuit e val
  refine ⟨fun hfitted => ⟨_, exec_soundFault s, ?_⟩, runs_soundCircuitsSet s, ⟨_, exec_soundCircuitFailed circuit s, ?_⟩,
    fun h => ⟨fun hidle hflat => ?_, fun hidle h3D => ?_, fun hprep => ?_, fun hhold h3D => ?_, fun hhold hflat => ?_,
      fun hout hheld hin => ?_, fun hin => ?_⟩,
    fun ok hrun => ⟨_, exec_soundSelfTestDone ok s, ?_⟩, fun h => ⟨fun hused => ?_, fun htray hnamed => ?_⟩⟩
  · rw [soundFails_fitted hfitted, trigger_frame]
    exact ⟨rfl, rfl, rfl⟩
  · rw [circuitFailed_frame]
    exact ⟨mem_darken_dark .., mem_darken_ringsFailed .., rfl, rfl⟩
  · refine runs_of_shapeOrder h (exec_soundServiceEnter_window ..) (soundEnter_flat hidle hflat) (fun t hsh hframe => ⟨?_, hframe⟩)
    rw [hsh]
  · refine runs_of_shapeOrder h (exec_soundServiceEnter_window ..) (soundEnter_3D hidle h3D) (fun t hsh hframe => ?_)
    rw [hsh] at hframe ⊢
    exact ⟨beginChange_phase_of_3D h3D .s166 5, rfl, rfl, hframe⟩
  · refine runs_of_shapeOrder h (exec_soundServiceEnter_window ..) (soundEnter_prep hprep) (fun t hsh hframe => ?_)
    rw [hsh] at hframe ⊢
    exact ⟨rfl, rfl, rfl, hframe⟩
  · exact runs_of_regOp_error h (exec_soundServiceEnter_window ..) (soundEnter_hold_3D hhold h3D) rfl
  · refine runs_of_shapeOrder h (exec_soundServiceEnter_window ..) (soundEnter_hold_flat hhold hflat) (fun t hsh hframe => ?_)
    rwa [hsh] at hframe
  · exact runs_soundServiceLeave port h hout hheld hin
  · exact runs_of_regOp_ok h (exec_soundServiceLeave_window ..) (soundLeave_in hin) (setupNote_logged ..)
  · rw [selfTestDone_running ok hrun]
    cases ok <;> exact ⟨rfl, rfl, rfl⟩
  · exact runs_of_regOp_error h (exec_soundExtWrite ..) (extWrite_used hused) rfl
  · exact runs_soundExtWrite s port e val h (fun hused => hused.elim (absurd htray) hnamed)

end Sys2Proof.Machine
end

section
/-! PROOFS. Packets (O30): they are forwarded, retried at a hop, acknowledged, re-injected and given up. -/

namespace Sys2Proof.Machine

open Sys2Proof

theorem exec_packetArrival (pid : Nat) (good : Bool) (s : State) :
    exec (.packetArrival pid good) s = .next (packetArrives pid good s) := rfl
theorem exec_landReceived (pid : Nat) (s : State) : exec (.landReceived pid) s = .next (landArrives pid s) := rfl
theorem exec_nackReceived (pid : Nat) (s : State) : exec (.nackReceived pid) s = .next (nackArrives pid s) := rfl
theorem exec_ackTimeout (tag : Nat) (s : State) : exec (.ackTimeout tag) s = .next (ackExpired tag s) := rfl
theorem exec_duplicateRecordExpiry (tag : Nat) (s : State) :
    exec (.duplicateRecordExpiry tag) s = .next (dupExpired tag s) := rfl

/-! ### Routing on (R391, R392, R395) -/

@[simp] theorem inShape_kind (s : State) (p : Packet) : (s.inShape p).kind = p.kind := by
  unfold State.inShape
  dsimp only
  split <;> rfl

@[simp] theorem inShape_len (s : State) (p : Packet) : (s.inShape p).len = p.len := by
  unfold State.inShape
  dsimp only
  split <;> rfl

/-- A packet of a listed KIND and legal length goes where routing sends it. -/
theorem forward_send {s : State} {p q : Packet} {d : Hop} (hkind : p.kind ≠ .reserved) (hlen : p.len ≤ 2048)
    (hroute : route s (s.inShape p) = .send d q) :
    forward p s = { s with fab := { s.fab with pkts := s.fab.pkts ++ [q] } } := by
  have hlisted : ¬((s.inShape p).kind == .reserved || decide (2048 < (s.inShape p).len)) = true := by
    simpa using ⟨hkind, hlen⟩
  unfold forward
  dsimp only
  rw [if_neg hlisted, hroute]

/-- Short of its eighth failure, a packet that has crossed no link is only counted and stays (R403). -/
theorem calmRetry_first {s : State} {p : Packet} (htries : p.tries < 7) (hvia : p.via = none) :
    calmRetry p s = { s with fab := { s.fab with
      retries := satInc s.fab.retries, pkts := s.fab.pkts ++ [{ p with tries := p.tries + 1 }] } } := by
  unfold calmRetry
  dsimp only
  rw [if_neg (Nat.not_le.2 htries), hvia]

/-! ### The arrival of a packet (R62, R373, R403) -/

section
variable {s : State} {pid : Nat} {p : Packet} (hpkt : s.pkt? pid = some p)
include hpkt

theorem packetArrives_waits (hwaits : s.pktWaits p = true) (good : Bool) : packetArrives pid good s = s := by
  simp only [packetArrives, hpkt, hwaits, if_true]

theorem packetArrives_gust (hgoes : s.pktWaits p = false) (hgust : p.calm = false) (good : Bool) :
    packetArrives pid good s = forward (if good then p else { p with poison := true }) (takePkt pid s) := by
  simp [packetArrives, hpkt, hgoes, hgust]

theorem packetArrives_calm_whole (hgoes : s.pktWaits p = false) (hcalm : p.calm = true) (hwhole : p.whole = true) :
    packetArrives pid true s = askAll (forward p (takePkt pid s)) := by
  simp [packetArrives, hpkt, hgoes, hcalm, hwhole]

theorem packetArrives_calm_damaged (hgoes : s.pktWaits p = false) (hcalm : p.calm = true) {good : Bool}
    (hbad : good = false ∨ p.whole = false) : packetArrives pid good s = askAll (calmRetry p (takePkt pid s)) := by
  simp only [packetArrives, hpkt, hgoes, hcalm, if_true]
  rw [if_neg Bool.false_ne_true, if_neg (by rcases hbad with h | h <;> simp [h])]

end

/-! ### Acknowledgements and their absence (R402, R404) -/

theorem landArrives_ackAt {s : State} {pid : Nat} {p : Packet} (hack : s.ackAt pid .land = some p) :
    landArrives pid s = release p.tag (takePkt pid s) := by
  simp only [landArrives, hack]

theorem nackArrives_ackAt {s : State} {pid : Nat} {p : Packet} (hack : s.ackAt pid .nack = some p) :
    nackArrives pid s = askAll (reinject p.tag (takePkt pid s)) := by
  simp only [nackArrives, hack]

theorem ackExpired_due {s : State} {tag : Nat} {k : Kept} (hkept : s.fab.kept.find? (fun x => x.pkt.tag == tag) = some k)
    (hdue : k.tick.toNat + 100000 ≤ (s.originTime k.pkt).toNat) : ackExpired tag s = askAll (reinject tag s) := by
  refine if_pos (List.any_eq_true.2 ⟨k, List.mem_of_find?_eq_some hkept, ?_⟩)
  have htag := List.find?_some hkept
  simpa using ⟨by simpa using htag, hdue⟩

theorem release_kept (tag : Nat) (s : State) (k : Kept) : k ∈ (release tag s).fab.kept ↔ k ∈ s.fab.kept ∧ k.pkt.tag ≠ tag := by
  simp [release]

theorem takePkt_pkts (pid : Nat) (s : State) (x : Packet) : x ∈ (takePkt pid s).fab.pkts ↔ x ∈ s.fab.pkts ∧ x.pid ≠ pid := by
  simp [takePkt]

theorem dupExpired_dups (tag : Nat) (s : State) (d : DupRec) :
    d ∈ (dupExpired tag s).fab.dups ↔ d ∈ s.fab.dups ∧ ¬(d.tag = tag ∧ d.tick.toNat + 400000 ≤ s.win.tb.toNat) := by
  simp [dupExpired, imp_iff_not_or]

/-! ### Re-injection (R404) -/

/-- The copy of a kept packet that its origin injects again. -/
def State.copyOf (s : State) (k : Kept) : Packet := { k.pkt with calm := true, reinj := true, pid := s.fab.nextPid }

/-- A state `u` after the copy `q` of a kept packet has been injected in `s`: with a new ECRC and counted, its TAGID marked as
injected again, in the fabric alone. -/
def Reinjected (s : State) (tag : Nat) (q : Packet) (u : State) : Prop :=
  u.fab.reinj = satInc s.fab.reinj ∧ u.fab.nextPid = s.fab.nextPid + 1 ∧ { q with ecrc := q.crc } ∈ u.fab.pkts ∧
  (∀ x ∈ u.fab.kept, x.pkt.tag = tag → x.again = true ∧ x.tick = s.originTime q) ∧ u = { s with fab := u.fab }

theorem reinject_reinjected {s : State} {tag : Nat} {k : Kept} (hkept : s.fab.kept.find? (fun x => x.pkt.tag == tag) = some k)
    (hfirst : k.again = false) : Reinjected s tag (s.copyOf k) (reinject tag s) := by
  simp only [reinject, hkept, hfirst]
  refine ⟨rfl, rfl, List.mem_append_right _ (List.mem_singleton_self _), fun x hx htag => ?_, rfl⟩
  obtain ⟨y, -, rfl⟩ := List.mem_map.1 hx
  by_cases hy : (y.pkt.tag == tag) = true
  · rw [if_pos hy]
    exact ⟨rfl, rfl⟩
  · rw [if_neg hy] at htag
    exact absurd (beq_iff_eq.2 htag) hy

theorem reinject_again {s : State} {tag : Nat} {k : Kept} (hkept : s.fab.kept.find? (fun x => x.pkt.tag == tag) = some k)
    (hagain : k.again = true) : reinject tag s = giveUp { k.pkt with via := none } s := by
  simp only [reinject, hkept, hagain, if_true]

/-! ### Giving up (R405): the packet is counted once, and neither its fault nor a channel's read counts another -/

theorem lateFault_fab (who : Who) (h : Option Nat) (c l a : Nat) (s : State) : (lateFault who h c l a s).fab = s.fab := by
  unfold lateFault
  dsimp only
  split
  · rfl
  · exact deliver_fab ..

theorem srcFault_fab (who : Who) (c l a : Nat) (s : State) : (srcFault who c l a s).fab = s.fab := by
  unfold srcFault
  split
  · rfl
  · exact deliver_fab ..

theorem gotPiece_fab (p : Packet) (data : Option (List Byte)) (s : State) : (gotPiece p data s).fab = s.fab := by
  unfold gotPiece
  split <;> rfl

theorem inject_giveups (p : Packet) (s : State) : (inject p s).fab.giveups = s.fab.giveups := rfl

theorem noticeChunk_giveups (who : Who) (w : Option Nat) (d i n : Nat) (s : State) :
    (noticeChunk who w d i n s).fab.giveups = s.fab.giveups := by
  unfold noticeChunk
  split
  · dsimp only
    split <;> rfl
  · rfl

theorem failWrite_giveups (c : Nat) (p : Packet) (s : State) : (failWrite c p s).fab.giveups = s.fab.giveups := by
  unfold failWrite
  dsimp only
  split
  · rw [noticeChunk_giveups, lateFault_fab]
    rfl
  · exact inject_giveups ..

theorem failRead_giveups (c : Nat) (p : Packet) (s : State) : (failRead c p s).fab.giveups = s.fab.giveups := by
  unfold failRead
  dsimp only
  split
  · rw [gotPiece_fab, srcFault_fab]
    rfl
  · rfl

theorem failPacket_giveups (c : Nat) (p : Packet) (s : State) : (failPacket c p s).fab.giveups = s.fab.giveups := by
  unfold failPacket
  split
  · exact failWrite_giveups ..
  · exact failRead_giveups ..
  · exact failRead_giveups ..
  · rfl

theorem failLink_giveups (l r : Nat) (s : State) : (failLink l r s).fab.giveups = s.fab.giveups := by
  rw [failLink, onLink_frame]

theorem countGiveup_giveups (p : Packet) (s : State) : (countGiveup p s).fab.giveups = satInc s.fab.giveups := by
  unfold countGiveup
  dsimp only
  split
  · exact failLink_giveups ..
  · rfl

theorem giveUp_giveups (p : Packet) (s : State) : (giveUp p s).fab.giveups = satInc s.fab.giveups :=
  (failPacket_giveups ..).trans (countGiveup_giveups p s)

theorem chanRead_fab (key piece addr len : Nat) (s : State) : (chanRead key piece addr len s).fab = s.fab := by
  unfold chanRead
  dsimp only
  split <;> rfl

theorem askReads_giveups (key : Nat) (s : State) : (askReads key s).fab.giveups = s.fab.giveups := by
  unfold askReads
  dsimp only
  split
  · refine foldl_keeps (fun a => a.fab.giveups) _ (fun a x => ?_) _ s
    split
    · exact inject_giveups ..
    · exact congrArg Fab.giveups (chanRead_fab ..)
  · rfl

theorem askAll_giveups (s : State) : (askAll s).fab.giveups = s.fab.giveups :=
  foldl_keeps (fun a => a.fab.giveups) _ (fun a k => askReads_giveups k a) _ s

theorem askAll_reinject_again {s : State} {tag : Nat} {k : Kept}
    (hkept : s.fab.kept.find? (fun x => x.pkt.tag == tag) = some k) (hagain : k.again = true) :
    (askAll (reinject tag s)).fab.giveups = satInc s.fab.giveups := by
  rw [askAll_giveups, reinject_again hkept hagain, giveUp_giveups]

/-! ### O30 -/

/-- Settles O30: an arrival by its packet's class and checks; a NACK and a timeout both by the re-injection of what the origin
kept, which the packet taken from the fabric does not touch. -/
theorem packetsAreForwardedRetriedAndAcknowledged : Obligations.PacketsAreForwardedRetriedAndAcknowledged := by
  unfold Obligations.PacketsAreForwardedRetriedAndAcknowledged
  intro s pid p moved
  refine ⟨fun hpkt hgoes hkind hlen => ⟨fun d q => ⟨fun hroute => ⟨fun hgust => ?_, fun hcalm hwhole => ?_⟩,
      fun hgust hroute => ?_⟩, fun good hbad hcalm htries hvia => ?_⟩,
    fun hpkt hwaits good => ⟨_, exec_packetArrival .., packetArrives_waits hpkt hwaits good⟩,
    fun hack => ⟨_, exec_landReceived .., ?_⟩, fun k hkept => ?_,
    fun tag => ⟨_, exec_duplicateRecordExpiry .., rfl, dupExpired_dups tag s⟩⟩
  · exact ⟨_, exec_packetArrival .., (packetArrives_gust hpkt hgoes hgust true).trans (forward_send hkind hlen hroute)⟩
  · exact ⟨_, exec_packetArrival .., (packetArrives_calm_whole hpkt hgoes hcalm hwhole).trans
      (congrArg askAll (forward_send hkind hlen hroute))⟩
  · exact ⟨_, exec_packetArrival .., (packetArrives_gust hpkt hgoes hgust false).trans (forward_send hkind hlen hroute)⟩
  · exact ⟨_, exec_packetArrival .., (packetArrives_calm_damaged hpkt hgoes hcalm hbad).trans
      (congrArg askAll (calmRetry_first htries hvia))⟩
  · rw [landArrives_ackAt hack]
    exact ⟨rfl, release_kept p.tag (takePkt pid s), takePkt_pkts pid s⟩
  · refine ⟨fun hfirst => ⟨fun hack => ⟨_, exec_nackReceived .., ?_⟩, fun hdue => ⟨_, exec_ackTimeout .., ?_⟩⟩,
      fun hagain => ⟨fun hack => ⟨_, exec_nackReceived .., ?_⟩, fun hdue => ⟨_, exec_ackTimeout .., ?_⟩⟩⟩
    · exact ⟨_, nackArrives_ackAt hack, reinject_reinjected (s := takePkt pid s) hkept hfirst⟩
    · exact ⟨_, ackExpired_due hkept hdue, reinject_reinjected hkept hfirst⟩
    · rw [nackArrives_ackAt hack]
      exact askAll_reinject_again (s := takePkt pid s) hkept hagain
    · rw [ackExpired_due hkept hdue]
      exact askAll_reinject_again hkept hagain

end Sys2Proof.Machine
end

section
/-! PROOFS. Rotating attention (O34): tile-steps, chunks, buffer releases and stalls, and the slab below 0.70 V. -/

namespace Sys2Proof.Machine

open Sys2Proof

theorem exec_attnTileStepDispatch (r : BitVec 12) (seq : DWord) (i tile : Nat) (s : State) :
    exec (.attnTileStepDispatch r seq i tile) s = .next (stepDispatch r.toNat seq i tile s) := rfl
theorem exec_attnTileStepEnd (r : BitVec 12) (seq : DWord) (i tile : Nat) (s : State) :
    exec (.attnTileStepEnd r seq i tile) s = .next (stepEnd r.toNat seq i tile s) := rfl
theorem exec_attnChunkForward (r : BitVec 12) (seq : DWord) (i t k : Nat) (s : State) :
    exec (.attnChunkForward r seq i t k) s = .next (chunkForward r.toNat seq i t k s) := rfl
theorem exec_attnBufferRelease (r : BitVec 12) (seq : DWord) (i t : Nat) (s : State) :
    exec (.attnBufferRelease r seq i t) s = .next (bufferRelease r.toNat seq i t s) := rfl
theorem exec_attnStall (r : BitVec 12) (seq : DWord) (i t : Nat) (sender : Bool) (s : State) :
    exec (.attnStall r seq i t sender) s = .next (attnStall r.toNat seq i t sender s) := rfl

/-! ### The progress of a slab (R438) -/

@[simp] theorem setSlab_seq (c : Cmd) (i : Nat) (v : AttnSlab) : (c.setSlab i v).seq = c.seq := rfl

@[simp] theorem setSlab_slab_self (c : Cmd) (i : Nat) (v : AttnSlab) : (c.setSlab i v).slab i = v := tget_tset_self _ _ _ _

@[simp] theorem setIsle_dispatched (s : State) (k : Nat) (v : Isle) : (s.setIsle k v).dispatched = s.dispatched := rfl

/-- The command is dispatched, and the progress of its slab `i` is as `P` says. -/
def State.SlabHas (t : State) (r : Nat) (seq : DWord) (i : Nat) (P : AttnSlab → Prop) : Prop :=
  ∃ x, t.cmd? r seq = some x ∧ P (x.slab i)

theorem cmd?_of_attn? {s : State} {r : Nat} {seq : DWord} {c : Cmd} (h : s.attn? r seq = some c) :
    s.cmd? r seq = some c := by
  unfold State.attn? at h
  split at h
  next hd =>
    split at h
    · exact hd.trans h
    · cases h
  next => cases h

theorem slabHas_of_dispatched {a t : State} {r : Nat} {seq : DWord} {i : Nat} {P : AttnSlab → Prop}
    (ht : t.dispatched = a.dispatched) (h : a.SlabHas r seq i P) : t.SlabHas r seq i P := by
  obtain ⟨x, hx, hP⟩ := h
  exact ⟨x, (cmd?_of_dispatched ht r seq).trans hx, hP⟩

/-- Noting the poisoned units that a command's reads met leaves its slabs as they are (R697). -/
theorem reportPoison_slabHas {s : State} {r : Nat} {seq : DWord} {i : Nat} {P : AttnSlab → Prop} (m : List Nat)
    (l : List (Nat × Nat)) (h : s.SlabHas r seq i P) : (reportPoison r seq m l s).SlabHas r seq i P := by
  obtain ⟨x, hx, hP⟩ := h
  obtain ⟨p, hp⟩ := reportPoison_cmd? r seq m l hx
  exact ⟨_, hp, hP⟩

/-- What a command's change gives a slab reads back, whatever was written or sent before. -/
theorem modCmd_slabHas {s a : State} {r : Nat} {seq : DWord} {c : Cmd} {i : Nat} {v : AttnSlab} {f : Cmd → Cmd}
    {P : AttnSlab → Prop} (hf : ∀ d, (f d).seq = d.seq) (hslab : (f c).slab i = v) (hc : s.attn? r seq = some c)
    (ha : a.dispatched = s.dispatched) (hP : P v) : (modCmd r seq f a).SlabHas r seq i P :=
  ⟨_, modCmd_cmd? f hf ((cmd?_of_dispatched ha r seq).trans (cmd?_of_attn? hc)), hslab.symm ▸ hP⟩

theorem modCmd_setSlab_slabHas {s a : State} {r : Nat} {seq : DWord} {c : Cmd} {i : Nat} {v : AttnSlab}
    {P : AttnSlab → Prop} (hc : s.attn? r seq = some c) (ha : a.dispatched = s.dispatched) (hP : P v) :
    (modCmd r seq (fun c => c.setSlab i v) a).SlabHas r seq i P :=
  modCmd_slabHas (fun _ => setSlab_seq ..) (setSlab_slab_self ..) hc ha hP

/-! ### A slab whose module is at 0.70 V or above -/

section
variable {s : State} {r : Nat} {seq : DWord} {c : Cmd} {i : Nat} (hc : s.attn? r seq = some c)
  (hi : i < 16 * c.mods.length) (hup : s.slabPaused c i = false)
include hc hi hup

/-- A tile-step is dispatched to a core of the isle (R441). -/
theorem stepDispatch_runs {tile : Nat} (htile : tile < c.attRT) (hnext : tget 0 tile (c.slab i).next < c.attE)
    (hidle : (c.slab i).running.any (fun x => x.1 == tile) = false) (hkept : attCode i tile ∉ c.dropped)
    (hpause : (s.die ((placeOf c.mods i).w * 4 + (placeOf c.mods i).die)).pause = false)
    (hwarm : (s.die ((placeOf c.mods i).w * 4 + (placeOf c.mods i).die)).cold = false) :
    (stepDispatch r seq i tile s).SlabHas r seq i (fun x => x.running.any (fun y => y.1 == tile) = true) := by
  unfold stepDispatch
  rw [hc]
  dsimp only
  rw [if_pos (by simp [hup, hi, htile, hnext, hidle, hkept, hpause, hwarm])]
  exact modCmd_setSlab_slabHas hc (setIsle_dispatched ..) (by simp)

/-- A tile-step whose chunks are masked or present ends, and the tile's next step is due (R441, R442). -/
theorem stepEnd_ends {tile : Nat} (hrun : (c.slab i).running.any (fun x => x.1 == tile) = true)
    (hchunks : ∀ k < c.attRT, c.attSkips i (tget 0 tile (c.slab i).next) tile k = true ∨
      c.attPresent i (tget 0 tile (c.slab i).next) k = true) :
    (stepEnd r seq i tile s).SlabHas r seq i (fun x => tget 0 tile x.next = tget 0 tile (c.slab i).next + 1 ∧
      x.running.any (fun y => y.1 == tile) = false) := by
  unfold stepEnd
  rw [hc]
  dsimp only
  rw [if_pos (by simpa [hup, hi] using And.intro hrun hchunks)]
  exact reportPoison_slabHas _ _
    (modCmd_slabHas (fun _ => rfl) (setSlab_slab_self c i _) hc (postAll_dispatched ..) (by simp))

/-- A chunk is sent after those before it (R439). -/
theorem chunkForward_sends {t k : Nat} (hnext : t + 2 ≤ c.attE) (hk : k < c.attRT) (hpresent : c.attPresent i t k = true)
    (hgranted : c.attGranted i t = true) (hnew : attCode t k ∉ (c.slab i).sent)
    (hbefore : ∀ q < k, attCode t q ∈ (c.slab i).sent) :
    (chunkForward r seq i t k s).SlabHas r seq i (fun x => attCode t k ∈ x.sent) := by
  unfold chunkForward
  rw [hc]
  dsimp only
  rw [if_pos (by simpa [hup, hi, hnext, hk, hpresent, hgranted, hnew] using hbefore)]
  exact modCmd_setSlab_slabHas hc (contribute_dispatched ..) (by simp)

/-- A buffer whose step every tile has ended goes back to the predecessor (R439, R440). -/
theorem bufferRelease_releases {t : Nat} (hfirst : 1 ≤ t) (hlast : t + 3 ≤ c.attE) (hended : c.attEnded i t = true)
    (hnew : t ∉ (c.slab i).released) :
    (bufferRelease r seq i t s).SlabHas r seq i (fun x => t ∈ x.released) := by
  unfold bufferRelease
  rw [hc]
  dsimp only
  rw [if_pos (by simp [hup, hi, hfirst, hlast, hended, hnew])]
  exact modCmd_setSlab_slabHas hc ((inject_dispatched ..).trans (rearm_dispatched ..)) (by simp)

/-- A receiver that has waited too long records every chunk its step misses as present (R448). -/
theorem attnStall_receiver {t : Nat} (hnew : t * 2 ∉ (c.slab i).stalls) (hstep : t < c.attE)
    (hlate : 1000000 ≤ s.slabWait c i (c.slab i).lastChunk) (hmiss : ∃ k < c.attRT, c.attPresent i t k = false) :
    (attnStall r seq i t false s).SlabHas r seq i (fun x => t * 2 ∈ x.stalls ∧
      ∀ k < c.attRT, c.attPresent i t k = false → attCode t k ∈ x.present) := by
  have hmem : ∀ k, k ∈ (List.range c.attRT).filter (fun k => !(c.attPresent i t k)) ↔
      k < c.attRT ∧ c.attPresent i t k = false := by simp
  unfold attnStall
  rw [hc]
  dsimp only
  rw [if_pos (by simp [hup, hi, hnew, b2n])]
  rw [if_neg Bool.false_ne_true]
  split
  next hnone =>
    obtain ⟨k, hk⟩ := hmiss
    exact absurd ((hmem k).2 hk) (hnone ▸ List.not_mem_nil)
  next =>
    rw [if_pos (by simp [hstep, hlate])]
    refine slabHas_of_dispatched (deliver_dispatched ..) (modCmd_setSlab_slabHas hc rfl ⟨by simp [b2n], fun k hk hmissing => ?_⟩)
    exact List.mem_append_right _ (List.mem_map_of_mem ((hmem k).2 ⟨hk, hmissing⟩))

/-- A sender that has waited too long takes the buffer as released (R448). -/
theorem attnStall_sender {t : Nat} (hnew : t * 2 + 1 ∉ (c.slab i).stalls) (hstep : t + 2 ≤ c.attE)
    (hwait : c.attGranted i t = false) (hlate : 1000000 ≤ s.slabWait c i (c.slab i).lastGrant) :
    (attnStall r seq i t true s).SlabHas r seq i (fun x => t * 2 + 1 ∈ x.stalls ∧ t ∈ x.granted) := by
  unfold attnStall
  rw [hc]
  dsimp only
  rw [if_pos (by simp [hup, hi, hnew, b2n]), if_pos rfl, if_pos (by simp [hstep, hwait, hlate])]
  exact slabHas_of_dispatched (deliver_dispatched ..) (modCmd_setSlab_slabHas hc rfl (by simp [b2n]))

end

/-! ### A slab whose module is below 0.70 V (R450) -/

section
variable {s : State} {r : Nat} {seq : DWord} {c : Cmd} {i : Nat} (hc : s.attn? r seq = some c)
  (hlow : s.slabPaused c i = true)
include hc hlow

theorem stepDispatch_paused (tile : Nat) : stepDispatch r seq i tile s = s := by
  unfold stepDispatch
  rw [hc]
  exact if_neg (by simp [hlow])

theorem stepEnd_paused (tile : Nat) : stepEnd r seq i tile s = s := by
  unfold stepEnd
  rw [hc]
  exact if_neg (by simp [hlow])

theorem chunkForward_paused (t k : Nat) : chunkForward r seq i t k s = s := by
  unfold chunkForward
  rw [hc]
  exact if_neg (by simp [hlow])

theorem bufferRelease_paused (t : Nat) : bufferRelease r seq i t s = s := by
  unfold bufferRelease
  rw [hc]
  exact if_neg (by simp [hlow])

theorem attnStall_paused (t : Nat) (sender : Bool) : attnStall r seq i t sender s = s := by
  unfold attnStall
  rw [hc]
  exact if_neg (by simp [hlow])

end

/-! ### O34 -/

/-- Settles O34: each operation's guards hold, and what it writes of the slab reads back through the packets, writes and events
it makes; below 0.70 V the first guard fails. -/
theorem attentionStepsAdvance : Obligations.AttentionStepsAdvance := by
  unfold Obligations.AttentionStepsAdvance
  intro s r seq c i tile step k hc hi
  refine ⟨fun hup => ⟨fun htile hnext hidle hkept hpause hwarm => ⟨_, exec_attnTileStepDispatch .., ?_⟩,
    fun hrun hchunks => ⟨_, exec_attnTileStepEnd .., ?_⟩,
    fun hnext hk hpresent hgranted hnew hbefore => ⟨_, exec_attnChunkForward .., ?_⟩,
    fun hfirst hlast hended hnew => ⟨_, exec_attnBufferRelease .., ?_⟩,
    fun hnew hstep hlate hmiss => ⟨_, exec_attnStall .., ?_⟩,
    fun hnew hstep hwait hlate => ⟨_, exec_attnStall .., ?_⟩⟩, fun hlow sender => ?_⟩
  · exact stepDispatch_runs hc hi hup htile hnext hidle hkept hpause hwarm
  · exact stepEnd_ends hc hi hup hrun hchunks
  · exact chunkForward_sends hc hi hup hnext hk hpresent hgranted hnew hbefore
  · exact bufferRelease_releases hc hi hup hfirst hlast hended hnew
  · exact attnStall_receiver hc hi hup hnew hstep hlate hmiss
  · exact attnStall_sender hc hi hup hnew hstep hwait hlate
  · exact ⟨⟨_, exec_attnTileStepDispatch .., stepDispatch_paused hc hlow tile⟩,
      ⟨_, exec_attnTileStepEnd .., stepEnd_paused hc hlow tile⟩,
      ⟨_, exec_attnChunkForward .., chunkForward_paused hc hlow step k⟩,
      ⟨_, exec_attnBufferRelease .., bufferRelease_paused hc hlow step⟩,
      ⟨_, exec_attnStall .., attnStall_paused hc hlow step sender⟩⟩

end Sys2Proof.Machine
end

section
/-! PROOFS. Operations that leave column memory as it is: one lemma each, in the order of the model's definitions. -/

namespace Sys2Proof.Machine

open Sys2Proof

@[simp] theorem foldl_cols {α : Type} (f : State → α → State) (hf : ∀ a x, (f a x).cols = a.cols) (l : List α) (s : State) :
    (l.foldl f s).cols = s.cols := foldl_keeps State.cols f hf l s

@[simp] theorem ite_cols (p : Prop) [Decidable p] (a b : State) :
    (if p then a else b).cols = if p then a.cols else b.cols := apply_ite State.cols p a b

/-! ### Shared operations: log, events, orders -/

@[simp] theorem markLow_cols (w : Nat) (s : State) : (markLow w s).cols = s.cols := by
  simp [markLow]

@[simp] theorem takeRec_cols (c : Nat) (r : LogRec) (s : State) : (takeRec c r s).cols = s.cols := by
  simp [takeRec]

@[simp] theorem addRam_cols (r : LogRec) (s : State) : (addRam r s).cols = s.cols := by
  simp [addRam]

@[simp] theorem writeWords_cols (lost : Nat) (s : State) : (writeWords lost s).cols = s.cols := by
  simp [writeWords]

@[simp] theorem illegal_cols (cause port off : Nat) (s : State) : (illegal cause port off s).cols = s.cols := rfl
@[simp] theorem touchSession_cols (session : Nat) (s : State) : (touchSession session s).cols = s.cols := rfl
@[simp] theorem rfAnswer_cols (session code : Nat) (body : List Nat) (s : State) :
    (rfAnswer session code body s).cols = s.cols := rfl

@[simp] theorem answerM_cols (m : Mgmt) (http con : Nat) (body : List Nat) (s : State) :
    (answerM m http con body s).cols = s.cols := by
  unfold answerM; split <;> rfl

@[simp] theorem tenWrite_cols (n : Nat) (addr : DWord) (bytes : List Byte) (s : State) :
    (tenWrite n addr bytes s).cols = s.cols := rfl
@[simp] theorem emitAll_cols (l : List Out) (s : State) : (emitAll l s).cols = s.cols := rfl
@[simp] theorem emitRead_cols (port fn : Nat) (addr : DWord) (len : Nat) (s : State) :
    (emitRead port fn addr len s).cols = s.cols := rfl

@[simp] theorem tenRead_cols (n : Nat) (addr : DWord) (len : Nat) (pu : RdPurpose) (s : State) :
    (tenRead n addr len pu s).cols = s.cols := by
  simp [tenRead]

@[simp] theorem dropReads_cols (q : HRead → Bool) (s : State) : (dropReads q s).cols = s.cols := rfl
@[simp] theorem sendFns_cols (port : Nat) (fns : List Nat) (s : State) : (sendFns port fns s).cols = s.cols := rfl
@[simp] theorem sendWaiting_cols (port fn : Nat) (s : State) : (sendWaiting port fn s).cols = s.cols := rfl
@[simp] theorem writeEvent_cols (n : Nat) (e : Event) (s : State) : (writeEvent n e s).cols = s.cols := rfl

@[simp] theorem holdEvent_cols (n : Nat) (e : Event) (s : State) : (holdEvent n e s).cols = s.cols := by
  simp [holdEvent]

/-! ### Column memory -/

@[simp] theorem countReads_cols (mods : List Nat) (runs : List (Nat × Nat)) (s : State) :
    (countReads mods runs s).cols = s.cols := by
  simp [countReads, countRefused_cols]

@[simp] theorem lateFault_cols (who : Who) (home : Option Nat) (cause len addr : Nat) (s : State) :
    (lateFault who home cause len addr s).cols = s.cols := by
  simp [lateFault, deliver_cols]

@[simp] theorem srcFault_cols (who : Who) (cause len addr : Nat) (s : State) :
    (srcFault who cause len addr s).cols = s.cols := by
  simp [srcFault, deliver_cols]

@[simp] theorem writeScratch_cols (s : State) (k a : Nat) (bytes : List Byte) :
    (s.writeScratch k a bytes).cols = s.cols := rfl
@[simp] theorem zeroScratch_cols (w : Nat) (s : State) : (zeroScratch w s).cols = s.cols := rfl

/-! ### Packets -/

@[simp] theorem inject_cols (p : Packet) (s : State) : (inject p s).cols = s.cols := rfl

@[simp] theorem contribute_cols (who : Who) (src dst : Place) (counter seq note : Nat) (runs : List (Nat × List Byte)) (s : State) :
    (contribute who src dst counter seq note runs s).cols = s.cols := by
  unfold contribute
  dsimp only
  refine (foldl_cols _ (fun a x => ?_) _ _).trans ?_ <;> simp

@[simp] theorem release_cols (tag : Nat) (s : State) : (release tag s).cols = s.cols := rfl
@[simp] theorem takePkt_cols (pid : Nat) (s : State) : (takePkt pid s).cols = s.cols := rfl
@[simp] theorem answerPkt_cols (k : PKind) (p : Packet) (s : State) : (answerPkt k p s).cols = s.cols := rfl

@[simp] theorem noticeChunk_cols (who : Who) (w : Option Nat) (die isle note : Nat) (s : State) :
    (noticeChunk who w die isle note s).cols = s.cols := by
  unfold noticeChunk; split <;> simp

@[simp] theorem failWrite_cols (cause : Nat) (p : Packet) (s : State) : (failWrite cause p s).cols = s.cols := by
  simp [failWrite]

@[simp] theorem deliverLate_cols (p : Packet) (s : State) : (deliverLate p s).cols = s.cols := by
  simp [deliverLate]

@[simp] theorem gotPiece_cols (p : Packet) (data : Option (List Byte)) (s : State) : (gotPiece p data s).cols = s.cols := by
  unfold gotPiece; split <;> rfl

@[simp] theorem failRead_cols (cause : Nat) (p : Packet) (s : State) : (failRead cause p s).cols = s.cols := by
  simp [failRead]

@[simp] theorem holdMachine_cols (e : Event) (s : State) : (holdMachine e s).cols = s.cols := by
  simp [holdMachine]

@[simp] theorem rehostEvents_cols (old : Option Nat) (s : State) : (rehostEvents old s).cols = s.cols := by
  unfold rehostEvents; split <;> simp

@[simp] theorem machineEvent_cols (code tenant detail : Nat) (part : Option (BitVec 6)) (arg0 : DWord) (arg1 : Word) (s : State) :
    (machineEvent code tenant detail part arg0 arg1 s).cols = s.cols := by
  unfold machineEvent; dsimp only; split <;> simp [deliver_cols]

@[simp] theorem onLink_cols (l : Nat) (f : Link → Link) (s : State) : (onLink l f s).cols = s.cols := by
  unfold onLink; split <;> rfl

@[simp] theorem failLink_cols (l reason : Nat) (s : State) : (failLink l reason s).cols = s.cols := by
  simp [failLink]

@[simp] theorem countGiveup_cols (p : Packet) (s : State) : (countGiveup p s).cols = s.cols := by
  unfold countGiveup; split <;> simp

@[simp] theorem failPacket_cols (cause : Nat) (p : Packet) (s : State) : (failPacket cause p s).cols = s.cols := by
  unfold failPacket; split <;> simp

@[simp] theorem giveUp_cols (p : Packet) (s : State) : (giveUp p s).cols = s.cols := by
  simp [giveUp]

@[simp] theorem reinject_cols (tag : Nat) (s : State) : (reinject tag s).cols = s.cols := by
  unfold reinject; split <;> simp

@[simp] theorem countContribution_cols (w id seq : Nat) (s : State) : (countContribution w id seq s).cols = s.cols := by
  simp [countContribution]

@[simp] theorem rearm_cols (w id : Nat) (s : State) : (rearm w id s).cols = s.cols := rfl

@[simp] theorem landPiece_cols (w : Nat) (p : Packet) (s : State) : (landPiece w p s).cols = s.cols := by
  unfold landPiece
  dsimp only
  repeat' split
  all_goals simp [modCmd_cols]

@[simp] theorem noteDup_cols (n : Node) (p : Packet) (s : State) : (noteDup n p s).cols = s.cols := rfl

@[simp] theorem deliverCtrl_cols (w : Nat) (p : Packet) (s : State) : (deliverCtrl w p s).cols = s.cols := by
  unfold deliverCtrl; split <;> simp [modCmd_cols]

@[simp] theorem deliverHost_cols (t : Nat) (p : Packet) (s : State) : (deliverHost t p s).cols = s.cols := by
  simp [deliverHost, hostPost_cols]

@[simp] theorem deliverRead_cols (w : Nat) (p : Packet) (s : State) : (deliverRead w p s).cols = s.cols := by
  simp [deliverRead, countRefused_cols]

@[simp] theorem calmRetry_cols (p : Packet) (s : State) : (calmRetry p s).cols = s.cols := by
  unfold calmRetry
  repeat' split
  all_goals simp

/-! ### Commands in progress -/

@[simp] theorem recipePoisonEvent_cols (r : Nat) (e : Entry) (s : State) : (recipePoisonEvent r e s).cols = s.cols := by
  unfold recipePoisonEvent; dsimp only; split <;> simp [deliver_cols]

@[simp] theorem advanceTally_cols (r : Nat) (s : State) : (advanceTally r s).cols = s.cols := by
  simp [advanceTally]

@[simp] theorem completeCut_cols (r : Nat) (seq : DWord) (s : State) : (completeCut r seq s).cols = s.cols := by
  simp [completeCut, modCmd_cols, complete_cols]

@[simp] theorem skipHead_cols (r : Nat) (e : Entry) (s : State) : (skipHead r e s).cols = s.cols := by
  simp [skipHead, noteHead_cols]

/-! ### Tiles -/

@[simp] theorem fenceDue_cols (key cause : Nat) (s : State) : (fenceDue key cause s).cols = s.cols := by
  simp [fenceDue]

@[simp] theorem tableLoad_cols (r : Nat) (seq : DWord) (g core : Nat) (s : State) :
    (tableLoad r seq g core s).cols = s.cols := by
  unfold tableLoad
  split
  · rfl
  · dsimp only
    split
    · rfl
    · have hlut : ∀ (key : Nat) (l : List (List Byte × Nat)) (m : List (List Byte)) (a : State),
          (m.foldl (fun a b => a.writeScratch key 0x380000 b)
            (l.foldl (fun a x => a.writeScratch key (0x3F0000 + x.2 * 16384) x.1) a)).cols = a.cols := fun key l m a =>
        (foldl_cols _ (fun _ _ => writeScratch_cols ..) _ _).trans (foldl_cols _ (fun _ _ => writeScratch_cols ..) _ _)
      rw [countReads_cols, reportPoison_cols, modCmd_cols]
      split
      · exact hlut _ _ _ _
      · exact hlut _ _ _ _

@[simp] theorem mxHandover_cols (r : Nat) (seq : DWord) (t : Nat) (s : State) : (mxHandover r seq t s).cols = s.cols := by
  unfold mxHandover; split <;> simp [reportPoison_cols, modCmd_cols]

@[simp] theorem sendTile_cols (r : Nat) (c : Cmd) (a : TileAt) (t : Nat) (u : Mu) (ws : List (Nat × List Byte)) (s : State) :
    (sendTile r c a t u ws s).cols = s.cols := by
  unfold sendTile
  dsimp only
  repeat' split
  all_goals simp

@[simp] theorem spillStart_cols (r : Nat) (seq : DWord) (s : State) : (spillStart r seq s).cols = s.cols := by
  unfold spillStart; split <;> simp [modCmd_cols]

/-! ### Transfers of the move engine -/

@[simp] theorem chanAsk_cols (key piece addr len : Nat) (s : State) : (chanAsk key piece addr len s).cols = s.cols := rfl

@[simp] theorem chanRead_cols (key piece addr len : Nat) (s : State) : (chanRead key piece addr len s).cols = s.cols := by
  simp [chanRead]

@[simp] theorem askReads_cols (key : Nat) (s : State) : (askReads key s).cols = s.cols := by
  simp [askReads]

@[simp] theorem askAll_cols (s : State) : (askAll s).cols = s.cols := by
  simp [askAll]

@[simp] theorem startChan_cols (key : Nat) (owner : Option (Nat × DWord)) (s : State) :
    (startChan key owner s).cols = s.cols := by
  simp [startChan]

@[simp] theorem chanSrcFault_cols (key cause len addr : Nat) (s : State) :
    (chanSrcFault key cause len addr s).cols = s.cols := by
  simp [chanSrcFault]

@[simp] theorem chanWriteHost_cols (key addr : Nat) (bytes : List Byte) (s : State) :
    (chanWriteHost key addr bytes s).cols = s.cols := rfl

@[simp] theorem wakeChan_cols (key : Nat) (s : State) : (wakeChan key s).cols = s.cols := by
  unfold wakeChan
  repeat' split
  all_goals simp [modCmd_cols]

@[simp] theorem dropChanReads_cols (key : Nat) (s : State) : (dropChanReads key s).cols = s.cols := rfl

@[simp] theorem endAbort_cols (key : Nat) (s : State) : (endAbort key s).cols = s.cols := by
  unfold endAbort
  dsimp only
  repeat' split
  all_goals simp

/-! ### Dispatch -/

@[simp] theorem clearAttnCounters_cols (mods : List Nat) (s : State) : (clearAttnCounters mods s).cols = s.cols := rfl

@[simp] theorem startSend_cols (r : Nat) (c : Cmd) (s : State) : (startSend r c s).cols = s.cols := by
  unfold startSend; dsimp only; split <;> simp [reportPoison_cols]

/-! ### Completion, tally writes and waits -/

@[simp] theorem postTally_cols (r : Nat) (s : State) : (postTally r s).cols = s.cols := by
  simp [postTally]

@[simp] theorem flushEvents_cols (n : Nat) (s : State) : (flushEvents n s).cols = s.cols := by
  unfold flushEvents
  dsimp only
  split <;> exact foldl_cols _ (fun a e => writeEvent_cols ..) _ _

@[simp] theorem flushMachine_cols (n : Nat) (s : State) : (flushMachine n s).cols = s.cols := by
  unfold flushMachine
  dsimp only
  split <;> exact (foldl_cols _ (fun a e => writeEvent_cols ..) _ _).trans rfl

@[simp] theorem flushHeld_cols (n : Nat) (s : State) : (flushHeld n s).cols = s.cols := by
  unfold flushHeld
  dsimp only
  split
  · have hwrites := foldl_cols (fun a h => tenWrite n h.2.1 h.2.2 a) (fun a h => tenWrite_cols ..) (s.ten n).heldW
      (s.setTen n { s.ten n with heldW := [] })
    refine (foldl_cols _ (fun a r => postTally_cols ..) _ _).trans ?_
    split <;> simp [hwrites]
  · rfl

@[simp] theorem flushCtl_cols (s : State) : (flushCtl s).cols = s.cols := by
  unfold flushCtl
  split
  · exact (foldl_cols _ (fun a h => emit_cols ..) _ _).trans rfl
  · rfl

@[simp] theorem waitSatisfied_cols (r : Nat) (seq : DWord) (s : State) : (waitSatisfied r seq s).cols = s.cols := by
  unfold waitSatisfied; split <;> simp [complete_cols]

@[simp] theorem waitTimeout_cols (r : Nat) (seq : DWord) (s : State) : (waitTimeout r seq s).cols = s.cols := by
  unfold waitTimeout; split <;> simp [complete_cols]

@[simp] theorem settleDone_cols (r : Nat) (seq : DWord) (s : State) : (settleDone r seq s).cols = s.cols := by
  unfold settleDone; split <;> simp [complete_cols]

@[simp] theorem awaitSatisfied_cols (r : Nat) (seq : DWord) (s : State) : (awaitSatisfied r seq s).cols = s.cols := by
  unfold awaitSatisfied; split <;> simp [complete_cols]

@[simp] theorem awaitTimeout_cols (r : Nat) (seq : DWord) (s : State) : (awaitTimeout r seq s).cols = s.cols := by
  unfold awaitTimeout; split <;> simp [complete_cols]

@[simp] theorem frameTimeout_cols (r : Nat) (seq : DWord) (s : State) : (frameTimeout r seq s).cols = s.cols := by
  unfold frameTimeout; split <;> simp [complete_cols]

/-! ### Streams -/

@[simp] theorem streamUnbound_cols (r : Nat) (s : State) : (streamUnbound r s).cols = s.cols := by
  simp [streamUnbound]

/-! ### Partitions -/

@[simp] theorem forgetScan_cols (r p : Nat) (s : State) : (forgetScan r p s).cols = s.cols := rfl

@[simp] theorem windRing_cols (waits : Bool) (r : Nat) (s : State) : (windRing waits r s).cols = s.cols := by
  simp [windRing, complete_cols]

@[simp] theorem startRing_cols (r : Nat) (s : State) : (startRing r s).cols = s.cols := by
  simp [startRing]

@[simp] theorem clearPendingRings_cols (p : Nat) (s : State) : (clearPendingRings p s).cols = s.cols := by
  unfold clearPendingRings
  dsimp only
  refine (foldl_cols _ (fun a x => ?_) _ _).trans ?_ <;> simp

@[simp] theorem startPendingRings_cols (p : Nat) (s : State) : (startPendingRings p s).cols = s.cols := by
  simp [startPendingRings]

@[simp] theorem endRing_cols (r : Nat) (s : State) : (endRing r s).cols = s.cols := by
  simp [endRing]

@[simp] theorem closeGates_cols (mods : List Nat) (s : State) : (closeGates mods s).cols = s.cols := by
  unfold closeGates
  dsimp only
  refine (foldl_cols _ (fun a x => ?_) _ _).trans ?_ <;> simp

@[simp] theorem cancelEnable_cols (p : Nat) (s : State) : (cancelEnable p s).cols = s.cols := by
  simp [cancelEnable, unbind_cols, eraseSlots_cols]

@[simp] theorem startEnable_cols (p : Nat) (s : State) : (startEnable p s).cols = s.cols := by
  unfold startEnable
  dsimp only
  split
  · refine (foldl_cols _ (fun a w => ?_) _ _).trans (setPart_cols ..)
    exact (zeroScratch_cols ..).trans (setMod_cols ..)
  · simp

@[simp] theorem clearCounters_cols (mods : List Nat) (s : State) : (clearCounters mods s).cols = s.cols := rfl

@[simp] theorem finishEnable_cols (p : Nat) (s : State) : (finishEnable p s).cols = s.cols := by
  simp [finishEnable]

@[simp] theorem startTen_cols (n : Nat) (s : State) : (startTen n s).cols = s.cols := by
  simp [startTen]

@[simp] theorem clearPendingParts_cols (n : Nat) (s : State) : (clearPendingParts n s).cols = s.cols := by
  simp [clearPendingParts]

@[simp] theorem dropEphemeral_cols (n : Nat) (s : State) : (dropEphemeral n s).cols = s.cols := by
  simp [dropEphemeral]

@[simp] theorem freshKey_cols (n : Nat) (s : State) : (freshKey n s).cols = s.cols := by
  unfold freshKey
  split
  · exact (storeItem_cols ..).trans (foldl_cols _ (fun a w => setMod_cols ..) _ _)
  · rfl

@[simp] theorem dropTenReads_cols (n : Nat) (s : State) : (dropTenReads n s).cols = s.cols := by
  simp [dropTenReads]

@[simp] theorem dropTallies_cols (n : Nat) (s : State) : (dropTallies n s).cols = s.cols := by
  unfold dropTallies
  dsimp only
  refine (foldl_cols _ (fun a x => ?_) _ _).trans ?_ <;> simp

@[simp] theorem resetDone_cols (n : Nat) (forced : Bool) (s : State) : (resetDone n forced s).cols = s.cols := by
  unfold resetDone
  dsimp only
  split
  · refine (foldl_cols _ (fun a p => setPart_cols ..) _ _).trans ?_
    simp
  · simp

/-! ### Tenants -/

@[simp] theorem tenantDown_cols (n : Nat) (s : State) : (tenantDown n s).cols = s.cols := by
  simp [tenantDown]

@[simp] theorem sendPort_cols (port : Nat) (s : State) : (sendPort port s).cols = s.cols := rfl

@[simp] theorem linkUpEvent_cols (port : Nat) (speed : BitVec 3) (width : BitVec 5) (flit : Bool) (s : State) :
    (linkUpEvent port speed width flit s).cols = s.cols := by
  simp [linkUpEvent]

@[simp] theorem setBme_cols (port fn : Nat) (on : Bool) (s : State) : (setBme port fn on s).cols = s.cols := by
  simp [setBme]

@[simp] theorem flrDone_cols (n : Nat) (s : State) : (flrDone n s).cols = s.cols := by
  simp [flrDone]

/-! ### Rings -/

@[simp] theorem ringDown_cols (r : Nat) (s : State) : (ringDown r s).cols = s.cols := by
  simp [ringDown]

@[simp] theorem startScan_cols (p : Nat) (s : State) : (startScan p s).cols = s.cols := by
  simp [startScan]

@[simp] theorem scanDue_cols (p : Nat) (s : State) : (scanDue p s).cols = s.cols := by
  simp [scanDue]

@[simp] theorem endRead_cols (id : Nat) (s : State) : (endRead id s).cols = s.cols := rfl

@[simp] theorem ringEvaluate_cols (r : Nat) (w : Word) (s : State) : (ringEvaluate r w s).cols = s.cols := by
  simp [ringEvaluate]

@[simp] theorem afterScan_cols (p : Nat) (s : State) : (afterScan p s).cols = s.cols := by
  unfold afterScan
  dsimp only
  have hrings := foldl_cols (fun a r => a.setRing r { a.ring r with fetchWait := false }) (fun a r => setRing_cols ..)
    (s.onRings p) s
  split
  · split <;> simp [hrings]
  · exact hrings

@[simp] theorem resumeScan_cols (p : Nat) (s : State) : (resumeScan p s).cols = s.cols := by
  simp [resumeScan]

@[simp] theorem scanDone_cols (p : Nat) (data : List Byte) (s : State) : (scanDone p data s).cols = s.cols := by
  unfold scanDone; split <;> simp [deliver_cols]

@[simp] theorem portFail_cols (port : Nat) (f : HostFail) (s : State) : (portFail port f s).cols = s.cols := by
  unfold portFail; split <;> rfl

@[simp] theorem scanFail_cols (p : Nat) (cause : HostFail) (s : State) : (scanFail p cause s).cols = s.cols := by
  unfold scanFail; split <;> simp [deliver_cols]

@[simp] theorem nudgePart_cols (p : Nat) (s : State) : (nudgePart p s).cols = s.cols := by
  unfold nudgePart
  repeat' split
  all_goals simp

@[simp] theorem nudgeWrite_cols (port fn off be : Nat) (s : State) : (nudgeWrite port fn off be s).cols = s.cols := by
  unfold nudgeWrite
  dsimp only
  repeat' split
  all_goals simp

@[simp] theorem fetchIssue_cols (r : Nat) (s : State) : (fetchIssue r s).cols = s.cols := by
  simp [fetchIssue]

@[simp] theorem fetchDone_cols (r : Nat) (data : List Byte) (s : State) : (fetchDone r data s).cols = s.cols := by
  unfold fetchDone; split <;> simp [noteHead_cols, deliver_cols]

@[simp] theorem fetchFail_cols (r : Nat) (cause : HostFail) (s : State) : (fetchFail r cause s).cols = s.cols := by
  unfold fetchFail; split <;> simp [deliver_cols]

/-! ### The fabric -/

@[simp] theorem landArrives_cols (pid : Nat) (s : State) : (landArrives pid s).cols = s.cols := by
  unfold landArrives; split <;> rfl

@[simp] theorem nackArrives_cols (pid : Nat) (s : State) : (nackArrives pid s).cols = s.cols := by
  unfold nackArrives; split <;> simp

@[simp] theorem ackExpired_cols (tag : Nat) (s : State) : (ackExpired tag s).cols = s.cols := by
  simp [ackExpired]

@[simp] theorem dupExpired_cols (tag : Nat) (s : State) : (dupExpired tag s).cols = s.cols := rfl

@[simp] theorem trainingLost_cols (l : Nat) (s : State) : (trainingLost l s).cols = s.cols := by
  simp [trainingLost]

@[simp] theorem mapLink_cols (key : Nat) (s : State) : (mapLink key s).cols = s.cols := by
  unfold mapLink
  dsimp only
  repeat' split
  all_goals simp

@[simp] theorem mapUpdate_cols (s : State) : (mapUpdate s).cols = s.cols := by
  simp [mapUpdate]

@[simp] theorem restoreLink_cols (l : Nat) (s : State) : (restoreLink l s).cols = s.cols := by
  simp [restoreLink]

@[simp] theorem retrainDone_cols (l : Nat) (ok : Bool) (s : State) : (retrainDone l ok s).cols = s.cols := by
  simp [retrainDone]

/-! ### Shapes and the Sound -/

@[simp] theorem beginChange_cols (target : Shape) (cause : Nat) (s : State) :
    (beginChange target cause s).cols = s.cols := rfl
@[simp] theorem abandonOrder_cols (cause : Nat) (s : State) : (abandonOrder cause s).cols = s.cols := rfl

@[simp] theorem trigger_cols (cause : Nat) (s : State) : (trigger cause s).cols = s.cols := by
  unfold trigger; split <;> simp

@[simp] theorem prepDone_cols (s : State) : (prepDone s).cols = s.cols := by
  simp [prepDone]

@[simp] theorem darken_cols (circuits : List Nat) (s : State) : (darken circuits s).cols = s.cols := rfl

@[simp] theorem prepFailed_cols (circuits : List Nat) (s : State) : (prepFailed circuits s).cols = s.cols := by
  simp [prepFailed]

@[simp] theorem soundFails_cols (s : State) : (soundFails s).cols = s.cols := by
  simp [soundFails]

@[simp] theorem changeSplices_cols (cols : List Nat) (s : State) : (changeSplices cols s).cols = s.cols := by
  simp [changeSplices]

@[simp] theorem joinEnds_cols (c : Nat) (s : State) : (joinEnds c s).cols = s.cols := by
  unfold joinEnds; split <;> simp

@[simp] theorem circuitsSet_cols (s : State) : (circuitsSet s).cols = s.cols := by
  simp [circuitsSet]

@[simp] theorem circuitFailed_cols (circuit : Nat) (s : State) : (circuitFailed circuit s).cols = s.cols := by
  simp [circuitFailed]

@[simp] theorem selfTestDone_cols (ok : Bool) (s : State) : (selfTestDone ok s).cols = s.cols := by
  simp [selfTestDone]

/-! ### Attention -/

@[simp] theorem stepDispatch_cols (r : Nat) (seq : DWord) (i tile : Nat) (s : State) :
    (stepDispatch r seq i tile s).cols = s.cols := by
  unfold stepDispatch; split <;> simp [modCmd_cols]

@[simp] theorem chunkForward_cols (r : Nat) (seq : DWord) (i t k : Nat) (s : State) :
    (chunkForward r seq i t k s).cols = s.cols := by
  unfold chunkForward; split <;> simp [modCmd_cols]

@[simp] theorem bufferRelease_cols (r : Nat) (seq : DWord) (i t : Nat) (s : State) :
    (bufferRelease r seq i t s).cols = s.cols := by
  unfold bufferRelease; split <;> simp [modCmd_cols]

@[simp] theorem attnStall_cols (r : Nat) (seq : DWord) (i t : Nat) (sender : Bool) (s : State) :
    (attnStall r seq i t sender s).cols = s.cols := by
  unfold attnStall
  dsimp only
  repeat' split
  all_goals simp [modCmd_cols, deliver_cols]

/-! ### Parcels -/

@[simp] theorem joinInst_cols (c i : Nat) (s : State) : (joinInst c i s).cols = s.cols := by
  simp [joinInst]

@[simp] theorem joinTray_cols (t : Nat) (s : State) : (joinTray t s).cols = s.cols := by
  simp [joinTray]

@[simp] theorem dropRestart_cols (t : Nat) (s : State) : (dropRestart t s).cols = s.cols := by
  unfold dropRestart; split <;> simp

/-! ### Modules -/

@[simp] theorem startRise_cols (w : Nat) (s : State) : (startRise w s).cols = s.cols := by
  simp [startRise]

@[simp] theorem lowerMod_cols (w : Nat) (s : State) : (lowerMod w s).cols = s.cols := by
  simp [lowerMod]

@[simp] theorem endDiag_cols (w : Nat) (s : State) : (endDiag w s).cols = s.cols := rfl
@[simp] theorem dropModPackets_cols (w : Nat) (s : State) : (dropModPackets w s).cols = s.cols := rfl

@[simp] theorem dropLate_cols (w : Nat) (s : State) : (dropLate w s).cols = s.cols := by
  unfold dropLate
  dsimp only
  split
  · rfl
  · exact foldl_cols _ (fun a t => setTen_cols ..) _ _

@[simp] theorem enterModule_cols (w : Nat) (s : State) : (enterModule w s).cols = s.cols := by
  simp [enterModule]

/-! ### Fences -/

@[simp] theorem fenceEvent_cols (f : FenceInfo) (r : Nat) (seq : DWord) (s : State) :
    (fenceEvent f r seq s).cols = s.cols := by
  simp [fenceEvent, deliver_cols]

@[simp] theorem fenceChain_cols (f : FenceInfo) (r gi : Nat) (ms : List Cmd) (s : State) :
    (fenceChain f r gi ms s).cols = s.cols := by
  simp [fenceChain]

@[simp] theorem fenceMembers_cols (f : FenceInfo) (r : Nat) (ms : List Cmd) (s : State) :
    (fenceMembers f r ms s).cols = s.cols := by
  unfold fenceMembers
  repeat' split
  all_goals simp

@[simp] theorem spareCopied_cols (w die isle : Nat) (s : State) : (spareCopied w die isle s).cols = s.cols := by
  unfold spareCopied; dsimp only; split <;> simp

/-! ### Move channels in command mode -/

@[simp] theorem diagActive_cols (w : Nat) (s : State) : (diagActive w s).cols = s.cols := by
  simp [diagActive]

/-! ### Trays -/

@[simp] theorem setSvc_cols (t : Nat) (v : TraySvc) (s : State) : (setSvc t v s).cols = s.cols := by
  simp [setSvc]

@[simp] theorem modePoint_cols (t : Nat) (s : State) : (modePoint t s).cols = s.cols := by
  simp [modePoint]

@[simp] theorem forgetFrames_cols (tray : Nat) (s : State) : (forgetFrames tray s).cols = s.cols := by
  unfold forgetFrames
  dsimp only
  refine (foldl_cols _ (fun a x => ?_) _ _).trans ?_ <;> simp [modCmd_cols]

@[simp] theorem intakeLoss_cols (tray : Nat) (s : State) : (intakeLoss tray s).cols = s.cols := by
  simp [intakeLoss]

@[simp] theorem fenceTray_cols (t : Nat) (s : State) : (fenceTray t s).cols = s.cols := by
  simp [fenceTray]

@[simp] theorem startJoin_cols (t : Nat) (s : State) : (startJoin t s).cols = s.cols := by
  unfold startJoin
  split
  · simp
  · dsimp only
    split
    · simp
    · refine (foldl_cols _ (fun a w => ?_) _ _).trans (by simp)
      split
      · rfl
      · split <;> simp

@[simp] theorem joinWaiting_cols (s : State) : (joinWaiting s).cols = s.cols := by
  simp [joinWaiting]

@[simp] theorem emptySlot_cols (t : Nat) (s : State) : (emptySlot t s).cols = s.cols := by
  unfold emptySlot
  dsimp only
  refine (foldl_cols _ (fun a x => ?_) _ _).trans ?_ <;> simp

@[simp] theorem noteGone_cols (t : Nat) (s : State) : (noteGone t s).cols = s.cols := by
  simp [noteGone]

@[simp] theorem trayInsertion_cols (t : Nat) (straps : Word) (slots : List (Option ModFuse)) (s : State) :
    (trayInsertion t straps slots s).cols = s.cols := by
  unfold trayInsertion
  split
  · rw [startJoin_cols, ite_cols]
    refine (ite_self _).trans ((foldl_cols _ (fun a w => ?_) _ _).trans (setTray_cols ..))
    split <;> rfl
  · rfl

@[simp] theorem tellWords_cols (t : Nat) (s : State) : (tellWords t s).cols = s.cols := by
  unfold tellWords; split <;> simp

@[simp] theorem failTests_cols (w stage cause : Nat) (s : State) : (failTests w stage cause s).cols = s.cols := by
  simp [failTests]

@[simp] theorem stageLog_cols (place result : Nat) (items : List BootItem) (s : State) :
    (stageLog place result items s).cols = s.cols := by
  simp [stageLog]

@[simp] theorem markWait_cols (s : State) : (markWait s).cols = s.cols := rfl

@[simp] theorem retrainTray_cols (t : Nat) (s : State) : (retrainTray t s).cols = s.cols := by
  simp [retrainTray]

/-! ### Faults and repair -/

@[simp] theorem rowDone_cols (g c row : Nat) (s : State) : (rowDone g c row s).cols = s.cols := by
  simp [rowDone]

/-! ### Power -/

@[simp] theorem limitEvent_cols (cause : Nat) (a s : State) : (limitEvent cause a s).cols = s.cols := by
  simp [limitEvent]

@[simp] theorem setCapRm_cols (l : CapLevel) (v : Nat) (s : State) : (setCapRm l v s).cols = s.cols := by
  unfold setCapRm; split <;> simp

@[simp] theorem redfishLimit_cols (session : Nat) (l : CapLevel) (v : Nat) (s : State) :
    (redfishLimit session l v s).cols = s.cols := by
  simp [redfishLimit]

@[simp] theorem railsUp_cols (w : Nat) (s : State) : (railsUp w s).cols = s.cols := by
  simp [railsUp]

@[simp] theorem capWindow_cols (w power : Nat) (s : State) : (capWindow w power s).cols = s.cols := by
  simp [capWindow]

@[simp] theorem traySpan_cols (k t mean high : Nat) (s : State) : (traySpan k t mean high s).cols = s.cols := by
  have hspan : ∀ (l : List Nat) (a : State),
      (l.foldl (fun a w => a.setPwrMod w ((a.pwrMod w).span k)) a).cols = a.cols := fun l a =>
    foldl_cols _ (fun a w => setPwrMod_cols ..) l a
  unfold traySpan
  split
  · simp [hspan]
  · rfl

@[simp] theorem spanEnd_cols (k : Nat) (trays : List (Nat × Nat)) (pumps high : Nat) (s : State) :
    (spanEnd k trays pumps high s).cols = s.cols := by
  simp [spanEnd]

@[simp] theorem setBattery_cols (charge : Nat) (s : State) : (setBattery charge s).cols = s.cols := rfl

@[simp] theorem sagSample_cols (mv : Nat) (s : State) : (sagSample mv s).cols = s.cols := by
  simp [sagSample]

@[simp] theorem gapMarker_cols (c : Nat) (first last : DWord) (n : Nat) (s : State) :
    (gapMarker c first last n s).cols = s.cols := by
  simp [gapMarker]

@[simp] theorem logLost_cols (c : Nat) (s : State) : (logLost c s).cols = s.cols := by
  simp [logLost]

@[simp] theorem failCopy_cols (c : Nat) (s : State) : (failCopy c s).cols = s.cols := by
  simp [failCopy]

@[simp] theorem copyFails_cols (c : Nat) (s : State) : (copyFails c s).cols = s.cols := by
  simp [copyFails]

@[simp] theorem failDueCopies_cols (s : State) : (failDueCopies s).cols = s.cols := by
  simp [failDueCopies]

@[simp] theorem commitLog_cols (c : Nat) (s : State) : (commitLog c s).cols = s.cols := rfl
@[simp] theorem commitItems_cols (s : State) : (commitItems s).cols = s.cols := rfl

@[simp] theorem deferredCommit_cols (s : State) : (deferredCommit s).cols = s.cols := by
  simp [deferredCommit]

@[simp] theorem drainInbox_cols (c : Nat) (s : State) : (drainInbox c s).cols = s.cols := by
  simp [drainInbox]

@[simp] theorem holdMods_cols (ws : List Nat) (s : State) : (holdMods ws s).cols = s.cols := by
  unfold holdMods
  dsimp only
  refine (foldl_cols _ (fun a x => ?_) _ _).trans ?_ <;> simp

/-! ### Heat -/

@[simp] theorem releaseForced_cols (s : State) : (releaseForced s).cols = s.cols := by
  simp [releaseForced]

@[simp] theorem dissent_cols (a c v : Nat) (s : State) : (dissent a c v s).cols = s.cols := by
  simp [dissent]

@[simp] theorem readCdu_cols (r : CduRead) (s : State) : (readCdu r s).cols = s.cols := rfl

@[simp] theorem coolingPeriod_cols (r : CduRead) (own : List (Nat × Nat)) (s : State) :
    (coolingPeriod r own s).cols = s.cols := by
  simp [coolingPeriod]

@[simp] theorem pumpStop_cols (p : Nat) (s : State) : (pumpStop p s).cols = s.cols := by
  simp [pumpStop]

@[simp] theorem pumpRetry_cols (p : Nat) (s : State) : (pumpRetry p s).cols = s.cols := by
  simp [pumpRetry]

@[simp] theorem pumpRejoin_cols (p : Nat) (s : State) : (pumpRejoin p s).cols = s.cols := by
  simp [pumpRejoin]

@[simp] theorem closeValve_cols (t : Nat) (s : State) : (closeValve t s).cols = s.cols := rfl

@[simp] theorem coolantSample_cols (t : Nat) (inlet outlet : ℤ) (flow : Nat) (wet : Bool) (s : State) :
    (coolantSample t inlet outlet flow wet s).cols = s.cols := by
  simp [coolantSample]

@[simp] theorem sensorSample_cols (w d : Nat) (readings : List (Option ℤ)) (s : State) :
    (sensorSample w d readings s).cols = s.cols := by
  simp [sensorSample]

@[simp] theorem settleDie_cols (w d : Nat) (x' : List ℤ) (pred : ℤ) (flim : Nat) (floor : Bool) (s : State) :
    (settleDie w d x' pred flim floor s).cols = s.cols := by
  simp [settleDie]

@[simp] theorem stormSpills_cols (w : Nat) (s : State) : (stormSpills w s).cols = s.cols := by
  unfold stormSpills
  dsimp only
  refine (foldl_cols _ (fun a x => ?_) _ _).trans ?_
  · repeat' split
    all_goals simp [modCmd_cols]
  · simp

@[simp] theorem forecast_cols (w : Nat) (s : State) : (forecast w s).cols = s.cols := by
  simp [forecast]

@[simp] theorem stormPauses_cols (t : Nat) (s : State) : (stormPauses t s).cols = s.cols := by
  simp [stormPauses]

@[simp] theorem wardenLost_cols (t : Nat) (s : State) : (wardenLost t s).cols = s.cols := by
  unfold wardenLost
  split
  · have hlatch := foldl_cols (fun a w => a.setPwrMod w { a.pwrMod w with
      capLatch := some (s.capEff w), guard := (a.pwrMod w).obj.st == .on }) (fun a w => setPwrMod_cols ..) (trayMods t) s
    dsimp only
    split <;> simp [hlatch]
  · rfl

@[simp] theorem cduWatchdog_cols (s : State) : (cduWatchdog s).cols = s.cols := by
  simp [cduWatchdog]

/-! ### Develop contexts -/

@[simp] theorem portEvent_cols (k code hi : Nat) (arg0 : DWord) (arg1 : Word) (s : State) :
    (portEvent k code hi arg0 arg1 s).cols = s.cols := by
  simp [portEvent]

@[simp] theorem discardUnit_cols (k cause : Nat) (num : Word) (s : State) : (discardUnit k cause num s).cols = s.cols := by
  simp [discardUnit]

@[simp] theorem joinUnit_cols (k : Nat) (f : RawFrame) (s : State) : (joinUnit k f s).cols = s.cols := by
  simp [joinUnit]

@[simp] theorem beginUnit_cols (k : Nat) (f : RawFrame) (s : State) : (beginUnit k f s).cols = s.cols := by
  simp [beginUnit]

@[simp] theorem mismatch_cols (k cause : Nat) (f : RawFrame) (s : State) : (mismatch k cause f s).cols = s.cols := by
  simp [mismatch]

@[simp] theorem formFrame_cols (k : Nat) (f : RawFrame) (s : State) : (formFrame k f s).cols = s.cols := by
  simp [formFrame]

@[simp] theorem landFrame_cols (k : Nat) (f : RawFrame) (s : State) : (landFrame k f s).cols = s.cols := by
  simp [landFrame]

@[simp] theorem landMarker_cols (k : Nat) (num : Word) (s : State) : (landMarker k num s).cols = s.cols := by
  simp [landMarker]

@[simp] theorem reformItem_cols (k : Nat) (q : QItem) (s : State) : (reformItem k q s).cols = s.cols := by
  unfold reformItem; split <;> simp

@[simp] theorem reform_cols (k : Nat) (s : State) : (reform k s).cols = s.cols := by
  simp [reform]

/-! ### Intake ports -/

@[simp] theorem abortFrame_cols (k cause : Nat) (s : State) : (abortFrame k cause s).cols = s.cols := by
  unfold abortFrame; dsimp only; split <;> simp

@[simp] theorem imageHeader_cols (k : Nat) (stream : BitVec 8) (w h : Nat) (bayer : Bool) (cfa : BitVec 2) (bits : Nat) (s : State) :
    (imageHeader k stream w h bayer cfa bits s).cols = s.cols := by
  simp [imageHeader]

@[simp] theorem streamPacket_cols (k : Nat) (stream : BitVec 8) (good long : Bool) (bytes : List Byte) (s : State) :
    (streamPacket k stream good long bytes s).cols = s.cols := by
  unfold streamPacket
  dsimp only
  repeat' split
  all_goals simp

@[simp] theorem uplink_cols (k kind : Nat) (body : List Byte) (s : State) : (uplink k kind body s).cols = s.cols := rfl
@[simp] theorem gcSend_cols (k : Nat) (s : State) : (gcSend k s).cols = s.cols := rfl
@[simp] theorem discSend_cols (k n : Nat) (s : State) : (discSend k n s).cols = s.cols := rfl

@[simp] theorem discAgain_cols (k : Nat) (s : State) : (discAgain k s).cols = s.cols := by
  simp [discAgain]

@[simp] theorem discAck_cols (k : Nat) (a : CtlAck) (s : State) : (discAck k a s).cols = s.cols := by
  unfold discAck; split <;> simp

@[simp] theorem controlAck_cols (k : Nat) (a : CtlAck) (s : State) : (controlAck k a s).cols = s.cols := by
  unfold controlAck
  repeat' split
  all_goals simp

@[simp] theorem controlTimeout_cols (k : Nat) (s : State) : (controlTimeout k s).cols = s.cols := by
  simp [controlTimeout]

@[simp] theorem eventPacket_cols (k : Nat) (id : BitVec 16) (payload : List Byte) (s : State) :
    (eventPacket k id payload s).cols = s.cols := by
  simp [eventPacket]

@[simp] theorem discoveryAttempt_cols (k : Nat) (found : BitVec 4) (s : State) :
    (discoveryAttempt k found s).cols = s.cols := by
  simp [discoveryAttempt]

@[simp] theorem discoveryComplete_cols (k : Nat) (rates : List (BitVec 7)) (count : Nat) (refused : Bool) (s : State) :
    (discoveryComplete k rates count refused s).cols = s.cols := by
  unfold discoveryComplete
  dsimp only
  repeat' split
  all_goals simp

@[simp] theorem cxpReconfig_cols (k : Nat) (s : State) : (cxpReconfig k s).cols = s.cols := by
  simp [cxpReconfig]

@[simp] theorem cxpDetach_cols (k : Nat) (s : State) : (cxpDetach k s).cols = s.cols := by
  simp [cxpDetach]

@[simp] theorem pocFault_cols (k : Nat) (mask : BitVec 4) (s : State) : (pocFault k mask s).cols = s.cols := by
  simp [pocFault]

@[simp] theorem scannerDetach_cols (k : Nat) (s : State) : (scannerDetach k s).cols = s.cols := by
  simp [scannerDetach]

@[simp] theorem extensionLost_cols (k : Nat) (mask : BitVec 4) (s : State) : (extensionLost k mask s).cols = s.cols := by
  simp [extensionLost]

@[simp] theorem pinHoldEnd_cols (k m ph : Nat) (s : State) : (pinHoldEnd k m ph s).cols = s.cols := by
  simp [pinHoldEnd]

@[simp] theorem fireTrig_cols (k now : Nat) (s : State) : (fireTrig k now s).cols = s.cols := by
  simp [fireTrig]

@[simp] theorem trigFire_cols (k ph : Nat) (s : State) : (trigFire k ph s).cols = s.cols := by
  simp [trigFire]

@[simp] theorem timedTrigger_cols (k : Nat) (s : State) : (timedTrigger k s).cols = s.cols := by
  simp [timedTrigger]

@[simp] theorem overrunReport_cols (k : Nat) (s : State) : (overrunReport k s).cols = s.cols := by
  simp [overrunReport]

@[simp] theorem encCount_cols (k now : Nat) (up : Bool) (s : State) : (encCount k now up s).cols = s.cols := by
  simp [encCount]

@[simp] theorem encEdge_cols (k now : Nat) (isA : Bool) (s : State) : (encEdge k now isA s).cols = s.cols := by
  simp [encEdge]

@[simp] theorem sourceEdge_cols (k now src : Nat) (s : State) : (sourceEdge k now src s).cols = s.cols := by
  simp [sourceEdge]

@[simp] theorem functionEdge_cols (k now i : Nat) (rise : Bool) (s : State) :
    (functionEdge k now i rise s).cols = s.cols := by
  unfold functionEdge; split <;> simp

@[simp] theorem pinEdge_cols (k m ph : Nat) (level : Bool) (s : State) : (pinEdge k m ph level s).cols = s.cols := by
  simp [pinEdge]

@[simp] theorem placeEdge_cols (k i : Nat) (rise : Bool) (s : State) : (placeEdge k i rise s).cols = s.cols := rfl

@[simp] theorem outputEdge_cols (k ph : Nat) (s : State) : (outputEdge k ph s).cols = s.cols := by
  unfold outputEdge; dsimp only; split <;> simp

@[simp] theorem outputOverload_cols (k m : Nat) (s : State) : (outputOverload k m s).cols = s.cols := by
  simp [outputOverload]

@[simp] theorem outputRetry_cols (k m : Nat) (ok : Bool) (s : State) : (outputRetry k m ok s).cols = s.cols := by
  simp [outputRetry]

/-! ### Pipelines -/

@[simp] theorem takeUnit_cols (pl : Nat) (s : State) : (takeUnit pl s).cols = s.cols := by
  unfold takeUnit
  split
  · rfl
  · split
    · simp only [ite_cols, setIntake_cols, setPipe_cols, ite_self]
      exact foldl_cols _ (fun a o => modCmd_cols ..) _ _
    · rfl

@[simp] theorem reportMarker_cols (k : Nat) (s : State) : (reportMarker k s).cols = s.cols := by
  unfold reportMarker
  dsimp only
  split
  · split
    · refine (foldl_cols _ (fun a b => ?_) _ _).trans rfl
      split
      · exact complete_cols ..
      · rfl
    · rfl
  · rfl

@[simp] theorem trayWrite_cols (who : Who) (mods : List Nat) (t pa : Nat) (bytes : List Byte) (s : State) :
    (trayWrite who mods t pa bytes s).cols = s.cols := rfl

@[simp] theorem writeFrame_cols (k t : Nat) (num : Word) (lines : List (List Byte)) (meta_ : List Byte) (f r : Nat)
    (seq : DWord) (s : State) : (writeFrame k t num lines meta_ f r seq s).cols = s.cols := by
  unfold writeFrame
  split
  · rfl
  · split
    · rfl
    · refine (complete_cols ..).trans ?_
      exact foldl_cols _ (fun a x => foldl_cols _ (fun b w => trayWrite_cols ..) _ _) _ _

@[simp] theorem lastWrite_cols (pl : Nat) (s : State) : (lastWrite pl s).cols = s.cols := by
  unfold lastWrite; split <;> simp

@[simp] theorem startPipe_cols (k : Nat) (s : State) : (startPipe k s).cols = s.cols := by
  simp [startPipe]

@[simp] theorem stopLoad_cols (k : Nat) (s : State) : (stopLoad k s).cols = s.cols := by
  simp [stopLoad]

@[simp] theorem pipeOff_cols (k : Nat) (s : State) : (pipeOff k s).cols = s.cols := by
  simp [pipeOff]

@[simp] theorem pipeDown_cols (k : Nat) (s : State) : (pipeDown k s).cols = s.cols := by
  simp [pipeDown]

@[simp] theorem ctlRead_cols (addr : DWord) (len : Nat) (pu : RdPurpose) (s : State) :
    (ctlRead addr len pu s).cols = s.cols := by
  simp [ctlRead]

@[simp] theorem bankFill_cols (k : Nat) (data : List Byte) (s : State) : (bankFill k data s).cols = s.cols := rfl

@[simp] theorem bankLoaded_cols (k : Nat) (data : List Byte) (failed : Bool) (s : State) :
    (bankLoaded k data failed s).cols = s.cols := by
  unfold bankLoaded; split <;> simp

@[simp] theorem dropReport_cols (k : Nat) (s : State) : (dropReport k s).cols = s.cols := by
  simp [dropReport]

@[simp] theorem whitePipe_cols (k : Nat) (s : State) : (whitePipe k s).cols = s.cols := by
  unfold whitePipe
  dsimp only
  split
  · refine (foldl_cols _ (fun a n => discardUnit_cols ..) _ _).trans ?_
    simp
  · refine (foldl_cols _ (fun a n => discardUnit_cols ..) _ _).trans ?_
    simp

@[simp] theorem whiteIntake_cols (s : State) : (whiteIntake s).cols = s.cols := by
  simp [whiteIntake]

/-! ### Roles -/

@[simp] theorem roleChanged_cols (role old new cause : Nat) (s : State) :
    (roleChanged role old new cause s).cols = s.cols := by
  simp [roleChanged]

@[simp] theorem giveSpokes_cols (new cause : Nat) (s : State) : (giveSpokes new cause s).cols = s.cols := by
  simp [giveSpokes]

@[simp] theorem giveCool_cols (new cause : Nat) (s : State) : (giveCool new cause s).cols = s.cols := by
  simp [giveCool]

@[simp] theorem passRoles_cols (c cause : Nat) (s : State) : (passRoles c cause s).cols = s.cols := by
  simp [passRoles]

/-! ### Field update -/

@[simp] theorem updAnswer_cols (code : Nat) (s : State) : (updAnswer code s).cols = s.cols := by
  simp [updAnswer]

@[simp] theorem updIdle_cols (s : State) : (updIdle s).cols = s.cols := rfl

@[simp] theorem refuse_cols (comp cause : Nat) (version : Word) (s : State) :
    (refuse comp cause version s).cols = s.cols := by
  simp [refuse]

@[simp] theorem abortEvent_cols (cause : Nat) (s : State) : (abortEvent cause s).cols = s.cols := by
  simp [abortEvent]

@[simp] theorem clearSlots_cols (s : State) : (clearSlots s).cols = s.cols := by
  simp [clearSlots]

@[simp] theorem abortUpdate_cols (cause : Nat) (s : State) : (abortUpdate cause s).cols = s.cols := by
  simp [abortUpdate]

@[simp] theorem movingEvent_cols (a s : State) : (movingEvent a s).cols = s.cols := by
  simp [movingEvent]

@[simp] theorem tiltTrip_cols (s : State) : (tiltTrip s).cols = s.cols := by
  simp [tiltTrip]

@[simp] theorem clearTilt_cols (s : State) : (clearTilt s).cols = s.cols := by
  simp [clearTilt]

@[simp] theorem ownerLock_cols (m : Mgmt) (on : Bool) (s : State) : (ownerLock m on s).cols = s.cols := by
  simp [ownerLock]

@[simp] theorem battCharge_cols (charge : Nat) (s : State) : (battCharge charge s).cols = s.cols := rfl
@[simp] theorem startHeader_cols (path sess : Nat) (s : State) : (startHeader path sess s).cols = s.cols := rfl

@[simp] theorem rfUpdate_cols (path session : Nat) (s : State) : (rfUpdate path session s).cols = s.cols := by
  unfold rfUpdate; split <;> simp

@[simp] theorem refuseHeader_cols (h : List Byte) (cause : Nat) (s : State) : (refuseHeader h cause s).cols = s.cols := by
  simp [refuseHeader]

@[simp] theorem startStaging_cols (h : List Byte) (s : State) : (startStaging h s).cols = s.cols := by
  simp [startStaging]

@[simp] theorem judgeHeader_cols (h : List Byte) (failed : Bool) (s : State) : (judgeHeader h failed s).cols = s.cols := by
  unfold judgeHeader
  dsimp only
  repeat' split
  all_goals simp

@[simp] theorem bodyStaged_cols (good : BitVec 3) (failed : Bool) (s : State) :
    (bodyStaged good failed s).cols = s.cols := by
  unfold bodyStaged
  dsimp only
  repeat' split
  all_goals simp

@[simp] theorem installInst_cols (skipped : Bool) (i : Nat) (s : State) : (installInst skipped i s).cols = s.cols := by
  simp [installInst]

@[simp] theorem applyIfDone_cols (s : State) : (applyIfDone s).cols = s.cols := by
  simp [applyIfDone]

@[simp] theorem installComplete_cols (skipped : List Nat) (s : State) : (installComplete skipped s).cols = s.cols := by
  simp [installComplete]

@[simp] theorem pauseWarden_cols (t : Nat) (s : State) : (pauseWarden t s).cols = s.cols := by
  unfold pauseWarden
  dsimp only
  refine (foldl_cols _ (fun a x => ?_) _ _).trans ?_ <;> simp

@[simp] theorem healthEffect_cols (c i : Nat) (s : State) : (healthEffect c i s).cols = s.cols := by
  unfold healthEffect; split <;> simp

@[simp] theorem trialFail_cols (key : Nat) (s : State) : (trialFail key s).cols = s.cols := by
  simp [trialFail]

@[simp] theorem instanceHealthy_cols (s : State) : (instanceHealthy s).cols = s.cols := by
  unfold instanceHealthy; split <;> simp

@[simp] theorem trialExpiry_cols (s : State) : (trialExpiry s).cols = s.cols := by
  unfold trialExpiry; split <;> simp

@[simp] theorem trialRestart_cols (s : State) : (trialRestart s).cols = s.cols := by
  unfold trialRestart; split <;> simp

@[simp] theorem stewardTrial_cols (c : Nat) (s : State) : (stewardTrial c s).cols = s.cols := by
  simp [stewardTrial]

@[simp] theorem updResume_cols (s : State) : (updResume s).cols = s.cols := by
  unfold updResume
  repeat' split
  all_goals simp

@[simp] theorem blowFuses_cols (r : Nat) (s : State) : (blowFuses r s).cols = s.cols := by
  simp [blowFuses]

@[simp] theorem confirm_cols (s : State) : (confirm s).cols = s.cols := by
  have hinst := foldl_cols (fun a i => a.setInst (instKey s.upd.comp i) { a.inst (instKey s.upd.comp i) with
    trial := false, switched := false, skipped := false, written := false }) (fun a i => setInst_cols ..)
    (instList s.upd.comp) s
  unfold confirm
  dsimp only
  split <;> simp [hinst]

@[simp] theorem updConfirm_cols (m : Mgmt) (s : State) : (updConfirm m s).cols = s.cols := by
  simp [updConfirm]

@[simp] theorem updFallback_cols (m : Mgmt) (s : State) : (updFallback m s).cols = s.cols := by
  simp [updFallback]

@[simp] theorem fallbackDone_cols (s : State) : (fallbackDone s).cols = s.cols := by
  have hinst := foldl_cols (fun a i => a.setInst (instKey s.upd.comp i) { a.inst (instKey s.upd.comp i) with
    trial := false, switched := false, skipped := false, written := false }) (fun a i => setInst_cols ..)
    (instList s.upd.comp) s
  unfold fallbackDone
  split
  · simp [hinst]
  · rfl

@[simp] theorem updWhite_cols (s : State) : (updWhite s).cols = s.cols := by
  simp [updWhite]

@[simp] theorem updRearm_cols (s : State) : (updRearm s).cols = s.cols := by
  simp [updRearm]

@[simp] theorem updBreak_cols (cause : Nat) (s : State) : (updBreak cause s).cols = s.cols := by
  simp [updBreak]

/-! ### Keys -/

@[simp] theorem loadKey_cols (n : Nat) (volatile : Bool) (key : List Byte) (s : State) :
    (loadKey n volatile key s).cols = s.cols := by
  simp [loadKey]

@[simp] theorem endLoad_cols (r : Nat) (s : State) : (endLoad r s).cols = s.cols := rfl

@[simp] theorem judgeBlob_cols (b : List Byte) (failed : Bool) (s : State) : (judgeBlob b failed s).cols = s.cols := by
  unfold judgeBlob; split <;> simp

@[simp] theorem newWrap_cols (s : State) : (newWrap s).cols = s.cols := by
  simp [newWrap]

@[simp] theorem wrapRotated_cols (s : State) : (wrapRotated s).cols = s.cols := by
  simp [wrapRotated]

@[simp] theorem slotTimeout_cols (w : Nat) (s : State) : (slotTimeout w s).cols = s.cols := by
  simp [slotTimeout]

@[simp] theorem slotRetry_cols (w : Nat) (ok : Bool) (s : State) : (slotRetry w ok s).cols = s.cols := by
  unfold slotRetry; split <;> simp

@[simp] theorem doe_cols (port code : Nat) (body : List Nat) (s : State) : (doe port code body s).cols = s.cols := by
  simp [doe]

@[simp] theorem spdmError_cols (port : Nat) (s : State) : (spdmError port s).cols = s.cols := by
  simp [spdmError]

@[simp] theorem challenge_cols (port slot summary nonce : Nat) (s : State) :
    (challenge port slot summary nonce s).cols = s.cols := by
  simp [challenge]

@[simp] theorem getMeasurements_cols (port i nonce : Nat) (sign : Bool) (s : State) :
    (getMeasurements port i nonce sign s).cols = s.cols := by
  unfold getMeasurements; split <;> simp

@[simp] theorem zeroSlots_cols (s : State) : (zeroSlots s).cols = s.cols := by
  unfold zeroSlots
  dsimp only
  refine (foldl_cols _ (fun a x => ?_) _ _).trans ?_ <;> simp

@[simp] theorem whiteTenant_cols (n : Nat) (s : State) : (whiteTenant n s).cols = s.cols := by
  simp [whiteTenant]

@[simp] theorem whiteEvent_cols (entered : Bool) (s : State) : (whiteEvent entered s).cols = s.cols := by
  simp [whiteEvent]

@[simp] theorem lidOpens_cols (t : Nat) (s : State) : (lidOpens t s).cols = s.cols := rfl

@[simp] theorem batteryLow_cols (charge : Nat) (s : State) : (batteryLow charge s).cols = s.cols := by
  simp [batteryLow]

@[simp] theorem startRearm_cols (s : State) : (startRearm s).cols = s.cols := by
  simp [startRearm]

@[simp] theorem rearmDone_cols (s : State) : (rearmDone s).cols = s.cols := by
  unfold rearmDone
  split
  · have hkeys : ∀ (l : List Nat) (a : State),
        (l.foldl (fun a w => a.setMod w { a.mod w with keyTransport := true }) a).cols = a.cols := fun l a =>
      foldl_cols _ (fun a w => setMod_cols ..) l a
    simp [hkeys]
  · rfl

/-! ### Bring-up -/

@[simp] theorem beginStage_cols (n : Nat) (s : State) : (beginStage n s).cols = s.cols := by
  unfold beginStage
  dsimp only
  split
  · refine (foldl_cols _ (fun a t => ?_) _ _).trans rfl
    split <;> simp
  · split
    · split
      · rfl
      · refine (foldl_cols _ (fun a w => ?_) _ _).trans rfl
        split
        · rfl
        · split <;> simp
    · rfl

@[simp] theorem bootFail_cols (reason l : Nat) (s : State) : (bootFail reason l s).cols = s.cols := by
  simp [bootFail]

@[simp] theorem openEntry_cols (bad : List Nat) (n : Nat) (s : State) : (openEntry bad n s).cols = s.cols := by
  simp [openEntry]

@[simp] theorem report_cols (n : Nat) (o : StageOut) (s : State) : (report n o s).cols = s.cols := by
  simp [report]

@[simp] theorem logFirst_cols (s : State) : (logFirst s).cols = s.cols := by
  simp [logFirst]

@[simp] theorem stopBoot_cols (n : Nat) (s : State) : (stopBoot n s).cols = s.cols := by
  simp [stopBoot]

@[simp] theorem endBoot_cols (s : State) : (endBoot s).cols = s.cols := by
  simp [endBoot]

@[simp] theorem calibrate_cols (w d : Nat) (ceil : Bool) (n : Nat) (s : State) : (calibrate w d ceil n s).cols = s.cols := by
  simp [calibrate]

@[simp] theorem coldTimeout_cols (w d : Nat) (s : State) : (coldTimeout w d s).cols = s.cols := by
  simp [coldTimeout]

@[simp] theorem transportSwitch_cols (on : Bool) (s : State) : (transportSwitch on s).cols = s.cols := by
  simp [transportSwitch]

@[simp] theorem ackCodes_cols (s : State) : (ackCodes s).cols = s.cols := rfl

@[simp] theorem oscFails_cols (s : State) : (oscFails s).cols = s.cols := by
  simp [oscFails]

/-! ### Stewards -/

@[simp] theorem pathAlarm_cols (c path : Nat) (enter : Bool) (s : State) : (pathAlarm c path enter s).cols = s.cols := by
  simp [pathAlarm]

@[simp] theorem bootLost_cols (c : Nat) (s : State) : (bootLost c s).cols = s.cols := by
  simp [bootLost]

@[simp] theorem failChan_cols (c : Nat) (s : State) : (failChan c s).cols = s.cols := by
  simp [failChan]

@[simp] theorem syncCopy_cols (c : Nat) (s : State) : (syncCopy c s).cols = s.cols := by
  unfold syncCopy; split <;> rfl

@[simp] theorem recoverChan_cols (c : Nat) (s : State) : (recoverChan c s).cols = s.cols := by
  simp [recoverChan]

@[simp] theorem judgeChan_cols (heardE heardS : Bool) (c : Nat) (s : State) :
    (judgeChan heardE heardS c s).cols = s.cols := by
  simp [judgeChan]

@[simp] theorem reclaim_cols (s : State) : (reclaim s).cols = s.cols := by
  simp [reclaim]

@[simp] theorem heartbeat_cols (heard : BitVec 6) (s : State) : (heartbeat heard s).cols = s.cols := by
  simp [heartbeat]

@[simp] theorem splitResolve_cols (c : Nat) (epoch : Word) (s : State) : (splitResolve c epoch s).cols = s.cols := by
  simp [splitResolve]

@[simp] theorem appendRec_cols (c : Nat) (s : State) : (appendRec c s).cols = s.cols := by
  unfold appendRec; split <;> simp

@[simp] theorem restoreLog_cols (c : Nat) (s : State) : (restoreLog c s).cols = s.cols := by
  simp [restoreLog]

@[simp] theorem copyRebuilt_cols (c : Nat) (s : State) : (copyRebuilt c s).cols = s.cols := by
  unfold copyRebuilt
  repeat' split
  all_goals simp

@[simp] theorem wardenStart_cols (t : Nat) (s : State) : (wardenStart t s).cols = s.cols := by
  simp [wardenStart]

/-! ### The panel and Redfish -/

@[simp] theorem noteCodes_cols (s : State) : (noteCodes s).cols = s.cols := rfl

@[simp] theorem displayCycle_cols (s : State) : (displayCycle s).cols = s.cols := by
  simp [displayCycle]

@[simp] theorem locateButton_cols (s : State) : (locateButton s).cols = s.cols := by
  simp [locateButton]

@[simp] theorem lampTest_cols (s : State) : (lampTest s).cols = s.cols := by
  simp [lampTest]

@[simp] theorem lampEnd_cols (s : State) : (lampEnd s).cols = s.cols := by
  simp [lampEnd]

@[simp] theorem rearmConds_cols (s : State) : (rearmConds s).cols = s.cols := rfl

@[simp] theorem clearSafety_cols (s : State) : (clearSafety s).cols = s.cols := by
  unfold clearSafety
  dsimp only
  refine (foldl_cols _ (fun a x => ?_) _ _).trans ?_ <;> simp

@[simp] theorem raiseTrays_cols (s : State) : (raiseTrays s).cols = s.cols := by
  simp [raiseTrays]

@[simp] theorem rearmRecs_cols (a b : State) : (rearmRecs a b).cols = b.cols := by
  simp [rearmRecs]

@[simp] theorem redfishGet_cols (session row i : Nat) (s : State) : (redfishGet session row i s).cols = s.cols := by
  unfold redfishGet
  repeat' split
  all_goals simp

@[simp] theorem clockRec_cols (utc : DWord) (s : State) : (clockRec utc s).cols = s.cols := by
  simp [clockRec]

@[simp] theorem ntpStep_cols (utc : DWord) (s : State) : (ntpStep utc s).cols = s.cols := by
  unfold ntpStep; split <;> simp

@[simp] theorem sessionExpiry_cols (n : Nat) (s : State) : (sessionExpiry n s).cols = s.cols := rfl

@[simp] theorem consoleCmd_cols (account num : Nat) (body : List Nat) (s : State) :
    (consoleCmd account num body s).cols = s.cols := by
  simp [consoleCmd]

/-! ### Host reads -/

@[simp] theorem moveRead_cols (key piece : Nat) (h : HRead) (res : HostRes) (s : State) :
    (moveRead key piece h res s).cols = s.cols := by
  unfold moveRead; split <;> simp

@[simp] theorem parcelRead_cols (id : Nat) (res : HostRes) (s : State) : (parcelRead id res s).cols = s.cols := by
  unfold parcelRead
  repeat' split
  all_goals simp

@[simp] theorem portRes_cols (port : Nat) (res : HostRes) (s : State) : (portRes port res s).cols = s.cols := by
  unfold portRes; split <;> simp

@[simp] theorem readEnds_cols (id : Nat) (res : HostRes) (s : State) : (readEnds id res s).cols = s.cols := by
  unfold readEnds
  repeat' split
  all_goals simp

@[simp] theorem readTimeout_cols (id : Nat) (s : State) : (readTimeout id s).cols = s.cols := by
  simp [readTimeout]

/-! ### Set-up registers -/

@[simp] theorem clearRC_cols (s : State) (x1 : Reg) : (State.clearRC s x1).cols = s.cols := by
  unfold State.clearRC
  repeat' split
  all_goals simp

@[simp] theorem setupRead_cols (port off be : Nat) (s : State) : (setupRead port off be s).cols = s.cols := by
  unfold setupRead
  repeat' split
  all_goals simp

@[simp] theorem nudgeRead_cols (port fn off be : Nat) (s : State) : (nudgeRead port fn off be s).cols = s.cols := by
  simp [nudgeRead]

@[simp] theorem setPair_cols (r : Reg) (v : DWord) (s : State) : (setPair r v s).cols = s.cols := by
  unfold setPair; split <;> rfl

@[simp] theorem setLatch_cols (c : Nat) (v : Option Word) (s : State) : (setLatch c v s).cols = s.cols := rfl

@[simp] theorem strapOvr_cols (val : Word) (s : State) : (strapOvr val s).cols = s.cols := by
  simp [strapOvr]

end Sys2Proof.Machine
end

section
/-! PROOFS. Every step keeps the canonical form of column memory (O4): what writes, zeroes or drops columns leaves them canonical,
and so does each operation built on it. With it the two statements about every command and about reset (O1, O3). -/

namespace Sys2Proof.Machine

open Sys2Proof

/-- A memory of column bytes in canonical form (log 1): what O4 says of a state's columns. -/
def Canon (m : Tab Byte) : Prop := Tab.wf 0 m = true

@[simp] theorem canon_nil : Canon [] := rfl

@[simp] theorem canon_rekeyUnit (k u : Nat) (s : State) (h : Canon s.cols) : Canon (rekeyUnit k u s).cols :=
  wf_rekeyUnit k u s h

@[simp] theorem canon_putColumn (k key : Nat) (bytes : List Byte) (s : State) (h : Canon s.cols) :
    Canon (putColumn k key bytes s).cols := wf_putColumn k key bytes s h

@[simp] theorem canon_zeroColumns (k w : Nat) (s : State) (h : Canon s.cols) : Canon (zeroColumns k w s).cols :=
  wf_zeroColumns k w s h

@[simp] theorem canon_ite (p : Prop) [Decidable p] (a b : Tab Byte) (ha : p → Canon a) (hb : ¬p → Canon b) :
    Canon (if p then a else b) := by
  split <;> simp_all

/-- A register write that is judged legal leaves the columns canonical. -/
def OkCols (v : Verdict) : Prop := ∀ t, v = .ok t → Canon t.cols

@[simp] theorem okCols_ok (t : State) : OkCols (.ok t) ↔ Canon t.cols :=
  ⟨fun h => h t rfl, fun h _ e => Except.ok.inj e ▸ h⟩

@[simp] theorem okCols_error (c : Nat) : OkCols (.error c) := fun _ e => nomatch e

/-- A fold of steps that keep the columns canonical keeps them so. -/
theorem canon_foldl {α : Type} (f : State → α → State) (hf : ∀ a x, Canon a.cols → Canon (f a x).cols)
    (l : List α) (s : State) (h : Canon s.cols) : Canon (l.foldl f s).cols := by
  induction l generalizing s with
  | nil => exact h
  | cons x l ih => exact ih _ (hf s x h)

@[simp] theorem canon_regOp (port off val : Nat) (v : Verdict) (s : State) (hv : OkCols v) (h : Canon s.cols) :
    Canon (regOp port off val v s).cols := by
  unfold regOp
  split
  · split
    · simpa using hv _ rfl
    · exact h
  · exact h

@[simp] theorem canon_regOpEff (port off val : Nat) (eff : State → Nat) (v : Verdict) (s : State) (hv : OkCols v)
    (h : Canon s.cols) : Canon (regOpEff port off val eff v s).cols := by
  unfold regOpEff
  split
  · split
    · simpa using hv _ rfl
    · exact h
  · exact h

@[simp] theorem canon_modOp (w page port off val : Nat) (v : Verdict) (s : State) (hv : OkCols v) (h : Canon s.cols) :
    Canon (modOp w page port off val v s).cols := by
  unfold modOp; split <;> simp [hv, h]

@[simp] theorem canon_trayOp (t port off val : Nat) (v : Verdict) (s : State) (hv : OkCols v) (h : Canon s.cols) :
    Canon (trayOp t port off val v s).cols := by
  unfold trayOp; split <;> simp [hv, h]

@[simp] theorem canon_bySource (src : Source) (off val : Nat) (v : Verdict) (s : State) (hv : OkCols v)
    (h : Canon s.cols) : Canon (bySource src off val v s).cols := by
  unfold bySource
  split
  · exact canon_regOp _ _ _ _ _ hv h
  · split
    · simpa using h
    · split
      · simpa using hv _ rfl
      · simpa using h

@[simp] theorem canon_rfWrite (session : Nat) (f : State → State) (s : State) (hf : Canon (f s).cols)
    (h : Canon s.cols) : Canon (rfWrite session f s).cols := by
  unfold rfWrite
  split
  · exact h
  · split
    · exact h
    · exact hf

@[simp] theorem okCols_twoBits (val : Word) (a b : Nat) (va vb : Verdict) (s : State) (hva : OkCols va) (hvb : OkCols vb)
    (h : Canon s.cols) : OkCols (twoBits val a b va vb s) := by
  unfold twoBits
  split
  · exact okCols_error _
  · split
    · exact hva
    · split
      · exact hvb
      · exact (okCols_ok s).2 h

@[simp] theorem canon_gateWrite (who : Who) (w key : Nat) (bytes : List Byte) (s : State) (h : Canon s.cols) :
    Canon (gateWrite who w key bytes s).2.cols := by
  unfold gateWrite
  split
  · exact h
  · split
    · exact h
    · split
      · simpa [countRefused_cols] using h
      · split
        · exact h
        · exact canon_putColumn _ _ _ _ h

@[simp] theorem canon_landWrite (who : Who) (w key addr : Nat) (bytes : List Byte) (s : State) (h : Canon s.cols) :
    Canon (landWrite who w key addr bytes s).2.cols := by
  unfold landWrite
  dsimp only
  split <;> simp [h]

@[simp] theorem readPart_cols (key : Nat) (mods : List Nat) (addr len : Nat) (s : State) :
    (readPart key mods addr len s).2.cols = s.cols := by
  unfold readPart
  dsimp only
  split
  · simp
  · split
    · exact countRefused_cols ..
    · split <;> simp

@[simp] theorem readRun_cols (key : Nat) (mods : List Nat) (src n0 : Nat) (s : State) :
    (readRun key mods src n0 s).2.2.cols = s.cols := by
  unfold readRun
  dsimp only
  split
  · refine foldl_carries State.cols (fun b : List (Nat × Option (List Byte)) × Nat × State => b.2.2) _ (fun b x => ?_) _ _
    split
    · rfl
    · exact readPart_cols ..
  · rfl
  · rfl

@[simp] theorem canon_writeRun (key : Nat) (mods : List Nat) (l : List (Nat × List Byte)) (s : State)
    (h : Canon s.cols) : Canon (writeRun key mods l s).cols := by
  refine canon_foldl _ (fun a x ha => ?_) _ _ h
  split
  · refine canon_foldl _ (fun b p hb => ?_) _ _ ha
    unfold chanWritePart postWrite
    dsimp only
    split <;> simp [hb]
  · exact canon_foldl _ (fun b p hb => by simp [hb]) _ _ ha
  · simp [ha]

@[simp] theorem canon_runTransfer (key : Nat) (runs : List (Nat × Nat)) (s : State) (h : Canon s.cols) :
    Canon (runTransfer key runs s).cols := by
  unfold runTransfer
  dsimp only
  generalize s.chanMods key = mods
  suffices hfold : ∀ (l : List (Nat × Nat)) (b : Nat × State), Canon b.2.cols →
      Canon (l.foldl (fun (a : Nat × State) r =>
        ((readRun key mods r.1 a.1 a.2).2.1, writeRun key mods (segs r.2 (readRun key mods r.1 a.1 a.2).1)
          (readRun key mods r.1 a.1 a.2).2.2)) b).2.cols from hfold _ _ h
  intro l
  induction l with
  | nil => exact fun b hb => hb
  | cons r l ih => exact fun b hb => ih _ (by simp [hb])

/-! ### Packets -/

@[simp] theorem canon_postWrite (who : Who) (mods : List Nat) (src : Place) (forced : Bool) (pa : Nat) (bytes : List Byte)
    (s : State) (h : Canon s.cols) : Canon (postWrite who mods src forced pa bytes s).cols := by
  simp [postWrite, h]

@[simp] theorem canon_postAll (who : Who) (mods : List Nat) (src : Place) (forced : Bool) (ws : List (Nat × List Byte))
    (s : State) (h : Canon s.cols) : Canon (postAll who mods src forced ws s).cols :=
  canon_foldl _ (fun _ _ ha => canon_postWrite _ _ _ _ _ _ _ ha) _ _ h

@[simp] theorem canon_deliverWrite (w : Nat) (p : Packet) (s : State) (h : Canon s.cols) :
    Canon (deliverWrite w p s).cols := by
  unfold deliverWrite
  dsimp only
  repeat' split
  all_goals simp [countRefused_cols, h]

@[simp] theorem canon_deliverPkt (p : Packet) (s : State) (h : Canon s.cols) : Canon (deliverPkt p s).cols := by
  unfold deliverPkt; split <;> simp [h]

@[simp] theorem canon_forward (p0 : Packet) (s : State) (h : Canon s.cols) : Canon (forward p0 s).cols := by
  unfold forward
  dsimp only
  repeat' split
  all_goals simp [h]

/-! ### Commands in progress -/

@[simp] theorem dispatchHead_cols (r : Nat) (e : Entry) (op : Op) (s : State) : (dispatchHead r e op s).2.cols = s.cols := by
  unfold dispatchHead
  dsimp only
  refine (foldl_cols _ (fun a x => ?_) _ _).trans ?_
  · simp
  · simp

/-! ### Tiles -/

@[simp] theorem canon_mxEpilogue (r : Nat) (seq : DWord) (t : Nat) (s : State) (h : Canon s.cols) :
    Canon (mxEpilogue r seq t s).cols := by
  have hscratch : ∀ (key : Nat) (l : List (Nat × List Byte)) (a : State),
      (l.foldl (fun st w => st.writeScratch key w.1 w.2) a).cols = a.cols := fun key =>
    foldl_cols _ (fun _ _ => writeScratch_cols ..)
  unfold mxEpilogue
  split
  · exact h
  · split
    · exact h
    · dsimp only
      split
      · exact h
      · rw [reportPoison_cols, modCmd_cols]
        split <;> simp [hscratch, h]

@[simp] theorem canon_forceSpill (r : Nat) (c : Cmd) (s : State) (h : Canon s.cols) : Canon (forceSpill r c s).cols := by
  have hwrites : Canon ((spillWrites s c).foldl (fun a x => postAll (a.whoOf r c.seq) c.mods x.1 false x.2 a) s).cols :=
    canon_foldl _ (fun a x ha => canon_postAll _ _ _ _ _ _ ha) _ _ h
  unfold forceSpill
  dsimp only
  split
  · split <;> simpa [modCmd_cols] using hwrites
  · simpa [modCmd_cols] using hwrites

@[simp] theorem canon_vxEnd (r : Nat) (seq : DWord) (t : Nat) (s : State) (h : Canon s.cols) :
    Canon (vxEnd r seq t s).cols := by
  unfold vxEnd
  repeat' split
  all_goals simp [reportPoison_cols, modCmd_cols, h]

/-! ### Transfers of the move engine -/

@[simp] theorem canon_chanWritePart (key : Nat) (mods : List Nat) (addr : Nat) (bytes : List Byte) (s : State) (h : Canon s.cols) :
    Canon (chanWritePart key mods addr bytes s).cols := by
  simp [chanWritePart, h]

@[simp] theorem canon_writeIssued (key : Nat) (s : State) (h : Canon s.cols) : Canon (writeIssued key s).cols := by
  simp [writeIssued, h]

@[simp] theorem canon_finishChan (key : Nat) (s : State) (h : Canon s.cols) : Canon (finishChan key s).cols := by
  unfold finishChan
  dsimp only
  repeat' split
  all_goals simp [complete_cols, h]

@[simp] theorem canon_abortChan (key : Nat) (s : State) (h : Canon s.cols) : Canon (abortChan key s).cols := by
  unfold abortChan; dsimp only; split <;> simp [h]

/-! ### Dispatch -/

@[simp] theorem canon_reduceMember (r : Nat) (c : Cmd) (m : Nat) (s : State) (h : Canon s.cols) :
    Canon (reduceMember r c m s).cols := by
  simp only [reduceMember, reportPoison_cols]
  rw [foldl_cols _ (fun a m' => contribute_cols ..)]
  exact canon_foldl _ (fun a x ha => canon_landWrite _ _ _ _ _ _ ha) _ _ h

@[simp] theorem canon_startOp (op : Op) (r : Nat) (c : Cmd) (s : State) (h : Canon s.cols) : Canon (startOp op r c s).cols := by
  cases op with
  | fxReduce => exact canon_foldl _ (fun a m ha => canon_reduceMember _ _ _ _ ha) _ _ h
  | _ => simp [startOp, complete_cols, h]

@[simp] theorem canon_serveHead (r : Nat) (s0 : State) (h : Canon s0.cols) : Canon (serveHead r s0).2.cols := by
  unfold serveHead
  dsimp only
  repeat' split
  all_goals simp [noteHead_cols, h]

@[simp] theorem canon_serveOp (op : Op) (r : Nat) (s : State) (h : Canon s.cols) : Canon (serveOp op r s).cols := by
  simp [serveOp, h]

@[simp] theorem canon_serveRing (f k r : Nat) (s : State) (h : Canon s.cols) : Canon (serveRing f k r s).cols := by
  induction f generalizing k s with
  | zero => exact h
  | succ f ih =>
    cases k with
    | zero => exact h
    | succ k =>
      have hhead := canon_serveHead r s h
      unfold serveRing
      split <;> rename_i hs <;> rw [hs] at hhead
      · exact hhead
      · exact ih _ _ hhead
      · exact ih _ _ hhead

@[simp] theorem canon_dispatcherServe (p eng : Nat) (s : State) (h : Canon s.cols) :
    Canon (dispatcherServe p eng s).cols := by
  unfold dispatcherServe
  dsimp only
  refine canon_foldl _ (fun a x ha => ?_) _ _ ?_
  · simp [ha]
  · simp [h]

/-! ### Completion, tally writes and waits -/

@[simp] theorem canon_commandDone (r : Nat) (seq : DWord) (s : State) (h : Canon s.cols) :
    Canon (commandDone r seq s).cols := by
  unfold commandDone
  repeat' split
  all_goals simp [complete_cols, h]

/-! ### Partitions -/

@[simp] theorem canon_cutCommands (p : Nat) (s : State) (h : Canon s.cols) : Canon (cutCommands p s).cols := by
  refine canon_foldl _ (fun a r ha => canon_foldl _ (fun b c hb => ?_) _ _ ha) _ _ h
  split
  · exact canon_foldl _ (fun d k hd => canon_abortChan _ _ hd) _ _ hb
  · simpa using hb

@[simp] theorem canon_stopPart (p : Nat) (cut : Bool) (s : State) (h : Canon s.cols) : Canon (stopPart p cut s).cols := by
  simp [stopPart, h]

@[simp] theorem canon_windPart (p : Nat) (how : Wind) (lost : Bool) (s : State) (h : Canon s.cols) :
    Canon (windPart p how lost s).cols := by
  unfold windPart
  dsimp only
  split
  · simpa using h
  · simp [h]
  · split
    · split <;> simp [h, eraseSlots_cols]
    · split
      · refine canon_stopPart _ _ _ ?_
        rw [setPart_cols]
        split <;> simp [h]
      · simp [h]

@[simp] theorem canon_scrubPart (p : Nat) (s : State) (h : Canon s.cols) : Canon (scrubPart p s).cols := by
  unfold scrubPart
  dsimp only
  rw [unbind_cols]
  refine canon_foldl _ (fun a w ha => (zeroScratch_cols ..).symm ▸ canon_zeroColumns _ _ _ ha) _ _ ?_
  rw [eraseSlots_cols]
  exact h

@[simp] theorem canon_endPart (p : Nat) (s : State) (h : Canon s.cols) : Canon (endPart p s).cols := by
  have hscrub := canon_scrubPart p s h
  unfold endPart
  dsimp only
  split
  · split
    · simpa using hscrub
    · split <;> simpa using hscrub
  · simpa using hscrub

@[simp] theorem canon_partWindDone (p : Nat) (s : State) (h : Canon s.cols) : Canon (partWindDone p s).cols := by
  simp [partWindDone, h]

@[simp] theorem canon_windTen (n : Nat) (s : State) (h : Canon s.cols) : Canon (windTen n s).cols := by
  simp only [windTen, dropEphemeral_cols, eraseSlots_cols]
  exact canon_foldl _ (fun a r ha => by simpa using ha) _ _ (canon_foldl _ (fun a p ha => canon_windPart _ _ _ _ ha) _ _ h)

@[simp] theorem canon_startReset (n : Nat) (cfg : Bool) (s : State) (h : Canon s.cols) : Canon (startReset n cfg s).cols := by
  unfold startReset
  dsimp only
  split
  · exact h
  · exact h
  · rw [dropTallies_cols]
    refine canon_foldl _ (fun a p ha => canon_windPart _ _ _ _ ha) _ _ ?_
    rw [dropTenReads_cols]
    exact canon_foldl _ (fun a r ha => by simpa using ha) _ _ h

@[simp] theorem canon_discardItems (n : Nat) (s : State) (h : Canon s.cols) : Canon (discardItems n s).cols := by
  unfold discardItems
  dsimp only
  refine canon_foldl _ (fun a x ha => ?_) _ _ ?_
  · simp [ha]
  · simp [h]

@[simp] theorem canon_scrubDone (n : Nat) (s : State) (h : Canon s.cols) : Canon (scrubDone n s).cols := by
  have hparts : ∀ (l : List Nat) (a : State), Canon a.cols → Canon (l.foldl (fun a p => endPart p a) a).cols :=
    canon_foldl _ (fun a p ha => canon_endPart _ _ ha)
  have hrings : ∀ (l : List Nat) (a : State),
      (l.foldl (fun a r => if (a.ring r).inProg.isEmpty then endRing r a else a) a).cols = a.cols :=
    foldl_cols _ (fun a r => by split <;> simp)
  unfold scrubDone
  dsimp only
  split
  · split
    · rw [foldl_cols _ (fun a p => startEnable_cols ..)]
      exact hparts _ _ (by simpa [hrings] using h)
    · exact hparts _ _ (by simpa [hrings] using h)
  · exact h

/-! ### Tenants -/

@[simp] theorem okCols_tenantEnable (n : Nat) (s : State) (h : Canon s.cols) : OkCols (tenantEnable n s) := by
  unfold tenantEnable
  repeat' split
  all_goals simp [h]

@[simp] theorem okCols_tenantDisable (n : Nat) (s : State) (h : Canon s.cols) : OkCols (tenantDisable n s) := by
  unfold tenantDisable; split <;> simp [h]

@[simp] theorem okCols_partitionEnable (p : Nat) (s : State) (h : Canon s.cols) : OkCols (partitionEnable p s) := by
  unfold partitionEnable
  dsimp only
  repeat' split
  all_goals simp [h]

@[simp] theorem okCols_partitionDisable (p : Nat) (cut : Bool) (s : State) (h : Canon s.cols) :
    OkCols (partitionDisable p cut s) := by
  simp [partitionDisable, h]

@[simp] theorem canon_resetFn (port fn : Nat) (cfg : Bool) (s : State) (h : Canon s.cols) :
    Canon (resetFn port fn cfg s).cols := by
  unfold resetFn; split <;> simp [h]

@[simp] theorem canon_setSriov (port : Nat) (nv : BitVec 4) (en : Bool) (s : State) (h : Canon s.cols) :
    Canon (setSriov port nv en s).cols := by
  unfold setSriov
  exact canon_foldl _ (fun a f ha => canon_resetFn _ _ _ _ (by exact ha)) _ _ (by exact h)

@[simp] theorem canon_flr (port fn : Nat) (s : State) (h : Canon s.cols) : Canon (flr port fn s).cols := by
  unfold flr
  dsimp only
  repeat' split
  all_goals simp [h]

@[simp] theorem canon_resetPort (port : Nat) (s : State) (h : Canon s.cols) : Canon (resetPort port s).cols := by
  refine canon_foldl _ (fun a f ha => canon_resetFn _ _ _ _ ha) _ _ ?_
  rw [setPort_cols, foldl_cols _ (fun a f => setFn_cols ..)]
  exact canon_setSriov _ _ _ _ h

@[simp] theorem canon_hotReset (port : Nat) (s : State) (h : Canon s.cols) : Canon (hotReset port s).cols := by
  simp [hotReset, h]

@[simp] theorem canon_linkDown (port : Nat) (s : State) (h : Canon s.cols) : Canon (linkDown port s).cols := by
  unfold linkDown
  split
  · exact canon_resetPort _ _ h
  · exact h

@[simp] theorem canon_pcieConfig (port fn : Nat) (cfg : CfgWrite) (s : State) (h : Canon s.cols) :
    Canon (pcieConfig port fn cfg s).cols := by
  unfold pcieConfig
  repeat' split
  all_goals simp [h]

@[simp] theorem canon_flrTimeout (n : Nat) (s : State) (h : Canon s.cols) : Canon (flrTimeout n s).cols := by
  simp [flrTimeout, h]

/-! ### Rings -/

@[simp] theorem okCols_ringEnable (r : Nat) (s : State) (h : Canon s.cols) : OkCols (ringEnable r s) := by
  unfold ringEnable
  dsimp only
  repeat' split
  all_goals simp [h]

@[simp] theorem okCols_ringDisable (r : Nat) (s : State) (h : Canon s.cols) : OkCols (ringDisable r s) := by
  unfold ringDisable; dsimp only; split <;> simp [h]

/-! ### The fabric -/

@[simp] theorem canon_packetArrives (pid : Nat) (good : Bool) (s : State) (h : Canon s.cols) :
    Canon (packetArrives pid good s).cols := by
  have htake := (takePkt_cols pid s).symm ▸ h
  unfold packetArrives
  split
  · exact h
  · split
    · exact h
    · dsimp only
      split
      · split
        · exact (askAll_cols _).symm ▸ canon_forward _ _ htake
        · simpa using h
      · exact canon_forward _ _ htake

@[simp] theorem okCols_linkFence (l : Nat) (s : State) (h : Canon s.cols) : OkCols (linkFence l s) := by
  unfold linkFence; split <;> simp [h]

@[simp] theorem okCols_linkUnfence (l : Nat) (s : State) (h : Canon s.cols) : OkCols (linkUnfence l s) := by
  unfold linkUnfence; split <;> simp [h]

@[simp] theorem canon_reduceFold (r : Nat) (seq : DWord) (m : Nat) (s : State) (h : Canon s.cols) :
    Canon (reduceFold r seq m s).cols := by
  unfold reduceFold
  dsimp only
  repeat' split
  all_goals simp [reportPoison_cols, modCmd_cols, h]

/-! ### Shapes and the Sound -/

@[simp] theorem okCols_shapeRequest (target : Shape) (s : State) (h : Canon s.cols) : OkCols (shapeRequest target s) := by
  unfold shapeRequest
  repeat' split
  all_goals simp [h]

@[simp] theorem canon_losePart (p w cause : Nat) (s : State) (h : Canon s.cols) : Canon (losePart p w cause s).cols := by
  simp [losePart, deliver_cols, h]

@[simp] theorem canon_judgePart (old new_ : Shape) (p : Nat) (mods : List Nat) (s : State) (h : Canon s.cols) :
    Canon (judgePart old new_ p mods s).2.cols := by
  unfold judgePart; dsimp only; split <;> simp [deliver_cols, h]

@[simp] theorem canon_release3 (seams circuits : List Nat) (s : State) (h : Canon s.cols) :
    Canon (release3 seams circuits s).cols := by
  have hjudge : ∀ (old new_ : Shape) (l : List (Nat × List Nat)) (b : List Nat × List Nat × State), Canon b.2.2.cols →
      Canon (l.foldl (fun (a : List Nat × List Nat × State) p =>
        if (judgePart old new_ p.1 p.2 a.2.2).1 then (a.1 ++ [p.1], a.2.1, (judgePart old new_ p.1 p.2 a.2.2).2)
        else (a.1, a.2.1 ++ [p.1], (judgePart old new_ p.1 p.2 a.2.2).2)) b).2.2.cols := by
    intro old new_ l
    induction l with
    | nil => exact fun b hb => hb
    | cons p l ih =>
      refine fun b hb => ih _ ?_
      have hp := canon_judgePart old new_ p.1 p.2 b.2.2 hb
      dsimp only
      split <;> exact hp
  unfold release3
  split
  · rw [machineEvent_cols]
    refine hjudge _ _ _ _ ?_
    rw [foldl_cols _ (fun a q => failLink_cols ..)]
    simpa using h
  · exact h

@[simp] theorem okCols_soundEnter (s : State) (h : Canon s.cols) : OkCols (soundEnter s) := by
  unfold soundEnter
  repeat' split
  all_goals simp [h]

@[simp] theorem okCols_soundLeave (s : State) (h : Canon s.cols) : OkCols (soundLeave s) := by
  unfold soundLeave; split <;> simp [h]

@[simp] theorem okCols_extWrite (e : Nat) (val : Word) (s : State) (h : Canon s.cols) : OkCols (extWrite e val s) := by
  unfold extWrite; dsimp only; split <;> simp [h]

/-! ### Attention -/

@[simp] theorem canon_stepEnd (r : Nat) (seq : DWord) (i tile : Nat) (s : State) (h : Canon s.cols) :
    Canon (stepEnd r seq i tile s).cols := by
  unfold stepEnd; split <;> simp [reportPoison_cols, modCmd_cols, h]

/-! ### The census of cores -/

@[simp] theorem canon_numberMods (ws : List Nat) (items : List BootItem) (s : State) (h : Canon s.cols) :
    Canon (numberMods ws items s).2.2.cols := by
  unfold numberMods
  dsimp only
  rw [foldl_carries State.cols (fun b : List BootItem × List (Nat × Nat) × State => b.2.2) _
    (fun b g => (foldl_cols _ (fun a p => setColm_cols ..) _ _).trans (setIsle_cols ..))]
  exact canon_foldl _ (fun a w ha => (zeroScratch_cols ..).symm ▸ canon_zeroColumns _ _ _ ha) _ _ h

@[simp] theorem canon_testModule (w : Nat) (items : List BootItem) (s : State) (h : Canon s.cols) :
    Canon (testModule w items s).2.cols := by
  simp [testModule, h]

/-! ### Modules -/

@[simp] theorem canon_loseModule (w cause : Nat) (s : State) (h : Canon s.cols) : Canon (loseModule w cause s).cols := by
  unfold loseModule
  split
  · dsimp only
    rw [lowerMod_cols, machineEvent_cols, foldl_cols _ (fun a g => setIsle_cols ..), foldl_cols _ (fun a q => failLink_cols ..),
      dropLate_cols, dropModPackets_cols, endDiag_cols]
    exact canon_foldl _ (fun a p ha => canon_losePart _ _ _ _ ha) _ _ h
  · simpa using h

@[simp] theorem canon_applyOrder (w : Nat) (s : State) (h : Canon s.cols) : Canon (applyOrder w s).cols := by
  unfold applyOrder
  dsimp only
  repeat' split
  all_goals simp [h]

@[simp] theorem canon_downDone (w : Nat) (s : State) (h : Canon s.cols) : Canon (downDone w s).cols := by
  simp [downDone, h]

/-! ### Fences -/

@[simp] theorem canon_fenceChannel (f : FenceInfo) (n : Nat) (s : State) (h : Canon s.cols) :
    Canon (fenceChannel f n s).cols := by
  unfold fenceChannel
  dsimp only
  repeat' split
  all_goals simp [modCmd_cols, complete_cols, h]

@[simp] theorem canon_fenceFx (f : FenceInfo) (r : Nat) (c : Cmd) (s : State) (h : Canon s.cols) :
    Canon (fenceFx f r c s).cols := by
  unfold fenceFx
  repeat' split
  all_goals simp [modCmd_cols, h]

@[simp] theorem canon_replayAll (f : FenceInfo) (s : State) (h : Canon s.cols) : Canon (replayAll f s).cols := by
  refine canon_foldl _ (fun a n ha => canon_fenceChannel _ _ _ ha) _ _ (canon_foldl _ (fun a r ha => ?_) _ _ h)
  simp only [fenceMembers_cols]
  refine canon_foldl _ (fun b c hb => ?_) _ _ ha
  split
  · exact hb
  · split
    · exact canon_fenceFx _ _ _ _ hb
    · simpa [modCmd_cols] using hb

@[simp] theorem canon_fenceCore (w die isle c cause : Nat) (s : State) (h : Canon s.cols) :
    Canon (fenceCore w die isle c cause s).cols := by
  unfold fenceCore; dsimp only; split <;> simp [h]

@[simp] theorem canon_detectedFault (w die isle c cause : Nat) (s : State) (h : Canon s.cols) :
    Canon (detectedFault w die isle c cause s).cols := by
  simp [detectedFault, h]

@[simp] theorem canon_runFences (w : Nat) (s : State) (h : Canon s.cols) : Canon (runFences w s).cols := by
  unfold runFences
  dsimp only
  refine canon_foldl _ (fun a x ha => ?_) _ _ ?_
  · repeat' split
    all_goals simp [ha]
  · simp [h]

@[simp] theorem okCols_coreCtl (val : Word) (s : State) (h : Canon s.cols) : OkCols (coreCtl val s) := by
  unfold coreCtl
  dsimp only
  repeat' split
  all_goals simp [h]

/-! ### Move channels in command mode -/

@[simp] theorem okCols_chanGo (w n : Nat) (s : State) (h : Canon s.cols) : OkCols (chanGo w n s) := by
  unfold chanGo
  dsimp only
  repeat' split
  all_goals simp [h]

@[simp] theorem okCols_chanAbort (w n : Nat) (s : State) (h : Canon s.cols) : OkCols (chanAbort w n s) := by
  unfold chanAbort; split <;> simp [h]

@[simp] theorem okCols_diagEnable (w : Nat) (s : State) (h : Canon s.cols) : OkCols (diagEnable w s) := by
  unfold diagEnable
  repeat' split
  all_goals simp [h]

@[simp] theorem okCols_diagDisable (w : Nat) (s : State) (h : Canon s.cols) : OkCols (diagDisable w s) := by
  unfold diagDisable
  split
  · exact (okCols_ok _).2 (canon_foldl _ (fun a k ha => canon_abortChan _ _ ha) _ _ h)
  · exact (okCols_ok _).2 h

@[simp] theorem canon_diagExit (w : Nat) (s : State) (h : Canon s.cols) : Canon (diagExit w s).cols := by
  unfold diagExit
  split
  · exact (zeroScratch_cols ..).symm ▸ canon_zeroColumns _ _ _ h
  · exact h

/-! ### Trays -/

@[simp] theorem canon_darkMod (w : Nat) (s : State) (h : Canon s.cols) : Canon (darkMod w s).cols := by
  simp [darkMod, h]

@[simp] theorem canon_trayDark (t : Nat) (s : State) (h : Canon s.cols) : Canon (trayDark t s).cols := by
  have hdark : ∀ a : State, Canon a.cols → Canon ((trayMods t).foldl (fun a w => darkMod w a) a).cols :=
    canon_foldl _ (fun a w ha => canon_darkMod _ _ ha) _
  have hports : ∀ a : State, Canon a.cols →
      Canon ((List.range 8).foldl (fun a q => linkDown ((t - 12) * 8 + q) a) a).cols :=
    canon_foldl _ (fun a q ha => canon_linkDown _ _ ha) _
  unfold trayDark
  simp only [changeSplices_cols, ite_cols, setTtherm_cols, intakeLoss_cols, ite_self]
  exact canon_ite _ _ _ (fun _ => hports _ (hdark _ h)) (fun _ => hdark _ h)

@[simp] theorem canon_loseTray (t cause : Nat) (s : State) (h : Canon s.cols) : Canon (loseTray t cause s).cols := by
  have hmods : Canon ((trayMods t).foldl (fun a w => loseModule w cause a) s).cols :=
    canon_foldl _ (fun a w ha => canon_loseModule _ _ _ ha) _ _ h
  have hports : ∀ (l : List Nat) (a : State), (l.foldl (fun a l => failLink l 5 a) a).cols = a.cols :=
    foldl_cols _ (fun a l => failLink_cols ..)
  have hdark := canon_trayDark t _ ((hports (trayPorts t) _).symm ▸ hmods)
  unfold loseTray
  dsimp only
  split
  · split
    · exact hdark
    · simpa using hdark
  · exact hdark

@[simp] theorem okCols_trayPrepare (t : Nat) (s : State) (h : Canon s.cols) : OkCols (trayPrepare t s) := by
  unfold trayPrepare
  split
  · exact okCols_error 3
  · split
    · exact (okCols_ok _).2 h
    · split
      · exact okCols_error 5
      · exact (okCols_ok _).2 (canon_foldl _ (fun a w ha => canon_loseModule _ _ _ ha) _ _ (by simpa using h))

@[simp] theorem canon_trayReady (t : Nat) (s : State) (h : Canon s.cols) : Canon (trayReady t s).cols := by
  simp [trayReady, h]

@[simp] theorem okCols_trayCancel (t : Nat) (s : State) (h : Canon s.cols) : OkCols (trayCancel t s) := by
  unfold trayCancel; split <;> simp [h]

@[simp] theorem canon_trayRemoval (t : Nat) (s : State) (h : Canon s.cols) : Canon (trayRemoval t s).cols := by
  unfold trayRemoval; dsimp only; split <;> simp [h]

@[simp] theorem canon_testsDone (w : Nat) (items : List BootItem) (s : State) (h : Canon s.cols) :
    Canon (testsDone w items s).cols := by
  unfold testsDone
  dsimp only
  repeat' split
  all_goals simp [h]

@[simp] theorem canon_joinModule (items : List BootItem) (w : Nat) (s : State) (h : Canon s.cols) :
    Canon (joinModule items w s).cols := by
  unfold joinModule
  split
  · exact h
  · split
    · simpa using h
    · split
      · simpa using h
      · split
        · exact canon_testsDone _ _ _ h
        · exact h

@[simp] theorem canon_joinDone (t : Nat) (items : List BootItem) (s : State) (h : Canon s.cols) :
    Canon (joinDone t items s).cols := by
  have hfail : ∀ (stage cause : Nat) (l : List Nat) (a : State),
      (l.foldl (fun a w => failTests w stage cause a) a).cols = a.cols := fun stage cause =>
    foldl_cols _ (fun a w => failTests_cols ..)
  have hjoin : ∀ (its : List BootItem) (l : List Nat) (a : State), Canon a.cols →
      Canon (l.foldl (fun a w => joinModule its w a) a).cols := fun its =>
    canon_foldl _ (fun a w ha => canon_joinModule _ _ _ ha)
  have hports : ∀ (l : List Nat) (a : State), (l.foldl (fun a q => a.setPort ((t - 12) * 8 + q)
      { a.port ((t - 12) * 8 + q) with trains := 0, replays := 0, cplTimeouts := 0, nudges := 0, resets := 0 }) a).cols = a.cols :=
    foldl_cols _ (fun a q => setPort_cols ..)
  unfold joinDone
  dsimp only
  split
  · split
    · simp [hfail, h]
    · split
      · split <;> simp [hfail, h]
      · simp only [ite_cols, modePoint_cols, changeSplices_cols, retrainTray_cols, hports, ite_self]
        refine hjoin _ _ _ ?_
        rw [joinTray_cols, setSvc_cols, stageLog_cols]
        split <;> simpa using h
  · exact h

/-! ### Faults and repair -/

@[simp] theorem canon_columnLost (g c : Nat) (s : State) (h : Canon s.cols) : Canon (columnLost g c s).cols := by
  simp [columnLost, h]

@[simp] theorem canon_columnFails (g c : Nat) (s : State) (h : Canon s.cols) : Canon (columnFails g c s).cols := by
  unfold columnFails
  dsimp only
  repeat' split
  all_goals simp [h]

@[simp] theorem canon_repairRow (g c row : Nat) (bad : Bool) (s : State) (h : Canon s.cols) :
    Canon (repairRow g c row bad s).cols := by
  unfold repairRow
  dsimp only
  repeat' split
  all_goals simp [h]

@[simp] theorem canon_columnError (g u : Nat) (bad : Bool) (s : State) (h : Canon s.cols) :
    Canon (columnError g u bad s).cols := by
  unfold columnError
  dsimp only
  repeat' split
  all_goals simp [h]

@[simp] theorem okCols_moduleRetest (val : Word) (s : State) (h : Canon s.cols) : OkCols (moduleRetest val s) := by
  unfold moduleRetest
  dsimp only
  repeat' split
  all_goals simp [h]

/-! ### Power -/

@[simp] theorem okCols_modCapHost (w : Nat) (val : Word) (s : State) (h : Canon s.cols) : OkCols (modCapHost w val s) := by
  unfold modCapHost; dsimp only; split <;> simp [h]

@[simp] theorem okCols_partCapHost (p : Nat) (val : Word) (s : State) (h : Canon s.cols) : OkCols (partCapHost p val s) := by
  unfold partCapHost; dsimp only; split <;> simp [h]

@[simp] theorem okCols_rackCapHost (val : Word) (s : State) (h : Canon s.cols) : OkCols (rackCapHost val s) := by
  unfold rackCapHost; dsimp only; split <;> simp [h]

@[simp] theorem okCols_orderHost (w : Nat) (val : Word) (s : State) (h : Canon s.cols) : OkCols (orderHost w val s) := by
  unfold orderHost
  split
  · exact okCols_error 3
  · exact (okCols_ok _).2 (canon_applyOrder _ _ h)

@[simp] theorem canon_orderRm (session w v : Nat) (s : State) (h : Canon s.cols) : Canon (orderRm session w v s).cols := by
  unfold orderRm; split <;> simp [h]

@[simp] theorem canon_setAuto (on : Bool) (w : Nat) (s : State) (h : Canon s.cols) : Canon (setAuto on w s).cols :=
  canon_applyOrder _ _ h

@[simp] theorem canon_autoOrders (s : State) (h : Canon s.cols) : Canon (autoOrders s).cols := by
  have hset : ∀ (on : Bool) (l : List Nat) (a : State), Canon a.cols → Canon (l.foldl (fun a w => setAuto on w a) a).cols :=
    fun on => canon_foldl _ (fun a w ha => canon_setAuto _ _ _ ha)
  unfold autoOrders
  dsimp only
  split
  · exact hset _ _ _ h
  · split <;> exact hset _ _ _ h

@[simp] theorem canon_shelfReport (n good out : Nat) (present : Bool) (s : State) (h : Canon s.cols) :
    Canon (shelfReport n good out present s).cols := by
  simp [shelfReport, h]

@[simp] theorem canon_railFault (w rail mv : Nat) (s : State) (h : Canon s.cols) : Canon (railFault w rail mv s).cols := by
  unfold railFault
  dsimp only
  repeat' split
  all_goals simp [h]

@[simp] theorem canon_resumeMod (w : Nat) (s : State) (h : Canon s.cols) : Canon (resumeMod w s).cols := by
  simp [resumeMod, h]

@[simp] theorem canon_coreStep (w : Nat) (s : State) (h : Canon s.cols) : Canon (coreStep w s).cols := by
  unfold coreStep; dsimp only; split <;> simp [h]

@[simp] theorem canon_powerDown (s : State) (h : Canon s.cols) : Canon (powerDown s).cols := by
  have hmods : ∀ (l : List Nat) (a : State), (l.foldl (fun b w => b.setMod w { b.mod w with
      state := if (b.mod w).state = 0 then 0 else 2, bind := none, gateClosed := false, diagEn := false, diagActive := false })
      a).cols = a.cols := foldl_cols _ (fun b w => setMod_cols ..)
  unfold powerDown
  dsimp only
  refine canon_foldl _ (fun a t ha => canon_trayDark _ _ ?_) _ _ h
  rw [hmods]
  exact ha

@[simp] theorem canon_holdExpiry (s : State) (h : Canon s.cols) : Canon (holdExpiry s).cols := by
  simp [holdExpiry, h]

@[simp] theorem canon_undervolt (t : Nat) (s : State) (h : Canon s.cols) : Canon (undervolt t s).cols := by
  simp [undervolt, h]

/-! ### Heat -/

@[simp] theorem canon_applyVote (a v : Nat) (s : State) (h : Canon s.cols) : Canon (applyVote a v s).cols := by
  unfold applyVote
  repeat' split
  all_goals simp [h]

@[simp] theorem canon_orderReceipt (a heard bits : Nat) (s : State) (h : Canon s.cols) :
    Canon (orderReceipt a heard bits s).cols := by
  unfold orderReceipt
  dsimp only
  repeat' split
  all_goals simp [h]

@[simp] theorem canon_reservoirChange (lv : Nat) (s : State) (h : Canon s.cols) : Canon (reservoirChange lv s).cols := by
  have htrays : ∀ (l : List Nat) (a : State), Canon a.cols → Canon (l.foldl (fun a t =>
      logAdd 5 3 t (w64 lv) 0 [] (machineEvent 0x0503 0 (t + 32) none 0 0
        (closeValve t (loseTray t 3 (holdMods (trayMods t) a))))) a).cols :=
    canon_foldl _ (fun a t ha => by simp [ha])
  unfold reservoirChange
  simp only [ite_cols, limitEvent_cols, machineEvent_cols, ite_self]
  exact canon_ite _ _ _ (fun _ => htrays _ _ (by simpa using h)) (fun _ => h)

@[simp] theorem canon_comparatorTrip (t slot d : Nat) (s : State) (h : Canon s.cols) :
    Canon (comparatorTrip t slot d s).cols := by
  unfold comparatorTrip
  dsimp only
  split
  · split
    · rw [limitEvent_cols, logAdd_cols, machineEvent_cols]
      exact canon_loseModule _ _ _ (by simpa using h)
    · exact h
  · split
    · rw [logAdd_cols, machineEvent_cols, closeValve_cols]
      exact canon_loseTray _ _ _ h
    · exact h

@[simp] theorem canon_lossOfFlow (s : State) (h : Canon s.cols) : Canon (lossOfFlow s).cols := by
  unfold lossOfFlow
  split
  · dsimp only
    rw [limitEvent_cols, logAdd_cols, machineEvent_cols]
    exact canon_foldl _ (fun a t ha => by simp [ha]) _ _ h
  · exact h

@[simp] theorem canon_leakCutoff (t : Nat) (s : State) (h : Canon s.cols) : Canon (leakCutoff t s).cols := by
  simp [leakCutoff, h]

/-! ### Intake ports -/

@[simp] theorem okCols_gcCmd (k : Nat) (wr : Bool) (s : State) (h : Canon s.cols) : OkCols (gcCmd k wr s) := by
  unfold gcCmd
  dsimp only
  repeat' split
  all_goals simp [h]

@[simp] theorem okCols_cxpCtl (k : Nat) (val : Word) (s : State) (h : Canon s.cols) : OkCols (cxpCtl k val s) := by
  unfold cxpCtl; split <;> simp [h]

@[simp] theorem okCols_pinWrite (k m : Nat) (val : Word) (s : State) (h : Canon s.cols) : OkCols (pinWrite k m val s) := by
  unfold pinWrite
  dsimp only
  repeat' split
  all_goals simp [h]

@[simp] theorem okCols_trigArm (k : Nat) (val : Word) (s : State) (h : Canon s.cols) : OkCols (trigArm k val s) := by
  unfold trigArm; dsimp only; split <;> simp [h]

@[simp] theorem okCols_capWrite (k : Nat) (val : Word) (s : State) (h : Canon s.cols) : OkCols (capWrite k val s) := by
  unfold capWrite; split <;> simp [h]

/-! ### Pipelines -/

@[simp] theorem okCols_pipeEnable (k : Nat) (s : State) (h : Canon s.cols) : OkCols (pipeEnable k s) := by
  unfold pipeEnable
  dsimp only
  repeat' split
  all_goals simp [h]

@[simp] theorem okCols_pipeDisable (k : Nat) (s : State) (h : Canon s.cols) : OkCols (pipeDisable k s) := by
  unfold pipeDisable; dsimp only; split <;> simp [h]

@[simp] theorem okCols_bankWrite (k : Nat) (b : Bool) (s : State) (h : Canon s.cols) : OkCols (bankWrite k b s) := by
  unfold bankWrite
  dsimp only
  repeat' split
  all_goals simp [h]

@[simp] theorem okCols_bankGo (k : Nat) (b : Bool) (s : State) (h : Canon s.cols) : OkCols (bankGo k b s) := by
  unfold bankGo
  dsimp only
  repeat' split
  all_goals simp [h]

/-! ### Field update -/

@[simp] theorem okCols_movingClr (s : State) (h : Canon s.cols) : OkCols (movingClr s) := by
  unfold movingClr; split <;> simp [h]

@[simp] theorem canon_movingOrder (m : Mgmt) (reattitude : Bool) (s : State) (h : Canon s.cols) :
    Canon (movingOrder m reattitude s).cols := by
  have hclr : ∀ a : State, Canon a.cols → Canon (match movingClr a with
      | .ok b => answerM m 200 0 [] (logAdd 1 0 17 0 0 [mgmtNum m, 0x120020, b2n reattitude, b2n reattitude] b)
      | .error _ => answerM m 400 1 [] a).cols := by
    intro a ha
    have hok := okCols_movingClr a ha
    split
    · rename_i b hb
      simpa using hok b hb
    · simpa using ha
  unfold movingOrder
  split
  · simpa using h
  · exact hclr _ (by split <;> exact h)

@[simp] theorem canon_movingClear (src : Source) (reattitude : Bool) (s : State) (h : Canon s.cols) :
    Canon (movingClear src reattitude s).cols := by
  unfold movingClear; split <;> simp [h]

@[simp] theorem okCols_updStart (s : State) (h : Canon s.cols) : OkCols (updStart s) := by
  unfold updStart
  repeat' split
  all_goals simp [h]

@[simp] theorem canon_restartEffect (c i : Nat) (s : State) (h : Canon s.cols) : Canon (restartEffect c i s).cols := by
  unfold restartEffect
  split
  · simpa using h
  · simpa using h
  · exact canon_foldl _ (fun a q ha => canon_linkDown _ _ ha) _ _ h
  · exact h
  · exact h

@[simp] theorem canon_beginRestart (c i : Nat) (s : State) (h : Canon s.cols) : Canon (beginRestart c i s).cols := by
  simp [beginRestart, h]

@[simp] theorem canon_instanceSwitch (s : State) (h : Canon s.cols) : Canon (instanceSwitch s).cols := by
  unfold instanceSwitch
  dsimp only
  split
  · exact h
  · split
    · split
      · rw [ite_cols, trialFail_cols, ite_self]
        exact canon_beginRestart _ _ _ h
      · exact h
    · split
      · split
        · exact canon_beginRestart _ _ _ h
        · exact h
      · exact h

@[simp] theorem okCols_updCancel (s : State) (h : Canon s.cols) : OkCols (updCancel s) := by
  unfold updCancel
  repeat' split
  all_goals simp [h]

/-! ### Keys -/

@[simp] theorem okCols_keyGo (n : Nat) (s : State) (h : Canon s.cols) : OkCols (keyGo n s) := by
  unfold keyGo; split <;> simp [h]

@[simp] theorem okCols_keyForget (n : Nat) (s : State) (h : Canon s.cols) : OkCols (keyForget n s) := by
  unfold keyForget; split <;> simp [h]

@[simp] theorem okCols_rotateWk (s : State) (h : Canon s.cols) : OkCols (rotateWk s) := by
  unfold rotateWk; split <;> simp [h]

@[simp] theorem canon_slotExhausted (w : Nat) (s : State) (h : Canon s.cols) : Canon (slotExhausted w s).cols := by
  unfold slotExhausted
  split
  · split
    · exact canon_loseModule _ _ _ h
    · exact h
  · exact h

@[simp] theorem canon_whiteDiag (s : State) (h : Canon s.cols) : Canon (whiteDiag s).cols := by
  unfold whiteDiag
  exact canon_foldl _ (fun a w ha => canon_foldl _ (fun b k hb => canon_abortChan _ _ hb) _ _ (by exact ha)) _ _ h

@[simp] theorem canon_whitePowered (s : State) (h : Canon s.cols) : Canon (whitePowered s).cols := by
  simp only [whitePowered, updWhite_cols, whiteIntake_cols]
  refine canon_whiteDiag _ ?_
  rw [storeItem_cols]
  refine canon_foldl _ (fun a p ha => ?_) _ _ ?_
  · split
    · exact canon_windPart _ _ _ _ ha
    · split
      · exact canon_stopPart _ _ _ ha
      · exact ha
  · rw [foldl_cols _ (fun a n => whiteTenant_cols ..)]
    exact h

@[simp] theorem canon_enterWhite (batt : Bool) (s : State) (h : Canon s.cols) : Canon (enterWhite batt s).cols := by
  simp [enterWhite, h]

@[simp] theorem canon_lidCloses (t : Nat) (s : State) (h : Canon s.cols) : Canon (lidCloses t s).cols := by
  simp [lidCloses, h]

@[simp] theorem canon_lidSwitch (t : Nat) (closes : Bool) (s : State) (h : Canon s.cols) :
    Canon (lidSwitch t closes s).cols := by
  unfold lidSwitch; split <;> simp [h]

/-! ### Bring-up -/

@[simp] theorem canon_anew (cold : Bool) (s : State) : Canon (anew cold s).cols := canon_nil

@[simp] theorem canon_powerOn (straps : List Word) (s : State) (h : Canon s.cols) : Canon (powerOn straps s).cols := by
  unfold powerOn
  split
  · exact h
  · rw [updBreak_cols]
    refine canon_foldl _ (fun a t ha => ?_) _ _ (canon_anew true s)
    split <;> exact ha

@[simp] theorem stage0_cols (its : List BootItem) (s : State) : (stage0 its s).st.cols = s.cols := by
  simp [stage0]

@[simp] theorem stage1_cols (its : List BootItem) (s : State) : (stage1 its s).st.cols = s.cols := by
  simp [stage1]

@[simp] theorem stage2_cols (its : List BootItem) (s : State) : (stage2 its s).st.cols = s.cols := by
  unfold stage2
  refine (foldl_cols _ (fun a t => tellWords_cols ..) _ _).trans ?_
  refine (foldl_cols _ (fun a t => setTray_cols ..) _ _).trans ?_
  refine foldl_cols _ (fun a t => ?_) _ _
  refine (setTray_cols ..).trans (foldl_cols _ (fun b w => ?_) _ _)
  split <;> rfl

@[simp] theorem stage3_cols (its : List BootItem) (s : State) : (stage3 its s).st.cols = s.cols := by
  simp [stage3]

@[simp] theorem stage4_cols (its : List BootItem) (s : State) : (stage4 its s).st.cols = s.cols := by
  simp [stage4]

@[simp] theorem stage5_cols (its : List BootItem) (s : State) : (stage5 its s).st.cols = s.cols := by
  simp [stage5]

@[simp] theorem canon_stage6 (its : List BootItem) (s : State) (h : Canon s.cols) : Canon (stage6 its s).st.cols := by
  unfold stage6
  dsimp only
  refine canon_foldl _ (fun a x ha => ?_) _ _ ?_
  · simp [ha]
  · simp [h]

@[simp] theorem stage7_cols (its : List BootItem) (s : State) : (stage7 its s).st.cols = s.cols := by
  simp [stage7]

@[simp] theorem stage8_cols (its : List BootItem) (s : State) : (stage8 its s).st.cols = s.cols := by
  simp [stage8]

@[simp] theorem canon_stage9 (its : List BootItem) (s : State) (h : Canon s.cols) : Canon (stage9 its s).st.cols := by
  unfold stage9
  extract_lets s1 s2 sick
  have h1 : Canon s1.cols := by simp only [s1]; split <;> simpa using h
  have h2 : Canon s2.cols := by simp only [s2]; split <;> simp [h1]
  clear_value s1 s2
  split
  · dsimp only
    rw [ite_cols, machineEvent_cols, ite_self]
    exact h2
  · dsimp only
    rw [foldl_cols _ (fun a w => setMod_cols ..), foldl_cols _ (fun a n => openEntry_cols ..)]
    exact h2

@[simp] theorem stage10_cols (s : State) : (stage10 s).st.cols = s.cols := by
  unfold stage10
  dsimp only
  refine (foldl_cols _ (fun a x => ?_) _ _).trans ?_
  · simp
  · simp

@[simp] theorem stage11_cols (its : List BootItem) (s : State) : (stage11 its s).st.cols = s.cols := by
  simp [stage11]

@[simp] theorem canon_stageWork (n : Nat) (its : List BootItem) (s : State) (h : Canon s.cols) :
    Canon (stageWork n its s).st.cols := by
  unfold stageWork; split <;> simp [h]

@[simp] theorem canon_endStage (its : List BootItem) (s : State) (h : Canon s.cols) : Canon (endStage its s).cols := by
  simp [endStage, h]

@[simp] theorem canon_stageExpiry (items : List BootItem) (s : State) (h : Canon s.cols) :
    Canon (stageExpiry items s).cols := by
  simp [stageExpiry, h]

@[simp] theorem canon_restart (s : State) : Canon (restart s).cols := by
  simp only [restart, beginStage_cols, updBreak_cols]
  exact canon_anew false _

@[simp] theorem okCols_restartReg (val : Word) (s : State) : OkCols (restartReg val s) := by
  unfold restartReg
  repeat' split
  all_goals simp

@[simp] theorem canon_restartOrder (src : Source) (val : Word) (s : State) (h : Canon s.cols) :
    Canon (restartOrder src val s).cols := by
  unfold restartOrder; split <;> simp [h]

/-! ### Stewards -/

@[simp] theorem okCols_switchback (c : Nat) (s : State) (h : Canon s.cols) : OkCols (switchback c s) := by
  unfold switchback; split <;> simp [h]

@[simp] theorem canon_adopted (t : Nat) (s : State) (h : Canon s.cols) : Canon (adopted t s).cols := by
  have hlatch : ∀ (l : List Nat) (a : State),
      (l.foldl (fun a w => a.setPwrMod w { a.pwrMod w with capLatch := none, guard := false }) a).cols = a.cols :=
    foldl_cols _ (fun a w => setPwrMod_cols ..)
  unfold adopted
  split
  · refine canon_foldl _ (fun a w ha => canon_applyOrder _ _ ha) _ _ ?_
    rw [machineEvent_cols, foldl_cols _ (fun a e => logAdd_cols ..)]
    dsimp only
    split <;> simpa [hlatch] using h
  · exact h

/-! ### The panel and Redfish -/

@[simp] theorem canon_reArm (s : State) (h : Canon s.cols) : Canon (reArm s).cols := by
  unfold reArm
  split
  · simp only [startRearm_cols, limitEvent_cols]
    exact canon_foldl _ (fun a w ha => canon_applyOrder _ _ ha) _ _ (by simpa using h)
  · exact h

@[simp] theorem canon_sessionCreate (account password : Nat) (s : State) (h : Canon s.cols) :
    Canon (sessionCreate account password s).cols := by
  refine canon_rfWrite _ _ _ ?_ h
  dsimp only
  split
  · exact h
  · split <;> simpa using h

@[simp] theorem canon_dateTime (session : Nat) (utc : DWord) (s : State) (h : Canon s.cols) :
    Canon (dateTime session utc s).cols := by
  simp [dateTime, h]

@[simp] theorem canon_locateSet (session : Nat) (g : LocTarget) (on : Bool) (s : State) (h : Canon s.cols) :
    Canon (locateSet session g on s).cols := canon_rfWrite _ _ _ h h

@[simp] theorem canon_stdOperation (session : Nat) (op : StdOp) (s : State) (h : Canon s.cols) :
    Canon (stdOperation session op s).cols := by
  refine canon_rfWrite _ _ _ ?_ h
  split <;> simpa using h

/-! ### Set-up registers -/

@[simp] theorem canon_pairHi (c port off : Nat) (val : Word) (old : DWord) (s : State) (h : Canon s.cols) :
    Canon (pairHi c port off val old s).cols := by
  simp [pairHi, h]

@[simp] theorem okCols_writeMach (o : Nat) (val : Word) (s : State) (h : Canon s.cols) : OkCols (writeMach o val s) := by
  unfold writeMach
  repeat' split
  all_goals simp [h]

@[simp] theorem okCols_writeTen (n o : Nat) (val : Word) (s : State) (h : Canon s.cols) : OkCols (writeTen n o val s) := by
  unfold writeTen
  dsimp only
  repeat' split
  all_goals simp [h]

@[simp] theorem okCols_writePart (p o : Nat) (val : Word) (s : State) (h : Canon s.cols) : OkCols (writePart p o val s) := by
  unfold writePart
  repeat' split
  all_goals simp [h]

@[simp] theorem okCols_writeRing (r o : Nat) (val : Word) (s : State) (h : Canon s.cols) : OkCols (writeRing r o val s) := by
  unfold writeRing
  dsimp only
  repeat' split
  all_goals simp [h]

@[simp] theorem okCols_writeKey (o : Nat) (val : Word) (s : State) (h : Canon s.cols) : OkCols (writeKey o val s) := by
  unfold writeKey
  repeat' split
  all_goals simp [h]

@[simp] theorem okCols_writeFab (o : Nat) (val : Word) (s : State) (h : Canon s.cols) : OkCols (writeFab o val s) := by
  unfold writeFab
  dsimp only
  repeat' split
  all_goals simp [h]

@[simp] theorem okCols_writeSound (o : Nat) (val : Word) (s : State) (h : Canon s.cols) : OkCols (writeSound o val s) := by
  unfold writeSound
  repeat' split
  all_goals simp [h]

@[simp] theorem okCols_writeCxp (k o : Nat) (val : Word) (s : State) (h : Canon s.cols) : OkCols (writeCxp k o val s) := by
  unfold writeCxp
  dsimp only
  repeat' split
  all_goals simp [h]

@[simp] theorem okCols_writeTio (k o : Nat) (val : Word) (s : State) (h : Canon s.cols) : OkCols (writeTio k o val s) := by
  unfold writeTio
  dsimp only
  repeat' split
  all_goals simp [h]

@[simp] theorem okCols_writeCtx (k o : Nat) (val : Word) (s : State) (h : Canon s.cols) : OkCols (writeCtx k o val s) := by
  unfold writeCtx
  dsimp only
  repeat' split
  all_goals simp [h]

@[simp] theorem okCols_writeTherm (o : Nat) (val : Word) (s : State) (h : Canon s.cols) : OkCols (writeTherm o val s) := by
  unfold writeTherm
  dsimp only
  repeat' split
  all_goals simp [h]

@[simp] theorem okCols_writePwr (o : Nat) (val : Word) (s : State) (h : Canon s.cols) : OkCols (writePwr o val s) := by
  unfold writePwr
  repeat' split
  all_goals simp [h]

@[simp] theorem okCols_writeUpd (o : Nat) (val : Word) (s : State) (h : Canon s.cols) : OkCols (writeUpd o val s) := by
  unfold writeUpd
  repeat' split
  all_goals simp [h]

@[simp] theorem okCols_writeFault (o : Nat) (val : Word) (s : State) (h : Canon s.cols) : OkCols (writeFault o val s) := by
  unfold writeFault
  repeat' split
  all_goals simp [h]

@[simp] theorem okCols_putChan (w n : Nat) (f : Chan → Chan) (s : State) (h : Canon s.cols) : OkCols (putChan w n f s) := by
  unfold putChan; split <;> simp [h]

@[simp] theorem okCols_writeChan (w n o : Nat) (val : Word) (s : State) (h : Canon s.cols) :
    OkCols (writeChan w n o val s) := by
  unfold writeChan
  repeat' split
  all_goals simp [h]

@[simp] theorem okCols_writeMod (w page o : Nat) (val : Word) (s : State) (h : Canon s.cols) :
    OkCols (writeMod w page o val s) := by
  unfold writeMod
  repeat' split
  all_goals simp [h]

@[simp] theorem okCols_writeReg (r : Reg) (val : Word) (s : State) (h : Canon s.cols) : OkCols (writeReg r val s) := by
  unfold writeReg
  repeat' split
  all_goals simp [h]

@[simp] theorem canon_setupWrite (port off be : Nat) (val : Word) (s : State) (h : Canon s.cols) :
    Canon (setupWrite port off be val s).cols := by
  unfold setupWrite
  repeat' split
  all_goals simp [h]

/-! ### Every command -/

/-- Every command completes, and leaves canonical columns canonical: each constructor by the lemma of its meaning. -/
theorem runs_canon (c : Instr) (s : State) (h : Canon s.cols) : Runs c s (fun t => Canon t.cols) := by
  cases c <;> refine ⟨_, rfl, ?_⟩ <;> simp [h]

theorem tick_cols (s : State) : (tick s).cols = s.cols := rfl

/-- Settles O4: an empty queue ticks, and the command at the front keeps the columns canonical. -/
theorem stepKeepsColumnsCanonical : Obligations.StepKeepsColumnsCanonical := by
  unfold Obligations.StepKeepsColumnsCanonical
  intro s t hs hstep
  unfold step at hstep
  split at hstep
  · rename_i c rest _
    obtain ⟨u, hu, hcanon⟩ := runs_canon c { s with pending := rest } hs
    exact Host.Outcome.next.inj (hu.symm.trans hstep) ▸ hcanon
  · rw [← Host.Outcome.next.inj hstep, tick_cols]
    exact hs

/-- No command stops the machine: the arm of every command answers a next state. -/
theorem exec_answers_next (c : Instr) (s : State) : ∃ t, exec c s = .next t := by
  cases c <;> exact ⟨_, rfl⟩

/-- Settles O1: step runs the command at the front, and no arm of exec stops. -/
theorem stepRunsFrontCommand : Obligations.StepRunsFrontCommand := by
  unfold Obligations.StepRunsFrontCommand
  exact fun c _ s => ⟨rfl, exec_answers_next c s⟩

/-- Settles O3: the reset state lists no column byte and no command. -/
theorem resetColumnsAreCanonical : Obligations.ResetColumnsAreCanonical := by
  unfold Obligations.ResetColumnsAreCanonical
  exact ⟨rfl, rfl, fun _ => rfl⟩

end Sys2Proof.Machine
end

section
/-! PROOFS. What a machine-level event, a log record and a set-up note leave of scanner ports and pins. -/

namespace Sys2Proof.Machine

open Sys2Proof

@[simp] theorem machineEvent_sports (c n d : Nat) (p : Option (BitVec 6)) (a : DWord) (b : Word) (s : State) :
    (machineEvent c n d p a b s).sports = s.sports := by rw [machineEvent_told]; rfl
@[simp] theorem machineEvent_pins (c n d : Nat) (p : Option (BitVec 6)) (a : DWord) (b : Word) (s : State) :
    (machineEvent c n d p a b s).pins = s.pins := by rw [machineEvent_told]; rfl
@[simp] theorem machineEvent_win (c n d : Nat) (p : Option (BitVec 6)) (a : DWord) (b : Word) (s : State) :
    (machineEvent c n d p a b s).win = s.win := by rw [machineEvent_told]; rfl
@[simp] theorem portEvent_sport (k c hi : Nat) (a : DWord) (b : Word) (s : State) (j : Nat) :
    (portEvent k c hi a b s).sport j = s.sport j := by simp [portEvent, State.sport]
@[simp] theorem portEvent_sports (k c hi : Nat) (a : DWord) (b : Word) (s : State) :
    (portEvent k c hi a b s).sports = s.sports := by simp [portEvent]
@[simp] theorem portEvent_pin (k c hi : Nat) (a : DWord) (b : Word) (s : State) (j : Nat) :
    (portEvent k c hi a b s).pin j = s.pin j := by simp [portEvent, State.pin]
@[simp] theorem setupNote_sport (p a v : Nat) (s : State) (j : Nat) : (setupNote p a v s).sport j = s.sport j := by
  simp [State.sport]
@[simp] theorem setupNote_pin (p a v : Nat) (s : State) (j : Nat) : (setupNote p a v s).pin j = s.pin j := by
  simp [State.pin]

/-! ### What goes out is only added to -/

theorem writeEvent_out (n : Nat) (e : Event) (s : State) : s.out <+: (writeEvent n e s).out := by
  simp [writeEvent, tenWrite]

theorem deliver_out (n : Nat) (e : Event) (s : State) : s.out <+: (deliver n e s).out := by
  unfold deliver holdEvent
  dsimp only
  split
  · exact List.prefix_rfl
  · split
    · exact writeEvent_out n e s
    · split <;> exact List.prefix_rfl

theorem machineEvent_out (c n d : Nat) (p : Option (BitVec 6)) (a : DWord) (b : Word) (s : State) :
    s.out <+: (machineEvent c n d p a b s).out := by
  have hhold : ∀ (e : Event) (t : State), (holdMachine e t).out = t.out := by
    intro e t
    unfold holdMachine
    split <;> rfl
  unfold machineEvent
  dsimp only
  split
  · split
    · exact (logAdd_out 0 c (eventPlace c d) a b [d] s ▸ deliver_out _ _ _ :)
    · rw [hhold, logAdd_out]
  · rw [hhold, logAdd_out]

end Sys2Proof.Machine
end

section
/-! PROOFS. Scanner ports (O35): their configuration, discovery, connector power and loss. -/

namespace Sys2Proof.Machine

open Sys2Proof

/-! ### A frame that ends early (R488) -/

/-- A port's record once the frame in progress, if any, has ended early. -/
def SPort.aborted (cause : Nat) (p : SPort) : SPort := { p with
  cur := none
  aborts := if p.cur.isSome then satInc p.aborts else p.aborts
  abortCause := if p.cur.isSome then BitVec.ofNat 4 cause else p.abortCause
  abortFrame := (p.cur.map RawFrame.num).getD p.abortFrame }

theorem aborted_of_none {p : SPort} (h : p.cur = none) (cause : Nat) : p.aborted cause = p := by
  cases p
  cases h
  rfl

@[simp] theorem landMarker_sport (k : Nat) (n : Word) (s : State) (j : Nat) : (landMarker k n s).sport j = s.sport j := by
  have hdiscard : (discardUnit k 1 n s).sport j = s.sport j := portEvent_sport ..
  unfold landMarker
  dsimp only
  split
  · rfl
  · exact hdiscard

theorem abortFrame_of_none {k cause : Nat} {s : State} (h : (s.sport k).cur = none) : abortFrame k cause s = s := by
  simp [abortFrame, h]

theorem abortFrame_of_some {k cause : Nat} {s : State} {f : RawFrame} (h : (s.sport k).cur = some f) :
    abortFrame k cause s = landMarker k f.num (s.setSport k ((s.sport k).aborted cause)) := by
  simp [abortFrame, SPort.aborted, h]

@[simp] theorem abortFrame_sport_self (k cause : Nat) (s : State) :
    (abortFrame k cause s).sport k = (s.sport k).aborted cause := by
  cases h : (s.sport k).cur with
  | none => rw [abortFrame_of_none h, aborted_of_none h]
  | some f => rw [abortFrame_of_some h, landMarker_sport, setSport_self]

theorem abortFrame_sport_ne {k j : Nat} (cause : Nat) (s : State) (h : j ≠ k) :
    (abortFrame k cause s).sport j = s.sport j := by
  cases hcur : (s.sport k).cur with
  | none => rw [abortFrame_of_none hcur]
  | some f => rw [abortFrame_of_some hcur, landMarker_sport, setSport_ne _ _ h]

/-- After an early end, a write of the port's record leaves every other port. -/
theorem setSport_abortFrame_ne {k j : Nat} (cause : Nat) (v : SPort) (s : State) (h : j ≠ k) :
    ((abortFrame k cause s).setSport k v).sport j = s.sport j := by
  rw [setSport_ne _ _ h, abortFrame_sport_ne _ _ h]

/-! ### The commands -/

theorem exec_cxpCtlWrite (port : BitVec 4) (k : Fin 8) (val : Word) (s : State) : exec (.cxpCtlWrite port k val) s =
    .next (trayOp (portIntake k.val) port.toNat (cxpPage k.val) val.toNat (cxpCtl k.val val s) s) := rfl
theorem exec_cxpReconfig (port : BitVec 4) (k : Fin 8) (s : State) : exec (.cxpReconfig port k) s =
    .next (trayOp (portIntake k.val) port.toNat (cxpPage k.val + 4) 1 (.ok (cxpReconfig k.val s)) s) := rfl
theorem exec_cxpDetach (port : BitVec 4) (k : Fin 8) (s : State) : exec (.cxpDetach port k) s =
    .next (trayOp (portIntake k.val) port.toNat (cxpPage k.val + 4) 2 (.ok (cxpDetach k.val s)) s) := rfl

/-- A port's record as a legal write of CXP_CTL leaves it, but for a frame that RUN 0 ends (R463, R469). -/
def SPort.configured (val : Word) (p : SPort) : SPort := { p with
  ctl := val &&& 0x00FF0373
  pocFault := if bit val 1 && !(bit p.ctl 1) then 0 else p.pocFault
  pocOn := if bit val 1 then p.pocOn else 0 }

theorem cxpCtl_run {k : Nat} {val : Word} {s : State} (hrate : Fld val 4 3 ≠ 7) (hrun : bit val 0 = true) :
    cxpCtl k val s = .ok (s.setSport k ((s.sport k).configured val)) := by
  simp [cxpCtl, hrate, hrun, SPort.configured]

theorem cxpCtl_stop {k : Nat} {val : Word} {s : State} (hrate : Fld val 4 3 ≠ 7) (hrun : bit val 0 = false) :
    cxpCtl k val s = .ok (abortFrame k 5 (s.setSport k ((s.sport k).configured val))) := by
  simp [cxpCtl, hrate, hrun, SPort.configured]

theorem cxpCtl_illegal {k : Nat} {val : Word} {s : State} (hrate : Fld val 4 3 = 7) : cxpCtl k val s = .error 3 := by
  simp [cxpCtl, hrate]

theorem gcEnd_eq (r : Nat) (p : SPort) : gcEnd r p = { p with
    gcBusy := false, gcTries := if p.gcBusy then 0 else p.gcTries
    gcResult := if p.gcBusy then BitVec.ofNat 4 r else p.gcResult } := by
  cases p with
  | mk => unfold gcEnd; dsimp only; split <;> simp_all

/-- An attempt of a running port that no wait holds back starts discovery on that port alone (R462). -/
theorem discoveryAttempt_first {k : Nat} {found : BitVec 4} {s : State} (hon : s.intakeOn k = true)
    (hrun : bit (s.sport k).ctl 0 = true) (hst : (s.sport k).st ≠ 2) (hdisc : (s.sport k).discTick = 0)
    (hdet : (s.sport k).detTick = 0) :
    ((discoveryAttempt k found s).sport k).st = 1 ∧ ∀ j, j ≠ k → (discoveryAttempt k found s).sport j = s.sport j := by
  have hattempt : ∀ v : SPort, v.st = 1 → ((discSend k 1 (s.setSport k v)).sport k).st = 1 ∧
      ∀ j, j ≠ k → (discSend k 1 (s.setSport k v)).sport j = s.sport j := by
    intro v hv
    refine ⟨?_, fun j hj => ?_⟩
    · show (((s.setSport k v).setSport k _).sport k).st = 1
      simp [hv]
    · show ((s.setSport k v).setSport k _).sport j = s.sport j
      rw [setSport_ne _ _ hj, setSport_ne _ _ hj]
  unfold discoveryAttempt
  dsimp only
  rw [if_pos (by simpa [hon, hrun, hdisc, hdet] using hst)]
  exact hattempt _ rfl

/-- The highest of the rates a device supports on its one connector, among those MAXRATE allows (R461). -/
theorem exists_rate {m : BitVec 7} (n : Nat) (h : m.getLsbD 0 = true) :
    ∃ r, ((List.range (n + 1)).filter (fun r => [m].all (fun m => m.getLsbD r))).getLast? = some r ∧
      m.getLsbD r = true ∧ r ≤ n := by
  have hne : (List.range (n + 1)).filter (fun r => [m].all (fun m => m.getLsbD r)) ≠ [] :=
    List.ne_nil_of_mem (List.mem_filter.mpr ⟨List.mem_range.mpr n.succ_pos, by simpa using h⟩)
  have hmem := List.mem_filter.mp (List.getLast_mem hne)
  exact ⟨_, List.getLast?_eq_some_getLast hne, by simpa using hmem.2, Nat.lt_succ_iff.mp (List.mem_range.mp hmem.1)⟩

/-- A discovery that finds a device on C0 alone takes the best of its rates (R461, R462). -/
theorem discoveryComplete_found {k count : Nat} {m : BitVec 7} {s : State} (hon : s.intakeOn k = true)
    (hst : (s.sport k).st = 1) (hm : m.getLsbD 0 = true) (hcount : count ≠ 0) :
    ∃ r, m.getLsbD r = true ∧ r ≤ Fld (s.sport k).ctl 4 3 ∧ discoveryComplete k [m] count false s =
      portEvent k 0x0301 r 0 (s.sport k).frames (s.setSport k { s.sport k with
        discTries := 0, st := 2, rate := BitVec.ofNat 3 r, conns := 0, connUp := 1
        stream := BitVec.ofNat 8 (Fld (s.sport k).ctl 16 8), connLost := false }) := by
  obtain ⟨r, hlast, hbit, hr⟩ := exists_rate (Fld (s.sport k).ctl 4 3) hm
  have hm0 : m ≠ 0#7 := by rintro rfl; simp at hm
  have hn : min (Fld (s.sport k).ctl 8 2 + 1) (min count 1) = 1 := by omega
  refine ⟨r, hbit, hr, ?_⟩
  have hrun : (([m].take 4).takeWhile (fun r => r != 0)).length = 1 := by simp [hm0]
  unfold discoveryComplete
  dsimp only
  rw [if_neg (by simp [hon, hst]), hrun, hn, if_neg one_ne_zero, List.take_of_length_le (l := [m]) (by simp), hlast]
  rfl

theorem discoveryComplete_none {k : Nat} {s : State} (hon : s.intakeOn k = true) (hst : (s.sport k).st = 1) :
    discoveryComplete k [] 0 false s = s.setSport k { s.sport k with discTries := 0, st := 0 } := by
  simp [discoveryComplete, hon, hst]

theorem discoveryComplete_refused {k count : Nat} {m : BitVec 7} {s : State} (hon : s.intakeOn k = true)
    (hst : (s.sport k).st = 1) (hm : m ≠ 0) (hcount : count ≠ 0) :
    discoveryComplete k [m] count true s = s.setSport k { s.sport k with discTries := 0, st := 3 } := by
  simp [discoveryComplete, hon, hst, hcount, show m ≠ 0#7 from hm]

theorem pocFault_eq {k : Nat} {mask : BitVec 4} {s : State} (h : mask &&& (s.sport k).pocOn ≠ 0) :
    pocFault k mask s = portEvent k 0x0307 (mask &&& (s.sport k).pocOn).toNat 0 0 (s.setSport k { s.sport k with
      pocOn := (s.sport k).pocOn &&& ~~~(mask &&& (s.sport k).pocOn)
      pocFault := (s.sport k).pocFault ||| (mask &&& (s.sport k).pocOn) }) := by
  simp only [pocFault, if_neg h]

theorem scannerDetach_eq {k : Nat} {s : State} (h : (s.sport k).st = 2) :
    scannerDetach k s = portEvent k 0x0302 (b2n (s.sport k).cur.isSome) 0 (s.sport k).frames
      ((abortFrame k 1 s).setSport k (noDevice ((s.sport k).aborted 1))) := by
  simp [scannerDetach, h]

theorem extensionLost_eq {k : Nat} {mask : BitVec 4} {s : State} (h : (s.sport k).st = 2)
    (hmask : mask &&& (s.sport k).connUp &&& 0xE ≠ 0) :
    extensionLost k mask s = portEvent k 0x0303 (mask &&& (s.sport k).connUp &&& 0xE).toNat 0 (s.sport k).frames
      ((abortFrame k 2 s).setSport k { (s.sport k).aborted 2 with
        connLost := true, connUp := (s.sport k).connUp &&& ~~~(mask &&& (s.sport k).connUp &&& 0xE) }) := by
  simp only [extensionLost, h, abortFrame_sport_self, bne_self_eq_false, Bool.false_or, beq_eq_false_iff_ne.mpr hmask]
  rfl

/-- Settles O35: each order writes its own port's record, over what an early end leaves of it. -/
theorem scannerPortsFollowTheirOrders : Obligations.ScannerPortsFollowTheirOrders := by
  unfold Obligations.ScannerPortsFollowTheirOrders
  intro s port mask k val p others
  have hothers : ∀ (cause : Nat) (v : SPort), others ((abortFrame k.val cause s).setSport k.val v) :=
    fun cause v j hj => setSport_abortFrame_ne cause v s hj
  have hset : ∀ v : SPort, others (s.setSport k.val v) := fun v j hj => setSport_ne s v hj
  have hevent : ∀ {c hi : Nat} {a : DWord} {b : Word} {t : State}, others t → others (portEvent k.val c hi a b t) :=
    fun h j hj => (portEvent_sport ..).trans (h j hj)
  have hnote : ∀ {p a v : Nat} {t : State}, others t → others (setupNote p a v t) :=
    fun h j hj => (setupNote_sport ..).trans (h j hj)
  refine ⟨fun hw hans => ⟨fun hrate hrun => ?_, fun hrate hrun => ?_, fun hrate => ?_, ?_, ?_⟩, ?_, ?_, ?_, ?_⟩
  case refine_1 =>
    refine runs_of_answered_ok hw hans (exec_cxpCtlWrite ..) (cxpCtl_run hrate hrun) ?_
    refine ⟨?_, ?_, ?_, hnote (hset _)⟩ <;> simp [SPort.configured, p]
  case refine_2 =>
    refine runs_of_answered_ok hw hans (exec_cxpCtlWrite ..) (cxpCtl_stop hrate hrun) ?_
    refine ⟨?_, ?_, ?_, hnote fun j hj => (abortFrame_sport_ne 5 _ hj).trans (setSport_ne _ _ hj)⟩ <;>
      simp [SPort.configured, SPort.aborted, p]
  case refine_3 => exact runs_of_answered_error hw hans (exec_cxpCtlWrite ..) (cxpCtl_illegal hrate) rfl
  case refine_4 =>
    refine runs_of_answered_ok hw hans (exec_cxpReconfig ..) rfl ?_
    refine ⟨?_, ?_, ?_, ?_, hnote (hothers 5 _)⟩ <;> simp [cxpReconfig, gcEnd_eq, SPort.aborted, p]
  case refine_5 =>
    refine runs_of_answered_ok hw hans (exec_cxpDetach ..) rfl ?_
    refine ⟨?_, ?_, ?_, ?_, hnote (hothers 5 _)⟩ <;> simp [cxpDetach, noDevice, gcEnd_eq, SPort.aborted]
  case refine_6 =>
    intro hon hrun hst hdisc hdet
    exact ⟨_, rfl, discoveryAttempt_first hon hrun hst hdisc hdet⟩
  case refine_7 =>
    intro hon hst
    refine ⟨⟨_, rfl, ?_⟩, fun m count hm hcount => ⟨_, rfl, ?_⟩, fun m count hm hcount => ⟨_, rfl, ?_⟩⟩
    · exact (discoveryComplete_none hon hst).symm ▸ ⟨by simp, hset _⟩
    · have hcount' : count.toNat ≠ 0 := fun h => hcount (BitVec.eq_of_toNat_eq h)
      exact (discoveryComplete_refused hon hst hm hcount').symm ▸ ⟨by simp, hset _⟩
    · have hcount' : count.toNat ≠ 0 := fun h => hcount (BitVec.eq_of_toNat_eq h)
      obtain ⟨r, hbit, hr, heq⟩ := discoveryComplete_found hon hst hm hcount'
      have hr8 : r % 8 = r := Nat.mod_eq_of_lt (lt_of_le_of_lt hr (Nat.mod_lt _ (by decide)))
      exact heq.symm ▸ ⟨by simp, by simp, by simp, by simp [hr8, hbit], by simp [hr8, hr, p], hevent (hset _)⟩
  case refine_8 =>
    intro hmask
    exact ⟨_, rfl, (pocFault_eq hmask).symm ▸ ⟨by simp [p], hevent (hset _)⟩⟩
  case refine_9 =>
    intro hst
    refine ⟨⟨_, rfl, ?_⟩, fun hmask => ⟨_, rfl, ?_⟩⟩
    · refine (scannerDetach_eq hst).symm ▸ ⟨?_, ?_, ?_, ?_, hevent (hothers 1 _)⟩ <;>
        simp [noDevice, gcEnd_eq, SPort.aborted]
    · refine (extensionLost_eq hst hmask).symm ▸ ⟨?_, ?_, ?_, ?_, hevent (hothers 2 _)⟩ <;>
        simp [SPort.aborted, p, show (s.sport k.val).st = 2 from hst]

end Sys2Proof.Machine
end

section
/-! PROOFS. Frames of a scanner port (O36): begin, growth and early ends. -/

namespace Sys2Proof.Machine

open Sys2Proof

/-- The record of a port with its next frame begun (R464). -/
def SPort.begun (f : RawFrame) (tb : DWord) (p : SPort) : SPort := { p with
  frames := p.frames + 1, armFrames := p.armFrames + 1, cur := some f, curTick := tb }

section
variable {k : Nat} {s : State} {stream : BitVec 8} (hon : s.intakeOn k = true) (hstr : (s.sport k).streams = true)
include hon hstr

/-- A legal header of the port's stream, with no frame in progress, begins the next frame (R464). -/
theorem imageHeader_begins {w h bits : Nat} {bayer : Bool} {cfa : BitVec 2} (hs : stream = (s.sport k).stream)
    (hcur : (s.sport k).cur = none) (hsize : 1 ≤ w ∧ w ≤ 16384 ∧ 1 ≤ h ∧ h ≤ 16384 ∧ fmtListed bayer bits = true) :
    ∃ slot, imageHeader k stream w h bayer cfa bits s = s.setSport k ((s.sport k).begun
      { num := (s.sport k).frames + 1, slot := slot, tb := s.win.tb, w := w, h := h
        fmt := { bayer := bayer, cfa := cfa, bits := bits }, data := [] } s.win.tb) := by
  unfold imageHeader
  dsimp only
  rw [abortFrame_of_none hcur, if_neg (by simp [hon, hstr]), if_neg (by simp [hs]), if_pos hsize]
  exact ⟨_, rfl⟩

theorem streamPacket_other (long : Bool) (bytes : List Byte) (hs : stream ≠ (s.sport k).stream) :
    streamPacket k stream true long bytes s = s.setSport k { s.sport k with other := satInc (s.sport k).other } := by
  simp [streamPacket, hon, hstr, hs]

theorem streamPacket_grows {f : RawFrame} {bytes : List Byte} (hs : stream = (s.sport k).stream)
    (hcur : (s.sport k).cur = some f) (hlen : (f.data ++ bytes).length < lineBytes f.w f.fmt.bits * f.h) :
    streamPacket k stream true false bytes s =
      s.setSport k { s.sport k with cur := some { f with data := f.data ++ bytes }, curTick := s.win.tb } := by
  unfold streamPacket
  dsimp only
  rw [if_neg (by simp [hon, hstr]), if_neg (by simp), if_neg (by simp [hs]), hcur]
  dsimp only
  rw [if_neg (by simpa using hlen.le), if_neg hlen.ne]

theorem streamPacket_long {f : RawFrame} (bytes : List Byte) (hs : stream = (s.sport k).stream)
    (hcur : (s.sport k).cur = some f) : streamPacket k stream true true bytes s = abortFrame k 4 s := by
  simp [streamPacket, hon, hstr, hs, hcur]

theorem streamPacket_badCrc_own (long : Bool) (bytes : List Byte) (hs : stream = (s.sport k).stream) :
    streamPacket k stream false long bytes s =
      abortFrame k 3 (s.setSport k { s.sport k with crcErr := satInc (s.sport k).crcErr }) := by
  simp [streamPacket, hon, hstr, hs]

theorem streamPacket_badCrc_other (long : Bool) (bytes : List Byte) (hs : stream ≠ (s.sport k).stream) :
    streamPacket k stream false long bytes s = s.setSport k { s.sport k with crcErr := satInc (s.sport k).crcErr } := by
  simp [streamPacket, hon, hstr, hs]

end

/-- Settles O36: a frame begins, grows or ends by the one branch of the packet's judgement that applies. -/
theorem framesBeginGrowAndEndEarly : Obligations.FramesBeginGrowAndEndEarly := by
  unfold Obligations.FramesBeginGrowAndEndEarly
  intro s k stream p ended
  have hended : ∀ (cause : Nat) (f : RawFrame), p.cur = some f → ended (BitVec.ofNat 4 cause) f (abortFrame k.val cause s) := by
    intro cause f hcur
    refine ⟨?_, ?_, ?_, ?_, fun j hj => abortFrame_sport_ne cause s hj⟩ <;>
      simp [SPort.aborted, p, show (s.sport k.val).cur = some f from hcur]
  refine ⟨fun hon hstr => ⟨?_, ?_, ?_, ?_, ?_⟩, ?_⟩
  case refine_1 =>
    intro w h bayer cfa bits hs hcur hw hw' hh hh' hfmt
    obtain ⟨slot, hbegin⟩ := imageHeader_begins (bayer := bayer) (cfa := cfa) hon hstr hs hcur ⟨hw, hw', hh, hh', hfmt⟩
    refine ⟨_, rfl, ?_⟩
    rw [hbegin]
    exact ⟨by simp [SPort.begun, p], rfl, fun j hj => setSport_ne _ _ hj, _,
      congrArg SPort.cur (setSport_self ..), rfl, rfl, rfl, rfl, rfl, rfl⟩
  case refine_2 => exact fun long bytes hs => ⟨_, rfl, streamPacket_other hon hstr long bytes hs⟩
  case refine_3 => exact fun f bytes hs hcur hlen => ⟨_, rfl, streamPacket_grows hon hstr hs hcur hlen⟩
  case refine_4 =>
    exact fun f bytes hs hcur => ⟨_, rfl, (streamPacket_long hon hstr bytes hs hcur).symm ▸ hended 4 f hcur⟩
  case refine_5 =>
    intro f long bytes hcur
    refine ⟨fun hs => ⟨_, rfl, ?_⟩, fun hs => ⟨_, rfl, streamPacket_badCrc_other hon hstr long bytes hs⟩⟩
    rw [streamPacket_badCrc_own hon hstr long bytes hs]
    refine ⟨⟨?_, ?_, ?_, ?_, fun j hj => ?_⟩, ?_⟩
    case refine_5 => rw [abortFrame_sport_ne _ _ hj, setSport_ne _ _ hj]
    all_goals simp [SPort.aborted, p, show (s.sport k.val).cur = some f from hcur]
  case refine_6 =>
    intro f hcur hidle
    have hlate : ¬ s.win.tb.toNat - (s.sport k.val).curTick.toNat < 10000000 := by
      have : (s.sport k.val).curTick.toNat + 10000000 ≤ s.win.tb.toNat := hidle
      omega
    exact ⟨_, rfl, (if_neg hlate).symm ▸ hended 6 f hcur⟩

end Sys2Proof.Machine
end

section
/-! PROOFS. The mailbox of a scanner port and event packets (O37). -/

namespace Sys2Proof.Machine

open Sys2Proof

theorem exec_gcRead (port : BitVec 4) (k : Fin 8) (s : State) : exec (.gcRead port k) s =
    .next (trayOp (portIntake k.val) port.toNat (cxpPage k.val + 0x2C) 1 (gcCmd k.val false s) s) := rfl
theorem exec_gcWrite (port : BitVec 4) (k : Fin 8) (s : State) : exec (.gcWrite port k) s =
    .next (trayOp (portIntake k.val) port.toNat (cxpPage k.val + 0x2C) 2 (gcCmd k.val true s) s) := rfl

/-! ### A mailbox access (R467) -/

/-- What the uplink carries of the mailbox access in progress. -/
def SPort.gcPacket (k : Nat) (p : SPort) : Out := .uplink (portIntake k) (k % 4) (BitVec.ofNat 8 (b2n p.gcWr) ::
  (toLE 4 p.gcAddr.toNat ++ toLE 2 p.gcLen.toNat ++ (if p.gcWr then p.gcBytes else [])))

theorem gcSend_eq (k : Nat) (s : State) : gcSend k s = emit ((s.sport k).gcPacket k)
    (s.setSport k { s.sport k with gcTries := (s.sport k).gcTries + 1, gcTick := s.win.tb }) := rfl

@[simp] theorem emit_sport (o : Out) (s : State) (j : Nat) : (emit o s).sport j = s.sport j := rfl

theorem gcCmd_busy {k : Nat} {s : State} (wr : Bool) (h : (s.sport k).gcBusy = true) : gcCmd k wr s = .error 4 := by
  simp [gcCmd, h]

theorem gcCmd_absent {k : Nat} {s : State} (wr : Bool) (h : (s.sport k).gcBusy = false) (hst : (s.sport k).st ≠ 2) :
    gcCmd k wr s = .ok (s.setSport k { s.sport k with gcResult := 3 }) := by
  simp [gcCmd, h, show (s.sport k).st ≠ 2#2 from hst]

/-- An idle mailbox with a device attached sends its access for the first time. -/
theorem gcCmd_sends {k : Nat} {s : State} (wr : Bool) (h : (s.sport k).gcBusy = false) (hst : (s.sport k).st = 2) :
    gcCmd k wr s = .ok (gcSend k (s.setSport k { s.sport k with gcBusy := true, gcWr := wr, gcTries := 0 })) := by
  simp [gcCmd, h, hst]

theorem gcSend_first_sport (k : Nat) (wr : Bool) (s : State) :
    (gcSend k (s.setSport k { s.sport k with gcBusy := true, gcWr := wr, gcTries := 0 })).sport k =
      { s.sport k with gcBusy := true, gcWr := wr, gcTries := 1, gcTick := s.win.tb } := by
  simp [gcSend_eq]

theorem gcSend_first_out (k : Nat) (wr : Bool) (s : State) :
    (gcSend k (s.setSport k { s.sport k with gcBusy := true, gcWr := wr, gcTries := 0 })).out =
      s.out ++ [SPort.gcPacket k { s.sport k with gcWr := wr }] := by
  rw [gcSend_eq, setSport_self]
  rfl

/-! ### Its end and its retries (R465, R467) -/

theorem controlAck_ok {k : Nat} {s : State} (bytes : List Byte) (hon : s.intakeOn k = true) (h : (s.sport k).gcBusy = true) :
    ∃ d, controlAck k (.ok bytes) s = s.setSport k (gcEnd 0 { s.sport k with gcData := d }) := by
  simp only [controlAck, hon, h, Bool.not_true, Bool.false_eq_true, if_false]
  exact ⟨_, rfl⟩

theorem controlAck_error {k : Nat} {s : State} (st : Byte) (hon : s.intakeOn k = true) (h : (s.sport k).gcBusy = true) :
    controlAck k (.error st) s = s.setSport k (gcEnd 1 { s.sport k with gcDev := st }) := by
  simp [controlAck, hon, h]

theorem controlAck_badCrc {k : Nat} {s : State} (hon : s.intakeOn k = true) (h : (s.sport k).gcBusy = true) :
    controlAck k .badCrc s = if (s.sport k).gcTries < 3 then
        gcSend k (s.setSport k { s.sport k with crcErr := satInc (s.sport k).crcErr })
      else s.setSport k (gcEnd 4 { s.sport k with crcErr := satInc (s.sport k).crcErr }) := by
  simp [controlAck, hon, h]

theorem controlTimeout_late {k : Nat} {s : State} (h : (s.sport k).gcBusy = true)
    (hlate : (s.sport k).gcTick.toNat + 20000000 ≤ s.win.tb.toNat) :
    controlTimeout k s = if (s.sport k).gcTries < 3 then gcSend k s else s.setSport k (gcEnd 2 (s.sport k)) := by
  have hage : 20000000 ≤ s.win.tb.toNat - (s.sport k).gcTick.toNat := by omega
  simp [controlTimeout, h, hage]

/-- An event packet from an attached device is acknowledged before it is reported (R466). -/
theorem eventPacket_acknowledged {k : Nat} {s : State} (id : BitVec 16) (payload : List Byte) (hon : s.intakeOn k = true)
    (hst : (s.sport k).st = 2) : .uplink (portIntake k) (k % 4) [4] ∈ (eventPacket k id payload s).out ∧
      (eventPacket k id payload s).sports = s.sports := by
  unfold eventPacket
  rw [if_neg (by simp [hon, hst])]
  refine ⟨(machineEvent_out ..).subset ?_, portEvent_sports ..⟩
  exact List.mem_append_right _ (List.mem_singleton.mpr rfl)

/-- Settles O37: an order sends, ends or is ignored as the mailbox stands; a retry sends, the fourth ends. -/
theorem mailboxAndEventPackets : Obligations.MailboxAndEventPackets := by
  unfold Obligations.MailboxAndEventPackets
  intro s port k p
  refine ⟨fun hw hans => ⟨fun hidle hst => ⟨?_, ?_⟩, fun hidle hst => ⟨?_, ?_⟩, fun hbusy => ⟨?_, ?_⟩⟩, fun hbusy =>
    ⟨fun hon => ⟨fun bytes => ?_, fun st => ?_, fun htries => ?_, fun htries => ?_⟩, fun hlate htries => ?_,
      fun hlate htries => ?_⟩, fun id payload hon hst => ⟨_, rfl, eventPacket_acknowledged id payload hon hst⟩⟩
  case refine_1 =>
    refine runs_of_answered_ok hw hans (exec_gcRead ..) (gcCmd_sends false hidle hst) ⟨?_, ?_⟩
    · rw [setupNote_sport, gcSend_first_sport]
    · rw [setupNote_out, gcSend_first_out]
      simp [SPort.gcPacket, portIntake, b2n, p]
  case refine_2 =>
    refine runs_of_answered_ok hw hans (exec_gcWrite ..) (gcCmd_sends true hidle hst) ⟨?_, ?_⟩
    · rw [setupNote_sport, gcSend_first_sport]
    · rw [setupNote_out, gcSend_first_out]
      simp [SPort.gcPacket, SPort.gcBytes, portIntake, b2n, p]
  case refine_3 => exact runs_of_answered_ok hw hans (exec_gcRead ..) (gcCmd_absent false hidle hst) (setupNote_logged ..)
  case refine_4 => exact runs_of_answered_ok hw hans (exec_gcWrite ..) (gcCmd_absent true hidle hst) (setupNote_logged ..)
  case refine_5 => exact runs_of_answered_error hw hans (exec_gcRead ..) (gcCmd_busy false hbusy) rfl
  case refine_6 => exact runs_of_answered_error hw hans (exec_gcWrite ..) (gcCmd_busy true hbusy) rfl
  case refine_7 =>
    obtain ⟨d, hend⟩ := controlAck_ok bytes hon hbusy
    refine ⟨_, rfl, hend.symm ▸ ⟨?_, ?_, fun j hj => setSport_ne s _ hj⟩⟩ <;>
      simp [gcEnd_eq, show (s.sport k.val).gcBusy = true from hbusy]
  case refine_8 =>
    refine ⟨_, rfl, (controlAck_error st hon hbusy).symm ▸ ⟨?_, ?_, ?_⟩⟩ <;>
      simp [gcEnd_eq, show (s.sport k.val).gcBusy = true from hbusy]
  case refine_9 =>
    refine ⟨_, rfl, ?_⟩
    rw [controlAck_badCrc hon hbusy, if_pos htries, gcSend_eq]
    exact ⟨by simp [p], by simp [emit]⟩
  case refine_10 =>
    refine ⟨_, rfl, ?_⟩
    rw [controlAck_badCrc hon hbusy, if_neg (by exact htries.not_gt)]
    refine ⟨?_, ?_, ?_, rfl⟩ <;> simp [gcEnd_eq, p, show (s.sport k.val).gcBusy = true from hbusy]
  case refine_11 =>
    refine ⟨_, rfl, ?_⟩
    rw [controlTimeout_late hbusy hlate, if_pos htries, gcSend_eq]
    exact ⟨by simp [p], by simp [emit]⟩
  case refine_12 =>
    refine ⟨_, rfl, ?_⟩
    rw [controlTimeout_late hbusy hlate, if_neg (by exact htries.not_gt)]
    refine ⟨?_, ?_, rfl⟩ <;> simp [gcEnd_eq, show (s.sport k.val).gcBusy = true from hbusy]

end Sys2Proof.Machine
end

section
/-! PROOFS. Pins of a scanner port (O38): holds, accepted edges, output faults. -/

namespace Sys2Proof.Machine

open Sys2Proof

theorem exec_pinConfigWrite (port : BitVec 4) (k : Fin 8) (m : BitVec 4) (val : Word) (s : State) :
    exec (.pinConfigWrite port k m val) s = .next (trayOp (portIntake k.val) port.toNat (tioPage k.val + 4 * m.toNat) val.toNat
      (pinWrite k.val m.toNat val s) s) := rfl

/-! ### A write of PIN_m (R474, R475) -/

section
variable {k m : Nat} {val : Word} {s : State}

theorem pinWrite_reserved (h : BitVec.ofNat 4 (Fld val 0 4) = 15) : pinWrite k m val s = .error 3 := by
  simp [pinWrite, h]

theorem pinWrite_held (h : BitVec.ofNat 4 (Fld val 0 4) ≠ 15) (hhold : (s.pin (k * 16 + m)).hold ≠ 0)
    (hchange : BitVec.ofNat 4 (Fld val 0 4) ≠ (s.pin (k * 16 + m)).func ∨ bit val 4 ≠ (s.pin (k * 16 + m)).inv) :
    pinWrite k m val s = .error 4 := by
  have hcond : ((BitVec.ofNat 4 (Fld val 0 4) != (s.pin (k * 16 + m)).func || bit val 4 != (s.pin (k * 16 + m)).inv) &&
      (s.pin (k * 16 + m)).hold != 0) = true := by simpa [hhold] using hchange
  unfold pinWrite
  dsimp only
  rw [if_neg h, if_pos hcond]

/-- The termination and filter a write gives a pin. -/
def Pin.tuned (m : Nat) (val : Word) (x : Pin) : Pin :=
  { x with term := m < 8 && bit val 5, filt := BitVec.ofNat 8 (Fld val 8 8) }

/-- A legal write of a pin in no hold sets its record, with a hold begun if and only if function or inversion change; the pin
that had the function before is another one. -/
theorem pinWrite_free (h : BitVec.ofNat 4 (Fld val 0 4) ≠ 15) (hhold : (s.pin (k * 16 + m)).hold = 0) :
    ∃ (u : State) (y : Pin), u.sports = s.sports ∧ pinWrite k m val s = .ok (u.setPin (k * 16 + m) y) ∧
      y.func = BitVec.ofNat 4 (Fld val 0 4) ∧ y.inv = bit val 4 ∧ y.term = (m < 8 && bit val 5) ∧
      y.filt = BitVec.ofNat 8 (Fld val 8 8) ∧ y.act = (s.pin (k * 16 + m)).act ∧
      (y.hold ≠ 0 ↔ BitVec.ofNat 4 (Fld val 0 4) ≠ (s.pin (k * 16 + m)).func ∨ bit val 4 ≠ (s.pin (k * 16 + m)).inv) := by
  by_cases hchange : BitVec.ofNat 4 (Fld val 0 4) ≠ (s.pin (k * 16 + m)).func ∨ bit val 4 ≠ (s.pin (k * 16 + m)).inv
  · have hcond : (BitVec.ofNat 4 (Fld val 0 4) != (s.pin (k * 16 + m)).func || bit val 4 != (s.pin (k * 16 + m)).inv) =
        true := by simpa using hchange
    unfold pinWrite
    dsimp only
    rw [if_neg h, if_neg (by simp [hhold]), if_neg (by simp [hcond])]
    refine ⟨_, _, ?_, rfl, rfl, rfl, rfl, rfl, rfl, by simpa using hchange⟩
    split <;> rfl
  · obtain ⟨hfunc, hinv⟩ := not_or.mp hchange
    rw [not_not] at hfunc hinv
    refine ⟨s, (s.pin (k * 16 + m)).tuned m val, rfl, ?_, hfunc.symm, hinv.symm, rfl, rfl, rfl, ?_⟩
    · unfold pinWrite
      dsimp only
      rw [if_neg h, if_neg (by simp [hhold]), if_pos (by simp [hfunc, hinv])]
      rfl
    · simp [Pin.tuned, hhold, hfunc, hinv]

end

/-! ### The end of a hold (R475) -/

/-- A pin's record as the end of its hold leaves it. -/
def Pin.released (x : Pin) : Pin := { x with
  func := if x.leaving then 0 else x.func, act := if x.leaving then 0 else x.func, actInv := x.inv, hold := 0, keep := none
  leaving := false }

theorem pinHoldEnd_early {k m ph : Nat} {s : State}
    (h : (s.pin (k * 16 + m)).hold = 0 ∨ s.steps ph < (s.pin (k * 16 + m)).hold - 1 + 1600) : pinHoldEnd k m ph s = s := by
  unfold pinHoldEnd
  exact if_pos h

/-- When the hold has run, the pin is released; beside it an input takes its level in the port's record. -/
theorem pinHoldEnd_pins {k m ph : Nat} {s : State} (hhold : (s.pin (k * 16 + m)).hold ≠ 0)
    (hdue : (s.pin (k * 16 + m)).hold - 1 + 1600 ≤ s.steps ph) (j : Nat) :
    (pinHoldEnd k m ph s).pin j = (s.setPin (k * 16 + m) (s.pin (k * 16 + m)).released).pin j := by
  unfold pinHoldEnd
  dsimp only
  rw [if_neg (by simp only [not_or]; omega)]
  exact (apply_ite (fun t : State => t.pin j) _ _ _).trans (ite_self _)

/-! ### Accepted edges (R477–R479) -/

@[simp] theorem uplink_pin (k kind : Nat) (b : List Byte) (s : State) (j : Nat) : (uplink k kind b s).pin j = s.pin j := rfl

@[simp] theorem setSport_pin (s : State) (k : Nat) (v : SPort) (j : Nat) : (s.setSport k v).pin j = s.pin j := rfl

theorem fireTrig_pin (k now : Nat) (s : State) (j : Nat) : (fireTrig k now s).pin j = s.pin j := by
  unfold fireTrig
  dsimp only
  split
  · rfl
  · split
    · rfl
    · split <;> rfl

theorem sourceEdge_pin (k now src : Nat) (s : State) (j : Nat) : (sourceEdge k now src s).pin j = s.pin j := by
  unfold sourceEdge
  dsimp only
  generalize (if src = 2 then (s.sport k).armPhase.toNat else 0) = e
  split
  · rfl
  · split
    · exact fireTrig_pin ..
    · rfl

theorem encCount_pin (k now : Nat) (up : Bool) (s : State) (j : Nat) : (encCount k now up s).pin j = s.pin j := by
  unfold encCount
  dsimp only
  generalize (if up then (s.sport k).encPos + 1 else (s.sport k).encPos - 1) = v
  split
  · exact fireTrig_pin ..
  · rfl

theorem encEdge_pin (k now : Nat) (isA : Bool) (s : State) (j : Nat) : (encEdge k now isA s).pin j = s.pin j := by
  unfold encEdge
  dsimp only
  split
  · rfl
  · split
    · rfl
    · split
      · exact encCount_pin ..
      · rfl

theorem functionEdge_pin (k now i : Nat) (rise : Bool) (s : State) (j : Nat) : (functionEdge k now i rise s).pin j = s.pin j := by
  unfold functionEdge
  dsimp only
  split
  · exact encEdge_pin ..
  · exact encEdge_pin ..
  · split <;> rfl
  · split
    · exact sourceEdge_pin ..
    · rfl
  · split
    · exact sourceEdge_pin ..
    · rfl

theorem fireTrig_perf (k now : Nat) (s : State) : ((fireTrig k now s).sport k).perf = (s.sport k).perf := by
  unfold fireTrig
  dsimp only
  split
  · rfl
  · split
    · rw [setSport_self]
    · split
      · exact (congrArg SPort.perf (setSport_self ..) :)
      · rw [setSport_self]

theorem sourceEdge_perf (k now src : Nat) (s : State) : ((sourceEdge k now src s).sport k).perf = (s.sport k).perf := by
  unfold sourceEdge
  dsimp only
  generalize (if src = 2 then (s.sport k).armPhase.toNat else 0) = e
  split
  · rfl
  · split
    · rw [fireTrig_perf, setSport_self]
    · rw [setSport_self]

section
variable {k m ph : Nat} {s : State} {level : Bool}
  (h : (s.pin (k * 16 + m)).hold = 0 ∨ s.steps ph < (s.pin (k * 16 + m)).hold - 1 + 1600)
include h

/-- But for the step in which a hold ends, an accepted edge sets the outside level of its pin alone. -/
theorem pinEdge_pin (j : Nat) :
    (pinEdge k m ph level s).pin j = (s.setPin (k * 16 + m) { s.pin (k * 16 + m) with ext := level }).pin j := by
  unfold pinEdge
  dsimp only
  rw [pinHoldEnd_early h]
  split
  · rfl
  · split
    · rfl
    · rw [functionEdge_pin]
      rfl

/-- A rising edge that a perforation input sees counts one (R478). -/
theorem pinEdge_perf (hon : s.intakeOn k = true) (hdrive : s.pinDrive (k * 16 + m) = none)
    (hact : (s.pin (k * 16 + m)).act = 4) (hinv : (s.pin (k * 16 + m)).actInv = false) (hlevel : level = true)
    (hlow : (s.sport k).inLvl.getLsbD 3 = false) :
    ((pinEdge k m ph level s).sport k).perf = (s.sport k).perf + 1 := by
  have hport : ∀ x : Pin, (s.setPin (k * 16 + m) x).sport k = s.sport k := fun _ => rfl
  unfold pinEdge
  dsimp only
  rw [pinHoldEnd_early h, if_neg (by simp [hon, hdrive, hact, isInput]), hact, hinv, hlevel, hport, if_neg (by simpa using hlow)]
  show ((sourceEdge k _ 2 _).sport k).perf = _
  rw [sourceEdge_perf, setSport_self, setSport_self]

end

/-! ### Output faults (R471) -/

theorem outputOverload_pin {k m : Nat} {s : State} (hm : m < 16) (h : s.pinDrive (k * 16 + m) ≠ none) :
    (outputOverload k m s).pin (k * 16 + m) = { s.pin (k * 16 + m) with fault := true, faultTick := s.win.tb } := by
  unfold outputOverload
  dsimp only
  rw [if_neg hm.ne, if_pos ⟨hm, Option.isSome_iff_ne_none.mpr h⟩, portEvent_pin, setPin_self]

theorem outputOverload_5v {k : Nat} {s : State} (hon : s.intakeOn k = true) (h : (s.sport k).fault5v = false) :
    (outputOverload k 16 s).sport k = { s.sport k with fault5v := true, fault5Tick := s.win.tb } := by
  simp [outputOverload, hon, h]

theorem outputRetry_pin {k m : Nat} {s : State} (ok : Bool) (hm : m < 16) (hfault : (s.pin (k * 16 + m)).fault = true)
    (hdue : (s.pin (k * 16 + m)).faultTick.toNat + 1000000 ≤ s.win.tb.toNat) :
    outputRetry k m ok s = s.setPin (k * 16 + m) { s.pin (k * 16 + m) with fault := !ok, faultTick := s.win.tb } := by
  have hage : 1000000 ≤ s.win.tb.toNat - (s.pin (k * 16 + m)).faultTick.toNat := by omega
  simp [outputRetry, hm, hm.ne, hfault, hage]

theorem outputRetry_5v {k : Nat} {s : State} (ok : Bool) (hfault : (s.sport k).fault5v = true)
    (hdue : (s.sport k).fault5Tick.toNat + 100000000 ≤ s.win.tb.toNat) :
    outputRetry k 16 ok s = s.setSport k { s.sport k with fault5v := !ok, fault5Tick := s.win.tb } := by
  have hage : 100000000 ≤ s.win.tb.toNat - (s.sport k).fault5Tick.toNat := by omega
  simp [outputRetry, hfault, hage]

/-- Settles O38: a write, the end of its hold, an edge, an overload and a retry each set the pin's record as stated. -/
theorem pinsHoldAndSeeEdges : Obligations.PinsHoldAndSeeEdges := by
  unfold Obligations.PinsHoldAndSeeEdges
  intro s port m k ph val key x f
  have hwide : (m.setWidth 5).toNat = m.toNat := by
    rw [BitVec.toNat_setWidth]
    exact Nat.mod_eq_of_lt (lt_trans m.isLt (by decide))
  refine ⟨fun hw hans => ⟨fun hf hhold => ?_, fun hf hhold hchange => ?_, fun hf => ?_⟩, ?_, ?_, ?_, ?_, ?_⟩
  case refine_1 =>
    obtain ⟨u, y, hsports, hwrite, hfunc, hinv, hterm, hfilt, hact, hheld⟩ := pinWrite_free (val := val) hf hhold
    refine runs_of_answered_ok hw hans (exec_pinConfigWrite ..) hwrite ?_
    rw [setupNote_pin, setPin_self, setupNote_sports, setPin_sports]
    exact ⟨hfunc, hinv, hterm, hfilt, hact, hheld, hsports⟩
  case refine_2 =>
    exact runs_of_answered_error hw hans (exec_pinConfigWrite ..) (pinWrite_held hf hhold hchange) rfl
  case refine_3 => exact runs_of_answered_error hw hans (exec_pinConfigWrite ..) (pinWrite_reserved hf) rfl
  case refine_4 =>
    intro hhold hdue
    have hpins := pinHoldEnd_pins (ph := ph.toNat) hhold hdue
    refine ⟨_, rfl, ?_, ?_, ?_, fun j hj => (hpins j).trans (setPin_ne _ _ hj)⟩ <;>
      exact (congrArg _ ((hpins key).trans (setPin_self ..)) :)
  case refine_5 =>
    intro level hstep
    have hpins := pinEdge_pin (level := level) (ph := ph.toNat) hstep
    exact ⟨_, rfl, (hpins key).trans (setPin_self ..), fun j hj => (hpins j).trans (setPin_ne _ _ hj), pinEdge_perf hstep⟩
  case refine_6 => exact fun hdrive => ⟨_, rfl, hwide.symm ▸ outputOverload_pin m.isLt hdrive⟩
  case refine_7 => exact fun hon h5v => ⟨_, rfl, outputOverload_5v hon h5v⟩
  case refine_8 =>
    exact fun ok => ⟨fun hfault hdue => ⟨_, rfl, hwide.symm ▸ outputRetry_pin ok m.isLt hfault hdue⟩,
      fun hfault hdue => ⟨_, rfl, outputRetry_5v ok hfault hdue⟩⟩

end Sys2Proof.Machine
end

section
/-! PROOFS. Triggers and scheduled outputs of a scanner port (O39). -/

namespace Sys2Proof.Machine

open Sys2Proof

theorem exec_triggerArm (port : BitVec 4) (k : Fin 8) (val : Word) (s : State) : exec (.triggerArm port k val) s =
    .next (trayOp (portIntake k.val) port.toNat (tioPage k.val + 0x50) val.toNat (trigArm k.val val s) s) := rfl
theorem exec_trigFire (port : BitVec 4) (k : Fin 8) (ph : BitVec 2) (s : State) : exec (.trigFire port k ph) s =
    .next (trayOp (portIntake k.val) port.toNat (tioPage k.val + 0x5C) 1 (.ok (trigFire k.val ph.toNat s)) s) := rfl

theorem trigArm_legal {k : Nat} {val : Word} {s : State} (hsrc : Fld val 0 3 ≤ 5)
    (hperiod : periodOk (Fld val 0 3) (s.sport k).period.toNat = true) : ∃ target, trigArm k val s = .ok (s.setSport k { s.sport k with
      trigCtl := val &&& 0x31F, trigIdx := 0, srcEdges := 0, armFrames := 0, armPeriod := (s.sport k).period
      armPhase := (s.sport k).phase, target := target }) := by
  unfold trigArm
  dsimp only
  rw [if_neg (by simp [hperiod, hsrc])]
  exact ⟨_, rfl⟩

theorem trigArm_illegal {k : Nat} {val : Word} {s : State}
    (h : 5 < Fld val 0 3 ∨ periodOk (Fld val 0 3) (s.sport k).period.toNat = false) : trigArm k val s = .error 3 := by
  unfold trigArm
  exact if_pos h

/-! ### A trigger (R480, R484) -/

theorem fireTrig_overrun {k now : Nat} {s : State} (hfired : (s.sport k).firedAt now = false)
    (hbusy : (s.sport k).sched.any (fun e => decide (e.out < 6)) = true) : fireTrig k now s =
      s.setSport k { s.sport k with overrun := satInc (s.sport k).overrun, overRun := satInc (s.sport k).overRun } := by
  unfold fireTrig
  dsimp only
  rw [if_neg (by simp [hfired]), if_pos hbusy]

/-- A port's record with one more trigger. -/
def SPort.triggered (now : Nat) (p : SPort) : SPort := { p with
  trigCount := p.trigCount + 1, trigTs := w64 now, trigIdx := p.trigIdx + 1, sched := p.sched ++ trigEdges p now p.trigIdx }

theorem fireTrig_sports {k now : Nat} {s : State} (hfired : (s.sport k).firedAt now = false)
    (hbusy : (s.sport k).sched.any (fun e => decide (e.out < 6)) = false) :
    (fireTrig k now s).sports = (s.setSport k ((s.sport k).triggered now)).sports := by
  unfold fireTrig
  dsimp only
  rw [if_neg (by simp [hfired]), if_neg (by simp [hbusy])]
  exact (apply_ite State.sports _ _ _).trans (ite_self _)

theorem fireTrig_pins (k now : Nat) (s : State) : (fireTrig k now s).pins = s.pins := by
  unfold fireTrig
  dsimp only
  split
  · rfl
  · split
    · rfl
    · split <;> rfl

/-- What a trigger that is not a second one of its step does: it counts, or overruns while an edge is still to be placed. -/
theorem fireTrig_counts {k now : Nat} {s : State} (hfired : (s.sport k).firedAt now = false) :
    ((s.sport k).sched.any (fun e => decide (e.out < 6)) = false →
      ((fireTrig k now s).sport k).trigCount = (s.sport k).trigCount + 1 ∧ ((fireTrig k now s).sport k).trigTs = w64 now ∧
        ((fireTrig k now s).sport k).overrun = (s.sport k).overrun) ∧
    ((s.sport k).sched.any (fun e => decide (e.out < 6)) = true →
      ((fireTrig k now s).sport k).trigCount = (s.sport k).trigCount ∧
        ((fireTrig k now s).sport k).overrun = satInc (s.sport k).overrun) ∧
    (∀ j, j ≠ k → (fireTrig k now s).sport j = s.sport j) ∧ (fireTrig k now s).pins = s.pins := by
  have hsport : (s.sport k).sched.any (fun e => decide (e.out < 6)) = false → ∀ j,
      (fireTrig k now s).sport j = (s.setSport k ((s.sport k).triggered now)).sport j := fun hbusy j =>
    congrArg (tget _ j) (fireTrig_sports hfired hbusy)
  refine ⟨fun hbusy => ?_, fun hbusy => ?_, fun j hj => ?_, fireTrig_pins k now s⟩
  · rw [hsport hbusy k, setSport_self]
    exact ⟨rfl, rfl, rfl⟩
  · rw [fireTrig_overrun hfired hbusy, setSport_self]
    exact ⟨rfl, rfl⟩
  · cases hbusy : (s.sport k).sched.any (fun e => decide (e.out < 6)) with
    | false => rw [hsport hbusy j, setSport_ne _ _ hj]
    | true => rw [fireTrig_overrun hfired hbusy, setSport_ne _ _ hj]

/-! ### A due edge (R481) -/

theorem takeDue_single {now : Nat} {e : OutEdge} (h : e.due ≤ now) : takeDue now [e] = some (e, []) := by
  simp [takeDue, h]

/-- Levels with output `i` set or cleared. -/
def SPort.levels (i : Nat) (rise : Bool) (p : SPort) : BitVec 6 :=
  if rise then p.outLvl ||| BitVec.ofNat 6 (2 ^ i) else p.outLvl &&& ~~~(BitVec.ofNat 6 (2 ^ i))

theorem levels_getLsbD {i j : Nat} (rise : Bool) (p : SPort) (hj : j < 6) :
    (p.levels i rise).getLsbD j = if j = i then rise else p.outLvl.getLsbD j := by
  have hbit : (BitVec.ofNat 6 (2 ^ i)).getLsbD j = decide (i = j) := by
    rw [BitVec.getLsbD_ofNat, Nat.testBit_two_pow]
    simp [hj]
  unfold SPort.levels
  cases rise with
  | false =>
    rw [if_neg Bool.false_ne_true, BitVec.getLsbD_and, BitVec.getLsbD_not, hbit]
    by_cases hji : i = j <;> simp [hj, hji, eq_comm]
  | true =>
    rw [if_pos rfl, BitVec.getLsbD_or, hbit]
    by_cases hji : i = j <;> simp [hji, eq_comm]

/-- The only edge scheduled, of a strobe output and due, is placed and leaves the schedule. -/
theorem outputEdge_strobe {k ph : Nat} {s : State} {e : OutEdge} (hsched : (s.sport k).sched = [e]) (hout : e.out < 5)
    (hdue : e.due ≤ s.steps ph) : ∃ m, (outputEdge k ph s).sport k =
      { s.sport k with sched := [], outLvl := (s.sport k).levels e.out e.rise, masked := m } ∧
      outputEdge k ph s = { s with sports := (outputEdge k ph s).sports } := by
  unfold outputEdge
  dsimp only
  rw [hsched, takeDue_single hdue]
  dsimp only
  rw [if_neg (by omega), if_neg (by omega), if_neg (by omega), Nat.min_eq_left hout.le]
  unfold placeEdge
  dsimp only
  rw [setSport_self, setSport_self]
  exact ⟨_, rfl, rfl⟩

/-- Settles O39: a trigger counts or overruns by what is still to be placed, whatever ordered it. -/
theorem triggersFireAndScheduleEdges : Obligations.TriggersFireAndScheduleEdges := by
  unfold Obligations.TriggersFireAndScheduleEdges
  intro s port k ph val p busy fired
  refine ⟨fun hw hans => ⟨fun hsrc hperiod => ?_, fun hbad => ?_, fun hsrc hfired => ?_⟩, ?_, ?_, ?_⟩
  case refine_1 =>
    obtain ⟨target, harm⟩ := trigArm_legal hsrc hperiod
    refine runs_of_answered_ok hw hans (exec_triggerArm ..) harm ?_
    refine ⟨?_, ?_, ?_, ?_, ?_, ?_, fun j hj => (setupNote_sport ..).trans (setSport_ne _ _ hj)⟩ <;> simp [p]
  case refine_2 => exact runs_of_answered_error hw hans (exec_triggerArm ..) (trigArm_illegal hbad) rfl
  case refine_3 =>
    refine runs_of_answered_ok hw hans (exec_trigFire ..) rfl ?_
    rw [trigFire, if_neg hsrc]
    obtain ⟨hcount, hover, hother, hpins⟩ := fireTrig_counts hfired
    simp only [fired, setupNote_sport, setupNote_pins]
    exact ⟨hcount, hover, hother, hpins⟩
  case refine_4 =>
    intro hon hsrc htick hfired
    have htimed : timedTrigger k.val s = fireTrig k.val (s.steps 0) s := by
      unfold timedTrigger
      exact if_pos (by simpa [hon, show Fld (s.sport k.val).trigCtl 0 3 = 4 from hsrc] using htick)
    exact ⟨_, rfl, htimed.symm ▸ fireTrig_counts hfired⟩
  case refine_5 =>
    intro e hon hsched hout hdue
    obtain ⟨m, hport, hframe⟩ := outputEdge_strobe (ph := ph.toNat) hsched hout hdue
    refine ⟨_, congrArg Host.Outcome.next (if_pos hon), ?_⟩
    beta_reduce
    rw [hport]
    refine ⟨rfl, ?_, fun i hi hne => ?_, hframe⟩
    · rw [levels_getLsbD _ _ (by omega), if_pos rfl]
    · rw [levels_getLsbD _ _ hi, if_neg hne]
  case refine_6 =>
    intro hrun htick
    have hreport : overrunReport k.val s = portEvent k.val 0x0306 0 (p.trigCount.setWidth 64) p.overRun
        (s.setSport k.val { p with overRun := 0, overTick := s.win.tb.toNat + 1 }) := by
      unfold overrunReport
      exact if_pos (by simpa [show (s.sport k.val).overTick = 0 from htick] using hrun)
    refine ⟨_, rfl, hreport.symm ▸ ⟨by simp, fun j hj => (portEvent_sport ..).trans (setSport_ne _ _ hj)⟩⟩

end Sys2Proof.Machine
end

section
/-! PROOFS. The develop pipelines (O40): a unit taken, its last write, markers and dropped frames. -/

namespace Sys2Proof.Machine

open Sys2Proof

/-! ### What a completion leaves of the intake -/

theorem hostPost_pipes (n : Nat) (o : Option (Nat × DWord)) (a : DWord) (b : List Byte) (s : State) :
    (hostPost n o a b s).pipes = s.pipes := by
  unfold hostPost
  dsimp only
  split <;> rfl

theorem hostPost_sports (n : Nat) (o : Option (Nat × DWord)) (a : DWord) (b : List Byte) (s : State) :
    (hostPost n o a b s).sports = s.sports := by
  unfold hostPost
  dsimp only
  split <;> rfl

theorem deliver_pipes (n : Nat) (e : Event) (s : State) : (deliver n e s).pipes = s.pipes := by rw [deliver_told]; rfl
theorem deliver_sports (n : Nat) (e : Event) (s : State) : (deliver n e s).sports = s.sports := by rw [deliver_told]; rfl
theorem noteHead_pipes (r : Nat) (s : State) : (noteHead r s).pipes = s.pipes := by rw [noteHead_frame]; rfl
theorem noteHead_sports (r : Nat) (s : State) : (noteHead r s).sports = s.sports := by rw [noteHead_frame]; rfl

theorem complete_pipes (r : Nat) (q : DWord) (fl i : Word) (s : State) : (complete r q fl i s).pipes = s.pipes :=
  complete_keeps State.pipes deliver_pipes setRing_pipes hostPost_pipes noteHead_pipes r q fl i s

theorem complete_sports (r : Nat) (q : DWord) (fl i : Word) (s : State) : (complete r q fl i s).sports = s.sports :=
  complete_keeps State.sports deliver_sports setRing_sports hostPost_sports noteHead_sports r q fl i s

theorem complete_pipe (r : Nat) (q : DWord) (fl i : Word) (s : State) (k : Nat) : (complete r q fl i s).pipe k = s.pipe k :=
  (congrArg (tget _ k) (complete_pipes r q fl i s) :)

theorem portEvent_pipe (k c hi : Nat) (a : DWord) (b : Word) (s : State) (j : Nat) :
    (portEvent k c hi a b s).pipe j = s.pipe j := by
  unfold portEvent
  rw [machineEvent_told]
  rfl

/-! ### A unit is taken (R507, R509) -/

/-- What a formatter's frame begun leaves: pipelines, intakes, ports, tenants. -/
def State.besideRings (s : State) : Tab Pipe × Tab Intake × Tab SPort × Tab Ten := (s.pipes, s.intakes, s.sports, s.tens)

/-- Each of these formatters' commands has been given its frame. -/
def givenFrames (outs : List (Nat × Nat × DWord)) (s : State) : State :=
  outs.foldl (fun a o => modCmd o.2.1 o.2.2 (fun c => { c with begun := true }) a) s

theorem givenFrames_besideRings (outs : List (Nat × Nat × DWord)) (s : State) :
    (givenFrames outs s).besideRings = s.besideRings :=
  foldl_keeps State.besideRings (fun a (o : Nat × Nat × DWord) => modCmd o.2.1 o.2.2 (fun c => { c with begun := true }) a)
    (fun _ _ => rfl) outs s

theorem takeUnit_eq {pl j : Nat} {s : State} {fs : List RawFrame} {bank : Bool} {gen : Word} {rest : List QItem}
    (htakes : s.takes pl = some j) (hqueue : (s.pipe j).queue = .unit fs bank gen :: rest) :
    ∃ outs pool i, ∃ u : State, u.besideRings = s.besideRings ∧
      takeUnit pl s = { (u.setPipe j { u.pipe j with queue := rest }).setPipe pl
        { (u.setPipe j { u.pipe j with queue := rest }).pipe pl with
          dev := some { ctx := j, frames := fs, bank := bank, gen := gen, outs := outs, pool := pool } } with intakes := i } := by
  have hhead : (s.pipe j).head? = some (.unit fs bank gen) := congrArg List.head? hqueue
  unfold takeUnit
  rw [htakes]
  dsimp only
  rw [hhead]
  dsimp only
  set outs := (s.pipe j).live.filterMap (fun b => (s.openFrame b.2).map (fun c => (b.1, b.2, c.seq)))
  have hkeep := givenFrames_besideRings outs s
  have hpipes : (givenFrames outs s).pipes = s.pipes := congrArg Prod.fst hkeep
  have hdrop : ((givenFrames outs s).pipe j).queue.drop 1 = rest := by
    have hpipe : (givenFrames outs s).pipe j = s.pipe j := (congrArg (tget _ j) hpipes :)
    rw [hpipe, hqueue]
    rfl
  rw [← givenFrames, hdrop]
  split <;> exact ⟨outs, _, _, givenFrames outs s, hkeep, rfl⟩

/-! ### The last write (R532) -/

/-- The scanner ports, and what each pipeline develops and has counted. -/
def State.devView (s : State) : Tab SPort × (Nat → Option Dev × Word) :=
  (s.sports, fun k => ((s.pipe k).dev, (s.pipe k).units))

theorem trayWrite_devView (w : Who) (m : List Nat) (t pa : Nat) (b : List Byte) (s : State) :
    (trayWrite w m t pa b s).devView = s.devView := rfl

theorem complete_devView (r : Nat) (q : DWord) (fl i : Word) (s : State) : (complete r q fl i s).devView = s.devView := by
  simp only [State.devView, State.pipe, complete_pipes, complete_sports]

theorem setPipe_devView {s : State} {k : Nat} {v : Pipe} (hdev : v.dev = (s.pipe k).dev) (hunits : v.units = (s.pipe k).units) :
    (s.setPipe k v).devView = s.devView := by
  have hpipes : ∀ j, (((s.setPipe k v).pipe j).dev, ((s.setPipe k v).pipe j).units) = ((s.pipe j).dev, (s.pipe j).units) := by
    intro j
    by_cases hj : j = k
    · rw [hj, setPipe_self, hdev, hunits]
    · rw [setPipe_ne s v hj]
  simp only [State.devView, hpipes]
  rfl

theorem writeFrame_devView (k t : Nat) (num : Word) (lines : List (List Byte)) (m : List Byte) (f r : Nat) (q : DWord)
    (s : State) : (writeFrame k t num lines m f r q s).devView = s.devView := by
  unfold writeFrame
  split
  · rfl
  · split
    · rfl
    · dsimp only
      refine (complete_devView ..).trans ((setPipe_devView ?_ ?_).trans ?_)
      · rfl
      · rfl
      refine foldl_keeps State.devView _ (fun a x => ?_) _ _
      exact foldl_keeps State.devView _ (fun _ _ => trayWrite_devView ..) _ _

/-- The last write of a unit, when no registration waits, counts it and frees its pipeline, whatever it writes. -/
theorem lastWrite_eq {pl : Nat} {s : State} {d : Dev} (hdev : (s.pipe pl).dev = some d) (hon : s.intakeOn pl = true)
    (hreg : hEn ((s.pipe d.ctx).header d.bank) 4 = false ∨ (s.intake (pl / 4)).c8 = true) :
    ∃ (u : State) (n : Word), u.devView = s.devView ∧ lastWrite pl s = u.setPipe pl { u.pipe pl with
      dev := none, units := (u.pipe pl).units + 1, locFail := n } := by
  have hwait : ¬(!(s.intakeOn pl) || (hEn ((s.pipe d.ctx).header d.bank) 4 && !(s.intake (pl / 4)).c8)) = true := by
    rcases hreg with h | h <;> simp [hon, h]
  unfold lastWrite
  rw [hdev]
  dsimp only
  rw [if_neg hwait]
  refine ⟨_, _, ?_, rfl⟩
  exact foldl_keeps State.devView _ (fun _ _ => writeFrame_devView ..) _ _

/-! ### Markers and dropped frames (R489, R505) -/

/-- A marker that is ready leaves the queue; the frames it completes are no record of a pipeline. -/
theorem reportMarker_pipes {k : Nat} {s : State} {num : Word} {rest : List QItem} (hqueue : (s.pipe k).queue = .marker num :: rest)
    (hon : s.intakeOn k = true) (hst : (s.pipe k).obj.st = .on) (hready : s.headReady k = true) :
    (reportMarker k s).pipes = (s.setPipe k { s.pipe k with queue := rest }).pipes := by
  have hhead : (s.pipe k).head? = some (.marker num) := congrArg List.head? hqueue
  unfold reportMarker
  dsimp only
  rw [hhead]
  dsimp only
  rw [if_pos (by simp [hon, hst, hready]), hqueue]
  refine foldl_keeps State.pipes _ (fun a b => ?_) _ _
  split
  · exact complete_pipes ..
  · rfl

/-- Settles O40: each step of a pipeline writes its own record; what formatters write and complete is elsewhere. -/
theorem pipelinesTakeDevelopAndReport : Obligations.PipelinesTakeDevelopAndReport := by
  unfold Obligations.PipelinesTakeDevelopAndReport
  intro s k x
  refine ⟨fun j fs bank gen rest htakes hqueue => ?_, fun d hdev hon hreg => ?_, fun num rest hqueue hon hst hready => ?_,
    fun hrun htick => ?_⟩
  case refine_1 =>
    obtain ⟨outs, pool, i, u, hkeep, htake⟩ := takeUnit_eq htakes hqueue
    obtain ⟨-, -, hsports, htens⟩ := Prod.ext_iff.mp hkeep |>.imp_right (fun h => Prod.ext_iff.mp h |>.imp_right Prod.ext_iff.mp)
    refine ⟨_, rfl, htake.symm ▸ ⟨⟨_, congrArg Pipe.dev (setPipe_self ..), rfl, rfl, rfl, rfl⟩, ?_, hsports, htens⟩⟩
    show (((u.setPipe j _).setPipe k.val _).pipe j).queue = rest
    by_cases hjk : j = k.val
    · rw [← hjk, setPipe_self, setPipe_self]
    · rw [setPipe_ne _ _ hjk, setPipe_self]
  case refine_2 =>
    obtain ⟨u, n, hview, hlast⟩ := lastWrite_eq hdev hon hreg
    have hunits : (u.pipe k.val).units = x.units := congrArg (fun v => (v.2 k.val).2) hview
    exact ⟨_, rfl, hlast.symm ▸ ⟨by simp, by simp [hunits], congrArg Prod.fst hview⟩⟩
  case refine_3 =>
    have hpipe : ∀ j, (reportMarker k.val s).pipe j = (s.setPipe k.val { s.pipe k.val with queue := rest }).pipe j :=
      fun j => (congrArg (tget _ j) (reportMarker_pipes hqueue hon hst hready) :)
    exact ⟨_, rfl, (congrArg Pipe.queue ((hpipe k.val).trans (setPipe_self ..)) :), fun j hj => (hpipe j).trans (setPipe_ne _ _ hj)⟩
  case refine_4 =>
    have hreport : dropReport k.val s = portEvent k.val 0x0311 0 0 x.dropRun
        (s.setPipe k.val { x with dropRun := 0, dropTick := s.win.tb.toNat + 1 }) := by
      unfold dropReport
      exact if_pos (by simpa [show (s.pipe k.val).dropTick = 0 from htick] using hrun)
    exact ⟨_, rfl, hreport.symm ▸ ⟨by rw [portEvent_pipe, setPipe_self], fun j hj => (portEvent_pipe ..).trans (setPipe_ne _ _ hj)⟩⟩

end Sys2Proof.Machine
end

section
/-! PROOFS. What the loss of a module leaves as it is beside the module's own record and power (R229, R575, R699): events,
commands that end, partitions that wind down, diagnostic mode that ends. -/

namespace Sys2Proof.Machine

open Sys2Proof

/-! ### The view -/

/-- A module's record without its key slots, its binding and gates, and its diagnostic mode. -/
def Mod.standing (m : Mod) : Mod := { m with
  keyTen := 0, slotKeys := [], keyRetry := none, keyDiag := false, diagKey := 0, bind := none, gateClosed := false
  diagEn := false, diagActive := false }

/-- The state without tenants, partitions, rings, cores, channels, column memory, pipelines, the fabric, what goes out, the log and
the counters of faults; and each module's standing. -/
def State.lossView (s : State) : State × (Nat → Mod) :=
  ({ s with
    tens := [], parts := [], rings := [], isles := [], cores := [], chans := [], cols := [], unitKeys := [], badUnits := []
    fab := {}, flt := {}, reads := [], nextRead := 0, out := [], freeCtr := 0, mevHeld := [], mevLost := 0, mevRun := 0
    pipes := [], mods := [], stw := { s.stw with chans := [], ram := [], ramLost := 0 }, pwr := { s.pwr with dropped := 0 } },
   fun w => (s.mod w).standing)

@[simp] theorem foldl_lossView {α : Type} (f : State → α → State) (hf : ∀ a x, (f a x).lossView = a.lossView)
    (l : List α) (s : State) : (l.foldl f s).lossView = s.lossView := foldl_keeps State.lossView f hf l s

/-- A write of a module's record that leaves its standing. -/
theorem setMod_lossView {s : State} {w : Nat} {v : Mod} (h : v.standing = (s.mod w).standing) :
    (s.setMod w v).lossView = s.lossView := by
  have hmods : ∀ j, ((s.setMod w v).mod j).standing = (s.mod j).standing := by
    intro j
    by_cases hj : j = w
    · rw [hj, setMod_self, h]
    · rw [setMod_ne s v hj]
  simp only [State.lossView, hmods]
  rfl

@[simp] theorem setTen_lossView (s : State) (n : Nat) (v : Ten) : (s.setTen n v).lossView = s.lossView := rfl
@[simp] theorem setPart_lossView (s : State) (n : Nat) (v : Part) : (s.setPart n v).lossView = s.lossView := rfl
@[simp] theorem setRing_lossView (s : State) (n : Nat) (v : Ring) : (s.setRing n v).lossView = s.lossView := rfl
@[simp] theorem setIsle_lossView (s : State) (n : Nat) (v : Isle) : (s.setIsle n v).lossView = s.lossView := rfl
@[simp] theorem setChan_lossView (s : State) (n : Nat) (v : Chan) : (s.setChan n v).lossView = s.lossView := rfl
@[simp] theorem setPipe_lossView (s : State) (n : Nat) (v : Pipe) : (s.setPipe n v).lossView = s.lossView := rfl
@[simp] theorem logAdd_lossView (c k p : Nat) (a : DWord) (b : Word) (d : List Nat) (s : State) :
    (logAdd c k p a b d s).lossView = s.lossView := by
  rw [logAdd_logged]
  rfl

/-- The end of commands and channels, and events, leave what the view holds. -/
theorem lossView_of_restView {s t : State} (h : t.restView = s.restView) : t.lossView = s.lossView := by
  have hmods : t.mods = s.mods := congrArg (·.2.mods) h
  have hmachine : t.lossView.1 = s.lossView.1 := (congrArg (fun v => { v.2 with isles := [], pipes := [], mods := [] }) h :)
  refine Prod.ext hmachine (funext fun w => ?_)
  exact (congrArg (fun m => Mod.standing (tget _ w m)) hmods :)

@[simp] theorem deliver_lossView (n : Nat) (e : Event) (s : State) : (deliver n e s).lossView = s.lossView :=
  lossView_of_restView (deliver_restView ..)

@[simp] theorem machineEvent_lossView (c n d : Nat) (p : Option (BitVec 6)) (a : DWord) (b : Word) (s : State) :
    (machineEvent c n d p a b s).lossView = s.lossView := lossView_of_restView (machineEvent_restView ..)

@[simp] theorem onLink_lossView (l : Nat) (f : Link → Link) (s : State) : (onLink l f s).lossView = s.lossView := by
  unfold onLink; dsimp only; split <;> rfl

@[simp] theorem failLink_lossView (l r : Nat) (s : State) : (failLink l r s).lossView = s.lossView :=
  onLink_lossView _ _ _

@[simp] theorem dropReads_lossView (q : HRead → Bool) (s : State) : (dropReads q s).lossView = s.lossView := rfl

@[simp] theorem abortChan_lossView (key : Nat) (s : State) : (abortChan key s).lossView = s.lossView :=
  lossView_of_restView (abortChan_restView ..)

/-! Rings and partitions that wind down (R223, R239). -/

@[simp] theorem windRing_lossView (w : Bool) (r : Nat) (s : State) : (windRing w r s).lossView = s.lossView :=
  windRing_keeps State.lossView lossView_of_restView setPipe_lossView w r s

@[simp] theorem clearPendingRings_lossView (p : Nat) (s : State) : (clearPendingRings p s).lossView = s.lossView :=
  foldl_lossView _ (fun _ _ => setRing_lossView _ _ _) _ _

@[simp] theorem cutCommands_lossView (p : Nat) (s : State) : (cutCommands p s).lossView = s.lossView :=
  lossView_of_restView (cutCommands_restView ..)

@[simp] theorem closeGates_lossView (m : List Nat) (s : State) : (closeGates m s).lossView = s.lossView := by
  refine foldl_lossView _ (fun a w => ?_) _ _
  exact setMod_lossView rfl

@[simp] theorem eraseSlots_lossView (n : Nat) (m : List Nat) (s : State) : (eraseSlots n m s).lossView = s.lossView := by
  refine foldl_lossView _ (fun a w => ?_) _ _
  exact setMod_lossView rfl

@[simp] theorem unbind_lossView (m : List Nat) (s : State) : (unbind m s).lossView = s.lossView := by
  refine foldl_lossView _ (fun a w => ?_) _ _
  exact setMod_lossView rfl

@[simp] theorem stopPart_lossView (p : Nat) (c : Bool) (s : State) : (stopPart p c s).lossView = s.lossView := by
  unfold stopPart; dsimp only; split <;> simp

@[simp] theorem windPart_lossView (p : Nat) (h : Wind) (l : Bool) (s : State) : (windPart p h l s).lossView = s.lossView := by
  unfold windPart; dsimp only
  split
  · split <;> simp
  · simp
  · split
    · split <;> simp [cancelEnable]
    · split
      · rw [stopPart_lossView]; split <;> simp
      · simp

@[simp] theorem endDiag_lossView (w : Nat) (s : State) : (endDiag w s).lossView = s.lossView := by
  refine (setMod_lossView (s := s) (w := w) (v := _) ?_ :)
  rfl

@[simp] theorem dropModPackets_lossView (w : Nat) (s : State) : (dropModPackets w s).lossView = s.lossView := rfl

@[simp] theorem dropLate_lossView (w : Nat) (s : State) : (dropLate w s).lossView = s.lossView := by
  unfold dropLate; dsimp only
  split
  · rfl
  · exact foldl_lossView _ (fun _ _ => setTen_lossView _ _ _) _ _

@[simp] theorem losePart_lossView (p w c : Nat) (s : State) : (losePart p w c s).lossView = s.lossView := by
  simp [losePart]


/-! ### What the view holds -/

section
variable {s t : State} (h : t.lossView = s.lossView)
include h

theorem lossView_standing (w : Nat) : (t.mod w).standing = (s.mod w).standing := congrFun (congrArg Prod.snd h) w
theorem lossView_state (w : Nat) : (t.mod w).state = (s.mod w).state := (congrArg Mod.state (lossView_standing h w) :)
theorem lossView_stage (w : Nat) : (t.mod w).stage = (s.mod w).stage := (congrArg Mod.stage (lossView_standing h w) :)
theorem lossView_cause (w : Nat) : (t.mod w).cause = (s.mod w).cause := (congrArg Mod.cause (lossView_standing h w) :)
theorem lossView_pwrMods : t.pwr.mods = s.pwr.mods := (congrArg (fun v => v.1.pwr.mods) h :)
theorem lossView_pwrMod (w : Nat) : t.pwrMod w = s.pwrMod w := (congrArg (tget _ w) (lossView_pwrMods h) :)
theorem lossView_trays : t.trays = s.trays := (congrArg (fun v => v.1.trays) h :)
theorem lossView_tray (u : Nat) : t.tray u = s.tray u := (congrArg (tget _ u) (lossView_trays h) :)
theorem lossView_therm : t.therm = s.therm := (congrArg (fun v => v.1.therm) h :)
theorem lossView_keys : t.keys = s.keys := (congrArg (fun v => v.1.keys) h :)
theorem lossView_boot : t.boot = s.boot := (congrArg (fun v => v.1.boot) h :)
theorem lossView_upd : t.upd = s.upd := (congrArg (fun v => v.1.upd) h :)
theorem lossView_win : t.win = s.win := (congrArg (fun v => v.1.win) h :)
theorem lossView_store : t.store = s.store := (congrArg (fun v => v.1.store) h :)

end

/-! ### A module is lowered (R573, R575) -/

/-- Following the time below 0.70 V changes the two fields that hold it, of the module and of the machine. -/
theorem markLow_eq (w : Nat) (s : State) : ∃ a b c d, markLow w s =
    { s.setPwrMod w { s.pwrMod w with lowFrom := a, lowSum := b } with
      pwr := { (s.setPwrMod w { s.pwrMod w with lowFrom := a, lowSum := b }).pwr with lowFrom := c, lowSum := d } } ∨
    markLow w s = s := by
  unfold markLow
  dsimp only
  split
  · exact ⟨0, 0, 0, 0, Or.inr rfl⟩
  · exact ⟨_, _, _, _, Or.inl rfl⟩

theorem markLow_pwrMod_self (w : Nat) (s : State) :
    ∃ a b, (markLow w s).pwrMod w = { s.pwrMod w with lowFrom := a, lowSum := b } := by
  obtain ⟨a, b, c, d, heq | heq⟩ := markLow_eq w s
  · exact ⟨a, b, by rw [heq]; exact setPwrMod_self s w _⟩
  · exact ⟨_, _, by rw [heq]⟩

@[simp] theorem lowerMod_mod (w : Nat) (s : State) (j : Nat) : (lowerMod w s).mod j = s.mod j := by
  rw [lowerMod_frame]
  rfl
@[simp] theorem lowerMod_tray (w : Nat) (s : State) (j : Nat) : (lowerMod w s).tray j = s.tray j := by
  rw [lowerMod_frame]
  rfl

theorem pwrMod_eq_of_idle {p : PwrMod} (hrise : p.rising = false) (htest : p.testing = false) :
    p = { p with obj := p.obj, rising := false, testing := false, lowFrom := p.lowFrom, lowSum := p.lowSum } := by
  cases p
  cases hrise
  cases htest
  rfl

/-- What lowering leaves of the power record of its module. -/
theorem lowerMod_pwrMod_self (w : Nat) (s : State) : ∃ ob a b, (lowerMod w s).pwrMod w =
    { s.pwrMod w with obj := ob, rising := false, testing := false, lowFrom := a, lowSum := b } ∧
    ob = if (s.pwrMod w).obj.st = .on ∨ (s.pwrMod w).rising = true ∨ (s.pwrMod w).testing = true then { st := .winding }
      else (s.pwrMod w).obj := by
  unfold lowerMod
  dsimp only
  split
  next hup =>
    obtain ⟨a, b, hlow⟩ := markLow_pwrMod_self w (s.setPwrMod w
      { s.pwrMod w with obj := { st := .winding }, rising := false, testing := false })
    refine ⟨_, a, b, hlow.trans (by rw [setPwrMod_self]), (if_pos ?_).symm⟩
    simpa [or_assoc] using hup
  next hdown =>
    have hidle : ¬((s.pwrMod w).obj.st = .on ∨ (s.pwrMod w).rising = true ∨ (s.pwrMod w).testing = true) := by
      simpa [or_assoc] using hdown
    obtain ⟨-, hrise, htest⟩ : _ ∧ (s.pwrMod w).rising = false ∧ (s.pwrMod w).testing = false := by
      simpa [not_or] using hidle
    exact ⟨_, _, _, pwrMod_eq_of_idle hrise htest, (if_neg hidle).symm⟩

/-! ### The loss of a module (R699) -/

/-- A module's record as it leaves service. -/
def Mod.lost (cause : Nat) (m : Mod) : Mod :=
  { m with state := 2, stage := 15, cause := BitVec.ofNat 4 cause, retest := false }

/-- A module in service that is lost: its record says so, the rest of the view stays, and then it is lowered. -/
theorem loseModule_eq {w cause : Nat} {s : State} (h : s.modServing w = true) : ∃ u : State,
    u.lossView = (s.setMod w ((s.mod w).lost cause)).lossView ∧ loseModule w cause s = lowerMod w u := by
  unfold loseModule
  rw [if_pos h]
  refine ⟨_, ?_, rfl⟩
  rw [machineEvent_lossView, foldl_lossView _ (fun _ _ => setIsle_lossView _ _ _)]
  simp [Mod.lost]

theorem loseModule_absent {w cause : Nat} {s : State} (h : s.modServing w = false) :
    loseModule w cause s = lowerMod w s := by
  unfold loseModule
  exact if_neg (by simp [h])

section
variable {w cause : Nat} {s : State}

/-- A module lost from service stands at stage 15 with the cause given. -/
theorem loseModule_mod_self (h : s.modServing w = true) : ((loseModule w cause s).mod w).state = 2 ∧
    ((loseModule w cause s).mod w).stage = 15 ∧ ((loseModule w cause s).mod w).cause = BitVec.ofNat 4 cause := by
  obtain ⟨u, hu, heq⟩ := loseModule_eq (cause := cause) h
  rw [heq, lowerMod_mod, lossView_state hu, lossView_stage hu, lossView_cause hu, setMod_self]
  exact ⟨rfl, rfl, rfl⟩

/-- The loss of a module leaves what the view holds of every other, and the machine but for power. -/
theorem loseModule_beside (w cause : Nat) (s : State) : ∃ u : State,
    (∀ j, j ≠ w → (u.mod j).standing = (s.mod j).standing) ∧ u.pwr.mods = s.pwr.mods ∧
      u.lossView.1 = s.lossView.1 ∧ loseModule w cause s = lowerMod w u := by
  cases h : s.modServing w with
  | false => exact ⟨s, fun _ _ => rfl, rfl, rfl, loseModule_absent h⟩
  | true =>
    obtain ⟨u, hu, heq⟩ := loseModule_eq (cause := cause) h
    refine ⟨u, fun j hj => ?_, (lossView_pwrMods hu :), (congrArg Prod.fst hu :), heq⟩
    rw [lossView_standing hu, setMod_ne _ _ hj]

theorem loseModule_standing_ne (cause : Nat) (s : State) {j : Nat} (h : j ≠ w) :
    ((loseModule w cause s).mod j).standing = (s.mod j).standing := by
  obtain ⟨u, hmod, -, -, heq⟩ := loseModule_beside w cause s
  rw [heq, lowerMod_mod, hmod j h]

theorem loseModule_pwrMod_ne (cause : Nat) (s : State) {j : Nat} (h : j ≠ w) :
    (loseModule w cause s).pwrMod j = s.pwrMod j := by
  obtain ⟨u, -, hpwr, -, heq⟩ := loseModule_beside w cause s
  rw [heq, lowerMod_pwrMod_ne _ _ h]
  exact (congrArg (tget _ j) hpwr :)

/-- The power record of the module that is lost is that of a module lowered. -/
theorem loseModule_pwrMod_self (w cause : Nat) (s : State) : ∃ ob a b, (loseModule w cause s).pwrMod w =
    { s.pwrMod w with obj := ob, rising := false, testing := false, lowFrom := a, lowSum := b } ∧
    ob = if (s.pwrMod w).obj.st = .on ∨ (s.pwrMod w).rising = true ∨ (s.pwrMod w).testing = true then { st := .winding }
      else (s.pwrMod w).obj := by
  obtain ⟨u, -, hpwr, -, heq⟩ := loseModule_beside w cause s
  have hmod : u.pwrMod w = s.pwrMod w := (congrArg (tget _ w) hpwr :)
  rw [heq, ← hmod]
  exact lowerMod_pwrMod_self w u

theorem loseModule_safety (w cause : Nat) (s : State) (j : Nat) :
    ((loseModule w cause s).pwrMod j).safety = (s.pwrMod j).safety := by
  by_cases hj : j = w
  · obtain ⟨ob, a, b, heq, -⟩ := loseModule_pwrMod_self w cause s
    rw [hj, heq]
  · rw [loseModule_pwrMod_ne _ _ hj]

theorem loseModule_trays (w cause : Nat) (s : State) : (loseModule w cause s).trays = s.trays := by
  obtain ⟨u, -, -, hrest, heq⟩ := loseModule_beside w cause s
  rw [heq, lowerMod_frame]
  exact (congrArg State.trays hrest :)

theorem loseModule_therm (w cause : Nat) (s : State) : (loseModule w cause s).therm = s.therm := by
  obtain ⟨u, -, -, hrest, heq⟩ := loseModule_beside w cause s
  rw [heq, lowerMod_frame]
  exact (congrArg State.therm hrest :)

end

end Sys2Proof.Machine
end

section
/-! PROOFS. Attestation (O57): a port's mailbox answers each request once. -/

namespace Sys2Proof.Machine

open Sys2Proof

theorem doe_answers {port : Nat} {s : State} (h : s.mailbox port = true) (code : Nat) (body : List Nat) :
    doe port code body s = { s with out := s.out ++ [.answer (2 ^ 33 + port) code body] } := if_pos h

theorem doe_silent {port : Nat} {s : State} (h : s.mailbox port = false) (code : Nat) (body : List Nat) :
    doe port code body s = s := if_neg (by simp [h])

theorem measured_block {s : State} {i : Nat} (hlo : 1 ≤ i) (hhi : i ≤ 10) : s.measured i = some (s.measurement i) := by
  rw [State.measured, if_neg (by omega), if_pos ⟨hlo, hhi⟩]

/-- Every request ends in an answer of the mailbox: where the mailbox is silent, in none. -/
theorem challenge_eq_doe (port slot summary nonce : Nat) (s : State) :
    ∃ code body, challenge port slot summary nonce s = doe port code body s := by
  unfold challenge
  split <;> exact ⟨_, _, rfl⟩

theorem getMeasurements_eq_doe (port i nonce : Nat) (sign : Bool) (s : State) :
    ∃ code body, getMeasurements port i nonce sign s = doe port code body s := by
  unfold getMeasurements
  split <;> exact ⟨_, _, rfl⟩

/-- Settles O57: a request ends in one answer, which the mailbox gives or not. -/
theorem mailboxAnswersAttestation : Obligations.MailboxAnswersAttestation := by
  unfold Obligations.MailboxAnswersAttestation
  intro s port slot off len nonce index sign says_
  refine ⟨fun h => ?_, fun h => ?_⟩
  · have hsay : ∀ code body, says_ code body (doe port.toNat code body s) := fun code body => doe_answers h code body
    refine ⟨⟨_, rfl, hsay ..⟩, ⟨_, rfl, hsay ..⟩, ⟨_, rfl, hsay ..⟩, fun hslot => ⟨⟨_, rfl, ?_⟩, ⟨_, rfl, ?_⟩⟩,
      ⟨_, rfl, hsay ..⟩, fun m hm => ⟨_, rfl, ?_⟩, fun i hlo hhi => measured_block hlo hhi, fun hm => ⟨_, rfl, ?_⟩,
      ⟨_, rfl, hsay ..⟩⟩
    · exact if_neg hslot ▸ hsay ..
    · have hslot' : slot.toNat ≠ 0 := fun h0 => hslot (BitVec.eq_of_toNat_eq h0)
      rw [challenge, if_neg (fun hc => hslot' hc.1)]
      exact hsay ..
    · rw [getMeasurements, hm]
      exact hsay ..
    · rw [getMeasurements, hm]
      exact hsay ..
  · have hquiet : ∀ code body, doe port.toNat code body s = s := doe_silent h
    refine ⟨⟨_, rfl, hquiet ..⟩, ⟨_, rfl, hquiet ..⟩, ⟨_, rfl, hquiet ..⟩, ⟨_, rfl, ?_⟩, ⟨_, rfl, ?_⟩, ⟨_, rfl, ?_⟩⟩
    · split <;> exact hquiet ..
    · obtain ⟨code, body, heq⟩ := challenge_eq_doe port.toNat slot.toNat 0 nonce.toNat s
      exact heq.trans (hquiet ..)
    · obtain ⟨code, body, heq⟩ := getMeasurements_eq_doe port.toNat index.toNat nonce.toNat sign s
      exact heq.trans (hquiet ..)

end Sys2Proof.Machine
end

section
/-! PROOFS. Keys (O56): loading, forgetting, the wrapping key, and the writes of module slots. -/

namespace Sys2Proof.Machine

open Sys2Proof

theorem exec_keyLoad (port n : BitVec 4) (s : State) : exec (.keyLoad port n) s =
    .next (regOp port.toNat 0xA1008 (n.toNat + 0x100) (keyGo n.toNat s) s) := rfl
theorem exec_keyForget (port n : BitVec 4) (s : State) : exec (.keyForget port n) s =
    .next (regOp port.toNat 0xA1008 (n.toNat + 0x200) (keyForget n.toNat s) s) := rfl
theorem exec_rotateWk (port : BitVec 4) (s : State) : exec (.rotateWk port) s =
    .next (regOp port.toNat 0xA0050 1 (rotateWk s) s) := rfl

/-! ### GO and FORGET (R727) -/

section
variable {n : Nat} {s : State}

theorem keyBar_busy (h : s.keys.busy = true) : s.keyBar n = some 4 := by simp [State.keyBar, h]

theorem keyBar_barred (hbusy : s.keys.busy = false) (h : s.keys.white = true ∨ s.keys.ready = false ∨
    (s.partsOf n).any (fun p => (s.part p).obj.st == .on) = true) : s.keyBar n = some 5 := by
  rw [State.keyBar, if_neg (by simp [hbusy]), if_pos]
  rw [Bool.or_eq_true, Bool.or_eq_true, Bool.not_eq_true']
  exact or_assoc.mpr h

theorem keyBar_none (hbusy : s.keys.busy = false) (hwhite : s.keys.white = false) (hready : s.keys.ready = true)
    (hon : (s.partsOf n).any (fun p => (s.part p).obj.st == .on) = false) : s.keyBar n = none := by
  rw [State.keyBar, if_neg (by simp [hbusy]), if_neg]
  rw [hwhite, hready, hon]
  decide

theorem keyGo_barred {c : Nat} (h : s.keyBar n = some c) : keyGo n s = .error c := by rw [keyGo, h]
theorem keyForget_barred {c : Nat} (h : s.keyBar n = some c) : keyForget n s = .error c := by rw [keyForget, h]

theorem keyGo_reads (h : s.keyBar n = none) : keyGo n s = .ok (ctlRead s.keys.loadSrc 256 .blob
    { s with keys := { s.keys with busy := true, loadTen := BitVec.ofNat 4 n } }) := by rw [keyGo, h]

theorem ctlRead_frame (a : DWord) (len : Nat) (pu : RdPurpose) (s : State) : ctlRead a len pu s =
    { s with reads := (ctlRead a len pu s).reads, nextRead := (ctlRead a len pu s).nextRead, out := (ctlRead a len pu s).out } := by
  unfold ctlRead
  dsimp only
  split <;> rfl

/-- The key of a tenant forgotten. -/
def Ten.keyless (t : Ten) : Ten := { t with keyLoaded := false, keyEph := false, keyGen := t.keyGen + 1, keyId := 0 }

theorem keyForget_loaded (h : s.keyBar n = none) (hkey : (s.ten n).keyLoaded = true) :
    keyForget n s = .ok (storeItem (keyItem n) 0
      ({ s with keys := { s.keys with loadTen := BitVec.ofNat 4 n, result := 0 } }.setTen n (s.ten n).keyless)) := by
  rw [keyForget, h]
  dsimp only
  rw [if_pos hkey]
  rfl

theorem keyForget_none (h : s.keyBar n = none) (hkey : (s.ten n).keyLoaded = false) :
    keyForget n s = .ok { s with keys := { s.keys with loadTen := BitVec.ofNat 4 n, result := 0 } } := by
  rw [keyForget, h]
  dsimp only
  rw [if_neg (by simp [hkey])]

end

@[simp] theorem storeItem_ten (off : Nat) (v : Word) (s : State) (j : Nat) : (storeItem off v s).ten j = s.ten j :=
  (congrArg (tget _ j) (storeItem_tens off v s) :)

/-! ### Blobs (R726) -/

@[simp] theorem loadKey_keys (n : Nat) (volatile : Bool) (key : List Byte) (s : State) :
    (loadKey n volatile key s).keys = s.keys := by
  unfold loadKey
  dsimp only
  split
  · rfl
  · rw [storeItem_keys]
    rfl

/-- Beside its tenant's, a key loaded changes no tenant's record. -/
theorem loadKey_ten (n : Nat) (volatile : Bool) (key : List Byte) (s : State) (j : Nat) :
    (loadKey n volatile key s).ten j = (s.setTen n { s.ten n with
      keyLoaded := true, keyEph := false, keyGen := (s.ten n).keyGen + 1, keyId := s.keySerial + 1 }).ten j := by
  unfold loadKey
  dsimp only
  split
  · rfl
  · exact storeItem_ten ..

section
variable {s : State} {id : Nat} {h : HRead} {blob : List Byte} (hread : s.readFor (fun u => u == .blob) = some (id, h))
  (hbusy : s.keys.busy = true) (hsent : h.sent = true)
include hread hbusy hsent

theorem judgeBlob_failed : judgeBlob [] true s = endLoad 6 (endRead id s) := by
  simp [judgeBlob, hread, hbusy, hsent]

theorem judgeBlob_read (hlen : blob.length = 256) : judgeBlob blob false s =
    if s.blobResult s.keys.loadTen.toNat blob = 0 then
      loadKey s.keys.loadTen.toNat (fieldAt blob 6 1 == 1) ((Config.unwrapKey s.keys.wkgen.toNat blob).getD []) (endLoad 0 (endRead id s))
    else endLoad (s.blobResult s.keys.loadTen.toNat blob) (endRead id s) := by
  unfold judgeBlob
  rw [hread]
  dsimp only
  rw [if_neg (by simp [hbusy, hsent, hlen]), if_neg Bool.false_ne_true]
  split
  next hr => rw [hr]
  next => rfl

end

/-- Settles O56: GO and FORGET go by what bars them; a load, a rotation and a slot write end in one write of a record. -/
theorem keysAreLoadedForgottenAndWritten : Obligations.KeysAreLoadedForgottenAndWritten := by
  unfold Obligations.KeysAreLoadedForgottenAndWritten
  refine ⟨?_, ?_, ?_, ?_⟩
  case refine_1 =>
    intro s port n hw on refused
    have hn : BitVec.ofNat 4 n.toNat = n := by simp
    have hrefuse : ∀ c, s.keyBar n.toNat = some c →
        Runs (.keyLoad port n) s (refused c) ∧ Runs (.keyForget port n) s (refused c) := fun c hbar =>
      ⟨runs_of_regOp_error hw (exec_keyLoad ..) (keyGo_barred hbar) rfl,
        runs_of_regOp_error hw (exec_keyForget ..) (keyForget_barred hbar) rfl⟩
    refine ⟨fun hbusy => hrefuse 4 (keyBar_busy hbusy), fun hbusy hbar => hrefuse 5 (keyBar_barred hbusy hbar),
      fun hbusy hwhite hready hon => ?_, fun hbar => ?_, fun hbusy hwhite => ?_⟩
    · have hbar := keyBar_none hbusy hwhite hready hon
      refine ⟨runs_of_regOp_ok hw (exec_keyLoad ..) (keyGo_reads hbar) ⟨?_, ?_, ?_⟩, ?_⟩
      · rw [setupNote_keys, ctlRead_frame, hn]
      · rw [setupNote_tens, ctlRead_frame]
      · rw [setupNote_reads, ctlRead_reads]
        exact tget_tset_self ..
      · cases hkey : (s.ten n.toNat).keyLoaded with
        | true =>
          refine runs_of_regOp_ok hw (exec_keyForget ..) (keyForget_loaded hbar hkey) ⟨?_, ?_, ?_, fun j hj => ?_⟩
          · rw [setupNote_keys, storeItem_keys, setTen_keys, hn]
          · rw [setupNote_ten, storeItem_ten, setTen_self]
            rfl
          · rw [setupNote_ten, storeItem_ten, setTen_self]
            rfl
          · rw [setupNote_ten, storeItem_ten, setTen_ne _ _ hj]
            rfl
        | false =>
          refine runs_of_regOp_ok hw (exec_keyForget ..) (keyForget_none hbar hkey) ⟨?_, ?_, ?_, fun j hj => ?_⟩
          · rw [setupNote_keys, hn]
          · rw [setupNote_ten]
            exact hkey
          · rw [setupNote_ten]
            rfl
          · rw [setupNote_ten]
            rfl
    · have hrot : rotateWk s = .error 5 := if_pos (by simpa using hbar)
      exact runs_of_regOp_error hw (exec_rotateWk ..) hrot rfl
    · have hrot : rotateWk s = .ok { s with keys := { s.keys with rotating := true } } := if_neg (by simp [hbusy, hwhite])
      refine runs_of_regOp_ok hw (exec_rotateWk ..) hrot ?_
      rw [setupNote_logged]
      rfl
  case refine_2 =>
    intro s id h blob hread hbusy hsent n
    refine ⟨⟨_, rfl, (judgeBlob_failed hread hbusy hsent).symm ▸ ⟨rfl, rfl⟩⟩, fun hlen => ⟨_, rfl, ?_⟩⟩
    rw [judgeBlob_read hread hbusy hsent hlen]
    by_cases hr : s.blobResult s.keys.loadTen.toNat blob = 0
    · rw [if_pos hr]
      refine ⟨?_, fun hne => absurd hr hne, fun _ => ⟨?_, ?_, fun j hj => ?_⟩⟩
      · rw [loadKey_keys, hr]
        rfl
      · rw [loadKey_ten, setTen_self]
      · rw [loadKey_ten, setTen_self]
        rfl
      · rw [loadKey_ten, setTen_ne _ _ hj]
        rfl
    · rw [if_neg hr]
      exact ⟨rfl, fun _ => rfl, fun h0 => absurd h0 hr⟩
  case refine_3 =>
    intro s hrot
    have hrotated : wrapRotated s = newWrap { s with keys := { s.keys with rotating := false } } := if_pos hrot
    refine ⟨_, rfl, hrotated.symm ▸ ⟨?_, ?_⟩⟩
    · rw [newWrap, storeItem_keys]
    · rw [newWrap, storeItem_tens]
  case refine_4 =>
    intro s w t0
    refine ⟨fun hwrites hfirst => ?_, fun hretry => ⟨fun hdue => ?_, fun hdue hserving => ?_⟩⟩
    · have htimeout : slotTimeout w.val s = machineEvent 0x0802 0 (3 + w.val * 8) none 0 0
          (s.setMod w.val { s.mod w.val with keyRetry := some s.win.tb }) := if_pos (by simp [hwrites, hfirst])
      refine ⟨_, rfl, htimeout.symm ▸ ⟨?_, fun j hj => ?_, ?_⟩⟩
      · rw [machineEvent_told]
        exact setMod_self ..
      · rw [machineEvent_told]
        exact setMod_ne s _ hj
      · rw [machineEvent_told]
        rfl
    · have hended : slotRetry w.val true s = s.setMod w.val { s.mod w.val with keyRetry := none } := by
        simp [slotRetry, hretry, hdue]
      exact ⟨_, rfl, hended.symm ▸ ⟨setMod_self .., fun j hj => setMod_ne s _ hj, rfl⟩⟩
    · have hlost : slotExhausted w.val s = loseModule w.val 11 (s.setMod w.val { s.mod w.val with keyRetry := none }) := by
        simp [slotExhausted, hretry, hdue]
      refine ⟨_, rfl, hlost.symm ▸ loseModule_mod_self ?_⟩
      rw [State.modServing, setMod_self]
      exact hserving

end Sys2Proof.Machine
end

section
/-! PROOFS. Whiteout, the tilt latch and the owner's lock (O58). -/

namespace Sys2Proof.Machine

open Sys2Proof

/-- What each element of a list establishes, and the others keep, holds of every element after a fold over the list. -/
theorem foldl_establishes {α : Type} (P : α → State → Prop) (f : State → α → State) (hself : ∀ a x, P x (f a x))
    (hkeep : ∀ a x y, P y a → P y (f a x)) (l : List α) (s : State) {x : α} (hx : x ∈ l) : P x (l.foldl f s) := by
  induction l generalizing s with
  | nil => cases hx
  | cons y l ih =>
    rcases List.mem_cons.mp hx with rfl | hx
    · exact List.foldlRecOn l f (motive := P x) (hself s x) (fun a ha z _ => hkeep a z x ha)
    · exact ih _ hx

/-! ### Keys and slots -/

/-- The key service, the modules, and which tenants have a key loaded. -/
def State.keyView (s : State) : KeyS × Tab Mod × (Nat → Bool) := (s.keys, s.mods, fun n => (s.ten n).keyLoaded)

theorem keyView_of_restView {s t : State} (h : t.restView = s.restView) : t.keyView = s.keyView := by
  have hloaded : (fun n => (t.ten n).keyLoaded) = fun n => (s.ten n).keyLoaded :=
    funext fun n => (congrArg Ten.keyLoaded (restView_ten h n) :)
  have hkeys : t.keys = s.keys := congrArg (·.2.keys) h
  have hmods : t.mods = s.mods := congrArg (·.2.mods) h
  rw [State.keyView, hkeys, hmods, hloaded]
  rfl

theorem storeItem_keyView (off : Nat) (v : Word) (s : State) : (storeItem off v s).keyView = s.keyView := by
  unfold storeItem
  split <;> rfl

/-- The keys are as given, no module in the machine holds a transport key or a tenant's, and none of these tenants has one. -/
structure Keyless (k : KeyS) (l : List Nat) (s : State) : Prop where
  keys : s.keys = k
  slots : ∀ w, w < 96 → (s.mod w).keyTransport = false ∧ (s.mod w).keyTen = 0
  loaded : ∀ n ∈ l, (s.ten n).keyLoaded = false

section
variable {k : KeyS} {l : List Nat} {s t : State}

theorem Keyless.of_keyView (h : Keyless k l s) (hview : t.keyView = s.keyView) : Keyless k l t where
  keys := (congrArg (·.1) hview).trans h.keys
  slots w hw := by
    have hmod : t.mod w = s.mod w := (congrArg (fun v => tget _ w v.2.1) hview :)
    rw [hmod]
    exact h.slots w hw
  loaded n hn := (congrArg (fun v => v.2.2 n) hview :).trans (h.loaded n hn)

theorem Keyless.of_restView (h : Keyless k l s) (hview : t.restView = s.restView) : Keyless k l t :=
  h.of_keyView (keyView_of_restView hview)

/-- A module's record may change but for its transport key and tenants' slots, which may be erased. -/
theorem Keyless.setMod (h : Keyless k l s) (w : Nat) {v : Mod} (htr : (s.mod w).keyTransport = false → v.keyTransport = false)
    (hten : (s.mod w).keyTen = 0 → v.keyTen = 0) : Keyless k l (s.setMod w v) where
  keys := h.keys
  slots j hj := by
    by_cases hjw : j = w
    · rw [hjw, setMod_self]
      exact ⟨htr (h.slots w (hjw ▸ hj)).1, hten (h.slots w (hjw ▸ hj)).2⟩
    · rw [setMod_ne _ _ hjw]
      exact h.slots j hj
  loaded := h.loaded

theorem Keyless.setPart (h : Keyless k l s) (p : Nat) (v : Part) : Keyless k l (s.setPart p v) := h.of_keyView rfl

theorem Keyless.foldl {α : Type} {f : State → α → State} (hf : ∀ a x, Keyless k l a → Keyless k l (f a x)) (h : Keyless k l s)
    (m : List α) : Keyless k l (m.foldl f s) := m.foldlRecOn f h (fun a ha x _ => hf a x ha)

/-! Partitions that wind down. -/

theorem Keyless.stopPart (h : Keyless k l s) (p : Nat) (cut : Bool) : Keyless k l (stopPart p cut s) := by
  have hrings : Keyless k l ((s.ringsIn p).foldl (fun a r => windRing (!cut) r a) s) := h.foldl (fun a r ha =>
    ha.of_keyView (windRing_keeps State.keyView keyView_of_restView (fun _ _ _ => rfl) _ r a)) _
  unfold Machine.stopPart
  dsimp only
  split
  · refine Keyless.foldl (fun a w ha => ?_) (hrings.of_restView (cutCommands_restView ..)) _
    exact ha.setMod w id id
  · exact hrings

theorem Keyless.clearPendingRings (h : Keyless k l s) (p : Nat) : Keyless k l (clearPendingRings p s) :=
  h.of_restView (clearPendingRings_keeps State.restView setRing_restView p s)

theorem Keyless.eraseSlots (h : Keyless k l s) (n : Nat) (m : List Nat) : Keyless k l (eraseSlots n m s) := by
  refine Keyless.foldl (fun a w ha => ?_) h m
  refine ha.setMod w id (fun h0 => ?_)
  dsimp only
  rw [h0]
  exact BitVec.zero_and

theorem Keyless.cancelEnable (h : Keyless k l s) (p : Nat) : Keyless k l (cancelEnable p s) := by
  have hunbound : Keyless k l (unbind (s.part p).mods (Machine.eraseSlots (s.part p).owner (s.part p).mods s)) := by
    refine Keyless.foldl (fun a w ha => ?_) (h.eraseSlots _ _) _
    exact ha.setMod w id id
  exact Keyless.clearPendingRings (hunbound.setPart p _) p

theorem Keyless.windPart (h : Keyless k l s) (p : Nat) (how : Wind) (lost : Bool) : Keyless k l (windPart p how lost s) := by
  unfold Machine.windPart
  dsimp only
  split
  · split
    · exact Keyless.clearPendingRings (h.setPart p _) p
    · exact h
  · exact (Keyless.clearPendingRings (h.setPart p _) p).stopPart p _
  · split
    · split
      · exact (h.eraseSlots _ _).setPart p _
      · exact h.cancelEnable p
    · split
      · refine Keyless.stopPart ?_ p _
        split
        · exact h.setPart p _
        · exact (h.clearPendingRings p).setPart p _
      · exact Keyless.clearPendingRings (h.setPart p _) p

/-! Diagnostic mode, intakes and the update. -/

theorem Keyless.whiteDiag (h : Keyless k l s) : Keyless k l (whiteDiag s) := by
  refine Keyless.foldl (fun a w ha => ?_) h _
  refine Keyless.foldl (fun b i hb => hb.of_restView (abortChan_restView ..)) ?_ _
  exact ha.setMod w id id

theorem discardUnit_keyView (i c : Nat) (n : Word) (s : State) : (discardUnit i c n s).keyView = s.keyView :=
  (keyView_of_restView (machineEvent_restView ..)).trans rfl

theorem stopLoad_keyView (i : Nat) (s : State) : (stopLoad i s).keyView = s.keyView := by
  unfold stopLoad
  dsimp only
  split <;> rfl

theorem whitePipe_keyView (i : Nat) (s : State) : (whitePipe i s).keyView = s.keyView := by
  have hunits : ∀ (m : List Word) (a : State), (m.foldl (fun a n => discardUnit i 4 n a) a).keyView = a.keyView :=
    fun m a => foldl_keeps State.keyView _ (fun b n => discardUnit_keyView i 4 n b) m a
  unfold whitePipe
  dsimp only
  split
  · exact (hunits ..).trans (stopLoad_keyView ..)
  · exact (hunits ..).trans (stopLoad_keyView ..)

theorem abortEvent_keyView (c : Nat) (s : State) : (abortEvent c s).keyView = s.keyView :=
  (keyView_of_restView (machineEvent_restView ..)).trans rfl

theorem clearSlots_keyView (s : State) : (clearSlots s).keyView = s.keyView := by
  refine foldl_keeps State.keyView _ (fun a i => ?_) _ s
  dsimp only
  split <;> rfl

theorem updAnswer_keyView (c : Nat) (s : State) : (updAnswer c s).keyView = s.keyView := by
  unfold updAnswer
  split <;> rfl

theorem abortUpdate_keyView (c : Nat) (s : State) : (abortUpdate c s).keyView = s.keyView := by
  have hidle : ∀ a : State, (updIdle a).keyView = a.keyView := fun _ => rfl
  unfold abortUpdate
  dsimp only
  rw [hidle]
  split
  · exact (clearSlots_keyView ..).trans (abortEvent_keyView ..)
  · exact (updAnswer_keyView ..).trans (abortEvent_keyView ..)

theorem updWhite_keyView (s : State) : (updWhite s).keyView = s.keyView := by
  unfold updWhite
  split
  · rfl
  · split
    · exact abortUpdate_keyView ..
    · exact abortEvent_keyView ..

end

/-! ### Whiteout begins (R735) -/

theorem zeroSlots_keys (s : State) : (zeroSlots s).keys = s.keys := by
  refine foldl_keeps State.keys _ (fun a w => ?_) _ s
  rfl

/-- A module's record with its slots zeroised. -/
def Mod.zeroised (m : Mod) : Mod := { m with
  keyTen := 0, slotKeys := [], keyDiag := false, diagKey := 0, keyTransport := false, keyRetry := none }

theorem zeroSlots_mod (s : State) {w : Nat} (hw : w < 96) : (zeroSlots s).mod w = (s.mod w).zeroised := by
  have hfold : ∀ l : List Nat, w ∈ l → (l.foldl (fun a w => a.setMod w (a.mod w).zeroised) s).mod w = (s.mod w).zeroised :=
    fun l hl => (foldl_mod_field (fun m => m) Mod.zeroised (fun _ => rfl) _ (fun a w => setMod_self ..)
      (fun a w v hv => setMod_ne _ _ hv) l s w).trans (if_pos hl)
  exact hfold _ (List.mem_range.mpr hw)

theorem zeroSlots_keyless {k : KeyS} {s : State} (h : s.keys = k) : Keyless k [] (zeroSlots s) := by
  have hslots : ∀ m : Mod, m.zeroised.keyTransport = false ∧ m.zeroised.keyTen = 0 := fun _ => ⟨rfl, rfl⟩
  refine ⟨(zeroSlots_keys s).trans h, fun w hw => ?_, fun n hn => absurd hn List.not_mem_nil⟩
  exact (zeroSlots_mod s hw).symm ▸ hslots _

theorem whiteTenant_keys (n : Nat) (s : State) : (whiteTenant n s).keys = s.keys := storeItem_keys ..
theorem whiteTenant_mods (n : Nat) (s : State) : (whiteTenant n s).mods = s.mods := storeItem_mods ..

/-- The tenants' keys go one after the other. -/
theorem whiteTenants_keyless {k : KeyS} {s : State} (h : Keyless k [] s) (l : List Nat) :
    Keyless k l (l.foldl (fun a n => whiteTenant n a) s) where
  keys := (foldl_keeps State.keys _ (fun a n => whiteTenant_keys n a) l s).trans h.keys
  slots w hw := by
    have hmods : (l.foldl (fun a n => whiteTenant n a) s).mods = s.mods :=
      foldl_keeps State.mods _ (fun a n => whiteTenant_mods n a) l s
    rw [State.mod, hmods]
    exact h.slots w hw
  loaded n hn := by
    refine foldl_establishes (fun n a => (State.ten a n).keyLoaded = false) _ (fun a x => ?_) (fun a x y hy => ?_) l s hn
    · rw [whiteTenant, storeItem_ten, setTen_self]
    · rw [whiteTenant, storeItem_ten]
      by_cases hyx : y = x
      · rw [hyx, setTen_self]
      · rw [setTen_ne _ _ hyx]
        exact hy

theorem whitePowered_keyless {k : KeyS} {s : State} (h : Keyless k [] s) : Keyless k allTens (whitePowered s) := by
  unfold whitePowered
  dsimp only
  refine Keyless.of_keyView ?_ (updWhite_keyView _)
  refine Keyless.foldl (fun a i ha => ha.of_keyView (whitePipe_keyView i a)) ?_ _
  refine Keyless.whiteDiag (Keyless.of_keyView ?_ (storeItem_keyView ..))
  refine Keyless.foldl (fun a p ha => ?_) (whiteTenants_keyless h allTens) _
  split
  · exact ha.windPart p .cut false
  · split
    · exact Keyless.stopPart (ha.setPart p _) p true
    · exact ha

/-- The key service as whiteout begins, from what a lid or the battery has noted in it (R735). -/
def State.whiteKeys (batt : Bool) (s : State) : KeyS := { s.keys with
  stale := (s.keys.stale ++ (allTens.map (fun n => (s.stored (keyItem n) 0).toNat)).filter (fun v => v != 0)).dedup
  white := true, ready := false, wkgen := 0, count := satInc s.keys.count, atPower := !s.boot.powered, battLost := batt
  busy := false, result := if s.keys.busy then 7 else s.keys.result, rotating := false, rearming := false, openTick := 0 }

/-- The state with those keys, no blob being read and every module's slots zeroised. -/
def State.slotless (batt : Bool) (s : State) : State :=
  zeroSlots (dropReads (fun r => r.purpose == .blob) { s with keys := s.whiteKeys batt })

theorem enterWhite_eq (batt : Bool) (s : State) : enterWhite batt s = if s.boot.powered then
    logAdd 5 0 17 (w64 (s.slotless batt).keys.lids.toNat) (w32 (s.slotless batt).keys.count.toNat) []
      (whiteEvent true (whitePowered (s.slotless batt)))
    else s.slotless batt := rfl

theorem enterWhite_keyless (batt : Bool) (s : State) :
    Keyless (s.whiteKeys batt) (if s.boot.powered then allTens else []) (enterWhite batt s) := by
  have hslots : Keyless (s.whiteKeys batt) [] (s.slotless batt) := zeroSlots_keyless rfl
  rw [enterWhite_eq]
  split
  · exact Keyless.of_restView ((whitePowered_keyless hslots).of_restView (machineEvent_restView ..)) (logAdd_restView ..)
  · exact hslots

/-- What was sealed in the key store is named in the keys that cannot be unsealed any more. -/
theorem mem_whiteKeys_stale {n : Nat} (hn : n < 16) (batt : Bool) {s : State} (h : s.stored (keyItem n) 0 ≠ 0) :
    (s.stored (keyItem n) 0).toNat ∈ (s.whiteKeys batt).stale := by
  refine List.mem_dedup.mpr (List.mem_append_right _ (List.mem_filter.mpr ⟨List.mem_map.mpr ⟨n, List.mem_range.mpr hn, rfl⟩, ?_⟩))
  have hnat : (s.stored (keyItem n) 0).toNat ≠ 0 := fun h0 => h (BitVec.eq_of_toNat_eq h0)
  simpa using hnat

/-! ### Lids and re-arm (R734, R738) -/

/-- A state with a lid found closed. -/
def State.withLid (u : Nat) (s : State) : State := { s with keys := { s.keys with
  closed := s.keys.closed ||| lidBit u, lids := s.keys.lids ||| lidBit u, openTick := 0 } }

theorem lidSwitch_enters {u : Nat} {s : State} (hsensed : s.lidSensed u = true) (hwhite : s.keys.white = false) :
    lidSwitch u true s = enterWhite false (s.withLid u) := by
  unfold lidSwitch lidCloses
  dsimp only
  rw [if_pos hsensed, if_pos rfl, if_neg (by simp [hwhite])]
  rfl

theorem lidSwitch_adds {u : Nat} {s : State} (hsensed : s.lidSensed u = true) (hwhite : s.keys.white = true) :
    (lidSwitch u true s).keys = { (s.withLid u).keys with rearming := false } := by
  unfold lidSwitch lidCloses
  dsimp only
  rw [if_pos hsensed, if_pos rfl, if_pos hwhite, logAdd_keys]
  cases hrearm : s.keys.rearming with
  | true => exact zeroSlots_keys _
  | false =>
    rw [if_neg Bool.false_ne_true, State.withLid, ← hrearm]

theorem lidSwitch_opens {u : Nat} {s : State} (hsensed : s.lidSensed u = true) : lidSwitch u false s = lidOpens u s := by
  unfold lidSwitch
  rw [if_pos hsensed, if_neg Bool.false_ne_true]

/-- The key service with re-arm completed. -/
def KeyS.rearmed (k : KeyS) : KeyS := { k with
  rearming := false, white := false, ready := true, lids := 0, battLost := false, atPower := false, storeLost := false
  wkgen := k.wkLast + 1, wkLast := k.wkLast + 1 }

/-- A re-arm agrees the transport key of every module with rails up, and beside that writes the key service's record. -/
theorem rearmDone_eq {s : State} (h : s.keys.rearming = true) : ∃ u : State, u.keys = s.keys.rearmed ∧ u.pwr.mods = s.pwr.mods ∧
    (rearmDone s).keyView = (((List.range 96).filter (fun w => u.railsUp w)).foldl
      (fun a w => a.setMod w { a.mod w with keyTransport := true }) u).keyView := by
  refine ⟨newWrap { s with keys := { s.keys with
    rearming := false, white := false, ready := true, lids := 0, battLost := false, atPower := false, storeLost := false } }, ?_, ?_, ?_⟩
  · rw [newWrap, storeItem_keys]
    rfl
  · unfold newWrap storeItem
    dsimp only
    split <;> rfl
  · unfold rearmDone
    rw [if_pos h]
    have hupd : ∀ a : State, (updRearm a).keyView = a.keyView := fun a => by
      unfold updRearm
      split <;> rfl
    exact ((keyView_of_restView (logAdd_restView ..)).trans (keyView_of_restView (machineEvent_restView ..))).trans (hupd _)

/-! ### The tilt latch and the lock (R753, R767, R768) -/

theorem exec_movingClear_window (port : BitVec 4) (b : Bool) (s : State) : exec (.movingClear (.window port) b) s =
    .next (regOp port.toNat 0x120020 1 (movingClr s) s) := rfl

theorem movingClr_clears {s : State} (h : s.sensorStill = true ∨ s.upd.tilt = false) : movingClr s = .ok (clearTilt s) := by
  unfold movingClr
  exact if_pos (by simpa using h)

theorem movingClr_refused {s : State} (hstill : s.sensorStill = false) (htilt : s.upd.tilt = true) : movingClr s = .error 5 := by
  unfold movingClr
  exact if_neg (by simp [hstill, htilt])

theorem clearTilt_told (s : State) : clearTilt s = told { s with upd := { s.upd with tilt := false } } (clearTilt s) :=
  movingEvent_told ..

/-- A management order's count of re-attitude. -/
def State.attituded (b : Bool) (s : State) : State :=
  if b then { s with upd := { s.upd with attitude := s.upd.attitude + 1 } } else s

theorem attituded_eq (b : Bool) (s : State) : s.attituded b =
    { s with upd := { s.upd with attitude := if b then s.upd.attitude + 1 else s.upd.attitude } } := by
  cases b <;> rfl

theorem answerM_upd (m : Mgmt) (h c : Nat) (l : List Nat) (s : State) : (answerM m h c l s).upd = s.upd := by
  rw [answerM_answered]
  rfl

theorem movingOrder_clears {m : Mgmt} {b : Bool} {s : State} (hm : s.majority = true)
    (h : s.sensorStill = true ∨ s.upd.tilt = false) : movingOrder m b s = answerM m 200 0 []
      (logAdd 1 0 17 0 0 [mgmtNum m, 0x120020, b2n b, b2n b] (clearTilt (s.attituded b))) := by
  have hclr : movingClr (s.attituded b) = .ok (clearTilt (s.attituded b)) :=
    movingClr_clears (by rw [attituded_eq]; exact h)
  unfold movingOrder
  rw [if_neg (by simp [hm])]
  dsimp only
  rw [← State.attituded, hclr]

theorem movingOrder_refused {m : Mgmt} {b : Bool} {s : State} (hstill : s.sensorStill = false) (htilt : s.upd.tilt = true) :
    (movingOrder m b s).upd.tilt = true := by
  have hclr : movingClr (s.attituded b) = .error 5 :=
    movingClr_refused (by rw [attituded_eq]; exact hstill) (by rw [attituded_eq]; exact htilt)
  unfold movingOrder
  split
  · rw [answerM_upd, htilt]
  · dsimp only
    rw [← State.attituded, hclr]
    dsimp only
    rw [answerM_upd, attituded_eq]
    exact htilt

theorem ownerLock_set {m : Mgmt} {b : Bool} {s : State} (hrole : s.mgmtRole m = some 2) (hm : s.majority = true) :
    ownerLock m b s = answerM m 200 0 [b2n b]
      (logAdd 1 0 17 0 0 [mgmtNum m, 0x120008, b2n b, b2n b] { s with upd := { s.upd with lock := b } }) := by
  simp [ownerLock, hrole, hm]

theorem ownerLock_refused {m : Mgmt} {s : State} (b : Bool) (hrole : s.mgmtRole m ≠ some 2) : (ownerLock m b s).upd = s.upd := by
  unfold ownerLock
  rw [if_pos hrole]
  split <;> exact answerM_upd ..

/-- Settles O58: whiteout through the keys and slots it leaves; re-arm, latch and lock through the records they write. -/
theorem whiteoutTiltAndOwnerLock : Obligations.WhiteoutTiltAndOwnerLock := by
  unfold Obligations.WhiteoutTiltAndOwnerLock
  refine ⟨fun s u hsensed => ⟨fun hwhite => ⟨_, rfl, ?_⟩, fun hwhite => ⟨_, rfl, ?_⟩, ⟨_, rfl, ?_⟩⟩, fun s hrearm => ⟨_, rfl, ?_⟩,
    fun s => ⟨_, rfl, movingEvent_told ..⟩, fun s port b hw => ⟨fun hclear => ?_, fun hstill htilt => ?_⟩,
    fun s m b => ⟨fun hm => ⟨_, rfl, if_pos (by simp [hm])⟩, fun hm hclear => ⟨_, rfl, ?_⟩,
      fun hstill htilt => ⟨_, rfl, movingOrder_refused hstill htilt⟩, fun hrole hm => ⟨_, rfl, ?_⟩,
      fun hrole => ⟨_, rfl, ownerLock_refused b hrole⟩⟩⟩
  case refine_1 =>
    rw [lidSwitch_enters hsensed hwhite]
    obtain ⟨hkeys, hslots, hloaded⟩ := enterWhite_keyless false (s.withLid u.val)
    rw [hkeys]
    refine ⟨rfl, rfl, rfl, rfl, rfl, hslots, fun n hn hstored => mem_whiteKeys_stale (s := s.withLid u.val) hn false hstored,
      fun hpower n hn => hloaded n ?_⟩
    rw [show (s.withLid u.val).boot.powered = true from hpower, if_pos rfl]
    exact List.mem_range.mpr hn
  case refine_2 => exact lidSwitch_adds hsensed hwhite
  case refine_3 =>
    rw [lidSwitch_opens hsensed]
    exact ⟨rfl, rfl, rfl⟩
  case refine_4 =>
    obtain ⟨u, hkeys, hmods, hview⟩ := rearmDone_eq hrearm
    have hfold := foldl_keeps State.keys (fun a w => a.setMod w { a.mod w with keyTransport := true }) (fun _ _ => rfl)
      ((List.range 96).filter (fun w => u.railsUp w)) u
    have hkeys' : (rearmDone s).keys = s.keys.rearmed := ((congrArg (·.1) hview :).trans hfold).trans hkeys
    rw [hkeys']
    refine ⟨rfl, rfl, rfl, rfl, rfl, rfl, fun w hw hrails => ?_⟩
    have hup : u.railsUp w = true := by
      rw [State.railsUp, State.pwrMod, hmods]
      exact hrails
    have hmod : (rearmDone s).mod w = _ := (congrArg (fun v => tget _ w v.2.1) hview :)
    rw [hmod]
    refine foldl_establishes (fun w a => (State.mod a w).keyTransport = true) _ (fun a x => ?_) (fun a x y hy => ?_) _ u
      (List.mem_filter.mpr ⟨List.mem_range.mpr hw, hup⟩)
    · exact congrArg Mod.keyTransport (setMod_self ..)
    · by_cases hyx : y = x
      · exact hyx ▸ congrArg Mod.keyTransport (setMod_self ..)
      · exact (setMod_ne a _ hyx).symm ▸ hy
  case refine_5 =>
    refine runs_of_regOp_ok hw (exec_movingClear_window ..) (movingClr_clears hclear) ?_
    exact told_trans (clearTilt_told s) (told_of_logged (setupNote_logged ..))
  case refine_6 =>
    exact runs_of_regOp_error hw (exec_movingClear_window ..) (movingClr_refused hstill htilt) rfl
  case refine_7 =>
    dsimp only
    rw [show movingClear (.mgmt m) b s = movingOrder m b s from rfl, movingOrder_clears hm hclear]
    have htold := clearTilt_told (s.attituded b)
    have hans := answered_trans (answered_trans (answered_of_told htold) (answered_of_told (told_of_logged (logAdd_logged 1 0 17 0 0 [mgmtNum m, 0x120020, b2n b, b2n b] _))))
      (answerM_answered m 200 0 [] _)
    rw [attituded_eq] at hans ⊢
    exact hans
  case refine_8 =>
    dsimp only
    rw [ownerLock_set hrole hm]
    exact answered_trans (answered_of_told (told_of_logged (logAdd_logged ..))) (answerM_answered ..)

end Sys2Proof.Machine
end

section
/-! PROOFS. Field update: delivery, refusal, staging and cancellation (O59). -/

namespace Sys2Proof.Machine

open Sys2Proof

theorem exec_updateStart (port : BitVec 4) (s : State) : exec (.updateStart port) s =
    .next (regOp port.toNat 0x120000 1 (updStart s) s) := rfl
theorem exec_updateCancel_window (port : BitVec 4) (s : State) : exec (.updateCancel (.window port)) s =
    .next (regOp port.toNat 0x120000 2 (updCancel s) s) := rfl

/-! ### What the ends of an update write of its record -/

@[simp] theorem machineEvent_upd (c n d : Nat) (p : Option (BitVec 6)) (a : DWord) (b : Word) (s : State) :
    (machineEvent c n d p a b s).upd = s.upd := by
  rw [machineEvent_told]
  rfl
@[simp] theorem rfAnswer_upd (n c : Nat) (l : List Nat) (s : State) : (rfAnswer n c l s).upd = s.upd := rfl
@[simp] theorem updAnswer_upd (c : Nat) (s : State) : (updAnswer c s).upd = s.upd := by
  unfold updAnswer
  split <;> rfl
@[simp] theorem refuse_upd (comp c : Nat) (v : Word) (s : State) :
    (refuse comp c v s).upd = { s.upd with cause := BitVec.ofNat 5 c } := machineEvent_upd ..
@[simp] theorem abortEvent_upd (c : Nat) (s : State) : (abortEvent c s).upd = { s.upd with cause := BitVec.ofNat 5 c } :=
  machineEvent_upd ..
@[simp] theorem ctlRead_upd (a : DWord) (len : Nat) (pu : RdPurpose) (s : State) : (ctlRead a len pu s).upd = s.upd := by
  rw [ctlRead_frame]

theorem refuse_told (comp c : Nat) (v : Word) (s : State) : refuse comp c v s =
    { told s (refuse comp c v s) with upd := { s.upd with cause := BitVec.ofNat 5 c } } :=
  machineEvent_told ..

/-- The record of an update that has returned to phase 0. -/
def Upd.idle (u : Upd) : Upd := { u with
  phase := 0, comp := 0, header := [], bytes := 0, inst := none, failed := none, failDue := none, returned := 0 }

@[simp] theorem updIdle_upd (s : State) : (updIdle s).upd = s.upd.idle := rfl

theorem refuseHeader_upd (h : List Byte) (c : Nat) (s : State) :
    (refuseHeader h c s).upd = { s.upd with cause := BitVec.ofNat 5 c }.idle := by
  simp [refuseHeader]

/-- In the phases before install an update that ends early changes no instance. -/
theorem abortUpdate_upd (c : Nat) {s : State} (h : s.upd.phase ≠ 3) :
    (abortUpdate c s).upd = { s.upd with cause := BitVec.ofNat 5 c }.idle := by
  simp [abortUpdate, h]

@[simp] theorem clearSlots_upd_cause (s : State) : (clearSlots s).upd.cause = s.upd.cause := by
  refine foldl_keeps (fun a : State => a.upd.cause) _ (fun a i => ?_) _ s
  dsimp only
  split <;> rfl

theorem abortUpdate_ends (c : Nat) (s : State) : (abortUpdate c s).upd.phase = 0 ∧
    (abortUpdate c s).upd.cause = BitVec.ofNat 5 c := by
  unfold abortUpdate
  dsimp only
  rw [updIdle_upd]
  refine ⟨rfl, ?_⟩
  show (State.upd (if _ then _ else _)).cause = _
  split <;> simp

/-! ### START (R752, R754) -/

/-- The record of an update whose header begins to be read. -/
def Upd.started (path sess : Nat) (u : Upd) : Upd := { u with
  phase := 1, comp := 0, cause := 0, path := path, sess := sess, from_ := u.src, header := [], bytes := 0
  inst := none, failed := none, failDue := none, returned := 0 }

theorem startHeader_eq (path sess : Nat) (s : State) :
    startHeader path sess s = { s with upd := s.upd.started path sess } := rfl

theorem updStart_busy {s : State} (h : s.upd.phase ≠ 0) : updStart s = .error 4 := if_pos h

theorem updStart_refused {s : State} (h : s.upd.phase = 0) {c : Nat} (hc : s.updRefused = some c) :
    updStart s = .ok (refuse 0 c 0 s) := by
  simp [updStart, h, hc]

theorem updStart_starts {s : State} (h : s.upd.phase = 0) (hc : s.updRefused = none) :
    updStart s = .ok (ctlRead s.upd.src 256 .parcel (startHeader 0 0 s)) := by
  simp [updStart, h, hc]

theorem rfUpdate_refused (path session : Nat) {s : State} {c : Nat} (hc : s.updRefused = some c) :
    rfUpdate path session s = rfAnswer session (refusalCode c) [c] (refuse 0 c 0 s) := by
  simp [rfUpdate, hc]

theorem rfUpdate_starts (path session : Nat) {s : State} (hc : s.updRefused = none) : rfUpdate path session s =
    if path = 2 then rfAnswer session 202 [] (startHeader path session s) else startHeader path session s := by
  simp [rfUpdate, hc]

theorem rfUpdate_refused_answered (path session : Nat) {s : State} {c : Nat} (hc : s.updRefused = some c) :
    rfUpdate path session s =
      { answered s (rfUpdate path session s) with upd := { s.upd with cause := BitVec.ofNat 5 c } } := by
  rw [rfUpdate_refused path session hc]
  have htold : refuse 0 c 0 s = told { s with upd := { s.upd with cause := BitVec.ofNat 5 c } } (refuse 0 c 0 s) :=
    machineEvent_told ..
  exact answered_trans (answered_of_told htold) (rfAnswer_answered session (refusalCode c) [c] (refuse 0 c 0 s))

/-! ### The header and the body (R750, R754, R755) -/

/-- The parcel is in hand: not at the control host, or a read of it has been sent. -/
def State.parcelInHand (s : State) : Prop :=
  s.upd.path ≠ 0 ∨ ∃ g, s.readFor (fun u => u == .parcel) = some g ∧ g.2.sent = true

/-- The parcel's read, if any, has ended. -/
def State.parcelRead (s : State) : State :=
  match s.readFor (fun u => u == .parcel) with
  | some g => endRead g.1 s
  | none => s

theorem parcelRead_frame (s : State) : s.parcelRead = { s with reads := s.parcelRead.reads } := by
  unfold State.parcelRead
  split <;> rfl

section
variable {s : State} {h : List Byte}

theorem judgeHeader_eq (hphase : s.upd.phase = 1) (hin : s.parcelInHand) (hlen : h.length = 256)
    (hup : hdrComp h ≠ 1 ∨ ∀ c, c < 3 → (s.stew c).st = 1) : judgeHeader h false s =
      match s.hdrCause h with
      | some c => refuseHeader h c s.parcelRead
      | none => startStaging h s.parcelRead := by
  have hready : (s.upd.path != 0 || (s.readFor (fun u => u == .parcel)).any (fun g => g.2.sent)) = true := by
    rcases hin with hpath | ⟨g, hg, hsent⟩
    · simp [hpath]
    · simp [hg, hsent]
  have hsteady : ¬(hdrComp h = 1 ∧ [0, 1, 2].any (fun c => (s.stew c).st != 1) = true) := by
    rintro ⟨hcomp, hany⟩
    obtain ⟨c, hc, hne⟩ := List.any_eq_true.mp hany
    have hlt : c < 3 := by
      simp only [List.mem_cons, List.not_mem_nil, or_false] at hc
      omega
    rcases hup with hother | hall
    · exact hother hcomp
    · rw [hall c hlt] at hne
      exact absurd hne (by decide)
  have hcause : s.parcelRead.hdrCause h = s.hdrCause h := by
    rw [parcelRead_frame]
    rfl
  unfold judgeHeader
  rw [if_neg (by simp [hphase])]
  dsimp only
  rw [if_neg (by simp [hready, hlen]), if_neg Bool.false_ne_true, if_neg hsteady, ← hcause]
  rfl

theorem startStaging_upd (h : List Byte) (s : State) :
    (startStaging h s).upd = { s.upd with phase := 2, comp := hdrComp h, header := h } := by
  unfold startStaging
  dsimp only
  split <;> simp

/-- The end of staging, of a body in hand and in no pause. -/
theorem bodyStaged_eq (good : BitVec 3) (failed : Bool) (hphase : s.upd.phase = 2) (hpaused : s.updPaused = false)
    (hin : s.parcelInHand) : bodyStaged good failed s =
      if failed then abortUpdate 19 s.parcelRead
      else if 2 ≤ ([0, 1, 2].filter (fun c => good.getLsbD c && s.chanUp c)).length then
        { s.parcelRead with upd := { s.parcelRead.upd with phase := 3, bytes := hdrLength s.upd.header } }
      else refuseHeader s.upd.header 15 s.parcelRead := by
  have hasked : ¬(s.upd.path = 0 && (s.readFor (fun u => u == .parcel)).any (fun g => !g.2.sent)) = true := by
    rcases hin with hpath | ⟨g, hg, hsent⟩
    · simp [hpath]
    · simp [hg, hsent]
  unfold bodyStaged
  rw [if_neg (by simp [hphase, hpaused])]
  dsimp only
  rw [if_neg hasked]
  rfl

end

/-- Settles O59: an order, the header and the body each go by one judgement; what they refuse or end returns to phase 0. -/
theorem updatesAreDeliveredOrRefused : Obligations.UpdatesAreDeliveredOrRefused := by
  unfold Obligations.UpdatesAreDeliveredOrRefused
  intro inHand
  refine ⟨fun s port hw => ⟨fun hbusy => ?_, fun hidle c hc => ?_, fun hidle hc => ?_⟩,
    fun s session => ⟨fun c hc => ⟨⟨_, rfl, ?_⟩, ⟨_, rfl, ?_⟩⟩, fun hc => ⟨⟨_, rfl, ?_⟩, ⟨_, rfl, ?_⟩⟩⟩,
    fun s h hphase hin hlen hup => ⟨fun c hc => ⟨_, rfl, ?_⟩, fun hc => ⟨_, rfl, ?_⟩⟩,
    fun s good hphase hpaused hin => ⟨fun htwo => ⟨_, rfl, ?_⟩, fun hfew => ⟨_, rfl, ?_⟩, ⟨_, rfl, ?_⟩⟩,
    fun s port hw => ⟨fun hlo hhi => ?_, fun hlate => ?_⟩⟩
  case refine_1 => exact runs_of_regOp_error hw (exec_updateStart ..) (updStart_busy hbusy) rfl
  case refine_2 =>
    refine runs_of_regOp_ok hw (exec_updateStart ..) (updStart_refused hidle hc) ?_
    have htold : refuse 0 c 0 s = told { s with upd := { s.upd with cause := BitVec.ofNat 5 c } } (refuse 0 c 0 s) :=
      machineEvent_told ..
    exact told_trans htold (told_of_logged (setupNote_logged ..))
  case refine_3 =>
    refine runs_of_regOp_ok hw (exec_updateStart ..) (updStart_starts hidle hc) ?_
    simp only [setupNote_upd, setupNote_reads, ctlRead_upd, ctlRead_reads, startHeader_eq]
    exact ⟨rfl, rfl, rfl, rfl, rfl, rfl, tget_tset_self ..⟩
  case refine_4 =>
    refine ⟨rfUpdate_refused_answered 1 session hc, ?_⟩
    rw [rfUpdate_refused 1 session hc]
    exact List.getLast?_concat ..
  case refine_5 => exact rfUpdate_refused_answered 2 session hc
  case refine_6 =>
    rw [rfUpdate_starts 1 session hc]
    exact ⟨rfl, rfl, rfl, rfl, rfl⟩
  case refine_7 =>
    rw [rfUpdate_starts 2 session hc]
    exact ⟨rfl, rfl, rfl, rfl⟩
  case refine_8 =>
    rw [judgeHeader_eq hphase hin hlen hup, hc]
    dsimp only
    rw [refuseHeader_upd, parcelRead_frame]
    exact ⟨rfl, rfl, rfl⟩
  case refine_9 =>
    rw [judgeHeader_eq hphase hin hlen hup, hc]
    dsimp only
    rw [startStaging_upd, parcelRead_frame]
    exact ⟨rfl, rfl, rfl, rfl⟩
  case refine_10 =>
    rw [bodyStaged_eq good false hphase hpaused hin, if_neg Bool.false_ne_true, if_pos htwo, parcelRead_frame]
    exact ⟨rfl, rfl, rfl⟩
  case refine_11 =>
    rw [bodyStaged_eq good false hphase hpaused hin, if_neg Bool.false_ne_true, if_neg (by omega)]
    beta_reduce
    rw [refuseHeader_upd, parcelRead_frame]
    exact ⟨rfl, rfl, rfl⟩
  case refine_12 =>
    have hphase' : s.parcelRead.upd.phase ≠ 3 := by
      rw [parcelRead_frame]
      simp [hphase]
    rw [bodyStaged_eq good true hphase hpaused hin, if_pos rfl]
    beta_reduce
    rw [abortUpdate_upd 19 hphase', parcelRead_frame]
    exact ⟨rfl, rfl, rfl⟩
  case refine_13 =>
    have hcancel : updCancel s = .ok (abortUpdate 18 s) := by
      rw [updCancel, if_neg (by omega), if_pos hhi]
    refine runs_of_regOp_ok hw (exec_updateCancel_window ..) hcancel ?_
    rw [setupNote_upd]
    exact abortUpdate_ends 18 s
  case refine_14 =>
    have hcancel : updCancel s = .error 5 := by
      rw [updCancel, if_neg (by omega), if_neg (by omega)]
    exact runs_of_regOp_error hw (exec_updateCancel_window ..) hcancel rfl

end Sys2Proof.Machine
end

section
/-! PROOFS. What the forming of units and the reset sequences of tenants leave alone (R226, R508, R817). -/

namespace Sys2Proof.Machine

open Sys2Proof

/-! ### A reset sequence (R226, R227) -/

/-- The tenant's rings and partitions wind down, its host reads are abandoned and its tallies dropped. -/
def State.tenWound (n : Nat) (s : State) : State :=
  let u := dropTenReads n ((s.ringsOfTen n).foldl (fun a r => windRing false r a) s)
  dropTallies n (((u.partsOf n).filter (fun p => (u.part p).obj.st != .off)).foldl (fun a p => windPart p .reset false a) u)

/-- The record of a tenant whose reset sequence starts. -/
def State.resetting (n : Nat) (cfg : Bool) (s : State) : Ten := { s.ten n with
  flr := if (s.ten n).flr = .idle then .drain else .drainScrub, flrTick := w64 s.upTimeAll, flrCfg := cfg, heldW := [] }

theorem startReset_draining {n : Nat} {cfg : Bool} {s : State} (h : (s.ten n).flr = .drain ∨ (s.ten n).flr = .drainScrub) :
    startReset n cfg s = s.setTen n { s.ten n with flrCfg := (s.ten n).flrCfg && cfg } := by
  rcases h with h | h <;> simp [startReset, h]

theorem startReset_starts {n : Nat} {cfg : Bool} {s : State}
    (h : ¬((s.ten n).flr = .drain ∨ (s.ten n).flr = .drainScrub)) :
    startReset n cfg s = (s.setTen n (s.resetting n cfg)).tenWound n := by
  unfold startReset
  dsimp only
  split
  next hdrain => exact absurd (Or.inl hdrain) h
  next hdrain => exact absurd (Or.inr hdrain) h
  next => rfl

section
variable {γ : Type} (v : State → γ) (hrest : ∀ {a b : State}, b.restView = a.restView → v b = v a)
  (hmod : ∀ a w x, v (State.setMod a w x) = v a) (hpipe : ∀ a k x, v (State.setPipe a k x) = v a)
  (hten : ∀ a n x, v (State.setTen a n x) = v a)

/-! ### Units form (R508) -/

include hrest hpipe

theorem discardUnit_keeps (k c : Nat) (n : Word) (s : State) : v (discardUnit k c n s) = v s :=
  (hrest (machineEvent_restView ..)).trans (hpipe ..)

theorem joinUnit_keeps (k : Nat) (f : RawFrame) (s : State) : v (joinUnit k f s) = v s := by
  unfold joinUnit
  dsimp only
  split
  · exact discardUnit_keeps v hrest hpipe ..
  · split <;> exact hpipe ..

theorem beginUnit_keeps (k : Nat) (f : RawFrame) (s : State) : v (beginUnit k f s) = v s :=
  (joinUnit_keeps v hrest hpipe ..).trans (hpipe ..)

theorem mismatch_keeps (k c : Nat) (f : RawFrame) (s : State) : v (mismatch k c f s) = v s := by
  unfold mismatch
  dsimp only
  split
  · exact (beginUnit_keeps v hrest hpipe ..).trans (discardUnit_keeps v hrest hpipe ..)
  · exact discardUnit_keeps v hrest hpipe ..

theorem formFrame_keeps (k : Nat) (f : RawFrame) (s : State) : v (formFrame k f s) = v s := by
  unfold formFrame
  dsimp only
  split
  · exact hpipe ..
  · split
    · split
      · exact beginUnit_keeps v hrest hpipe ..
      · split
        · rfl
        · exact discardUnit_keeps v hrest hpipe ..
    · split
      · exact mismatch_keeps v hrest hpipe ..
      · split
        · exact joinUnit_keeps v hrest hpipe ..
        · exact mismatch_keeps v hrest hpipe ..

theorem landMarker_keeps (k : Nat) (n : Word) (s : State) : v (landMarker k n s) = v s := by
  unfold landMarker
  dsimp only
  rw [hpipe]
  split
  · rfl
  · exact discardUnit_keeps v hrest hpipe ..

theorem reformItem_keeps (k : Nat) (q : QItem) (s : State) : v (reformItem k q s) = v s := by
  cases q with
  | frame f => exact formFrame_keeps v hrest hpipe ..
  | marker n => exact landMarker_keeps v hrest hpipe ..
  | unit fs b g => exact hpipe ..

/-- A view of what neither events nor a pipeline's record are part of is kept as a pipeline's enable takes effect. -/
theorem startPipe_keeps (k : Nat) (s : State) : v (startPipe k s) = v s := by
  have hform : ∀ a : State, v (reform k a) = v a := fun a =>
    (foldl_keeps v _ (fun b q => reformItem_keeps v hrest hpipe k q b) _ _).trans (hpipe ..)
  refine (foldl_keeps v _ (fun a b => ?_) _ _).trans ((hform _).trans (hpipe ..))
  split
  · rfl
  · exact streamUnbound_keeps v hrest hpipe ..

/-! ### Reset sequences (R226, R817) -/

include hmod

theorem tenWound_keeps (n : Nat) (s : State) : v (s.tenWound n) = v s := by
  have hrings : ∀ l : List Nat, v (l.foldl (fun a r => windRing false r a) s) = v s := fun l =>
    foldl_keeps v _ (fun a r => windRing_keeps v hrest hpipe false r a) l s
  have htallies : ∀ a : State, v (dropTallies n a) = v a := fun a => by
    refine foldl_keeps v _ (fun b r => ?_) _ a
    exact hrest (setRing_restView ..)
  unfold State.tenWound
  dsimp only
  rw [htallies]
  exact (foldl_keeps v _ (fun a p => windPart_keeps v hrest hmod hpipe p .reset false a) _ _).trans
    ((hrest (dropTenReads_restView ..)).trans (hrings _))

include hten

/-- A view of what neither tenants nor what a wind-down works on are part of is kept as a reset sequence starts. -/
theorem startReset_keeps (n : Nat) (cfg : Bool) (s : State) : v (startReset n cfg s) = v s := by
  by_cases hdrain : (s.ten n).flr = .drain ∨ (s.ten n).flr = .drainScrub
  · rw [startReset_draining hdrain, hten]
  · rw [startReset_starts hdrain, tenWound_keeps v hrest hmod hpipe, hten]

theorem resetFn_keeps (port fn : Nat) (cfg : Bool) (s : State) : v (resetFn port fn cfg s) = v s := by
  unfold resetFn
  split
  · exact startReset_keeps v hrest hmod hpipe hten ..
  · rfl

end

end Sys2Proof.Machine
end

section
/-! PROOFS. Field update: install, switching, trial, confirmation and fall-back (O60). -/

namespace Sys2Proof.Machine

open Sys2Proof

/-! ### What leaves the update's record as it is -/

theorem upd_of_restView {a b : State} (h : b.restView = a.restView) : b.upd = a.upd := congrArg (·.2.upd) h

theorem inst_of_upd {s t : State} (h : t.upd = s.upd) (k : Nat) : t.inst k = s.inst k := by
  rw [State.inst, h]
  rfl

theorem startPipe_upd (k : Nat) (s : State) : (startPipe k s).upd = s.upd :=
  startPipe_keeps State.upd upd_of_restView (fun _ _ _ => rfl) k s

theorem resetFn_upd (port fn : Nat) (cfg : Bool) (s : State) : (resetFn port fn cfg s).upd = s.upd :=
  resetFn_keeps State.upd upd_of_restView (fun _ _ _ => rfl) (fun _ _ _ => rfl) (fun _ _ _ => rfl) port fn cfg s

theorem setSriov_upd (port : Nat) (nv : BitVec 4) (en : Bool) (s : State) : (setSriov port nv en s).upd = s.upd := by
  refine (foldl_keeps State.upd _ (fun a f => ?_) _ _).trans ?_
  · exact resetFn_upd ..
  · rfl

theorem foldl_setFn_upd (port : Nat) (l : List Nat) (s : State) : (l.foldl (fun a f => a.setFn port f {}) s).upd = s.upd :=
  foldl_keeps State.upd (fun a f => a.setFn port f {}) (fun _ _ => rfl) l s

theorem foldl_resetFn_upd (port : Nat) (l : List Nat) (s : State) : (l.foldl (fun a f => resetFn port f false a) s).upd = s.upd :=
  foldl_keeps State.upd (fun a f => resetFn port f false a) (fun a f => resetFn_upd port f false a) l s

theorem resetPort_upd (port : Nat) (s : State) : (resetPort port s).upd = s.upd := by
  rw [resetPort, foldl_resetFn_upd, setPort_upd, foldl_setFn_upd, setSriov_upd]

theorem linkDown_upd (port : Nat) (s : State) : (linkDown port s).upd = s.upd := by
  unfold linkDown
  split
  · exact resetPort_upd ..
  · rfl

theorem passRoles_upd (c cause : Nat) (s : State) : (passRoles c cause s).upd = s.upd := by
  have hspokes : ∀ (n : Nat) (a : State), (giveSpokes n cause a).upd = a.upd := fun n a => machineEvent_upd ..
  have hcool : ∀ (n : Nat) (a : State), (giveCool n cause a).upd = a.upd := fun n a => machineEvent_upd ..
  unfold passRoles
  dsimp only
  split <;> split <;> simp only [hspokes, hcool]

theorem foldl_capLatch_upd (u : State) (l : List Nat) (s : State) :
    (l.foldl (fun a w => a.setPwrMod w { a.pwrMod w with capLatch := some (u.capEff w) }) s).upd = s.upd :=
  foldl_keeps State.upd (fun a w => a.setPwrMod w { a.pwrMod w with capLatch := some (u.capEff w) }) (fun _ _ => rfl) l s

theorem pauseWarden_upd (u : Nat) (s : State) : (pauseWarden u s).upd = s.upd := by
  unfold pauseWarden
  exact foldl_capLatch_upd s _ s

/-- What a restart does in service, and what health brings, is no part of the update's record. -/
theorem restartEffect_upd (c i : Nat) (s : State) : (restartEffect c i s).upd = s.upd := by
  unfold restartEffect
  split
  · exact passRoles_upd ..
  · exact pauseWarden_upd ..
  · exact foldl_keeps State.upd _ (fun a q => linkDown_upd ..) _ s
  · rfl
  · rfl

theorem healthEffect_upd (c i : Nat) (s : State) : (healthEffect c i s).upd = s.upd := by
  unfold healthEffect
  split
  · split
    · exact startPipe_upd ..
    · rfl
  · rfl
  · rfl

/-- The end of a component's switching writes the phase only. -/
theorem applyIfDone_upd (s : State) : ∃ p, (applyIfDone s).upd = { s.upd with phase := p } ∧ (p = s.upd.phase ∨ p = 5) := by
  unfold applyIfDone
  split
  · exact ⟨5, machineEvent_upd .., Or.inr rfl⟩
  · exact ⟨s.upd.phase, rfl, Or.inl rfl⟩

theorem applyIfDone_inst (s : State) (k : Nat) : (applyIfDone s).inst k = s.inst k := by
  obtain ⟨p, hupd, -⟩ := applyIfDone_upd s
  rw [State.inst, hupd]
  rfl

/-! ### Install (R755) -/

/-- An instance that has the parcel's image in its inactive slot, and runs what it ran. -/
def Inst.installed (h : List Byte) (run : Word) (x : Inst) : Prop :=
  x.written = true ∧ x.skipped = false ∧ x.other = some (hdrImage h) ∧ x.run = run

theorem installInst_here {i : Nat} {s : State} (h : s.instHere s.upd.comp i = true) : installInst false i s =
    s.setInst (instKey s.upd.comp i) { s.inst (instKey s.upd.comp i) with
      trial := false, switched := false, skipped := false, written := true, other := some (hdrImage s.upd.header) } := by
  simp [installInst, h]

theorem installInst_absent {i : Nat} {s : State} (h : s.instHere s.upd.comp i = false) : installInst false i s = s := by
  simp [installInst, h]

/-- One instance's install leaves the record of the update but for its instances, the parts present, and what instances run. -/
theorem installInst_keeps (i : Nat) (s : State) : ∃ x, installInst false i s = { s with upd := { s.upd with insts := x } } ∧
    ∀ k, ((installInst false i s).inst k).run = (s.inst k).run := by
  cases h : s.instHere s.upd.comp i with
  | false => exact ⟨s.upd.insts, installInst_absent h, fun k => by rw [installInst_absent h]⟩
  | true =>
    refine ⟨_, installInst_here h, fun k => ?_⟩
    rw [installInst_here h]
    by_cases hk : k = instKey s.upd.comp i
    · rw [hk, setInst_self]
    · rw [setInst_ne _ _ hk]

theorem installInst_establishes {i : Nat} {s : State} (h : s.instHere s.upd.comp i = true) :
    ((installInst false i s).inst (instKey s.upd.comp i)).installed s.upd.header (s.inst (instKey s.upd.comp i)).run := by
  rw [installInst_here h, setInst_self]
  exact ⟨rfl, rfl, rfl, rfl⟩

/-- What is installed stays so as other instances are installed. -/
theorem installInst_preserves (i k : Nat) {s : State} {run : Word} (h : (s.inst k).installed s.upd.header run) :
    ((installInst false i s).inst k).installed s.upd.header run := by
  cases hhere : s.instHere s.upd.comp i with
  | false => rwa [installInst_absent hhere]
  | true =>
    rw [installInst_here hhere]
    by_cases hk : k = instKey s.upd.comp i
    · rw [hk, setInst_self]
      exact ⟨rfl, rfl, rfl, hk ▸ h.2.2.2⟩
    · rwa [setInst_ne _ _ hk]

/-- What an install changes nothing of, as it goes through the instances of the update in `s`. -/
structure InstallFrame (s : State) (k : Nat) (a : State) : Prop where
  header : a.upd.header = s.upd.header
  comp : a.upd.comp = s.upd.comp
  here : ∀ i, a.instHere s.upd.comp i = s.instHere s.upd.comp i
  run : (a.inst k).run = (s.inst k).run

theorem InstallFrame.step {s a : State} {k : Nat} (h : InstallFrame s k a) (j : Nat) : InstallFrame s k (installInst false j a) := by
  obtain ⟨x, heq, hrun⟩ := installInst_keeps j a
  refine ⟨?_, ?_, fun i => ?_, (hrun k).trans h.run⟩
  · rw [heq]; exact h.header
  · rw [heq]; exact h.comp
  · rw [heq]; exact h.here i

/-- What a list's own item brings about under an invariant of the steps, and the others leave, holds once the list has been
gone through. -/
theorem foldl_establishes_under {α : Type} (I P : State → Prop) (f : State → α → State) (x : α)
    (hI : ∀ a y, I a → I (f a y)) (hself : ∀ a, I a → P (f a x)) (hkeep : ∀ a y, I a → P a → P (f a y))
    (l : List α) (s : State) (hs : I s) (hx : x ∈ l) : P (l.foldl f s) := by
  induction l generalizing s with
  | nil => cases hx
  | cons y l ih =>
    rcases List.mem_cons.mp hx with rfl | hx
    · exact (List.foldlRecOn l f (motive := fun a => I a ∧ P a) ⟨hI s x hs, hself s hs⟩
        (fun a ha z _ => ⟨hI a z ha.1, hkeep a z ha.1 ha.2⟩)).2
    · exact ih _ (hI s y hs) hx

/-- Every instance present of a list has the image installed once the list has been gone through. -/
theorem installInsts_installed (l : List Nat) (s : State) {i : Nat} (hi : i ∈ l) (hhere : s.instHere s.upd.comp i = true) :
    ((l.foldl (fun a j => installInst false j a) s).inst (instKey s.upd.comp i)).installed s.upd.header
      (s.inst (instKey s.upd.comp i)).run := by
  refine foldl_establishes_under (InstallFrame s (instKey s.upd.comp i))
    (fun a => (a.inst (instKey s.upd.comp i)).installed s.upd.header (s.inst (instKey s.upd.comp i)).run) _ i
    (fun a j ha => ha.step j) (fun a ha => ?_) (fun a j ha hP => ?_) l s ⟨rfl, rfl, fun _ => rfl, rfl⟩ hi
  · have h := installInst_establishes (i := i) (s := a) (by rw [ha.comp, ha.here]; exact hhere)
    rwa [ha.comp, ha.header, ha.run] at h
  · have h := installInst_preserves j (instKey s.upd.comp i) (s := a) (run := (s.inst (instKey s.upd.comp i)).run)
      (by rw [ha.header]; exact hP)
    rwa [ha.header] at h

theorem exec_installComplete (l : List Nat) (s : State) : exec (.installComplete l) s = .next (installComplete l s) := rfl

theorem installComplete_eq {s : State} (hphase : s.upd.phase = 3) (hpause : s.updPaused = false) : installComplete [] s =
    applyIfDone { (instList s.upd.comp).foldl (fun a i => installInst false i a) s with
      upd := { ((instList s.upd.comp).foldl (fun a i => installInst false i a) s).upd with phase := 4 } } := by
  rw [installComplete, if_pos ⟨hphase, hpause⟩]
  rfl

/-! ### Switching, health and trial (R756 to R758) -/

theorem beginRestart_upd (c i : Nat) (s : State) :
    (beginRestart c i s).upd = { s.upd with inst := some (instKey c i, s.win.tb) } := restartEffect_upd ..

/-- An instance back in its previous slot, its part in the update over. -/
def Inst.back (x : Inst) : Inst := { swapSlots x with trial := false, switched := false, written := false }

/-- A trial failure before it is told whether the update goes on: the instance is back, and nothing restarts. -/
def State.trialBack (s : State) (k : Nat) : State :=
  let s1 := s.setInst k (s.inst k).back
  healthEffect (k / 128) (k % 128) { s1 with upd := { s1.upd with inst := none, returned := s1.upd.returned + 1 } }

theorem trialBack_upd (s : State) (k : Nat) : (s.trialBack k).upd =
    { (s.setInst k (s.inst k).back).upd with inst := none, returned := s.upd.returned + 1 } := healthEffect_upd ..

theorem trialFail_eq (k : Nat) (s : State) : trialFail k s =
    if s.updPaused then { s.trialBack k with upd := { (s.trialBack k).upd with failDue := some k } }
    else { s.trialBack k with upd := { (s.trialBack k).upd with phase := 6, failed := some k } } := rfl

theorem trialFail_upd (k : Nat) (s : State) : ∃ p f d, (trialFail k s).upd = { (s.setInst k (s.inst k).back).upd with
      inst := none, returned := s.upd.returned + 1, phase := p, failed := f, failDue := d } ∧
    (s.updPaused = false → p = 6 ∧ f = some k) ∧ (s.updPaused = true → p = s.upd.phase ∧ d = some k) := by
  rw [trialFail_eq, trialBack_upd]
  cases s.updPaused with
  | true => exact ⟨s.upd.phase, s.upd.failed, some k, rfl, fun h => Bool.noConfusion h, fun _ => ⟨rfl, rfl⟩⟩
  | false => exact ⟨6, some k, s.upd.failDue, rfl, fun _ => ⟨rfl, rfl⟩, fun h => Bool.noConfusion h⟩

/-- After a trial failure the instance runs its previous slot, no other instance having changed. -/
theorem trialFail_inst (k : Nat) (s : State) :
    (trialFail k s).inst k = (s.inst k).back ∧ ∀ j, j ≠ k → (trialFail k s).inst j = s.inst j := by
  obtain ⟨p, f, d, hupd, -⟩ := trialFail_upd k s
  have hinst : ∀ j, (trialFail k s).inst j = (s.setInst k (s.inst k).back).inst j := fun j => by
    rw [State.inst, hupd]
    rfl
  exact ⟨(hinst k).trans (setInst_self ..), fun j hj => (hinst j).trans (setInst_ne _ _ hj)⟩

theorem trialFail_inst_none (k : Nat) (s : State) : (trialFail k s).upd.inst = none := by
  obtain ⟨p, f, d, hupd, -⟩ := trialFail_upd k s
  rw [hupd]

theorem swapSlots_fields (x : Inst) : (swapSlots x).trial = x.trial ∧ (swapSlots x).switched = x.switched := by
  unfold swapSlots
  split <;> exact ⟨rfl, rfl⟩

theorem exec_instanceSwitch (s : State) : exec .instanceSwitch s = .next (instanceSwitch s) := rfl

/-- An instance on the new image, on trial. -/
def Inst.onTrial (x : Inst) : Inst := { swapSlots x with trial := true, switched := true }

theorem instanceSwitch_eq {s : State} {i : Nat} (hinst : s.upd.inst = none) (hphase : s.upd.phase = 4)
    (hpause : s.updPaused = false) (hdue : s.upd.failDue = none) (hnext : s.nextSwitch s.toSwitch = some i) :
    instanceSwitch s =
      let s1 := beginRestart s.upd.comp i (s.setInst (instKey s.upd.comp i) (s.inst (instKey s.upd.comp i)).onTrial)
      let x := swapSlots (s.inst (instKey s.upd.comp i))
      if x.fuses.getLsbD x.keyId.toNat then trialFail (instKey s.upd.comp i) s1 else s1 := by
  rw [instanceSwitch, if_neg (not_not_intro hinst), if_pos ⟨hphase, hpause, hdue⟩, hnext]
  rfl

theorem instanceSwitch_returns {s : State} {i : Nat} (hinst : s.upd.inst = none) (hphase : s.upd.phase = 6)
    (hwhite : s.keys.white = false) (hsag : s.pwr.sag = 0) (hboot : s.boot.st = 1) (hnext : s.nextSwitch s.toReturn = some i) :
    instanceSwitch s =
      let s1 := s.setInst (instKey s.upd.comp i) (s.inst (instKey s.upd.comp i)).back
      beginRestart s.upd.comp i { s1 with upd := { s1.upd with returned := s1.upd.returned + 1 } } := by
  have h4 : ¬(s.upd.phase = 4 ∧ s.updPaused = false ∧ s.upd.failDue = none) := fun h => by
    rw [hphase] at h
    exact absurd h.1 (by decide)
  rw [instanceSwitch, if_neg (not_not_intro hinst), if_neg h4, if_pos ⟨hphase, hwhite, hsag, hboot⟩, hnext]
  rfl

theorem exec_instanceHealthy (s : State) : exec .instanceHealthy s = .next (instanceHealthy s) := rfl

theorem exec_trialBoundExpiry (s : State) : exec .trialBoundExpiry s = .next (trialExpiry s) := rfl

theorem exec_trialRestart (s : State) : exec .trialRestart s = .next (trialRestart s) := rfl

theorem applyIfDone_inst_none {s : State} (h : s.upd.inst = none) : (applyIfDone s).upd.inst = none := by
  obtain ⟨p, hupd, -⟩ := applyIfDone_upd s
  rw [hupd]
  exact h

theorem instanceHealthy_eq {s : State} {k : Nat} {tick : DWord} (hinst : s.upd.inst = some (k, tick))
    (hready : s.healthReady (k / 128) (k % 128) = true) : instanceHealthy s =
      applyIfDone (healthEffect (k / 128) (k % 128) { s with upd := { s.upd with inst := none } }) := by
  rw [instanceHealthy, hinst]
  exact if_pos hready

theorem trialExpiry_fails {s : State} {k : Nat} {tick : DWord} (hinst : s.upd.inst = some (k, tick)) (hphase : s.upd.phase = 4)
    (htrial : (s.inst k).trial = true) (hbound : tick.toNat + trialBound (k / 128) ≤ s.win.tb.toNat) :
    trialExpiry s = trialFail k s := by
  rw [trialExpiry, hinst]
  exact if_pos ⟨hphase, htrial, hbound⟩

theorem trialRestart_fails {s : State} {k : Nat} {tick : DWord} (hinst : s.upd.inst = some (k, tick)) (hphase : s.upd.phase = 4)
    (htrial : (s.inst k).trial = true) (hstage : s.boot.stage = 11) : trialRestart s = trialFail k s := by
  rw [trialRestart, hinst]
  exact if_pos ⟨hphase, htrial, hstage⟩

theorem back_fields (x : Inst) : x.back.trial = false ∧ x.back.switched = false ∧ x.back.run = (swapSlots x).run := ⟨rfl, rfl, rfl⟩

/-- What a trial failure of an instance in phase 4 brings, in a pause and out of one. -/
theorem trialFail_phase4 {k : Nat} {s : State} (hphase : s.upd.phase = 4) :
    (trialFail k s).upd.inst = none ∧ ((trialFail k s).inst k).trial = false ∧ ((trialFail k s).inst k).switched = false ∧
      ((trialFail k s).inst k).run = (swapSlots (s.inst k)).run ∧
      (s.updPaused = false → (trialFail k s).upd.phase = 6 ∧ (trialFail k s).upd.failed = some k) ∧
      (s.updPaused = true → (trialFail k s).upd.phase = 4 ∧ (trialFail k s).upd.failDue = some k) := by
  obtain ⟨p, f, d, hupd, hruns, hpaused⟩ := trialFail_upd k s
  rw [(trialFail_inst k s).1, hupd]
  exact ⟨rfl, rfl, rfl, rfl, hruns, fun h => ⟨(hpaused h).1.trans hphase, (hpaused h).2⟩⟩

/-! ### Fall-back and confirmation (R760, R761) -/

theorem exec_fallbackComplete (s : State) : exec .fallbackComplete s = .next (fallbackDone s) := rfl

theorem exec_updateResume (s : State) : exec .updateResume s = .next (updResume s) := rfl

theorem exec_updateConfirm (m : Mgmt) (s : State) : exec (.updateConfirm m) s = .next (updConfirm m s) := rfl

theorem exec_updateFallback (m : Mgmt) (s : State) : exec (.updateFallback m) s = .next (updFallback m s) := rfl

/-- An instance's part in the update is over. -/
def Inst.done (x : Inst) : Inst := { x with trial := false, switched := false, skipped := false, written := false }

/-- The part of each instance of a list in the update is over. -/
def endInsts (c : Nat) (l : List Nat) (s : State) : State :=
  l.foldl (fun a i => a.setInst (instKey c i) (a.inst (instKey c i)).done) s

theorem endInsts_upd (c : Nat) (l : List Nat) (s : State) :
    ∃ x, endInsts c l s = { s with upd := { s.upd with insts := x } } := by
  refine List.foldlRecOn l _ (motive := fun a => ∃ x : Tab Inst, a = { s with upd := { s.upd with insts := x } })
    ⟨s.upd.insts, rfl⟩ ?_
  rintro a ⟨x, rfl⟩ i -
  exact ⟨_, rfl⟩

theorem endInsts_trial (c : Nat) (l : List Nat) (s : State) {i : Nat} (hi : i ∈ l) :
    ((endInsts c l s).inst (instKey c i)).trial = false := by
  refine foldl_establishes_under (fun _ => True) (fun a => (a.inst (instKey c i)).trial = false) _ i (fun _ _ _ => trivial)
    (fun a _ => ?_) (fun a j _ ha => ?_) l s trivial hi
  · rw [setInst_self]
    rfl
  · by_cases hk : instKey c i = instKey c j
    · rw [hk, setInst_self]
      rfl
    · rwa [setInst_ne _ _ hk]

theorem endInsts_run (c : Nat) (l : List Nat) (s : State) (k : Nat) : ((endInsts c l s).inst k).run = (s.inst k).run := by
  refine foldl_keeps (fun a => (a.inst k).run) (fun a i => a.setInst (instKey c i) (a.inst (instKey c i)).done) (fun a i => ?_) l s
  by_cases hk : k = instKey c i
  · rw [hk, setInst_self]
    rfl
  · rw [setInst_ne _ _ hk]

theorem fallbackDone_upd {s : State} (hphase : s.upd.phase = 6) (hinst : s.upd.inst = none) (hnone : s.toReturn = []) :
    (fallbackDone s).upd = (updIdle (endInsts s.upd.comp (instList s.upd.comp) s)).upd := by
  rw [fallbackDone, if_pos ⟨hphase, hinst, hnone⟩]
  exact machineEvent_upd ..

theorem updIdle_inst (s : State) (k : Nat) : (updIdle s).inst k = s.inst k := by
  rw [State.inst, updIdle_upd]
  rfl

/-- What revocation fuses are no part of. -/
def State.confView (s : State) : Nat × Tab Word × (Nat → Bool) := (s.upd.phase, s.upd.conf, fun k => (s.inst k).trial)

theorem setInst_confView {s : State} {k : Nat} {x : Inst} (h : x.trial = (s.inst k).trial) :
    (s.setInst k x).confView = s.confView := by
  refine congrArg (fun f => (s.upd.phase, s.upd.conf, f)) (funext fun j => ?_)
  by_cases hj : j = k
  · rw [hj, setInst_self, h]
  · rw [setInst_ne _ _ hj]

/-- One instance's fuses are blown. -/
def blowInst (r c : Nat) (b : State) (i : Nat) : State :=
  if b.instHere c i then b.setInst (instKey c i) { b.inst (instKey c i) with
    fuses := (b.inst (instKey c i)).fuses ||| BitVec.ofNat 4 r } else b

theorem blowInst_confView (r c : Nat) (b : State) (i : Nat) : (blowInst r c b i).confView = b.confView := by
  unfold blowInst
  split
  · exact setInst_confView rfl
  · rfl

theorem foldl_blowInst_confView (r : Nat) (l : List Nat) (s : State) :
    (l.foldl (fun a c => (instList c).foldl (blowInst r c) a) s).confView = s.confView :=
  foldl_keeps State.confView (fun a c => (instList c).foldl (blowInst r c) a)
    (fun a c => foldl_keeps State.confView (blowInst r c) (blowInst_confView r c) (instList c) a) l s

theorem setFuses_confView (s : State) (f : BitVec 4) : { s with upd := { s.upd with fuses := f } }.confView = s.confView := rfl

theorem blowFuses_confView (r : Nat) (s : State) : (blowFuses r s).confView = s.confView := by
  unfold blowFuses
  generalize [1, 2, 3, 4, 5, 6, 7] = l
  exact (setFuses_confView _ _).trans (foldl_blowInst_confView r l s)

/-- The state in which a confirmation has written the component's confirmed parcel. -/
def State.confirmed (s : State) : State :=
  let h := s.upd.header
  let c := s.upd.comp
  let s1 := endInsts c (instList c) s
  { s1 with upd := { s1.upd with
    conf := tset 0x01000000 c (hdrVersion h) s1.upd.conf
    confKey := tset 0 c (hdrKey h) s1.upd.confKey
    confSet := tset (1, 1) c (hdrFwset h, hdrLayout h) s1.upd.confSet } }

/-- A confirmation writes the confirmed parcel, blows fuses, logs, and ends the update. -/
theorem confirm_eq (s : State) : ∃ r x b d, confirm s =
    updIdle (logAdd 6 1 17 x b d (if r = 0 then s.confirmed else blowFuses r s.confirmed)) := ⟨_, _, _, _, rfl⟩

theorem confirm_confView (s : State) : (confirm s).upd.phase = 0 ∧ (confirm s).upd.comp = 0 ∧
    (confirm s).upd.conf = s.confirmed.upd.conf ∧ ∀ k, ((confirm s).inst k).trial = (s.confirmed.inst k).trial := by
  obtain ⟨r, x, b, d, heq⟩ := confirm_eq s
  have hview : (if r = 0 then s.confirmed else blowFuses r s.confirmed).confView = s.confirmed.confView := by
    split
    · rfl
    · exact blowFuses_confView ..
  refine ⟨by rw [heq]; rfl, by rw [heq]; rfl, ?_, fun k => ?_⟩
  · rw [heq, updIdle_upd, logAdd_upd]
    exact congrArg (·.2.1) hview
  · rw [heq, updIdle_inst, State.inst, logAdd_upd]
    exact congrArg (·.2.2 k) hview

theorem confirmed_inst (s : State) (k : Nat) :
    s.confirmed.inst k = (endInsts s.upd.comp (instList s.upd.comp) s).inst k := rfl

theorem confirmed_conf (s : State) :
    s.confirmed.upd.conf = tset 0x01000000 s.upd.comp (hdrVersion s.upd.header) s.upd.conf := by
  obtain ⟨x, heq⟩ := endInsts_upd s.upd.comp (instList s.upd.comp) s
  rw [State.confirmed, heq]

theorem updConfirm_confirms {s : State} (m : Mgmt) (hmaj : s.majority = true) (hphase : s.upd.phase = 5) :
    updConfirm m s = answerM m 200 0 [] (confirm s) := by
  rw [updConfirm, hmaj]
  exact if_pos hphase

theorem updConfirm_refused {s : State} (m : Mgmt) (hmaj : s.majority = true) (hphase : s.upd.phase ≠ 5) :
    updConfirm m s = answerM m 409 3 [] s := by
  rw [updConfirm, hmaj]
  exact if_neg hphase

/-- The state in which a fall-back is ordered. -/
def State.fallingBack (s : State) : State :=
  { s with upd := { s.upd with phase := 6, failed := s.upd.failDue, failDue := none } }

theorem updFallback_begins {s : State} (m : Mgmt) (hmaj : s.majority = true) (hphase : s.upd.phase = 4 ∨ s.upd.phase = 5) :
    updFallback m s = answerM m 200 0 [] (logAdd 6 4 17 0 0 [mgmtNum m] s.fallingBack) := by
  rw [updFallback, hmaj]
  exact if_pos hphase

theorem updFallback_refused {s : State} (m : Mgmt) (hmaj : s.majority = true) (hphase : ¬(s.upd.phase = 4 ∨ s.upd.phase = 5)) :
    updFallback m s = answerM m 409 3 [] s := by
  rw [updFallback, hmaj]
  exact if_neg hphase

theorem updResume_falls {s : State} {k : Nat} (hpause : s.updPaused = false) (hdue : s.upd.failDue = some k) :
    updResume s = { s with upd := { s.upd with phase := 6, failed := some k, failDue := none } } := by
  rw [updResume, hpause, hdue]
  rfl

/-! ### O60 -/

theorem runs_installComplete {s : State} (hphase : s.upd.phase = 3) (hpause : s.updPaused = false) :
    Runs (.installComplete []) s (fun t => 4 ≤ t.upd.phase ∧ t.upd.phase ≤ 5 ∧
      ∀ i ∈ instList s.upd.comp, s.instHere s.upd.comp i = true →
        (t.inst (instKey s.upd.comp i)).installed s.upd.header (s.inst (instKey s.upd.comp i)).run) := by
  refine ⟨_, exec_installComplete .., ?_⟩
  rw [installComplete_eq hphase hpause]
  obtain ⟨p, hupd, hp⟩ := applyIfDone_upd { (instList s.upd.comp).foldl (fun a i => installInst false i a) s with
      upd := { ((instList s.upd.comp).foldl (fun a i => installInst false i a) s).upd with phase := 4 } }
  have h45 : 4 ≤ p ∧ p ≤ 5 := by
    rcases hp with rfl | rfl
    · exact ⟨le_refl 4, Nat.le_succ 4⟩
    · decide
  refine ⟨by rw [hupd]; exact h45.1, by rw [hupd]; exact h45.2, fun i hi hhere => ?_⟩
  rw [applyIfDone_inst]
  exact installInsts_installed _ s hi hhere

theorem runs_instanceSwitch_trial {s : State} {i : Nat} (hinst : s.upd.inst = none) (hphase : s.upd.phase = 4)
    (hpause : s.updPaused = false) (hdue : s.upd.failDue = none) (hnext : s.nextSwitch s.toSwitch = some i) :
    let k := instKey s.upd.comp i
    let x := swapSlots (s.inst k)
    (x.fuses.getLsbD x.keyId.toNat = false → Runs .instanceSwitch s (fun t =>
      t.upd.inst = some (k, s.win.tb) ∧ (t.inst k).trial = true ∧ (t.inst k).switched = true ∧
      (t.inst k).run = x.run ∧ ∀ j, j ≠ k → t.inst j = s.inst j)) ∧
    (x.fuses.getLsbD x.keyId.toNat = true → Runs .instanceSwitch s (fun t =>
      t.upd.inst = none ∧ (t.inst k).trial = false ∧ (t.inst k).switched = false ∧
      (t.upd.phase = 6 ∧ t.upd.failed = some k ∨ t.upd.failDue = some k) ∧ ∀ j, j ≠ k → t.inst j = s.inst j)) := by
  dsimp only
  set k := instKey s.upd.comp i with hk
  have hupd := beginRestart_upd s.upd.comp i (s.setInst k (s.inst k).onTrial)
  have hkeep : ∀ j, (beginRestart s.upd.comp i (s.setInst k (s.inst k).onTrial)).inst j =
      (s.setInst k (s.inst k).onTrial).inst j := fun j => by
    rw [State.inst, hupd]
    rfl
  have heq := instanceSwitch_eq hinst hphase hpause hdue hnext
  rw [← hk] at heq
  constructor
  · intro hgood
    refine ⟨_, exec_instanceSwitch s, ?_⟩
    rw [heq]
    dsimp only
    rw [hgood, if_neg Bool.false_ne_true, hkeep, setInst_self]
    refine ⟨by rw [hupd]; rfl, rfl, rfl, rfl, fun j hj => ?_⟩
    rw [hkeep, setInst_ne _ _ hj]
  · intro hbad
    refine ⟨_, exec_instanceSwitch s, ?_⟩
    rw [heq]
    dsimp only
    rw [hbad, if_pos rfl]
    obtain ⟨hself, hne⟩ := trialFail_inst k (beginRestart s.upd.comp i (s.setInst k (s.inst k).onTrial))
    obtain ⟨p, f, d, htf, hruns, hpaused⟩ := trialFail_upd k (beginRestart s.upd.comp i (s.setInst k (s.inst k).onTrial))
    refine ⟨trialFail_inst_none .., by rw [hself]; rfl, by rw [hself]; rfl, ?_, fun j hj => ?_⟩
    · rw [htf]
      cases hp : (beginRestart s.upd.comp i (s.setInst k (s.inst k).onTrial)).updPaused with
      | false => exact Or.inl (hruns hp)
      | true => exact Or.inr (hpaused hp).2
    · rw [hne j hj, hkeep, setInst_ne _ _ hj]

theorem runs_instanceSwitch_returns {s : State} {i : Nat} (hinst : s.upd.inst = none) (hphase : s.upd.phase = 6)
    (hwhite : s.keys.white = false) (hsag : s.pwr.sag = 0) (hboot : s.boot.st = 1) (hnext : s.nextSwitch s.toReturn = some i) :
    let k := instKey s.upd.comp i
    Runs .instanceSwitch s (fun t => t.upd.inst = some (k, s.win.tb) ∧ (t.inst k).trial = false ∧ (t.inst k).switched = false ∧
      t.upd.returned = s.upd.returned + 1 ∧ (t.inst k).run = (swapSlots (s.inst k)).run ∧ ∀ j, j ≠ k → t.inst j = s.inst j) := by
  dsimp only
  refine ⟨_, exec_instanceSwitch s, ?_⟩
  rw [instanceSwitch_returns hinst hphase hwhite hsag hboot hnext]
  dsimp only
  set k := instKey s.upd.comp i
  set s1 : State := { s.setInst k (s.inst k).back with
    upd := { (s.setInst k (s.inst k).back).upd with returned := (s.setInst k (s.inst k).back).upd.returned + 1 } }
  have hupd := beginRestart_upd s.upd.comp i s1
  have hkeep : ∀ j, (beginRestart s.upd.comp i s1).inst j = (s.setInst k (s.inst k).back).inst j := fun j => by
    rw [State.inst, hupd]
    rfl
  rw [hkeep, setInst_self, hupd]
  exact ⟨rfl, rfl, rfl, rfl, rfl, fun j hj => (hkeep j).trans (setInst_ne _ _ hj)⟩

theorem runs_fallbackComplete {s : State} (hinst : s.upd.inst = none) (hphase : s.upd.phase = 6) (hnone : s.toReturn = []) :
    Runs .fallbackComplete s (fun t => t.upd.phase = 0 ∧ t.upd.conf = s.upd.conf ∧
      ∀ j ∈ instList s.upd.comp, (t.inst (instKey s.upd.comp j)).trial = false ∧
        (t.inst (instKey s.upd.comp j)).run = (s.inst (instKey s.upd.comp j)).run) := by
  refine ⟨_, exec_fallbackComplete s, ?_⟩
  have hupd := fallbackDone_upd hphase hinst hnone
  have hkeep : ∀ j, (fallbackDone s).inst j = (endInsts s.upd.comp (instList s.upd.comp) s).inst j := fun j =>
    (inst_of_upd hupd j).trans (updIdle_inst ..)
  refine ⟨by rw [hupd]; rfl, ?_, fun j hj => ?_⟩
  · obtain ⟨x, heq⟩ := endInsts_upd s.upd.comp (instList s.upd.comp) s
    rw [hupd, updIdle_upd, heq]
    rfl
  · rw [hkeep]
    exact ⟨endInsts_trial _ _ s hj, endInsts_run ..⟩

/-- Settles O60: each command of install, switching, trial, confirmation and fall-back is read by its branch, and what a
restart, its health, events and log records do is no part of the update's record. -/
theorem updatesSwitchTryConfirmOrReturn : Obligations.UpdatesSwitchTryConfirmOrReturn := by
  unfold Obligations.UpdatesSwitchTryConfirmOrReturn
  refine ⟨fun s hphase hpause => runs_installComplete hphase hpause, fun s i => ?_, fun s k tick hinst => ?_,
    fun s k hpause hdue => ?_, fun s m hmaj => ?_⟩
  · intro k hinst
    exact ⟨fun hphase hpause hdue hnext => runs_instanceSwitch_trial hinst hphase hpause hdue hnext,
      fun hphase hwhite hsag hboot hnext => runs_instanceSwitch_returns hinst hphase hwhite hsag hboot hnext,
      fun hphase hnone => runs_fallbackComplete hinst hphase hnone⟩
  · intro back
    refine ⟨fun hready => ⟨_, exec_instanceHealthy s, ?_⟩, fun hphase htrial => ⟨fun hbound => ⟨_, exec_trialBoundExpiry s, ?_⟩,
      fun hstage => ⟨_, exec_trialRestart s, ?_⟩⟩⟩
    · rw [instanceHealthy_eq hinst hready]
      have hkeep := healthEffect_upd (k / 128) (k % 128) { s with upd := { s.upd with inst := none } }
      refine ⟨applyIfDone_inst_none (by rw [hkeep]), ?_⟩
      rw [applyIfDone_inst, inst_of_upd hkeep]
      exact ⟨rfl, rfl⟩
    · rw [trialExpiry_fails hinst hphase htrial hbound]
      exact trialFail_phase4 hphase
    · rw [trialRestart_fails hinst hphase htrial hstage]
      exact trialFail_phase4 hphase
  · exact ⟨_, exec_updateResume s, updResume_falls hpause hdue⟩
  · refine ⟨fun hphase => ⟨_, exec_updateConfirm m s, ?_⟩, fun hphase => ⟨_, exec_updateConfirm m s, updConfirm_refused m hmaj hphase⟩,
      fun hphase => ⟨_, exec_updateFallback m s, ?_⟩,
      fun hphase => ⟨_, exec_updateFallback m s, updFallback_refused m hmaj (by omega)⟩⟩
    · rw [updConfirm_confirms m hmaj hphase]
      have hupd := answerM_upd m 200 0 [] (confirm s)
      obtain ⟨hphase0, hcomp0, hconf, htrial⟩ := confirm_confView s
      refine ⟨by rw [hupd]; exact hphase0, by rw [hupd]; exact hcomp0, ?_, fun c hc => ?_, fun i hi => ?_⟩
      · rw [hupd, hconf, confirmed_conf, tget_tset_self]
      · rw [hupd, hconf, confirmed_conf, tget_tset_ne _ _ _ hc]
      · rw [inst_of_upd hupd, htrial, confirmed_inst]
        exact endInsts_trial _ _ s hi
    · rw [updFallback_begins m hmaj hphase]
      exact answered_trans (answered_of_told (told_of_logged (logAdd_logged ..))) (answerM_answered ..)

end Sys2Proof.Machine
end

section
/-! PROOFS. Power: caps, orders, and the shelves' limit (O46). -/

namespace Sys2Proof.Machine

open Sys2Proof

/-! ### What the rails of a module are no part of -/

/-- The machine beside its modules' service, rails, levels and what a lost module takes along. -/
def State.besideRails (s : State) : State :=
  { s.lossView.1 with
    therm := { s.therm with mods := [] }
    pwr := { s.pwr with mods := [], lowFrom := 0, lowSum := 0, dropped := 0 } }

theorem besideRails_of_lossView {s t : State} (h : t.lossView = s.lossView) : t.besideRails = s.besideRails := by
  have h1 : t.lossView.1 = s.lossView.1 := congrArg Prod.fst h
  exact (congrArg (fun v : State => { v with
    therm := { v.therm with mods := [] }, pwr := { v.pwr with mods := [], lowFrom := 0, lowSum := 0, dropped := 0 } }) h1 :)

section
variable {s t : State} (h : t.besideRails = s.besideRails)
include h

theorem besideRails_trays : t.trays = s.trays := (congrArg State.trays h :)
theorem besideRails_shelves : t.pwr.shelves = s.pwr.shelves := (congrArg (fun v => v.pwr.shelves) h :)
theorem besideRails_auto : t.pwr.auto = s.pwr.auto := (congrArg (fun v => v.pwr.auto) h :)
theorem besideRails_fuses : t.fuses = s.fuses := (congrArg State.fuses h :)
theorem besideRails_stw : t.stw.wardens = s.stw.wardens := (congrArg (fun v => v.stw.wardens) h :)
theorem besideRails_boot : t.boot = s.boot := (congrArg State.boot h :)
theorem besideRails_dies : t.therm.dies = s.therm.dies := (congrArg (fun v => v.therm.dies) h :)
theorem besideRails_ttherms : t.therm.trays = s.therm.trays := (congrArg (fun v => v.therm.trays) h :)

end

@[simp] theorem setPwrMod_besideRails (s : State) (w : Nat) (p : PwrMod) : (s.setPwrMod w p).besideRails = s.besideRails := rfl
@[simp] theorem setMtherm_besideRails (s : State) (w : Nat) (x : ModTherm) : (s.setMtherm w x).besideRails = s.besideRails := rfl

@[simp] theorem markLow_besideRails (w : Nat) (s : State) : (markLow w s).besideRails = s.besideRails := by
  unfold markLow; dsimp only; split <;> rfl

@[simp] theorem lowerMod_besideRails (w : Nat) (s : State) : (lowerMod w s).besideRails = s.besideRails := by
  unfold lowerMod
  dsimp only
  split
  · exact markLow_besideRails ..
  · rfl

@[simp] theorem startRise_besideRails (w : Nat) (s : State) : (startRise w s).besideRails = s.besideRails := by
  unfold startRise; dsimp only; split <;> rfl

@[simp] theorem loseModule_besideRails (w cause : Nat) (s : State) : (loseModule w cause s).besideRails = s.besideRails := by
  obtain ⟨u, -, -, hrest, heq⟩ := loseModule_beside w cause s
  rw [heq, lowerMod_besideRails]
  exact (congrArg (fun v : State => { v with
    therm := { v.therm with mods := [] }, pwr := { v.pwr with mods := [], lowFrom := 0, lowSum := 0, dropped := 0 } }) hrest :)

theorem machineEvent_besideRails (c n d : Nat) (p : Option (BitVec 6)) (a : DWord) (b : Word) (s : State) :
    (machineEvent c n d p a b s).besideRails = s.besideRails := besideRails_of_lossView (machineEvent_lossView ..)

/-! ### A module's orders (R582) -/

/-- What is ordered of a module, and its caps. -/
def PwrMod.orders (p : PwrMod) : BitVec 2 × BitVec 2 × Bool × Bool × BitVec 11 × BitVec 11 × Option (Nat × Nat) :=
  (p.host, p.rm, p.auto, p.safety, p.capHost, p.capRm, p.capLatch)

theorem startRise_pwrMod_ne (w : Nat) (s : State) {j : Nat} (h : j ≠ w) : (startRise w s).pwrMod j = s.pwrMod j := by
  unfold startRise
  dsimp only
  split
  · exact setPwrMod_ne s _ h
  · exact setPwrMod_ne s _ h

theorem setPwrMod_orders {s : State} {w : Nat} {p : PwrMod} (h : p.orders = (s.pwrMod w).orders) :
    ((s.setPwrMod w p).pwrMod w).orders = (s.pwrMod w).orders := by
  rw [setPwrMod_self, h]

theorem startRise_orders (w : Nat) (s : State) : ((startRise w s).pwrMod w).orders = (s.pwrMod w).orders := by
  unfold startRise
  dsimp only
  split
  · exact setPwrMod_orders rfl
  · exact setPwrMod_orders rfl

theorem lowerMod_orders (w : Nat) (s : State) : ((lowerMod w s).pwrMod w).orders = (s.pwrMod w).orders := by
  obtain ⟨ob, a, b, heq, -⟩ := lowerMod_pwrMod_self w s
  rw [heq]
  rfl

theorem loseModule_orders (w cause : Nat) (s : State) : ((loseModule w cause s).pwrMod w).orders = (s.pwrMod w).orders := by
  obtain ⟨ob, a, b, heq, -⟩ := loseModule_pwrMod_self w cause s
  rw [heq]
  rfl

/-- An order applied changes the rails of its own module, not its orders, and nothing beside rails and service. -/
theorem applyOrder_keeps (w : Nat) (s : State) : (applyOrder w s).besideRails = s.besideRails ∧
    ((applyOrder w s).pwrMod w).orders = (s.pwrMod w).orders ∧ ∀ j, j ≠ w → (applyOrder w s).pwrMod j = s.pwrMod j := by
  have hsame : s.besideRails = s.besideRails ∧ (s.pwrMod w).orders = (s.pwrMod w).orders ∧ ∀ j, j ≠ w → s.pwrMod j = s.pwrMod j :=
    ⟨rfl, rfl, fun _ _ => rfl⟩
  have hlower := And.intro (lowerMod_besideRails w s) (And.intro (lowerMod_orders w s) fun j => lowerMod_pwrMod_ne w s (j := j))
  have hobj : ∀ o : Obj, (s.setPwrMod w { s.pwrMod w with obj := o }).besideRails = s.besideRails ∧
      ((s.setPwrMod w { s.pwrMod w with obj := o }).pwrMod w).orders = (s.pwrMod w).orders ∧
      ∀ j, j ≠ w → (s.setPwrMod w { s.pwrMod w with obj := o }).pwrMod j = s.pwrMod j := fun o =>
    ⟨rfl, setPwrMod_orders rfl, fun j hj => setPwrMod_ne s _ hj⟩
  unfold applyOrder
  dsimp only
  split
  · exact hsame
  · split
    · split
      · exact hsame
      · split
        · exact hsame
        · exact ⟨startRise_besideRails w s, startRise_orders w s, fun j => startRise_pwrMod_ne w s⟩
      · exact hobj _
    · split
      · exact ⟨loseModule_besideRails w 7 s, loseModule_orders w 7 s, fun j hj => loseModule_pwrMod_ne 7 s hj⟩
      · split
        · exact hlower
        · exact hsame
      · split
        · exact hlower
        · exact hobj _

/-- A module with rails up whose order goes off under a running warden begins to fall. -/
theorem applyOrder_falls {w : Nat} {s : State} (hruns : s.wardenRuns (w / 8) = true) (hoff : s.effOn w = false)
    (hon : (s.pwrMod w).obj.st = .on) : ((applyOrder w s).pwrMod w).obj.st = .winding := by
  have heq : applyOrder w s = loseModule w 7 s := by simp [applyOrder, hruns, hoff, hon]
  obtain ⟨ob, a, b, hmod, hob⟩ := loseModule_pwrMod_self w 7 s
  rw [heq, hmod, hob, if_pos (Or.inl hon)]

theorem effOn_of_host_off {w : Nat} {s : State} (h : (s.pwrMod w).host = 2) : s.effOn w = false := by
  simp [State.effOn, State.ordersOn, h]

theorem limitEvent_told (c : Nat) (a s : State) : limitEvent c a s = told s (limitEvent c a s) := by
  unfold limitEvent
  dsimp only
  split
  · rfl
  · exact machineEvent_told ..

theorem limitEvent_besideRails (c : Nat) (a s : State) : (limitEvent c a s).besideRails = s.besideRails := by
  unfold limitEvent
  dsimp only
  split
  · rfl
  · exact machineEvent_besideRails ..

/-! ### Caps in the window (R579) -/

section
variable (s : State) (port : BitVec 4) (w : Fin 96) (p : BitVec 6) (val : Word)

theorem exec_moduleCapHostWrite : exec (.moduleCapHostWrite port w val) s = .next (regOpEff port.toNat (pwrModOff w.val + 8) val.toNat
    (fun t => t.capAfter (.module w)) (modCapHost w.val val s) s) := rfl

theorem exec_partitionCapHostWrite : exec (.partitionCapHostWrite port p val) s = .next (regOpEff port.toNat (0x104000 + 4 * p.toNat)
    val.toNat (fun t => t.capAfter (.partition p)) (partCapHost p.toNat val s) s) := rfl

theorem exec_rackCapHostWrite : exec (.rackCapHostWrite port val) s = .next (regOpEff port.toNat 0x100020 val.toNat
    (fun t => t.capAfter .rack) (rackCapHost val s) s) := rfl

theorem exec_powerOrderHost : exec (.powerOrderHost port w val) s = .next (regOpEff port.toNat (pwrModOff w.val) val.toNat
    (fun t => b2n (t.effOn w.val)) (orderHost w.val val s) s) := rfl

end

section
variable {c : Instr} {s : State} {P : State → Prop} {port off val : Nat} {eff : State → Nat} {v : Verdict}
  (h : s.takesWrites = true) (hexec : exec c s = .next (regOpEff port off val eff v s))
include h hexec

theorem runs_of_regOpEff_ok {u : State} (hv : v = .ok u) (hP : P (logAdd 1 0 0 0 0 [port, off, val, eff u] u)) : Runs c s P := by
  refine ⟨_, hexec, ?_⟩
  rw [hv, regOpEff_ok _ _ _ _ _ _ h]
  exact hP

theorem runs_of_regOpEff_error {cause : Nat} (hv : v = .error cause) (hP : P (ignoreAcc cause port 0 true off false s)) :
    Runs c s P := by
  refine ⟨_, hexec, ?_⟩
  rw [hv, regOpEff_error _ _ _ _ _ _ h]
  exact hP

end

theorem stored_of_storeItem {off : Nat} {v : Word} {s : State} (hsag : s.pwr.sag = 0) : (storeItem off v s).stored off 0 = v := by
  rw [State.stored, storeItem_store_self off v s hsag]
  rfl

theorem stored_logAdd (c k p : Nat) (a : DWord) (b : Word) (d : List Nat) (s : State) (off : Nat) (e : Word) :
    (logAdd c k p a b d s).stored off e = s.stored off e := by
  rw [State.stored, logAdd_store]
  rfl

/-- A stored item goes to the store or among the deferred items. -/
theorem storeItem_writes (off : Nat) (v : Word) (s : State) :
    ∃ st it, storeItem off v s = { s with store := st, pwr := { s.pwr with items := it } } := by
  unfold storeItem
  split
  · exact ⟨_, _, rfl⟩
  · exact ⟨s.store, _, rfl⟩

/-- A cap's write after its register has changed: the store takes it, and it is logged. -/
theorem logAdd_storeItem (off : Nat) (v : Word) (b : DWord) (a : Word) (d : List Nat) (s : State) : ∃ st it,
    logAdd 1 0 0 b a d (storeItem off v s) = logged { s with store := st, pwr := { s.pwr with items := it } }
      (logAdd 1 0 0 b a d (storeItem off v s)) ∧
    (s.pwr.sag = 0 → (logAdd 1 0 0 b a d (storeItem off v s)).stored off 0 = v) := by
  obtain ⟨st, it, heq⟩ := storeItem_writes off v s
  refine ⟨st, it, ?_, fun hsag => (stored_logAdd ..).trans (stored_of_storeItem hsag)⟩
  rw [← heq]
  exact logAdd_logged ..

section
variable {s : State} (port : BitVec 4) (w : Fin 96) (p : BitVec 6) (val : Word) (h : s.takesWrites = true)
include h

theorem runs_moduleCapHostWrite (hv : Fld val 0 11 = 0 ∨ 560 ≤ Fld val 0 11) : Runs (.moduleCapHostWrite port w val) s (fun t =>
    t.pwrMod w.val = { s.pwrMod w.val with capHost := BitVec.ofNat 11 (Fld val 0 11) } ∧
    (∀ j, j ≠ w.val → t.pwrMod j = s.pwrMod j) ∧
    (s.pwr.sag = 0 → t.stored (pwrModOff w.val + 8) 0 = w32 (Fld val 0 11)) ∧
    t = { logged s t with store := t.store, pwr := { (logged s t).pwr with mods := t.pwr.mods, items := t.pwr.items } }) := by
  refine runs_of_regOpEff_ok h (exec_moduleCapHostWrite ..) (if_pos hv) ?_
  obtain ⟨st, it, heq, hstored⟩ := logAdd_storeItem (pwrModOff w.val + 8) (w32 (Fld val 0 11)) 0 0
    [port.toNat, pwrModOff w.val + 8, val.toNat, (storeItem (pwrModOff w.val + 8) (w32 (Fld val 0 11))
      (s.setPwrMod w.val { s.pwrMod w.val with capHost := BitVec.ofNat 11 (Fld val 0 11) })).capAfter (.module w)]
    (s.setPwrMod w.val { s.pwrMod w.val with capHost := BitVec.ofNat 11 (Fld val 0 11) })
  refine ⟨?_, fun j hj => ?_, hstored, ?_⟩
  · rw [heq]
    exact setPwrMod_self ..
  · rw [heq]
    exact setPwrMod_ne s _ hj
  · rw [heq]
    rfl

theorem runs_partitionCapHostWrite (hv : Fld val 0 18 = 0 ∨ 560 ≤ Fld val 0 18) : Runs (.partitionCapHostWrite port p val) s (fun t =>
    tget 0 p.toNat t.pwr.partHost = BitVec.ofNat 18 (Fld val 0 18) ∧
    (∀ j, j ≠ p.toNat → tget 0 j t.pwr.partHost = tget 0 j s.pwr.partHost) ∧
    (s.pwr.sag = 0 → t.stored (0x104000 + 4 * p.toNat) 0 = w32 (Fld val 0 18)) ∧
    t = { logged s t with
      store := t.store, pwr := { (logged s t).pwr with partHost := t.pwr.partHost, items := t.pwr.items } }) := by
  refine runs_of_regOpEff_ok h (exec_partitionCapHostWrite ..) (if_pos hv) ?_
  obtain ⟨st, it, heq, hstored⟩ := logAdd_storeItem (0x104000 + 4 * p.toNat) (w32 (Fld val 0 18)) 0 0
    [port.toNat, 0x104000 + 4 * p.toNat, val.toNat, (storeItem (0x104000 + 4 * p.toNat) (w32 (Fld val 0 18)) { s with
      pwr := { s.pwr with partHost := tset 0 p.toNat (BitVec.ofNat 18 (Fld val 0 18)) s.pwr.partHost } }).capAfter (.partition p)]
    { s with pwr := { s.pwr with partHost := tset 0 p.toNat (BitVec.ofNat 18 (Fld val 0 18)) s.pwr.partHost } }
  refine ⟨?_, fun j hj => ?_, hstored, ?_⟩
  · rw [heq]
    exact tget_tset_self ..
  · rw [heq]
    exact tget_tset_ne _ _ _ hj
  · rw [heq]
    rfl

theorem runs_rackCapHostWrite (hv : Fld val 0 18 = 0 ∨ 65510 ≤ Fld val 0 18) : Runs (.rackCapHostWrite port val) s (fun t =>
    (s.pwr.sag = 0 → t.stored 0x100020 0 = w32 (Fld val 0 18)) ∧
    t = { logged s t with
      store := t.store, pwr := { (logged s t).pwr with rackHost := BitVec.ofNat 18 (Fld val 0 18), items := t.pwr.items } }) := by
  refine runs_of_regOpEff_ok h (exec_rackCapHostWrite ..) (if_pos hv) ?_
  obtain ⟨st, it, heq, hstored⟩ := logAdd_storeItem 0x100020 (w32 (Fld val 0 18)) 0 0
    [port.toNat, 0x100020, val.toNat, (storeItem 0x100020 (w32 (Fld val 0 18)) { s with
      pwr := { s.pwr with rackHost := BitVec.ofNat 18 (Fld val 0 18) } }).capAfter .rack]
    { s with pwr := { s.pwr with rackHost := BitVec.ofNat 18 (Fld val 0 18) } }
  refine ⟨hstored, ?_⟩
  rw [heq]
  rfl

/-- A host's order is held, and a module that it turns off begins to fall. -/
theorem runs_powerOrderHost (hv : Fld val 0 2 ≠ 3) : Runs (.powerOrderHost port w val) s (fun t =>
    (t.pwrMod w.val).host = BitVec.ofNat 2 (Fld val 0 2) ∧ (t.pwrMod w.val).rm = (s.pwrMod w.val).rm ∧
    (Fld val 0 2 = 2 → (s.pwrMod w.val).obj.st = .on → s.wardenRuns (w.val / 8) = true →
      (t.pwrMod w.val).obj.st = .winding) ∧
    ∀ j, j ≠ w.val → t.pwrMod j = s.pwrMod j) := by
  refine runs_of_regOpEff_ok h (exec_powerOrderHost ..) (if_neg hv) ?_
  have hlog : ∀ d j, (logAdd 1 0 0 0 0 d (applyOrder w.val
      (s.setPwrMod w.val { s.pwrMod w.val with host := BitVec.ofNat 2 (Fld val 0 2) }))).pwrMod j =
      (applyOrder w.val (s.setPwrMod w.val { s.pwrMod w.val with host := BitVec.ofNat 2 (Fld val 0 2) })).pwrMod j := fun d j => by
    rw [logAdd_logged]
    rfl
  obtain ⟨-, horders, hne⟩ := applyOrder_keeps w.val
    (s.setPwrMod w.val { s.pwrMod w.val with host := BitVec.ofNat 2 (Fld val 0 2) })
  rw [setPwrMod_self] at horders
  refine ⟨?_, ?_, fun h2 hon hruns => ?_, fun j hj => ?_⟩
  · rw [hlog]
    exact congrArg (·.1) horders
  · rw [hlog]
    exact congrArg (·.2.1) horders
  · rw [hlog]
    refine applyOrder_falls hruns (effOn_of_host_off ?_) ?_
    · rw [setPwrMod_self, h2]
      rfl
    · rw [setPwrMod_self]
      exact hon
  · rw [hlog, hne j hj, setPwrMod_ne _ _ hj]

end

/-! ### The rack manager (R579, R582, R584) -/

theorem exec_redfishPowerLimit (n v : Nat) (l : CapLevel) (s : State) :
    exec (.redfishPowerLimit n l v) s = .next (redfishLimit n l v s) := rfl

theorem exec_powerOrderRm (n : Nat) (w : Fin 96) (v : BitVec 2) (s : State) :
    exec (.powerOrderRm n w v) s = .next (orderRm n w.val v.toNat s) := rfl

theorem rfAnswer_out (n c : Nat) (l : List Nat) (s : State) : (rfAnswer n c l s).out.getLast? = some (.answer n c l) := by
  simp [rfAnswer, emit]

theorem rfAnswer_pwr (n c : Nat) (l : List Nat) (s : State) : (rfAnswer n c l s).pwr.mods = s.pwr.mods ∧
    (rfAnswer n c l s).pwr.partRm = s.pwr.partRm ∧ (rfAnswer n c l s).pwr.rackRm = s.pwr.rackRm := by
  rw [rfAnswer_answered]
  exact ⟨rfl, rfl, rfl⟩

theorem storeItem_caps (off : Nat) (v : Word) (s : State) : (storeItem off v s).pwr.mods = s.pwr.mods ∧
    (storeItem off v s).pwr.partRm = s.pwr.partRm ∧ (storeItem off v s).pwr.rackRm = s.pwr.rackRm := by
  obtain ⟨st, it, heq⟩ := storeItem_writes off v s
  rw [heq]
  exact ⟨rfl, rfl, rfl⟩

/-- A rack manager's cap is held at its level, and no other level's changes. -/
def CapHeld (l : CapLevel) (v : Nat) (s t : State) : Prop :=
  match l with
  | .module w => t.pwrMod w.val = { s.pwrMod w.val with capRm := BitVec.ofNat 11 v } ∧ t.pwr.rackRm = s.pwr.rackRm
  | .partition p => tget 0 p.toNat t.pwr.partRm = BitVec.ofNat 18 v ∧ t.pwr.mods = s.pwr.mods
  | .rack => t.pwr.rackRm = BitVec.ofNat 18 v ∧ t.pwr.mods = s.pwr.mods ∧ t.pwr.partRm = s.pwr.partRm

theorem setCapRm_held (l : CapLevel) (v : Nat) (s : State) : CapHeld l v s (setCapRm l v s) := by
  unfold setCapRm
  cases l with
  | module w =>
    obtain ⟨hmods, -, hrack⟩ := storeItem_caps (capOff (.module w)) (w32 v)
      (s.setPwrMod w { s.pwrMod w with capRm := BitVec.ofNat 11 v })
    refine ⟨?_, hrack⟩
    rw [State.pwrMod, hmods]
    exact setPwrMod_self ..
  | partition p =>
    obtain ⟨hmods, hpart, -⟩ := storeItem_caps (capOff (.partition p)) (w32 v)
      { s with pwr := { s.pwr with partRm := tset 0 p.toNat (BitVec.ofNat 18 v) s.pwr.partRm } }
    refine ⟨?_, hmods⟩
    rw [hpart]
    exact tget_tset_self ..
  | rack =>
    obtain ⟨hmods, hpart, hrack⟩ := storeItem_caps (capOff .rack) (w32 v)
      { s with pwr := { s.pwr with rackRm := BitVec.ofNat 18 v } }
    exact ⟨hrack, hmods, hpart⟩

/-- What a log record, an event and an answer leave of the caps and orders. -/
theorem answered_caps {s t : State} (h : t = answered s t) :
    t.pwr.mods = s.pwr.mods ∧ t.pwr.partRm = s.pwr.partRm ∧ t.pwr.rackRm = s.pwr.rackRm := by
  rw [h]
  exact ⟨rfl, rfl, rfl⟩

theorem answered_pwrMod {s t : State} (h : t = answered s t) (j : Nat) : t.pwrMod j = s.pwrMod j := by
  rw [State.pwrMod, (answered_caps h).1]
  rfl

theorem redfishLimit_takes {n v : Nat} {l : CapLevel} {s : State} (hmaj : s.majority = true) (hlegal : capLegal l v = true) :
    ∃ u, redfishLimit n l v s = rfAnswer n 200 [v] u ∧ u = answered (setCapRm l v s) u := by
  refine ⟨limitEvent 1 s (logAdd 1 0 0 0 0 [n, capOff l, v, (setCapRm l v s).capAfter l] (setCapRm l v s)), ?_,
    answered_of_told (told_trans (told_of_logged (logAdd_logged ..)) (limitEvent_told 1 s _))⟩
  simp only [redfishLimit, hmaj, hlegal]
  rfl

theorem redfishLimit_refuses {n v : Nat} {l : CapLevel} {s : State} (hmaj : s.majority = true) (hlegal : capLegal l v = false) :
    redfishLimit n l v s = rfAnswer n 400 [] s := by
  simp only [redfishLimit, hmaj, hlegal]
  rfl

theorem runs_redfishPowerLimit {s : State} (n v : Nat) (l : CapLevel) (hmaj : s.majority = true) (hlegal : capLegal l v = true) :
    Runs (.redfishPowerLimit n l v) s (fun t => t.out.getLast? = some (.answer n 200 [v]) ∧ CapHeld l v s t) := by
  obtain ⟨u, heq, hu⟩ := redfishLimit_takes (n := n) hmaj hlegal
  refine ⟨_, exec_redfishPowerLimit .., ?_⟩
  rw [heq]
  refine ⟨rfAnswer_out .., ?_⟩
  obtain ⟨hmods, hpart, hrack⟩ := answered_caps (answered_trans hu (rfAnswer_answered n 200 [v] u))
  have hcaps := setCapRm_held l v s
  cases l with
  | module w =>
    refine ⟨?_, hrack.trans hcaps.2⟩
    rw [State.pwrMod, hmods]
    exact hcaps.1
  | partition p => exact ⟨by rw [hpart]; exact hcaps.1, hmods.trans hcaps.2⟩
  | rack => exact ⟨by rw [hrack]; exact hcaps.1, hmods.trans hcaps.2.1, hpart.trans hcaps.2.2⟩

theorem orderRm_takes {n w v : Nat} {s : State} (hmaj : s.majority = true) (hv : v ≤ 2) :
    ∃ u, orderRm n w v s = rfAnswer n 200 [v] (applyOrder w u) ∧
      u = told (s.setPwrMod w { s.pwrMod w with rm := BitVec.ofNat 2 v }) u := by
  refine ⟨limitEvent 1 s (logAdd 1 0 (w / 8 + w % 8 * 32) 0 0 [n, pwrModOff w, v,
    b2n ((s.setPwrMod w { s.pwrMod w with rm := BitVec.ofNat 2 v }).effOn w)]
    (s.setPwrMod w { s.pwrMod w with rm := BitVec.ofNat 2 v })), ?_,
    told_trans (told_of_logged (logAdd_logged ..)) (limitEvent_told 1 s _)⟩
  simp only [orderRm, hmaj, Nat.not_lt.mpr hv]
  rfl

theorem orderRm_refuses {n w : Nat} {s : State} (hmaj : s.majority = true) : orderRm n w 3 s = rfAnswer n 400 [] s := by
  simp [orderRm, hmaj]

theorem runs_powerOrderRm {s : State} (n : Nat) (w : Fin 96) (v : BitVec 2) (hmaj : s.majority = true) (hv : v ≠ 3) :
    Runs (.powerOrderRm n w v) s (fun t => t.out.getLast? = some (.answer n 200 [v.toNat]) ∧
      (t.pwrMod w.val).rm = v ∧ (t.pwrMod w.val).host = (s.pwrMod w.val).host ∧ ∀ j, j ≠ w.val → t.pwrMod j = s.pwrMod j) := by
  obtain ⟨u, heq, hu⟩ := orderRm_takes (n := n) (w := w.val) (v := v.toNat) hmaj (by bv_omega)
  have hpwr : ∀ j, u.pwrMod j = (s.setPwrMod w.val { s.pwrMod w.val with rm := BitVec.ofNat 2 v.toNat }).pwrMod j := fun j => by
    rw [hu]
    rfl
  have hanswer : ∀ j, (rfAnswer n 200 [v.toNat] (applyOrder w.val u)).pwrMod j = (applyOrder w.val u).pwrMod j := fun j =>
    answered_pwrMod (rfAnswer_answered ..) j
  obtain ⟨-, horders, hne⟩ := applyOrder_keeps w.val u
  rw [hpwr, setPwrMod_self] at horders
  refine ⟨_, exec_powerOrderRm .., ?_⟩
  rw [heq]
  beta_reduce
  rw [hanswer]
  refine ⟨rfAnswer_out .., ?_, congrArg (·.1) horders, fun j hj => ?_⟩
  · have hrm : ((applyOrder w.val u).pwrMod w.val).rm = BitVec.ofNat 2 v.toNat := congrArg (·.2.1) horders
    rw [hrm, BitVec.ofNat_toNat, BitVec.setWidth_eq]
  · rw [hanswer, hne j hj, hpwr, setPwrMod_ne _ _ hj]

/-! ### Shelves (R570, R581) -/

theorem exec_shelfReport (n : BitVec 2) (good : BitVec 3) (present : Bool) (out : BitVec 16) (s : State) :
    exec (.shelfReport n good present out) s = .next (shelfReport n.toNat good.toNat out.toNat present s) := rfl

theorem setAuto_besideRails (on : Bool) (w : Nat) (s : State) : (setAuto on w s).besideRails = s.besideRails :=
  (applyOrder_keeps w _).1

theorem autoOrders_besideRails (s : State) : (autoOrders s).besideRails = s.besideRails := by
  have hfold : ∀ (on : Bool) (l : List Nat) (a : State), (l.foldl (fun a w => setAuto on w a) a).besideRails = a.besideRails :=
    fun on l a => foldl_keeps State.besideRails (fun a w => setAuto on w a) (fun a w => setAuto_besideRails on w a) l a
  unfold autoOrders
  dsimp only
  split
  · exact hfold ..
  · split
    · exact hfold ..
    · exact hfold ..

/-- A shelf's report as held, with the automatic limit that the capacity calls for. -/
def State.shelved (s : State) (n : Nat) (x : Shelf) : State :=
  { s.setShelf n x with pwr := { (s.setShelf n x).pwr with auto := (s.setShelf n x).autoLimit } }

theorem shelfReport_besideRails (n good out : Nat) (present : Bool) (s : State) :
    (shelfReport n good out present s).besideRails = (s.shelved n { s.shelf n with
      good := BitVec.ofNat 3 (if present then min good 6 else 0), present := present, out := BitVec.ofNat 16 out }).besideRails := by
  unfold shelfReport
  dsimp only
  rw [limitEvent_besideRails, autoOrders_besideRails, limitEvent_besideRails, apply_ite State.besideRails,
    machineEvent_besideRails, ite_self]
  rfl

theorem runs_shelfReport (s : State) (n : BitVec 2) (good : BitVec 3) (present : Bool) (out : BitVec 16) :
    Runs (.shelfReport n good present out) s (fun t =>
      t.shelf n.toNat = { s.shelf n.toNat with
        good := BitVec.ofNat 3 (if present then min good.toNat 6 else 0), present := present, out := out } ∧
      (∀ k, k ≠ n.toNat → t.shelf k = s.shelf k) ∧
      t.pwr.auto = (if t.capacity * 95 < t.machDraw * 100 then t.capacity * 95 / 100 else 0)) := by
  refine ⟨_, exec_shelfReport .., ?_⟩
  have h := shelfReport_besideRails n.toNat good.toNat out.toNat present s
  rw [BitVec.ofNat_toNat, BitVec.setWidth_eq] at h
  have hshelf := fun k : Nat => congrArg (tget ({} : Shelf) k) (besideRails_shelves h)
  refine ⟨(hshelf n.toNat).trans (tget_tset_self ..), fun k hk => (hshelf k).trans (tget_tset_ne _ _ _ hk), ?_⟩
  rw [besideRails_auto h, State.capacity, State.machDraw, besideRails_fuses h]
  simp only [State.shelf, besideRails_shelves h]
  rfl

/-- Settles O46: a cap is judged by its range, held and stored; an order is held and applied to its own module's rails; a shelf's
report sets the automatic limit, and what the automatic orders do is no part of the shelves. -/
theorem capsOrdersAndShelves : Obligations.CapsOrdersAndShelves := by
  unfold Obligations.CapsOrdersAndShelves
  refine ⟨fun s port w p val h => ?_, fun s n v l hmaj => ⟨fun hlegal => ?_, fun hlegal => ⟨_, exec_redfishPowerLimit .., redfishLimit_refuses hmaj hlegal⟩⟩,
    fun s n w v hmaj => ⟨fun hv => runs_powerOrderRm n w v hmaj hv, fun hv => ⟨_, exec_powerOrderRm .., ?_⟩⟩,
    fun s n good present out => runs_shelfReport s n good present out⟩
  · intro v u
    refine ⟨fun hv => runs_moduleCapHostWrite port w val h hv, fun h0 hlow => ?_,
      fun hv => runs_partitionCapHostWrite port p val h hv, fun h0 hlow => ?_,
      fun hv => runs_rackCapHostWrite port val h hv, fun h0 hlow => ?_,
      fun hv => runs_powerOrderHost port w val h hv, fun hv => ?_⟩
    · exact runs_of_regOpEff_error h (exec_moduleCapHostWrite ..) (if_neg (by omega)) rfl
    · exact runs_of_regOpEff_error h (exec_partitionCapHostWrite ..) (if_neg (by omega)) rfl
    · exact runs_of_regOpEff_error h (exec_rackCapHostWrite ..) (if_neg (by omega)) rfl
    · exact runs_of_regOpEff_error h (exec_powerOrderHost ..) (if_pos hv) rfl
  · obtain ⟨t, ht, hout, hheld⟩ := runs_redfishPowerLimit n v l hmaj hlegal
    refine ⟨t, ht, hout, ?_⟩
    cases l <;> exact hheld
  · rw [hv]
    exact orderRm_refuses hmaj

end Sys2Proof.Machine
end

section
/-! PROOFS. Power: rails, setpoints and reports (O47). -/

namespace Sys2Proof.Machine

open Sys2Proof

/-! ### What goes on once a module's supply is back (R62, R818) -/

theorem askReads_restView (k : Nat) (s : State) : (askReads k s).restView = s.restView := by
  unfold askReads
  dsimp only
  split
  · refine foldl_keeps State.restView _ (fun a x => ?_) _ s
    split
    · exact inject_restView ..
    · exact chanRead_restView ..
  · rfl

theorem askAll_restView (s : State) : (askAll s).restView = s.restView :=
  foldl_keeps State.restView (fun a k => askReads k a) (fun a k => askReads_restView k a) _ s

theorem startScan_restView (p : Nat) (s : State) : (startScan p s).restView = s.restView := by
  rw [startScan_frame]
  rfl

theorem resumeScan_restView (p : Nat) (s : State) : (resumeScan p s).restView = s.restView := by
  unfold resumeScan
  dsimp only
  split
  · exact (startScan_restView ..).trans rfl
  · rfl

theorem runFences_none {w : Nat} {s : State} (h : (s.mod w).fenceDue = []) :
    runFences w s = s.setMod w { s.mod w with fenceDue := [] } := by
  rw [runFences, h]
  rfl

/-- With no fence due, what goes on leaves every module's power. -/
theorem resumeMod_pwrMod {w : Nat} {s : State} (h : (s.mod w).fenceDue = []) (j : Nat) : (resumeMod w s).pwrMod j = s.pwrMod j := by
  have hview : (resumeMod w s).restView = (runFences w s).restView := by
    refine (askAll_restView _).trans ?_
    exact foldl_keeps State.restView (fun a p => resumeScan p a) (fun a p => resumeScan_restView p a) _ _
  have hmods : (resumeMod w s).pwr.mods = (runFences w s).pwr.mods := congrArg (·.2.pwr.mods) hview
  rw [State.pwrMod, hmods, runFences_none h]
  rfl

/-! ### Rails (R572 to R575) -/

section
variable (w : Fin 96) (s : State)

theorem exec_railSequenceUpDone : exec (.railSequenceUpDone w) s = .next (railsUp w.val s) := rfl

theorem exec_railSequenceDownDone : exec (.railSequenceDownDone w) s = .next (downDone w.val s) := rfl

theorem exec_railRampMiss : exec (.railRampMiss w) s =
    .next (if (s.pwrMod w.val).rising then failTests w.val 3 2 s else s) := rfl

theorem exec_railFault (rail : BitVec 3) (mv : BitVec 16) : exec (.railFault w rail mv) s =
    .next (if rail.toNat ≤ 4 then railFault w.val rail.toNat mv.toNat s else s) := rfl

theorem exec_coreSupplyStep : exec (.coreSupplyStep w) s = .next (coreStep w.val s) := rfl

theorem exec_capControllerWindow (power : BitVec 12) : exec (.capControllerWindow w power) s =
    .next (capWindow w.val power.toNat s) := rfl

end

/-- A write of a module's power changes no other's, and in the machine only the modules' power and the time below 0.70 V. -/
def OnePower (w : Nat) (s t : State) : Prop :=
  (∀ j, j ≠ w → t.pwrMod j = s.pwrMod j) ∧
    t = { s with pwr := { s.pwr with mods := t.pwr.mods, lowFrom := t.pwr.lowFrom, lowSum := t.pwr.lowSum } }

theorem setPwrMod_onePower (w : Nat) (p : PwrMod) (s : State) : OnePower w s (s.setPwrMod w p) :=
  ⟨fun _ h => setPwrMod_ne s p h, rfl⟩

theorem markLow_onePower (w : Nat) (s : State) : OnePower w s (markLow w s) := by
  refine ⟨fun _ h => markLow_pwrMod_ne w s h, ?_⟩
  unfold markLow
  dsimp only
  split <;> rfl

theorem OnePower.trans {w : Nat} {s t u : State} (h : OnePower w s t) (g : OnePower w t u) : OnePower w s u := by
  refine ⟨fun j hj => (g.1 j hj).trans (h.1 j hj), ?_⟩
  rw [g.2, h.2]

/-- A write of a module's power followed for the time below 0.70 V. -/
theorem markLow_setPwrMod (w : Nat) (p : PwrMod) (s : State) :
    (∃ a b, (markLow w (s.setPwrMod w p)).pwrMod w = { p with lowFrom := a, lowSum := b }) ∧
    OnePower w s (markLow w (s.setPwrMod w p)) := by
  refine ⟨?_, (setPwrMod_onePower w p s).trans (markLow_onePower w _)⟩
  obtain ⟨a, b, h⟩ := markLow_pwrMod_self w (s.setPwrMod w p)
  rw [setPwrMod_self] at h
  exact ⟨a, b, h⟩

/-- A module's rails up below 0.70 V: the time begins. -/
theorem markLow_begins {w : Nat} {s : State} (hon : (s.pwrMod w).obj.st = .on) (hlow : (s.pwrMod w).vset < 700)
    (hfrom : (s.pwrMod w).lowFrom = 0) : ((markLow w s).pwrMod w).lowFrom = s.win.tb.toNat + 1 := by
  have hpaused : s.paused w = true := decide_eq_true hlow
  unfold markLow
  dsimp only
  rw [hon, hpaused, hfrom]
  exact congrArg PwrMod.lowFrom (setPwrMod_self s w _)

/-- A sequence up that ends: the rails are up, and the time below 0.70 V begins where the core supply is below it. -/
theorem railsUp_up {w : Nat} {s : State} (h : (s.pwrMod w).rising = true) :
    (railsUp w s).pwrMod w = { s.pwrMod w with
      obj := { st := .on }, rising := false, testing := s.boot.st == 1, testFrom := s.win.tb.toNat + 1
      lowFrom := ((railsUp w s).pwrMod w).lowFrom, lowSum := ((railsUp w s).pwrMod w).lowSum } ∧
    ((s.pwrMod w).vset < 700 → (s.pwrMod w).lowFrom = 0 → ((railsUp w s).pwrMod w).lowFrom = s.win.tb.toNat + 1) ∧
    OnePower w s (railsUp w s) := by
  have heq : railsUp w s = markLow w (s.setPwrMod w { s.pwrMod w with
      obj := { st := .on }, rising := false, testing := s.boot.st == 1, testFrom := s.win.tb.toNat + 1 }) := by
    rw [railsUp, h]
    rfl
  rw [heq]
  obtain ⟨⟨a, b, hmod⟩, hone⟩ := markLow_setPwrMod w { s.pwrMod w with
    obj := { st := .on }, rising := false, testing := s.boot.st == 1, testFrom := s.win.tb.toNat + 1 } s
  refine ⟨by rw [hmod], fun hlow hfrom => ?_, hone⟩
  refine markLow_begins ?_ ?_ ?_
  · rw [setPwrMod_self]
  · rw [setPwrMod_self]
    exact hlow
  · rw [setPwrMod_self]
    exact hfrom

/-- A module that its tests leave out is lowered where it was up, rising or in test. -/
theorem failTests_falls {w st c : Nat} {s : State}
    (h : (s.pwrMod w).obj.st = .on ∨ (s.pwrMod w).rising = true ∨ (s.pwrMod w).testing = true) :
    ((failTests w st c s).pwrMod w).rising = false ∧ ((failTests w st c s).pwrMod w).obj = { st := .winding } := by
  obtain ⟨ob, a, b, heq, hob⟩ := lowerMod_pwrMod_self w (s.setMod w { s.mod w with
    state := 2, stage := BitVec.ofNat 4 st, cause := BitVec.ofNat 4 c, retest := false })
  rw [failTests, heq]
  exact ⟨rfl, hob.trans (if_pos h)⟩

theorem runs_railRampMiss {w : Fin 96} {s : State} (h : (s.pwrMod w.val).rising = true) : Runs (.railRampMiss w) s (fun t =>
    (t.mod w.val).state = 2 ∧ (t.mod w.val).stage = 3 ∧ (t.mod w.val).cause = 2 ∧
    (t.pwrMod w.val).rising = false ∧ (t.pwrMod w.val).obj = { st := .winding } ∧
    ∀ j, j ≠ w.val → t.mod j = s.mod j ∧ t.pwrMod j = s.pwrMod j) := by
  refine ⟨_, exec_railRampMiss .., ?_⟩
  rw [if_pos h]
  obtain ⟨hrising, hobj⟩ := failTests_falls (st := 3) (c := 2) (Or.inr (Or.inl h))
  refine ⟨?_, ?_, ?_, hrising, hobj, fun j hj => ⟨failTests_mod_ne _ _ _ _ hj, failTests_pwrMod_ne _ _ _ _ hj⟩⟩ <;>
    rw [failTests_mod_self] <;> rfl

/-! ### The end of a sequence down (R573, R575) -/

/-- The state in which a module's scratch and columns have lost their contents. -/
def State.wiped (s : State) (w : Nat) : State := zeroScratch w (zeroColumns 0 w s)

theorem wiped_cols (s : State) (w a : Nat) :
    tget 0 a (s.wiped w).cols = if a / 2 ^ 37 = w then 0 else tget 0 a s.cols := scrubMod_cols (fun _ => 0) s w a

theorem wiped_canRise (s : State) (w : Nat) : (s.wiped w).canRise w = s.canRise w := by
  have hmod : (s.wiped w).mod w = { s.mod w with colKey := 0 } := setMod_self s w _
  rw [State.canRise, hmod]
  rfl

theorem startRise_raises {w : Nat} {s : State} (h : s.canRise w = true) : ((startRise w s).pwrMod w).rising = true ∧
    ((s.pwrMod w).obj = { st := .winding, pending := true } → ((startRise w s).pwrMod w).obj = (s.pwrMod w).obj) := by
  unfold startRise
  dsimp only
  rw [if_pos h]
  have hself : ∀ (p : PwrMod) (x : ModTherm), ((s.setPwrMod w p).setMtherm w x).pwrMod w = p := fun p x => setPwrMod_self s w p
  rw [hself]
  refine ⟨rfl, fun hobj => ?_⟩
  rw [hobj]
  rfl

theorem startRise_held {w : Nat} {s : State} (h : s.canRise w = false) : ((startRise w s).pwrMod w).obj = {} := by
  unfold startRise
  dsimp only
  rw [if_neg (by rw [h]; exact Bool.false_ne_true), setPwrMod_self]

theorem downDone_falls {w : Nat} {s : State} (hst : (s.pwrMod w).obj.st = .winding) (hfall : (s.pwrMod w).rising = false) :
    downDone w s = if (s.pwrMod w).obj.pending then startRise w (s.wiped w)
      else (s.wiped w).setPwrMod w { s.pwrMod w with obj := {} } := by
  rw [downDone, if_pos ⟨hst, hfall⟩]
  rfl

theorem runs_railSequenceDownDone {w : Fin 96} {s : State} (hst : (s.pwrMod w.val).obj.st = .winding)
    (hfall : (s.pwrMod w.val).rising = false) : Runs (.railSequenceDownDone w) s (fun t =>
      ((s.pwrMod w.val).obj.pending = false ∨ s.canRise w.val = false → (t.pwrMod w.val).obj = {}) ∧
      ((s.pwrMod w.val).obj.pending = true → s.canRise w.val = true →
        (t.pwrMod w.val).rising = true ∧ (t.pwrMod w.val).obj = (s.pwrMod w.val).obj) ∧
      (∀ a, a / 2 ^ 37 = w.val → tget 0 a t.cols = 0) ∧ (∀ a, a / 2 ^ 37 ≠ w.val → tget 0 a t.cols = tget 0 a s.cols) ∧
      ∀ j, j ≠ w.val → t.pwrMod j = s.pwrMod j) := by
  refine ⟨_, exec_railSequenceDownDone .., ?_⟩
  rw [downDone_falls hst hfall]
  have hcols : ∀ t : State, t.cols = (s.wiped w.val).cols → (∀ a, a / 2 ^ 37 = w.val → tget 0 a t.cols = 0) ∧
      ∀ a, a / 2 ^ 37 ≠ w.val → tget 0 a t.cols = tget 0 a s.cols := by
    intro t ht
    rw [ht]
    exact ⟨fun a ha => (wiped_cols ..).trans (if_pos ha), fun a ha => (wiped_cols ..).trans (if_neg ha)⟩
  cases hpend : (s.pwrMod w.val).obj.pending with
  | false =>
    rw [if_neg Bool.false_ne_true]
    obtain ⟨hzero, hkept⟩ := hcols ((s.wiped w.val).setPwrMod w.val { s.pwrMod w.val with obj := {} }) rfl
    exact ⟨fun _ => congrArg PwrMod.obj (setPwrMod_self ..), fun h => Bool.noConfusion h, hzero, hkept,
      fun j hj => setPwrMod_ne _ _ hj⟩
  | true =>
    rw [if_pos rfl]
    obtain ⟨hzero, hkept⟩ := hcols (startRise w.val (s.wiped w.val)) (startRise_cols ..)
    refine ⟨fun h => startRise_held ?_, fun _ hcan => ?_, hzero, hkept, fun j hj => startRise_pwrMod_ne _ _ hj⟩
    · rw [wiped_canRise]
      exact h.resolve_left (fun h => Bool.noConfusion h)
    · obtain ⟨hrising, hobj⟩ := startRise_raises ((wiped_canRise s w.val).trans hcan)
      refine ⟨hrising, hobj ?_⟩
      show (s.pwrMod w.val).obj = _
      rw [← hst, ← hpend]

/-! ### Rail faults (R574) -/

theorem railFault_in {w rail mv : Nat} {s : State} (h : s.railOut w rail mv = false) : railFault w rail mv s = s := by
  simp [railFault, h]

theorem railFault_out {w rail mv : Nat} {s : State} (hon : (s.pwrMod w).obj.st = .on) (haux : s.auxUp w = true)
    (hout : s.railOut w rail mv = true) : ∃ u, u.lossView = s.lossView ∧
      railFault w rail mv s = if u.modServing w then loseModule w 1 u else failTests w 15 1 u := by
  refine ⟨machineEvent 0x0402 0 (w + rail * 128) none (w64 mv) 0 s, machineEvent_lossView .., ?_⟩
  simp [railFault, State.railOn, hon, haux, hout]

theorem runs_railFault {w : Fin 96} {rail : BitVec 3} {mv : BitVec 16} {s : State} (hrail : rail.toNat ≤ 4)
    (hon : (s.pwrMod w.val).obj.st = .on) (haux : s.auxUp w.val = true) (hout : s.railOut w.val rail.toNat mv.toNat = true) :
    Runs (.railFault w rail mv) s (fun t => (t.mod w.val).state = 2 ∧ (t.mod w.val).stage = 15 ∧ (t.mod w.val).cause = 1 ∧
      (t.pwrMod w.val).obj.st = .winding ∧ ∀ j, j ≠ w.val → t.pwrMod j = s.pwrMod j) := by
  refine ⟨_, exec_railFault .., ?_⟩
  obtain ⟨u, hu, heq⟩ := railFault_out hon haux hout
  have honu : (u.pwrMod w.val).obj.st = .on := by rw [lossView_pwrMod hu]; exact hon
  rw [if_pos hrail, heq]
  split
  next hserving =>
    obtain ⟨hstate, hstage, hcause⟩ := loseModule_mod_self (cause := 1) hserving
    obtain ⟨ob, a, b, hmod, hob⟩ := loseModule_pwrMod_self w.val 1 u
    refine ⟨hstate, hstage, hcause, ?_, fun j hj => ?_⟩
    · rw [hmod, hob, if_pos (Or.inl honu)]
    · rw [loseModule_pwrMod_ne _ _ hj, lossView_pwrMod hu]
  next =>
    refine ⟨?_, ?_, ?_, ?_, fun j hj => ?_⟩
    · rw [failTests_mod_self]
    · rw [failTests_mod_self]
      rfl
    · rw [failTests_mod_self]
      rfl
    · rw [(failTests_falls (Or.inl honu)).2]
    · rw [failTests_pwrMod_ne _ _ _ _ hj, lossView_pwrMod hu]

/-! ### The core setpoint and its controller (R576, R577) -/

/-- A module's setpoint as it moves to `v`, and the time of it. -/
def PwrMod.moved (p : PwrMod) (v now : Nat) : PwrMod := { p with vset := v, vtick := now }

/-- The state in which a module's setpoint has moved to `v`. -/
def State.steppedTo (s : State) (w v : Nat) : State :=
  markLow w (s.setPwrMod w ((s.pwrMod w).moved v (s.win.tb.toNat + 1)))

theorem coreStep_moves {w : Nat} {s : State} (hon : (s.pwrMod w).obj.st = .on) (hruns : s.wardenRuns (w / 8) = true)
    (hne : (s.pwrMod w).vset ≠ s.vTarget w) (hdue : (s.pwrMod w).vtick = 0 ∨ (s.pwrMod w).vtick - 1 + 2000 ≤ s.win.tb.toNat) :
    coreStep w s =
      let s1 := s.steppedTo w (if (s.pwrMod w).vset < s.vTarget w then min (s.vTarget w) ((s.pwrMod w).vset + 10)
        else max (s.vTarget w) ((s.pwrMod w).vset - 10))
      if s.paused w && !(s1.paused w) then resumeMod w s1 else s1 := by
  rw [coreStep, if_pos ⟨hon, hruns, hne, hdue⟩]
  rfl

theorem coreStep_rests {w : Nat} {s : State} (h : (s.pwrMod w).vset = s.vTarget w) : coreStep w s = s :=
  if_neg (fun hgo => hgo.2.2.1 h)

theorem steppedTo_pwrMod (s : State) (w v : Nat) : ((s.steppedTo w v).pwrMod w = { (s.pwrMod w).moved v (s.win.tb.toNat + 1) with
    lowFrom := ((s.steppedTo w v).pwrMod w).lowFrom, lowSum := ((s.steppedTo w v).pwrMod w).lowSum }) ∧
    OnePower w s (s.steppedTo w v) := by
  obtain ⟨⟨a, b, h⟩, hone⟩ := markLow_setPwrMod w ((s.pwrMod w).moved v (s.win.tb.toNat + 1)) s
  exact ⟨h.symm ▸ h, hone⟩

theorem steppedTo_paused (s : State) (w v : Nat) : (s.steppedTo w v).paused w = decide (v < 700) := by
  rw [State.paused, (steppedTo_pwrMod s w v).1]
  rfl

/-- A step that does not raise the supply over 0.70 V moves the setpoint alone. -/
theorem coreStep_stays {w v : Nat} {s : State} (heq : coreStep w s =
    (if s.paused w && !((s.steppedTo w v).paused w) then resumeMod w (s.steppedTo w v) else s.steppedTo w v))
    (h : 700 ≤ (s.pwrMod w).vset ∨ v < 700) : coreStep w s = s.steppedTo w v := by
  rw [heq, steppedTo_paused]
  refine if_neg ?_
  have hpaused : s.paused w = decide ((s.pwrMod w).vset < 700) := rfl
  rw [hpaused]
  simp only [Bool.and_eq_true, decide_eq_true_eq, Bool.not_eq_true', decide_eq_false_iff_not]
  omega

/-- Whatever goes on after a step, with no fence due every module's power is as the step left it. -/
theorem coreStep_pwrMod {w v : Nat} {s : State} (heq : coreStep w s =
    (if s.paused w && !((s.steppedTo w v).paused w) then resumeMod w (s.steppedTo w v) else s.steppedTo w v))
    (h : (s.mod w).fenceDue = []) (j : Nat) : (coreStep w s).pwrMod j = (s.steppedTo w v).pwrMod j := by
  have hmod : (s.steppedTo w v).mod w = s.mod w := by
    rw [(steppedTo_pwrMod s w v).2.2]
    rfl
  rw [heq]
  split
  · exact resumeMod_pwrMod (by rw [hmod]; exact h) j
  · rfl

/-! ### Reports (R586, R587) -/

theorem exec_powerSpanEnd (span : BitVec 2) (trays : List (BitVec 14 × BitVec 14)) (pumps : BitVec 16) (high : BitVec 18)
    (s : State) (h : span ≠ 3) : exec (.powerSpanEnd span trays pumps high) s =
      .next (spanEnd span.toNat (trays.map (fun x => (x.1.toNat, x.2.toNat))) pumps.toNat high.toNat s) := by
  show Host.Outcome.next (if span = 3 then s else _) = _
  rw [if_neg h]

/-- The machine's own figures, and which wardens run. -/
def State.figures (s : State) : Nat × Nat × Nat × Nat × BitVec 18 :=
  (s.pwr.avg1, s.pwr.avg60, s.pwr.avg900, s.pwr.peak, s.stw.wardens)

theorem foldl_span_keeps {γ : Type} (v : State → γ) (hset : ∀ a w p, v (State.setPwrMod a w p) = v a) (k : Nat) (l : List Nat)
    (s : State) : v (l.foldl (fun a w => a.setPwrMod w ((a.pwrMod w).span k)) s) = v s :=
  foldl_keeps v (fun a w => a.setPwrMod w ((a.pwrMod w).span k)) (fun _ _ => hset ..) l s

/-- A tray's figures at the end of a span. -/
def Tray.spanned (k mean high : Nat) (y : Tray) : Tray :=
  match k with
  | 0 => { y with avg1 := mean, peak := max y.peak high }
  | 1 => { y with avg60 := mean }
  | _ => { y with avg900 := mean }

/-- The state in which a tray's figures are held and its modules' sums have begun anew. -/
def State.spanned (s : State) (k t mean high : Nat) : State :=
  (trayMods t).foldl (fun a w => a.setPwrMod w ((a.pwrMod w).span k)) (s.setTray t ((s.tray t).spanned k mean high))

theorem traySpan_runs (k mean high : Nat) {t : Nat} {s : State} (h : s.wardenRuns t = true) :
    ∃ x, traySpan k t mean high s = (s.spanned k t mean high).setTtherm t x ∨
      traySpan k t mean high s = s.spanned k t mean high := by
  rw [traySpan, if_pos h]
  exact ⟨_, ite_eq_or_eq _ _ _⟩

theorem traySpan_waits (k mean high : Nat) {t : Nat} {s : State} (h : s.wardenRuns t = false) : traySpan k t mean high s = s := by
  rw [traySpan, h]
  rfl

/-- A tray's figures at the end of a span leave what neither trays, modules' power nor valves are part of. -/
theorem traySpan_keeps {γ : Type} (v : State → γ) (hpwr : ∀ a w p, v (State.setPwrMod a w p) = v a)
    (htherm : ∀ a t x, v (State.setTtherm a t x) = v a) (k t mean high : Nat) (s : State)
    (htray : ∀ y, v (s.setTray t y) = v s) : v (traySpan k t mean high s) = v s := by
  have hspan : v (s.spanned k t mean high) = v s := (foldl_span_keeps v hpwr k _ _).trans (htray _)
  cases h : s.wardenRuns t with
  | false => rw [traySpan_waits k mean high h]
  | true =>
    obtain ⟨x, heq | heq⟩ := traySpan_runs k mean high h
    · rw [heq, htherm, hspan]
    · rw [heq, hspan]

theorem traySpan_tray_self (k mean high : Nat) {t : Nat} {s : State} (h : s.wardenRuns t = true) :
    (traySpan k t mean high s).tray t = (s.tray t).spanned k mean high := by
  have hspan : (s.spanned k t mean high).tray t = (s.tray t).spanned k mean high :=
    (foldl_span_keeps (fun a => a.tray t) (fun _ _ _ => rfl) k _ _).trans (setTray_self ..)
  obtain ⟨x, heq | heq⟩ := traySpan_runs k mean high h
  · rw [heq]
    exact hspan
  · rw [heq, hspan]

/-- The trays' figures of a span, from tray `n` on. -/
def spanTrays (k : Nat) (l : List (Nat × Nat)) (n : Nat) (s : State) : State :=
  (l.zipIdx n).foldl (fun a x => traySpan k x.2 x.1.1 x.1.2 a) s

theorem spanTrays_cons (k : Nat) (x : Nat × Nat) (l : List (Nat × Nat)) (n : Nat) (s : State) :
    spanTrays k (x :: l) n s = spanTrays k l (n + 1) (traySpan k n x.1 x.2 s) := rfl

theorem spanTrays_figures (k : Nat) (l : List (Nat × Nat)) (n : Nat) (s : State) : (spanTrays k l n s).figures = s.figures :=
  foldl_keeps State.figures (fun (a : State) (x : (Nat × Nat) × Nat) => traySpan k x.2 x.1.1 x.1.2 a)
    (fun a _ => traySpan_keeps State.figures (fun _ _ _ => rfl) (fun _ _ _ => rfl) k _ _ _ a fun _ => rfl) _ s

theorem spanTrays_tray_below (k : Nat) (l : List (Nat × Nat)) (n : Nat) (s : State) {u : Nat} (h : u < n) :
    (spanTrays k l n s).tray u = s.tray u := by
  induction l generalizing n s with
  | nil => rfl
  | cons x l ih =>
    rw [spanTrays_cons, ih (n + 1) _ (by omega)]
    exact traySpan_keeps (fun a => a.tray u) (fun _ _ _ => rfl) (fun _ _ _ => rfl) k n x.1 x.2 s
      fun y => setTray_ne s y (by omega)

/-- A tray of a list whose warden runs holds its figures. -/
theorem spanTrays_tray (k : Nat) (l : List (Nat × Nat)) (n i : Nat) (s : State) (hi : i < l.length)
    (hruns : s.wardenRuns (n + i) = true) :
    (spanTrays k l n s).tray (n + i) = (s.tray (n + i)).spanned k l[i].1 l[i].2 := by
  induction l generalizing n i s with
  | nil => exact absurd hi (Nat.not_lt_zero i)
  | cons x l ih =>
    rw [spanTrays_cons]
    cases i with
    | zero =>
      rw [spanTrays_tray_below k l (n + 1) _ (by omega), Nat.add_zero]
      exact traySpan_tray_self k x.1 x.2 hruns
    | succ i =>
      have hwardens : (traySpan k n x.1 x.2 s).wardenRuns (n + 1 + i) = true := by
        rw [State.wardenRuns, traySpan_keeps (fun a => a.stw) (fun _ _ _ => rfl) (fun _ _ _ => rfl) k n x.1 x.2 s fun _ => rfl,
          Nat.add_right_comm]
        exact hruns
      have hkept : (traySpan k n x.1 x.2 s).tray (n + 1 + i) = s.tray (n + 1 + i) :=
        traySpan_keeps (fun a => a.tray (n + 1 + i)) (fun _ _ _ => rfl) (fun _ _ _ => rfl) k n x.1 x.2 s
          fun y => setTray_ne s y (by omega)
      have h := ih (n + 1) i (traySpan k n x.1 x.2 s) (Nat.lt_of_succ_lt_succ hi) hwardens
      rw [hkept] at h
      rw [show n + (i + 1) = n + 1 + i from (Nat.add_right_comm n 1 i).symm ▸ rfl, h]
      rfl

/-- The mean of a span over all trays and the pumps. -/
def spanMean (l : List (Nat × Nat)) (pumps : Nat) : Nat := (l.map (·.1)).sum + pumps

section
variable (l : List (Nat × Nat)) (pumps high : Nat) (s : State) (hlen : l.length = 18)
include hlen

theorem spanEnd_second : spanEnd 0 l pumps high s = { spanTrays 0 l 0 s with
    pwr := { (spanTrays 0 l 0 s).pwr with avg1 := spanMean l pumps, peak := max (spanTrays 0 l 0 s).pwr.peak high } } := by
  unfold spanEnd
  rw [List.take_of_length_le (Nat.le_of_eq hlen)]
  rfl

theorem spanEnd_minute : spanEnd 1 l pumps high s = { spanTrays 1 l 0 s with
    pwr := { (spanTrays 1 l 0 s).pwr with avg60 := spanMean l pumps } } := by
  unfold spanEnd
  rw [List.take_of_length_le (Nat.le_of_eq hlen)]
  rfl

theorem spanEnd_quarter : spanEnd 2 l pumps high s = { spanTrays 2 l 0 s with
    pwr := { (spanTrays 2 l 0 s).pwr with avg900 := spanMean l pumps } } := by
  unfold spanEnd
  rw [List.take_of_length_le (Nat.le_of_eq hlen)]
  rfl

end

theorem runs_powerSpanEnd (s : State) (trays : List (BitVec 14 × BitVec 14)) (pumps : BitVec 16) (high : BitVec 18)
    (hlen : trays.length = 18) :
    Runs (.powerSpanEnd 0 trays pumps high) s (fun t =>
      t.pwr.avg1 = (trays.map (fun x => x.1.toNat)).sum + pumps.toNat ∧ t.pwr.peak = max s.pwr.peak high.toNat ∧
      t.pwr.avg60 = s.pwr.avg60 ∧
      ∀ u, u < 18 → s.wardenRuns u = true → (t.tray u).avg1 = (trays.getD u (0, 0)).1.toNat) ∧
    Runs (.powerSpanEnd 1 trays pumps high) s (fun t =>
      t.pwr.avg60 = (trays.map (fun x => x.1.toNat)).sum + pumps.toNat ∧ t.pwr.avg1 = s.pwr.avg1) ∧
    Runs (.powerSpanEnd 2 trays pumps high) s (fun t =>
      t.pwr.avg900 = (trays.map (fun x => x.1.toNat)).sum + pumps.toNat ∧ t.pwr.avg60 = s.pwr.avg60) := by
  set l : List (Nat × Nat) := trays.map (fun x => (x.1.toNat, x.2.toNat)) with hl
  have hlen' : l.length = 18 := by rw [hl, List.length_map, hlen]
  have hmean : spanMean l pumps.toNat = (trays.map (fun x => x.1.toNat)).sum + pumps.toNat := by
    rw [spanMean, hl, List.map_map]
    rfl
  have hfig : ∀ k, (spanTrays k l 0 s).figures = s.figures := fun k => spanTrays_figures k l 0 s
  have h1 : ∀ k, (spanTrays k l 0 s).pwr.avg1 = s.pwr.avg1 := fun k => congrArg (·.1) (hfig k)
  have h60 : ∀ k, (spanTrays k l 0 s).pwr.avg60 = s.pwr.avg60 := fun k => congrArg (·.2.1) (hfig k)
  have hpeak : ∀ k, (spanTrays k l 0 s).pwr.peak = s.pwr.peak := fun k => congrArg (·.2.2.2.1) (hfig k)
  refine ⟨⟨_, exec_powerSpanEnd 0 trays pumps high s (by decide), ?_⟩, ⟨_, exec_powerSpanEnd 1 trays pumps high s (by decide), ?_⟩,
    ⟨_, exec_powerSpanEnd 2 trays pumps high s (by decide), ?_⟩⟩
  · rw [show ((0 : BitVec 2).toNat) = 0 from rfl, ← hl, spanEnd_second l pumps.toNat high.toNat s hlen']
    refine ⟨hmean, congrArg (max · high.toNat) (hpeak 0), h60 0, fun u hu hruns => ?_⟩
    have h := spanTrays_tray 0 l 0 u s (by omega) (by rw [Nat.zero_add]; exact hruns)
    rw [Nat.zero_add] at h
    refine (congrArg Tray.avg1 h).trans ?_
    rw [List.getD_eq_getElem _ _ (by omega)]
    simp [Tray.spanned, hl]
  · rw [show ((1 : BitVec 2).toNat) = 1 from rfl, ← hl, spanEnd_minute l pumps.toNat high.toNat s hlen']
    exact ⟨hmean, h1 1⟩
  · rw [show ((2 : BitVec 2).toNat) = 2 from rfl, ← hl, spanEnd_quarter l pumps.toNat high.toNat s hlen']
    exact ⟨hmean, h60 2⟩

/-! ### O47 -/

theorem capWindow_runs {w power : Nat} {s : State} (h : s.wardenRuns (w / 8) = true) : capWindow w power s =
    s.setPwrMod w { capControl s.machCeil (s.capEff w).1 power (s.pwrMod w) with
      peak := max (s.pwrMod w).peak power, sum1 := (s.pwrMod w).sum1 + power, n1 := (s.pwrMod w).n1 + 1
      sum60 := (s.pwrMod w).sum60 + power, n60 := (s.pwrMod w).n60 + 1
      sum900 := (s.pwrMod w).sum900 + power, n900 := (s.pwrMod w).n900 + 1 } := by
  rw [capWindow, h]
  rfl

theorem capControl_over {ceil cap power : Nat} {p : PwrMod} (h : cap < power) :
    (capControl ceil cap power p).ctrl = max 700 (p.ctrl - 10) := by
  rw [capControl, if_pos h]

theorem capControl_under {ceil cap power : Nat} {p : PwrMod} (h : power ≤ cap) (hlow : power * 100 < cap * 95) (h9 : 9 ≤ p.low) :
    (capControl ceil cap power p).ctrl = min ceil (p.ctrl + 10) := by
  rw [capControl, if_neg (Nat.not_lt.mpr h), if_pos hlow, if_pos h9]

theorem capControl_between {ceil cap power : Nat} {p : PwrMod} (h : power ≤ cap) (hkeep : cap * 95 ≤ power * 100 ∨ p.low < 9) :
    (capControl ceil cap power p).ctrl = p.ctrl := by
  rw [capControl, if_neg (Nat.not_lt.mpr h)]
  rcases hkeep with hhigh | hlow
  · rw [if_neg (Nat.not_lt.mpr hhigh)]
  · rw [if_neg (Nat.not_le.mpr hlow)]
    split <;> rfl

theorem runs_capControllerWindow {w : Fin 96} {s : State} (power : BitVec 12) (h : s.wardenRuns (w.val / 8) = true) :
    Runs (.capControllerWindow w power) s (fun t => OnePower w.val s t ∧
      (t.pwrMod w.val).peak = max (s.pwrMod w.val).peak power.toNat ∧
      (t.pwrMod w.val).sum1 = (s.pwrMod w.val).sum1 + power.toNat ∧
      ((s.capEff w.val).1 < power.toNat → (t.pwrMod w.val).ctrl = max 700 ((s.pwrMod w.val).ctrl - 10)) ∧
      (power.toNat ≤ (s.capEff w.val).1 → power.toNat * 100 < (s.capEff w.val).1 * 95 → 9 ≤ (s.pwrMod w.val).low →
        (t.pwrMod w.val).ctrl = min s.machCeil ((s.pwrMod w.val).ctrl + 10)) ∧
      (power.toNat ≤ (s.capEff w.val).1 → (s.capEff w.val).1 * 95 ≤ power.toNat * 100 ∨ (s.pwrMod w.val).low < 9 →
        (t.pwrMod w.val).ctrl = (s.pwrMod w.val).ctrl)) := by
  refine ⟨_, exec_capControllerWindow .., ?_⟩
  rw [capWindow_runs h]
  refine ⟨setPwrMod_onePower .., ?_⟩
  rw [setPwrMod_self]
  exact ⟨rfl, rfl, fun hover => capControl_over hover, fun hle hlow h9 => capControl_under hle hlow h9,
    fun hle hkeep => capControl_between hle hkeep⟩

/-- Settles O47: a sequence's end, a missed ramp and a rail fault write the module's own record and rails; a step of the setpoint
writes its own power, and what goes on at 0.70 V leaves power alone; a window and a span write their figures. -/
theorem railsSetpointsAndReports : Obligations.RailsSetpointsAndReports := by
  unfold Obligations.RailsSetpointsAndReports
  refine ⟨fun s w => ?_, fun s trays pumps high hlen => runs_powerSpanEnd s trays pumps high hlen⟩
  intro p g now rest one moved
  have hrest : ∀ t, OnePower w.val s t → one t := fun t h => h
  refine ⟨fun hrising => ⟨⟨_, exec_railSequenceUpDone .., railsUp_up hrising⟩, runs_railRampMiss hrising⟩,
    fun hst hfall => runs_railSequenceDownDone hst hfall, fun rail mv hrail => ⟨fun hon haux hout => runs_railFault hrail hon haux hout,
      fun hin => ⟨_, exec_railFault .., (if_pos hrail).trans (railFault_in hin)⟩⟩, fun hon hruns => ⟨fun hless hdue => ?_,
      fun hmore hdue => ?_, fun heq => ⟨_, exec_coreSupplyStep .., coreStep_rests heq⟩⟩,
    fun hruns power => runs_capControllerWindow power hruns⟩
  · have heq := coreStep_moves hon hruns (Nat.ne_of_lt hless) hdue
    rw [if_pos hless] at heq
    refine ⟨_, exec_coreSupplyStep .., fun hnone => ?_, fun hstays => ?_⟩
    · have hmod := coreStep_pwrMod heq hnone
      refine ⟨?_, fun j hj => (hmod j).trans ((steppedTo_pwrMod ..).2.1 j hj)⟩
      show State.pwrMod _ _ = _
      rw [hmod]
      exact (steppedTo_pwrMod ..).1
    · rw [coreStep_stays heq hstays]
      exact steppedTo_pwrMod ..
  · have heq := coreStep_moves hon hruns (Nat.ne_of_gt hmore) hdue
    rw [if_neg (Nat.lt_asymm hmore)] at heq
    refine ⟨_, exec_coreSupplyStep .., ?_⟩
    have hbelow : s.vTarget w.val < (s.pwrMod w.val).vset := hmore
    rw [coreStep_stays heq (by omega)]
    exact steppedTo_pwrMod ..

end Sys2Proof.Machine
end

section
/-! PROOFS. What a tray's power takes along when it goes (R541, R561, R817): the loss of a tray, layer by layer. -/

namespace Sys2Proof.Machine

open Sys2Proof

/-! ### The view -/

/-- Whether a module is in service, and at what stage and cause it left. -/
def Mod.service (m : Mod) : BitVec 2 × BitVec 4 × BitVec 4 := (m.state, m.stage, m.cause)

/-- What a tray's power takes nothing of: the trays, coolant and valves, power's own figures, boot, keys, updates, the store and
the stewards but for their records; and each module's service and orders. -/
def State.darkView (s : State) : State × (Nat → BitVec 2 × BitVec 4 × BitVec 4) ×
    (Nat → BitVec 2 × BitVec 2 × Bool × Bool × BitVec 11 × BitVec 11 × Option (Nat × Nat)) :=
  ({ s.besideRails with
    ports := [], fns := [], sports := [], pins := [], intakes := [], sh := {}, win := { s.win with latches := [] } },
   fun w => (s.mod w).service, fun w => (s.pwrMod w).orders)

section
variable {s t : State} (h : t.darkView = s.darkView)
include h

theorem darkView_trays : t.trays = s.trays := (congrArg (fun v => v.1.trays) h :)
theorem darkView_tray (u : Nat) : t.tray u = s.tray u := (congrArg (tget _ u) (darkView_trays h) :)
theorem darkView_ttherms : t.therm.trays = s.therm.trays := (congrArg (fun v => v.1.therm.trays) h :)
theorem darkView_ttherm (u : Nat) : t.ttherm u = s.ttherm u := (congrArg (tget _ u) (darkView_ttherms h) :)
theorem darkView_store : t.store = s.store := (congrArg (fun v => v.1.store) h :)
theorem darkView_wardens : t.stw.wardens = s.stw.wardens := (congrArg (fun v => v.1.stw.wardens) h :)
theorem darkView_sag : t.pwr.sag = s.pwr.sag := (congrArg (fun v => v.1.pwr.sag) h :)
theorem darkView_boot : t.boot = s.boot := (congrArg (fun v => v.1.boot) h :)
theorem darkView_service (w : Nat) : (t.mod w).service = (s.mod w).service := congrFun (congrArg (·.2.1) h) w
theorem darkView_orders (w : Nat) : (t.pwrMod w).orders = (s.pwrMod w).orders := congrFun (congrArg (·.2.2) h) w

end

theorem darkView_of {s t : State} (hrails : t.besideRails = s.besideRails) (hmod : ∀ w, (t.mod w).service = (s.mod w).service)
    (horders : ∀ w, (t.pwrMod w).orders = (s.pwrMod w).orders) : t.darkView = s.darkView := by
  have h1 : t.darkView.1 = s.darkView.1 := (congrArg (fun v : State => { v with
    ports := [], fns := [], sports := [], pins := [], intakes := [], sh := {}, win := { v.win with latches := [] } }) hrails :)
  exact Prod.ext h1 (Prod.ext (funext hmod) (funext horders))

theorem service_of_standing {m n : Mod} (h : m.standing = n.standing) : m.service = n.service := by
  exact (congrArg Mod.service h :)

theorem darkView_of_lossView {s t : State} (h : t.lossView = s.lossView) : t.darkView = s.darkView :=
  darkView_of (besideRails_of_lossView h) (fun w => service_of_standing (lossView_standing h w))
    fun w => congrArg PwrMod.orders (lossView_pwrMod h w)

theorem darkView_of_restView {s t : State} (h : t.restView = s.restView) : t.darkView = s.darkView :=
  darkView_of_lossView (lossView_of_restView h)

theorem setMod_darkView {s : State} {w : Nat} {m : Mod} (h : m.service = (s.mod w).service) :
    (s.setMod w m).darkView = s.darkView := by
  refine darkView_of rfl (fun j => ?_) fun _ => rfl
  by_cases hj : j = w
  · rw [hj, setMod_self, h]
  · rw [setMod_ne _ _ hj]

theorem setPwrMod_darkView {s : State} {w : Nat} {p : PwrMod} (h : p.orders = (s.pwrMod w).orders) :
    (s.setPwrMod w p).darkView = s.darkView := by
  refine darkView_of rfl (fun _ => rfl) fun j => ?_
  by_cases hj : j = w
  · rw [hj, setPwrMod_self, h]
  · rw [setPwrMod_ne _ _ hj]

theorem machineEvent_darkView (c n d : Nat) (p : Option (BitVec 6)) (a : DWord) (b : Word) (s : State) :
    (machineEvent c n d p a b s).darkView = s.darkView := darkView_of_lossView (machineEvent_lossView ..)

/-! ### A module without its auxiliary rail, a link that goes down, an intake tray (R541, R817) -/

theorem markLow_darkView (w : Nat) (s : State) : (markLow w s).darkView = s.darkView := by
  refine darkView_of (markLow_besideRails w s) (fun j => ?_) fun j => ?_
  · rw [markLow_frame]
    rfl
  · by_cases hj : j = w
    · obtain ⟨a, b, h⟩ := markLow_pwrMod_self w s
      rw [hj, h]
      rfl
    · rw [markLow_pwrMod_ne w s hj]

theorem zeroScratch_darkView (w : Nat) (s : State) : (zeroScratch w s).darkView = s.darkView := rfl

theorem setCols_darkView (s : State) (c : Tab Byte) (u : Tab (Option Nat)) (b : List Nat) :
    { s with cols := c, unitKeys := u, badUnits := b }.darkView = s.darkView := rfl

theorem zeroColumns_darkView (k w : Nat) (s : State) : (zeroColumns k w s).darkView = s.darkView := by
  unfold zeroColumns
  dsimp only
  rw [setCols_darkView]
  exact setMod_darkView rfl

theorem darkMod_darkView (w : Nat) (s : State) : (darkMod w s).darkView = s.darkView := by
  have hset : ∀ a : State, (a.setMod w { a.mod w with
      keyTen := 0, slotKeys := [], keyDiag := false, diagKey := 0, keyTransport := false, keyRetry := none, retest := false }).darkView = a.darkView := fun a => setMod_darkView rfl
  have hpwr : ∀ a : State, (a.setPwrMod w { a.pwrMod w with obj := {}, rising := false, testing := false }).darkView =
      a.darkView := fun a => setPwrMod_darkView rfl
  unfold darkMod
  dsimp only
  rw [zeroScratch_darkView, zeroColumns_darkView, hset, markLow_darkView, hpwr]

theorem tenWound_lossView (n : Nat) (s : State) : (s.tenWound n).lossView = s.lossView := by
  have htallies : ∀ a : State, (dropTallies n a).lossView = a.lossView := fun a =>
    foldl_keeps State.lossView _ (fun b r => setRing_lossView ..) _ a
  unfold State.tenWound
  dsimp only
  rw [htallies]
  refine (foldl_keeps State.lossView _ (fun a p => windPart_lossView p .reset false a) _ _).trans ?_
  refine (lossView_of_restView (dropTenReads_restView ..)).trans ?_
  exact foldl_keeps State.lossView _ (fun a r => windRing_lossView false r a) _ _

theorem resetFn_lossView (port fn : Nat) (cfg : Bool) (s : State) : (resetFn port fn cfg s).lossView = s.lossView := by
  unfold resetFn
  split
  next n _ =>
    by_cases hdrain : (s.ten n).flr = .drain ∨ (s.ten n).flr = .drainScrub
    · rw [startReset_draining hdrain, setTen_lossView]
    · rw [startReset_starts hdrain, tenWound_lossView, setTen_lossView]
  next => rfl

theorem resetFn_darkView (port fn : Nat) (cfg : Bool) (s : State) : (resetFn port fn cfg s).darkView = s.darkView :=
  darkView_of_lossView (resetFn_lossView ..)

theorem setFn_darkView (s : State) (p f : Nat) (v : Fn) : (s.setFn p f v).darkView = s.darkView := rfl

theorem setPort_darkView (s : State) (p : Nat) (v : Port) : (s.setPort p v).darkView = s.darkView := rfl

theorem setSriov_darkView (port : Nat) (nv : BitVec 4) (en : Bool) (s : State) :
    (setSriov port nv en s).darkView = s.darkView := by
  refine (foldl_keeps State.darkView _ (fun a f => ?_) _ _).trans (setPort_darkView ..)
  exact (resetFn_darkView ..).trans (setFn_darkView ..)

theorem foldl_setFn_darkView (port : Nat) (l : List Nat) (s : State) :
    (l.foldl (fun a f => a.setFn port f {}) s).darkView = s.darkView :=
  foldl_keeps State.darkView (fun a f => a.setFn port f {}) (fun _ _ => rfl) l s

theorem foldl_resetFn_darkView (port : Nat) (l : List Nat) (s : State) :
    (l.foldl (fun a f => resetFn port f false a) s).darkView = s.darkView :=
  foldl_keeps State.darkView (fun a f => resetFn port f false a) (fun a f => resetFn_darkView port f false a) l s

theorem linkDown_darkView (port : Nat) (s : State) : (linkDown port s).darkView = s.darkView := by
  unfold linkDown
  split
  · rw [resetPort, foldl_resetFn_darkView, setPort_darkView, foldl_setFn_darkView, setSriov_darkView, setPort_darkView]
  · rfl

theorem forgetFrames_darkView (t : Nat) (s : State) : (forgetFrames t s).darkView = s.darkView :=
  foldl_keeps State.darkView _ (fun _ _ => darkView_of_restView (modCmd_restView ..)) _ s

theorem intakeLoss_darkView (t : Nat) (s : State) : (intakeLoss t s).darkView = s.darkView := by
  have hset : ∀ (a : State) sp pn pp it la, ({ a with sports := sp, pins := pn, pipes := pp, intakes := it, win :=
       { a.win with latches := la } } : State).darkView = a.darkView := fun _ _ _ _ _ _ => rfl
  unfold intakeLoss
  dsimp only
  rw [hset]
  exact (darkView_of_lossView (dropReads_lossView ..)).trans (forgetFrames_darkView t s)

theorem changeSplices_darkView (l : List Nat) (s : State) : (changeSplices l s).darkView = s.darkView := by
  unfold changeSplices
  split <;> rfl

/-! ### A tray without power, and a tray that is lost -/

/-- A tray's warden stops, and is adopted no more. -/
def State.wardenStopped (s : State) (t : Nat) : State := { s with stw := { s.stw with
  wardens := s.stw.wardens &&& ~~~(BitVec.ofNat 18 (2 ^ t)), adopting := s.stw.adopting.filter (fun x => x != t) } }

/-- A tray's valve is closed by its spring. -/
def State.valveShut (s : State) (t : Nat) : State :=
  if t < 17 then s.setTtherm t { s.ttherm t with valve := 0, forced := false } else s

/-- A tray with its contactor open, its valve closed and its warden stopped. -/
def State.trayOff (s : State) (t : Nat) : State :=
  ((s.setTray t { s.tray t with contactor := false, strapsRead := false }).valveShut t).wardenStopped t

section
variable {a b : State} (h : a.darkView = b.darkView) (t : Nat)
include h

theorem setTtherm_darkView_congr (x : TrayTherm) : (a.setTtherm t x).darkView = (b.setTtherm t x).darkView := by
  have h1 : (a.setTtherm t x).darkView.1 = (b.setTtherm t x).darkView.1 :=
    (congrArg (fun v : State => v.setTtherm t x) (congrArg Prod.fst h) :)
  have h2 : (a.setTtherm t x).darkView.2 = (b.setTtherm t x).darkView.2 := (congrArg Prod.snd h :)
  exact Prod.ext h1 h2

theorem valveShut_darkView_congr : (a.valveShut t).darkView = (b.valveShut t).darkView := by
  unfold State.valveShut
  rw [darkView_ttherm h]
  split
  · exact setTtherm_darkView_congr h t _
  · exact h

theorem wardenStopped_darkView_congr : (a.wardenStopped t).darkView = (b.wardenStopped t).darkView := by
  have h1 : (a.wardenStopped t).darkView.1 = (b.wardenStopped t).darkView.1 :=
    (congrArg (fun v : State => v.wardenStopped t) (congrArg Prod.fst h) :)
  have h2 : (a.wardenStopped t).darkView.2 = (b.wardenStopped t).darkView.2 := (congrArg Prod.snd h :)
  exact Prod.ext h1 h2

end

/-- What goes dark with a tray, by its kind. -/
def State.darkKind (s : State) (t : Nat) : State :=
  let s1 := if t = 12 ∨ t = 13 then (List.range 8).foldl (fun a q => linkDown ((t - 12) * 8 + q) a) s else s
  if t = 14 ∨ t = 15 then intakeLoss t s1 else s1

theorem darkKind_darkView (s : State) (t : Nat) : (s.darkKind t).darkView = s.darkView := by
  have hlinks : ∀ l : List Nat, (l.foldl (fun a q => linkDown ((t - 12) * 8 + q) a) s).darkView = s.darkView := fun l =>
    foldl_keeps State.darkView (fun a q => linkDown ((t - 12) * 8 + q) a) (fun a q => linkDown_darkView _ a) l s
  have hdown : (if t = 12 ∨ t = 13 then (List.range 8).foldl (fun a q => linkDown ((t - 12) * 8 + q) a) s else s).darkView =
      s.darkView := by
    split
    · exact hlinks _
    · rfl
  unfold State.darkKind
  dsimp only
  split
  · rw [intakeLoss_darkView, hdown]
  · exact hdown

theorem foldl_darkMod_darkView (l : List Nat) (s : State) : (l.foldl (fun a w => darkMod w a) s).darkView = s.darkView :=
  foldl_keeps State.darkView (fun a w => darkMod w a) (fun a w => darkMod_darkView w a) l s

theorem trayDark_eq (t : Nat) (s : State) : trayDark t s = changeSplices (if s.trayLive t then spliceCols t else [])
    (((((trayMods t).foldl (fun a w => darkMod w a)
      (s.setTray t { s.tray t with contactor := false, strapsRead := false })).darkKind t).valveShut t).wardenStopped t) := rfl

/-- A tray's power takes along, beside what is dark with it, its contactor, its valve and its warden. -/
theorem trayDark_darkView (t : Nat) (s : State) : (trayDark t s).darkView = (s.trayOff t).darkView := by
  rw [trayDark_eq, changeSplices_darkView]
  refine wardenStopped_darkView_congr (valveShut_darkView_congr ?_ t) t
  rw [darkKind_darkView, foldl_darkMod_darkView]

theorem trayOff_tray_self (s : State) (t : Nat) :
    (s.trayOff t).tray t = { s.tray t with contactor := false, strapsRead := false } := by
  unfold State.trayOff State.valveShut
  split <;> exact setTray_self ..

theorem trayOff_tray_ne (s : State) {t u : Nat} (h : u ≠ t) : (s.trayOff t).tray u = s.tray u := by
  unfold State.trayOff State.valveShut
  split <;> exact setTray_ne _ _ h

theorem trayDark_tray_self (t : Nat) (s : State) :
    (trayDark t s).tray t = { s.tray t with contactor := false, strapsRead := false } :=
  (darkView_tray (trayDark_darkView t s) t).trans (trayOff_tray_self s t)

theorem trayDark_tray_ne (s : State) {t u : Nat} (h : u ≠ t) : (trayDark t s).tray u = s.tray u :=
  (darkView_tray (trayDark_darkView t s) u).trans (trayOff_tray_ne s h)

theorem trayDark_store (t : Nat) (s : State) : (trayDark t s).store = s.store := by
  rw [darkView_store (trayDark_darkView t s), State.trayOff, State.valveShut]
  split <;> rfl

theorem trayDark_service (t : Nat) (s : State) (w : Nat) : ((trayDark t s).mod w).service = (s.mod w).service := by
  rw [darkView_service (trayDark_darkView t s), State.trayOff, State.valveShut]
  split <;> rfl

theorem trayDark_orders (t : Nat) (s : State) (w : Nat) : ((trayDark t s).pwrMod w).orders = (s.pwrMod w).orders := by
  rw [darkView_orders (trayDark_darkView t s), State.trayOff, State.valveShut]
  split <;> rfl

/-! ### Modules lost with a tray -/

/-- A module is out with stage 15 and the cause given. -/
def Mod.lostBy (m : Mod) (cause : Nat) : Prop := m.service = (2, 15, BitVec.ofNat 4 cause)

/-- Modules lost one after another. -/
def loseMods (cause : Nat) (l : List Nat) (s : State) : State := l.foldl (fun a w => loseModule w cause a) s

theorem loseModule_service_ne (cause : Nat) {w : Nat} (s : State) {j : Nat} (h : j ≠ w) :
    ((loseModule w cause s).mod j).service = (s.mod j).service := service_of_standing (loseModule_standing_ne cause s h)

theorem loseModule_out {w cause : Nat} {s : State} (h : (s.mod w).state ≠ 1) : (loseModule w cause s).mod w = s.mod w := by
  have hout : s.modServing w = false := by
    rw [State.modServing]
    simpa using h
  rw [loseModule_absent hout, lowerMod_mod]

theorem loseModule_lostBy {w : Nat} (cause : Nat) {s : State} (h : s.modServing w = true) :
    ((loseModule w cause s).mod w).lostBy cause := by
  obtain ⟨hstate, hstage, hcause⟩ := loseModule_mod_self (cause := cause) h
  rw [Mod.lostBy, Mod.service, hstate, hstage, hcause]

/-- A module that is out stays so as modules are lost. -/
theorem lostBy_loseModule {w cause : Nat} {s : State} (x c : Nat) (h : (s.mod w).lostBy cause) :
    ((loseModule x c s).mod w).lostBy cause := by
  by_cases hx : w = x
  · have hstate : (s.mod w).state = 2 := congrArg (·.1) h
    rw [← hx, loseModule_out (by rw [hstate]; decide)]
    exact h
  · exact (loseModule_service_ne c s hx).trans h

/-- Of some modules lost one after another, each that was in service is out by the cause. -/
theorem loseMods_lostBy (cause : Nat) (l : List Nat) (s : State) {w : Nat} (hw : w ∈ l) (h : s.modServing w = true) :
    ((loseMods cause l s).mod w).lostBy cause := by
  refine foldl_establishes_under (fun a => a.modServing w = true ∨ (a.mod w).lostBy cause) (fun a => (a.mod w).lostBy cause)
    _ w (fun a x ha => ?_) (fun a ha => ?_) (fun a x _ ha => lostBy_loseModule x cause ha) l s (Or.inl h) hw
  · rcases ha with hserving | hlost
    · by_cases hx : w = x
      · exact Or.inr (hx ▸ loseModule_lostBy cause hserving)
      · have hstate : ((loseModule x cause a).mod w).state = (a.mod w).state := congrArg (·.1) (loseModule_service_ne cause a hx)
        refine Or.inl ?_
        rw [State.modServing, hstate]
        exact hserving
    · exact Or.inr (lostBy_loseModule x cause hlost)
  · rcases ha with hserving | hlost
    · exact loseModule_lostBy cause hserving
    · exact lostBy_loseModule w cause hlost

theorem loseModule_pwrOrders (w cause : Nat) (s : State) (j : Nat) :
    ((loseModule w cause s).pwrMod j).orders = (s.pwrMod j).orders := by
  by_cases hj : j = w
  · rw [hj, loseModule_orders]
  · rw [loseModule_pwrMod_ne _ _ hj]

theorem loseMods_orders (cause : Nat) (l : List Nat) (s : State) (j : Nat) :
    ((loseMods cause l s).pwrMod j).orders = (s.pwrMod j).orders :=
  foldl_keeps (fun a => (a.pwrMod j).orders) (fun a w => loseModule w cause a) (fun a w => loseModule_pwrOrders w cause a j) l s

theorem loseMods_besideRails (cause : Nat) (l : List Nat) (s : State) : (loseMods cause l s).besideRails = s.besideRails :=
  foldl_keeps State.besideRails (fun a w => loseModule w cause a) (fun a w => loseModule_besideRails w cause a) l s

/-- A module beside a list keeps its service as the list is lost. -/
theorem loseMods_service_ne (cause : Nat) (l : List Nat) (s : State) {w : Nat} (h : w ∉ l) :
    ((loseMods cause l s).mod w).service = (s.mod w).service := by
  induction l generalizing s with
  | nil => rfl
  | cons x l ih =>
    rw [List.mem_cons, not_or] at h
    exact (ih _ h.2).trans (loseModule_service_ne cause s h.1)

theorem foldl_failLink_darkView (l : List Nat) (s : State) : (l.foldl (fun a k => failLink k 5 a) s).darkView = s.darkView :=
  foldl_keeps State.darkView (fun a k => failLink k 5 a) (fun a k => darkView_of_lossView (failLink_lossView k 5 a)) l s

theorem setSh_darkView (s : State) (x : ShapeSt) : { s with sh := x }.darkView = s.darkView := rfl

/-- A tray's loss: its modules are lost by the cause, and the tray goes dark. -/
theorem loseTray_darkView (t cause : Nat) (s : State) : ∃ u, u.darkView = (loseMods cause (trayMods t) s).darkView ∧
    (loseTray t cause s).darkView = (trayDark t u).darkView := by
  refine ⟨_, foldl_failLink_darkView (trayPorts t) (loseMods cause (trayMods t) s), ?_⟩
  unfold loseTray
  dsimp only
  split
  · split
    · exact setSh_darkView ..
    · rw [trigger_frame, setSh_darkView, setSh_darkView]
      rfl
  · rfl

section
variable (t cause : Nat) (s : State)

theorem loseTray_tray_self : (loseTray t cause s).tray t = { s.tray t with contactor := false, strapsRead := false } := by
  obtain ⟨u, hu, h⟩ := loseTray_darkView t cause s
  have htray : u.tray t = s.tray t := by
    rw [darkView_tray hu, State.tray, besideRails_trays (loseMods_besideRails ..)]
    rfl
  rw [darkView_tray h, trayDark_tray_self, htray]

theorem loseTray_tray_ne {k : Nat} (hk : k ≠ t) : (loseTray t cause s).tray k = s.tray k := by
  obtain ⟨u, hu, h⟩ := loseTray_darkView t cause s
  rw [darkView_tray h, trayDark_tray_ne u hk, darkView_tray hu, State.tray, besideRails_trays (loseMods_besideRails ..)]
  rfl

theorem loseTray_lostBy {w : Nat} (hw : w ∈ trayMods t) (h : s.modServing w = true) :
    ((loseTray t cause s).mod w).lostBy cause := by
  obtain ⟨u, hu, hview⟩ := loseTray_darkView t cause s
  rw [Mod.lostBy, darkView_service hview, trayDark_service, darkView_service hu]
  exact loseMods_lostBy cause (trayMods t) s hw h

theorem loseTray_service_ne {w : Nat} (hw : w ∉ trayMods t) : ((loseTray t cause s).mod w).service = (s.mod w).service := by
  obtain ⟨u, hu, hview⟩ := loseTray_darkView t cause s
  rw [darkView_service hview, trayDark_service, darkView_service hu]
  exact loseMods_service_ne cause (trayMods t) s hw

theorem loseTray_orders (w : Nat) : ((loseTray t cause s).pwrMod w).orders = (s.pwrMod w).orders := by
  obtain ⟨u, hu, hview⟩ := loseTray_darkView t cause s
  rw [darkView_orders hview, trayDark_orders, darkView_orders hu]
  exact loseMods_orders cause (trayMods t) s w

end

end Sys2Proof.Machine
end

section
/-! PROOFS. Power: sag, hold-up and the battery (O48). -/

namespace Sys2Proof.Machine

open Sys2Proof

/-! ### The busbar's samples (R588) -/

theorem exec_sagSample (mv : BitVec 16) (s : State) : exec (.sagSample mv) s =
    .next (if s.boot.powered then sagSample mv.toNat s else s) := rfl

theorem exec_holdTimerExpiry (s : State) : exec .holdTimerExpiry s = .next (holdExpiry s) := rfl

theorem exec_trayUndervoltage (t : Fin 17) (s : State) : exec (.trayUndervoltage t) s = .next (undervolt t.val s) := rfl

theorem exec_deferredWriteCommit (s : State) : exec .deferredWriteCommit s = .next (deferredCommit s) := rfl

theorem exec_battLowCondition (c : BitVec 7) (s : State) : exec (.battLowCondition c) s = .next (battCharge c.toNat s) := rfl

theorem exec_batteryLow (c : BitVec 7) (s : State) : exec (.batteryLow c) s = .next (batteryLow c.toNat s) := rfl

/-- The state with a sample as read: its level, the time below 41.0 V and the counts. -/
def State.sampled (s : State) (mv : Nat) : State :=
  let lv := sagLevel s.pwr.sag mv
  { s with pwr := { s.pwr with
    mv := BitVec.ofNat 16 mv, sag := lv
    below := if mv < 41000 then (if s.pwr.below = 0 then s.win.tb.toNat + 1 else s.pwr.below) else 0
    deferCnt := if s.pwr.sag = 0 ∧ 1 ≤ lv then s.pwr.deferCnt + 1 else s.pwr.deferCnt
    crawlCnt := if s.pwr.sag < 2 ∧ lv = 2 then s.pwr.crawlCnt + 1 else s.pwr.crawlCnt } }

theorem sagSample_told (mv : Nat) (s : State) : sagSample mv s = told (s.sampled mv) (sagSample mv s) := by
  unfold sagSample
  dsimp only
  split
  · rfl
  · exact machineEvent_told ..

theorem sampled_below (s : State) (mv : Nat) : (s.sampled mv).pwr.below =
    if mv < 41000 then (if s.pwr.below = 0 then s.win.tb.toNat + 1 else s.pwr.below) else 0 := rfl

theorem sampled_sag (s : State) (mv : Nat) : (s.sampled mv).pwr.sag = sagLevel s.pwr.sag mv := rfl

theorem runs_sagSample (s : State) (mv : BitVec 16) (hpower : s.boot.powered = true) : Runs (.sagSample mv) s (fun t =>
    t = { told s t with pwr := { (told s t).pwr with
      mv := mv, sag := t.pwr.sag, below := t.pwr.below, deferCnt := t.pwr.deferCnt, crawlCnt := t.pwr.crawlCnt } } ∧
    (s.pwr.sag = 0 → t.pwr.sag = (if mv.toNat < 44000 then 2 else if mv.toNat < 47000 then 1 else 0)) ∧
    (s.pwr.sag = 1 → t.pwr.sag = (if mv.toNat < 44000 then 2 else if mv.toNat < 47500 then 1 else 0)) ∧
    (s.pwr.sag = 2 → t.pwr.sag = (if mv.toNat < 44500 then 2 else if mv.toNat < 47500 then 1 else 0)) ∧
    (s.pwr.sag = 3 → t.pwr.sag = 3) ∧
    (mv.toNat < 41000 → s.pwr.below = 0 → t.pwr.below = s.win.tb.toNat + 1) ∧
    (mv.toNat < 41000 → s.pwr.below ≠ 0 → t.pwr.below = s.pwr.below) ∧ (41000 ≤ mv.toNat → t.pwr.below = 0)) := by
  refine ⟨_, exec_sagSample .., ?_⟩
  rw [if_pos hpower]
  have htold := sagSample_told mv.toNat s
  generalize sagSample mv.toNat s = t at htold
  have hsag : t.pwr.sag = sagLevel s.pwr.sag mv.toNat := by
    rw [htold]
    rfl
  have hbelow : t.pwr.below = (s.sampled mv.toNat).pwr.below := by
    rw [htold]
    rfl
  refine ⟨?_, fun h => ?_, fun h => ?_, fun h => ?_, fun h => ?_, fun hlow h0 => ?_, fun hlow h0 => ?_, fun hhigh => ?_⟩
  · have hmv : (s.sampled mv.toNat).pwr.mv = mv := (BitVec.ofNat_toNat 16 mv).trans (BitVec.setWidth_eq mv)
    rw [← hmv, htold]
    rfl
  · rw [hsag, h]; rfl
  · rw [hsag, h]; rfl
  · rw [hsag, h]; rfl
  · rw [hsag, h]; rfl
  · rw [hbelow, sampled_below, if_pos hlow, if_pos h0]
  · rw [hbelow, sampled_below, if_pos hlow, if_neg h0]
  · rw [hbelow, sampled_below, if_neg (Nat.not_lt.mpr hhigh)]

/-! ### The deferred items (R589) -/

theorem tget_eq_default {α : Type} (d : α) (k : Nat) (l : Tab α) (h : ∀ p ∈ l, p.1 ≠ k) : tget d k l = d := by
  induction l with
  | nil => rfl
  | cons x l ih =>
    rw [tget, if_neg (Ne.symm (h x (List.mem_cons_self ..)))]
    exact ih fun p hp => h p (List.mem_cons_of_mem _ hp)

/-- The items of a canonical list are stored as listed, and nothing else changes. -/
theorem foldl_storeItems (l : Tab (Option Word)) (hwf : Tab.wf none l = true) (st : Tab (Option Word)) (off : Nat) :
    tget none off (l.foldl (fun a p => tset none p.1 p.2 a) st) = (tget none off l).elim (tget none off st) some := by
  induction l generalizing st with
  | nil => rfl
  | cons x l ih =>
    obtain ⟨k, v⟩ := x
    simp only [Tab.wf, Bool.and_eq_true, decide_eq_true_eq, List.all_eq_true] at hwf
    obtain ⟨⟨hv, hkeys⟩, hl⟩ := hwf
    rw [List.foldl_cons, ih hl, tget]
    by_cases hk : off = k
    · have hnone : tget none off l = none := tget_eq_default none off l fun p hp => hk ▸ Nat.ne_of_gt (hkeys p hp)
      rw [hnone, if_pos hk, hk, Option.elim_none, tget_tset_self]
      obtain ⟨y, rfl⟩ := Option.ne_none_iff_exists'.mp hv
      rfl
    · rw [if_neg hk, tget_tset_ne _ _ _ hk]

theorem commitItems_store {s : State} (hwf : Tab.wf none s.pwr.items = true) (off : Nat) :
    tget none off (commitItems s).store = (tget none off s.pwr.items).elim (tget none off s.store) some :=
  foldl_storeItems s.pwr.items hwf s.store off

/-! ### What the stewards' log is no part of -/

/-- The machine beside its stewards, what goes out and what is held of events. -/
def State.besideLog (s : State) : State :=
  { s with stw := {}, tens := [], out := [], mevHeld := [], mevLost := 0, mevRun := 0, pwr := { s.pwr with dropped := 0 } }

section
variable {s t : State} (h : t.besideLog = s.besideLog)
include h

theorem besideLog_items : t.pwr.items = s.pwr.items := (congrArg (fun v => v.pwr.items) h :)
theorem besideLog_store : t.store = s.store := (congrArg State.store h :)
theorem besideLog_sag : t.pwr.sag = s.pwr.sag := (congrArg (fun v => v.pwr.sag) h :)

end

theorem told_besideLog {s t : State} (h : t = told s t) : t.besideLog = s.besideLog := by
  rw [h]
  rfl

theorem logAdd_besideLog (c k p : Nat) (a : DWord) (b : Word) (d : List Nat) (s : State) :
    (logAdd c k p a b d s).besideLog = s.besideLog := told_besideLog (told_of_logged (logAdd_logged ..))

theorem setStew_besideLog (s : State) (c : Nat) (x : Stew) : (s.setStew c x).besideLog = s.besideLog := rfl

theorem gapMarker_besideLog (c : Nat) (f l : DWord) (n : Nat) (s : State) : (gapMarker c f l n s).besideLog = s.besideLog :=
  (logAdd_besideLog ..).trans rfl

theorem addRam_besideLog (r : LogRec) (s : State) : (addRam r s).besideLog = s.besideLog :=
  told_besideLog (told_of_logged (addRam_logged r s))

theorem setStw_besideLog (s : State) (x : Stw) : { s with stw := x }.besideLog = s.besideLog := rfl

theorem writeWords_besideLog (n : Nat) (s : State) : (writeWords n s).besideLog = s.besideLog := by
  unfold writeWords
  exact setStw_besideLog ..

theorem logLost_besideLog (c : Nat) (s : State) : (logLost c s).besideLog = s.besideLog := by
  refine (told_besideLog (machineEvent_told ..)).trans ?_
  refine (foldl_keeps State.besideLog (fun a r => addRam r a) (fun a r => addRam_besideLog r a) _ _).trans ?_
  exact foldl_keeps State.besideLog (fun a d => a.setStew d { a.stew d with deferred := [], gap := 0, inbox := [] })
    (fun _ _ => rfl) [0, 1, 2] _

theorem failCopy_besideLog (c : Nat) (s : State) : (failCopy c s).besideLog = s.besideLog := by
  unfold failCopy
  dsimp only
  split
  · exact (told_besideLog (machineEvent_told ..)).trans (gapMarker_besideLog ..)
  · exact (told_besideLog (machineEvent_told ..)).trans (logLost_besideLog ..)

theorem failDueCopies_besideLog (s : State) : (failDueCopies s).besideLog = s.besideLog := by
  refine foldl_keeps State.besideLog _ (fun a c => ?_) [0, 1, 2] s
  split
  · exact failCopy_besideLog ..
  · rfl

theorem foldl_commitLog_besideLog (l : List Nat) (s : State) : (l.foldl (fun a c => commitLog c a) s).besideLog = s.besideLog :=
  foldl_keeps State.besideLog (fun a c => commitLog c a) (fun _ _ => rfl) l s

theorem takeRec_besideLog (c : Nat) (r : LogRec) (s : State) : (takeRec c r s).besideLog = s.besideLog :=
  told_besideLog (told_of_logged (takeRec_logged c r s))

theorem drainInbox_besideLog (c : Nat) (s : State) : (drainInbox c s).besideLog = s.besideLog :=
  foldl_keeps State.besideLog (fun a r => takeRec c r a) (fun a r => takeRec_besideLog c r a) _ _

theorem foldl_drainInbox_besideLog (l : List Nat) (s : State) : (l.foldl (fun a c => drainInbox c a) s).besideLog = s.besideLog :=
  foldl_keeps State.besideLog (fun a c => drainInbox c a) (fun a c => drainInbox_besideLog c a) l s

/-! ### The commit (R589) -/

theorem commitLog_stew_self (c : Nat) (s : State) : ((commitLog c s).stew c).deferred = [] ∧ ((commitLog c s).stew c).gap = 0 := by
  rw [commitLog, setStew_self]
  exact ⟨rfl, rfl⟩

theorem commitLog_stew_ne {c d : Nat} (s : State) (h : d ≠ c) : (commitLog c s).stew d = s.stew d := setStew_ne s _ h

/-- A channel of a list has nothing deferred once the list has committed. -/
theorem commitLogs_stew (l : List Nat) (s : State) {c : Nat} (hc : c ∈ l) :
    ((l.foldl (fun a c => commitLog c a) s).stew c).deferred = [] ∧ ((l.foldl (fun a c => commitLog c a) s).stew c).gap = 0 := by
  refine foldl_establishes_under (fun _ => True) (fun a => (a.stew c).deferred = [] ∧ (a.stew c).gap = 0) _ c
    (fun _ _ _ => trivial) (fun a _ => commitLog_stew_self c a) (fun a d _ ha => ?_) l s trivial hc
  by_cases hd : c = d
  · exact hd ▸ commitLog_stew_self c a
  · rw [commitLog_stew_ne a hd]
    exact ha

theorem runs_deferredWriteCommit {s : State} (hsag : s.pwr.sag = 0) : Runs .deferredWriteCommit s (fun t =>
    t.pwr.items = [] ∧ t.pwr.image = 0 ∧ (∀ c, c < 3 → (t.stew c).deferred = [] ∧ (t.stew c).gap = 0) ∧
    (Tab.wf none s.pwr.items = true → ∀ off, tget none off s.pwr.items = none → tget none off t.store = tget none off s.store) ∧
    (Tab.wf none s.pwr.items = true → ∀ off v, tget none off s.pwr.items = some v → tget none off t.store = some v)) := by
  refine ⟨_, exec_deferredWriteCommit s, ?_⟩
  rw [deferredCommit, if_pos hsag]
  have hview : ([0, 1, 2].foldl (fun a c => commitLog c a) (failDueCopies s)).besideLog = s.besideLog :=
    (foldl_commitLog_besideLog ..).trans (failDueCopies_besideLog s)
  have hstew : ∀ c ∈ [0, 1, 2], _ := fun c hc => commitLogs_stew [0, 1, 2] (failDueCopies s) hc
  generalize [0, 1, 2].foldl (fun a c => commitLog c a) (failDueCopies s) = u at hview hstew
  refine ⟨rfl, rfl, fun c hc => hstew c ?_, fun hwf off hnone => ?_, fun hwf off v hsome => ?_⟩
  · have : c = 0 ∨ c = 1 ∨ c = 2 := by omega
    simpa using this
  · rw [commitItems_store (by rw [besideLog_items hview]; exact hwf), besideLog_items hview, hnone, besideLog_store hview]
    rfl
  · rw [commitItems_store (by rw [besideLog_items hview]; exact hwf), besideLog_items hview, hsome]
    rfl

/-! ### The machine without power (R592) -/

/-- A module with power gone: out of service, unbound. -/
def Mod.unpowered (m : Mod) : Mod := { m with
  state := if m.state = 0 then 0 else 2, bind := none, gateClosed := false, diagEn := false, diagActive := false }

/-- A tray goes dark as the machine's power goes. -/
def dropTray (t : Nat) (s : State) : State :=
  trayDark t ((trayMods t).foldl (fun b w => b.setMod w (b.mod w).unpowered) s)

theorem foldl_unpowered_keeps {γ : Type} (v : State → γ) (hset : ∀ a w m, v (State.setMod a w m) = v a) (l : List Nat) (s : State) :
    v (l.foldl (fun b w => b.setMod w (b.mod w).unpowered) s) = v s :=
  foldl_keeps v (fun b w => b.setMod w (b.mod w).unpowered) (fun _ _ => hset ..) l s

theorem dropTray_store (t : Nat) (s : State) : (dropTray t s).store = s.store :=
  (trayDark_store ..).trans (foldl_unpowered_keeps State.store (fun _ _ _ => rfl) _ s)

theorem dropTray_sag (t : Nat) (s : State) : (dropTray t s).pwr.sag = s.pwr.sag := by
  rw [dropTray, darkView_sag (trayDark_darkView ..), State.trayOff, State.valveShut]
  split <;> exact foldl_unpowered_keeps (fun a => a.pwr.sag) (fun _ _ _ => rfl) _ s

theorem dropTray_contactor_self (t : Nat) (s : State) : ((dropTray t s).tray t).contactor = false := by
  rw [dropTray, trayDark_tray_self]

theorem dropTray_contactor_keeps (t : Nat) {u : Nat} {s : State} (h : (s.tray u).contactor = false) :
    ((dropTray t s).tray u).contactor = false := by
  by_cases hu : u = t
  · rw [hu, dropTray_contactor_self]
  · rw [dropTray, trayDark_tray_ne _ hu, State.tray, foldl_unpowered_keeps State.trays (fun _ _ _ => rfl)]
    exact h

/-- The trays of a list dark. -/
def dropTrays (l : List Nat) (s : State) : State := l.foldl (fun a t => dropTray t a) s

theorem dropTrays_contactor (l : List Nat) (s : State) {u : Nat} (hu : u ∈ l) : ((dropTrays l s).tray u).contactor = false :=
  foldl_establishes_under (fun _ => True) (fun a => (a.tray u).contactor = false) (fun a t => dropTray t a) u
    (fun _ _ _ => trivial) (fun a _ => dropTray_contactor_self u a) (fun _ t _ ha => dropTray_contactor_keeps t ha) l s trivial hu

theorem dropTrays_store (l : List Nat) (s : State) : (dropTrays l s).store = s.store :=
  foldl_keeps State.store (fun a t => dropTray t a) (fun a t => dropTray_store t a) l s

theorem dropTrays_sag (l : List Nat) (s : State) : (dropTrays l s).pwr.sag = s.pwr.sag :=
  foldl_keeps (fun a => a.pwr.sag) (fun a t => dropTray t a) (fun a t => dropTray_sag t a) l s

/-- Without power nothing is read, no channel moves, and every tray's contactor is open. -/
theorem powerDown_fields (s : State) : (powerDown s).boot.powered = false ∧ (powerDown s).reads = [] ∧ (powerDown s).chans = [] ∧
    (powerDown s).trays = (dropTrays (List.range 17) s).trays ∧ (powerDown s).store = (dropTrays (List.range 17) s).store ∧
    (powerDown s).pwr.sag = (dropTrays (List.range 17) s).pwr.sag := by
  unfold powerDown dropTrays dropTray Mod.unpowered
  generalize List.range 17 = l
  exact ⟨rfl, rfl, rfl, rfl, rfl, rfl⟩

/-- The state in which the 20 ms have ended, and the record of it has been told. -/
def State.heldOut (s : State) : State :=
  machineEvent 0x0401 0 7 none (w64 (s.pwr.mv.toNat + 3 * 2 ^ 16)) (w32 s.waitingWrites) { s with pwr := { s.pwr with sag := 3 } }

/-- What the hold-up battery has the stewards write before the power goes. -/
def State.savedLog (s : State) : State :=
  if s.stw.unavail && decide (20 ≤ s.pwr.battery) then commitItems (writeWords (s.stw.ramLost + s.stw.ram.length) s)
  else if 20 ≤ s.pwr.battery then
    commitItems ([0, 1, 2].foldl (fun b c => commitLog c b)
      (failDueCopies ([0, 1, 2].foldl (fun b c => drainInbox c b) (logAdd 7 0 0 (w64 s.pwr.mv.toNat) 0 [] s))))
  else [0, 1, 2].foldl (fun b c => b.setStew c { b.stew c with deferred := [], gap := 0 }) s

theorem holdExpiry_ends {s : State} (hpower : s.boot.powered = true) (hbelow : s.pwr.below ≠ 0)
    (hlong : s.pwr.below - 1 + 2000000 ≤ s.win.tb.toNat) : holdExpiry s = powerDown s.heldOut.savedLog := by
  rw [holdExpiry, if_pos ⟨hpower, hbelow, hlong⟩]
  rfl

theorem heldOut_told (s : State) : s.heldOut = told { s with pwr := { s.pwr with sag := 3 } } s.heldOut := machineEvent_told ..

theorem commitItems_sag (s : State) : (commitItems s).pwr.sag = s.pwr.sag := rfl

theorem savedLog_sag (s : State) : s.savedLog.pwr.sag = s.pwr.sag := by
  unfold State.savedLog
  split
  · rw [commitItems_sag, besideLog_sag (writeWords_besideLog ..)]
  · split
    · rw [commitItems_sag, besideLog_sag ((foldl_commitLog_besideLog ..).trans ((failDueCopies_besideLog _).trans
        ((foldl_drainInbox_besideLog ..).trans (logAdd_besideLog ..))))]
    · exact foldl_keeps (fun a => a.pwr.sag) (fun b c => b.setStew c { b.stew c with deferred := [], gap := 0 })
        (fun _ _ => rfl) [0, 1, 2] s

/-- With charge left and the log available the deferred items are stored. -/
theorem savedLog_store {s : State} (hcharge : 20 ≤ s.pwr.battery) (havail : s.stw.unavail = false)
    (hwf : Tab.wf none s.pwr.items = true) {off : Nat} {v : Word} (h : tget none off s.pwr.items = some v) :
    tget none off s.savedLog.store = some v := by
  have hno : (s.stw.unavail && decide (20 ≤ s.pwr.battery)) = false := by rw [havail]; rfl
  unfold State.savedLog
  rw [hno, if_neg Bool.false_ne_true, if_pos hcharge]
  have hview := (foldl_commitLog_besideLog [0, 1, 2] _).trans ((failDueCopies_besideLog _).trans
    ((foldl_drainInbox_besideLog [0, 1, 2] _).trans (logAdd_besideLog 7 0 0 (w64 s.pwr.mv.toNat) 0 [] s)))
  rw [commitItems_store (by rw [besideLog_items hview]; exact hwf), besideLog_items hview, h]
  rfl

theorem runs_holdTimerExpiry {s : State} (hpower : s.boot.powered = true) (hbelow : s.pwr.below ≠ 0)
    (hlong : s.pwr.below - 1 + 2000000 ≤ s.win.tb.toNat) : Runs .holdTimerExpiry s (fun t =>
      t.boot.powered = false ∧ t.pwr.sag = 3 ∧ t.reads = [] ∧ t.chans = [] ∧
      (∀ u, u < 17 → (t.tray u).contactor = false) ∧
      (20 ≤ s.pwr.battery → s.stw.unavail = false → Tab.wf none s.pwr.items = true →
        ∀ off v, tget none off s.pwr.items = some v → tget none off t.store = some v)) := by
  refine ⟨_, exec_holdTimerExpiry s, ?_⟩
  rw [holdExpiry_ends hpower hbelow hlong]
  obtain ⟨hdark, hreads, hchans, htrays, hstore, hsag⟩ := powerDown_fields s.heldOut.savedLog
  have htold := heldOut_told s
  have hopen := fun u hu => dropTrays_contactor (List.range 17) s.heldOut.savedLog (u := u) hu
  generalize powerDown s.heldOut.savedLog = t at hdark hreads hchans htrays hstore hsag
  generalize hdrop : dropTrays (List.range 17) s.heldOut.savedLog = d at htrays hstore hsag hopen
  refine ⟨hdark, ?_, hreads, hchans, fun u hu => ?_, fun hcharge havail hwf off v h => ?_⟩
  · rw [hsag, ← hdrop, dropTrays_sag, savedLog_sag, htold]
    rfl
  · rw [State.tray, htrays]
    exact hopen u (List.mem_range.mpr hu)
  · rw [hstore, ← hdrop, dropTrays_store]
    refine savedLog_store ?_ ?_ ?_ ?_
    · rw [htold]; exact hcharge
    · rw [htold]; exact havail
    · rw [htold]; exact hwf
    · rw [htold]; exact h

/-! ### A tray's undervoltage (R588) -/

theorem holdMods_safety (l : List Nat) (s : State) {w : Nat} (hw : w ∈ l) : ((holdMods l s).pwrMod w).safety = true := by
  refine foldl_establishes_under (fun _ => True) (fun a => (a.pwrMod w).safety = true)
    (fun a w => a.setPwrMod w { a.pwrMod w with safety := true }) w (fun _ _ _ => trivial) (fun a _ => ?_) (fun a x _ ha => ?_)
    l s trivial hw
  · rw [setPwrMod_self]
  · by_cases hx : w = x
    · rw [hx, setPwrMod_self]
    · rw [setPwrMod_ne _ _ hx]
      exact ha

theorem holdMods_keeps {γ : Type} (v : State → γ) (hset : ∀ a w p, v (State.setPwrMod a w p) = v a) (l : List Nat) (s : State) :
    v (holdMods l s) = v s :=
  foldl_keeps v (fun a w => a.setPwrMod w { a.pwrMod w with safety := true }) (fun _ _ => hset ..) l s

/-- A tray lost under a safety action: its contactor is open, and its modules are held off and out by the cause. -/
theorem loseTray_holdMods (t cause : Nat) (s : State) : ((loseTray t cause (holdMods (trayMods t) s)).tray t).contactor = false ∧
    ∀ w ∈ trayMods t, ((loseTray t cause (holdMods (trayMods t) s)).pwrMod w).safety = true ∧
      (s.modServing w = true → ((loseTray t cause (holdMods (trayMods t) s)).mod w).lostBy cause) := by
  refine ⟨by rw [loseTray_tray_self], fun w hw => ⟨?_, fun hserving => loseTray_lostBy _ _ _ hw ?_⟩⟩
  · have horders := loseTray_orders t cause (holdMods (trayMods t) s) w
    have hsafety : ((loseTray t cause (holdMods (trayMods t) s)).pwrMod w).safety =
        ((holdMods (trayMods t) s).pwrMod w).safety := congrArg (·.2.2.2.1) horders
    rw [hsafety, holdMods_safety _ _ hw]
  · exact (holdMods_keeps (fun a => a.modServing w) (fun _ _ _ => rfl) _ s).trans hserving

theorem lostBy_fields {m : Mod} {cause : Nat} (h : m.lostBy cause) :
    m.state = 2 ∧ m.stage = 15 ∧ m.cause = BitVec.ofNat 4 cause :=
  ⟨congrArg (·.1) h, congrArg (·.2.1) h, congrArg (·.2.2) h⟩

theorem runs_trayUndervoltage {s : State} (u : Fin 17) (h : (s.tray u.val).contactor = true) : Runs (.trayUndervoltage u) s (fun t =>
    (t.tray u.val).contactor = false ∧ ∀ w ∈ trayMods u.val, (t.pwrMod w).safety = true ∧
      (s.modServing w = true → (t.mod w).state = 2 ∧ (t.mod w).stage = 15 ∧ (t.mod w).cause = 3)) := by
  refine ⟨_, exec_trayUndervoltage u s, ?_⟩
  rw [undervolt, if_pos h]
  obtain ⟨hopen, hmods⟩ := loseTray_holdMods u.val 3 s
  exact ⟨hopen, fun w hw => ⟨(hmods w hw).1, fun hserving => lostBy_fields ((hmods w hw).2 hserving)⟩⟩

/-! ### The hold-up battery (R736, R752) -/

theorem charge_beq_zero (c : BitVec 7) : (min 100 c.toNat == 0) = decide (c = 0) := by
  rw [Bool.eq_iff_iff, beq_iff_eq, decide_eq_true_eq, ← BitVec.toNat_inj]
  simp only [BitVec.ofNat_eq_ofNat, BitVec.toNat_ofNat]
  omega

theorem setBattery_storeLost (c : BitVec 7) (s : State) : (setBattery c.toNat s).keys.storeLost = true ↔
    s.keys.storeLost = true ∨ (c = 0 ∧ s.boot.powered = false) := by
  show (s.keys.storeLost || (min 100 c.toNat == 0 && !s.boot.powered)) = true ↔ _
  rw [charge_beq_zero]
  simp

/-- A charge below 20 % with the rack powered is told where it has not been. -/
theorem batteryLow_cases (c : BitVec 7) (s : State) :
    (20 ≤ c.toNat → batteryLow c.toNat s = { setBattery c.toNat s with keys := { (setBattery c.toNat s).keys with battTold := false } }) ∧
    (c.toNat < 20 → s.keys.battTold = true ∨ s.boot.powered = false → batteryLow c.toNat s = setBattery c.toNat s) ∧
    (c.toNat < 20 → s.keys.battTold = false → s.boot.powered = true → batteryLow c.toNat s = machineEvent 0x0802 0 4 none 0 0
      { setBattery c.toNat s with keys := { (setBattery c.toNat s).keys with battTold := true } }) := by
  have hcharge : 20 ≤ (setBattery c.toNat s).pwr.battery ↔ 20 ≤ c.toNat := by
    show 20 ≤ min 100 c.toNat ↔ _
    omega
  unfold batteryLow
  dsimp only
  refine ⟨fun h => if_pos (hcharge.mpr h), fun h hquiet => ?_, fun h htold hpower => ?_⟩
  · rw [if_neg (fun hc => Nat.not_le.mpr h (hcharge.mp hc)), if_pos]
    show (s.keys.battTold || !s.boot.powered) = true
    rcases hquiet with h | h <;> simp [h]
  · rw [if_neg (fun hc => Nat.not_le.mpr h (hcharge.mp hc)), if_neg]
    show ¬(s.keys.battTold || !s.boot.powered) = true
    simp [htold, hpower]

theorem runs_batteryLow (s : State) (c : BitVec 7) : Runs (.batteryLow c) s (fun t =>
    t = { told s t with pwr := { (told s t).pwr with battery := min 100 c.toNat }, keys := { s.keys with
      battTold := t.keys.battTold, storeLost := t.keys.storeLost } } ∧
    (t.keys.storeLost = true ↔ s.keys.storeLost = true ∨ (c = 0 ∧ s.boot.powered = false)) ∧
    (c.toNat < 20 → s.boot.powered = true → t.keys.battTold = true) ∧
    (c.toNat < 20 → s.keys.battTold = true → t.out = s.out ∧ t.mevHeld = s.mevHeld) ∧
    (20 ≤ c.toNat → t.keys.battTold = false)) := by
  refine ⟨_, exec_batteryLow c s, ?_⟩
  obtain ⟨hhigh, hquiet, htell⟩ := batteryLow_cases c s
  have hlost := setBattery_storeLost c s
  rcases Nat.lt_or_ge c.toNat 20 with hlow | hge
  · by_cases hq : s.keys.battTold = true ∨ s.boot.powered = false
    · rw [hquiet hlow hq]
      refine ⟨rfl, hlost, fun _ hpower => ?_, fun _ _ => ⟨rfl, rfl⟩, fun h => absurd h (Nat.not_le.mpr hlow)⟩
      exact hq.resolve_right (by rw [hpower]; exact Bool.noConfusion)
    · obtain ⟨hnot, hpower⟩ := not_or.mp hq
      rw [htell hlow (Bool.eq_false_iff.mpr hnot) (by simpa using hpower)]
      have htold := machineEvent_told 0x0802 0 4 none 0 0
        { setBattery c.toNat s with keys := { (setBattery c.toNat s).keys with battTold := true } }
      generalize machineEvent 0x0802 0 4 none 0 0 _ = t at htold
      have hkeys : t.keys = { (setBattery c.toNat s).keys with battTold := true } := by
        rw [htold]
        rfl
      refine ⟨?_, by rw [hkeys]; exact hlost, fun _ _ => by rw [hkeys], fun _ htrue => absurd htrue hnot,
        fun h => absurd h (Nat.not_le.mpr hlow)⟩
      rw [htold]
      rfl
  · rw [hhigh hge]
    exact ⟨rfl, hlost, fun h => absurd h (Nat.not_lt.mpr hge), fun h => absurd h (Nat.not_lt.mpr hge), fun _ => rfl⟩

/-- Settles O48: a sample's event writes none of power; the log's and the trays' ends of a power-down write neither the items nor
the store; the commit writes the items one by one; an undervoltage is a tray's loss under a safety action. -/
theorem sagLevelsHoldAndBattery : Obligations.SagLevelsHoldAndBattery := by
  unfold Obligations.SagLevelsHoldAndBattery
  refine ⟨fun s mv hpower => runs_sagSample s mv hpower, fun s hpower hbelow hlong => runs_holdTimerExpiry hpower hbelow hlong,
    fun s u h => runs_trayUndervoltage u h, fun s => ⟨fun hsag => runs_deferredWriteCommit hsag, fun hsag =>
      ⟨_, exec_deferredWriteCommit s, if_neg hsag⟩⟩,
    fun s c => ⟨⟨_, exec_battLowCondition c s, rfl, setBattery_storeLost c s⟩, runs_batteryLow s c⟩⟩

end Sys2Proof.Machine
end

section
/-! PROOFS. The stewards' log and the console (O52). -/

namespace Sys2Proof.Machine

open Sys2Proof

/-! ### What a record of the log is no part of -/

/-- A channel without its records. -/
def Stew.still (x : Stew) : Stew := { x with lsn := 0, copy := [], inbox := [], deferred := [], gap := 0 }

/-- The stewards but for the records of the channels and the dropped ones of the RAM ring; and each channel without its records. -/
def State.stewView (s : State) : Stw × (Nat → Stew) :=
  ({ s.stw with chans := [], ram := [], ramLost := 0 }, fun d => (s.stew d).still)

section
variable {s t : State} (h : t.stewView = s.stewView)
include h

theorem stewView_still (d : Nat) : (t.stew d).still = (s.stew d).still := congrFun (congrArg Prod.snd h) d
theorem stewView_st (d : Nat) : (t.stew d).st = (s.stew d).st := (congrArg Stew.st (stewView_still h d) :)
theorem stewView_copyOk (d : Nat) : (t.stew d).copyOk = (s.stew d).copyOk := (congrArg Stew.copyOk (stewView_still h d) :)
theorem stewView_lastGood (d : Nat) : (t.stew d).lastGood = (s.stew d).lastGood := (congrArg Stew.lastGood (stewView_still h d) :)
theorem stewView_gaps : t.stw.gaps = s.stw.gaps := (congrArg (fun v => v.1.gaps) h :)
theorem stewView_unavail : t.stw.unavail = s.stw.unavail := (congrArg (fun v => v.1.unavail) h :)
theorem stewView_words : t.stw.words = s.stw.words := (congrArg (fun v => v.1.words) h :)
theorem stewView_spokes : t.stw.spokes = s.stw.spokes := (congrArg (fun v => v.1.spokes) h :)
theorem stewView_cool : t.stw.cool = s.stw.cool := (congrArg (fun v => v.1.cool) h :)
theorem stewView_epoch : t.stw.epoch = s.stw.epoch := (congrArg (fun v => v.1.epoch) h :)

end

theorem setStew_stewView {s : State} {c : Nat} {x : Stew} (h : x.still = (s.stew c).still) : (s.setStew c x).stewView = s.stewView := by
  refine Prod.ext rfl (funext fun d => ?_)
  show ((s.setStew c x).stew d).still = _
  by_cases hd : d = c
  · rw [hd, setStew_self, h]
    rfl
  · rw [setStew_ne _ _ hd]
    rfl

theorem setStew_stewView_congr {s : State} {c : Nat} {x y : Stew} (h : x.still = y.still) :
    (s.setStew c x).stewView = (s.setStew c y).stewView := by
  refine Prod.ext rfl (funext fun d => ?_)
  show ((s.setStew c x).stew d).still = ((s.setStew c y).stew d).still
  by_cases hd : d = c
  · rw [hd, setStew_self, setStew_self, h]
  · rw [setStew_ne _ _ hd, setStew_ne _ _ hd]

theorem takeRec_stewView (c : Nat) (r : LogRec) (s : State) : (takeRec c r s).stewView = s.stewView := by
  unfold takeRec
  dsimp only
  have hcopy : ∀ (x : Stew) l, { x with copy := l }.still = x.still := fun _ _ => rfl
  have hdeferred : ∀ (x : Stew) l, { x with deferred := l }.still = x.still := fun _ _ => rfl
  have hgap : ∀ (x : Stew) n, { x with gap := n }.still = x.still := fun _ _ => rfl
  have hdropped : ∀ (a : State) n, { a with pwr := { s.pwr with dropped := n } }.stewView = a.stewView := fun _ _ => rfl
  split
  · rfl
  · split
    · exact setStew_stewView (hcopy ..)
    · split
      · exact setStew_stewView (hdeferred ..)
      · exact (hdropped ..).trans (setStew_stewView (hgap ..))

theorem addRam_stewView (r : LogRec) (s : State) : (addRam r s).stewView = s.stewView := by
  have h : ∀ (l : List LogRec) (n : Nat), { s with stw := { s.stw with ram := l, ramLost := n } }.stewView = s.stewView :=
    fun _ _ => rfl
  exact h _ _

/-- A record goes to a channel over the strait. -/
def sendRec (r : LogRec) (s : State) (d : Nat) : State := s.setStew d { s.stew d with inbox := (s.stew d).inbox ++ [r] }

theorem sendRec_stewView (r : LogRec) (s : State) (d : Nat) : (sendRec r s d).stewView = s.stewView := by
  have hinbox : ∀ (x : Stew) l, { x with inbox := l }.still = x.still := fun _ _ => rfl
  exact setStew_stewView (hinbox ..)

theorem logAdd_stewView (c k p : Nat) (a : DWord) (b : Word) (d : List Nat) (s : State) :
    (logAdd c k p a b d s).stewView = s.stewView := by
  have hlsn : ∀ (a : State) c n, (a.setStew c { a.stew c with lsn := n }).stewView = a.stewView :=
    fun a c n => setStew_stewView rfl
  unfold logAdd
  dsimp only
  split
  · rfl
  · split
    · exact (addRam_stewView ..).trans (hlsn ..)
    · refine (foldl_keeps State.stewView (sendRec _) (sendRec_stewView _) _ _).trans ((takeRec_stewView ..).trans (hlsn ..))

/-- While the log is available no record enters the RAM ring. -/
theorem takeRec_ram (c : Nat) (r : LogRec) (s : State) : (takeRec c r s).stw.ram = s.stw.ram := by
  unfold takeRec
  dsimp only
  split
  · rfl
  · split
    · rfl
    · split <;> rfl

theorem logAdd_ram (c k p : Nat) (a : DWord) (b : Word) (d : List Nat) {s : State} (h : s.stw.unavail = false) :
    (logAdd c k p a b d s).stw.ram = s.stw.ram := by
  unfold logAdd
  dsimp only
  split
  · rfl
  · rw [h, if_neg Bool.false_ne_true]
    refine (foldl_keeps (fun a => a.stw.ram) (sendRec _) (fun _ _ => rfl) _ _).trans ?_
    exact takeRec_ram ..

theorem holdEvent_stw (n : Nat) (e : Event) (s : State) : (holdEvent n e s).stw = s.stw := by
  unfold holdEvent
  dsimp only
  split <;> rfl

theorem deliver_stw (n : Nat) (e : Event) (s : State) : (deliver n e s).stw = s.stw := by
  unfold deliver
  dsimp only
  split
  · rfl
  · split
    · rfl
    · exact holdEvent_stw ..

theorem holdMachine_stw (e : Event) (s : State) : (holdMachine e s).stw = s.stw := by
  unfold holdMachine
  split <;> rfl

/-- Of the stewards, an event changes what its log record changes. -/
theorem machineEvent_stw (c n d : Nat) (p : Option (BitVec 6)) (a : DWord) (b : Word) (s : State) :
    (machineEvent c n d p a b s).stw = (logAdd 0 c (eventPlace c d) a b [d] s).stw := by
  unfold machineEvent
  dsimp only
  split
  · split
    · exact deliver_stw ..
    · exact holdMachine_stw ..
  · exact holdMachine_stw ..

theorem stewView_of_stw {s t : State} (h : t.stw = s.stw) : t.stewView = s.stewView := by
  exact congrArg (fun w : Stw => ({ w with chans := [], ram := [], ramLost := 0 }, fun d => (tget ({} : Stew) d w.chans).still)) h

theorem machineEvent_stewView (c n d : Nat) (p : Option (BitVec 6)) (a : DWord) (b : Word) (s : State) :
    (machineEvent c n d p a b s).stewView = s.stewView :=
  (stewView_of_stw (machineEvent_stw ..)).trans (logAdd_stewView ..)

theorem machineEvent_ram (c n d : Nat) (p : Option (BitVec 6)) (a : DWord) (b : Word) {s : State} (h : s.stw.unavail = false) :
    (machineEvent c n d p a b s).stw.ram = s.stw.ram := by
  rw [machineEvent_stw, logAdd_ram _ _ _ _ _ _ h]

/-! ### Appending (R589, R670) -/

section
variable (c : Fin 3) (s : State)

theorem exec_logRecordAppend : exec (.logRecordAppend c) s = .next (appendRec c.val s) := rfl

theorem exec_logCopyFailed : exec (.logCopyFailed c) s = .next (copyFails c.val s) := rfl

theorem exec_logCopyRebuilt : exec (.logCopyRebuilt c) s = .next (copyRebuilt c.val s) := rfl

end

theorem appendRec_takes {c : Nat} {s : State} {r : LogRec} {rest : List LogRec} (h : (s.stew c).inbox = r :: rest) :
    appendRec c s = takeRec c r (s.setStew c { s.stew c with inbox := rest }) := by
  rw [appendRec, h]

/-- A channel whose copy works takes a record into it while no sag defers writes. -/
theorem takeRec_copies {c : Nat} {s : State} (r : LogRec) (hok : (s.stew c).copyOk = true) (hsag : s.pwr.sag = 0)
    (hnone : (s.stew c).deferred = []) : takeRec c r s = s.setStew c { s.stew c with copy := addCopy r (s.stew c).copy } := by
  simp [takeRec, hok, hsag, hnone]

theorem takeRec_defers {c : Nat} {s : State} (r : LogRec) (hok : (s.stew c).copyOk = true) (hsag : s.pwr.sag ≠ 0)
    (hroom : (s.stew c).deferred.length < 4096) :
    takeRec c r s = s.setStew c { s.stew c with deferred := (s.stew c).deferred ++ [r] } := by
  simp [takeRec, hok, hsag, hroom]

theorem setStew_twice_ne (s : State) (c : Nat) (x y : Stew) {d : Nat} (h : d ≠ c) : ((s.setStew c x).setStew c y).stew d = s.stew d := by
  rw [setStew_ne _ _ h, setStew_ne _ _ h]

theorem runs_logRecordAppend {c : Fin 3} {s : State} {r : LogRec} {rest : List LogRec} (h : (s.stew c.val).inbox = r :: rest)
    (hok : (s.stew c.val).copyOk = true) :
    (s.pwr.sag = 0 → (s.stew c.val).deferred = [] → Runs (.logRecordAppend c) s (fun t =>
      t.stew c.val = { s.stew c.val with inbox := rest, copy := addCopy r (s.stew c.val).copy } ∧
      ∀ d, d ≠ c.val → t.stew d = s.stew d)) ∧
    (s.pwr.sag ≠ 0 → (s.stew c.val).deferred.length < 4096 → Runs (.logRecordAppend c) s (fun t =>
      t.stew c.val = { s.stew c.val with inbox := rest, deferred := (s.stew c.val).deferred ++ [r] } ∧
      ∀ d, d ≠ c.val → t.stew d = s.stew d)) := by
  have hself := setStew_self s c.val { s.stew c.val with inbox := rest }
  have hsag' : (s.setStew c.val { s.stew c.val with inbox := rest }).pwr.sag = s.pwr.sag := rfl
  refine ⟨fun hsag hnone => ⟨_, exec_logRecordAppend c s, ?_⟩, fun hsag hroom => ⟨_, exec_logRecordAppend c s, ?_⟩⟩
  · rw [appendRec_takes h, takeRec_copies r (by rw [hself]; exact hok) (hsag'.trans hsag) (by rw [hself]; exact hnone), hself]
    exact ⟨setStew_self .., fun d hd => setStew_twice_ne s c.val _ _ hd⟩
  · rw [appendRec_takes h, takeRec_defers r (by rw [hself]; exact hok) (hsag'.trans_ne hsag) (by rw [hself]; exact hroom), hself]
    exact ⟨setStew_self .., fun d hd => setStew_twice_ne s c.val _ _ hd⟩

/-! ### Copies that fail (R671, R672, R684) -/

theorem copyFails_awaits {c : Nat} {s : State} (hok : (s.stew c).copyOk = true) (h : s.pwr.sag ≠ 0 ∨ (s.stew c).deferred ≠ []) :
    copyFails c s = s.setStew c { s.stew c with failDue := true } := by
  rcases h with h | h <;> simp [copyFails, hok, h]

theorem copyFails_fails {c : Nat} {s : State} (hok : (s.stew c).copyOk = true) (hsag : s.pwr.sag = 0)
    (hnone : (s.stew c).deferred = []) : copyFails c s = failCopy c s := by
  simp [copyFails, hok, hsag, hnone]

/-- A channel's record as its copy is marked failed. -/
def Stew.copyFailed (x : Stew) : Stew := { x with copyOk := false, lastGood := lastTb x.copy, failDue := false }

/-- Another channel's copy works. -/
def State.otherCopy (s : State) (c : Nat) : Bool := [0, 1, 2].any fun d => ((s.setStew c (s.stew c).copyFailed).stew d).copyOk

theorem otherCopy_true {s : State} {c d : Nat} (hd : d < 3) (hne : d ≠ c) (hok : (s.stew d).copyOk = true) : s.otherCopy c = true := by
  refine List.any_eq_true.mpr ⟨d, ?_, ?_⟩
  · have : d = 0 ∨ d = 1 ∨ d = 2 := by omega
    simpa using this
  · rw [setStew_ne _ _ hne]
    exact hok

theorem otherCopy_false {s : State} {c : Nat} (h : ∀ d, d < 3 → d ≠ c → (s.stew d).copyOk = false) : s.otherCopy c = false := by
  refine List.any_eq_false.mpr fun d hd => ?_
  by_cases hne : d = c
  · rw [hne, setStew_self]
    exact Bool.false_ne_true
  · rw [setStew_ne _ _ hne, h d (by simp at hd; omega) hne]
    exact Bool.false_ne_true

theorem failCopy_eq (c : Nat) (s : State) : failCopy c s = machineEvent 0x0605 0 (c + 4) none (w64 (lastTb (s.stew c).copy).toNat) 0
    (if s.otherCopy c then gapMarker c (lastTb (s.stew c).copy) 0 0
        (s.setStew c { (s.stew c).copyFailed with deferred := [], gap := 0 })
      else logLost c (s.setStew c (s.stew c).copyFailed)) := by
  unfold failCopy State.otherCopy Stew.copyFailed
  dsimp only
  split <;> rfl

/-- One gap more in the log. -/
def State.gapped (s : State) : State := { s with stw := { s.stw with gaps := s.stw.gaps + 1 } }

theorem gapMarker_stewView (c : Nat) (f l : DWord) (n : Nat) (s : State) : (gapMarker c f l n s).stewView = s.gapped.stewView :=
  logAdd_stewView ..

theorem gapMarker_ram (c : Nat) (f l : DWord) (n : Nat) {s : State} (h : s.stw.unavail = false) :
    (gapMarker c f l n s).stw.ram = s.stw.ram := logAdd_ram (s := s.gapped) _ _ _ _ _ _ h

/-- The stewards with every last-words register written, the log unavailable. -/
theorem logLost_stewView (c : Nat) (s : State) :
    (logLost c s).stw.unavail = true ∧ (∀ d, ((logLost c s).stew d).copyOk = (s.stew d).copyOk ∧
      ((logLost c s).stew d).lastGood = (s.stew d).lastGood) ∧
    (logLost c s).stw.words = (writeWords 0 { s with stw := { s.stw with unavail := true, ram := [], ramLost := 0 } }).stw.words := by
  have hclear : ∀ (x : Stew), ({ x with deferred := [], gap := 0, inbox := [] } : Stew).still = x.still := fun _ => rfl
  have hview : (logLost c s).stewView =
      (writeWords 0 { s with stw := { s.stw with unavail := true, ram := [], ramLost := 0 } }).stewView := by
    refine (machineEvent_stewView ..).trans ?_
    refine (foldl_keeps State.stewView (fun a r => addRam r a) (fun a r => addRam_stewView r a) _ _).trans ?_
    exact foldl_keeps State.stewView (fun a d => a.setStew d { a.stew d with deferred := [], gap := 0, inbox := [] })
      (fun a d => setStew_stewView (hclear _)) [0, 1, 2] _
  exact ⟨stewView_unavail hview, fun d => ⟨stewView_copyOk hview d, stewView_lastGood hview d⟩, stewView_words hview⟩

/-- Every last-words register of a list holds a record once they have been written. -/
theorem foldl_words (x : LogRec) (l : List Nat) (w : Tab (Option LogRec)) {u : Nat} (hu : u ∈ l ∨ tget none u w ≠ none) :
    tget none u (l.foldl (fun a t => tset none t (some x) a) w) ≠ none := by
  induction l generalizing w with
  | nil => exact hu.resolve_left (List.not_mem_nil)
  | cons t l ih =>
    refine ih _ ?_
    by_cases ht : u = t
    · refine Or.inr ?_
      rw [ht, tget_tset_self]
      exact Option.some_ne_none x
    · rw [tget_tset_ne _ _ _ ht]
      exact hu.imp (fun h => (List.mem_cons.mp h).resolve_left ht) id

theorem writeWords_words (n : Nat) (s : State) {u : Nat} (hu : u < 18) : tget none u (writeWords n s).stw.words ≠ none := by
  have hmem : u ∈ List.range 18 := List.mem_range.mpr hu
  unfold writeWords
  generalize List.range 18 = l at hmem
  generalize lastWord s n = x
  exact foldl_words x l s.stw.words (Or.inl hmem)

theorem copyFailed_still (x : Stew) : ({ x.copyFailed with deferred := [], gap := 0 } : Stew).still = x.copyFailed.still := rfl

/-- A copy marked failed: it alone, one gap marker where another works, and an unavailable log where none does. -/
theorem failCopy_stews (c : Nat) (s : State) :
    (∀ d, ((failCopy c s).stew d).copyOk = ((s.setStew c (s.stew c).copyFailed).stew d).copyOk ∧
      ((failCopy c s).stew d).lastGood = ((s.setStew c (s.stew c).copyFailed).stew d).lastGood) ∧
    (s.otherCopy c = true → (failCopy c s).stw.gaps = s.stw.gaps + 1 ∧ (failCopy c s).stw.unavail = s.stw.unavail) ∧
    (s.otherCopy c = false → (failCopy c s).stw.unavail = true ∧ ∀ u, u < 18 → tget none u (failCopy c s).stw.words ≠ none) := by
  rw [failCopy_eq]
  cases hother : s.otherCopy c with
  | true =>
    rw [if_pos rfl]
    set u := s.setStew c { (s.stew c).copyFailed with deferred := [], gap := 0 }
    have hview : (machineEvent 0x0605 0 (c + 4) none (w64 (lastTb (s.stew c).copy).toNat) 0
        (gapMarker c (lastTb (s.stew c).copy) 0 0 u)).stewView = u.gapped.stewView :=
      (machineEvent_stewView ..).trans (gapMarker_stewView ..)
    have hset : u.stewView = (s.setStew c (s.stew c).copyFailed).stewView := setStew_stewView_congr (copyFailed_still _)
    exact ⟨fun d => ⟨(stewView_copyOk hview d).trans (stewView_copyOk hset d),
      (stewView_lastGood hview d).trans (stewView_lastGood hset d)⟩, fun _ => ⟨(stewView_gaps hview).trans rfl, (stewView_unavail hview).trans rfl⟩,
      fun h => Bool.noConfusion h⟩
  | false =>
    rw [if_neg Bool.false_ne_true]
    have hview := machineEvent_stewView 0x0605 0 (c + 4) none (w64 (lastTb (s.stew c).copy).toNat) 0
      (logLost c (s.setStew c (s.stew c).copyFailed))
    obtain ⟨hunavail, hstews, hwords⟩ := logLost_stewView c (s.setStew c (s.stew c).copyFailed)
    refine ⟨fun d => ⟨(stewView_copyOk hview d).trans (hstews d).1, (stewView_lastGood hview d).trans (hstews d).2⟩,
      fun h => Bool.noConfusion h, fun _ => ⟨(stewView_unavail hview).trans hunavail, fun u hu => ?_⟩⟩
    rw [stewView_words hview, hwords]
    exact writeWords_words _ _ hu

theorem runs_logCopyFailed {c : Fin 3} {s : State} (hok : (s.stew c.val).copyOk = true) (hsag : s.pwr.sag = 0)
    (hnone : (s.stew c.val).deferred = []) : Runs (.logCopyFailed c) s (fun t => (t.stew c.val).copyOk = false ∧
      (t.stew c.val).lastGood = lastTb (s.stew c.val).copy ∧ (∀ d, d ≠ c.val → (t.stew d).copyOk = (s.stew d).copyOk) ∧
      ((∃ d, d < 3 ∧ d ≠ c.val ∧ (s.stew d).copyOk = true) → t.stw.gaps = s.stw.gaps + 1 ∧ t.stw.unavail = s.stw.unavail) ∧
      ((∀ d, d < 3 → d ≠ c.val → (s.stew d).copyOk = false) →
        t.stw.unavail = true ∧ ∀ u, u < 18 → tget none u t.stw.words ≠ none)) := by
  refine ⟨_, exec_logCopyFailed c s, ?_⟩
  rw [copyFails_fails hok hsag hnone]
  obtain ⟨hstews, hsome, hlost⟩ := failCopy_stews c.val s
  refine ⟨?_, ?_, fun d hd => ?_, fun ⟨d, hd, hne, hworks⟩ => hsome (otherCopy_true hd hne hworks),
    fun hall => hlost (otherCopy_false hall)⟩
  · rw [(hstews c.val).1, setStew_self]
    rfl
  · rw [(hstews c.val).2, setStew_self]
    rfl
  · rw [(hstews d).1, setStew_ne _ _ hd]

/-! ### A copy rebuilt (R671, R672) -/

/-- The state in which a repaired copy has taken the RAM ring, the log being available again. -/
def State.logBack (s : State) (c : Nat) (x : Stew) : State :=
  { s.setStew c x with stw := { (s.setStew c x).stw with unavail := false, ram := [], ramLost := 0, gaps := s.stw.gaps + 1 } }

theorem restoreLog_eq (c : Nat) (s : State) : ∃ x n, x.copyOk = true ∧
    restoreLog c s = machineEvent 0x0606 0 0 none 0 n (s.logBack c x) := ⟨_, _, rfl, rfl⟩

/-- What a rebuilt copy brings: it works, the log is available, and the RAM ring is emptied where it was in use. -/
structure Rebuilt (c : Nat) (s t : State) : Prop where
  works : (t.stew c).copyOk = true
  avail : t.stw.unavail = false
  emptied : s.stw.unavail = true → t.stw.ram = [] ∧ t.stw.gaps = s.stw.gaps + 1
  kept : s.stw.unavail = false → t.stw.ram = s.stw.ram

theorem Rebuilt.told {c : Nat} {s t : State} (h : Rebuilt c s t) (k n d : Nat) (p : Option (BitVec 6)) (a : DWord) (b : Word) :
    Rebuilt c s (machineEvent k n d p a b t) := by
  have hview := machineEvent_stewView k n d p a b t
  have hram := machineEvent_ram k n d p a b h.avail
  exact ⟨(stewView_copyOk hview c).trans h.works, (stewView_unavail hview).trans h.avail,
    fun hun => ⟨hram.trans (h.emptied hun).1, (stewView_gaps hview).trans (h.emptied hun).2⟩,
    fun hav => hram.trans (h.kept hav)⟩

theorem logBack_rebuilt {c : Nat} {s : State} {x : Stew} (hx : x.copyOk = true) (hun : s.stw.unavail = true) :
    Rebuilt c s (s.logBack c x) := by
  refine ⟨?_, rfl, fun _ => ⟨rfl, rfl⟩, fun hav => ?_⟩
  · have hself : (s.logBack c x).stew c = x := setStew_self s c x
    rw [hself, hx]
  · rw [hun] at hav
    exact Bool.noConfusion hav

/-- From a peer, with a gap marker, or alone. -/
theorem setStew_rebuilt {c : Nat} {s : State} {x : Stew} (hx : x.copyOk = true) (hav : s.stw.unavail = false) (f l : DWord) :
    Rebuilt c s (s.setStew c x) ∧ Rebuilt c s (gapMarker c f l 0 (s.setStew c x)) := by
  have hun : s.stw.unavail ≠ true := by rw [hav]; exact Bool.false_ne_true
  refine ⟨⟨by rw [setStew_self, hx], hav, fun h => absurd h hun, fun _ => rfl⟩, ⟨?_, ?_, fun h => absurd h hun, fun _ => ?_⟩⟩
  · refine (stewView_copyOk (gapMarker_stewView c f l 0 (s.setStew c x)) c).trans ?_
    have hself : (s.setStew c x).gapped.stew c = x := setStew_self s c x
    rw [hself, hx]
  · exact (stewView_unavail (gapMarker_stewView c f l 0 (s.setStew c x))).trans hav
  · exact gapMarker_ram c f l 0 (s := s.setStew c x) hav

theorem runs_logCopyRebuilt {c : Fin 3} {s : State} (hbad : (s.stew c.val).copyOk = false) :
    Runs (.logCopyRebuilt c) s (Rebuilt c.val s) := by
  refine ⟨_, exec_logCopyRebuilt c s, ?_⟩
  unfold copyRebuilt
  dsimp only
  rw [hbad, if_neg Bool.false_ne_true]
  refine Rebuilt.told ?_ ..
  split
  next hun =>
    obtain ⟨x, n, hx, heq⟩ := restoreLog_eq c.val s
    rw [heq]
    exact (logBack_rebuilt hx hun).told ..
  next hav =>
    rw [Bool.not_eq_true] at hav
    split
    · exact (setStew_rebuilt rfl hav _ _).2
    · exact (setStew_rebuilt rfl hav 0 0).1

/-! ### The console (R666) -/

theorem exec_consoleStatus (a : Nat) (s : State) : exec (.consoleStatus a) s = .next (consoleCmd a 0
    ([0, 1, 2].map (fun c => (s.stew c).st.toNat) ++
      [s.stw.spokes, s.stw.cool, s.stw.epoch.toNat, s.boot.stage, s.boot.st.toNat] ++ s.allCodes) s) := rfl

theorem exec_consoleLog (a : Nat) (n : Option Nat) (s : State) : exec (.consoleLog a n) s = .next (consoleCmd a 1
    ((s.eventLog.drop (s.eventLog.length - n.getD 20)).map recNums).flatten s) := rfl

theorem exec_consoleLastwords (a : Nat) (s : State) : exec (.consoleLastwords a) s = .next (consoleCmd a 2
    (((List.range 18).map (fun t => (tget none t s.stw.words).elim [0] recNums)).flatten) s) := rfl

/-- A console command under a local account is answered once with its data, and recorded. -/
theorem consoleCmd_answers {a n : Nat} {body : List Nat} {s : State} (hserved : s.served = true)
    (haccount : s.stw.accounts.any (fun x => x.1 == a) = true) : ∃ t, consoleCmd a n body s = t ∧
      t = { logged s t with out := s.out ++ [.answer (2 ^ 32 + a) 0 body] } := by
  refine ⟨_, rfl, ?_⟩
  have heq : consoleCmd a n body s = emit (.answer (2 ^ 32 + a) 0 body) (logAdd 8 (16 + n) 17 (w64 a) 0 [] s) := by
    rw [consoleCmd, if_pos hserved, if_pos haccount]
    rfl
  rw [heq]
  have hlog := logAdd_logged 8 (16 + n) 17 (w64 a) 0 [] s
  generalize logAdd 8 (16 + n) 17 (w64 a) 0 [] s = u at hlog
  rw [hlog]
  rfl

theorem consoleCmd_refuses {a n : Nat} {body : List Nat} {s : State} (hserved : s.served = true)
    (haccount : s.stw.accounts.any (fun x => x.1 == a) = false) : consoleCmd a n body s = emit (.answer (2 ^ 32 + a) 1 []) s := by
  rw [consoleCmd, if_pos hserved, haccount]
  rfl

/-! ### The order of the log (R670) -/

theorem before_total (a b : LogRec) : a.before b = true ∨ b.before a = true := by
  simp only [LogRec.before, decide_eq_true_eq]
  bv_omega

theorem before_trans {a b c : LogRec} (h : a.before b = true) (g : b.before c = true) : a.before c = true := by
  simp only [LogRec.before, decide_eq_true_eq] at *
  bv_omega

theorem insertRec_eq (r : LogRec) (l : List LogRec) : insertRec r l = l.orderedInsert (fun a b => a.before b = true) r := by
  induction l with
  | nil => rfl
  | cons x l ih => rw [insertRec, List.orderedInsert_cons, ih]

/-- The EventLog is the copy of the channel that serves, or the RAM ring, sorted. -/
theorem eventLog_eq (s : State) : s.eventLog = (if s.stw.unavail then s.stw.ram else (s.stew s.stw.spokes).copy).insertionSort
    (fun a b => a.before b = true) := by
  unfold State.eventLog
  generalize (if s.stw.unavail then s.stw.ram else (s.stew s.stw.spokes).copy) = l
  induction l with
  | nil => rfl
  | cons x l ih => rw [List.foldr_cons, ih, insertRec_eq, List.insertionSort_cons]

theorem eventLog_ordered (s : State) : s.eventLog.Pairwise (fun a b => a.before b = true) := by
  have htotal : Std.Total (fun a b : LogRec => a.before b = true) := ⟨before_total⟩
  have htrans : IsTrans LogRec (fun a b => a.before b = true) := ⟨fun _ _ _ => before_trans⟩
  rw [eventLog_eq]
  exact List.pairwise_insertionSort ..

/-- Settles O52: a record moves in its own channel alone; a failed copy and a rebuilt one are told, and what is told writes neither
the copies' marks nor the gaps; a console command is recorded and answered once. -/
theorem logCopiesAndConsole : Obligations.LogCopiesAndConsole := by
  unfold Obligations.LogCopiesAndConsole
  refine ⟨fun s c => ?_, fun s a n hserved => ?_⟩
  · intro x others
    refine ⟨fun r rest h hok => runs_logRecordAppend h hok, fun hok h => ⟨_, exec_logCopyFailed c s, ?_⟩,
      fun hok hsag hnone => runs_logCopyFailed hok hsag hnone, fun hbad => ?_⟩
    · rw [copyFails_awaits hok h]
      exact ⟨setStew_self .., fun d hd => setStew_ne _ _ hd, rfl⟩
    · obtain ⟨t, ht, hworks, havail, hemptied, hkept⟩ := runs_logCopyRebuilt hbad
      exact ⟨t, ht, hworks, havail, hemptied, hkept⟩
  · intro l tells
    refine ⟨?_, eventLog_ordered s, fun haccount => ⟨?_, ?_, ?_⟩, fun haccount =>
      ⟨_, exec_consoleStatus a s, consoleCmd_refuses hserved haccount⟩⟩
    · show s.eventLog.Perm _
      rw [eventLog_eq]
      exact List.perm_insertionSort ..
    · obtain ⟨t, heq, ht⟩ := consoleCmd_answers hserved haccount
      exact ⟨t, (exec_consoleStatus a s).trans (congrArg Host.Outcome.next heq), ht⟩
    · obtain ⟨t, heq, ht⟩ := consoleCmd_answers hserved haccount
      exact ⟨t, (exec_consoleLog a n s).trans (congrArg Host.Outcome.next heq), ht⟩
    · obtain ⟨t, heq, ht⟩ := consoleCmd_answers hserved haccount
      exact ⟨t, (exec_consoleLastwords a s).trans (congrArg Host.Outcome.next heq), ht⟩

end Sys2Proof.Machine
end

section
/-! PROOFS. The Redfish service (O53). -/

namespace Sys2Proof.Machine

open Sys2Proof

/-! ### Commands -/

section
variable (s : State) (n a p : Nat) (utc : DWord)

theorem exec_redfishGet (row i : Nat) : exec (.redfishGet n row i) s = .next (redfishGet n row i s) := rfl

theorem exec_redfishSessionCreate : exec (.redfishSessionCreate a p) s = .next (sessionCreate a p s) := rfl

theorem exec_redfishStandardOperation (op : StdOp) : exec (.redfishStandardOperation n op) s = .next (stdOperation n op s) := rfl

theorem exec_datetimeSet : exec (.datetimeSet n utc) s = .next (dateTime n utc s) := rfl

theorem exec_ntpStep : exec (.ntpStep utc) s = .next (ntpStep utc s) := rfl

theorem exec_redfishSessionTimeout : exec (.redfishSessionTimeout n) s = .next (sessionExpiry n s) := rfl

end

theorem redfishGet_served {n row i : Nat} {s : State} (h : s.served = true) : redfishGet n row i s =
    (s.resource row i).elim (rfAnswer n 404 [] s) (fun b => rfAnswer n 200 b s) := by
  rw [redfishGet, if_pos h]
  split
  next b hb => rw [hb]; rfl
  next hb => rw [hb]; rfl

/-! ### What an answer keeps of the stewards -/

/-- The record of intent: the stewards beside the log's records and the ticks of sessions. -/
def Stw.intent (w : Stw) : Stw × List (Nat × Nat × Nat) :=
  ({ w with chans := [], ram := [], ramLost := 0, sessions := [] }, w.sessions.map (fun x => (x.id, x.account, x.role)))

theorem touchSession_intent (n : Nat) (s : State) : (touchSession n s).stw.intent = s.stw.intent := by
  refine Prod.ext rfl ?_
  show ((s.stw.sessions.map _).map _) = _
  rw [List.map_map]
  refine List.map_congr_left fun x _ => ?_
  dsimp only [Function.comp]
  split <;> rfl

theorem rfAnswer_intent (n c : Nat) (l : List Nat) (s : State) : (rfAnswer n c l s).stw.intent = s.stw.intent :=
  touchSession_intent n s

theorem logAdd_intent (c k p : Nat) (a : DWord) (b : Word) (d : List Nat) (s : State) :
    (logAdd c k p a b d s).stw.intent = s.stw.intent := by
  rw [logAdd_logged]
  rfl

section
variable {w v : Stw} (h : w.intent = v.intent)
include h

theorem intent_accounts : w.accounts = v.accounts := (congrArg (fun x => x.1.accounts) h :)
theorem intent_subs : w.subs = v.subs := (congrArg (fun x => x.1.subs) h :)
theorem intent_certs : w.certs = v.certs := (congrArg (fun x => x.1.certs) h :)
theorem intent_ntp : w.ntp = v.ntp := (congrArg (fun x => x.1.ntp) h :)
theorem intent_clock : w.clock = v.clock := (congrArg (fun x => x.1.clock) h :)
theorem intent_timeout : w.sessTimeout = v.sessTimeout := (congrArg (fun x => x.1.sessTimeout) h :)
theorem intent_nextSess : w.nextSess = v.nextSess := (congrArg (fun x => x.1.nextSess) h :)
theorem intent_sessions : w.sessions.map (fun x => (x.id, x.account, x.role)) =
    v.sessions.map (fun x => (x.id, x.account, x.role)) := congrArg Prod.snd h

end

/-! ### Sessions (R661) -/

/-- The record of intent with one session more. -/
def State.opened (s : State) (account role : Nat) : State := { s with stw := { s.stw with
  sessions := s.stw.sessions ++ [{ id := s.stw.nextSess, account := account, role := role, tick := s.win.tb }]
  nextSess := s.stw.nextSess + 1 } }

/-- The account whose credentials are given. -/
def State.credential (s : State) (account password : Nat) : Option (Nat × Nat × Nat) :=
  s.stw.accounts.find? (fun x => x.1 == account && x.2.1 == password)

section
variable {s : State} (a p : Nat) (hserved : s.served = true) (hmaj : s.majority = true)
include hserved hmaj

theorem sessionCreate_opens {x : Nat × Nat × Nat} (hit : s.credential a p = some x) (hroom : s.stw.sessions.length < 16) :
    sessionCreate a p s = rfAnswer s.stw.nextSess 201 [s.stw.nextSess]
      (logAdd 8 1 17 (w64 s.stw.nextSess) (w32 a) [] (s.opened a x.2.2)) := by
  rw [sessionCreate, rfWrite_served _ _ _ hserved hmaj]
  show (match s.credential a p with | none => _ | some x => _) = _
  rw [hit]
  exact if_neg (Nat.not_le.mpr hroom)

theorem sessionCreate_full {x : Nat × Nat × Nat} (hit : s.credential a p = some x) (hfull : 16 ≤ s.stw.sessions.length) :
    sessionCreate a p s = rfAnswer s.stw.nextSess 503 [] s := by
  rw [sessionCreate, rfWrite_served _ _ _ hserved hmaj]
  show (match s.credential a p with | none => _ | some x => _) = _
  rw [hit]
  exact if_pos hfull

theorem sessionCreate_unknown (hit : s.credential a p = none) : sessionCreate a p s = rfAnswer s.stw.nextSess 401 [] s := by
  rw [sessionCreate, rfWrite_served _ _ _ hserved hmaj]
  show (match s.credential a p with | none => _ | some x => _) = _
  rw [hit]

theorem runs_redfishSessionCreate {x : Nat × Nat × Nat} (hit : s.credential a p = some x) (hroom : s.stw.sessions.length < 16) :
    Runs (.redfishSessionCreate a p) s (fun t =>
      t.stw.sessions.length = s.stw.sessions.length + 1 ∧ t.stw.nextSess = s.stw.nextSess + 1 ∧
      (∃ y ∈ t.stw.sessions, y.id = s.stw.nextSess ∧ y.account = a ∧ y.role = x.2.2) ∧
      t.out = s.out ++ [.answer s.stw.nextSess 201 [s.stw.nextSess]] ∧ t.stw.accounts = s.stw.accounts) := by
  refine ⟨_, exec_redfishSessionCreate s a p, ?_⟩
  rw [sessionCreate_opens a p hserved hmaj hit hroom]
  have hlog := logAdd_logged 8 1 17 (w64 s.stw.nextSess) (w32 a) [] (s.opened a x.2.2)
  have hintent := (rfAnswer_intent s.stw.nextSess 201 [s.stw.nextSess] (logAdd 8 1 17 (w64 s.stw.nextSess) (w32 a) []
    (s.opened a x.2.2))).trans (logAdd_intent ..)
  have hsessions := intent_sessions hintent
  refine ⟨?_, (intent_nextSess hintent).trans rfl, ?_, ?_, (intent_accounts hintent).trans rfl⟩
  · have hlen := congrArg List.length hsessions
    rw [List.length_map, List.length_map] at hlen
    rw [hlen]
    exact List.length_append
  · have hmem : (s.stw.nextSess, a, x.2.2) ∈ (s.opened a x.2.2).stw.sessions.map (fun x => (x.id, x.account, x.role)) :=
      List.mem_map.mpr ⟨_, List.mem_append_right _ (List.mem_singleton_self _), rfl⟩
    rw [← hsessions] at hmem
    obtain ⟨y, hy, heq⟩ := List.mem_map.mp hmem
    exact ⟨y, hy, congrArg (·.1) heq, congrArg (·.2.1) heq, congrArg (·.2.2) heq⟩
  · show (logAdd 8 1 17 (w64 s.stw.nextSess) (w32 a) [] (s.opened a x.2.2)).out ++ _ = _
    rw [hlog]
    rfl

/-! ### Standard operations (R662) -/

/-- An operation that is accepted leaves the record of intent as it says, an answer 200. -/
theorem runs_stdOperation {op : StdOp} {w : Stw} (n : Nat) (hop : stdOp op s.stw = some w) :
    Runs (.redfishStandardOperation n op) s (fun t => t.stw.intent = w.intent) := by
  refine ⟨_, exec_redfishStandardOperation s n op, ?_⟩
  have heq : stdOperation n op s = rfAnswer n 200 [] (logAdd 8 2 17 (w64 n) 0 [] { s with stw := w }) := by
    rw [stdOperation, rfWrite_served _ _ _ hserved hmaj, hop]
  rw [heq]
  exact (rfAnswer_intent ..).trans (logAdd_intent ..)

end

/-! ### The clock (R664, R680) -/

theorem clockRec_stw (utc : DWord) (s : State) : (clockRec utc s).stw.clock = some (s.win.tb, utc) ∧ (clockRec utc s).win = s.win :=
  ⟨intent_clock (logAdd_intent 3 0 17 utc 0 [] { s with stw := { s.stw with clock := some (s.win.tb, utc) } }), logAdd_win ..⟩

theorem ntpStep_first {utc : DWord} {s : State} (h : s.stw.clock = none) : ntpStep utc s = clockRec utc s := by
  simp [ntpStep, State.wallNow, h]

theorem ntpStep_again {utc b u : DWord} {s : State} (h : s.stw.clock = some (b, u)) : ntpStep utc s =
    if 1000000000 < ((utc.toNat : Int) - ((u.toNat : Int) + ((s.win.tb.toNat : Int) - b.toNat) * 10)).natAbs then clockRec utc s
    else s := by
  rw [ntpStep, State.wallNow, h]
  rfl

theorem any_key {α : Type} {l : List α} {f : α → Nat} {a : Nat} (h : ∃ x ∈ l, f x = a) : l.any (fun x => f x == a) = true := by
  obtain ⟨x, hx, hfx⟩ := h
  exact List.any_eq_true.mpr ⟨x, hx, beq_iff_eq.mpr hfx⟩

theorem not_any_key {α : Type} {l : List α} {f : α → Nat} {a : Nat} (h : ∀ x ∈ l, f x ≠ a) :
    l.any (fun x => f x == a) = false :=
  List.any_eq_false.mpr fun x hx hbeq => h x hx (beq_iff_eq.mp hbeq)

/-- A session's number is still there where the record of intent says so. -/
theorem session_of_intent {w v : Stw} (h : w.intent = v.intent) {x : Session} (hx : x ∈ w.sessions) :
    ∃ y ∈ v.sessions, y.id = x.id := by
  have hmem : (x.id, x.account, x.role) ∈ w.sessions.map (fun x => (x.id, x.account, x.role)) := List.mem_map_of_mem hx
  rw [intent_sessions h] at hmem
  obtain ⟨y, hy, heq⟩ := List.mem_map.mp hmem
  exact ⟨y, hy, congrArg (·.1) heq⟩

theorem rfWrite_refused (n : Nat) (f : State → State) {s : State} (hserved : s.served = true) (hmaj : s.majority = false) :
    rfWrite n f s = rfAnswer n 503 [] s := by
  simp [rfWrite, hserved, hmaj]

/-! ### O53 -/

/-- Settles O53: an accepted operation is the record of intent it names, and answers, log records and touched sessions leave the
rest of that record. -/
theorem redfishServesAndRecords : Obligations.RedfishServesAndRecords := by
  unfold Obligations.RedfishServesAndRecords
  refine ⟨fun s n row i hserved => ⟨fun b hb => ⟨_, exec_redfishGet s n row i, ?_⟩, fun hnone => ⟨_, exec_redfishGet s n row i, ?_⟩⟩,
    fun s a p hserved hmaj => ?_, fun s n' a p r n d v c l utc hserved => ⟨fun hmaj => ?_, fun hmaj => ?_⟩, fun s utc n => ?_⟩
  · rw [redfishGet_served hserved, hb]
    rfl
  · rw [redfishGet_served hserved, hnone]
    rfl
  · intro k hit
    exact ⟨fun x hx hroom => runs_redfishSessionCreate a p hserved hmaj hx hroom,
      fun x hx hfull => ⟨_, exec_redfishSessionCreate s a p, sessionCreate_full a p hserved hmaj hx hfull⟩,
      fun hnone => ⟨_, exec_redfishSessionCreate s a p, sessionCreate_unknown a p hserved hmaj hnone⟩⟩
  · have hruns : ∀ {op : StdOp} {w : Stw} {P : State → Prop}, stdOp op s.stw = some w → (∀ t : State, t.stw.intent = w.intent → P t) →
        Runs (.redfishStandardOperation n' op) s P := fun hop hP => by
      obtain ⟨t, ht, hintent⟩ := runs_stdOperation hserved hmaj n' hop
      exact ⟨t, ht, hP t hintent⟩
    refine ⟨fun hnew hr => hruns (if_neg ?_) fun t ht => intent_accounts ht, fun hsome => hruns (if_pos ?_) fun t ht x => ?_,
      fun hsome => hruns (if_pos ?_) fun t ht x hx => ?_, fun hv => hruns (if_neg hv) fun t ht => intent_timeout ht,
      fun hroom hnew => hruns (if_neg ?_) fun t ht => intent_subs ht, fun hsome => hruns (if_pos ?_) fun t ht x hx => ?_,
      hruns rfl fun t ht => ?_, hruns rfl fun t ht => intent_ntp ht, ?_⟩
    · rw [not_any_key (f := Prod.fst) hnew]
      simp [hr]
    · exact any_key hsome
    · rw [intent_accounts ht]
      simp [List.mem_filter]
    · exact any_key hsome
    · obtain ⟨y, hy, hid⟩ := session_of_intent ht hx
      rw [← hid]
      simpa using (List.mem_filter.mp hy).2
    · rw [not_any_key (f := Prod.fst) hnew]
      simpa using hroom
    · exact any_key hsome
    · rw [intent_subs ht] at hx
      simpa using (List.mem_filter.mp hx).2
    · rw [intent_certs ht]
      exact List.mem_append_right _ (List.mem_singleton_self c)
    · refine ⟨_, exec_datetimeSet s n' utc, ?_⟩
      rw [dateTime, rfWrite_served _ _ _ hserved hmaj]
      exact ⟨(intent_clock (rfAnswer_intent ..)).trans (clockRec_stw utc s).1, (clockRec_stw utc s).2⟩
  · refine ⟨⟨_, exec_redfishStandardOperation .., rfWrite_refused _ _ hserved hmaj⟩,
      ⟨_, exec_datetimeSet .., rfWrite_refused _ _ hserved hmaj⟩⟩
  · refine ⟨fun hnone => ⟨_, exec_ntpStep s utc, ?_⟩, fun b u hclock => ?_, ⟨_, exec_redfishSessionTimeout s n, rfl, fun x => ?_⟩⟩
    · rw [ntpStep_first hnone]
      exact (clockRec_stw utc s).1
    · intro off
      refine ⟨fun hfar => ⟨_, exec_ntpStep s utc, ?_⟩, fun hnear => ⟨_, exec_ntpStep s utc, ?_⟩⟩
      · rw [ntpStep_again hclock, if_pos hfar]
        exact (clockRec_stw utc s).1
      · rw [ntpStep_again hclock, if_neg (Nat.not_lt.mpr hnear)]
    · show x ∈ s.stw.sessions.filter _ ↔ _
      simp [List.mem_filter, Decidable.imp_iff_not_or]

end Sys2Proof.Machine
end

section
/-! PROOFS. The stewards' roles and the wardens (O51). -/

namespace Sys2Proof.Machine

open Sys2Proof

/-! ### What roles, bring-up and joining trays are no part of -/

/-- The period last judged, and each channel without its records. -/
def State.pulse (s : State) : Nat × (Nat → Stew) := (s.stw.period, fun d => (s.stew d).still)

theorem pulse_of_stewView {s t : State} (h : t.stewView = s.stewView) : t.pulse = s.pulse :=
  Prod.ext (congrArg (fun v => v.1.period) h :) (congrArg Prod.snd h :)

theorem pulse_of_stw {s t : State} (h : t.stw = s.stw) : t.pulse = s.pulse := pulse_of_stewView (stewView_of_stw h)

section
variable {s t : State} (h : t.pulse = s.pulse)
include h

theorem pulse_period : t.stw.period = s.stw.period := congrArg Prod.fst h
theorem pulse_still (d : Nat) : (t.stew d).still = (s.stew d).still := congrFun (congrArg Prod.snd h) d

end

theorem machineEvent_pulse (c n d : Nat) (p : Option (BitVec 6)) (a : DWord) (b : Word) (s : State) :
    (machineEvent c n d p a b s).pulse = s.pulse := pulse_of_stewView (machineEvent_stewView ..)

theorem giveSpokes_pulse (n c : Nat) (s : State) : (giveSpokes n c s).pulse = s.pulse := (machineEvent_pulse ..).trans rfl

theorem giveCool_pulse (n c : Nat) (s : State) : (giveCool n c s).pulse = s.pulse := (machineEvent_pulse ..).trans rfl

theorem passRoles_pulse (c k : Nat) (s : State) : (passRoles c k s).pulse = s.pulse := by
  unfold passRoles
  dsimp only
  split <;> split <;> simp only [giveSpokes_pulse, giveCool_pulse]

/-- The roles but for the cooling authority's. -/
def State.seat (s : State) : Nat × Word := (s.stw.spokes, s.stw.epoch)

theorem seat_of_stewView {s t : State} (h : t.stewView = s.stewView) : t.seat = s.seat :=
  Prod.ext (stewView_spokes h) (stewView_epoch h)

theorem seat_of_stw {s t : State} (h : t.stw = s.stw) : t.seat = s.seat := seat_of_stewView (stewView_of_stw h)

theorem giveCool_seat (n c : Nat) (s : State) : (giveCool n c s).seat = s.seat :=
  (seat_of_stewView (machineEvent_stewView ..)).trans rfl

theorem giveSpokes_seat {n : Nat} (c : Nat) (s : State) (h : n < 3) : (giveSpokes n c s).seat = (n, s.stw.epoch + 1) := by
  refine (seat_of_stewView (machineEvent_stewView ..)).trans ?_
  show (n, if n < 3 then s.stw.epoch + 1 else s.stw.epoch) = _
  rw [if_pos h]

/-- A spokesman's role passes to its heir, the epoch counting one. -/
theorem passRoles_seat {c n : Nat} (k : Nat) {s : State} (hspokes : s.stw.spokes = c) (hheir : s.heir c = n) (hn : n < 3) :
    (passRoles c k s).seat = (n, s.stw.epoch + 1) := by
  unfold passRoles
  dsimp only
  rw [if_pos hspokes, hheir]
  split
  · rw [giveCool_seat, giveSpokes_seat k s hn]
  · exact giveSpokes_seat k s hn

theorem trialFail_stw {k : Nat} (h : k / 128 = 1) (s : State) : (trialFail k s).stw = s.stw := by
  rw [trialFail_eq, State.trialBack, h]
  split <;> rfl

theorem stewardTrial_stw {c : Nat} (hc : c < 3) (s : State) : (stewardTrial c s).stw = s.stw := by
  unfold stewardTrial
  split
  · exact trialFail_stw (by unfold instKey; omega) s
  · rfl

theorem report_stewView (n : Nat) (o : StageOut) (s : State) : (report n o s).stewView = s.stewView := logAdd_stewView ..

theorem lowerMod_stw (w : Nat) (s : State) : (lowerMod w s).stw = s.stw := by rw [lowerMod_frame]

theorem stopBoot_stw (n : Nat) (s : State) : (stopBoot n s).stw = s.stw := by
  unfold stopBoot
  dsimp only
  split
  · exact foldl_keeps State.stw (fun a w => lowerMod w a) (fun a w => lowerMod_stw w a) _ _
  · rfl

theorem bootLost_stewView (c : Nat) (s : State) : (bootLost c s).stewView = s.stewView := by
  unfold bootLost
  split
  · split
    · rfl
    · exact (stewView_of_stw (stopBoot_stw ..)).trans (report_stewView ..)
  · rfl

theorem joinInst_stewView (c i : Nat) (s : State) : (joinInst c i s).stewView = s.stewView := by
  unfold joinInst
  dsimp only
  split
  · rfl
  · exact (logAdd_stewView ..).trans rfl

theorem setSvc_stewView (t : Nat) (v : TraySvc) (s : State) : (setSvc t v s).stewView = s.stewView := by
  unfold setSvc
  split
  · rfl
  · exact (machineEvent_stewView ..).trans rfl

/-- One module of a joining tray rises where no order holds it off. -/
def joinMod (a : State) (w : Nat) : State :=
  if !(a.ordersOn w) || (a.mod w).state = 0 then a
  else match (a.pwrMod w).obj.st with
    | .off => if (a.pwrMod w).rising then a else startRise w a
    | .winding => a.setPwrMod w { a.pwrMod w with obj := { st := .winding, pending := true } }
    | .on => a

theorem joinMod_stw (a : State) (w : Nat) : (joinMod a w).stw = a.stw := by
  unfold joinMod
  split
  · rfl
  · split
    · split
      · rfl
      · rw [startRise_frame]
    · rfl
    · rfl

/-- The state of a joining tray before its modules rise, its contactor closed or not. -/
def State.joinTray (s : State) (t : Nat) (up : Bool) : State :=
  let s0 := if up && decide (t < 17) then s.setTtherm t { s.ttherm t with valve := 100 } else s
  setSvc t .joining (s0.setTray t { s0.tray t with contactor := up, strapsRead := up })

/-- A joining tray's contactor may close. -/
def State.mayJoin (s : State) (t : Nat) : Bool := !(s.heldOff t) && (s.majority || (s.tray t).contactor)

theorem startJoin_eq (t : Nat) (s : State) : startJoin t s =
    if !s.boot.powered || s.boot.st == 0 then setSvc t .joining (s.setTray t { s.tray t with contactor := false })
    else if !(s.mayJoin t) then s.joinTray t (s.mayJoin t) else (trayMods t).foldl joinMod (s.joinTray t (s.mayJoin t)) := rfl

theorem joinTray_stewView (s : State) (t : Nat) (up : Bool) : (s.joinTray t up).stewView = s.stewView := by
  unfold State.joinTray
  dsimp only
  rw [setSvc_stewView]
  split <;> rfl

theorem startJoin_stewView (t : Nat) (s : State) : (startJoin t s).stewView = s.stewView := by
  rw [startJoin_eq]
  split
  · exact (setSvc_stewView ..).trans rfl
  · split
    · exact joinTray_stewView ..
    · refine (foldl_keeps State.stewView joinMod (fun a w => stewView_of_stw (joinMod_stw a w)) _ _).trans ?_
      exact joinTray_stewView ..

theorem joinWaiting_stewView (s : State) : (joinWaiting s).stewView = s.stewView :=
  foldl_keeps State.stewView (fun a t => startJoin t a) (fun a t => startJoin_stewView t a) _ s

/-! ### One channel is judged (R653, R655, R656) -/

theorem setStew_pulse_ne (s : State) {c d : Nat} (x : Stew) (h : d ≠ c) : ((s.setStew c x).stew d).still = (s.stew d).still := by
  rw [setStew_ne _ _ h]

/-- A channel as it is declared failed. -/
def Stew.failed (x : Stew) : Stew := { x with
  st := 3, okE := 0, okS := 0, alarmE := false, alarmS := false, told := [], differs := [] }

theorem failChan_eq (c : Nat) (s : State) : failChan c s = bootLost c (stewardTrial c (passRoles c 1
    (machineEvent 0x0601 0 c none 0 s.stw.epoch (s.setStew c (s.stew c).failed)))) := rfl

theorem failChan_pulse {c : Nat} (hc : c < 3) (s : State) : (failChan c s).pulse = (s.setStew c (s.stew c).failed).pulse := by
  rw [failChan_eq, pulse_of_stewView (bootLost_stewView ..), pulse_of_stw (stewardTrial_stw hc _), passRoles_pulse,
    machineEvent_pulse]

/-- A failing spokesman's role passes to the next channel where that is up. -/
theorem failChan_seat {c : Nat} (hc : c < 3) {s : State} (hspokes : s.stw.spokes = c) (hup : (s.stew ((c + 1) % 3)).up = true) :
    (failChan c s).seat = ((c + 1) % 3, s.stw.epoch + 1) := by
  have hne : (c + 1) % 3 ≠ c := by omega
  set a := machineEvent 0x0601 0 c none 0 s.stw.epoch (s.setStew c (s.stew c).failed) with ha
  have hview : a.stewView = (s.setStew c (s.stew c).failed).stewView := machineEvent_stewView ..
  have hupa : a.chanUp ((c + 1) % 3) = true := by
    rw [State.chanUp, Stew.up, stewView_st hview, setStew_ne _ _ hne]
    exact hup
  have hheir : a.heir c = (c + 1) % 3 := by simp [State.heir, onward, hupa]
  have hseat : a.seat = s.seat := (seat_of_stewView hview).trans rfl
  rw [failChan_eq, seat_of_stewView (bootLost_stewView ..), seat_of_stw (stewardTrial_stw hc _), ← ha,
    passRoles_seat 1 ((congrArg Prod.fst hseat).trans hspokes) hheir (Nat.mod_lt _ (by decide))]
  exact congrArg (fun x : Nat × Word => ((c + 1) % 3, x.2 + 1)) hseat

theorem syncCopy_pulse_ne (c : Nat) (s : State) {d : Nat} (h : d ≠ c) : ((syncCopy c s).stew d).still = (s.stew d).still := by
  unfold syncCopy
  split
  · exact setStew_pulse_ne s _ h
  · rfl

theorem syncCopy_period (c : Nat) (s : State) : (syncCopy c s).stw.period = s.stw.period := by
  unfold syncCopy
  split <;> rfl

/-- A channel that rejoins. -/
theorem recoverChan_pulse (c : Nat) (s : State) : ∃ x, (recoverChan c s).pulse = ((syncCopy c s).setStew c x).pulse := by
  refine ⟨{ (syncCopy c s).stew c with st := 1, missE := 0, missS := 0, alarmE := false, alarmS := false }, ?_⟩
  unfold recoverChan
  dsimp only
  rw [pulse_of_stewView (joinWaiting_stewView _)]
  have hcool : ∀ a : State, (if a.stw.cool = 3 then giveCool c 1 a else a).pulse = a.pulse := fun a => by
    split
    · exact giveCool_pulse ..
    · rfl
  have hspokes : ∀ a : State, (if a.stw.spokes = 3 then giveSpokes c 1 a else a).pulse = a.pulse := fun a => by
    split
    · exact giveSpokes_pulse ..
    · rfl
  have hjoin : ∀ a : State, (if a.reloading 1 c then a else joinInst 1 c a).pulse = a.pulse := fun a => by
    split
    · rfl
    · exact pulse_of_stewView (joinInst_stewView ..)
  rw [hcool, hspokes, hjoin, machineEvent_pulse]

theorem pathAlarm_stewView (c p : Nat) (e : Bool) (s : State) : (pathAlarm c p e s).stewView = s.stewView :=
  machineEvent_stewView ..

/-- A channel's record with the periods of both paths counted. -/
def Stew.counted (x : Stew) (e t : Nat × Nat × Bool) : Stew := { x with missE := e.1, okE := e.2.1, missS := t.1, okS := t.2.1 }

/-- What is told of the path alarms of a channel that stays up. -/
def tellAlarms (c : Nat) (e t e0 t0 : Bool) (s : State) : State :=
  let s1 := if e = e0 then s else pathAlarm c 0 e s
  if t = t0 then s1 else pathAlarm c 1 t s1

theorem tellAlarms_stewView (c : Nat) (e t e0 t0 : Bool) (s : State) : (tellAlarms c e t e0 t0 s).stewView = s.stewView := by
  unfold tellAlarms
  dsimp only
  split <;> split <;> simp only [pathAlarm_stewView]

/-- A channel that is judged: it fails, stays up, rejoins, or stays down. -/
theorem judgeChan_eq (hE hS : Bool) (c : Nat) (s : State) : judgeChan hE hS c s =
    let x := s.stew c
    let e := pathStep hE x.missE x.okE x.alarmE
    let t := pathStep hS x.missS x.okS x.alarmS
    let y := x.counted e t
    if x.up then
      if 5 ≤ e.1 ∧ 5 ≤ t.1 then failChan c (s.setStew c y)
      else tellAlarms c e.2.2 t.2.2 x.alarmE x.alarmS
        (s.setStew c { y with alarmE := e.2.2, alarmS := t.2.2, st := if e.2.2 || t.2.2 then 2 else 1 })
    else if 50 ≤ e.2.1 ∧ 50 ≤ t.2.1 then recoverChan c (s.setStew c y)
    else s.setStew c y := rfl

/-- A judged channel leaves the period and, but for its records, every other channel. -/
theorem judgeChan_beside (hE hS : Bool) {c : Nat} (hc : c < 3) (s : State) : (judgeChan hE hS c s).stw.period = s.stw.period ∧
    ∀ d, d ≠ c → ((judgeChan hE hS c s).stew d).still = (s.stew d).still := by
  have hset : ∀ (a : State) (x y : Stew), a.pulse = ((s.setStew c x).setStew c y).pulse →
      a.stw.period = s.stw.period ∧ ∀ d, d ≠ c → (a.stew d).still = (s.stew d).still := fun a x y h =>
    ⟨(pulse_period h).trans rfl, fun d hd => by rw [pulse_still h, setStew_pulse_ne _ _ hd, setStew_pulse_ne _ _ hd]⟩
  rw [judgeChan_eq]
  dsimp only
  split
  · split
    · exact hset _ _ _ (failChan_pulse hc _)
    · have h := fun x => pulse_of_stewView (tellAlarms_stewView c (pathStep hE (s.stew c).missE (s.stew c).okE (s.stew c).alarmE).2.2
        (pathStep hS (s.stew c).missS (s.stew c).okS (s.stew c).alarmS).2.2 (s.stew c).alarmE (s.stew c).alarmS (s.setStew c x))
      exact ⟨(pulse_period (h _)).trans rfl, fun d hd => (pulse_still (h _) d).trans (setStew_pulse_ne _ _ hd)⟩
  · split
    · obtain ⟨x, h⟩ := recoverChan_pulse c (s.setStew c ((s.stew c).counted
        (pathStep hE (s.stew c).missE (s.stew c).okE (s.stew c).alarmE) (pathStep hS (s.stew c).missS (s.stew c).okS (s.stew c).alarmS)))
      refine ⟨(pulse_period h).trans ((syncCopy_period ..).trans rfl), fun d hd => ?_⟩
      rw [pulse_still h, setStew_pulse_ne _ _ hd, syncCopy_pulse_ne _ _ hd, setStew_pulse_ne _ _ hd]
    · exact ⟨rfl, fun d hd => setStew_pulse_ne _ _ hd⟩

/-- A channel has missed five periods on both paths with the one just ended. -/
def Stew.missing (x : Stew) (hE hS : Bool) : Prop := x.up = true ∧ 4 ≤ x.missE ∧ 4 ≤ x.missS ∧ hE = false ∧ hS = false

/-- A channel is up, without alarm and heard on both paths. -/
def Stew.well (x : Stew) (hE hS : Bool) : Prop := x.up = true ∧ x.alarmE = false ∧ x.alarmS = false ∧ hE = true ∧ hS = true

theorem judgeChan_fails {hE hS : Bool} {c : Nat} {s : State} (h : (s.stew c).missing hE hS) :
    ∃ y : Stew, judgeChan hE hS c s = failChan c (s.setStew c y) := by
  obtain ⟨hup, hmE, hmS, rfl, rfl⟩ := h
  refine ⟨(s.stew c).counted (pathStep false (s.stew c).missE (s.stew c).okE (s.stew c).alarmE)
    (pathStep false (s.stew c).missS (s.stew c).okS (s.stew c).alarmS), ?_⟩
  rw [judgeChan_eq]
  dsimp only
  rw [if_pos hup, if_pos]
  exact ⟨Nat.succ_le_succ hmE, Nat.succ_le_succ hmS⟩

theorem judgeChan_failed {hE hS : Bool} {c : Nat} (hc : c < 3) {s : State} (h : (s.stew c).missing hE hS) :
    ((judgeChan hE hS c s).stew c).st = 3 := by
  obtain ⟨y, heq⟩ := judgeChan_fails h
  have hstill := pulse_still (failChan_pulse hc (s.setStew c y)) c
  rw [setStew_self, setStew_self] at hstill
  rw [heq]
  exact (congrArg Stew.st hstill :)

theorem judgeChan_well {hE hS : Bool} {c : Nat} {s : State} (h : (s.stew c).well hE hS) :
    ∃ y : Stew, y.st = 1 ∧ judgeChan hE hS c s = s.setStew c y := by
  obtain ⟨hup, haE, haS, rfl, rfl⟩ := h
  refine ⟨{ (s.stew c).counted (pathStep true (s.stew c).missE (s.stew c).okE (s.stew c).alarmE)
    (pathStep true (s.stew c).missS (s.stew c).okS (s.stew c).alarmS) with alarmE := false, alarmS := false, st := 1 }, rfl, ?_⟩
  rw [judgeChan_eq]
  dsimp only
  rw [haE, haS, if_pos hup, if_neg]
  · rfl
  · exact fun h5 => Nat.not_succ_le_zero 4 h5.1

/-! ### A period (R652 to R657) -/

theorem exec_heartbeatPeriod (heard : BitVec 6) (s : State) : exec (.heartbeatPeriod heard) s = .next (heartbeat heard s) := rfl

/-- The channels of a list are judged. -/
def judges (heard : BitVec 6) (l : List Nat) (s : State) : State :=
  l.foldl (fun a c => judgeChan (heard.getLsbD c) (heard.getLsbD (3 + c)) c a) s

section
variable {heard : BitVec 6}

theorem judges_beside {l : List Nat} (hl : ∀ c ∈ l, c < 3) (s : State) : (judges heard l s).stw.period = s.stw.period ∧
    ∀ d, d ∉ l → ((judges heard l s).stew d).still = (s.stew d).still := by
  induction l generalizing s with
  | nil => exact ⟨rfl, fun _ _ => rfl⟩
  | cons c l ih =>
    have hone := judgeChan_beside (heard.getLsbD c) (heard.getLsbD (3 + c)) (hl c (List.mem_cons_self ..)) s
    have hrest := ih (fun d hd => hl d (List.mem_cons_of_mem _ hd)) (judgeChan (heard.getLsbD c) (heard.getLsbD (3 + c)) c s)
    refine ⟨hrest.1.trans hone.1, fun d hd => ?_⟩
    rw [List.mem_cons, not_or] at hd
    exact (hrest.2 d hd.2).trans (hone.2 d hd.1)

/-- What `well` and `missing` say of a channel stays with its record. -/
theorem well_of_still {x y : Stew} {hE hS : Bool} (h : y.still = x.still) (hx : x.well hE hS) : y.well hE hS := by
  have hup : y.up = x.up := (congrArg Stew.up h :)
  have haE : y.alarmE = x.alarmE := (congrArg Stew.alarmE h :)
  have haS : y.alarmS = x.alarmS := (congrArg Stew.alarmS h :)
  rw [Stew.well, hup, haE, haS]
  exact hx

theorem missing_of_still {x y : Stew} {hE hS : Bool} (h : y.still = x.still) (hx : x.missing hE hS) : y.missing hE hS := by
  have hup : y.up = x.up := (congrArg Stew.up h :)
  have hmE : y.missE = x.missE := (congrArg Stew.missE h :)
  have hmS : y.missS = x.missS := (congrArg Stew.missS h :)
  rw [Stew.missing, hup, hmE, hmS]
  exact hx

theorem up_of_st {x : Stew} (h : x.st = 1) : x.up = true := by
  rw [Stew.up, h]
  rfl

/-- Channels that are well keep the roles and stay up. -/
theorem judges_well {l : List Nat} (hl : ∀ c ∈ l, c < 3) (hnodup : l.Nodup) {s : State}
    (h : ∀ c ∈ l, (s.stew c).well (heard.getLsbD c) (heard.getLsbD (3 + c))) :
    (judges heard l s).seat = s.seat ∧ ∀ c ∈ l, ((judges heard l s).stew c).st = 1 := by
  induction l generalizing s with
  | nil => exact ⟨rfl, fun _ h => absurd h List.not_mem_nil⟩
  | cons c l ih =>
    obtain ⟨hc, hnodup⟩ := List.nodup_cons.mp hnodup
    obtain ⟨y, hy, heq⟩ := judgeChan_well (h c (List.mem_cons_self ..))
    have hl' : ∀ d ∈ l, d < 3 := fun d hd => hl d (List.mem_cons_of_mem _ hd)
    have hstep : judges heard (c :: l) s = judges heard l (s.setStew c y) := congrArg (judges heard l) heq
    obtain ⟨hseat, hst⟩ := ih hl' hnodup (s := s.setStew c y) fun d hd =>
      well_of_still (setStew_pulse_ne s y fun hdc => hc (hdc ▸ hd)) (h d (List.mem_cons_of_mem _ hd))
    rw [hstep]
    refine ⟨hseat, fun d hd => ?_⟩
    rcases List.mem_cons.mp hd with rfl | hd
    · have hstill := (judges_beside (heard := heard) hl' (s.setStew d y)).2 d hc
      rw [setStew_self] at hstill
      exact (congrArg Stew.st hstill :).trans hy
    · exact hst d hd

/-- Each channel is judged between those before it and those after it. -/
theorem channels_split {c : Nat} (hc : c < 3) : ∃ l m, [0, 1, 2] = l ++ c :: m ∧ c ∉ l ∧ c ∉ m ∧ l.Nodup ∧ m.Nodup ∧
    (∀ d ∈ l, d < 3 ∧ d ≠ c) ∧ ∀ d ∈ m, d < 3 ∧ d ≠ c := by
  have h : c = 0 ∨ c = 1 ∨ c = 2 := by omega
  rcases h with rfl | rfl | rfl
  · exact ⟨[], [1, 2], by decide⟩
  · exact ⟨[0], [2], by decide⟩
  · exact ⟨[0, 1], [], by decide⟩

theorem judges_split (l m : List Nat) (c : Nat) (s : State) : judges heard (l ++ c :: m) s =
    judges heard m (judgeChan (heard.getLsbD c) (heard.getLsbD (3 + c)) c (judges heard l s)) := by
  rw [judges, List.foldl_append]
  rfl

/-- At the end of a period each channel stands as it was judged. -/
theorem judges_stew {c : Nat} (hc : c < 3) (s : State) :
    ((s.stew c).missing (heard.getLsbD c) (heard.getLsbD (3 + c)) → ((judges heard [0, 1, 2] s).stew c).st = 3) ∧
    ((s.stew c).well (heard.getLsbD c) (heard.getLsbD (3 + c)) → ((judges heard [0, 1, 2] s).stew c).st = 1) := by
  obtain ⟨l, m, heq, hcl, hcm, -, -, hl, hm⟩ := channels_split hc
  rw [heq, judges_split]
  have hbefore := (judges_beside (heard := heard) (fun d hd => (hl d hd).1) s).2 c hcl
  have hafter := (judges_beside (heard := heard) (fun d hd => (hm d hd).1)
    (judgeChan (heard.getLsbD c) (heard.getLsbD (3 + c)) c (judges heard l s))).2 c hcm
  have hst := (congrArg Stew.st hafter :)
  refine ⟨fun h => hst.trans (judgeChan_failed hc (missing_of_still hbefore h)), fun h => ?_⟩
  obtain ⟨y, hy, hjudge⟩ := judgeChan_well (well_of_still hbefore h)
  refine hst.trans ?_
  show ((judgeChan (heard.getLsbD c) (heard.getLsbD (3 + c)) c (judges heard l s)).stew c).st = 1
  rw [hjudge, setStew_self, hy]

/-- A spokesman that fails while the two others are well gives the role to the next onward. -/
theorem judges_seat {c : Nat} (hc : c < 3) {s : State} (hspokes : c = s.stw.spokes)
    (hfails : (s.stew c).missing (heard.getLsbD c) (heard.getLsbD (3 + c)))
    (hwell : ∀ d, d < 3 → d ≠ c → (s.stew d).well (heard.getLsbD d) (heard.getLsbD (3 + d))) :
    (judges heard [0, 1, 2] s).seat = ((c + 1) % 3, s.stw.epoch + 1) := by
  obtain ⟨l, m, heq, hcl, hcm, hnl, hnm, hl, hm⟩ := channels_split hc
  rw [heq, judges_split]
  have hne : (c + 1) % 3 ≠ c := by omega
  have hlt : (c + 1) % 3 < 3 := Nat.mod_lt _ (by decide)
  set a := judges heard l s with ha
  obtain ⟨-, hbeside⟩ := judges_beside (heard := heard) (fun d hd => (hl d hd).1) s
  obtain ⟨hseat, hstl⟩ := judges_well (heard := heard) (fun d hd => (hl d hd).1) hnl (s := s)
    fun d hd => hwell d (hl d hd).1 (hl d hd).2
  rw [← ha] at hseat hstl hbeside
  obtain ⟨y, hjudge⟩ := judgeChan_fails (missing_of_still (hbeside c hcl) hfails)
  have hup : (a.stew ((c + 1) % 3)).up = true := by
    by_cases hmem : (c + 1) % 3 ∈ l
    · exact up_of_st (hstl _ hmem)
    · exact (congrArg Stew.up (hbeside _ hmem) :).trans (hwell _ hlt hne).1
  have hfail : (failChan c (a.setStew c y)).seat = ((c + 1) % 3, s.stw.epoch + 1) := by
    rw [failChan_seat hc (s := a.setStew c y) ((congrArg Prod.fst hseat).trans hspokes.symm) (by rw [setStew_ne _ _ hne]; exact hup)]
    exact congrArg (fun x : Nat × Word => ((c + 1) % 3, x.2 + 1)) hseat
  have hrest := judges_well (heard := heard) (fun d hd => (hm d hd).1) hnm
    (s := judgeChan (heard.getLsbD c) (heard.getLsbD (3 + c)) c a) fun d hd => by
      refine well_of_still ?_ (hwell d (hm d hd).1 (hm d hd).2)
      refine ((judgeChan_beside _ _ hc a).2 d (hm d hd).2).trans (hbeside d fun hdl => ?_)
      have hnodup : (l ++ c :: m).Nodup := heq ▸ (by decide)
      exact (List.nodup_append.mp hnodup).2.2 d hdl d (List.mem_cons_of_mem _ hd) rfl
  rw [hrest.1, hjudge, hfail]

end

theorem heartbeat_judges {heard : BitVec 6} {s : State} (hpower : s.boot.powered = true)
    (hnew : s.stw.period ≠ s.win.tb.toNat / 2000000 + 1) : heartbeat heard s =
      let t := judges heard [0, 1, 2] { s with stw := { s.stw with period := s.win.tb.toNat / 2000000 + 1 } }
      if s.win.tb.toNat / 2000000 % 5 = 0 then reclaim t else t := by
  rw [heartbeat, if_neg]
  · rfl
  · rw [hpower]
    exact fun h => h.elim (fun h => Bool.noConfusion h) hnew

theorem reclaim_keeps (s : State) : (reclaim s).pulse = s.pulse ∧ (reclaim s).seat = s.seat := by
  unfold reclaim
  split
  · exact ⟨giveCool_pulse .., giveCool_seat ..⟩
  · exact ⟨rfl, rfl⟩

theorem runs_heartbeatPeriod {heard : BitVec 6} {s : State} (hpower : s.boot.powered = true)
    (hnew : s.stw.period ≠ s.win.tb.toNat / 2000000 + 1) : Runs (.heartbeatPeriod heard) s (fun t =>
      t.stw.period = s.win.tb.toNat / 2000000 + 1 ∧
      (∀ c, c < 3 → ((s.stew c).missing (heard.getLsbD c) (heard.getLsbD (3 + c)) → (t.stew c).st = 3) ∧
        ((s.stew c).well (heard.getLsbD c) (heard.getLsbD (3 + c)) → (t.stew c).st = 1)) ∧
      ∀ c, c < 3 → c = s.stw.spokes → (s.stew c).missing (heard.getLsbD c) (heard.getLsbD (3 + c)) →
        (∀ d, d < 3 → d ≠ c → (s.stew d).well (heard.getLsbD d) (heard.getLsbD (3 + d))) →
        t.stw.spokes = (c + 1) % 3 ∧ t.stw.epoch = s.stw.epoch + 1) := by
  refine ⟨_, exec_heartbeatPeriod heard s, ?_⟩
  rw [heartbeat_judges hpower hnew]
  dsimp only
  generalize s.win.tb.toNat / 2000000 = k
  have hend : ∀ a : State, (if k % 5 = 0 then reclaim a else a).pulse = a.pulse ∧
      (if k % 5 = 0 then reclaim a else a).seat = a.seat := fun a => by
    split
    · exact reclaim_keeps a
    · exact ⟨rfl, rfl⟩
  have hperiod := (judges_beside (heard := heard) (l := [0, 1, 2]) (by decide) { s with stw := { s.stw with period := k + 1 } }).1
  have hstews := fun c hc => judges_stew (heard := heard) (c := c) hc { s with stw := { s.stw with period := k + 1 } }
  have hseats := fun c hc => judges_seat (heard := heard) (c := c) hc (s := { s with stw := { s.stw with period := k + 1 } })
  generalize judges heard [0, 1, 2] { s with stw := { s.stw with period := k + 1 } } = a at hperiod hstews hseats
  obtain ⟨hpulse, hseat⟩ := hend a
  generalize (if k % 5 = 0 then reclaim a else a) = t at hpulse hseat
  have hst : ∀ c, (t.stew c).st = (a.stew c).st := fun c => (congrArg Stew.st (pulse_still hpulse c) :)
  refine ⟨(pulse_period hpulse).trans hperiod, fun c hc => ?_, fun c hc hspokes hfails hwell => ?_⟩
  · obtain ⟨hfailed, hwell⟩ := hstews c hc
    exact ⟨fun h => (hst c).trans (hfailed h), fun h => (hst c).trans (hwell h)⟩
  · have h := hseat.trans (hseats c hc hspokes hfails hwell)
    exact ⟨congrArg Prod.fst h, congrArg Prod.snd h⟩

/-! ### Claims and switch-back (R657, R658) -/

theorem exec_heartbeatReceipt (c : BitVec 2) (e : Word) (s : State) :
    exec (.heartbeatReceipt c e) s = .next (splitResolve c.toNat e s) := rfl

theorem exec_switchback (m : Mgmt) (c : BitVec 2) (s : State) : exec (.switchback m c) s =
    .next (bySource (.mgmt m) 0x400 c.toNat (switchback c.toNat s) s) := rfl

/-- A claim leaves a holder and an epoch, and is told. -/
theorem splitResolve_holds {c : Nat} {e : Word} {s : State} (hc : c < 3) (hh : s.stw.spokes < 3) (hne : c ≠ s.stw.spokes) :
    ∃ t, splitResolve c e s = t ∧ t = { told s t with stw := { (told s t).stw with
      spokes := if s.stw.epoch < e ∨ (s.stw.epoch = e ∧ c < s.stw.spokes) then c else s.stw.spokes
      epoch := if s.stw.epoch < e ∨ (s.stw.epoch = e ∧ c < s.stw.spokes) then e else s.stw.epoch } } := by
  refine ⟨_, rfl, ?_⟩
  have hboth : ¬(3 ≤ c ∨ 3 ≤ s.stw.spokes ∨ c = s.stw.spokes) := by omega
  rw [splitResolve]
  dsimp only
  rw [if_neg hboth]
  split
  · have htold := machineEvent_told 0x0604 0 (0 + s.stw.spokes * 2 + c * 8 + 4 * 32) none (w64 e.toNat) 0
      { s with stw := { s.stw with spokes := c, epoch := e } }
    exact htold.trans rfl
  · exact (machineEvent_told ..).trans rfl

theorem switchback_gives {c : Nat} {s : State} (hc : c < 3) (hne : c ≠ s.stw.spokes) (hst : (s.stew c).st = 1) :
    switchback c s = .ok (giveSpokes c 3 s) := by
  rw [switchback, if_neg]
  rintro (h | h | h)
  · exact absurd hc (Nat.not_lt.mpr h)
  · exact hne h
  · exact h hst

theorem switchback_held {c : Nat} {s : State} (h : c = s.stw.spokes) : switchback c s = .error 3 :=
  if_pos (Or.inr (Or.inl h))

theorem runs_switchback {s : State} (m : Mgmt) (c : BitVec 2) (hmaj : s.majority = true) (hc : c.toNat < 3)
    (hne : c.toNat ≠ s.stw.spokes) (hst : (s.stew c.toNat).st = 1) : Runs (.switchback m c) s (fun t =>
      t.stw.spokes = c.toNat ∧ t.stw.epoch = s.stw.epoch + 1 ∧ t.stw.cool = s.stw.cool) := by
  refine ⟨_, exec_switchback m c s, ?_⟩
  rw [switchback_gives hc hne hst, bySource_mgmt_ok _ _ _ _ _ hmaj]
  have hview : (giveSpokes c.toNat 3 s).stewView = _ := machineEvent_stewView ..
  have hans := answered_trans (answered_of_told (told_of_logged (logAdd_logged 1 0 17 0 0 [mgmtNum m, 0x400, c.toNat, c.toNat]
    (giveSpokes c.toNat 3 s)))) (answerM_answered m 200 0 [] _)
  rw [hans]
  have hseat := giveSpokes_seat 3 s hc
  exact ⟨congrArg Prod.fst hseat, congrArg Prod.snd hseat, (stewView_cool hview).trans rfl⟩

/-! ### Wardens (R669) -/

theorem exec_wardenStart (u : Fin 18) (s : State) : exec (.wardenStart u) s = .next (wardenStart u.val s) := rfl

theorem exec_wardenAdoptionDone (u : Fin 18) (s : State) : exec (.wardenAdoptionDone u) s = .next (adopted u.val s) := rfl

/-- The state in which a warden has started, to be adopted. -/
def State.wardenUp (s : State) (t : Nat) : State :=
  let s1 := s.setTray t { s.tray t with strapsRead := true }
  { s1 with stw := { s1.stw with adopting := s1.stw.adopting ++ [t] } }

theorem wardenStart_starts {t : Nat} {s : State} (hpower : s.boot.powered = true) (hon : (s.tray t).contactor = true)
    (hsvc : (s.tray t).svc = .inService) (hidle : s.wardenRuns t = false) (hnew : t ∉ s.stw.adopting) :
    wardenStart t s = tellWords t (s.wardenUp t) := by
  simp [wardenStart, hpower, hon, hsvc, hidle, hnew, State.wardenUp]

/-- A record reported is told, and nothing else changes. -/
theorem tellWords_told (t : Nat) (s : State) : ∃ x, tellWords t s = told { s with stw := { s.stw with wordsTold := x } } (tellWords t s) := by
  unfold tellWords
  split
  · split
    · exact ⟨_, machineEvent_told ..⟩
    · exact ⟨s.stw.wordsTold, rfl⟩
  · exact ⟨s.stw.wordsTold, rfl⟩

theorem runs_wardenStart {u : Fin 18} {s : State} (hpower : s.boot.powered = true) (hon : (s.tray u.val).contactor = true)
    (hsvc : (s.tray u.val).svc = .inService) (hidle : s.wardenRuns u.val = false) (hnew : u.val ∉ s.stw.adopting) :
    Runs (.wardenStart u) s (fun t => u.val ∈ t.stw.adopting ∧ (t.tray u.val).strapsRead = true ∧
      t.stw.wardens = s.stw.wardens ∧ t.pwr.mods = s.pwr.mods) := by
  refine ⟨_, exec_wardenStart u s, ?_⟩
  rw [wardenStart_starts hpower hon hsvc hidle hnew]
  obtain ⟨x, h⟩ := tellWords_told u.val (s.wardenUp u.val)
  rw [h]
  refine ⟨List.mem_append_right _ (List.mem_singleton_self _), ?_, rfl, rfl⟩
  show ((s.setTray u.val { s.tray u.val with strapsRead := true }).tray u.val).strapsRead = true
  rw [setTray_self]

/-- The caps of a tray's modules are latched no more. -/
def clearLatches (l : List Nat) (s : State) : State :=
  l.foldl (fun a w => a.setPwrMod w { a.pwrMod w with capLatch := none, guard := false }) s

theorem clearLatches_latch (l : List Nat) (s : State) {w : Nat} (hw : w ∈ l) : ((clearLatches l s).pwrMod w).capLatch = none := by
  refine foldl_establishes_under (fun _ => True) (fun a => (a.pwrMod w).capLatch = none)
    (fun a w => a.setPwrMod w { a.pwrMod w with capLatch := none, guard := false }) w (fun _ _ _ => trivial) (fun a _ => ?_)
    (fun a x _ ha => ?_) l s trivial hw
  · rw [setPwrMod_self]
  · by_cases hx : w = x
    · rw [hx, setPwrMod_self]
    · rw [setPwrMod_ne _ _ hx]
      exact ha

theorem clearLatches_keeps {γ : Type} (v : State → γ) (hset : ∀ a w p, v (State.setPwrMod a w p) = v a) (l : List Nat) (s : State) :
    v (clearLatches l s) = v s :=
  foldl_keeps v (fun a w => a.setPwrMod w { a.pwrMod w with capLatch := none, guard := false }) (fun _ _ => hset ..) l s

/-- The state in which a warden has been adopted, before what differs is told and orders are applied. -/
def State.wardenAdopted (s : State) (t : Nat) : State :=
  let s1 := clearLatches (trayMods t) s
  let x := s1.ttherm t
  let s2 := s1.setTtherm t { x with valve := if x.leakCut then x.valve else s.valveIntent t, forced := false, wdg := false }
  { s2 with stw := { s2.stw with
    adopting := s2.stw.adopting.filter (fun u => u != t), wardens := s2.stw.wardens ||| BitVec.ofNat 18 (2 ^ t) } }

/-- An adopted warden's outputs, and what its modules' orders then do, are told. -/
theorem adopted_ends {t : Nat} {s : State} (h : s.stw.adopting.contains t = true) : ∃ u, u.lossView = (s.wardenAdopted t).lossView ∧
    adopted t s = (trayMods t).foldl (fun a w => applyOrder w a) u := by
  unfold adopted
  dsimp only
  rw [if_pos h]
  refine ⟨_, ?_, rfl⟩
  rw [machineEvent_lossView, foldl_lossView _ (fun a e => logAdd_lossView ..)]
  split
  · exact machineEvent_lossView ..
  · rfl

theorem applyOrder_orders (w : Nat) (s : State) (j : Nat) : ((applyOrder w s).pwrMod j).orders = (s.pwrMod j).orders := by
  obtain ⟨-, hself, hne⟩ := applyOrder_keeps w s
  by_cases hj : j = w
  · rw [hj, hself]
  · rw [hne j hj]

theorem foldl_applyOrder (l : List Nat) (s : State) : (l.foldl (fun a w => applyOrder w a) s).besideRails = s.besideRails ∧
    ∀ j, ((l.foldl (fun a w => applyOrder w a) s).pwrMod j).orders = (s.pwrMod j).orders :=
  ⟨foldl_keeps State.besideRails (fun a w => applyOrder w a) (fun a w => (applyOrder_keeps w a).1) l s,
    fun j => foldl_keeps (fun a => (a.pwrMod j).orders) (fun a w => applyOrder w a) (fun a w => applyOrder_orders w a j) l s⟩

theorem runs_wardenAdoptionDone {u : Fin 18} {s : State} (h : u.val ∈ s.stw.adopting) : Runs (.wardenAdoptionDone u) s (fun t =>
    t.wardenRuns u.val = true ∧ u.val ∉ t.stw.adopting ∧
    (t.ttherm u.val).forced = false ∧ (t.ttherm u.val).wdg = false ∧
    ((s.ttherm u.val).leakCut = true → (t.ttherm u.val).valve = (s.ttherm u.val).valve) ∧
    ∀ m ∈ trayMods u.val, (t.pwrMod m).capLatch = none) := by
  refine ⟨_, exec_wardenAdoptionDone u s, ?_⟩
  obtain ⟨a, ha, heq⟩ := adopted_ends (List.contains_iff_mem.mpr h)
  obtain ⟨hrails, horders⟩ := foldl_applyOrder (trayMods u.val) a
  have hview := hrails.trans (besideRails_of_lossView ha)
  rw [heq]
  generalize (trayMods u.val).foldl (fun a w => applyOrder w a) a = t at hrails horders hview
  have htherm : t.ttherm u.val = (s.wardenAdopted u.val).ttherm u.val := (congrArg (tget _ u.val) (besideRails_ttherms hview) :)
  have hself : (s.wardenAdopted u.val).ttherm u.val = { s.ttherm u.val with
      valve := if (s.ttherm u.val).leakCut then (s.ttherm u.val).valve else s.valveIntent u.val, forced := false, wdg := false } := by
    have hkeep : (clearLatches (trayMods u.val) s).ttherm u.val = s.ttherm u.val :=
      clearLatches_keeps (fun a => a.ttherm u.val) (fun _ _ _ => rfl) _ s
    unfold State.wardenAdopted
    dsimp only
    rw [hkeep]
    exact setTtherm_self ..
  have hstw : (clearLatches (trayMods u.val) s).stw = s.stw := clearLatches_keeps State.stw (fun _ _ _ => rfl) _ s
  have hadopting : t.stw.adopting = s.stw.adopting.filter (fun x => x != u.val) := by
    have hkeep : t.stw.adopting = (s.wardenAdopted u.val).stw.adopting := (congrArg (fun v => v.stw.adopting) hview :)
    exact hkeep.trans (congrArg (fun w : Stw => w.adopting.filter (fun x => x != u.val)) hstw)
  have hwardens : t.stw.wardens = s.stw.wardens ||| BitVec.ofNat 18 (2 ^ u.val) :=
    (besideRails_stw hview).trans (congrArg (fun w : Stw => w.wardens ||| BitVec.ofNat 18 (2 ^ u.val)) hstw)
  rw [htherm, hself]
  refine ⟨?_, ?_, rfl, rfl, fun hleak => if_pos hleak, fun m hm => ?_⟩
  · rw [State.wardenRuns, hwardens, BitVec.getLsbD_or, BitVec.getLsbD_ofNat, Nat.testBit_two_pow_self]
    simp
  · rw [hadopting]
    simp
  · have hm' : (t.pwrMod m).orders = ((clearLatches (trayMods u.val) s).pwrMod m).orders := by
      rw [horders, lossView_pwrMod ha]
      rfl
    have hlatch : (t.pwrMod m).capLatch = ((clearLatches (trayMods u.val) s).pwrMod m).capLatch :=
      congrArg (·.2.2.2.2.2.2) hm'
    rw [hlatch, clearLatches_latch _ _ hm]

/-- Settles O51: each channel is judged by itself, and what its failure or return brings writes no other channel but for records;
a role's passing is told; an adopted warden's outputs follow the intent, and the orders then applied write rails only. -/
theorem rolesPassWithHeartbeats : Obligations.RolesPassWithHeartbeats := by
  unfold Obligations.RolesPassWithHeartbeats
  refine ⟨fun s heard hpower hnew => ?_, fun s c e => ?_, fun s m c hmaj => ⟨fun hc hne hst => runs_switchback m c hmaj hc hne hst,
    fun heq => ⟨_, exec_switchback m c s, ?_⟩⟩, fun s u => ⟨fun hpower hon hsvc hidle hnew => runs_wardenStart hpower hon hsvc hidle hnew,
    fun h => runs_wardenAdoptionDone h⟩⟩
  · exact runs_heartbeatPeriod hpower hnew
  · intro h holds hh hc hne
    obtain ⟨t, heq, ht⟩ := splitResolve_holds (e := e) hc hh hne
    have hrun := (exec_heartbeatReceipt c e s).trans (congrArg Host.Outcome.next heq)
    refine ⟨fun hmore => ⟨t, hrun, ?_⟩, fun hless => ⟨t, hrun, ?_⟩, fun hsame => ⟨t, hrun, ?_⟩⟩
    · rw [if_pos (Or.inl hmore), if_pos (Or.inl hmore)] at ht
      exact ht
    · have hno : ¬(s.stw.epoch < e ∨ (s.stw.epoch = e ∧ c.toNat < s.stw.spokes)) := by
        rintro (hlt | ⟨rfl, -⟩) <;> bv_omega
      rw [if_neg hno, if_neg hno] at ht
      exact ht
    · rw [hsame] at ht ⊢
      rcases Nat.lt_or_gt_of_ne hne with hlt | hgt
      · rw [if_pos (Or.inr ⟨rfl, hlt⟩), if_pos (Or.inr ⟨rfl, hlt⟩)] at ht
        have hmin : min c.toNat h = c.toNat := Nat.min_eq_left (Nat.le_of_lt hlt)
        rw [hmin]
        exact ht
      · have hno : ¬(s.stw.epoch < s.stw.epoch ∨ (s.stw.epoch = s.stw.epoch ∧ c.toNat < s.stw.spokes)) := by
          rintro (hlt | ⟨-, hlt⟩)
          · exact absurd hlt (BitVec.lt_irrefl _)
          · exact absurd hlt (Nat.lt_asymm hgt)
        rw [if_neg hno, if_neg hno] at ht
        have hmin : min c.toNat h = h := Nat.min_eq_right (Nat.le_of_lt hgt)
        rw [hmin]
        exact ht
  · rw [switchback_held heq]
    simp only [bySource, hmaj]
    rfl

end Sys2Proof.Machine
end

section
/-! PROOFS. Cooling, ordered by its authority and voted (O49). -/

namespace Sys2Proof.Machine

open Sys2Proof

theorem exec_coolingControlPeriod (r : CduRead) (own : List (BitVec 7 × BitVec 7)) (s : State) :
    exec (.coolingControlPeriod r own) s = .next (coolingPeriod r (own.map fun p => (p.1.toNat, p.2.toNat)) s) := rfl

theorem exec_actuatorOrderReceipt (a : Fin 25) (heard bits : BitVec 3) (s : State) :
    exec (.actuatorOrderReceipt a heard bits) s = .next (orderReceipt a.val heard.toNat bits.toNat s) := rfl

theorem exec_pumpStop (p : BitVec 1) (s : State) : exec (.pumpStop p) s = .next (pumpStop p.toNat s) := rfl

theorem exec_pumpRetry (p : BitVec 1) (s : State) : exec (.pumpRetry p) s = .next (pumpRetry p.toNat s) := rfl

theorem exec_pumpRejoin (p : BitVec 1) (s : State) : exec (.pumpRejoin p) s = .next (pumpRejoin p.toNat s) := rfl

theorem exec_reservoirLevelChange (lv : BitVec 7) (s : State) :
    exec (.reservoirLevelChange lv) s = .next (reservoirChange (min 100 lv.toNat) s) := rfl

theorem exec_cduLeakSensed (wet : Bool) (s : State) : exec (.cduLeakSensed wet) s = .next (
    if wet && !s.therm.cduLeak then
      machineEvent 0x0508 0 (2 + b2n (decide (s.therm.reservoir < 50))) none (w64 s.therm.reservoir) 0
        { s with therm := { s.therm with cduLeak := wet } }
    else { s with therm := { s.therm with cduLeak := wet } }) := rfl

theorem exec_cduVoterWatchdog (s : State) : exec .cduVoterWatchdog s = .next (cduWatchdog s) := rfl

/-! ### A control period (R609, R610, R650) -/

/-- An order within the limits of pump and valve, every pump at 100 % while one is stopped. -/
def Therm.limited (h : Therm) (p : Nat × Nat) : Nat × Nat :=
  (if h.fault0 || h.fault1 then 100 else max 30 (min 100 p.1), min 100 p.2)

/-- The order a channel takes beside the one published. -/
def echoed (a : Nat) (pub : Nat × Nat) (c : Nat) (o : Nat × Nat) : Nat × Nat :=
  if c = a then pub else (if near o.1 pub.1 then pub.1 else o.1, if near o.2 pub.2 then pub.2 else o.2)

/-- The order the authority publishes. -/
def State.published (s : State) (own : List (Nat × Nat)) : Nat × Nat := s.therm.limited (own.getD s.stw.cool s.stw.coolOrder)

/-- Channel `c` takes its order beside the one published. -/
def State.echoOrder (s : State) (own : List (Nat × Nat)) (st : State) (c : Nat) : State :=
  let o := echoed s.stw.cool (s.published own) c (s.therm.limited (own.getD c (s.published own)))
  st.setStew c { st.stew c with order := o }

theorem coolingPeriod_eq (r : CduRead) (own : List (Nat × Nat)) (s : State) : coolingPeriod r own s =
    if s.stw.cool < 3 ∧ (s.stew s.stw.cool).up = true then
      [0, 1, 2].foldl (s.echoOrder own) { readCdu r s with stw := { s.stw with coolOrder := s.published own } }
    else readCdu r s := rfl

theorem echoOrder_authority (s : State) (own : List (Nat × Nat)) (st : State) :
    ((s.echoOrder own st s.stw.cool).stew s.stw.cool).order = s.published own := by
  rw [State.echoOrder, setStew_self]
  exact if_pos rfl

theorem foldl_echoOrder_authority (s : State) (own : List (Nat × Nat)) (l : List Nat) (st : State) (ha : s.stw.cool ∈ l) :
    ((l.foldl (s.echoOrder own) st).stew s.stw.cool).order = s.published own := by
  refine foldl_establishes_under (fun _ => True) (fun st => (st.stew s.stw.cool).order = s.published own) _ s.stw.cool
    (fun _ _ _ => trivial) (fun st _ => echoOrder_authority s own st) (fun st c _ hst => ?_) l st trivial ha
  by_cases hc : s.stw.cool = c
  · exact hc ▸ echoOrder_authority s own st
  · rw [State.echoOrder, setStew_ne _ _ hc]
    exact hst

theorem runs_coolingControlPeriod (s : State) (r : CduRead) (own : List (BitVec 7 × BitVec 7)) :
    Runs (.coolingControlPeriod r own) s (fun t => t.therm.cduFlow = r.flow.toNat ∧ t.therm.cduSupply = r.supply.toInt ∧
      t = { s with therm := t.therm, stw := { s.stw with coolOrder := t.stw.coolOrder, chans := t.stw.chans } } ∧
      (own.length = 3 → s.stw.cool < 3 → (s.stew s.stw.cool).up = true →
        t.stw.coolOrder = (if s.therm.fault0 || s.therm.fault1 then 100
            else max 30 (min 100 (own.getD s.stw.cool (0, 0)).1.toNat),
          min 100 (own.getD s.stw.cool (0, 0)).2.toNat) ∧
        (t.stew s.stw.cool).order = t.stw.coolOrder) ∧
      (3 ≤ s.stw.cool → t.stw = s.stw)) := by
  refine ⟨_, exec_coolingControlPeriod .., ?_⟩
  rw [coolingPeriod_eq]
  by_cases hauth : s.stw.cool < 3 ∧ (s.stew s.stw.cool).up = true
  · rw [if_pos hauth]
    refine ⟨rfl, rfl, rfl, fun hlen _ _ => ⟨?_, ?_⟩, fun h => absurd hauth.1 (Nat.not_lt.mpr h)⟩
    · have hown : (own.map fun p => (p.1.toNat, p.2.toNat)).getD s.stw.cool s.stw.coolOrder =
          ((own.getD s.stw.cool (0, 0)).1.toNat, (own.getD s.stw.cool (0, 0)).2.toNat) := by
        have hlt : s.stw.cool < own.length := by omega
        simp [List.getD_eq_getElem?_getD, hlt]
      show s.published _ = _
      rw [State.published, hown]
      rfl
    · refine (foldl_echoOrder_authority s _ [0, 1, 2] _ ?_).trans rfl
      have : s.stw.cool = 0 ∨ s.stw.cool = 1 ∨ s.stw.cool = 2 := by omega
      simpa using this
  · rw [if_neg hauth]
    exact ⟨rfl, rfl, rfl, fun _ hlt hup => absurd ⟨hlt, hup⟩ hauth, fun _ => rfl⟩

/-! ### Pumps, the CDU's leak and its watchdog (R609, R612, R632) -/

theorem pumpStop_fails (s : State) :
    (s.therm.fault0 = false → pumpStop 0 s = told { s with therm := { s.therm with
      fault0 := true, pumpTick0 := s.win.tb.toNat + 1, spd0 := 0, spd1 := if s.therm.fault1 then s.therm.spd1 else 100 } }
        (pumpStop 0 s)) ∧
    (s.therm.fault1 = false → pumpStop 1 s = told { s with therm := { s.therm with
      fault1 := true, pumpTick1 := s.win.tb.toNat + 1, spd1 := 0, spd0 := if s.therm.fault0 then s.therm.spd0 else 100 } }
        (pumpStop 1 s)) := by
  unfold pumpStop
  refine ⟨fun h => ?_, fun h => ?_⟩
  · simp only [h, if_true, Bool.false_eq_true, if_false]
    exact machineEvent_told ..
  · simp only [h, Nat.one_ne_zero, Bool.false_eq_true, if_false]
    exact machineEvent_told ..

theorem runs_pumpStop (s : State) :
    (s.therm.fault0 = false → Runs (.pumpStop 0) s (fun t => t = { told s t with therm := { s.therm with
      fault0 := true, pumpTick0 := s.win.tb.toNat + 1, spd0 := 0, spd1 := if s.therm.fault1 then s.therm.spd1 else 100 } })) ∧
    (s.therm.fault0 = true → Runs (.pumpStop 0) s (fun t => t = { s with therm := { s.therm with spd0 := 0 } })) ∧
    (s.therm.fault1 = true → Runs (.pumpStop 1) s (fun t => t = { s with therm := { s.therm with spd1 := 0 } })) ∧
    (s.therm.fault1 = false → Runs (.pumpStop 1) s (fun t => t = { told s t with therm := { s.therm with
      fault1 := true, pumpTick1 := s.win.tb.toNat + 1, spd1 := 0, spd0 := if s.therm.fault0 then s.therm.spd0 else 100 } })) := by
  refine ⟨fun h => ⟨_, exec_pumpStop .., (pumpStop_fails s).1 h⟩, fun h => ⟨_, exec_pumpStop .., ?_⟩,
    fun h => ⟨_, exec_pumpStop .., ?_⟩, fun h => ⟨_, exec_pumpStop .., (pumpStop_fails s).2 h⟩⟩
  · show pumpStop 0 s = _
    simp only [pumpStop, h, if_true]
  · show pumpStop 1 s = _
    simp only [pumpStop, h, if_true, Nat.one_ne_zero, if_false]

theorem runs_pumpRetry (s : State) :
    (s.therm.fault0 = true → s.therm.pumpTick0 - 1 + 6000000000 ≤ s.win.tb.toNat → Runs (.pumpRetry 0) s (fun t =>
      t = { s with therm := { s.therm with pumpTick0 := s.win.tb.toNat + 1, spd0 := s.stw.coolOrder.1 } })) ∧
    (s.therm.fault1 = true → s.therm.pumpTick1 - 1 + 6000000000 ≤ s.win.tb.toNat → Runs (.pumpRetry 1) s (fun t =>
      t = { s with therm := { s.therm with pumpTick1 := s.win.tb.toNat + 1, spd1 := s.stw.coolOrder.1 } })) := by
  refine ⟨fun hfault hdue => ⟨_, exec_pumpRetry .., ?_⟩, fun hfault hdue => ⟨_, exec_pumpRetry .., ?_⟩⟩
  · show pumpRetry 0 s = _
    simp only [pumpRetry, if_true, hfault, hdue, and_self]
  · show pumpRetry 1 s = _
    simp only [pumpRetry, Nat.one_ne_zero, if_false, if_true, hfault, hdue, and_self]

theorem pumpRejoin_told (s : State) :
    (s.therm.fault0 = true → pumpRejoin 0 s = told { s with therm := { s.therm with
      fault0 := false, pumpTick0 := 0, spd0 := s.stw.coolOrder.1 } } (pumpRejoin 0 s)) ∧
    (s.therm.fault1 = true → pumpRejoin 1 s = told { s with therm := { s.therm with
      fault1 := false, pumpTick1 := 0, spd1 := s.stw.coolOrder.1 } } (pumpRejoin 1 s)) := by
  unfold pumpRejoin
  refine ⟨fun h => ?_, fun h => ?_⟩
  · simp only [h, if_true]
    exact machineEvent_told ..
  · simp only [h, if_true, Nat.one_ne_zero, if_false]
    exact machineEvent_told ..

theorem runs_pumpRejoin (s : State) :
    (s.therm.fault0 = true → Runs (.pumpRejoin 0) s (fun t => t.therm.fault0 = false ∧ t.therm.spd0 = s.stw.coolOrder.1 ∧
      t.therm.spd1 = s.therm.spd1 ∧ t = { told s t with therm := t.therm })) ∧
    (s.therm.fault1 = true → Runs (.pumpRejoin 1) s (fun t => t.therm.fault1 = false ∧ t.therm.spd1 = s.stw.coolOrder.1 ∧
      t.therm.spd0 = s.therm.spd0 ∧ t = { told s t with therm := t.therm })) := by
  obtain ⟨h0, h1⟩ := pumpRejoin_told s
  refine ⟨fun h => ⟨_, exec_pumpRejoin .., ?_⟩, fun h => ⟨_, exec_pumpRejoin .., ?_⟩⟩
  · have heq := h0 h
    beta_reduce
    generalize hrun : pumpRejoin (0 : BitVec 1).toNat s = t
    rw [show pumpRejoin 0 s = t from hrun] at heq
    rw [heq]
    exact ⟨rfl, rfl, rfl, rfl⟩
  · have heq := h1 h
    beta_reduce
    generalize hrun : pumpRejoin (1 : BitVec 1).toNat s = t
    rw [show pumpRejoin 1 s = t from hrun] at heq
    rw [heq]
    exact ⟨rfl, rfl, rfl, rfl⟩

theorem runs_cduLeakSensed (s : State) (wet : Bool) :
    Runs (.cduLeakSensed wet) s (fun t => t = { told s t with therm := { s.therm with cduLeak := wet } }) := by
  refine ⟨_, exec_cduLeakSensed .., ?_⟩
  beta_reduce
  split
  · exact machineEvent_told ..
  · rfl

theorem runs_cduVoterWatchdog (s : State) :
    (s.therm.forced = false → s.majority = false → Runs .cduVoterWatchdog s (fun t =>
      t = { told s t with therm := { s.therm with spd0 := 100, spd1 := 100, cduValve := 100, forced := true } })) ∧
    (s.therm.forced = true ∨ s.majority = true → Runs .cduVoterWatchdog s (fun t => t = s)) := by
  refine ⟨fun hforced hmaj => ⟨_, exec_cduVoterWatchdog s, ?_⟩, fun h => ⟨_, exec_cduVoterWatchdog s, ?_⟩⟩
  · rw [cduWatchdog, hforced, hmaj]
    exact machineEvent_told ..
  · exact if_pos (by simpa using h)

/-! ### A tray's loss and the machine's cooling -/

/-- Cooling without the modules' and the trays' own figures. -/
def Therm.plant (h : Therm) : Therm := { h with mods := [], trays := [] }

theorem darkView_plant {s t : State} (h : t.darkView = s.darkView) : t.therm.plant = s.therm.plant :=
  (congrArg (fun v => v.1.therm.plant) h :)

theorem besideRails_plant {s t : State} (h : t.besideRails = s.besideRails) : t.therm.plant = s.therm.plant :=
  (congrArg (fun v => v.therm.plant) h :)

theorem loseMods_ttherm (cause : Nat) (l : List Nat) (s : State) (u : Nat) : (loseMods cause l s).ttherm u = s.ttherm u :=
  congrArg (tget _ u) (besideRails_ttherms (loseMods_besideRails cause l s))

theorem trayOff_plant (s : State) (t : Nat) : (s.trayOff t).therm.plant = s.therm.plant := by
  unfold State.trayOff State.valveShut
  split <;> rfl

theorem trayOff_ttherm_ne (s : State) {t u : Nat} (h : u ≠ t) : (s.trayOff t).ttherm u = s.ttherm u := by
  unfold State.trayOff State.valveShut
  split
  · exact setTtherm_ne _ _ h
  · rfl

theorem loseTray_plant (t cause : Nat) (s : State) : (loseTray t cause s).therm.plant = s.therm.plant := by
  obtain ⟨u, hu, h⟩ := loseTray_darkView t cause s
  rw [darkView_plant h, darkView_plant (trayDark_darkView t u), trayOff_plant, darkView_plant hu,
    besideRails_plant (loseMods_besideRails ..)]

theorem trayOff_ttherm_self (s : State) {t : Nat} (ht : t < 17) :
    (s.trayOff t).ttherm t = { s.ttherm t with valve := 0, forced := false } := by
  unfold State.trayOff State.valveShut
  rw [if_pos ht]
  exact setTtherm_self ..

theorem loseTray_ttherm_self {t : Nat} (cause : Nat) (s : State) (ht : t < 17) :
    (loseTray t cause s).ttherm t = { s.ttherm t with valve := 0, forced := false } := by
  obtain ⟨u, hu, h⟩ := loseTray_darkView t cause s
  rw [darkView_ttherm h, darkView_ttherm (trayDark_darkView t u), trayOff_ttherm_self u ht, darkView_ttherm hu, loseMods_ttherm]

theorem loseTray_ttherm_ne {t k : Nat} (cause : Nat) (s : State) (hk : k ≠ t) : (loseTray t cause s).ttherm k = s.ttherm k := by
  obtain ⟨u, hu, h⟩ := loseTray_darkView t cause s
  rw [darkView_ttherm h, darkView_ttherm (trayDark_darkView t u), trayOff_ttherm_ne u hk, darkView_ttherm hu, loseMods_ttherm]

theorem holdMods_trays (l : List Nat) (s : State) : (holdMods l s).trays = s.trays :=
  holdMods_keeps State.trays (fun _ _ _ => rfl) l s

theorem holdMods_therm (l : List Nat) (s : State) : (holdMods l s).therm = s.therm :=
  holdMods_keeps State.therm (fun _ _ _ => rfl) l s

/-! ### The reservoir (R612) -/

/-- A tray is cut off: its modules held off, its power gone, its valve closed. -/
def cutTray (cause t : Nat) (s : State) : State := closeValve t (loseTray t cause (holdMods (trayMods t) s))

theorem closeValve_tray (t : Nat) (s : State) (u : Nat) : (closeValve t s).tray u = s.tray u := rfl

theorem cutTray_self (cause t : Nat) (s : State) : ((cutTray cause t s).tray t).contactor = false ∧ ((cutTray cause t s).ttherm t).valve = 0 := by
  refine ⟨?_, ?_⟩
  · rw [cutTray, closeValve_tray, loseTray_tray_self]
  · rw [cutTray, closeValve, setTtherm_self]

theorem cutTray_ne (cause : Nat) {t u : Nat} (s : State) (h : u ≠ t) :
    (cutTray cause t s).tray u = s.tray u ∧ (cutTray cause t s).ttherm u = s.ttherm u := by
  refine ⟨?_, ?_⟩
  · rw [cutTray, closeValve_tray, loseTray_tray_ne _ _ _ h, State.tray, holdMods_trays]
    rfl
  · rw [cutTray, closeValve, setTtherm_ne _ _ h, loseTray_ttherm_ne _ _ h, State.ttherm, holdMods_therm]
    rfl

theorem cutTray_plant (cause t : Nat) (s : State) : (cutTray cause t s).therm.plant = s.therm.plant := by
  have hvalve : (cutTray cause t s).therm.plant = (loseTray t cause (holdMods (trayMods t) s)).therm.plant := rfl
  rw [hvalve, loseTray_plant, holdMods_therm]

theorem told_trays {s t : State} (h : t = told s t) : t.trays = s.trays := by
  rw [h]
  rfl

theorem told_therm {s t : State} (h : t = told s t) : t.therm = s.therm := by
  rw [h]
  rfl

/-- A tray is cut off by the reservoir, which is told and logged. -/
def reservoirCut (lv : Nat) (s : State) (t : Nat) : State :=
  logAdd 5 3 t (w64 lv) 0 [] (machineEvent 0x0503 0 (t + 32) none 0 0 (cutTray 3 t s))

theorem reservoirCut_told (lv : Nat) (s : State) (t : Nat) : reservoirCut lv s t = told (cutTray 3 t s) (reservoirCut lv s t) :=
  told_trans (machineEvent_told ..) (told_of_logged (logAdd_logged ..))

theorem reservoirChange_eq (lv : Nat) (s : State) : reservoirChange lv s =
    let s1 : State := { s with therm := { s.therm with reservoir := lv } }
    let s2 := if lv < 50 ∧ 50 ≤ s.therm.reservoir then machineEvent 0x0508 0 (1 + 2 * b2n s.therm.cduLeak) none (w64 lv) 0 s1 else s1
    if lv < 10 ∧ 10 ≤ s.therm.reservoir then
      limitEvent 4 s2 (((List.range 17).filter (fun t => (s.tray t).svc != .absent)).foldl (reservoirCut lv)
        { s2 with therm := { s2.therm with resCut := true } })
    else s2 := rfl

theorem foldl_reservoirCut_off (lv : Nat) (l : List Nat) (s : State) {u : Nat} (hu : u ∈ l) :
    ((l.foldl (reservoirCut lv) s).tray u).contactor = false ∧ ((l.foldl (reservoirCut lv) s).ttherm u).valve = 0 := by
  have hcut : ∀ a t k, (reservoirCut lv a t).tray k = (cutTray 3 t a).tray k ∧ (reservoirCut lv a t).ttherm k = (cutTray 3 t a).ttherm k := by
    intro a t k
    exact ⟨congrArg (tget _ k) (told_trays (reservoirCut_told lv a t)),
      congrArg (fun h : Therm => tget _ k h.trays) (told_therm (reservoirCut_told lv a t))⟩
  refine foldl_establishes_under (fun _ => True) (fun a => (a.tray u).contactor = false ∧ (a.ttherm u).valve = 0) _ u
    (fun _ _ _ => trivial) (fun a _ => ?_) (fun a t _ ha => ?_) l s trivial hu
  · rw [(hcut a u u).1, (hcut a u u).2]
    exact cutTray_self 3 u a
  · rw [(hcut a t u).1, (hcut a t u).2]
    by_cases hut : u = t
    · exact hut ▸ cutTray_self 3 u a
    · rw [(cutTray_ne 3 a hut).1, (cutTray_ne 3 a hut).2]
      exact ha

theorem foldl_reservoirCut_plant (lv : Nat) (l : List Nat) (s : State) :
    (l.foldl (reservoirCut lv) s).therm.plant = s.therm.plant :=
  foldl_keeps (fun a => a.therm.plant) (reservoirCut lv)
    (fun a t => (congrArg Therm.plant (told_therm (reservoirCut_told lv a t))).trans (cutTray_plant 3 t a)) l s

theorem runs_reservoirLevelChange (s : State) (lv : BitVec 7) :
    (lv.toNat < 10 → 10 ≤ s.therm.reservoir → Runs (.reservoirLevelChange lv) s (fun t => t.therm.reservoir = lv.toNat ∧
      t.therm.resCut = true ∧ ∀ u, u < 17 → (s.tray u).svc ≠ .absent → (t.tray u).contactor = false ∧ (t.ttherm u).valve = 0)) ∧
    (10 ≤ lv.toNat ∨ s.therm.reservoir < 10 → Runs (.reservoirLevelChange lv) s (fun t =>
      t = { told s t with therm := { s.therm with reservoir := min 100 lv.toNat } })) := by
  have hmin : lv.toNat < 10 → min 100 lv.toNat = lv.toNat := by omega
  refine ⟨fun hlow hold => ⟨_, exec_reservoirLevelChange .., ?_⟩, fun h => ⟨_, exec_reservoirLevelChange .., ?_⟩⟩
  · rw [hmin hlow, reservoirChange_eq]
    dsimp only
    rw [if_pos ⟨hlow, hold⟩]
    set s2 : State := if lv.toNat < 50 ∧ 50 ≤ s.therm.reservoir then _ else _ with hs2
    have htherm : s2.therm = { s.therm with reservoir := lv.toNat } := by
      rw [hs2]
      split
      · exact told_therm (machineEvent_told ..)
      · rfl
    clear_value s2
    have hoff : ∀ u, u < 17 → (s.tray u).svc ≠ .absent → u ∈ (List.range 17).filter (fun t => (s.tray t).svc != .absent) :=
      fun u hu hsvc => List.mem_filter.mpr ⟨List.mem_range.mpr hu, by simpa using hsvc⟩
    generalize (List.range 17).filter (fun t => (s.tray t).svc != .absent) = l at hoff
    set a := l.foldl (reservoirCut lv.toNat) { s2 with therm := { s2.therm with resCut := true } } with ha
    have htold := limitEvent_told 4 s2 a
    have hplant : (limitEvent 4 s2 a).therm.plant = { s.therm with reservoir := lv.toNat, resCut := true }.plant := by
      rw [told_therm htold, ha, foldl_reservoirCut_plant]
      exact congrArg (fun h : Therm => { h with resCut := true }.plant) htherm
    refine ⟨(congrArg Therm.reservoir hplant :), (congrArg Therm.resCut hplant :), fun u hu hsvc => ?_⟩
    have hcut := foldl_reservoirCut_off lv.toNat l { s2 with therm := { s2.therm with resCut := true } } (hoff u hu hsvc)
    rw [← ha] at hcut
    rw [State.tray, State.ttherm, told_trays htold, told_therm htold]
    exact hcut
  · rw [reservoirChange_eq]
    dsimp only
    have hno : ¬(min 100 lv.toNat < 10 ∧ 10 ≤ s.therm.reservoir) := by omega
    rw [if_neg hno]
    split
    · exact machineEvent_told ..
    · rfl

/-! ### What a vote sets (R649, R650) -/

/-- What voted actuators stand at. -/
def State.actuators (s : State) : Therm × (Nat × Nat) × Tab Shelf × Tab Tray :=
  (s.therm, s.stw.coolOrder, s.pwr.shelves, s.trays)

theorem applied_of_actuators {s t : State} (h : t.actuators = s.actuators) (a : Nat) : t.applied a = s.applied a := by
  have htherm : t.therm = s.therm := congrArg (·.1) h
  have hcool : t.stw.coolOrder = s.stw.coolOrder := congrArg (·.2.1) h
  have hshelves : t.pwr.shelves = s.pwr.shelves := congrArg (·.2.2.1) h
  have htrays : t.trays = s.trays := congrArg (·.2.2.2) h
  unfold State.applied State.shelf State.tray
  rw [htherm, hcool, hshelves, htrays]

theorem told_actuators {s t : State} (h : t = told s t) : t.actuators = s.actuators := by
  have hcool : t.stw.coolOrder = s.stw.coolOrder := by
    rw [h]
    rfl
  have hshelves : t.pwr.shelves = s.pwr.shelves := by
    rw [h]
    rfl
  exact Prod.ext (told_therm h) (Prod.ext hcool (Prod.ext hshelves (told_trays h)))

theorem dissent_actuators (a c v : Nat) (s : State) : (dissent a c v s).actuators = s.actuators := by
  unfold dissent
  dsimp only
  split
  · rfl
  · split
    · rfl
    · split
      · exact (told_actuators (machineEvent_told ..)).trans rfl
      · rfl

/-- The channels whose orders a voter counts. -/
def State.voters (s : State) (heard : Nat) : List Nat := [0, 1, 2].filter (fun c => heard.testBit c && !(s.disq c))

/-- The orders of those channels for an actuator. -/
def State.votes (s : State) (a heard bits : Nat) : List Nat := (s.voters heard).map (fun c => s.orderOf a c bits)

/-- The state with the tick + 1 since which no two channels agree on an actuator. -/
def State.since (s : State) (a n : Nat) : State := { s with stw := { s.stw with noAgree := tset 0 a n s.stw.noAgree } }

/-- What a voter applies of the orders that have reached it. -/
def State.voted (s : State) (a : Nat) (vs : List Nat) : State :=
  match agreed vs with
  | some v => applyVote a v (s.since a 0)
  | none =>
    if tget 0 a s.stw.noAgree = 0 then s.since a (s.win.tb.toNat + 1)
    else if a < 3 ∧ tget 0 a s.stw.noAgree - 1 + 10000000 ≤ s.win.tb.toNat ∧ 2 ≤ vs.length ∧ s.therm.forced = false ∧
        [0, 1, 2].any (fun c => s.disq c) = false then applyVote a (vs.foldl max 0) s else s

theorem orderReceipt_actuators (a heard bits : Nat) (s : State) :
    (orderReceipt a heard bits s).actuators = (s.voted a (s.votes a heard bits)).actuators :=
  foldl_keeps State.actuators (fun st c => dissent a c (st.orderOf a c bits) st)
    (fun st c => dissent_actuators a c (st.orderOf a c bits) st) (s.voters heard) (s.voted a (s.votes a heard bits))

theorem mem_of_agreed {l : List Nat} {v : Nat} (h : agreed l = some v) : v ∈ l := by
  induction l with
  | nil => cases h
  | cons x l ih =>
    rw [agreed] at h
    split at h
    · cases h
      exact List.mem_cons_self ..
    · exact List.mem_cons_of_mem _ (ih h)

/-- An order for a shelf or a contactor is a bit. -/
theorem vote_is_bit {s : State} {a heard bits v : Nat} (ha : 3 ≤ a) (h : v ∈ s.votes a heard bits) : b2n (v != 0) = v := by
  obtain ⟨c, -, rfl⟩ := List.mem_map.mp h
  have h1 : ¬a < 2 := by omega
  have h2 : ¬a = 2 := by omega
  rw [State.orderOf, if_neg h1, if_neg h2]
  cases bits.testBit c <;> rfl

theorem releaseForced_actuators (s : State) : ∃ f, (releaseForced s).actuators = { s with therm := { s.therm with forced := f } }.actuators := by
  unfold releaseForced
  split
  · exact ⟨false, told_actuators (machineEvent_told ..)⟩
  · exact ⟨s.therm.forced, rfl⟩

/-- Whether the CDU's pumps and valve are forced is no part of what an actuator stands at. -/
theorem releaseForced_applied (s : State) (b : Nat) : (releaseForced s).applied b = s.applied b := by
  obtain ⟨f, h⟩ := releaseForced_actuators s
  rw [applied_of_actuators h]
  rfl

theorem releaseForced_speeds (s : State) : (releaseForced s).therm.spd0 = s.therm.spd0 ∧ (releaseForced s).therm.spd1 = s.therm.spd1 := by
  obtain ⟨f, h⟩ := releaseForced_actuators s
  exact ⟨(congrArg (fun x => x.1.spd0) h :), (congrArg (fun x => x.1.spd1) h :)⟩

/-- A pump that has stopped. -/
def Therm.stopped (h : Therm) (a : Nat) : Prop := (a = 0 ∧ h.fault0 = true) ∨ (a = 1 ∧ h.fault1 = true)

theorem applied_shelf (s : State) {a : Nat} (h3 : 3 ≤ a) (h7 : a < 7) : s.applied a = b2n (s.shelf (a - 3)).enabled := by
  have h0 : ¬a = 0 := by omega
  have h1 : ¬a = 1 := by omega
  have h2 : ¬a = 2 := by omega
  rw [State.applied, if_neg h0, if_neg h1, if_neg h2, if_pos h7]

theorem applied_contactor (s : State) {a : Nat} (h : 7 ≤ a) : s.applied a = b2n (s.tray (a - 7)).contactor := by
  have h0 : ¬a = 0 := by omega
  have h1 : ¬a = 1 := by omega
  have h2 : ¬a = 2 := by omega
  rw [State.applied, if_neg h0, if_neg h1, if_neg h2, if_neg (Nat.not_lt.mpr h)]

theorem applied_setShelf_ne (s : State) {n b : Nat} (x : Shelf) (h : b ≠ n + 3) : (s.setShelf n x).applied b = s.applied b := by
  unfold State.applied
  by_cases h3 : b < 3
  · have : b = 0 ∨ b = 1 ∨ b = 2 := by omega
    rcases this with rfl | rfl | rfl <;> rfl
  · rw [setShelf_ne _ _ (by omega)]
    rfl

/-- A value voted for a pump that runs, the CDU valve or a shelf is applied. -/
theorem applyVote_applied {a v : Nat} {s : State} (h : a < 7) (hbit : 3 ≤ a → b2n (v != 0) = v) (hstop : ¬s.therm.stopped a) :
    (applyVote a v s).applied a = v := by
  rw [Therm.stopped, not_or] at hstop
  obtain ⟨hstop0, hstop1⟩ := hstop
  by_cases h0 : a = 0
  · subst h0
    have hfault : s.therm.fault0 = false := by simpa using hstop0
    rw [applyVote, if_pos rfl, releaseForced_applied]
    simp [State.applied, hfault]
  by_cases h1 : a = 1
  · subst h1
    have hfault : s.therm.fault1 = false := by simpa using hstop1
    rw [applyVote, if_neg h0, if_pos rfl, releaseForced_applied]
    simp [State.applied, hfault]
  by_cases h2 : a = 2
  · subst h2
    rw [applyVote, if_neg h0, if_neg h1, if_pos rfl, releaseForced_applied]
    rfl
  have h3 : 3 ≤ a := by omega
  rw [applyVote, if_neg h0, if_neg h1, if_neg h2, if_pos h, applied_shelf _ h3 h, setShelf_self]
  exact hbit h3

theorem applied_setSpd0 (s : State) {b : Nat} (v : Nat) (h : b ≠ 0) :
    State.applied { s with therm := { s.therm with spd0 := v } } b = s.applied b := by
  simp only [State.applied, if_neg h]
  rfl

theorem applied_setSpd1 (s : State) {b : Nat} (v : Nat) (h : b ≠ 1) :
    State.applied { s with therm := { s.therm with spd1 := v } } b = s.applied b := by
  simp only [State.applied, if_neg h]
  rfl

theorem applied_setCduValve (s : State) {b : Nat} (v : Nat) (h : b ≠ 2) :
    State.applied { s with therm := { s.therm with cduValve := v } } b = s.applied b := by
  simp only [State.applied, if_neg h]
  rfl

/-- A vote on a pump, the CDU valve or a shelf leaves the other actuators. -/
theorem applyVote_ne {a v b : Nat} (s : State) (h : a < 7) (hb : b ≠ a) : (applyVote a v s).applied b = s.applied b := by
  by_cases h0 : a = 0
  · rw [applyVote, if_pos h0, releaseForced_applied, applied_setSpd0 _ _ (by omega)]
  by_cases h1 : a = 1
  · rw [applyVote, if_neg h0, if_pos h1, releaseForced_applied, applied_setSpd1 _ _ (by omega)]
  by_cases h2 : a = 2
  · rw [applyVote, if_neg h0, if_neg h1, if_pos h2, releaseForced_applied, applied_setCduValve _ _ (by omega)]
  rw [applyVote, if_neg h0, if_neg h1, if_neg h2, if_pos h]
  exact applied_setShelf_ne _ _ (by omega)

/-- A stopped pump follows no order (R609). -/
theorem applyVote_stopped {a v : Nat} {s : State} (h : s.therm.stopped a) :
    (applyVote a v s).therm.spd0 = s.therm.spd0 ∧ (applyVote a v s).therm.spd1 = s.therm.spd1 := by
  rcases h with ⟨rfl, hfault⟩ | ⟨rfl, hfault⟩
  · rw [applyVote, if_pos rfl, (releaseForced_speeds _).1, (releaseForced_speeds _).2, hfault]
    exact ⟨rfl, rfl⟩
  · rw [applyVote, if_neg Nat.one_ne_zero, if_pos rfl, (releaseForced_speeds _).1, (releaseForced_speeds _).2, hfault]
    exact ⟨rfl, rfl⟩

theorem applyVote_tray {a : Nat} (v : Nat) (s : State) (h : 7 ≤ a) : applyVote a v s =
    if v != 0 then
      if (s.tray (a - 7)).contactor || s.heldOff (a - 7) || (s.tray (a - 7)).svc == .absent || (s.tray (a - 7)).svc == .ready then s
      else if (s.tray (a - 7)).svc == .joining && s.boot.powered && s.boot.st != 0 && s.majority then startJoin (a - 7) s
      else (s.setTtherm (a - 7) { s.ttherm (a - 7) with valve := 100 }).setTray (a - 7) { s.tray (a - 7) with contactor := true }
    else if (s.tray (a - 7)).contactor then loseTray (a - 7) 3 s else s := by
  have h0 : ¬a = 0 := by omega
  have h1 : ¬a = 1 := by omega
  have h2 : ¬a = 2 := by omega
  rw [applyVote, if_neg h0, if_neg h1, if_neg h2, if_neg (Nat.not_lt.mpr h)]

/-- An open order opens the contactor. -/
theorem applyVote_opens {a : Nat} (s : State) (h : 7 ≤ a) : ((applyVote a 0 s).tray (a - 7)).contactor = false := by
  rw [applyVote_tray _ _ h]
  cases hc : (s.tray (a - 7)).contactor with
  | false => simpa using hc
  | true =>
    rw [if_neg (by decide), if_pos rfl, loseTray_tray_self]

theorem setSvc_contactor (t : Nat) (v : TraySvc) (s : State) (u : Nat) : ((setSvc t v s).tray u).contactor = (s.tray u).contactor := by
  unfold setSvc
  split
  · rfl
  · rw [State.tray, told_trays (machineEvent_told ..)]
    show ((s.setTray t { s.tray t with svc := v }).tray u).contactor = _
    by_cases hu : u = t
    · rw [hu, setTray_self]
    · rw [setTray_ne _ _ hu]

theorem joinMod_trays (a : State) (w : Nat) : (joinMod a w).trays = a.trays := by
  unfold joinMod
  split
  · rfl
  · split
    · split
      · rfl
      · rw [startRise_frame]
    · rfl
    · rfl

theorem foldl_joinMod_trays (l : List Nat) (s : State) : (l.foldl joinMod s).trays = s.trays :=
  foldl_keeps State.trays joinMod joinMod_trays l s

/-- A tray that may join has its contactor closed. -/
theorem startJoin_closes {t : Nat} {s : State} (hpower : s.boot.powered = true) (hboot : s.boot.st ≠ 0#2) (h : s.mayJoin t = true) :
    ((startJoin t s).tray t).contactor = true := by
  have hup : ¬(!s.boot.powered || s.boot.st == 0) = true := by simp [hpower, hboot]
  rw [startJoin_eq, if_neg hup, h, if_neg (by decide), State.tray, foldl_joinMod_trays]
  refine (setSvc_contactor ..).trans ?_
  rw [setTray_self]

/-- A closing order closes the contactor of a tray that no safety action holds off. -/
theorem applyVote_closes {a v : Nat} {s : State} (h : 7 ≤ a) (hv : v ≠ 0) (hfree : s.heldOff (a - 7) = false)
    (habsent : (s.tray (a - 7)).svc ≠ .absent) (hready : (s.tray (a - 7)).svc ≠ .ready) :
    ((applyVote a v s).tray (a - 7)).contactor = true := by
  have hvote : (v != 0) = true := by simpa using hv
  rw [applyVote_tray _ _ h, if_pos hvote]
  cases hc : (s.tray (a - 7)).contactor with
  | true => simpa using hc
  | false =>
    rw [if_neg (by simp [hfree, habsent, hready])]
    split
    · rename_i hjoin
      simp only [Bool.and_eq_true, bne_iff_ne, beq_iff_eq] at hjoin
      obtain ⟨⟨⟨-, hpower⟩, hboot⟩, hmaj⟩ := hjoin
      refine startJoin_closes hpower hboot ?_
      simp [State.mayJoin, hfree, hmaj]
    · rw [setTray_self]

theorem since_applied (s : State) (a n b : Nat) : (s.since a n).applied b = s.applied b := rfl

theorem runs_actuatorOrderReceipt (s : State) (a : Fin 25) (heard bits : BitVec 3) :
    Runs (.actuatorOrderReceipt a heard bits) s (fun t =>
      (∀ v, agreed (s.votes a.val heard.toNat bits.toNat) = some v →
        (a.val < 7 → (¬s.therm.stopped a.val → t.applied a.val = v) ∧
          (s.therm.stopped a.val → t.therm.spd0 = s.therm.spd0 ∧ t.therm.spd1 = s.therm.spd1) ∧
          ∀ b, b ≠ a.val → b < 25 → t.applied b = s.applied b) ∧
        (7 ≤ a.val → v = 0 → t.applied a.val = 0) ∧
        (7 ≤ a.val → v ≠ 0 → s.heldOff (a.val - 7) = false → (s.tray (a.val - 7)).svc ≠ .absent →
          (s.tray (a.val - 7)).svc ≠ .ready → t.applied a.val = 1)) ∧
      (agreed (s.votes a.val heard.toNat bits.toNat) = none → a.val < 3 → ¬s.therm.stopped a.val →
        tget 0 a.val s.stw.noAgree ≠ 0 → tget 0 a.val s.stw.noAgree - 1 + 10000000 ≤ s.win.tb.toNat →
        2 ≤ (s.votes a.val heard.toNat bits.toNat).length → s.therm.forced = false → (∀ c, c < 3 → s.disq c = false) →
        t.applied a.val = (s.votes a.val heard.toNat bits.toNat).foldl max 0) ∧
      (agreed (s.votes a.val heard.toNat bits.toNat) = none → tget 0 a.val s.stw.noAgree = 0 →
        t.applied a.val = s.applied a.val)) := by
  refine ⟨_, exec_actuatorOrderReceipt .., ?_⟩
  have hact := orderReceipt_actuators a.val heard.toNat bits.toNat s
  generalize orderReceipt a.val heard.toNat bits.toNat s = t at hact
  have happ := applied_of_actuators hact
  have htherm : t.therm = (s.voted a.val (s.votes a.val heard.toNat bits.toNat)).therm := congrArg (·.1) hact
  have hmem : ∀ v, agreed (s.votes a.val heard.toNat bits.toNat) = some v → 3 ≤ a.val → b2n (v != 0) = v :=
    fun v hv h3 => vote_is_bit h3 (mem_of_agreed hv)
  generalize s.votes a.val heard.toNat bits.toNat = vs at happ htherm hmem
  refine ⟨fun v hv => ?_, fun hnone h3 hstop hsince hlong hlen hforced hqual => ?_, fun hnone hsince => ?_⟩
  · have hvoted : s.voted a.val vs = applyVote a.val v (s.since a.val 0) := by rw [State.voted, hv]
    rw [hvoted] at happ htherm
    refine ⟨fun h7 => ⟨fun hstop => ?_, fun hstop => ?_, fun b hb _ => ?_⟩, fun h7 hv0 => ?_, fun h7 hv1 hfree habsent hready => ?_⟩
    · rw [happ]
      exact applyVote_applied h7 (hmem v hv) hstop
    · rw [htherm]
      exact applyVote_stopped hstop
    · rw [happ, applyVote_ne _ h7 hb, since_applied]
    · subst hv0
      rw [happ, applied_contactor _ h7, applyVote_opens _ h7]
      rfl
    · rw [happ, applied_contactor _ h7, applyVote_closes (s := s.since a.val 0) h7 hv1 hfree habsent hready]
      rfl
  · have hall : [0, 1, 2].any (fun c => s.disq c) = false := by
      simp [hqual 0 (by decide), hqual 1 (by decide), hqual 2 (by decide)]
    have hvoted : s.voted a.val vs = applyVote a.val (vs.foldl max 0) s := by
      simp only [State.voted, hnone]
      rw [if_neg hsince, if_pos ⟨h3, hlong, hlen, hforced, hall⟩]
    rw [happ, hvoted]
    exact applyVote_applied (by omega) (fun h => absurd h3 (Nat.not_lt.mpr h)) hstop
  · have hvoted : s.voted a.val vs = s.since a.val (s.win.tb.toNat + 1) := by
      simp only [State.voted, hnone]
      exact if_pos hsince
    rw [happ, hvoted, since_applied]

/-- Settles O49: a period publishes the authority's limited order; two agreeing orders set an actuator; pumps, the reservoir,
the CDU's leak sensor and its watchdog, command by command. -/
theorem coolingIsOrderedAndVoted : Obligations.CoolingIsOrderedAndVoted := by
  unfold Obligations.CoolingIsOrderedAndVoted
  refine ⟨runs_coolingControlPeriod, runs_actuatorOrderReceipt, fun s => ?_⟩
  obtain ⟨hstop0, hagain0, hagain1, hstop1⟩ := runs_pumpStop s
  obtain ⟨hretry0, hretry1⟩ := runs_pumpRetry s
  obtain ⟨hrejoin0, hrejoin1⟩ := runs_pumpRejoin s
  obtain ⟨hforce, hstay⟩ := runs_cduVoterWatchdog s
  exact ⟨hstop0, hagain0, hagain1, hstop1, hretry0, hretry1, hrejoin0, hrejoin1, runs_reservoirLevelChange s,
    runs_cduLeakSensed s, hforce, hstay⟩

end Sys2Proof.Machine
end

section
/-! PROOFS. Heat: readings, the forecaster and the hard limits (O50). -/

namespace Sys2Proof.Machine

open Sys2Proof

theorem exec_trayCoolantSample (u : Fin 18) (inlet outlet : BitVec 12) (flow : BitVec 10) (wet : Bool) (s : State) :
    exec (.trayCoolantSample u inlet outlet flow wet) s =
      .next (coolantSample u.val inlet.toInt outlet.toInt flow.toNat wet s) := rfl

theorem exec_junctionSensorSample (w : Fin 96) (d : BitVec 2) (r : List (Option (BitVec 12))) (s : State) :
    exec (.junctionSensorSample w d r) s = .next (sensorSample w.val d.toNat (r.map fun x => x.map (·.toInt)) s) := rfl

theorem exec_forecasterUpdate (w : Fin 96) (s : State) : exec (.forecasterUpdate w) s = .next (forecast w.val s) := rfl

theorem exec_comparatorTrip (u : Fin 17) (slot : BitVec 3) (die : BitVec 2) (s : State) :
    exec (.comparatorTrip u slot die) s = .next (comparatorTrip u.val slot.toNat die.toNat s) := rfl

theorem exec_lossOfFlow (s : State) : exec .lossOfFlow s = .next (lossOfFlow s) := rfl

theorem exec_leakCutoff (u : Fin 17) (s : State) : exec (.leakCutoff u) s = .next (leakCutoff u.val s) := rfl

theorem exec_wardenWatchdogExpiry (u : Fin 18) (s : State) : exec (.wardenWatchdogExpiry u) s = .next (wardenLost u.val s) := rfl

/-! ### Samples (R611, R614, R617) -/

/-- A tray's figures as sampled. -/
def TrayTherm.sampled (x : TrayTherm) (inlet outlet : Int) (flow : Nat) (wet : Bool) (dry : Nat) : TrayTherm :=
  { x with
    inlet := inlet, outlet := outlet, flow := flow, leak := wet, dry := dry
    inletHigh := if x.inletHigh then decide (124 < inlet) else decide (128 < inlet) }

theorem told_ite {p : Prop} [Decidable p] {s a b : State} (ha : a = told s a) (hb : b = told s b) :
    (if p then a else b) = told s (if p then a else b) := by
  split
  · exact ha
  · exact hb

theorem coolantSample_told (t : Nat) (inlet outlet : Int) (flow : Nat) (wet : Bool) (s : State) : ∃ dry,
    coolantSample t inlet outlet flow wet s =
      told (s.setTtherm t ((s.ttherm t).sampled inlet outlet flow wet dry)) (coolantSample t inlet outlet flow wet s) := by
  refine ⟨if wet then 0 else if (s.ttherm t).dry = 0 then s.win.tb.toNat + 1 else (s.ttherm t).dry, ?_⟩
  exact told_ite rfl (machineEvent_told ..)

theorem runs_trayCoolantSample (s : State) (u : Fin 18) (inlet outlet : BitVec 12) (flow : BitVec 10) (wet : Bool) :
    Runs (.trayCoolantSample u inlet outlet flow wet) s (fun t =>
      t = { told s t with therm := { s.therm with trays := t.therm.trays } } ∧ (∀ j, j ≠ u.val → t.ttherm j = s.ttherm j) ∧
      (t.ttherm u.val).inlet = inlet.toInt ∧ (t.ttherm u.val).outlet = outlet.toInt ∧ (t.ttherm u.val).flow = flow.toNat ∧
      (t.ttherm u.val).leak = wet ∧ (t.ttherm u.val).valve = (s.ttherm u.val).valve ∧
      (t.ttherm u.val).inletHigh =
        (if (s.ttherm u.val).inletHigh then decide (124 < inlet.toInt) else decide (128 < inlet.toInt))) := by
  refine ⟨_, exec_trayCoolantSample .., ?_⟩
  beta_reduce
  obtain ⟨dry, htold⟩ := coolantSample_told u.val inlet.toInt outlet.toInt flow.toNat wet s
  generalize coolantSample u.val inlet.toInt outlet.toInt flow.toNat wet s = t at htold
  have hself : t.ttherm u.val = (s.ttherm u.val).sampled inlet.toInt outlet.toInt flow.toNat wet dry := by
    rw [State.ttherm, told_therm htold]
    exact setTtherm_self ..
  refine ⟨?_, fun j hj => ?_, ?_⟩
  · rw [htold]
    rfl
  · rw [State.ttherm, told_therm htold]
    exact setTtherm_ne _ _ hj
  · rw [hself]
    exact ⟨rfl, rfl, rfl, rfl, rfl, rfl⟩

theorem foldl_told {α : Type} (f : State → α → State) (hf : ∀ a x, f a x = told a (f a x)) (l : List α) (s : State) :
    l.foldl f s = told s (l.foldl f s) := by
  induction l generalizing s with
  | nil => rfl
  | cons x l ih => exact told_trans (hf s x) (ih (f s x))

/-- The valid readings of eight sensors. -/
def validReadings (readings : List (Option Int)) : List (Option Int) :=
  (List.range 8).map (fun i => validReading (readings.getD i none))

theorem validReadings_eq {r : List (Option Int)} (h : r.length = 8) : validReadings r = r.map validReading := by
  refine List.ext_getElem (by simp [validReadings, h]) fun i h1 h2 => ?_
  have hi : i < r.length := by simpa using h2
  simp [validReadings, List.getD_eq_getElem?_getD, hi]

/-- A valid reading of a die is below -10 C. -/
def coldReading (r : Option Int) : Bool := r.any fun y => decide (y < -40)

theorem sensorSample_told {w d : Nat} {s : State} (r : List (Option Int)) (h : s.auxUp w = true) : ∃ x : DieTherm,
    x.sensors = validReadings r ∧ x.cold = (validReadings r).any coldReading ∧
    sensorSample w d r s = told (markWait (s.setDie (w * 4 + d) x)) (sensorSample w d r s) := by
  unfold sensorSample
  rw [if_pos h]
  refine ⟨_, ?_, ?_, foldl_told _ (fun _ _ => machineEvent_told ..) _ _⟩
  · rfl
  · rfl

/-- A reading that counts: between -40 C and 150 C. -/
def countedReading (r : Option (BitVec 12)) : Bool := r.any (fun v => decide (-160 ≤ v.toInt ∧ v.toInt ≤ 600))

theorem validReading_map (r : Option (BitVec 12)) :
    validReading (r.map (·.toInt)) = if countedReading r then r.map (·.toInt) else none := by
  cases r with
  | none => rfl
  | some v => simp [validReading, countedReading]

theorem coldReading_valid (r : Option (BitVec 12)) : coldReading (validReading (r.map (·.toInt))) = true ↔
    countedReading r = true ∧ r.any (fun v => decide (v.toInt < -40)) = true := by
  rw [validReading_map]
  cases hr : countedReading r with
  | false => simp [coldReading]
  | true => cases r <;> simp [coldReading]

theorem runs_junctionSensorSample (s : State) (w : Fin 96) (d : BitVec 2) (r : List (Option (BitVec 12)))
    (haux : s.auxUp w.val = true) (hlen : r.length = 8) : Runs (.junctionSensorSample w d r) s (fun t =>
      t = { told s t with therm := { s.therm with dies := t.therm.dies }, boot := { s.boot with
        waitFrom := t.boot.waitFrom, waitSum := t.boot.waitSum } } ∧
      (∀ j, j ≠ w.val * 4 + d.toNat → t.die j = s.die j) ∧
      (∀ i, i < 8 → (t.die (w.val * 4 + d.toNat)).sensors.getD i none =
        if countedReading (r.getD i none) then (r.getD i none).map (·.toInt) else none) ∧
      ((t.die (w.val * 4 + d.toNat)).cold = true ↔
        ∃ x ∈ r, countedReading x = true ∧ x.any (fun v => decide (v.toInt < -40)) = true)) := by
  refine ⟨_, exec_junctionSensorSample .., ?_⟩
  beta_reduce
  obtain ⟨x, hsensors, hcold, htold⟩ := sensorSample_told (d := d.toNat) (r.map fun x => x.map (·.toInt)) haux
  generalize sensorSample w.val d.toNat (r.map fun x => x.map (·.toInt)) s = t at htold
  have hself : t.die (w.val * 4 + d.toNat) = x := by
    rw [State.die, told_therm htold, markWait_frame]
    exact setDie_self ..
  rw [validReadings_eq (by simpa using hlen), List.map_map] at hsensors hcold
  refine ⟨?_, fun j hj => ?_, fun i hi => ?_, ?_⟩
  · rw [htold, markWait_frame]
    rfl
  · rw [State.die, told_therm htold, markWait_frame]
    exact setDie_ne _ _ hj
  · have hir : i < r.length := by omega
    rw [hself, hsensors]
    simp only [List.getD_eq_getElem?_getD, List.getElem?_map, List.getElem?_eq_getElem hir, Option.map_some, Option.getD_some]
    exact validReading_map _
  · rw [hself, hcold, List.any_map, List.any_eq_true]
    exact exists_congr fun y => and_congr_right fun _ => coldReading_valid y

/-! ### The forecaster (R616 to R624) -/

/-- A module's forecaster words without the counts of pauses and spills. -/
def ModTherm.still (m : ModTherm) : ModTherm := { m with pauses := 0, spills := 0 }

/-- What a module's limit at an update rests on. -/
def ModTherm.limit (m : ModTherm) : Nat × Nat := (m.flim, m.fair)

/-- The highest level of a module's dies under the forecasts given. -/
def State.worst (s : State) (w : Nat) (l : List (List Int × Int)) : Nat :=
  ([0, 1, 2, 3].map (fun d => bandOf (l.getD d ([], 0)).2 (s.die (w * 4 + d)).meas (s.die (w * 4 + d)).blind)).foldl max 0

/-- The state with a module's limit moved at update `n`. -/
def State.limited (s : State) (w n ceil lv : Nat) : State :=
  s.setMtherm w { flimAfter ceil lv (s.mtherm w) with last := n + 1 }

/-- The dies of a module settled one after another. -/
def settleDies (w flim : Nat) (floor : Bool) (l : List (List Int × Int)) (ds : List Nat) (s : State) : State :=
  ds.foldl (fun a d => settleDie w d (l.getD d ([], 0)).1 (l.getD d ([], 0)).2 flim floor a) s

/-- An update once the isles have rotated and the forecasts are made. -/
def forecastEnd (w n ceil : Nat) (floor : Bool) (l : List (List Int × Int)) (s : State) : State :=
  let s1 := s.limited w n ceil (s.worst w l)
  let s3 := stormSpills w (settleDies w (s1.mtherm w).flim floor l [0, 1, 2, 3] s1)
  let y := s3.ttherm (w / 8)
  if 2 ≤ s.worst w l ∧ s3.wardenRuns (w / 8) = true ∧ y.leakCut = false then s3.setTtherm (w / 8) { y with valve := 100 } else s3

/-- What rotation leaves: the dies, and what the module's limit rests on. -/
def State.unrotated (s : State) (w : Nat) : Tab DieTherm × Nat × Nat := (s.therm.dies, (s.mtherm w).limit)

/-- Steps that each leave a part of the state leave it together, whatever they collect. -/
theorem foldl_collect_keeps {β γ : Type} (v : State → γ) (f : State × β → Nat → State × β) (h : ∀ q d, v (f q d).1 = v q.1)
    (ds : List Nat) (q : State × β) : v (ds.foldl f q).1 = v q.1 := by
  induction ds generalizing q with
  | nil => rfl
  | cons d ds ih => exact (ih _).trans (h q d)

theorem setRotations_unrotated (s : State) (w : Nat) (r : BitVec 16) :
    (s.setMtherm w { s.mtherm w with rotations := r }).unrotated w = s.unrotated w := by
  rw [State.unrotated, setMtherm_self]
  rfl

theorem forecast_eq {w : Nat} {s : State} (haux : s.auxUp w = true) (hnew : (s.mtherm w).last ≠ s.win.tb.toNat / 25000 + 1) :
    ∃ floor l u, u.unrotated w = s.unrotated w ∧
      forecast w s = forecastEnd w (s.win.tb.toNat / 25000) s.machCeil floor l u := by
  have hdue : ¬((!(s.auxUp w)) = true ∨ (s.mtherm w).last = s.win.tb.toNat / 25000 + 1) := by simp [haux, hnew]
  rw [forecast, if_neg hdue]
  refine ⟨_, _, _, ?_, rfl⟩
  refine foldl_collect_keeps (fun a => a.unrotated w) _ (fun q d => ?_) [0, 1, 2, 3] (s, [])
  refine (setRotations_unrotated ..).trans ?_
  exact foldl_keeps (fun b => b.unrotated w) _ (fun _ _ => rfl) [0, 1, 2, 3] q.1

/-! What one die's settling leaves (R617, R618, R623). -/

theorem therm_ite {p : Prop} [Decidable p] {a b : State} {h : Therm} (ha : a.therm = h) (hb : b.therm = h) :
    (if p then a else b).therm = h := by
  split
  · exact ha
  · exact hb

/-- A die settles at the level of its forecast and its measurement, which settling leaves; its pause may be counted. -/
theorem settleDie_therm (w d : Nat) (x' : List Int) (pred : Int) (flim : Nat) (floor : Bool) (s : State) : ∃ x : DieTherm,
    x.level = bandOf pred (s.die (w * 4 + d)).meas (s.die (w * 4 + d)).blind ∧ x.pred = pred ∧
    x.meas = (s.die (w * 4 + d)).meas ∧ x.sensors = (s.die (w * 4 + d)).sensors ∧ ∃ (b : Bool) (m : ModTherm),
      m.still = (s.mtherm w).still ∧ (settleDie w d x' pred flim floor s).therm =
        (if b then (s.setDie (w * 4 + d) x).setMtherm w m else s.setDie (w * 4 + d) x).therm := by
  unfold settleDie
  dsimp only
  refine ⟨_, ?_, ?_, ?_, ?_, _, _, ?_, (therm_ite (told_therm (machineEvent_told ..)) rfl).trans rfl⟩
  all_goals rfl

section
variable (w d : Nat) (x' : List Int) (pred : Int) (flim : Nat) (floor : Bool) (s : State)

theorem settleDie_die_self : ((settleDie w d x' pred flim floor s).die (w * 4 + d)).level =
      bandOf pred (s.die (w * 4 + d)).meas (s.die (w * 4 + d)).blind ∧
    ((settleDie w d x' pred flim floor s).die (w * 4 + d)).pred = pred ∧
    ((settleDie w d x' pred flim floor s).die (w * 4 + d)).meas = (s.die (w * 4 + d)).meas ∧
    ((settleDie w d x' pred flim floor s).die (w * 4 + d)).sensors = (s.die (w * 4 + d)).sensors := by
  obtain ⟨x, hlevel, hpred, hmeas, hsensors, b, m, -, h⟩ := settleDie_therm w d x' pred flim floor s
  have hdie : (settleDie w d x' pred flim floor s).die (w * 4 + d) = x := by
    rw [State.die, h]
    cases b <;> exact setDie_self ..
  rw [hdie]
  exact ⟨hlevel, hpred, hmeas, hsensors⟩

theorem settleDie_die_ne {k : Nat} (hk : k ≠ w * 4 + d) : (settleDie w d x' pred flim floor s).die k = s.die k := by
  obtain ⟨x, -, -, -, -, b, m, -, h⟩ := settleDie_therm w d x' pred flim floor s
  rw [State.die, h]
  cases b <;> exact setDie_ne _ _ hk

theorem settleDie_still (j : Nat) : ((settleDie w d x' pred flim floor s).mtherm j).still = (s.mtherm j).still := by
  obtain ⟨x, -, -, -, -, b, m, hm, h⟩ := settleDie_therm w d x' pred flim floor s
  rw [State.mtherm, h]
  cases b with
  | false => rfl
  | true =>
    show (((s.setDie (w * 4 + d) x).setMtherm w m).mtherm j).still = _
    by_cases hj : j = w
    · rw [hj, setMtherm_self, hm]
    · rw [setMtherm_ne _ _ hj]
      rfl

end

/-- What a die has measured. -/
def DieTherm.measured (x : DieTherm) : Int × List (Option Int) := (x.meas, x.sensors)

theorem settleDie_measured (w d : Nat) (x' : List Int) (pred : Int) (flim : Nat) (floor : Bool) (s : State) (k : Nat) :
    ((settleDie w d x' pred flim floor s).die k).measured = (s.die k).measured := by
  by_cases hk : k = w * 4 + d
  · obtain ⟨-, -, hmeas, hsensors⟩ := settleDie_die_self w d x' pred flim floor s
    rw [hk]
    exact Prod.ext hmeas hsensors
  · rw [settleDie_die_ne _ _ _ _ _ _ _ hk]

theorem settleDies_still (w flim : Nat) (floor : Bool) (l : List (List Int × Int)) (ds : List Nat) (s : State) (j : Nat) :
    ((settleDies w flim floor l ds s).mtherm j).still = (s.mtherm j).still :=
  foldl_keeps (fun a => (a.mtherm j).still) (fun a d => settleDie w d (l.getD d ([], 0)).1 (l.getD d ([], 0)).2 flim floor a)
    (fun a d => settleDie_still w d _ _ flim floor a j) ds s

/-- A die stands at the level of its forecast and its measurement. -/
def DieTherm.settled (x : DieTherm) (pred : Int) (y : DieTherm) : Prop :=
  x.level = bandOf pred y.meas y.blind ∧ x.pred = pred

theorem blind_of_measured {x y : DieTherm} (h : x.measured = y.measured) : x.blind = y.blind :=
  congrArg (fun p : Int × List (Option Int) => (p.2.take 4).all (·.isNone)) h

theorem settleDies_settled (w flim : Nat) (floor : Bool) (l : List (List Int × Int)) (ds : List Nat) (s : State) {d : Nat}
    (hd : d ∈ ds) : ((settleDies w flim floor l ds s).die (w * 4 + d)).settled (l.getD d ([], 0)).2 (s.die (w * 4 + d)) := by
  refine foldl_establishes_under (fun a => ∀ k, (a.die k).measured = (s.die k).measured)
    (fun a => (a.die (w * 4 + d)).settled (l.getD d ([], 0)).2 (s.die (w * 4 + d)))
    (fun a d => settleDie w d (l.getD d ([], 0)).1 (l.getD d ([], 0)).2 flim floor a) d
    (fun a y ha k => (settleDie_measured w y _ _ flim floor a k).trans (ha k)) ?_ (fun a y ha hP => ?_) ds s (fun _ => rfl) hd
  case refine_1 =>
    intro a ha
    obtain ⟨hlevel, hpred, -, -⟩ := settleDie_die_self w d (l.getD d ([], 0)).1 (l.getD d ([], 0)).2 flim floor a
    have hmeas : (a.die (w * 4 + d)).meas = (s.die (w * 4 + d)).meas := congrArg Prod.fst (ha _)
    rw [hmeas, blind_of_measured (ha _)] at hlevel
    exact ⟨hlevel, hpred⟩
  by_cases hy : y = d
  · subst hy
    obtain ⟨hlevel, hpred, -, -⟩ := settleDie_die_self w y (l.getD y ([], 0)).1 (l.getD y ([], 0)).2 flim floor a
    have hmeas : (a.die (w * 4 + y)).meas = (s.die (w * 4 + y)).meas := congrArg Prod.fst (ha _)
    rw [hmeas, blind_of_measured (ha _)] at hlevel
    exact ⟨hlevel, hpred⟩
  · rw [settleDie_die_ne _ _ _ _ _ _ _ (by omega)]
    exact hP

/-- Chains that spill leave the dies, and of a module's words all but the count of spills. -/
theorem stormSpills_keeps (w : Nat) (s : State) : (stormSpills w s).therm.dies = s.therm.dies ∧
    ∀ j, ((stormSpills w s).mtherm j).still = (s.mtherm j).still := by
  have hstep : ∀ (a : State) (m : ModTherm), m.still = (a.mtherm w).still → ∀ j,
      ((a.setMtherm w m).mtherm j).still = (a.mtherm j).still := by
    intro a m hm j
    by_cases hj : j = w
    · rw [hj, setMtherm_self, hm]
    · rw [setMtherm_ne _ _ hj]
  refine ⟨?_, fun j => ?_⟩
  · refine foldl_keeps (fun a => a.therm.dies) _ (fun a r => ?_) _ s
    dsimp only
    split
    · split <;> rfl
    · rfl
  · refine foldl_keeps (fun a => (a.mtherm j).still) _ (fun a r => ?_) _ s
    dsimp only
    split
    · split
      · refine (hstep (modCmd r _ _ a) _ ?_ j).trans rfl
        rfl
      · rfl
    · rfl

/-- What an update leaves of the module's own words, and the level each die stands at. -/
theorem forecastEnd_facts (w n ceil : Nat) (floor : Bool) (l : List (List Int × Int)) (s : State) :
    ((forecastEnd w n ceil floor l s).mtherm w).still =
      ({ flimAfter ceil (s.worst w l) (s.mtherm w) with last := n + 1 } : ModTherm).still ∧
    ∀ d, d < 4 → ((forecastEnd w n ceil floor l s).die (w * 4 + d)).settled (l.getD d ([], 0)).2 (s.die (w * 4 + d)) := by
  set s1 := s.limited w n ceil (s.worst w l) with hs1
  set s2 := settleDies w (s1.mtherm w).flim floor l [0, 1, 2, 3] s1 with hs2
  obtain ⟨hdies, hstill⟩ := stormSpills_keeps w s2
  have hend : ∀ (c : Prop) [Decidable c] (v : TrayTherm) (a : State), (if c then a.setTtherm (w / 8) v else a).therm.dies = a.therm.dies ∧
      (if c then a.setTtherm (w / 8) v else a).therm.mods = a.therm.mods := by
    intro c _ v a
    split <;> exact ⟨rfl, rfl⟩
  have hres : (forecastEnd w n ceil floor l s).therm.dies = (stormSpills w s2).therm.dies ∧
      (forecastEnd w n ceil floor l s).therm.mods = (stormSpills w s2).therm.mods := hend _ _ _
  refine ⟨?_, fun d hd => ?_⟩
  · rw [State.mtherm, hres.2]
    refine (hstill w).trans ((settleDies_still ..).trans ?_)
    rw [hs1, State.limited, setMtherm_self]
  · have hmem : d ∈ [0, 1, 2, 3] := by
      have : d = 0 ∨ d = 1 ∨ d = 2 ∨ d = 3 := by omega
      simpa using this
    rw [State.die, hres.1, hdies]
    exact settleDies_settled w _ floor l _ s1 hmem

theorem runs_forecasterUpdate (s : State) (w : Fin 96) (haux : s.auxUp w.val = true)
    (hnew : (s.mtherm w.val).last ≠ s.win.tb.toNat / 25000 + 1) : Runs (.forecasterUpdate w) s (fun t =>
      (t.mtherm w.val).last = s.win.tb.toNat / 25000 + 1 ∧
      (∀ d, d < 4 → (t.die (w.val * 4 + d)).level =
        bandOf (t.die (w.val * 4 + d)).pred (s.die (w.val * 4 + d)).meas (s.die (w.val * 4 + d)).blind) ∧
      (t.mtherm w.val).flim =
        (if ([0, 1, 2, 3].map (fun d => (t.die (w.val * 4 + d)).level)).foldl max 0 = 3 then max 700 ((s.mtherm w.val).flim - 30)
        else if ([0, 1, 2, 3].map (fun d => (t.die (w.val * 4 + d)).level)).foldl max 0 = 2 then
          max 700 ((s.mtherm w.val).flim - 10)
        else if ([0, 1, 2, 3].map (fun d => (t.die (w.val * 4 + d)).level)).foldl max 0 = 0 ∧ 7 ≤ (s.mtherm w.val).fair then
          min s.machCeil ((s.mtherm w.val).flim + 10) else (s.mtherm w.val).flim)) := by
  refine ⟨_, exec_forecasterUpdate .., ?_⟩
  beta_reduce
  obtain ⟨floor, l, u, hu, heq⟩ := forecast_eq haux hnew
  obtain ⟨hstill, hlevels⟩ := forecastEnd_facts w.val (s.win.tb.toNat / 25000) s.machCeil floor l u
  rw [← heq] at hstill hlevels
  generalize forecast w.val s = t at hstill hlevels
  have hdie : ∀ k, u.die k = s.die k := fun k => congrArg (tget _ k) (congrArg Prod.fst hu)
  have hworst : ([0, 1, 2, 3].map (fun d => (t.die (w.val * 4 + d)).level)).foldl max 0 = u.worst w.val l := by
    refine congrArg (List.foldl max 0) (List.map_congr_left fun d hd => ?_)
    refine (hlevels d ?_).1
    have : d = 0 ∨ d = 1 ∨ d = 2 ∨ d = 3 := by simpa using hd
    omega
  have hlimit : (u.mtherm w.val).limit = (s.mtherm w.val).limit := congrArg Prod.snd hu
  have hflim : (u.mtherm w.val).flim = (s.mtherm w.val).flim := congrArg Prod.fst hlimit
  have hfair : (u.mtherm w.val).fair = (s.mtherm w.val).fair := congrArg Prod.snd hlimit
  refine ⟨(congrArg ModTherm.last hstill :), fun d hd => ?_, ?_⟩
  · rw [(hlevels d hd).1, (hlevels d hd).2, hdie]
  · rw [hworst, ← hflim, ← hfair]
    exact (congrArg ModTherm.flim hstill :)

/-! ### Hard limits (R625 to R627) -/

theorem told_mods {s t : State} (h : t = told s t) : t.mods = s.mods := by
  rw [h]
  rfl

theorem told_pwrMods {s t : State} (h : t = told s t) : t.pwr.mods = s.pwr.mods := by
  rw [h]
  rfl

/-- A compute die's comparator has tripped, and its module is held off. -/
def State.tripped (s : State) (w d : Nat) : State :=
  holdMods [w] (s.setDie (w * 4 + d) { s.die (w * 4 + d) with tripped := true })

/-- A tray is cut off with its modules' power as it is. -/
def offTray (cause t : Nat) (s : State) : State := closeValve t (loseTray t cause s)

theorem comparatorTrip_module {u slot d : Nat} {s : State} (hu : u < 12) (haux : s.auxUp (u * 8 + slot) = true) :
    comparatorTrip u slot d s = told (loseModule (u * 8 + slot) 2 (s.tripped (u * 8 + slot) d)) (comparatorTrip u slot d s) := by
  unfold comparatorTrip
  rw [if_pos hu, if_pos haux]
  exact told_trans (told_trans (machineEvent_told ..) (told_of_logged (logAdd_logged ..))) (limitEvent_told ..)

theorem comparatorTrip_tray {u : Nat} (slot d : Nat) {s : State} (hu : 12 ≤ u) (hon : (s.tray u).contactor = true) :
    comparatorTrip u slot d s =
      told (offTray 2 u (s.setTtherm u { s.ttherm u with ot := true })) (comparatorTrip u slot d s) := by
  unfold comparatorTrip
  rw [if_neg (Nat.not_lt.mpr hu), if_pos hon]
  exact told_trans (machineEvent_told ..) (told_of_logged (logAdd_logged ..))

theorem offTray_self {t : Nat} (cause : Nat) (s : State) (ht : t < 17) : ((offTray cause t s).tray t).contactor = false ∧
    (offTray cause t s).ttherm t = { s.ttherm t with valve := 0, forced := false } := by
  refine ⟨?_, ?_⟩
  · rw [offTray, closeValve_tray, loseTray_tray_self]
  · rw [offTray, closeValve, setTtherm_self, loseTray_ttherm_self cause s ht]

theorem cutTray_ttherm_self {t : Nat} (cause : Nat) (s : State) (ht : t < 17) :
    (cutTray cause t s).ttherm t = { s.ttherm t with valve := 0, forced := false } := by
  refine (offTray_self cause _ ht).2.trans ?_
  rw [State.ttherm, holdMods_therm]
  rfl

theorem runs_comparatorTrip_module (s : State) (u : Fin 17) (slot : BitVec 3) (die : BitVec 2) (hu : u.val < 12)
    (haux : s.auxUp (u.val * 8 + slot.toNat) = true) : Runs (.comparatorTrip u slot die) s (fun t =>
      (t.die ((u.val * 8 + slot.toNat) * 4 + die.toNat)).tripped = true ∧ (t.pwrMod (u.val * 8 + slot.toNat)).safety = true ∧
      (s.modServing (u.val * 8 + slot.toNat) = true → (t.mod (u.val * 8 + slot.toNat)).state = 2 ∧
        (t.mod (u.val * 8 + slot.toNat)).stage = 15 ∧ (t.mod (u.val * 8 + slot.toNat)).cause = 2)) := by
  refine ⟨_, exec_comparatorTrip .., ?_⟩
  beta_reduce
  have htold := comparatorTrip_module (d := die.toNat) hu haux
  generalize comparatorTrip u.val slot.toNat die.toNat s = t at htold
  generalize u.val * 8 + slot.toNat = w at htold
  refine ⟨?_, ?_, fun hserving => ?_⟩
  · rw [State.die, told_therm htold, loseModule_therm, State.tripped, holdMods_therm]
    exact congrArg DieTherm.tripped (setDie_self ..)
  · rw [State.pwrMod, told_pwrMods htold]
    refine (loseModule_safety ..).trans ?_
    exact holdMods_safety [w] _ (List.mem_singleton.mpr rfl)
  · have hmod : t.mod w = (loseModule w 2 (s.tripped w die.toNat)).mod w := congrArg (tget _ w) (told_mods htold)
    rw [hmod]
    refine loseModule_mod_self ?_
    exact (holdMods_keeps (fun a => a.modServing w) (fun _ _ _ => rfl) _ _).trans hserving

theorem runs_comparatorTrip_tray (s : State) (u : Fin 17) (slot : BitVec 3) (die : BitVec 2) (hu : 12 ≤ u.val)
    (hon : (s.tray u.val).contactor = true) : Runs (.comparatorTrip u slot die) s (fun t =>
      (t.ttherm u.val).ot = true ∧ (t.ttherm u.val).valve = 0 ∧ (t.tray u.val).contactor = false) := by
  refine ⟨_, exec_comparatorTrip .., ?_⟩
  beta_reduce
  have htold := comparatorTrip_tray slot.toNat die.toNat hu hon
  generalize comparatorTrip u.val slot.toNat die.toNat s = t at htold
  obtain ⟨hopen, htt⟩ := offTray_self 2 (s.setTtherm u.val { s.ttherm u.val with ot := true }) u.isLt
  have hself : t.ttherm u.val = _ := (congrArg (fun h : Therm => tget _ u.val h.trays) (told_therm htold)).trans htt
  rw [hself, setTtherm_self, State.tray, told_trays htold]
  exact ⟨rfl, rfl, hopen⟩

theorem foldl_cutTray_off (cause : Nat) (l : List Nat) (s : State) {u : Nat} (hu : u ∈ l) :
    ((l.foldl (fun a t => cutTray cause t a) s).tray u).contactor = false ∧
      ((l.foldl (fun a t => cutTray cause t a) s).ttherm u).valve = 0 := by
  refine foldl_establishes_under (fun _ => True) (fun a => (a.tray u).contactor = false ∧ (a.ttherm u).valve = 0)
    (fun a t => cutTray cause t a) u (fun _ _ _ => trivial) (fun a _ => cutTray_self cause u a) (fun a t _ ha => ?_) l s trivial hu
  by_cases hut : u = t
  · exact hut ▸ cutTray_self cause u a
  · rw [(cutTray_ne cause a hut).1, (cutTray_ne cause a hut).2]
    exact ha

theorem foldl_cutTray_plant (cause : Nat) (l : List Nat) (s : State) :
    (l.foldl (fun a t => cutTray cause t a) s).therm.plant = s.therm.plant :=
  foldl_keeps (fun a => a.therm.plant) (fun a t => cutTray cause t a) (fun a t => cutTray_plant cause t a) l s

theorem lossOfFlow_told {s : State} (hlow : s.therm.lowFlow ≠ 0) (hlong : s.therm.lowFlow - 1 + 500000000 ≤ s.win.tb.toNat)
    (hnew : s.therm.flowLost = false) : lossOfFlow s = told ((List.range 17).foldl (fun a t => cutTray 2 t a)
      { s with therm := { s.therm with flowLost := true } }) (lossOfFlow s) := by
  rw [lossOfFlow, if_pos ⟨hlow, hlong, hnew⟩]
  exact told_trans (told_trans (machineEvent_told ..) (told_of_logged (logAdd_logged ..))) (limitEvent_told ..)

theorem runs_lossOfFlow {s : State} (hlow : s.therm.lowFlow ≠ 0) (hlong : s.therm.lowFlow - 1 + 500000000 ≤ s.win.tb.toNat)
    (hnew : s.therm.flowLost = false) : Runs .lossOfFlow s (fun t => t.therm.flowLost = true ∧
      ∀ v, v < 17 → (t.tray v).contactor = false ∧ (t.ttherm v).valve = 0) := by
  refine ⟨_, exec_lossOfFlow s, ?_⟩
  beta_reduce
  have htold := lossOfFlow_told hlow hlong hnew
  generalize lossOfFlow s = t at htold
  have hmem : ∀ v, v < 17 → v ∈ List.range 17 := fun v hv => List.mem_range.mpr hv
  generalize List.range 17 = l at htold hmem
  have hplant := foldl_cutTray_plant 2 l { s with therm := { s.therm with flowLost := true } }
  rw [← told_therm htold] at hplant
  refine ⟨(congrArg Therm.flowLost hplant :), fun v hv => ?_⟩
  rw [State.tray, State.ttherm, told_trays htold, told_therm htold]
  exact foldl_cutTray_off 2 l _ (hmem v hv)

theorem leakCutoff_told {u : Nat} {s : State} (hnew : (s.ttherm u).leakCut = false) (hin : (s.tray u).svc ≠ .absent) :
    leakCutoff u s = told (cutTray 3 u (s.setTtherm u { s.ttherm u with leakCut := true, leak := true, dry := 0 }))
      (leakCutoff u s) := by
  have hcut : ¬((s.ttherm u).leakCut || (s.tray u).svc == .absent) = true := by simp [hnew, hin]
  rw [leakCutoff, if_neg hcut]
  exact told_trans (told_trans (machineEvent_told ..) (told_of_logged (logAdd_logged ..))) (limitEvent_told ..)

theorem runs_leakCutoff {s : State} (u : Fin 17) (hnew : (s.ttherm u.val).leakCut = false) (hin : (s.tray u.val).svc ≠ .absent) :
    Runs (.leakCutoff u) s (fun t => (t.ttherm u.val).leakCut = true ∧ (t.ttherm u.val).valve = 0 ∧
      (t.tray u.val).contactor = false ∧ ∀ m ∈ trayMods u.val, (t.pwrMod m).safety = true) := by
  refine ⟨_, exec_leakCutoff u s, ?_⟩
  beta_reduce
  have htold := leakCutoff_told hnew hin
  generalize leakCutoff u.val s = t at htold
  set a := s.setTtherm u.val { s.ttherm u.val with leakCut := true, leak := true, dry := 0 } with ha
  have hself : t.ttherm u.val = { a.ttherm u.val with valve := 0, forced := false } :=
    (congrArg (fun h : Therm => tget _ u.val h.trays) (told_therm htold)).trans (cutTray_ttherm_self 3 a u.isLt)
  obtain ⟨-, hmods⟩ := loseTray_holdMods u.val 3 a
  have hleak : (a.ttherm u.val).leakCut = true := by rw [ha, setTtherm_self]
  rw [hself, State.tray, told_trays htold]
  refine ⟨hleak, rfl, (cutTray_self 3 u.val a).1, fun m hm => ?_⟩
  rw [State.pwrMod, told_pwrMods htold]
  exact (hmods m hm).1

/-! ### A warden's watchdog (R593, R623, R631) -/

/-- A module's cap is latched as it is in effect. -/
def latchCap (s a : State) (w : Nat) : State := a.setPwrMod w { a.pwrMod w with
  capLatch := some (s.capEff w), guard := (a.pwrMod w).obj.st == .on }

theorem foldl_latchCap_self (s : State) (l : List Nat) (a : State) {w : Nat} (hw : w ∈ l) :
    ((l.foldl (latchCap s) a).pwrMod w).capLatch = some (s.capEff w) := by
  refine foldl_establishes_under (fun _ => True) (fun b => (b.pwrMod w).capLatch = some (s.capEff w)) _ w (fun _ _ _ => trivial)
    (fun b _ => ?_) (fun b x _ hb => ?_) l a trivial hw
  · rw [latchCap, setPwrMod_self]
  · by_cases hx : w = x
    · rw [hx, latchCap, setPwrMod_self]
    · rw [latchCap, setPwrMod_ne _ _ hx]
      exact hb

theorem foldl_latchCap_keeps {γ : Type} (v : State → γ) (hset : ∀ a w p, v (State.setPwrMod a w p) = v a) (s : State) (l : List Nat)
    (a : State) : v (l.foldl (latchCap s) a) = v a := foldl_keeps v (latchCap s) (fun _ _ => hset ..) l a

/-- The dispatch pause begins on a Storm die. -/
def pauseDie (w : Nat) (b : State) (d : Nat) : State :=
  let x := b.die (w * 4 + d)
  if x.level = 3 ∧ x.pause = false then
    (b.setDie (w * 4 + d) { x with pause := true, ran := if x.cold then x.ran else b.runningAll w d }).setMtherm w
      { b.mtherm w with pauses := (b.mtherm w).pauses + 1 }
  else b

theorem stormPauses_eq (t : Nat) (s : State) :
    stormPauses t s = (trayMods t).foldl (fun a w => [0, 1, 2, 3].foldl (pauseDie w) a) s := rfl

theorem pauseDie_level (w : Nat) (b : State) (d k : Nat) : ((pauseDie w b d).die k).level = (b.die k).level := by
  unfold pauseDie
  dsimp only
  split
  · show ((State.setDie _ _ _).die k).level = _
    by_cases hk : k = w * 4 + d
    · rw [hk, setDie_self]
    · rw [setDie_ne _ _ hk]
  · rfl

theorem pauseDie_pauses {w d : Nat} {b : State} (h : (b.die (w * 4 + d)).level = 3) :
    ((pauseDie w b d).die (w * 4 + d)).pause = true := by
  unfold pauseDie
  dsimp only
  split
  · show ((State.setDie _ _ _).die (w * 4 + d)).pause = true
    rw [setDie_self]
  · rename_i hno
    simpa [h] using hno

theorem pauseDie_keeps (w d : Nat) {b : State} {k : Nat} (h : (b.die k).pause = true) : ((pauseDie w b d).die k).pause = true := by
  unfold pauseDie
  dsimp only
  split
  · show ((State.setDie _ _ _).die k).pause = true
    by_cases hk : k = w * 4 + d
    · rw [hk, setDie_self]
    · rw [setDie_ne _ _ hk]
      exact h
  · exact h

theorem foldl_pauseDie_level (w k : Nat) (l : List Nat) (a : State) : ((l.foldl (pauseDie w) a).die k).level = (a.die k).level :=
  foldl_keeps (fun b => (b.die k).level) (pauseDie w) (fun b d => pauseDie_level w b d k) l a

theorem foldl_pauseDie_keeps (w : Nat) {k : Nat} (l : List Nat) {a : State} (h : (a.die k).pause = true) :
    ((l.foldl (pauseDie w) a).die k).pause = true := by
  induction l generalizing a with
  | nil => exact h
  | cons d l ih => exact ih (pauseDie_keeps w d h)

theorem foldl_pauseDie_pauses {w d : Nat} (l : List Nat) {a : State} (hd : d ∈ l) (h : (a.die (w * 4 + d)).level = 3) :
    ((l.foldl (pauseDie w) a).die (w * 4 + d)).pause = true :=
  foldl_establishes_under (fun b => (b.die (w * 4 + d)).level = 3) (fun b => (b.die (w * 4 + d)).pause = true) (pauseDie w) d
    (fun b x hb => (pauseDie_level w b x _).trans hb) (fun _ hb => pauseDie_pauses hb) (fun _ x _ hb => pauseDie_keeps w x hb)
    l a h hd

/-- Every Storm die of a tray's modules is in dispatch pause. -/
theorem stormPauses_pauses {t m d : Nat} {s : State} (hm : m ∈ trayMods t) (hd : d < 4) (h : (s.die (m * 4 + d)).level = 3) :
    ((stormPauses t s).die (m * 4 + d)).pause = true := by
  have hmem : d ∈ [0, 1, 2, 3] := by
    have : d = 0 ∨ d = 1 ∨ d = 2 ∨ d = 3 := by omega
    simpa using this
  rw [stormPauses_eq]
  generalize [0, 1, 2, 3] = l at hmem
  exact foldl_establishes_under (fun b => (b.die (m * 4 + d)).level = 3) (fun b => (b.die (m * 4 + d)).pause = true)
    (fun a w => l.foldl (pauseDie w) a) m (fun b w hb => (foldl_pauseDie_level w _ l b).trans hb)
    (fun _ hb => foldl_pauseDie_pauses l hmem hb) (fun _ w _ hb => foldl_pauseDie_keeps w l hb) (trayMods t) s h hm

/-- Pauses change the dies and the modules' counts only. -/
theorem stormPauses_keeps {γ : Type} (v : State → γ) (hdie : ∀ a k x, v (State.setDie a k x) = v a)
    (hmod : ∀ a w x, v (State.setMtherm a w x) = v a) (t : Nat) (s : State) : v (stormPauses t s) = v s := by
  rw [stormPauses_eq]
  refine foldl_keeps v _ (fun a w => foldl_keeps v (pauseDie w) (fun b d => ?_) _ a) _ s
  unfold pauseDie
  dsimp only
  split
  · rw [hmod, hdie]
  · rfl

/-- A warden is lost: its outputs hold, its modules' caps latched and its valve full. -/
def State.unwarded (s : State) (t : Nat) : State :=
  let a := ((trayMods t).foldl (latchCap s) s).wardenStopped t
  a.setTtherm t { a.ttherm t with valve := 100, forced := true, wdg := true }

/-- The loss of a warden, told. -/
def State.wardenTold (s : State) (t : Nat) : State :=
  machineEvent 0x0504 0 (t + 32) none 0 0 (machineEvent 0x0607 0 t none 0 0 (s.unwarded t))

theorem wardenTold_told (s : State) (t : Nat) : s.wardenTold t = told (s.unwarded t) (s.wardenTold t) :=
  told_trans (machineEvent_told ..) (machineEvent_told ..)

theorem wardenLost_frame {t : Nat} {s : State} (h : s.wardenRuns t = true) :
    ∃ x, wardenLost t s = { stormPauses t (s.wardenTold t) with sh := x } := by
  rw [wardenLost, if_pos h]
  dsimp only
  split
  · exact ⟨_, trigger_frame ..⟩
  · exact ⟨_, rfl⟩

theorem getLsbD_clear_self (w : BitVec 18) (t : Nat) : (w &&& ~~~(BitVec.ofNat 18 (2 ^ t))).getLsbD t = false := by
  rw [BitVec.getLsbD_and, BitVec.getLsbD_not, BitVec.getLsbD_ofNat, Nat.testBit_two_pow_self]
  cases decide (t < 18) <;> simp

theorem getLsbD_clear_ne (w : BitVec 18) {t j : Nat} (h : j ≠ t) :
    (w &&& ~~~(BitVec.ofNat 18 (2 ^ t))).getLsbD j = w.getLsbD j := by
  rw [BitVec.getLsbD_and, BitVec.getLsbD_not, BitVec.getLsbD_ofNat, Nat.testBit_two_pow_of_ne (Ne.symm h)]
  cases hj : decide (j < 18) with
  | false => rw [BitVec.getLsbD_of_ge _ _ (by simpa using hj)]; rfl
  | true => simp

theorem unwarded_wardens (s : State) (t : Nat) : (s.unwarded t).stw.wardens = s.stw.wardens &&& ~~~(BitVec.ofNat 18 (2 ^ t)) := by
  show (State.stw ((trayMods t).foldl (latchCap s) s)).wardens &&& _ = _
  rw [foldl_latchCap_keeps State.stw (fun _ _ _ => rfl)]

theorem unwarded_ttherm_self (s : State) (t : Nat) : ((s.unwarded t).ttherm t).valve = 100 ∧
    ((s.unwarded t).ttherm t).forced = true ∧ ((s.unwarded t).ttherm t).wdg = true := by
  rw [State.unwarded, setTtherm_self]
  exact ⟨rfl, rfl, rfl⟩

theorem unwarded_dies (s : State) (t : Nat) : (s.unwarded t).therm.dies = s.therm.dies :=
  foldl_latchCap_keeps (fun a => a.therm.dies) (fun _ _ _ => rfl) s (trayMods t) s

theorem unwarded_capLatch {s : State} {t m : Nat} (hm : m ∈ trayMods t) :
    ((s.unwarded t).pwrMod m).capLatch = some (s.capEff m) := foldl_latchCap_self s (trayMods t) s hm

theorem runs_wardenWatchdogExpiry (s : State) (u : Fin 18) (h : s.wardenRuns u.val = true) :
    Runs (.wardenWatchdogExpiry u) s (fun t =>
      t.wardenRuns u.val = false ∧ (∀ j, j ≠ u.val → t.wardenRuns j = s.wardenRuns j) ∧
      (t.ttherm u.val).valve = 100 ∧ (t.ttherm u.val).forced = true ∧ (t.ttherm u.val).wdg = true ∧
      (∀ m ∈ trayMods u.val, (t.pwrMod m).capLatch = some (s.capEff m)) ∧
      ∀ m ∈ trayMods u.val, ∀ d, d < 4 → (s.die (m * 4 + d)).level = 3 → (t.die (m * 4 + d)).pause = true) := by
  refine ⟨_, exec_wardenWatchdogExpiry u s, ?_⟩
  beta_reduce
  obtain ⟨x, heq⟩ := wardenLost_frame h
  have htold := wardenTold_told s u.val
  generalize s.wardenTold u.val = a at heq htold
  have hwardens : (wardenLost u.val s).stw.wardens = s.stw.wardens &&& ~~~(BitVec.ofNat 18 (2 ^ u.val)) := by
    rw [heq]
    refine (stormPauses_keeps (fun b => b.stw.wardens) (fun _ _ _ => rfl) (fun _ _ _ => rfl) u.val a).trans ?_
    rw [htold]
    exact unwarded_wardens s u.val
  have htherm : (wardenLost u.val s).ttherm u.val = (s.unwarded u.val).ttherm u.val := by
    rw [State.ttherm, heq]
    refine congrArg (tget _ u.val) ((stormPauses_keeps (fun b => b.therm.trays) (fun _ _ _ => rfl) (fun _ _ _ => rfl) u.val a).trans ?_)
    rw [told_therm htold]
  have hpwr : (wardenLost u.val s).pwr.mods = (s.unwarded u.val).pwr.mods := by
    rw [heq]
    exact (stormPauses_keeps (fun b => b.pwr.mods) (fun _ _ _ => rfl) (fun _ _ _ => rfl) u.val a).trans (told_pwrMods htold)
  have hdies : a.therm.dies = s.therm.dies := by rw [told_therm htold, unwarded_dies]
  obtain ⟨hvalve, hforced, hwdg⟩ := unwarded_ttherm_self s u.val
  refine ⟨?_, fun j hj => ?_, htherm ▸ hvalve, htherm ▸ hforced, htherm ▸ hwdg, fun m hm => ?_, fun m hm d hd hlevel => ?_⟩
  · rw [State.wardenRuns, hwardens, getLsbD_clear_self]
  · rw [State.wardenRuns, hwardens, getLsbD_clear_ne _ hj]
    rfl
  · rw [State.pwrMod, hpwr]
    exact unwarded_capLatch hm
  · rw [heq]
    refine stormPauses_pauses (s := a) hm hd ?_
    rw [State.die, hdies]
    exact hlevel

/-- Settles O50: each sample, forecast, trip, cut-off and lost watchdog by the command's own rule. -/
theorem heatIsMeasuredForecastAndCut : Obligations.HeatIsMeasuredForecastAndCut := by
  unfold Obligations.HeatIsMeasuredForecastAndCut
  refine ⟨runs_trayCoolantSample, runs_junctionSensorSample, runs_forecasterUpdate, fun s u slot die =>
    ⟨runs_comparatorTrip_module s u slot die, runs_comparatorTrip_tray s u slot die, fun hlow hlong hnew =>
      runs_lossOfFlow hlow hlong hnew, fun hnew hin => runs_leakCutoff u hnew hin⟩, runs_wardenWatchdogExpiry⟩

end Sys2Proof.Machine
end

section
/-! PROOFS. What the loss of a module leaves of the links beside its own (R340, R407, R699). -/

namespace Sys2Proof.Machine

open Sys2Proof

/-- The records of the links, and the counts of column errors. -/
def State.wear (s : State) : Tab Link × Word × Word := (s.fab.links, s.flt.colCe, s.flt.colUe)

theorem wear_link {s t : State} (h : t.wear = s.wear) (k : Nat) : t.link k = s.link k :=
  congrArg (fun x : Tab Link × Word × Word => tget _ k x.1) h

theorem told_wear {s t : State} (h : t = told s t) : t.wear = s.wear := by
  rw [h]
  rfl

theorem deliver_wear (n : Nat) (e : Event) (s : State) : (deliver n e s).wear = s.wear := told_wear (deliver_told n e s)

theorem machineEvent_wear (c n d : Nat) (p : Option (BitVec 6)) (a : DWord) (b : Word) (s : State) :
    (machineEvent c n d p a b s).wear = s.wear := told_wear (machineEvent_told ..)

/-! ### Move channels that are stopped (R340) -/

theorem rekeyUnit_wear (k u : Nat) (s : State) : (rekeyUnit k u s).wear = s.wear := by
  unfold rekeyUnit
  dsimp only
  split <;> rfl

theorem putColumn_wear (k key : Nat) (b : List Byte) (s : State) : (putColumn k key b s).wear = s.wear :=
  foldl_keeps State.wear _ (fun a u => rekeyUnit_wear k u a) _ s

theorem countRefused_wear (w : Nat) (s : State) : (countRefused w s).wear = s.wear := by
  unfold countRefused
  split <;> rfl

theorem gateWrite_wear (who : Who) (w key : Nat) (b : List Byte) (s : State) :
    (gateWrite who w key b s).2.wear = s.wear := by
  unfold gateWrite
  split
  · rfl
  · split
    · rfl
    · split
      · exact countRefused_wear ..
      · split
        · rfl
        · exact putColumn_wear ..

theorem lateFault_wear (who : Who) (h : Option Nat) (c l a : Nat) (s : State) : (lateFault who h c l a s).wear = s.wear := by
  unfold lateFault
  dsimp only
  split
  · rfl
  · exact (deliver_wear ..).trans rfl

theorem srcFault_wear (who : Who) (c l a : Nat) (s : State) : (srcFault who c l a s).wear = s.wear := by
  unfold srcFault
  split
  · rfl
  · exact deliver_wear ..

theorem landWrite_wear (who : Who) (w key a : Nat) (b : List Byte) (s : State) :
    (landWrite who w key a b s).2.wear = s.wear := by
  unfold landWrite
  dsimp only
  split
  · exact (lateFault_wear ..).trans (gateWrite_wear ..)
  · exact gateWrite_wear ..

theorem postWrite_wear (who : Who) (m : List Nat) (src : Place) (f : Bool) (a : Nat) (b : List Byte) (s : State) :
    (postWrite who m src f a b s).wear = s.wear := by
  unfold postWrite
  dsimp only
  split
  · exact landWrite_wear ..
  · rfl

theorem readPart_wear (key : Nat) (m : List Nat) (a l : Nat) (s : State) : (readPart key m a l s).2.wear = s.wear := by
  unfold readPart chanSrcFault
  dsimp only
  split
  · exact srcFault_wear ..
  · split
    · exact countRefused_wear ..
    · split
      · exact (srcFault_wear ..).trans rfl
      · rfl

/-- Steps over what they carry beside the state leave a view that each of them leaves. -/
theorem foldl_leaves {α β γ : Type} (v : β → γ) (f : β → α → β) (hf : ∀ b x, v (f b x) = v b) (l : List α) (b : β) :
    v (l.foldl f b) = v b := by
  induction l generalizing b with
  | nil => rfl
  | cons x l ih => exact (ih _).trans (hf b x)

theorem readRun_wear (key : Nat) (m : List Nat) (src n : Nat) (s : State) : (readRun key m src n s).2.2.wear = s.wear := by
  unfold readRun
  dsimp only
  split
  · refine foldl_leaves (fun q : List (Nat × Option (List Byte)) × Nat × State => q.2.2.wear) _ (fun b x => ?_) _ _
    split
    · rfl
    · exact readPart_wear ..
  · rfl
  · rfl

theorem chanWriteHost_wear (key addr : Nat) (b : List Byte) (s : State) : (chanWriteHost key addr b s).wear = s.wear := rfl

theorem writeRun_wear (key : Nat) (m : List Nat) (l : List (Nat × List Byte)) (s : State) :
    (writeRun key m l s).wear = s.wear := by
  refine foldl_keeps State.wear _ (fun a x => ?_) _ _
  split
  · exact foldl_keeps State.wear _ (fun _ _ => postWrite_wear ..) _ _
  · exact foldl_keeps State.wear _ (fun _ _ => chanWriteHost_wear ..) _ _
  · rfl

theorem runTransfer_wear (key : Nat) (l : List (Nat × Nat)) (s : State) : (runTransfer key l s).wear = s.wear :=
  foldl_leaves (fun q : Nat × State => q.2.wear) _ (fun _ _ => (writeRun_wear ..).trans (readRun_wear ..)) _ _

theorem abortChan_wear (key : Nat) (s : State) : (abortChan key s).wear = s.wear := by
  unfold abortChan
  dsimp only
  split
  · rfl
  · exact runTransfer_wear ..
  · rfl

theorem setMod_wear (s : State) (w : Nat) (m : Mod) : (s.setMod w m).wear = s.wear := rfl
theorem setPipe_wear (s : State) (k : Nat) (x : Pipe) : (s.setPipe k x).wear = s.wear := rfl

theorem closeGates_wear (l : List Nat) (s : State) : (closeGates l s).wear = s.wear :=
  foldl_keeps State.wear _ (fun _ _ => setMod_wear ..) l s

theorem eraseSlots_wear (n : Nat) (l : List Nat) (s : State) : (eraseSlots n l s).wear = s.wear :=
  foldl_keeps State.wear _ (fun _ _ => setMod_wear ..) l s

theorem unbind_wear (l : List Nat) (s : State) : (unbind l s).wear = s.wear :=
  foldl_keeps State.wear _ (fun _ _ => setMod_wear ..) l s

/-! ### Rings and partitions that wind down (R223, R239) -/

theorem hostPost_wear (n : Nat) (o : Option (Nat × DWord)) (a : DWord) (b : List Byte) (s : State) :
    (hostPost n o a b s).wear = s.wear := by
  unfold hostPost
  dsimp only
  split <;> rfl

theorem recipePoisonEvent_wear (r : Nat) (e : Entry) (s : State) : (recipePoisonEvent r e s).wear = s.wear := by
  unfold recipePoisonEvent
  dsimp only
  split
  · exact (deliver_wear ..).trans rfl
  · rfl

theorem noteHead_wear (r : Nat) (s : State) : (noteHead r s).wear = s.wear := by
  unfold noteHead
  dsimp only
  split
  · rfl
  · split
    · exact (recipePoisonEvent_wear ..).trans rfl
    · rfl

theorem complete_wear (r : Nat) (q : DWord) (f i : Word) (s : State) : (complete r q f i s).wear = s.wear :=
  complete_keeps State.wear deliver_wear (fun _ _ _ => rfl) hostPost_wear noteHead_wear r q f i s

theorem completeCut_wear (r : Nat) (q : DWord) (s : State) : (completeCut r q s).wear = s.wear := complete_wear ..

theorem cutCommands_wear (p : Nat) (s : State) : (cutCommands p s).wear = s.wear := by
  refine foldl_keeps State.wear _ (fun a r => foldl_keeps State.wear _ (fun b c => ?_) _ _) _ _
  split
  · exact foldl_keeps State.wear _ (fun _ _ => abortChan_wear ..) _ _
  · exact completeCut_wear ..

theorem streamUnbound_wear (r : Nat) (s : State) : (streamUnbound r s).wear = s.wear := by
  refine foldl_keeps State.wear _ (fun a k => ?_) _ _
  dsimp only
  split
  · rfl
  · exact foldl_keeps State.wear _ (fun _ _ => (machineEvent_wear ..).trans (setPipe_wear ..)) _ _

theorem windRing_wear (waits : Bool) (r : Nat) (s : State) : (windRing waits r s).wear = s.wear := by
  unfold windRing forgetScan
  dsimp only
  split
  · split
    · exact (foldl_keeps State.wear _ (fun _ _ => complete_wear ..) _ _).trans (streamUnbound_wear ..)
    · exact streamUnbound_wear ..
  · rfl

theorem stopPart_wear (p : Nat) (cut : Bool) (s : State) : (stopPart p cut s).wear = s.wear := by
  have hrings : ∀ l : List Nat, (l.foldl (fun a r => windRing (!cut) r a) s).wear = s.wear := fun l =>
    foldl_keeps State.wear _ (fun a r => windRing_wear _ r a) l s
  unfold stopPart
  dsimp only
  split
  · exact (closeGates_wear ..).trans ((cutCommands_wear ..).trans (hrings _))
  · exact hrings _

theorem clearPendingRings_wear (p : Nat) (s : State) : (clearPendingRings p s).wear = s.wear :=
  clearPendingRings_keeps State.wear (fun _ _ _ => rfl) p s

theorem cancelEnable_wear (p : Nat) (s : State) : (cancelEnable p s).wear = s.wear := by
  exact (clearPendingRings_wear ..).trans ((unbind_wear ..).trans (eraseSlots_wear ..))

theorem windPart_wear (p : Nat) (how : Wind) (lost : Bool) (s : State) : (windPart p how lost s).wear = s.wear := by
  unfold windPart
  dsimp only
  split
  · split
    · exact clearPendingRings_wear ..
    · rfl
  · exact (stopPart_wear ..).trans (clearPendingRings_wear ..)
  · split
    · split
      · exact eraseSlots_wear ..
      · exact cancelEnable_wear p s
    · split
      · refine (stopPart_wear ..).trans ?_
        split
        · rfl
        · exact clearPendingRings_wear p s
      · exact clearPendingRings_wear ..

/-! ### A module that is lost (R699) -/

theorem losePart_wear (p w c : Nat) (s : State) : (losePart p w c s).wear = s.wear :=
  (deliver_wear ..).trans (windPart_wear ..)

theorem dropLate_wear (w : Nat) (s : State) : (dropLate w s).wear = s.wear := by
  unfold dropLate
  dsimp only
  split
  · rfl
  · exact foldl_keeps State.wear (fun a t => a.setTen t { a.ten t with held := (a.ten t).held.filter fun e => !(e.home == some w) })
      (fun _ _ => rfl) _ s

theorem lowerMod_wear (w : Nat) (s : State) : (lowerMod w s).wear = s.wear := by
  rw [lowerMod_frame]
  rfl

/-- A link is out of use. -/
def Link.barred (k : Link) : Prop := k.fenced = true ∨ k.failed = true

/-- Of a change of links that leaves each that was barred so. -/
theorem onLink_barred {l : Nat} {f : Link → Link} (hf : ∀ k : Link, k.barred → (f k).barred) {s : State} {q : Nat}
    (h : (s.link q).barred) : ((onLink l f s).link q).barred := by
  have hset : ∀ (a : State) (m : Nat), (a.link q).barred → ((a.setLink m (f (a.link m))).link q).barred := by
    intro a m ha
    by_cases hq : q = m
    · rw [hq, setLink_self]
      exact hf _ (hq ▸ ha)
    · rw [setLink_ne _ _ hq]
      exact ha
  unfold onLink
  dsimp only
  split
  · exact hset _ _ (hset _ _ h)
  · exact hset _ _ h

theorem failLink_barred {l r : Nat} {s : State} {q : Nat} (h : (s.link q).barred) : ((failLink l r s).link q).barred := by
  refine onLink_barred (fun k hk => ?_) h
  split
  · exact hk
  · exact Or.inr rfl

theorem foldl_failLink_barred (r : Nat) (f : Nat → Nat) (l : List Nat) {s : State} {q : Nat} (h : (s.link q).barred) :
    ((l.foldl (fun a x => failLink (f x) r a) s).link q).barred := by
  induction l generalizing s with
  | nil => exact h
  | cons x l ih => exact ih (failLink_barred h)

/-- The counts of column errors. -/
def State.colCounts (s : State) : Word × Word := (s.flt.colCe, s.flt.colUe)

theorem colCounts_of_wear {s t : State} (h : t.wear = s.wear) : t.colCounts = s.colCounts := congrArg Prod.snd h

theorem failLink_colCounts (l r : Nat) (s : State) : (failLink l r s).colCounts = s.colCounts := by
  unfold failLink
  rw [onLink_frame]
  rfl

/-- A module that is lost from service, but for its links. -/
def State.moduleOut (s : State) (w cause : Nat) : State := dropLate w (dropModPackets w (endDiag w
  ((s.partsHolding w).foldl (fun a p => losePart p w cause a) (s.setMod w ((s.mod w).lost cause)))))

theorem foldl_losePart_wear (w c : Nat) (l : List Nat) (s : State) : (l.foldl (fun a p => losePart p w c a) s).wear = s.wear :=
  foldl_keeps State.wear (fun a p => losePart p w c a) (fun a p => losePart_wear p w c a) l s

theorem moduleOut_wear (s : State) (w cause : Nat) : (s.moduleOut w cause).wear = s.wear :=
  (dropLate_wear ..).trans ((foldl_losePart_wear w cause _ _).trans rfl)

theorem foldl_endCopies_wear (l : List Nat) (s : State) :
    (l.foldl (fun a g => a.setIsle g { a.isle g with copying := none }) s).wear = s.wear :=
  foldl_keeps State.wear (fun a g => a.setIsle g { a.isle g with copying := none }) (fun _ _ => rfl) l s

/-- Its links fail; what comes after is no part of the view. -/
theorem loseModule_wear (w cause : Nat) (s : State) : (loseModule w cause s).wear =
    if s.modServing w then ((List.range 8).foldl (fun a q => failLink (w * 8 + q) 5 a) (s.moduleOut w cause)).wear else s.wear := by
  unfold loseModule
  dsimp only
  split
  · rw [lowerMod_wear, machineEvent_wear]
    exact foldl_endCopies_wear (modIsles w) ((List.range 8).foldl (fun a q => failLink (w * 8 + q) 5 a) (s.moduleOut w cause))
  · exact lowerMod_wear ..

/-- A link out of use stays so as a module is lost. -/
theorem loseModule_barred {w cause : Nat} {s : State} {q : Nat} (h : (s.link q).barred) :
    ((loseModule w cause s).link q).barred := by
  have hwear := loseModule_wear w cause s
  split at hwear
  · rw [wear_link hwear]
    refine foldl_failLink_barred 5 (fun x => w * 8 + x) _ ?_
    rw [wear_link (moduleOut_wear ..)]
    exact h
  · rw [wear_link hwear]
    exact h

/-- The loss of a module counts no column error. -/
theorem loseModule_colCounts (w cause : Nat) (s : State) : (loseModule w cause s).colCounts = s.colCounts := by
  have hwear := loseModule_wear w cause s
  have hlinks : ∀ l : List Nat, (l.foldl (fun a q => failLink (w * 8 + q) 5 a) (s.moduleOut w cause)).colCounts = s.colCounts := fun l =>
    (foldl_keeps State.colCounts (fun a q => failLink (w * 8 + q) 5 a) (fun a q => failLink_colCounts _ _ a) l _).trans
      (colCounts_of_wear (moduleOut_wear s w cause))
  split at hwear
  · exact (colCounts_of_wear hwear).trans (hlinks _)
  · exact colCounts_of_wear hwear

theorem loseMods_barred (cause : Nat) (l : List Nat) {s : State} {q : Nat} (h : (s.link q).barred) :
    ((loseMods cause l s).link q).barred := by
  unfold loseMods
  induction l generalizing s with
  | nil => exact h
  | cons x l ih => exact ih (loseModule_barred h)

end Sys2Proof.Machine
end

section
/-! PROOFS. The service of trays (O55). -/

namespace Sys2Proof.Machine

open Sys2Proof

theorem exec_trayPrepare (port : BitVec 4) (u : Fin 18) (s : State) : exec (.trayPrepare port u) s =
    .next (regOp port.toNat (0x131000 + 4 * u.val) 1 (trayPrepare u.val s) s) := rfl

theorem exec_trayCancel (port : BitVec 4) (u : Fin 18) (s : State) : exec (.trayCancel port u) s =
    .next (regOp port.toNat (0x131000 + 4 * u.val) 2 (trayCancel u.val s) s) := rfl

theorem exec_trayReady (u : Fin 18) (s : State) : exec (.trayReady u) s = .next (trayReady u.val s) := rfl

theorem exec_trayRemoval (u : Fin 17) (s : State) : exec (.trayRemoval u) s = .next (trayRemoval u.val s) := rfl

theorem exec_trayInsertion (u : Fin 18) (straps : Word) (slots : List (Option ModFuse)) (s : State) :
    exec (.trayInsertion u straps slots) s = .next (trayInsertion u.val straps slots s) := rfl

theorem exec_trayJoinComplete (u : Fin 18) (items : List BootItem) (s : State) :
    exec (.trayJoinComplete u items) s = .next (joinDone u.val items s) := rfl

/-! ### A tray's service state (R701) -/

theorem tray_of_trays {s t : State} (h : t.trays = s.trays) (u : Nat) : t.tray u = s.tray u := congrArg (tget _ u) h

theorem setSvc_told (t : Nat) (v : TraySvc) (s : State) : (s.tray t).svc = v ∧ setSvc t v s = s ∨
    setSvc t v s = told (s.setTray t { s.tray t with svc := v }) (setSvc t v s) := by
  unfold setSvc
  split
  · exact Or.inl ⟨‹_›, rfl⟩
  · exact Or.inr (machineEvent_told ..)

theorem setSvc_tray_self (t : Nat) (v : TraySvc) (s : State) : (setSvc t v s).tray t = { s.tray t with svc := v } := by
  rcases setSvc_told t v s with ⟨hsvc, heq⟩ | heq
  · rw [heq, ← hsvc]
  · rw [tray_of_trays (told_trays heq), setTray_self]

theorem setSvc_tray_ne {t u : Nat} (v : TraySvc) (s : State) (h : u ≠ t) : (setSvc t v s).tray u = s.tray u := by
  rcases setSvc_told t v s with ⟨hsvc, heq⟩ | heq
  · rw [heq]
  · rw [tray_of_trays (told_trays heq), setTray_ne _ _ h]

/-- A view that no tray's record, event or what is told is part of is kept by a service state. -/
theorem setSvc_keeps {γ : Type} (v : State → γ) (hset : ∀ a u x, v (State.setTray a u x) = v a)
    (htold : ∀ {a b : State}, b = told a b → v b = v a) (t : Nat) (x : TraySvc) (s : State) : v (setSvc t x s) = v s := by
  rcases setSvc_told t x s with ⟨-, heq⟩ | heq
  · rw [heq]
  · exact (htold heq).trans (hset ..)

/-! ### PREPARE (R702, R703) -/

theorem trayPrepare_bay {t : Nat} (h : 16 ≤ t) (ht : t < 18) (s : State) : trayPrepare t s = .error 3 := if_pos (by omega)

theorem trayPrepare_bad {t : Nat} {s : State} (h : t < 16) (hin : (s.tray t).svc = .inService) (hbad : s.prepareBad t = true) :
    trayPrepare t s = .error 5 := by
  have hbay : ¬(t = 16 ∨ t = 17) := by omega
  rw [trayPrepare, if_neg hbay, hin, if_neg (by decide), if_pos hbad]

/-- A tray as it is being prepared, before its modules are lost. -/
def State.preparing (s : State) (t : Nat) : State := changeSplices (spliceCols t) (setSvc t .preparing (fenceTray t s))

theorem trayPrepare_ok {t : Nat} {s : State} (h : t < 16) (hin : (s.tray t).svc = .inService) (hbad : s.prepareBad t = false) :
    trayPrepare t s = .ok (loseMods 8 (trayMods t) (s.preparing t)) := by
  have hbay : ¬(t = 16 ∨ t = 17) := by omega
  rw [trayPrepare, if_neg hbay, hin, if_neg (by decide), hbad, if_neg Bool.false_ne_true]
  rfl

/-- A link of a tray that is prepared, fenced where it was in use. -/
def Link.preparing (k : Link) : Link :=
  if k.fenced || k.failed then { k with training := false } else { k with fenced := true, training := false, reason := 5 }

theorem preparing_barred (k : Link) : k.preparing.barred := by
  unfold Link.preparing
  split
  · rename_i h
    rw [Bool.or_eq_true] at h
    exact h
  · exact Or.inl rfl

theorem preparing_again (k : Link) : k.preparing.preparing = k.preparing := by
  have hout : (k.preparing.fenced || k.preparing.failed) = true := by
    rw [Bool.or_eq_true]
    exact preparing_barred k
  have htrain : k.preparing.training = false := by
    unfold Link.preparing
    split <;> rfl
  rw [Link.preparing, if_pos hout, ← htrain]

theorem fenceTray_eq (t : Nat) (s : State) : fenceTray t s = (trayPorts t).foldl (fun a l => onLink l Link.preparing a) s := rfl

theorem onLink_keeps {γ : Type} (v : State → γ) (hfab : ∀ (a : State) x, v { a with fab := x } = v a) (l : Nat) (f : Link → Link)
    (s : State) : v (onLink l f s) = v s := by
  rw [onLink_frame]
  exact hfab ..

/-- Every port of a list is out of use once the list has been fenced. -/
theorem foldl_preparing_barred (ls : List Nat) {s : State} (sh : Shape) (hsh : s.sh.shape = sh) {l : Nat} (hl : l ∈ ls) :
    ((ls.foldl (fun a x => onLink x Link.preparing a) s).link (linkKey sh l)).barred := by
  refine foldl_establishes_under (fun a => a.sh.shape = sh) (fun a => (a.link (linkKey sh l)).barred)
    (fun a x => onLink x Link.preparing a) l (fun a x ha => ?_) (fun a ha => ?_) (fun a x _ ha => ?_) ls s hsh hl
  · rw [onLink_keeps (fun b => b.sh.shape) (fun _ _ => rfl)]
    exact ha
  · rw [← ha, onLink_link_self _ _ _ preparing_again]
    exact preparing_barred _
  · exact onLink_barred (fun k _ => preparing_barred k) ha

theorem preparing_keeps {γ : Type} (v : State → γ) (hset : ∀ a u x, v (State.setTray a u x) = v a)
    (htold : ∀ {a b : State}, b = told a b → v b = v a) (hfab : ∀ (a : State) x, v { a with fab := x } = v a)
    (hsh : ∀ (a : State) x, v { a with sh := x } = v a) (t : Nat) (s : State) : v (s.preparing t) = v s := by
  rw [State.preparing, changeSplices_frame, hsh, setSvc_keeps v hset htold, fenceTray_eq]
  exact foldl_keeps v (fun a l => onLink l Link.preparing a) (fun a l => onLink_keeps v hfab l _ a) _ s

theorem fenceTray_trays (t : Nat) (s : State) : (fenceTray t s).trays = s.trays :=
  foldl_keeps State.trays (fun a l => onLink l Link.preparing a) (fun a l => onLink_keeps State.trays (fun _ _ => rfl) l _ a) _ s

theorem changeSplices_trays (l : List Nat) (s : State) : (changeSplices l s).trays = s.trays := by
  rw [changeSplices_frame]

theorem preparing_tray_self (t : Nat) (s : State) : (s.preparing t).tray t = { s.tray t with svc := .preparing } := by
  rw [State.preparing, tray_of_trays (changeSplices_trays ..), setSvc_tray_self, tray_of_trays (fenceTray_trays ..)]

theorem preparing_tray_ne {t u : Nat} (s : State) (h : u ≠ t) : (s.preparing t).tray u = s.tray u := by
  rw [State.preparing, tray_of_trays (changeSplices_trays ..), setSvc_tray_ne _ _ h, tray_of_trays (fenceTray_trays ..)]

theorem preparing_links {t l : Nat} (s : State) (hl : l ∈ trayPorts t) :
    ((s.preparing t).link (linkKey s.sh.shape l)).barred := by
  have hsplice : (s.preparing t).wear = (setSvc t .preparing (fenceTray t s)).wear := by
    rw [State.preparing, changeSplices_frame]
    rfl
  have hsvc : (setSvc t .preparing (fenceTray t s)).wear = (fenceTray t s).wear :=
    setSvc_keeps State.wear (fun _ _ _ => rfl) told_wear t .preparing _
  rw [wear_link (hsplice.trans hsvc), fenceTray_eq]
  exact foldl_preparing_barred (trayPorts t) s.sh.shape rfl hl

theorem loseMods_trays (cause : Nat) (l : List Nat) (s : State) : (loseMods cause l s).trays = s.trays :=
  besideRails_trays (loseMods_besideRails cause l s)

theorem runs_trayPrepare_ok {s : State} (port : BitVec 4) (u : Fin 18) (h : s.takesWrites = true) (hu : u.val < 16)
    (hin : (s.tray u.val).svc = .inService) (hbad : s.prepareBad u.val = false) : Runs (.trayPrepare port u) s (fun t =>
      (t.tray u.val).svc = .preparing ∧ (∀ j, j ≠ u.val → t.tray j = s.tray j) ∧
      (∀ l ∈ trayPorts u.val, (t.link (linkKey s.sh.shape l)).fenced = true ∨ (t.link (linkKey s.sh.shape l)).failed = true) ∧
      ∀ w ∈ trayMods u.val, s.modServing w = true → (t.mod w).state = 2 ∧ (t.mod w).cause = 8) := by
  refine runs_of_regOp_ok h (exec_trayPrepare ..) (trayPrepare_ok hu hin hbad) ?_
  have htold := told_of_logged (setupNote_logged port.toNat (0x131000 + 4 * u.val) 1 (loseMods 8 (trayMods u.val) (s.preparing u.val)))
  generalize setupNote port.toNat (0x131000 + 4 * u.val) 1 (loseMods 8 (trayMods u.val) (s.preparing u.val)) = t at htold
  have htray : ∀ j, t.tray j = (s.preparing u.val).tray j := tray_of_trays ((told_trays htold).trans (loseMods_trays ..))
  refine ⟨?_, fun j hj => ?_, fun l hl => ?_, fun w hw hserving => ?_⟩
  · rw [htray, preparing_tray_self]
  · rw [htray, preparing_tray_ne s hj]
  · rw [wear_link (told_wear htold)]
    exact loseMods_barred 8 _ (preparing_links s hl)
  · have hserves : (s.preparing u.val).modServing w = true := by
      rw [preparing_keeps (fun a => a.modServing w) (fun _ _ _ => rfl) (fun hab => by rw [hab]; rfl) (fun _ _ => rfl) (fun _ _ => rfl)]
      exact hserving
    have hmod : t.mod w = (loseMods 8 (trayMods u.val) (s.preparing u.val)).mod w := congrArg (tget _ w) (told_mods htold)
    obtain ⟨hstate, -, hcause⟩ := lostBy_fields (loseMods_lostBy 8 (trayMods u.val) (s.preparing u.val) hw hserves)
    rw [hmod]
    exact ⟨hstate, hcause⟩

/-! ### CANCEL and READY (R703, R704) -/

/-- A tray that goes to JOINING: no other changes. -/
theorem startJoin_trays (t : Nat) (s : State) : (∃ c b, (startJoin t s).tray t = { s.tray t with
      svc := .joining, contactor := c, strapsRead := b }) ∧ ∀ j, j ≠ t → (startJoin t s).tray j = s.tray j := by
  rw [startJoin_eq]
  split
  · refine ⟨⟨false, (s.tray t).strapsRead, ?_⟩, fun j hj => ?_⟩
    · rw [setSvc_tray_self, setTray_self]
    · rw [setSvc_tray_ne _ _ hj, setTray_ne _ _ hj]
  · generalize s.mayJoin t = up
    have hjoin : (s.joinTray t up).tray t = { s.tray t with svc := .joining, contactor := up, strapsRead := up } ∧
        ∀ j, j ≠ t → (s.joinTray t up).tray j = s.tray j := by
      have htrays : ∀ j, (if up && decide (t < 17) then s.setTtherm t { s.ttherm t with valve := 100 } else s).tray j = s.tray j := by
        intro j
        split <;> rfl
      refine ⟨?_, fun j hj => ?_⟩
      · rw [State.joinTray, setSvc_tray_self, setTray_self, htrays]
      · rw [State.joinTray, setSvc_tray_ne _ _ hj, setTray_ne _ _ hj, htrays]
    split
    · exact ⟨⟨up, up, hjoin.1⟩, hjoin.2⟩
    · have hmods := tray_of_trays (foldl_joinMod_trays (trayMods t) (s.joinTray t up))
      exact ⟨⟨up, up, (hmods t).trans hjoin.1⟩, fun j hj => (hmods j).trans (hjoin.2 j hj)⟩

theorem runs_trayCancel {s : State} (port : BitVec 4) (u : Fin 18) (h : s.takesWrites = true)
    (hsvc : (s.tray u.val).svc = .preparing ∨ (s.tray u.val).svc = .ready) : Runs (.trayCancel port u) s (fun t =>
      (t.tray u.val).svc = .joining ∧ ∀ j, j ≠ u.val → t.tray j = s.tray j) := by
  refine runs_of_regOp_ok h (exec_trayCancel ..) (if_pos hsvc) ?_
  have htold := told_of_logged (setupNote_logged port.toNat (0x131000 + 4 * u.val) 2 (startJoin u.val s))
  obtain ⟨⟨c, b, hself⟩, hne⟩ := startJoin_trays u.val s
  have htray := tray_of_trays (told_trays htold)
  exact ⟨by rw [htray, hself], fun j hj => (htray j).trans (hne j hj)⟩

theorem runs_trayCancel_idle {s : State} (port : BitVec 4) (u : Fin 18) (h : s.takesWrites = true)
    (hsvc : (s.tray u.val).svc = .inService) : Runs (.trayCancel port u) s (fun t => t = logged s t) :=
  runs_of_regOp_ok h (exec_trayCancel ..) (if_neg (by simp [hsvc])) (setupNote_logged ..)

theorem runs_trayReady {s : State} (u : Fin 18) (hsvc : (s.tray u.val).svc = .preparing) (hmaj : s.majority = true)
    (hload : s.trayReloads u.val = false)
    (hmods : ∀ w ∈ trayMods u.val, (s.pwrMod w).obj.st = .off ∧ (s.pwrMod w).rising = false)
    (hlinks : ∀ l ∈ trayPorts u.val, (s.link (linkKey s.sh.shape l)).inMap = true) : Runs (.trayReady u) s (fun t =>
      (t.tray u.val).svc = .ready ∧ (t.tray u.val).contactor = false ∧ ∀ j, j ≠ u.val → t.tray j = s.tray j) := by
  refine ⟨_, exec_trayReady u s, ?_⟩
  have hdown : (trayMods u.val).all (fun w => (s.pwrMod w).obj.st == .off && !(s.pwrMod w).rising) = true :=
    List.all_eq_true.mpr fun w hw => by simp [hmods w hw]
  have hout : (trayPorts u.val).all (fun l => let k := s.link (linkKey s.sh.shape l); k.inMap || !(k.fenced || k.failed)) = true :=
    List.all_eq_true.mpr fun l hl => by simp [hlinks l hl]
  rw [trayReady, if_pos ⟨hsvc, hmaj, hdown, hload, hout⟩]
  refine ⟨?_, ?_, fun j hj => ?_⟩
  · rw [setSvc_tray_self]
  · rw [setSvc_tray_self, trayDark_tray_self]
  · rw [setSvc_tray_ne _ _ hj, trayDark_tray_ne s hj]

/-! ### Removal (R705, R706) -/

/-- A module whose slot is empty. -/
def emptyMod (a : State) (w : Nat) : State :=
  a.setMod w { a.mod w with state := 0, stage := 0, cause := 0, mvSel := 0, errSel := 0 }

theorem foldl_emptyMod_trays (l : List Nat) (s : State) : (l.foldl emptyMod s).trays = s.trays :=
  foldl_keeps State.trays emptyMod (fun _ _ => rfl) l s

theorem foldl_emptyMod_state (l : List Nat) (s : State) {w : Nat} (hw : w ∈ l) : ((l.foldl emptyMod s).mod w).state = 0 := by
  refine foldl_establishes_under (fun _ => True) (fun a => (a.mod w).state = 0) emptyMod w (fun _ _ _ => trivial)
    (fun a _ => ?_) (fun a x _ ha => ?_) l s trivial hw
  · rw [emptyMod, setMod_self]
  · by_cases hx : w = x
    · rw [hx, emptyMod, setMod_self]
    · rw [emptyMod, setMod_ne _ _ hx]
      exact ha

theorem dropRestart_trays (t : Nat) (s : State) : (dropRestart t s).trays = s.trays := by
  unfold dropRestart
  split
  · split <;> rfl
  · rfl

/-- A slot that is empty holds no tray, and its modules are absent. -/
theorem emptySlot_facts (t : Nat) (s : State) : ((emptySlot t s).tray t).svc = .absent ∧
    ((emptySlot t s).tray t).contactor = false ∧ (∀ j, j ≠ t → (emptySlot t s).tray j = s.tray j) ∧
    ∀ w ∈ trayMods t, ((emptySlot t s).mod w).state = 0 := by
  set a := setSvc t .absent (s.setTray t { s.tray t with contactor := false, strapsRead := false }) with ha
  have htrays : (emptySlot t s).trays = a.trays := by
    refine (foldl_emptyMod_trays (trayMods t) _).trans ((dropRestart_trays ..).trans ?_)
    rw [ha]
  have hself : a.tray t = { s.tray t with svc := .absent, contactor := false, strapsRead := false } := by
    rw [ha, setSvc_tray_self, setTray_self]
  refine ⟨?_, ?_, fun j hj => ?_, fun w hw => foldl_emptyMod_state _ _ hw⟩
  · rw [tray_of_trays htrays, hself]
  · rw [tray_of_trays htrays, hself]
  · rw [tray_of_trays htrays, ha, setSvc_tray_ne _ _ hj, setTray_ne _ _ hj]

theorem noteGone_trays (t : Nat) (s : State) : (noteGone t s).trays = s.trays := by
  unfold noteGone
  split <;> rfl

theorem setSound_ite (c : Prop) [Decidable c] (n : Nat) (a : State) :
    ∃ x, (if c then { a with sh := { a.sh with sound := n } } else a) = { a with sh := x } := by
  split
  · exact ⟨_, rfl⟩
  · exact ⟨_, rfl⟩

/-- A tray that leaves its slot leaves it empty, but for what the Sound's record says of it. -/
theorem trayRemoval_cases {t : Nat} {s : State} (h : (s.tray t).svc ≠ .absent) : ∃ a x, (∀ j, j ≠ t → a.tray j = s.tray j) ∧
    trayRemoval t s = { emptySlot t a with sh := x } := by
  have hgone := tray_of_trays (noteGone_trays t s)
  have hlost : ∀ j, j ≠ t → (logAdd 5 0 t 9 0 [] (loseTray t 9 (noteGone t s))).tray j = s.tray j := fun j hj => by
    rw [tray_of_trays (told_trays (told_of_logged (logAdd_logged ..))), loseTray_tray_ne _ _ _ hj, hgone]
  unfold trayRemoval
  dsimp only
  rw [hgone]
  split
  · exact absurd ‹_› h
  · exact ⟨noteGone t s, _, fun j _ => hgone j, rfl⟩
  · obtain ⟨x, hx⟩ := setSound_ite (t = 16 ∧ (noteGone t s).sh.sound ≠ 2) 0
      (emptySlot t (logAdd 5 0 t 9 0 [] (loseTray t 9 (noteGone t s))))
    exact ⟨_, x, hlost, hx⟩

theorem runs_trayRemoval {s : State} (u : Fin 17) (h : (s.tray u.val).svc ≠ .absent) : Runs (.trayRemoval u) s (fun t =>
    (t.tray u.val).svc = .absent ∧ (t.tray u.val).contactor = false ∧ (∀ j, j ≠ u.val → t.tray j = s.tray j) ∧
    ∀ w ∈ trayMods u.val, (t.mod w).state = 0) := by
  refine ⟨_, exec_trayRemoval u s, ?_⟩
  obtain ⟨a, x, hne, heq⟩ := trayRemoval_cases h
  rw [heq]
  obtain ⟨hsvc, hopen, hrest, hmods⟩ := emptySlot_facts u.val a
  exact ⟨hsvc, hopen, fun j hj => (hrest j hj).trans (hne j hj), hmods⟩

/-! ### Insertion (R705) -/

/-- One slot of a tray that is inserted: its module with its fuses, or none. -/
def plugMod (slots : List (Option ModFuse)) (a : State) (w : Nat) : State :=
  match slots.getD (w % 8) none with
  | some f => { a.setMod w { state := 2, stage := 15, cause := 9, keyTransport := false } with
      fuses := { a.fuses with
        mods := tset (w32 (1200 + 920 * 2 ^ 16)) w f.fuse a.fuses.mods, serials := tset 0 w f.serial a.fuses.serials
        records := (List.range 64).foldl (fun b k => tset none (w * 64 + k) f.record[k]? b) a.fuses.records } }
  | none => a.setMod w { state := 0, keyTransport := false }

/-- What a slot holds of a module. -/
def State.slotHolds (s : State) (w : Nat) : Option ModFuse → Prop
  | some f => (s.mod w).state = 2 ∧ s.modFuse w = f.fuse
  | none => (s.mod w).state = 0

theorem plugMod_self (slots : List (Option ModFuse)) (a : State) (w : Nat) :
    (plugMod slots a w).slotHolds w (slots.getD (w % 8) none) := by
  unfold plugMod
  cases slots.getD (w % 8) none with
  | some f => exact ⟨congrArg Mod.state (setMod_self a w _), tget_tset_self ..⟩
  | none => exact congrArg Mod.state (setMod_self a w _)

theorem plugMod_ne (slots : List (Option ModFuse)) (a : State) {w x : Nat} (h : w ≠ x) :
    (plugMod slots a x).mod w = a.mod w ∧ (plugMod slots a x).modFuse w = a.modFuse w := by
  unfold plugMod
  split
  · exact ⟨setMod_ne a _ h, tget_tset_ne _ _ _ h⟩
  · exact ⟨setMod_ne a _ h, rfl⟩

theorem slotHolds_congr {s t : State} {w : Nat} {x : Option ModFuse} (hmod : (t.mod w).state = (s.mod w).state)
    (hfuse : t.modFuse w = s.modFuse w) (h : s.slotHolds w x) : t.slotHolds w x := by
  cases x with
  | none => exact hmod.trans h
  | some f => exact ⟨hmod.trans h.1, hfuse.trans h.2⟩

theorem foldl_plugMod_holds (slots : List (Option ModFuse)) (l : List Nat) (s : State) {w : Nat} (hw : w ∈ l) :
    (l.foldl (plugMod slots) s).slotHolds w (slots.getD (w % 8) none) := by
  refine foldl_establishes_under (fun _ => True) (fun a => a.slotHolds w (slots.getD (w % 8) none)) (plugMod slots) w
    (fun _ _ _ => trivial) (fun a _ => plugMod_self slots a w) (fun a x _ ha => ?_) l s trivial hw
  by_cases hx : w = x
  · exact hx ▸ plugMod_self slots a w
  · obtain ⟨hmod, hfuse⟩ := plugMod_ne slots a hx
    exact slotHolds_congr (congrArg Mod.state hmod) hfuse ha

theorem plugMod_trays (slots : List (Option ModFuse)) (a : State) (w : Nat) : (plugMod slots a w).trays = a.trays := by
  unfold plugMod
  split <;> rfl

/-- A tray's record as it is inserted. -/
def Tray.inserted (y : Tray) (t : Nat) (straps : Word) : Tray := { y with
  strapsRead := false, badType := if Fld straps 5 3 = trayType t then none else some (BitVec.ofNat 3 (Fld straps 5 3))
  ctlHost := Fld straps 12 4, fabMode := bit straps 8, preset := BitVec.ofNat 3 (Fld straps 9 3), pipeMode := bit straps 16 }

theorem inserted_mismatch (y : Tray) (t : Nat) (straps : Word) :
    (y.inserted t straps).mismatch = decide (Fld straps 5 3 ≠ trayType t) := by
  unfold Tray.mismatch Tray.inserted
  dsimp only
  split <;> simp [*]

theorem trayInsertion_shape {t : Nat} (straps : Word) (slots : List (Option ModFuse)) {s : State} (h : (s.tray t).svc = .absent) :
    ∃ x, trayInsertion t straps slots s = startJoin t { (trayMods t).foldl (plugMod slots)
      (s.setTray t ((s.tray t).inserted t straps)) with sh := x } := by
  obtain ⟨x, hx⟩ := setSound_ite (t = 16 ∧ ((trayMods t).foldl (plugMod slots)
    (s.setTray t ((s.tray t).inserted t straps))).sh.sound ≠ 2) 3
      ((trayMods t).foldl (plugMod slots) (s.setTray t ((s.tray t).inserted t straps)))
  rw [trayInsertion, if_pos h]
  exact ⟨x, congrArg (startJoin t) hx⟩

theorem told_fuses {s t : State} (h : t = told s t) : t.fuses = s.fuses := by
  rw [h]
  rfl

theorem joinMod_keeps {γ : Type} (v : State → γ) (hpwr : ∀ (a : State) x y, v { a with pwr := x, therm := y } = v a)
    (a : State) (w : Nat) : v (joinMod a w) = v a := by
  unfold joinMod
  split
  · rfl
  · split
    · split
      · rfl
      · rw [startRise_frame]
        exact hpwr ..
    · exact hpwr ..
    · rfl

/-- A view of what neither trays, power nor heat is part of is kept as a tray goes to JOINING. -/
theorem startJoin_keeps {γ : Type} (v : State → γ) (hset : ∀ a u x, v (State.setTray a u x) = v a)
    (hpwr : ∀ (a : State) x y, v { a with pwr := x, therm := y } = v a)
    (htold : ∀ {a b : State}, b = told a b → v b = v a) (t : Nat) (s : State) : v (startJoin t s) = v s := by
  have hsvc : ∀ x a, v (setSvc t x a) = v a := fun x a => setSvc_keeps v hset htold t x a
  rw [startJoin_eq]
  split
  · exact (hsvc ..).trans (hset ..)
  · have hjoin : v (s.joinTray t (s.mayJoin t)) = v s := by
      unfold State.joinTray
      dsimp only
      rw [hsvc, hset]
      split
      · exact hpwr ..
      · rfl
    split
    · exact hjoin
    · exact (foldl_keeps v joinMod (joinMod_keeps v hpwr) _ _).trans hjoin

theorem runs_trayInsertion {s : State} (u : Fin 18) (straps : Word) (slots : List (Option ModFuse))
    (h : (s.tray u.val).svc = .absent) : Runs (.trayInsertion u straps slots) s (fun t =>
      (t.tray u.val).svc = .joining ∧ (∀ j, j ≠ u.val → t.tray j = s.tray j) ∧
      (t.tray u.val).mismatch = decide (Fld straps 5 3 ≠ trayType u.val) ∧
      ∀ w ∈ trayMods u.val,
        (∀ f, slots.getD (w % 8) none = some f → (t.mod w).state = 2 ∧ t.modFuse w = f.fuse) ∧
        (slots.getD (w % 8) none = none → (t.mod w).state = 0)) := by
  refine ⟨_, exec_trayInsertion .., ?_⟩
  obtain ⟨x, heq⟩ := trayInsertion_shape straps slots h
  rw [heq]
  generalize hplug : (trayMods u.val).foldl (plugMod slots) (s.setTray u.val ((s.tray u.val).inserted u.val straps)) = a
  have htrays : a.trays = (s.setTray u.val ((s.tray u.val).inserted u.val straps)).trays := by
    rw [← hplug]
    exact foldl_keeps State.trays (plugMod slots) (plugMod_trays slots) _ _
  obtain ⟨⟨c, b, hself⟩, hne⟩ := startJoin_trays u.val { a with sh := x }
  have hin : ({ a with sh := x } : State).tray u.val = (s.tray u.val).inserted u.val straps :=
    (tray_of_trays htrays u.val).trans (setTray_self ..)
  have hmods : (startJoin u.val { a with sh := x }).mods = a.mods :=
    startJoin_keeps State.mods (fun _ _ _ => rfl) (fun _ _ _ => rfl) told_mods u.val _
  have hfuses : (startJoin u.val { a with sh := x }).fuses = a.fuses :=
    startJoin_keeps State.fuses (fun _ _ _ => rfl) (fun _ _ _ => rfl) told_fuses u.val _
  refine ⟨?_, fun j hj => ?_, ?_, fun w hw => ?_⟩
  · rw [hself]
  · rw [hne j hj]
    exact (tray_of_trays htrays j).trans (setTray_ne _ _ hj)
  · rw [hself, hin]
    exact inserted_mismatch (s.tray u.val) u.val straps
  · have hholds := foldl_plugMod_holds slots (trayMods u.val) (s.setTray u.val ((s.tray u.val).inserted u.val straps)) hw
    rw [hplug] at hholds
    have hfinal := slotHolds_congr (t := startJoin u.val { a with sh := x }) (congrArg (fun m => (tget {} w m).state) hmods)
      (congrArg (fun f : Fuses => tget _ w f.mods) hfuses) hholds
    refine ⟨fun f hf => ?_, fun hnone => ?_⟩
    · rw [hf] at hfinal
      exact hfinal
    · rw [hnone] at hfinal
      exact hfinal

/-! ### Joining (R560, R705) -/

/-- The trays' records, and which wardens run. -/
def State.crew (s : State) : Tab Tray × BitVec 18 := (s.trays, s.stw.wardens)

theorem told_crew {s t : State} (h : t = told s t) : t.crew = s.crew := by
  rw [h]
  rfl

theorem logAdd_crew (c k p : Nat) (a : DWord) (b : Word) (d : List Nat) (s : State) : (logAdd c k p a b d s).crew = s.crew :=
  told_crew (told_of_logged (logAdd_logged ..))

theorem setPwrMod_crew (s : State) (w : Nat) (p : PwrMod) : (s.setPwrMod w p).crew = s.crew := rfl

theorem setPort_crew (s : State) (n : Nat) (p : Port) : (s.setPort n p).crew = s.crew := rfl

theorem stageLog_crew (p r : Nat) (l : List BootItem) (s : State) : (stageLog p r l s).crew = s.crew := logAdd_crew ..

theorem failTests_crew (w st c : Nat) (s : State) : (failTests w st c s).crew = s.crew := by
  rw [failTests_frame]
  rfl

theorem foldl_failTests_crew (st c : Nat) (l : List Nat) (s : State) : (l.foldl (fun a w => failTests w st c a) s).crew = s.crew :=
  foldl_keeps State.crew (fun a w => failTests w st c a) (fun a w => failTests_crew w st c a) l s

theorem joinInst_crew (c i : Nat) (s : State) : (joinInst c i s).crew = s.crew := by
  unfold joinInst
  dsimp only
  split
  · rfl
  · exact (logAdd_crew ..).trans rfl

theorem joinTray_crew (t : Nat) (s : State) : (joinTray t s).crew = s.crew := by
  unfold joinTray
  dsimp only
  split
  · rw [joinInst_crew, joinInst_crew]
  · split
    · rw [joinInst_crew]
      refine (foldl_keeps State.crew _ (fun a p => joinInst_crew ..) [0, 1, 2, 3] _).trans ?_
      exact joinInst_crew ..
    · split
      · rw [joinInst_crew, joinInst_crew]
      · exact joinInst_crew ..

/-- One isle is numbered. -/
def numberStep (items : List BootItem) (r : List BootItem × List (Nat × Nat) × State) (g : Nat) :
    List BootItem × List (Nat × Nat) × State :=
  let st := r.2.2
  let bc := fun p => st.boot.badCores.contains (g, p)
  let bl := fun p => st.boot.badCols.contains (g, p)
  let reps := (items.filter (fun b => b.stage == 6 && b.cause == 1 && itemIsle b == g)).map (fun b => b.pos)
  let n := numberIsle bc bl (st.isle g)
  let st1 := st.setIsle g { n.2 with
    repaired := (reps.filter (fun p => !(bl p))).length, repaired6 := (reps.filter (fun p => !(bl p))).length }
  let st2 := (List.range 17).foldl (fun a p =>
    a.setColm (g * 17 + p) { used := (reps.filter (fun q => q == p)).length }) st1
  (r.1 ++ numberItems g bl n.1 n.2, match n.1 with | some c => r.2.1 ++ [(g / 16, c)] | none => r.2.1, st2)

theorem numberStep_keeps {γ : Type} (v : State → γ) (hisle : ∀ (a : State) x y, v { a with isles := x, colms := y } = v a)
    (items : List BootItem) (r : List BootItem × List (Nat × Nat) × State) (g : Nat) :
    v (numberStep items r g).2.2 = v r.2.2 := by
  unfold numberStep
  dsimp only
  generalize List.range 17 = l
  exact (foldl_keeps v (fun (a : State) p => a.setColm (g * 17 + p) _) (fun _ _ => hisle ..) l _).trans (hisle ..)

/-- A view that neither bring-up, the cores, the columns nor the modules' and isles' records are part of is kept as a module's
isles are numbered. -/
theorem testModule_keeps {γ : Type} (v : State → γ) (hboot : ∀ (a : State) x, v { a with boot := x } = v a)
    (hzero : ∀ a w, v (zeroScratch w (zeroColumns 0 w a)) = v a)
    (hisle : ∀ (a : State) x y, v { a with isles := x, colms := y } = v a) (w : Nat) (items : List BootItem) (s : State) :
    v (testModule w items s).2 = v s := by
  unfold testModule numberMods
  dsimp only
  refine (foldl_leaves (fun r : List BootItem × List (Nat × Nat) × State => v r.2.2) (numberStep _)
    (fun r g => numberStep_keeps v hisle _ r g) _ _).trans ?_
  exact (foldl_keeps v _ (fun a w => hzero a w) _ _).trans (hboot ..)

/-- A view that neither modules, links, updates nor what is told is part of is kept as a module enters service. -/
theorem enterModule_keeps {γ : Type} (v : State → γ) (hmod : ∀ (a : State) x, v { a with mods := x } = v a)
    (hfab : ∀ (a : State) x, v { a with fab := x } = v a) (hinst : ∀ c i a, v (joinInst c i a) = v a)
    (htold : ∀ {a b : State}, b = told a b → v b = v a) (w : Nat) (s : State) : v (enterModule w s) = v s := by
  unfold enterModule
  dsimp only
  rw [htold (machineEvent_told ..), hinst]
  exact (foldl_keeps v _ (fun a q => onLink_keeps v hfab _ _ a) _ _).trans (hmod ..)

theorem testModule_crew (w : Nat) (items : List BootItem) (s : State) : (testModule w items s).2.crew = s.crew :=
  testModule_keeps State.crew (fun _ _ => rfl) (fun _ _ => rfl) (fun _ _ _ => rfl) w items s

theorem enterModule_crew (w : Nat) (s : State) : (enterModule w s).crew = s.crew :=
  enterModule_keeps State.crew (fun _ _ => rfl) (fun _ _ => rfl) joinInst_crew told_crew w s

/-- A module's tests may end: none waits for a cold die or below 0.70 V. -/
def State.testsEnd (s : State) (w : Nat) : Bool := (s.pwrMod w).testing && !(s.paused w) && !(s.coldMod w)

/-- A module that is up, its tests behind it. -/
def State.proven (s : State) (w : Nat) : State :=
  s.setPwrMod w { s.pwrMod w with obj := { st := .on }, rising := false, testing := false, testFrom := 0 }

/-- The tests of a module, logged. -/
def State.tested (s : State) (w : Nat) (items : List BootItem) (result : Nat) : State :=
  stageLog (w / 8 + w % 8 * 32) result items (testModule w items s).2

theorem testsDone_waits {w : Nat} {s : State} (items : List BootItem) (h : s.testsEnd w = false) : testsDone w items s = s :=
  if_neg (by rw [State.testsEnd] at h; rw [h]; exact Bool.false_ne_true)

theorem testsDone_fails {w st c : Nat} {s : State} {items : List BootItem} (h : s.testsEnd w = true)
    (hfound : (testModule w items s).1 = some (st, c)) :
    testsDone w items s = failTests w st c (s.tested w items (st + c * 16)) := by
  rw [State.testsEnd] at h
  rw [testsDone]
  simp only [h, if_true, hfound]
  rfl

theorem testsDone_passes {w : Nat} {s : State} {items : List BootItem} (h : s.testsEnd w = true)
    (hfound : (testModule w items s).1 = none) : testsDone w items s =
      if ((s.tested w items 0).proven w).ordersOn w then enterModule w ((s.tested w items 0).proven w)
      else failTests w 15 7 ((s.tested w items 0).proven w) := by
  rw [State.testsEnd] at h
  rw [testsDone]
  simp only [h, if_true, hfound]
  rfl

theorem tested_crew (w : Nat) (items : List BootItem) (r : Nat) (s : State) : (s.tested w items r).crew = s.crew :=
  (stageLog_crew ..).trans (testModule_crew ..)

theorem proven_crew (w : Nat) (s : State) : (s.proven w).crew = s.crew := rfl

theorem testsDone_crew (w : Nat) (items : List BootItem) (s : State) : (testsDone w items s).crew = s.crew := by
  cases h : s.testsEnd w with
  | false => rw [testsDone_waits items h]
  | true =>
    cases hfound : (testModule w items s).1 with
    | some x => rw [testsDone_fails (st := x.1) (c := x.2) h hfound, failTests_crew, tested_crew]
    | none =>
      rw [testsDone_passes h hfound]
      split
      · rw [enterModule_crew, proven_crew, tested_crew]
      · rw [failTests_crew, proven_crew, tested_crew]

theorem joinModule_crew (items : List BootItem) (w : Nat) (s : State) : (joinModule items w s).crew = s.crew := by
  unfold joinModule
  split
  · rfl
  · split
    · exact failTests_crew ..
    · split
      · exact failTests_crew ..
      · split
        · exact (testsDone_crew ..).trans rfl
        · rfl

theorem retrainTray_crew (t : Nat) (s : State) : (retrainTray t s).crew = s.crew :=
  foldl_keeps State.crew _ (fun a l => onLink_keeps State.crew (fun _ _ => rfl) l _ a) _ s

theorem changeSplices_crew (l : List Nat) (s : State) : (changeSplices l s).crew = s.crew := by
  rw [changeSplices_frame]
  rfl

theorem modePoint_crew (t : Nat) (s : State) : (modePoint t s).crew = s.crew := by
  unfold modePoint
  split <;> rfl

/-- A warden that starts with its tray: its straps are read. -/
def State.wardenOn (s : State) (t : Nat) : State :=
  { s.setTray t { s.tray t with strapsRead := true } with
    stw := { s.stw with wardens := s.stw.wardens ||| BitVec.ofNat 18 (2 ^ t) } }

/-- A joining tray's warden starts, and reports the last words it holds. -/
def joinWarden (t : Nat) (s : State) : State := if s.wardenRuns t then s.wardenOn t else tellWords t (s.wardenOn t)

theorem joinWarden_crew (t : Nat) (s : State) : (joinWarden t s).crew = (s.wardenOn t).crew := by
  unfold joinWarden
  split
  · rfl
  · obtain ⟨x, h⟩ := tellWords_told t (s.wardenOn t)
    exact (told_crew h).trans rfl

/-- A joining tray may end its stages. -/
def State.joinable (s : State) (t : Nat) : Prop := (s.tray t).svc = .joining ∧ s.boot.st ≠ 0 ∧ (s.tray t).contactor = true ∧
  ∀ w ∈ trayMods t, (s.pwrMod w).rising = false ∧ ((s.pwrMod w).obj.st = .on → s.paused w = false ∧ s.coldMod w = false)

/-- A tray whose warden runs and that takes part. -/
def joinRuns (t : Nat) (its : List BootItem) (s : State) : State :=
  changeSplices (spliceCols t) (retrainTray t ((trayMods t).foldl (fun a w => joinModule its w a)
    (joinTray t (setSvc t .inService (stageLog t 0 its (joinWarden t s))))))

theorem foldl_joinModule_crew (its : List BootItem) (l : List Nat) (s : State) :
    (l.foldl (fun a w => joinModule its w a) s).crew = s.crew :=
  foldl_keeps State.crew (fun a w => joinModule its w a) (fun a w => joinModule_crew its w a) l s

theorem joinRuns_crew (t : Nat) (its : List BootItem) (s : State) :
    (joinRuns t its s).crew = (setSvc t .inService (stageLog t 0 its (joinWarden t s))).crew := by
  rw [joinRuns, changeSplices_crew, retrainTray_crew, foldl_joinModule_crew, joinTray_crew]

theorem joinDone_eq {t : Nat} {s : State} (items : List BootItem) (h : s.joinable t) : joinDone t items s =
    if (items.filter (fun b => b.tray == t)).any (fun b => b.stage == 2 && b.cause == 2) then
      setSvc t .failed (stageLog t 2 (items.filter (fun b => b.tray == t)) ((trayMods t).foldl (fun a w => failTests w 2 2 a)
        (s.setTray t { s.tray t with strapsRead := false })))
    else if (s.tray t).mismatch then
      setSvc t .failed (stageLog t 2 (items.filter (fun b => b.tray == t) ++ [⟨2, t, 0, 0, 0, 0, 3⟩])
        ((trayMods t).foldl (fun a w => failTests w 2 3 a) (joinWarden t s)))
    else if t = 12 ∨ t = 13 then
      (List.range 8).foldl (fun a q => let n := (t - 12) * 8 + q; a.setPort n { a.port n with
        trains := 0, replays := 0, cplTimeouts := 0, nudges := 0, resets := 0 }) (joinRuns t (items.filter (fun b => b.tray == t)) s)
    else if t = 14 ∨ t = 15 then modePoint t (joinRuns t (items.filter (fun b => b.tray == t)) s)
    else joinRuns t (items.filter (fun b => b.tray == t)) s := by
  obtain ⟨hsvc, hboot, hon, hmods⟩ := h
  have hdone : (trayMods t).all (fun w => !(s.pwrMod w).rising &&
      ((s.pwrMod w).obj.st != .on || !(s.paused w || s.coldMod w))) = true := by
    refine List.all_eq_true.mpr fun w hw => ?_
    obtain ⟨hrise, hquiet⟩ := hmods w hw
    by_cases hst : (s.pwrMod w).obj.st = .on
    · simp [hrise, hquiet hst]
    · simp [hrise, hst]
  rw [joinDone, if_pos ⟨hsvc, hboot, hon, hdone⟩]
  rfl

theorem crew_tray {s t : State} (h : t.crew = s.crew) (u : Nat) : t.tray u = s.tray u := tray_of_trays (congrArg Prod.fst h) u

theorem crew_wardenRuns {s t : State} (h : t.crew = s.crew) (u : Nat) : t.wardenRuns u = s.wardenRuns u :=
  congrArg (fun x : Tab Tray × BitVec 18 => x.2.getLsbD u) h

theorem setSvc_wardenRuns (t : Nat) (v : TraySvc) (s : State) (u : Nat) : (setSvc t v s).wardenRuns u = s.wardenRuns u :=
  setSvc_keeps (fun a => a.wardenRuns u) (fun _ _ _ => rfl) (fun h => crew_wardenRuns (told_crew h) u) t v s

theorem wardenOn_runs {s : State} {t : Nat} (ht : t < 18) : (s.wardenOn t).wardenRuns t = true := by
  show (s.stw.wardens ||| BitVec.ofNat 18 (2 ^ t)).getLsbD t = true
  rw [BitVec.getLsbD_or, BitVec.getLsbD_ofNat, Nat.testBit_two_pow_self, decide_eq_true ht]
  simp

theorem wardenOn_tray_self (s : State) (t : Nat) : (s.wardenOn t).tray t = { s.tray t with strapsRead := true } :=
  setTray_self s t _

theorem wardenOn_tray_ne (s : State) {t u : Nat} (h : u ≠ t) : (s.wardenOn t).tray u = s.tray u := setTray_ne s _ h

theorem joinDone_joins_crew {t : Nat} {s : State} {items : List BootItem} (h : s.joinable t) (hmatch : (s.tray t).mismatch = false)
    (hitems : ∀ b ∈ items, b.tray = t → b.stage ≠ 2) : (joinDone t items s).crew =
      (setSvc t .inService (stageLog t 0 (items.filter (fun b => b.tray == t)) (joinWarden t s))).crew := by
  have hany : ¬(items.filter (fun b => b.tray == t)).any (fun b => b.stage == 2 && b.cause == 2) = true := by
    simp only [List.any_eq_true, List.mem_filter, beq_iff_eq, Bool.and_eq_true, not_exists, not_and]
    intro b hb hstage
    exact absurd hstage (hitems b hb.1 hb.2)
  have hports : ∀ (l : List Nat) (a : State), (l.foldl (fun a q => let n := (t - 12) * 8 + q; a.setPort n { a.port n with
      trains := 0, replays := 0, cplTimeouts := 0, nudges := 0, resets := 0 }) a).crew = a.crew := fun l a =>
    foldl_keeps State.crew _ (fun _ _ => setPort_crew ..) l a
  rw [joinDone_eq items h, if_neg hany, hmatch, if_neg Bool.false_ne_true]
  split
  · rw [hports, joinRuns_crew]
  · split
    · rw [modePoint_crew, joinRuns_crew]
    · exact joinRuns_crew ..

theorem runs_trayJoinComplete_joins {s : State} (u : Fin 18) {items : List BootItem} (h : s.joinable u.val)
    (hmatch : (s.tray u.val).mismatch = false) (hitems : ∀ b ∈ items, b.tray = u.val → b.stage ≠ 2) :
    Runs (.trayJoinComplete u items) s (fun t => (t.tray u.val).svc = .inService ∧ t.wardenRuns u.val = true ∧
      ∀ j, j ≠ u.val → t.tray j = s.tray j) := by
  refine ⟨_, exec_trayJoinComplete .., ?_⟩
  have hcrew := joinDone_joins_crew h hmatch hitems
  have hstart : (stageLog u.val 0 (items.filter (fun b => b.tray == u.val)) (joinWarden u.val s)).crew = (s.wardenOn u.val).crew :=
    (stageLog_crew ..).trans (joinWarden_crew ..)
  refine ⟨?_, ?_, fun j hj => ?_⟩
  · rw [crew_tray hcrew, setSvc_tray_self]
  · rw [crew_wardenRuns hcrew, setSvc_wardenRuns, crew_wardenRuns hstart, wardenOn_runs u.isLt]
  · rw [crew_tray hcrew, setSvc_tray_ne _ _ hj, crew_tray hstart, wardenOn_tray_ne s hj]

theorem runs_trayJoinComplete_silent {s : State} (u : Fin 18) {items : List BootItem} (h : s.joinable u.val)
    (hitem : ∃ b ∈ items, b.tray = u.val ∧ b.stage = 2 ∧ b.cause = 2) :
    Runs (.trayJoinComplete u items) s (fun t => (t.tray u.val).svc = .failed ∧ (t.tray u.val).strapsRead = false) := by
  refine ⟨_, exec_trayJoinComplete .., ?_⟩
  have hany : (items.filter (fun b => b.tray == u.val)).any (fun b => b.stage == 2 && b.cause == 2) = true := by
    obtain ⟨b, hb, htray, hstage, hcause⟩ := hitem
    exact List.any_eq_true.mpr ⟨b, List.mem_filter.mpr ⟨hb, by simp [htray]⟩, by simp [hstage, hcause]⟩
  rw [joinDone_eq items h, if_pos hany]
  have hself : ∀ x r l, (stageLog u.val r l ((trayMods u.val).foldl (fun a w => failTests w 2 2 a) (s.setTray u.val x))).tray u.val = x :=
    fun x r l => (crew_tray ((stageLog_crew ..).trans (foldl_failTests_crew ..)) u.val).trans (setTray_self ..)
  refine ⟨?_, ?_⟩
  · rw [setSvc_tray_self]
  · rw [setSvc_tray_self, hself]

theorem runs_trayJoinComplete_mismatch {s : State} (u : Fin 18) {items : List BootItem} (h : s.joinable u.val)
    (hbad : (s.tray u.val).mismatch = true) (hitems : ∀ b ∈ items, b.tray = u.val → b.stage ≠ 2) :
    Runs (.trayJoinComplete u items) s (fun t => (t.tray u.val).svc = .failed ∧ (t.tray u.val).strapsRead = true ∧
      t.wardenRuns u.val = true) := by
  refine ⟨_, exec_trayJoinComplete .., ?_⟩
  have hany : ¬(items.filter (fun b => b.tray == u.val)).any (fun b => b.stage == 2 && b.cause == 2) = true := by
    simp only [List.any_eq_true, List.mem_filter, beq_iff_eq, Bool.and_eq_true, not_exists, not_and]
    intro b hb hstage
    exact absurd hstage (hitems b hb.1 hb.2)
  rw [joinDone_eq items h, if_neg hany, hbad, if_pos rfl]
  generalize items.filter (fun b => b.tray == u.val) ++ [⟨2, u.val, 0, 0, 0, 0, 3⟩] = its
  have hcrew : (stageLog u.val 2 its ((trayMods u.val).foldl (fun a w => failTests w 2 3 a) (joinWarden u.val s))).crew =
      (s.wardenOn u.val).crew := (stageLog_crew ..).trans ((foldl_failTests_crew ..).trans (joinWarden_crew ..))
  refine ⟨?_, ?_, ?_⟩
  · rw [setSvc_tray_self]
  · rw [setSvc_tray_self, crew_tray hcrew, wardenOn_tray_self]
  · rw [setSvc_wardenRuns, crew_wardenRuns hcrew, wardenOn_runs u.isLt]

/-- Settles O55: each order and event of tray service by its own rule, the tray's loss and its joining layer by layer. -/
theorem traysAreServicedRemovedAndJoin : Obligations.TraysAreServicedRemovedAndJoin := by
  unfold Obligations.TraysAreServicedRemovedAndJoin
  refine ⟨fun s port u h => ⟨fun hbay => ?_, fun hu hin hbad => ?_, runs_trayPrepare_ok port u h, runs_trayCancel port u h,
      runs_trayCancel_idle port u h⟩, fun s u => runs_trayReady u, fun s u => runs_trayRemoval u,
    fun s u straps slots => runs_trayInsertion u straps slots, fun s u items hsvc hboot hon hmods =>
      ⟨runs_trayJoinComplete_joins u ⟨hsvc, hboot, hon, hmods⟩, runs_trayJoinComplete_silent u ⟨hsvc, hboot, hon, hmods⟩,
        runs_trayJoinComplete_mismatch u ⟨hsvc, hboot, hon, hmods⟩⟩⟩
  · exact runs_of_regOp_error h (exec_trayPrepare ..) (trayPrepare_bay hbay u.isLt s) rfl
  · exact runs_of_regOp_error h (exec_trayPrepare ..) (trayPrepare_bad hu hin hbad) rfl

end Sys2Proof.Machine
end

section
/-! PROOFS. Columns, rows and modules that fail and are repaired (O54). -/

namespace Sys2Proof.Machine

open Sys2Proof

theorem exec_patrolScrubPass (w : Fin 96) (die isle : BitVec 2) (unit : BitVec 27) (found : BitVec 2) (s : State) :
    exec (.patrolScrubPass w die isle unit found) s = .next (if found = 0 ∨ found = 3 then s
      else columnError (isleKey w.val die.toNat isle.toNat) unit.toNat (found == 2) s) := rfl

theorem exec_rowRepairDone (w : Fin 96) (die isle : BitVec 2) (slot : BitVec 4) (row : BitVec 16) (s : State) :
    exec (.rowRepairDone w die isle slot row) s =
      .next (rowDone (isleKey w.val die.toNat isle.toNat) slot.toNat row.toNat s) := rfl

theorem exec_commandProcessorStall (w : Fin 96) (die : BitVec 2) (s : State) : exec (.commandProcessorStall w die) s =
    .next (if s.modServing w.val && !(s.paused w.val) then loseModule w.val 6 s else s) := rfl

theorem exec_moduleRetest (port : BitVec 4) (val : Word) (s : State) :
    exec (.moduleRetest port val) s = .next (regOp port.toNat 0x130004 val.toNat (moduleRetest val s) s) := rfl

theorem exec_retestComplete (w : Fin 96) (items : List BootItem) (s : State) : exec (.retestComplete w items) s =
    .next (if (s.tray (w.val / 8)).svc = .inService then testsDone w.val items s else s) := rfl

/-! ### What a fence's replays leave (R311, R690 to R693) -/

theorem setRing_wear (s : State) (r : Nat) (x : Ring) : (s.setRing r x).wear = s.wear := rfl
theorem setChan_wear (s : State) (k : Nat) (x : Chan) : (s.setChan k x).wear = s.wear := rfl
theorem modCmd_wear (r : Nat) (q : DWord) (f : Cmd → Cmd) (s : State) : (modCmd r q f s).wear = s.wear := rfl
theorem inject_wear (p : Packet) (s : State) : (inject p s).wear = s.wear := rfl

theorem reportPoison_wear (r : Nat) (q : DWord) (m : List Nat) (l : List (Nat × Nat)) (s : State) :
    (reportPoison r q m l s).wear = s.wear := by
  unfold reportPoison
  dsimp only
  split
  · rfl
  · refine foldl_keeps State.wear _ (fun a u => ?_) _ s
    split
    · rfl
    · split
      · split
        · rfl
        · exact (modCmd_wear ..).trans ((deliver_wear ..).trans rfl)
      · rfl

theorem contribute_wear (who : Who) (src dst : Place) (k q n : Nat) (l : List (Nat × List Byte)) (s : State) :
    (contribute who src dst k q n l s).wear = s.wear :=
  foldl_keeps State.wear _ (fun _ _ => inject_wear ..) _ s

theorem startSend_wear (r : Nat) (c : Cmd) (s : State) : (startSend r c s).wear = s.wear := by
  unfold startSend
  dsimp only
  split
  · rfl
  · exact (reportPoison_wear ..).trans (contribute_wear ..)

theorem reduceMember_wear (r : Nat) (c : Cmd) (m : Nat) (s : State) : (reduceMember r c m s).wear = s.wear := by
  obtain ⟨a, l, heq, ha⟩ := reduceMember_keeps State.wear landWrite_wear contribute_wear r c m s
  rw [heq, reportPoison_wear, ha]

theorem chanAsk_wear (key piece addr len : Nat) (s : State) : (chanAsk key piece addr len s).wear = s.wear := rfl

theorem chanRead_wear (key piece addr len : Nat) (s : State) : (chanRead key piece addr len s).wear = s.wear := by
  unfold chanRead
  dsimp only
  split <;> rfl

theorem askReads_wear (key : Nat) (s : State) : (askReads key s).wear = s.wear := by
  unfold askReads
  dsimp only
  split
  · refine (setChan_wear ..).trans (foldl_keeps State.wear _ (fun a x => ?_) _ s)
    split
    · exact chanAsk_wear ..
    · exact chanRead_wear ..
  · rfl

theorem startChan_wear (key : Nat) (o : Option (Nat × DWord)) (s : State) : (startChan key o s).wear = s.wear :=
  (askReads_wear ..).trans rfl

theorem wakeChan_wear (key : Nat) (s : State) : (wakeChan key s).wear = s.wear := by
  unfold wakeChan
  split
  · rfl
  · split
    · exact (startChan_wear ..).trans rfl
    · rfl

theorem endAbort_wear (key : Nat) (s : State) : (endAbort key s).wear = s.wear := by
  have hcut : ∀ (o : Option (Nat × DWord)) (a : State),
      (match o with | some (r, seq) => completeCut r seq a | none => a).wear = a.wear := by
    intro o a
    cases o with
    | none => rfl
    | some x => exact completeCut_wear ..
  unfold endAbort
  dsimp only
  split
  · split
    · split
      · exact (startChan_wear ..).trans (hcut ..)
      · exact hcut ..
    · exact (wakeChan_wear ..).trans (hcut ..)
  · rfl

theorem fenceEvent_wear (f : FenceInfo) (r : Nat) (q : DWord) (s : State) : (fenceEvent f r q s).wear = s.wear := by
  unfold fenceEvent
  split
  · rfl
  · exact deliver_wear ..

theorem fenceFx_wear (f : FenceInfo) (r : Nat) (c : Cmd) (s : State) : (fenceFx f r c s).wear = s.wear := by
  unfold fenceFx
  dsimp only
  split
  · rfl
  · split
    · split
      · exact (modCmd_wear ..).trans ((fenceEvent_wear ..).trans (startSend_wear ..))
      · rfl
    · split
      · exact (modCmd_wear ..).trans ((fenceEvent_wear ..).trans (reduceMember_wear ..))
      · rfl
    · rfl

theorem foldl_fenceEvent_wear (f : FenceInfo) (r : Nat) (l : List Cmd) (s : State) :
    (l.foldl (fun a m => fenceEvent f r m.seq a) s).wear = s.wear :=
  foldl_keeps State.wear _ (fun _ _ => fenceEvent_wear ..) l s

theorem fenceChain_wear (f : FenceInfo) (r gi : Nat) (ms : List Cmd) (s : State) : (fenceChain f r gi ms s).wear = s.wear := by
  unfold fenceChain
  dsimp only
  split
  · exact (setRing_wear ..).trans (foldl_fenceEvent_wear f r ms s)
  · exact foldl_fenceEvent_wear f r ms s

theorem fenceMembers_wear (f : FenceInfo) (r : Nat) (ms : List Cmd) (s : State) : (fenceMembers f r ms s).wear = s.wear := by
  unfold fenceMembers
  split
  · rfl
  · split
    · split
      · exact fenceChain_wear ..
      · rfl
    · rfl

theorem writeIssued_wear (key : Nat) (s : State) : (writeIssued key s).wear = s.wear := (runTransfer_wear ..).trans rfl

/-- The channels of a fenced core: what they do with the owner's command is no part of the view. -/
theorem fenceChannel_wear (f : FenceInfo) (n : Nat) (s : State) : (fenceChannel f n s).wear = s.wear := by
  have hissued : ∀ k, (dropChanReads k (if (s.chan k).obj.st == .on then writeIssued k s else s)).wear = s.wear := by
    intro k
    split
    · exact writeIssued_wear k s
    · rfl
  unfold fenceChannel
  dsimp only
  generalize (f.g * 17 + f.pos) * 4 + n = k
  have hs0 := hissued k
  generalize dropChanReads k (if (s.chan k).obj.st == .on then writeIssued k s else s) = s0 at hs0
  generalize (if (s.chan k).obj.st == .on then writeIssued k s else s).chan k = c
  split
  · split
    · exact (endAbort_wear ..).trans hs0
    · split
      · split
        · exact hs0
        · split
          · exact (complete_wear ..).trans ((modCmd_wear ..).trans ((fenceEvent_wear ..).trans hs0))
          · split
            · exact (startChan_wear ..).trans ((fenceEvent_wear ..).trans hs0)
            · exact (modCmd_wear ..).trans ((fenceEvent_wear ..).trans hs0)
      · exact hs0
  · split
    · exact hs0
    · exact hs0

theorem replayAll_wear (f : FenceInfo) (s : State) : (replayAll f s).wear = s.wear := by
  unfold replayAll
  dsimp only
  refine (foldl_keeps State.wear (fun a n => fenceChannel f n a) (fun a n => fenceChannel_wear f n a) _ _).trans ?_
  refine foldl_keeps State.wear _ (fun a r => ?_) _ s
  rw [fenceMembers_wear, fenceMembers_wear]
  refine foldl_keeps State.wear _ (fun b c => ?_) _ a
  split
  · rfl
  · split
    · exact fenceFx_wear ..
    · exact (modCmd_wear ..).trans (fenceEvent_wear ..)

/-! ### Errors of columns (R695, R696, R698) -/

theorem replayAll_colCounts (f : FenceInfo) (s : State) : (replayAll f s).colCounts = s.colCounts :=
  colCounts_of_wear (replayAll_wear f s)

theorem columnLost_colCounts (g c : Nat) (s : State) : (columnLost g c s).colCounts = s.colCounts :=
  (loseModule_colCounts ..).trans (colCounts_of_wear (machineEvent_wear ..))

theorem colCounts_ite {p : Prop} [Decidable p] {a b : State} {x : Word × Word} (ha : a.colCounts = x) (hb : b.colCounts = x) :
    (if p then a else b).colCounts = x := by
  split
  · exact ha
  · exact hb

/-- A column that fails counts no error more, whether its module is lost, its core's commands are replayed, or neither. -/
theorem columnFails_colCounts (g c : Nat) (s : State) : (columnFails g c s).colCounts = s.colCounts :=
  colCounts_ite rfl (colCounts_ite (colCounts_ite (loseModule_colCounts ..)
    (colCounts_ite (replayAll_colCounts ..) rfl)) (columnLost_colCounts ..))

theorem repairRow_colCounts (g c row : Nat) (bad : Bool) (s : State) : (repairRow g c row bad s).colCounts = s.colCounts := by
  unfold repairRow
  dsimp only
  split
  · rfl
  · split
    · rfl
    · split
      · exact columnFails_colCounts ..
      · rfl

/-- With a spare row left the row is copied, and nothing else is done. -/
theorem repairRow_copies {g c row : Nat} {s : State} (bad : Bool) (h : (s.colm (s.colOf g c)).used < 64) :
    row ∈ ((repairRow g c row bad s).colm (s.colOf g c)).copying ∧ (repairRow g c row bad s).badUnits = s.badUnits := by
  unfold repairRow
  dsimp only
  split
  · rename_i hin
    exact ⟨List.contains_iff_mem.mp hin, rfl⟩
  · refine ⟨?_, rfl⟩
    rw [setColm_self]
    exact List.mem_append_right _ (List.mem_singleton_self _)

/-- A row that is repaired for corrected errors leaves what its column has counted, the poisoned units and the columns. -/
theorem repairRow_spares (g c row : Nat) (s : State) : (∀ k, ((repairRow g c row false s).colm k).ce = (s.colm k).ce) ∧
    (repairRow g c row false s).badUnits = s.badUnits ∧ (repairRow g c row false s).cols = s.cols := by
  have hce : ∀ (k : Nat) (x : Colm), x.ce = (s.colm k).ce → ∀ j, ((s.setColm k x).colm j).ce = (s.colm j).ce := by
    intro k x hx j
    by_cases hj : j = k
    · rw [hj, setColm_self, hx]
    · rw [setColm_ne _ _ hj]
  unfold repairRow
  dsimp only
  split
  · exact ⟨fun _ => rfl, rfl, rfl⟩
  · split
    · refine ⟨hce _ _ ?_, rfl, rfl⟩
      rfl
    · exact ⟨fun _ => rfl, rfl, rfl⟩

/-- The state with an uncorrectable unit counted and poisoned. -/
def State.poisonUnit (s : State) (key : Nat) : State :=
  { s with badUnits := s.badUnits ++ [key], flt := { s.flt with colUe := satInc s.flt.colUe } }

theorem columnError_bad {g u : Nat} {s : State} (hserving : s.modServing (g / 16) = true)
    (hclean : s.badUnits.contains (unitKey g u) = false) :
    columnError g u true s = repairRow g (unitSlot u) (unitRow u) true (s.poisonUnit (unitKey g u)) := by
  simp only [columnError, hserving, hclean, Bool.not_true, Bool.or_self, Bool.false_eq_true, if_false, if_true]
  rfl

/-- The state with a corrected error counted, for its column's row, the core and the machine. -/
def State.countError (s : State) (g u : Nat) : State :=
  let k := s.colOf g (unitSlot u)
  { (s.setColm k { s.colm k with ce := tset 0 (unitRow u) (tget 0 (unitRow u) (s.colm k).ce + 1) (s.colm k).ce }).setCore k
      { s.core k with colCe := satInc (s.core k).colCe } with
    flt := { s.flt with colCe := satInc s.flt.colCe } }

theorem columnError_corrected {g u : Nat} {s : State} (hserving : s.modServing (g / 16) = true)
    (hclean : s.badUnits.contains (unitKey g u) = false) : columnError g u false s =
      if tget 0 (unitRow u) (s.colm (s.colOf g (unitSlot u))).ce + 1 = 8 then
        repairRow g (unitSlot u) (unitRow u) false (s.countError g u) else s.countError g u := by
  simp only [columnError, hserving, hclean, Bool.not_true, Bool.or_self, Bool.false_eq_true, if_false]
  rfl

theorem countError_ce (s : State) (g u : Nat) :
    tget 0 (unitRow u) ((s.countError g u).colm (s.colOf g (unitSlot u))).ce =
      tget 0 (unitRow u) (s.colm (s.colOf g (unitSlot u))).ce + 1 := by
  have hself : (s.countError g u).colm (s.colOf g (unitSlot u)) = { s.colm (s.colOf g (unitSlot u)) with
      ce := tset 0 (unitRow u) (tget 0 (unitRow u) (s.colm (s.colOf g (unitSlot u))).ce + 1)
        (s.colm (s.colOf g (unitSlot u))).ce } := setColm_self s _ _
  rw [hself, tget_tset_self]

theorem runs_patrolScrubPass_bad {s : State} (w : Fin 96) (die isle : BitVec 2) (unit : BitVec 27)
    (hserving : s.modServing (isleKey w.val die.toNat isle.toNat / 16) = true)
    (hclean : s.badUnits.contains (unitKey (isleKey w.val die.toNat isle.toNat) unit.toNat) = false) :
    Runs (.patrolScrubPass w die isle unit 2) s (fun t => t.flt.colUe = satInc s.flt.colUe ∧ t.flt.colCe = s.flt.colCe ∧
      ((s.colm (s.colOf (isleKey w.val die.toNat isle.toNat) (unitSlot unit.toNat))).used < 64 →
        t.badUnits = s.badUnits ++ [unitKey (isleKey w.val die.toNat isle.toNat) unit.toNat] ∧
        unitRow unit.toNat ∈ (t.colm (s.colOf (isleKey w.val die.toNat isle.toNat) (unitSlot unit.toNat))).copying)) := by
  refine ⟨_, exec_patrolScrubPass .., ?_⟩
  generalize isleKey w.val die.toNat isle.toNat = g at hserving hclean
  rw [if_neg (by decide), show ((2 : BitVec 2) == 2) = true from rfl, columnError_bad hserving hclean]
  have hcounts := repairRow_colCounts g (unitSlot unit.toNat) (unitRow unit.toNat) true (s.poisonUnit (unitKey g unit.toNat))
  refine ⟨congrArg Prod.snd hcounts, congrArg Prod.fst hcounts, fun hspare => ?_⟩
  obtain ⟨hcopy, hunits⟩ := repairRow_copies (row := unitRow unit.toNat) (s := s.poisonUnit (unitKey g unit.toNat)) true hspare
  exact ⟨hunits, hcopy⟩

theorem runs_patrolScrubPass_corrected {s : State} (w : Fin 96) (die isle : BitVec 2) (unit : BitVec 27)
    (hserving : s.modServing (isleKey w.val die.toNat isle.toNat / 16) = true)
    (hclean : s.badUnits.contains (unitKey (isleKey w.val die.toNat isle.toNat) unit.toNat) = false) :
    Runs (.patrolScrubPass w die isle unit 1) s (fun t => t.flt.colCe = satInc s.flt.colCe ∧ t.flt.colUe = s.flt.colUe ∧
      tget 0 (unitRow unit.toNat) (t.colm (s.colOf (isleKey w.val die.toNat isle.toNat) (unitSlot unit.toNat))).ce =
        tget 0 (unitRow unit.toNat) (s.colm (s.colOf (isleKey w.val die.toNat isle.toNat) (unitSlot unit.toNat))).ce + 1 ∧
      t.badUnits = s.badUnits ∧ t.cols = s.cols) := by
  refine ⟨_, exec_patrolScrubPass .., ?_⟩
  generalize isleKey w.val die.toNat isle.toNat = g at hserving hclean
  rw [if_neg (by decide), show ((1 : BitVec 2) == 2) = false from rfl, columnError_corrected hserving hclean]
  have hce := countError_ce s g unit.toNat
  split
  · have hcounts := repairRow_colCounts g (unitSlot unit.toNat) (unitRow unit.toNat) false (s.countError g unit.toNat)
    obtain ⟨hkeep, hunits, hcols⟩ := repairRow_spares g (unitSlot unit.toNat) (unitRow unit.toNat) (s.countError g unit.toNat)
    exact ⟨congrArg Prod.fst hcounts, congrArg Prod.snd hcounts, by rw [hkeep, hce], hunits, hcols⟩
  · exact ⟨rfl, rfl, hce, rfl, rfl⟩

theorem runs_patrolScrubPass_clean (s : State) (w : Fin 96) (die isle : BitVec 2) (unit : BitVec 27) :
    Runs (.patrolScrubPass w die isle unit 0) s (fun t => t = s) := ⟨_, exec_patrolScrubPass .., if_pos (Or.inl rfl)⟩

/-! ### A row copy that ends (R696) -/

/-- The state with a row copied, before it is told. -/
def State.rowCopied (s : State) (g k row : Nat) : State :=
  let s1 := (s.setColm k { s.colm k with copying := (s.colm k).copying.filter (fun r => r != row) }).setIsle g
    { s.isle g with repaired := (s.isle g).repaired + 1 }
  { s1 with flt := { s1.flt with rowRepairs := satInc s1.flt.rowRepairs } }

theorem rowDone_told {g c row : Nat} {s : State} (h : row ∈ (s.colm (s.colOf g c)).copying) :
    rowDone g c row s = told (s.rowCopied g (s.colOf g c) row) (rowDone g c row s) := by
  rw [rowDone]
  dsimp only
  rw [if_pos (List.contains_iff_mem.mpr h)]
  exact machineEvent_told ..

theorem runs_rowRepairDone {s : State} (w : Fin 96) (die isle : BitVec 2) (slot : BitVec 4) (row : BitVec 16)
    (h : row.toNat ∈ (s.colm (s.colOf (isleKey w.val die.toNat isle.toNat) slot.toNat)).copying) :
    Runs (.rowRepairDone w die isle slot row) s (fun t =>
      row.toNat ∉ (t.colm (s.colOf (isleKey w.val die.toNat isle.toNat) slot.toNat)).copying ∧
      t.flt.rowRepairs = satInc s.flt.rowRepairs ∧
      (t.isle (isleKey w.val die.toNat isle.toNat)).repaired = (s.isle (isleKey w.val die.toNat isle.toNat)).repaired + 1 ∧
      (∀ j, j ≠ s.colOf (isleKey w.val die.toNat isle.toNat) slot.toNat → t.colm j = s.colm j) ∧
      t.badUnits = s.badUnits ∧ t.cols = s.cols) := by
  refine ⟨_, exec_rowRepairDone .., ?_⟩
  beta_reduce
  generalize isleKey w.val die.toNat isle.toNat = g at h
  have htold := rowDone_told h
  generalize rowDone g slot.toNat row.toNat s = t at htold
  generalize s.colOf g slot.toNat = k at htold
  have hcolm : ∀ j, t.colm j = (s.rowCopied g k row.toNat).colm j := fun j => by rw [htold]; rfl
  refine ⟨?_, by rw [htold]; rfl, ?_, fun j hj => ?_, by rw [htold]; rfl, by rw [htold]; rfl⟩
  · have hself : (s.rowCopied g k row.toNat).colm k =
        { s.colm k with copying := (s.colm k).copying.filter (fun r => r != row.toNat) } := setColm_self s k _
    rw [hcolm, hself]
    simp
  · have hisle : t.isle g = (s.rowCopied g k row.toNat).isle g := by rw [htold]; rfl
    rw [hisle]
    exact congrArg Isle.repaired (setIsle_self ..)
  · rw [hcolm]
    exact setColm_ne s _ hj

/-! ### A stall, and RETEST (R699, R700) -/

theorem runs_commandProcessorStall {s : State} (w : Fin 96) (die : BitVec 2) (hserving : s.modServing w.val = true)
    (hup : s.paused w.val = false) : Runs (.commandProcessorStall w die) s (fun t =>
      (t.mod w.val).state = 2 ∧ (t.mod w.val).stage = 15 ∧ (t.mod w.val).cause = 6 ∧ (t.pwrMod w.val).obj.st ≠ .on) := by
  refine ⟨_, exec_commandProcessorStall .., ?_⟩
  rw [hserving, hup, if_pos (by decide)]
  obtain ⟨hstate, hstage, hcause⟩ := loseModule_mod_self (cause := 6) hserving
  obtain ⟨ob, a, b, heq, hobj⟩ := loseModule_pwrMod_self w.val 6 s
  refine ⟨hstate, hstage, hcause, ?_⟩
  rw [heq, hobj]
  split
  · exact fun h => by cases h
  · rename_i hno
    exact fun h => hno (Or.inl h)

section
variable {s : State} {val : Word}

theorem moduleRetest_above (h : 95 < Fld val 0 7) : moduleRetest val s = .error 3 := if_pos h

theorem moduleRetest_serving (h : Fld val 0 7 ≤ 95) (hbit : bit val 8 = true) (hserving : s.modServing (Fld val 0 7) = true) :
    moduleRetest val s = .error 5 := by
  have hstate : (s.mod (Fld val 0 7)).state = 1 := by simpa [State.modServing] using hserving
  have hgo : ¬((!(bit val 8)) = true ∨ (s.mod (Fld val 0 7)).state = 0) := by simp [hbit, hstate]
  have hrefuse : (s.modServing (Fld val 0 7) || s.modInPart (Fld val 0 7) || (s.tray (Fld val 0 7 / 8)).svc != .inService ||
      (s.mod (Fld val 0 7)).notByRetest) = true := by simp [hserving]
  rw [moduleRetest]
  dsimp only
  rw [if_neg (Nat.not_lt.mpr h), if_neg (by simpa using hgo), if_pos hrefuse]

/-- A retest lowers and raises its module, or raises it. -/
def State.retested (s : State) (w : Nat) : State :=
  let s1 := s.setMod w { s.mod w with retest := true }
  if (s.pwrMod w).obj.st = .off ∧ (s.pwrMod w).rising = false ∧ (s.pwrMod w).testing = false then startRise w s1
  else markLow w (s1.setPwrMod w { s.pwrMod w with obj := { st := .winding, pending := true }, rising := false, testing := false })

theorem moduleRetest_ok (h : Fld val 0 7 ≤ 95) (hbit : bit val 8 = true) (hstate : (s.mod (Fld val 0 7)).state = 2)
    (hpart : s.modInPart (Fld val 0 7) = false) (htray : (s.tray (Fld val 0 7 / 8)).svc = .inService)
    (hcure : (s.mod (Fld val 0 7)).notByRetest = false) : moduleRetest val s = .ok (s.retested (Fld val 0 7)) := by
  have hout : s.modServing (Fld val 0 7) = false := by simp [State.modServing, hstate]
  rw [moduleRetest]
  dsimp only
  rw [if_neg (Nat.not_lt.mpr h), if_neg (by simp [hbit, hstate]), if_neg (by simp [hout, hpart, htray, hcure])]
  rfl

end

theorem retested_mod_self (s : State) (w : Nat) : (s.retested w).mod w = { s.mod w with retest := true } := by
  have hset : (s.setMod w { s.mod w with retest := true }).mod w = { s.mod w with retest := true } := setMod_self ..
  unfold State.retested
  dsimp only
  split
  · rw [startRise_frame]
    exact hset
  · rw [markLow_frame]
    exact hset

theorem retested_ne (s : State) {w j : Nat} (h : j ≠ w) :
    (s.retested w).mod j = s.mod j ∧ (s.retested w).pwrMod j = s.pwrMod j := by
  have hset : (s.setMod w { s.mod w with retest := true }).mod j = s.mod j := setMod_ne _ _ h
  unfold State.retested
  dsimp only
  split
  · refine ⟨?_, startRise_pwrMod_ne _ _ h⟩
    rw [startRise_frame]
    exact hset
  · refine ⟨?_, ?_⟩
    · rw [markLow_frame]
      exact hset
    · rw [markLow_pwrMod_ne _ _ h, setPwrMod_ne _ _ h]
      rfl

theorem setRetest_canRise (s : State) (w : Nat) : (s.setMod w { s.mod w with retest := true }).canRise w = s.canRise w := by
  have hset : (s.setMod w { s.mod w with retest := true }).mod w = { s.mod w with retest := true } := setMod_self ..
  unfold State.canRise
  rw [hset]
  rfl

theorem runs_moduleRetest_ok {s : State} (port : BitVec 4) {val : Word} (h : s.takesWrites = true) (hw : Fld val 0 7 ≤ 95)
    (hbit : bit val 8 = true) (hstate : (s.mod (Fld val 0 7)).state = 2) (hpart : s.modInPart (Fld val 0 7) = false)
    (htray : (s.tray (Fld val 0 7 / 8)).svc = .inService) (hcure : (s.mod (Fld val 0 7)).notByRetest = false) :
    Runs (.moduleRetest port val) s (fun t =>
      (t.mod (Fld val 0 7)).retest = true ∧ (t.mod (Fld val 0 7)).state = 2 ∧
      (∀ j, j ≠ Fld val 0 7 → t.mod j = s.mod j ∧ t.pwrMod j = s.pwrMod j) ∧
      ((s.pwrMod (Fld val 0 7)).obj.st = .off → (s.pwrMod (Fld val 0 7)).rising = false →
        (s.pwrMod (Fld val 0 7)).testing = false → s.canRise (Fld val 0 7) = true → (t.pwrMod (Fld val 0 7)).rising = true) ∧
      ((s.pwrMod (Fld val 0 7)).obj.st ≠ .off ∨ (s.pwrMod (Fld val 0 7)).rising = true ∨
        (s.pwrMod (Fld val 0 7)).testing = true → (t.pwrMod (Fld val 0 7)).obj = { st := .winding, pending := true })) := by
  refine runs_of_regOp_ok h (exec_moduleRetest ..) (moduleRetest_ok hw hbit hstate hpart htray hcure) ?_
  have htold := told_of_logged (setupNote_logged port.toNat 0x130004 val.toNat (s.retested (Fld val 0 7)))
  generalize setupNote port.toNat 0x130004 val.toNat (s.retested (Fld val 0 7)) = t at htold
  generalize Fld val 0 7 = w at hw hstate hpart htray hcure htold
  have hmod : ∀ j, t.mod j = (s.retested w).mod j := fun j => congrArg (tget _ j) (told_mods htold)
  have hpwr : ∀ j, t.pwrMod j = (s.retested w).pwrMod j := fun j => congrArg (tget _ j) (told_pwrMods htold)
  refine ⟨?_, ?_, fun j hj => ?_, fun hoff hidle htest hcan => ?_, fun hbusy => ?_⟩
  · rw [hmod, retested_mod_self]
  · rw [hmod, retested_mod_self]
    exact hstate
  · rw [hmod, hpwr]
    exact retested_ne s hj
  · rw [hpwr, State.retested]
    dsimp only
    rw [if_pos ⟨hoff, hidle, htest⟩]
    exact (startRise_raises ((setRetest_canRise s w).trans hcan)).1
  · have hno : ¬((s.pwrMod w).obj.st = .off ∧ (s.pwrMod w).rising = false ∧ (s.pwrMod w).testing = false) := by
      rintro ⟨hst, hrise, htest⟩
      simp [hst, hrise, htest] at hbusy
    rw [hpwr, State.retested]
    dsimp only
    rw [if_neg hno]
    obtain ⟨a, b, heq⟩ := markLow_pwrMod_self w ((s.setMod w { s.mod w with retest := true }).setPwrMod w
      { s.pwrMod w with obj := { st := .winding, pending := true }, rising := false, testing := false })
    rw [heq, setPwrMod_self]

/-! ### The tests end (R575, R700) -/

theorem tested_pwrMods (s : State) (w : Nat) (items : List BootItem) (r : Nat) : (s.tested w items r).pwr.mods = s.pwr.mods :=
  (told_pwrMods (told_of_logged (stageLog_logged ..))).trans
    (testModule_keeps (fun a => a.pwr.mods) (fun _ _ => rfl) (fun _ _ => rfl) (fun _ _ _ => rfl) w items s)

theorem joinInst_mods (c i : Nat) (s : State) : (joinInst c i s).mods = s.mods ∧ (joinInst c i s).pwr.mods = s.pwr.mods := by
  unfold joinInst
  dsimp only
  split
  · exact ⟨rfl, rfl⟩
  · exact ⟨(told_mods (told_of_logged (logAdd_logged ..))).trans rfl, (told_pwrMods (told_of_logged (logAdd_logged ..))).trans rfl⟩

theorem foldl_onLink_mods (f : Link → Link) (w : Nat) (l : List Nat) (s : State) :
    (l.foldl (fun a q => onLink (w * 8 + q) f a) s).mods = s.mods :=
  foldl_keeps State.mods (fun a q => onLink (w * 8 + q) f a) (fun a _ => onLink_keeps State.mods (fun _ _ => rfl) _ f a) l s

/-- A module that enters service. -/
theorem enterModule_mod_self (w : Nat) (s : State) : ((enterModule w s).mod w).state = 1 ∧ ((enterModule w s).mod w).cause = 0 ∧
    ((enterModule w s).mod w).retest = false := by
  have hmods : ∃ m : Mod, m.state = 1 ∧ m.cause = 0 ∧ m.retest = false ∧ (enterModule w s).mods = (s.setMod w m).mods := by
    refine ⟨_, ?_, ?_, ?_, (told_mods (machineEvent_told ..)).trans ((joinInst_mods ..).1.trans (foldl_onLink_mods _ w _ _))⟩
    all_goals rfl
  obtain ⟨m, hstate, hcause, hretest, heq⟩ := hmods
  have hself : (enterModule w s).mod w = m := (congrArg (tget _ w) heq).trans (setMod_self s w m)
  rw [hself]
  exact ⟨hstate, hcause, hretest⟩

theorem enterModule_pwrMods (w : Nat) (s : State) : (enterModule w s).pwr.mods = s.pwr.mods :=
  enterModule_keeps (fun a => a.pwr.mods) (fun _ _ => rfl) (fun _ _ => rfl) (fun c i a => (joinInst_mods c i a).2) told_pwrMods w s

theorem runs_retestComplete {s : State} (w : Fin 96) (items : List BootItem) (htray : (s.tray (w.val / 8)).svc = .inService)
    (htest : (s.pwrMod w.val).testing = true) (hup : s.paused w.val = false) (hwarm : s.coldMod w.val = false) :
    ((testModule w.val items s).1 = none → s.ordersOn w.val = true → Runs (.retestComplete w items) s (fun t =>
      (t.mod w.val).state = 1 ∧ (t.mod w.val).cause = 0 ∧ (t.mod w.val).retest = false ∧ (t.pwrMod w.val).testing = false ∧
      (t.pwrMod w.val).obj.st = .on)) ∧
    (∀ stage cause, (testModule w.val items s).1 = some (stage, cause) → Runs (.retestComplete w items) s (fun t =>
      (t.mod w.val).state = 2 ∧ (t.mod w.val).stage = BitVec.ofNat 4 stage ∧ (t.mod w.val).cause = BitVec.ofNat 4 cause ∧
      (t.pwrMod w.val).testing = false)) := by
  have hend : s.testsEnd w.val = true := by simp [State.testsEnd, htest, hup, hwarm]
  refine ⟨fun hfound horders => ⟨_, exec_retestComplete .., ?_⟩, fun stage cause hfound => ⟨_, exec_retestComplete .., ?_⟩⟩
  · have hself : ((s.tested w.val items 0).proven w.val).pwrMod w.val = { s.pwrMod w.val with
        obj := { st := .on }, rising := false, testing := false, testFrom := 0 } := by
      rw [State.proven, setPwrMod_self, State.pwrMod, tested_pwrMods]
      rfl
    have hon : ((s.tested w.val items 0).proven w.val).ordersOn w.val = true := by
      rw [State.ordersOn, hself]
      exact horders
    rw [if_pos htray, testsDone_passes hend hfound, if_pos hon]
    obtain ⟨hstate, hcause, hretest⟩ := enterModule_mod_self w.val ((s.tested w.val items 0).proven w.val)
    have hpwr : (enterModule w.val ((s.tested w.val items 0).proven w.val)).pwrMod w.val = _ :=
      (congrArg (tget _ w.val) (enterModule_pwrMods ..)).trans hself
    refine ⟨hstate, hcause, hretest, ?_, ?_⟩
    · rw [hpwr]
    · rw [hpwr]
  · rw [if_pos htray, testsDone_fails hend hfound]
    refine ⟨?_, ?_, ?_, failTests_testing ..⟩ <;> rw [failTests_mod_self]

/-- Settles O54: an error is counted and its row repaired, whatever else a failing column brings; a module's stall, its retest
and the end of its tests, each by its own rule. -/
theorem columnsRowsAndModulesAreRepaired : Obligations.ColumnsRowsAndModulesAreRepaired := by
  unfold Obligations.ColumnsRowsAndModulesAreRepaired
  refine ⟨fun s w die isle unit => ⟨fun hserving hclean => ⟨runs_patrolScrubPass_bad w die isle unit hserving hclean,
      runs_patrolScrubPass_corrected w die isle unit hserving hclean⟩, runs_patrolScrubPass_clean s w die isle unit⟩,
    fun s w die isle slot row => runs_rowRepairDone w die isle slot row, fun s w die => runs_commandProcessorStall w die,
    fun s port val h => ⟨fun habove => ?_, fun hw hbit hserving => ?_, runs_moduleRetest_ok port h⟩,
    fun s w items => runs_retestComplete w items⟩
  · exact runs_of_regOp_error h (exec_moduleRetest ..) (moduleRetest_above habove) rfl
  · exact runs_of_regOp_error h (exec_moduleRetest ..) (moduleRetest_serving hw hbit hserving) rfl

end Sys2Proof.Machine
end

section
/-! PROOFS. Link-down over a reset sequence that already runs (O12). -/

namespace Sys2Proof.Machine

open Sys2Proof

/-- A tenant bound to function 0 of port 0, whose link is up, is draining while its partition 0 is ON. -/
def drainingOn : State := { State.reset with
  ports := [(0, { up := true })]
  tens := [(0, { obj := { st := .on }, flr := .drain })]
  parts := [(0, { obj := { st := .on } })] }

theorem drainingOn_bound : (drainingOn.port 0).up = true ∧ drainingOn.resetTen 0 0 = some 0 ∧
    0 ∈ drainingOn.partsOf 0 ∧ (drainingOn.part 0).obj.st = .on := by decide +kernel

/-- The reset sequence that drains goes on, and the partition stays ON (R227). -/
theorem drainingOn_linkDown : ((linkDown 0 drainingOn).part 0).obj.st = .on := by decide +kernel

/-- Refutes O12: the reset sequence of a tenant that is draining as the link goes down is not started again, so that
a partition of it that is ON, in a state like `drainingOn`, is not cut. -/
theorem not_unboundFunctionsResetAtOnce : ¬ Obligations.UnboundFunctionsResetAtOnce := by
  unfold Obligations.UnboundFunctionsResetAtOnce
  intro h
  obtain ⟨hup, hbound, hpart, hon⟩ := drainingOn_bound
  obtain ⟨hruns, -⟩ := (h drainingOn 0 0).1 hup
  obtain ⟨t, hexec, ⟨hall, -⟩, -⟩ := hruns
  obtain ⟨-, hreset⟩ := hall 0
  obtain ⟨-, -, -, hparts⟩ := hreset 0 hbound
  obtain ⟨hwinding, -⟩ := hparts 0 hpart hon
  have ht : t = linkDown 0 drainingOn := (Host.Outcome.next.inj hexec).symm
  rw [ht, drainingOn_linkDown] at hwinding
  cases hwinding

end Sys2Proof.Machine
end

section
/-! PROOFS. Bring-up: power-on, and the end of a stage (O43). -/

namespace Sys2Proof.Machine

open Sys2Proof

/-! ### Power-on (R545, R549, R782) -/

theorem exec_powerOn (straps : List Word) (s : State) : exec (.powerOn straps) s = .next (powerOn straps s) := rfl

theorem told_win {s t : State} (h : t = told s t) : t.win = s.win := by
  rw [h]
  rfl

theorem clearSlots_win (s : State) : (clearSlots s).win = s.win := by
  refine foldl_keeps State.win _ (fun a i => ?_) _ s
  dsimp only
  split <;> rfl

theorem updAnswer_win (c : Nat) (s : State) : (updAnswer c s).win = s.win := by
  unfold updAnswer
  split <;> rfl

theorem abortUpdate_win (c : Nat) (s : State) : (abortUpdate c s).win = s.win := by
  have hidle : ∀ a : State, (updIdle a).win = a.win := fun _ => rfl
  have hevent : (abortEvent c s).win = s.win := (told_win (machineEvent_told ..) :)
  unfold abortUpdate
  dsimp only
  rw [hidle]
  split
  · exact (clearSlots_win ..).trans hevent
  · exact (updAnswer_win ..).trans hevent

theorem updBreak_win (c : Nat) (s : State) : (updBreak c s).win = s.win := by
  unfold updBreak
  split
  · exact abortUpdate_win ..
  · rfl

/-- One value written at every index of a list is read at each of them. -/
theorem tget_foldl_tset {α : Type} [DecidableEq α] (d v : α) (l : List Nat) {n : Nat} (h : n ∈ l) (m : Tab α) :
    tget d n (l.foldl (fun a k => tset d k v a) m) = v := by
  have hkeep : ∀ (l : List Nat) (m : Tab α), tget d n m = v → tget d n (l.foldl (fun a k => tset d k v a) m) = v := by
    intro l
    induction l with
    | nil => exact fun _ hm => hm
    | cons k l ih =>
      refine fun m hm => ih _ ?_
      by_cases hk : n = k
      · rw [hk, tget_tset_self]
      · rw [tget_tset_ne _ _ _ hk, hm]
  induction l generalizing m with
  | nil => cases h
  | cons k l ih =>
    rcases List.mem_cons.mp h with rfl | hmem
    · exact hkeep l _ (tget_tset_self ..)
    · exact ih hmem _

/-- No stage has a report at power-on. -/
theorem anewBoot_result (s : State) {n : Nat} (h : n < 12) : (tget {} n (anewBoot true s).reports).result = 0 := by
  have hreport : tget {} n (anewBoot true s).reports = noReport := by
    simp only [anewBoot, Bool.not_true, Bool.false_and, Bool.false_eq_true, if_false]
    exact tget_foldl_tset _ _ _ (List.mem_range.mpr h) _
  rw [hreport]
  rfl

/-- The straps of a tray as power-on finds them. -/
def takeStraps (straps : List Word) (s : State) (t : Nat) : State :=
  match straps[t]? with
  | some v =>
    s.setTray t { s.tray t with
      badType := if Fld v 5 3 = trayType t then none else some (BitVec.ofNat 3 (Fld v 5 3))
      ctlHost := Fld v 12 4, fabMode := bit v 8, preset := BitVec.ofNat 3 (Fld v 9 3), pipeMode := bit v 16 }
  | none => s

theorem powerOn_eq (straps : List Word) {s : State} (h : s.boot.powered = false) :
    powerOn straps s = updBreak 16 ((List.range 18).foldl (takeStraps straps) (anew true s)) := by
  refine (if_neg ?_).trans rfl
  simp [h]

theorem takeStraps_keeps {γ : Type} (v : State → γ) (hset : ∀ a u x, v (State.setTray a u x) = v a) (straps : List Word)
    (s : State) (t : Nat) : v (takeStraps straps s t) = v s := by
  unfold takeStraps
  split
  · exact hset ..
  · rfl

theorem powerOn_bootView (straps : List Word) {s : State} (h : s.boot.powered = false) :
    (powerOn straps s).bootView = (anew true s).bootView := by
  rw [powerOn_eq straps h, updBreak_bootView]
  exact foldl_keeps State.bootView (takeStraps straps) (takeStraps_keeps _ (fun _ _ _ => rfl) straps) _ _

theorem powerOn_win (straps : List Word) {s : State} (h : s.boot.powered = false) :
    (powerOn straps s).win = (anew true s).win := by
  rw [powerOn_eq straps h, updBreak_win]
  exact foldl_keeps State.win (takeStraps straps) (takeStraps_keeps _ (fun _ _ _ => rfl) straps) _ _

theorem runs_powerOn {s : State} (straps : List Word) (h : s.boot.powered = false) : Runs (.powerOn straps) s (fun t =>
    t.boot.powered = true ∧ t.boot.stage = 0 ∧ t.boot.st = 0 ∧ t.boot.items = [] ∧ t.boot.degraded = false ∧
    (∀ n, n < 12 → (tget {} n t.boot.reports).result = 0) ∧ t.parts = [] ∧ t.rings = [] ∧
    t.win.strapOvr = s.stored 0x280 0) := by
  refine ⟨_, exec_powerOn straps s, ?_⟩
  have hview := powerOn_bootView straps h
  simp only [State.bootView, Prod.mk.injEq] at hview
  obtain ⟨hboot, hparts, hrings, -⟩ := hview
  beta_reduce
  rw [hboot, hparts, hrings, powerOn_win straps h]
  exact ⟨rfl, rfl, rfl, rfl, rfl, fun n hn => anewBoot_result s hn, rfl, rfl, rfl⟩

/-! ### A stage's report (R547, R548) -/

theorem report_trays (n : Nat) (o : StageOut) (s : State) : (report n o s).trays = s.trays := by
  have hlog : ∀ c k p a b d (x : State), (logAdd c k p a b d x).trays = x.trays := fun _ _ _ _ _ _ _ =>
    told_trays (told_of_logged (logAdd_logged ..))
  exact hlog ..

theorem report_result (n : Nat) (o : StageOut) (s : State) :
    (tget {} n (report n o s).boot.reports).result = o.result n := by
  unfold report
  dsimp only
  rw [logAdd_boot]
  exact congrArg BootRep.result (tget_tset_self ..)

theorem report_items (n : Nat) (o : StageOut) (s : State) :
    (tget {} n (report n o s).boot.reports).items = BitVec.ofNat 8 (min 255 o.items.length) := by
  unfold report
  dsimp only
  rw [logAdd_boot]
  exact congrArg BootRep.items (tget_tset_self ..)

/-! ### What follows a stage's report -/

/-- Bring-up that stops marks its boot block, whatever it lowers. -/
theorem stopBoot_boot (n : Nat) (s : State) : (stopBoot n s).boot = { s.boot with st := 2, failCode := some n } := by
  have hlower : ∀ w a, (lowerMod w a).boot = a.boot := fun w a => by rw [lowerMod_frame]
  unfold stopBoot
  dsimp only
  split
  · exact foldl_keeps State.boot (fun a w => lowerMod w a) (fun a w => hlower w a) _ _
  · rfl

/-- Bring-up that completes marks its boot block, whatever trays then come up. -/
theorem endBoot_boot (s : State) : (endBoot s).boot = { s.boot with
    st := 1, again := false, codes := (List.range 12).filter (fun n => (tget {} n s.boot.reports).result == 2) } := by
  have hjoin : ∀ (a : State) t, (startJoin t a).boot = a.boot := fun a t =>
    startJoin_keeps State.boot (fun _ _ _ => rfl) (fun _ _ _ => rfl) (fun h => by rw [h]; rfl) t a
  exact foldl_keeps State.boot (fun a t => startJoin t a) hjoin _ _

theorem beginStage_other {n : Nat} (h2 : n ≠ 2) (h3 : n ≠ 3) (s : State) : beginStage n s = stageBegun n s :=
  (if_neg h2).trans (if_neg h3)

/-- The boot block of a stage just begun, whatever it then closes or raises. -/
theorem beginStage_boot (n : Nat) (s : State) : (beginStage n s).boot = (stageBegun n s).boot := by
  by_cases h2 : n = 2
  · rw [h2, beginStage_two]
    exact (foldl_closeContactor_keeps _ _).1
  · by_cases h3 : n = 3
    · rw [h3]
      exact (beginStage_three_boot_upd s).1
    · rw [beginStage_other h2 h3]

/-! ### The transport switch at stage 2 (R555) -/

/-- A missing tray's modules are out, and it has failed. -/
def missTray (wrong : List Nat) (s : State) (t : Nat) : State :=
  let b := (trayMods t).foldl (fun b w => if (b.mod w).state = 0 then b
    else b.setMod w { b.mod w with stage := 2, cause := if wrong.contains t then 3 else 2 }) s
  b.setTray t { b.tray t with svc := .failed, strapsRead := wrong.contains t }

theorem missTray_upd (wrong : List Nat) (s : State) (t : Nat) : (missTray wrong s t).upd = s.upd := by
  refine foldl_keeps State.upd _ (fun b w => ?_) (trayMods t) s
  split <;> rfl

/-- Stage 2 keeps in the Sound's tray whether the transport switch is on. -/
theorem stage2_transport (its : List BootItem) (s : State) :
    ((stage2 its s).st.tray 17).transport = s.upd.switch := by
  have htell : ∀ (a : State) t, (tellWords t a).trays = a.trays := fun a t => by
    obtain ⟨x, hx⟩ := tellWords_told t a
    exact (told_trays hx).trans rfl
  have hmiss := fun wrong l => foldl_keeps State.upd (missTray wrong) (missTray_upd wrong) l s
  unfold stage2
  dsimp only
  rw [tray_of_trays (foldl_keeps State.trays (fun a t => tellWords t a) htell _ _)]
  refine (congrArg Tray.transport (setTray_self ..)).trans ?_
  refine congrArg Upd.switch ((foldl_keeps State.upd _ (fun _ _ => ?_) _ _).trans (hmiss _ _))
  rfl

/-! ### The end of a stage (R547) -/

/-- What the stage in progress comes to, with what failed in it and the trays removed meanwhile. -/
def State.stageOut (s : State) (its : List BootItem) : StageOut :=
  let n := s.boot.stage
  let w := stageWork n (s.boot.found ++ its.filter (fun b => b.stage == n || (n == 8 && b.stage == 7))) s
  { w with items := w.items ++ s.boot.gone.map (fun t => itemAt n t 0 0 0 0 2) }

/-- The state with the report of stage n written. -/
def StageOut.reported (n : Nat) (o : StageOut) : State := report n o (if n = 1 then logFirst o.st else o.st)

/-- Where bring-up goes from stage n, the report written: it stops, is held, completes or begins the next stage. -/
def StageOut.goOn (n : Nat) (o : StageOut) : State :=
  let s1 := o.reported n
  if o.stop then stopBoot n s1
  else if n = 2 ∧ (s1.tray 17).transport = true then { s1 with boot := { s1.boot with held := true } }
  else if n = 11 then endBoot s1
  else beginStage (n + 1) s1

theorem endStage_eq (its : List BootItem) (s : State) : endStage its s = (s.stageOut its).goOn s.boot.stage := rfl

/-- The report stands, whatever follows it. -/
theorem goOn_reports (n : Nat) (o : StageOut) : (o.goOn n).boot.reports = (o.reported n).boot.reports := by
  unfold StageOut.goOn
  dsimp only
  split
  · rw [stopBoot_boot]
  · split
    · rfl
    · split
      · rw [endBoot_boot]
      · rw [beginStage_boot]; rfl

theorem goOn_stops (n : Nat) (o : StageOut) (h : o.stop = true) : (o.goOn n).boot.st = 2 := by
  have heq : o.goOn n = stopBoot n (o.reported n) := if_pos h
  rw [heq, stopBoot_boot]

theorem goOn_holds (o : StageOut) (h : o.stop = false) (hon : ((o.reported 2).tray 17).transport = true) :
    (o.goOn 2).boot.held = true := by
  have heq : o.goOn 2 = { o.reported 2 with boot := { (o.reported 2).boot with held := true } } :=
    (if_neg (by simp [h])).trans (if_pos ⟨rfl, hon⟩)
  rw [heq]

theorem goOn_completes (o : StageOut) (h : o.stop = false) : (o.goOn 11).boot.st = 1 := by
  have heq : o.goOn 11 = endBoot (o.reported 11) := (if_neg (by simp [h])).trans ((if_neg (by simp)).trans (if_pos rfl))
  rw [heq, endBoot_boot]

theorem goOn_begins_next {n : Nat} (o : StageOut) (h : o.stop = false) (hlast : n ≠ 11)
    (hfree : ¬(n = 2 ∧ ((o.reported n).tray 17).transport = true)) :
    (o.goOn n).boot.stage = n + 1 ∧ (o.goOn n).boot.held = false := by
  have heq : o.goOn n = beginStage (n + 1) (o.reported n) :=
    (if_neg (by simp [h])).trans ((if_neg hfree).trans (if_neg hlast))
  rw [heq, beginStage_boot]
  exact ⟨rfl, rfl⟩

/-- Bring-up is held by the switch as stage 2 finds it. -/
theorem stageOut_transport (its : List BootItem) {s : State} (h : s.boot.stage = 2) :
    (((s.stageOut its).reported 2).tray 17).transport = s.upd.switch := by
  have hst : (s.stageOut its).st = (stage2 (s.boot.found ++ its.filter (fun b => b.stage == 2 || (2 == 8 && b.stage == 7))) s).st := by
    unfold State.stageOut
    rw [h]
    rfl
  unfold StageOut.reported
  rw [if_neg (by decide), tray_of_trays (report_trays ..), hst]
  exact stage2_transport ..

/-- Stage n has ended as `o` has it: its report is written, and bring-up has stopped, completed, is held, or goes on. -/
def StageEnded (n : Nat) (switch : Bool) (o : StageOut) (t : State) : Prop :=
  (tget {} n t.boot.reports).result = o.result n ∧
  (tget {} n t.boot.reports).items = BitVec.ofNat 8 (min 255 o.items.length) ∧
  (o.stop = true → t.boot.st = 2) ∧
  (o.stop = false → n = 11 → t.boot.st = 1) ∧
  (o.stop = false → n = 2 → switch = true → t.boot.held = true) ∧
  (o.stop = false → n ≠ 11 → ¬(n = 2 ∧ switch = true) → t.boot.stage = n + 1 ∧ t.boot.held = false)

theorem endStage_ended (its : List BootItem) (s : State) :
    StageEnded s.boot.stage s.upd.switch (s.stageOut its) (endStage its s) := by
  have hswitch : s.boot.stage = 2 → (((s.stageOut its).reported s.boot.stage).tray 17).transport = s.upd.switch := fun h => by
    rw [h]
    exact stageOut_transport its h
  rw [endStage_eq]
  unfold StageEnded
  rw [goOn_reports]
  refine ⟨report_result .., report_items .., goOn_stops _ _, fun hgo hn => ?_, fun hgo hn hon => ?_, fun hgo hn hfree => ?_⟩
  · rw [hn]
    exact goOn_completes _ hgo
  · rw [hn] at hswitch ⊢
    exact goOn_holds _ hgo ((hswitch rfl).trans hon)
  · exact goOn_begins_next _ hgo hn fun ⟨h2, hon⟩ => hfree ⟨h2, (hswitch h2).symm.trans hon⟩

/-! ### STAGE_END and STAGE_BOUND_EXPIRY (R546, R547) -/

/-- The rails still rising at the bound of stage 3, as items. -/
def State.lateRails (s : State) : List BootItem :=
  ((List.range 96).filter (fun w => (s.pwrMod w).rising)).map (fun w => modItem 3 w 2)

theorem exec_stageEnd (items : List BootItem) (s : State) :
    exec (.stageEnd items) s = .next (if s.stageRuns && s.stageDone then endStage items s else s) := rfl

theorem exec_stageBoundExpiry (items : List BootItem) (s : State) :
    exec (.stageBoundExpiry items) s = .next (stageExpiry items s) := rfl

theorem stageExpiry_eq (items : List BootItem) {s : State} (hruns : s.stageRuns = true)
    (hlate : stageBound s.boot.stage ≤ s.stageTicks) (hdone : s.boot.stage = 4 → s.stageDone = true) :
    stageExpiry items s = endStage (items ++ if s.boot.stage = 3 then s.lateRails else []) s := by
  refine if_pos ?_
  by_cases h4 : s.boot.stage = 4
  · simp [hruns, hlate, hdone h4]
  · simp [hruns, hlate, h4]

theorem runs_stageEnd (items : List BootItem) {s : State} (hruns : s.stageRuns = true) (hdone : s.stageDone = true) :
    Runs (.stageEnd items) s (StageEnded s.boot.stage s.upd.switch (s.stageOut items)) := by
  refine ⟨_, exec_stageEnd items s, ?_⟩
  rw [if_pos (by simp [hruns, hdone])]
  exact endStage_ended items s

theorem runs_stageBoundExpiry (items : List BootItem) {s : State} (hruns : s.stageRuns = true)
    (hlate : stageBound s.boot.stage ≤ s.stageTicks) (hdone : s.boot.stage = 4 → s.stageDone = true) :
    Runs (.stageBoundExpiry items) s (StageEnded s.boot.stage s.upd.switch
      (s.stageOut (items ++ if s.boot.stage = 3 then s.lateRails else []))) := by
  refine ⟨_, exec_stageBoundExpiry items s, ?_⟩
  rw [stageExpiry_eq items hruns hlate hdone]
  exact endStage_ended _ s

/-- Settles O43: a stage's report is written before bring-up stops, is held, completes or goes on, and none of these rewrites
it. -/
theorem bringUpRunsItsStages : Obligations.BringUpRunsItsStages := by
  unfold Obligations.BringUpRunsItsStages
  refine ⟨fun s straps h => runs_powerOn straps h, fun s items => ?_⟩
  intro n o ends late hruns
  refine ⟨fun hdone => runs_stageEnd items hruns hdone, fun hbound => ⟨fun h3 hdone => ?_, fun h3 => ?_⟩⟩
  · have hend := runs_stageBoundExpiry items hruns hbound hdone
    rw [if_neg h3, List.append_nil] at hend
    exact hend
  · have h4 : s.boot.stage = 4 → s.stageDone = true := fun h => absurd (h3.symm.trans h) (by decide)
    have hend := runs_stageBoundExpiry items hruns hbound h4
    rw [if_pos h3] at hend
    exact hend

end Sys2Proof.Machine
end
